-- ==== Sys2Proof/Word.lean ====
section
/-! DEFINITION.  The word types of the part (R6, R165) and their plainest arithmetic. -/

namespace Sys2Proof

/-- A byte of memory. -/
abbrev Byte := BitVec 8
/-- A word of 32 bits: an instruction word, a vector lane. -/
abbrev W32 := BitVec 32
/-- A double of 64 bits: a general register, the PC, a CSR. -/
abbrev Word := BitVec 64
/-- A significance tag of 6 bits (R88). -/
abbrev Tag := BitVec 6

/-- The tag EXACT (R88). -/
def Tag.exact : Tag := 63#6
/-- The side-tag value that means no stored tag (R40). -/
def Tag.none : Tag := 62#6

end Sys2Proof
end

