-- ==== Sys2Proof/Config.lean ====
section
/-! DEFINITION.  The values that the manual leaves open and nothing in the model fixes: opaque constants,
applied to State's counter of free values or to the data they depend on.  No proof can see what they are. -/

namespace Sys2Proof.Config

/-- How far, in ns, a core's reading of Meridian lies behind the package's (R34: within 2 ns of each other;
log entry 8).  Only its remainder modulo 3 is used. -/
opaque skew : Nat → Nat

/-- The 64 bytes of a heap chunk's header: its check word, process identifier and class, by the chunk's address,
the identifier and the block size; the layout is open (R60; log entry 9). -/
opaque chunkHeader : Nat → Nat → Nat → List (BitVec 8)

/-- Which of a chunk's free blocks an ALLOC takes, by the chunk's address, the block size and the blocks handed out (R60;
log entry 9).  It depends on nothing that timing moves (R5). -/
opaque heapChoice : Nat → Nat → List Nat → Nat

/-- The double that FREE writes as a block's link, and the one that takes a marker's place where a block is handed out
again, by the block's address and the blocks handed out (R61; log entry 9). -/
opaque heapLink : Nat → List Nat → BitVec 64

/-- The marker that FREE writes in a block, by the block's address (R61; log entry 9). -/
opaque freeMarker : Nat → BitVec 64

/-- Byte k of the signature of a quote over its bytes (R403; log entry 10). -/
opaque signature : List (BitVec 8) → Nat → BitVec 8

/-- Byte k of the public key of the module's identity (R403; log entry 10). -/
opaque publicKey : Nat → BitVec 8

/-- The tag of an exact cell whose count is 0 beside a finite umax, read inexactly (R98; log entry 29). -/
opaque freeTag : Nat → BitVec 6

/-- A value that the manual does not state, numbered by State's counter of free values (log entry 30). -/
opaque freeValue : Nat → BitVec 64

end Sys2Proof.Config
end

