-- ==== Sys2Proof/Syntax.lean ====
section
/-! DEFINITION.  The instructions of the Ouvtos X8 (Zenil): one constructor for every row of the opcode
table.  The first 233 are encoded instructions, each field a bit vector of the width the encoding gives it
(R171-R175).  The last 115 are the part's other indivisible steps (95_what_each_step_holds.md): the
messages, engines, array, distributor, host and firmware act through them, and the environment's schedule
names them (State.agenda). -/

namespace Sys2Proof

/-- A pointer argument that a system call declares: its register, the register that holds its length, and
the directions of the bounce copy (R367, R368). -/
structure PtrDecl where
  reg : Nat
  lenReg : Nat
  isIn : Bool
  isOut : Bool
  deriving DecidableEq, Repr

/-- A call at the syscall gate (R367, R368): the handler passing it to the gate (take), and otherwise the gate's
reply: whether the code is declared, whether the gate is busy or the call refused, the pointers, the V-space address of
the staging area, the bytes of each out pointer, the result for g4 and the values of g5-g13 it changes. -/
structure GateCall where
  take : Bool
  declared : Bool
  busy : Bool
  refused : Bool
  ptrs : List PtrDecl
  area : Nat := 0
  outs : List (List (BitVec 8))
  result : BitVec 64
  regs : List (Nat × BitVec 64)
  deriving DecidableEq, Repr

/-- What Daybreak finds (R1, R383, R395): the pairs whose firmware verifies, the dies whose repair map verifies, the
channels to be retired, the usable depth in sectors of each channel that holds less than a whole one, the tiles whose
spare core and the super-groups whose spare tile the repair maps use, the super-groups that they withdraw, and the
measurements of the pairs and of the repair maps. -/
structure BootReport where
  pairs : BitVec 8
  dies : BitVec 8
  retired : List Nat
  depths : List (Nat × Nat)
  spareCores : List Nat
  spareTiles : List Nat
  withdrawn : BitVec 16
  measures : List (BitVec 256)
  maps : List (BitVec 256)
  deriving DecidableEq, Repr

/-- The unit that failed (R395): a core, a tile, a channel, or a spare that is not in use: the spare core of a tile, or the
spare tile of a super-group. -/
inductive FailedUnit where
  | core (id : Nat)
  | tile (id : Nat)
  | channel (n : Nat)
  | spareCore (tile : Nat)
  | spareTile (sg : Nat)
  deriving DecidableEq, Repr

/-- A write that firmware makes while a partition is stopped (R388): a register, lane, PW, PC, CSR or mode of a
slot, a scratchpad word with its tag and poison mark, an engine register, a coverage entry, or a plane's window, cell, column, or an accumulator
as a sign, a magnitude and an exponent of two. -/
inductive StateWrite where
  | general (core slot reg : Nat) (v : BitVec 64)
  | lane (core slot reg lane : Nat) (v : BitVec 32) (tag : BitVec 6)
  | predicates (core slot : Nat) (v : BitVec 16)
  | pc (core slot : Nat) (v : BitVec 64)
  | csr (core slot num : Nat) (v : BitVec 64)
  | scratch (core off : Nat) (v : BitVec 32) (tag : BitVec 6) (poison : Bool)
  | engineReg (tile idx : Nat) (v : BitVec 64)
  | coverage (tile idx : Nat) (v : BitVec 32)
  | mode (core slot : Nat) (m : Nat)
  | plane (tile : Nat) (live : Bool) (win : Nat)
  | cell (tile : Nat) (live : Bool) (k n : Nat) (v : Option (Bool × Nat × Int))
  | column (tile : Nat) (live : Bool) (n : Nat) (key : BitVec 16) (tag : BitVec 6)
  | acc (tile m n : Nat) (v : Bool × Nat × Int) (ki : Nat) (tag : BitVec 6)
  deriving DecidableEq, Repr

/-- The instructions and steps of the part, one constructor for each row of the opcode table. -/
inductive Instr where
  /-- ADD (R189): Writes the 64-bit sum of two general registers. -/
  | add (d : BitVec 5) (a : BitVec 5) (b : BitVec 5)
  /-- SUB (R189): Writes the 64-bit difference of two general registers. -/
  | sub (d : BitVec 5) (a : BitVec 5) (b : BitVec 5)
  /-- AND (R189): Writes the bitwise AND of two general registers. -/
  | and (d : BitVec 5) (a : BitVec 5) (b : BitVec 5)
  /-- OR (R189): Writes the bitwise OR of two general registers. -/
  | or (d : BitVec 5) (a : BitVec 5) (b : BitVec 5)
  /-- XOR (R189): Writes the bitwise XOR of two general registers. -/
  | xor (d : BitVec 5) (a : BitVec 5) (b : BitVec 5)
  /-- ANDN (R189): Writes a AND NOT b. -/
  | andn (d : BitVec 5) (a : BitVec 5) (b : BitVec 5)
  /-- SLL (R189): Shifts a left by b[5:0]. -/
  | sll (d : BitVec 5) (a : BitVec 5) (b : BitVec 5)
  /-- SRL (R189): Shifts a right logically by b[5:0]. -/
  | srl (d : BitVec 5) (a : BitVec 5) (b : BitVec 5)
  /-- SRA (R189): Shifts a right arithmetically by b[5:0]. -/
  | sra (d : BitVec 5) (a : BitVec 5) (b : BitVec 5)
  /-- SLT (R189): Writes 1 when a is below b signed. -/
  | slt (d : BitVec 5) (a : BitVec 5) (b : BitVec 5)
  /-- SLTU (R189): Writes 1 when a is below b unsigned. -/
  | sltu (d : BitVec 5) (a : BitVec 5) (b : BitVec 5)
  /-- MIN (R189): Writes the signed minimum of a and b. -/
  | min (d : BitVec 5) (a : BitVec 5) (b : BitVec 5)
  /-- MAX (R189): Writes the signed maximum of a and b. -/
  | max (d : BitVec 5) (a : BitVec 5) (b : BitVec 5)
  /-- MINU (R189): Writes the unsigned minimum of a and b. -/
  | minu (d : BitVec 5) (a : BitVec 5) (b : BitVec 5)
  /-- MAXU (R189): Writes the unsigned maximum of a and b. -/
  | maxu (d : BitVec 5) (a : BitVec 5) (b : BitVec 5)
  /-- CLZ (R189): Counts leading zero bits of a. -/
  | clz (d : BitVec 5) (a : BitVec 5)
  /-- CTZ (R189): Counts trailing zero bits of a. -/
  | ctz (d : BitVec 5) (a : BitVec 5)
  /-- POPC (R189): Counts one bits of a. -/
  | popc (d : BitVec 5) (a : BitVec 5)
  /-- SEXTB (R189): Sign-extends the low byte of a. -/
  | sextb (d : BitVec 5) (a : BitVec 5)
  /-- SEXTH (R189): Sign-extends the low half of a. -/
  | sexth (d : BitVec 5) (a : BitVec 5)
  /-- SEXTW (R189): Sign-extends the low word of a. -/
  | sextw (d : BitVec 5) (a : BitVec 5)
  /-- ZEXTW (R189): Zero-extends the low word of a. -/
  | zextw (d : BitVec 5) (a : BitVec 5)
  /-- ADDW (R189): Adds low words and sign-extends the 32-bit result. -/
  | addw (d : BitVec 5) (a : BitVec 5) (b : BitVec 5)
  /-- SUBW (R189): Subtracts low words and sign-extends the 32-bit result. -/
  | subw (d : BitVec 5) (a : BitVec 5) (b : BitVec 5)
  /-- SLLW (R189): Shifts the low word left by b[4:0] and sign-extends. -/
  | sllw (d : BitVec 5) (a : BitVec 5) (b : BitVec 5)
  /-- SRLW (R189): Shifts the low word right logically and sign-extends. -/
  | srlw (d : BitVec 5) (a : BitVec 5) (b : BitVec 5)
  /-- SRAW (R189): Shifts the low word right arithmetically and sign-extends. -/
  | sraw (d : BitVec 5) (a : BitVec 5) (b : BitVec 5)
  /-- ADDI (R190): Adds a sign-extended immediate. -/
  | addi (d : BitVec 5) (a : BitVec 5) (i : BitVec 16)
  /-- ANDI (R190): ANDs with a sign-extended immediate. -/
  | andi (d : BitVec 5) (a : BitVec 5) (i : BitVec 16)
  /-- ORI (R190): ORs with a zero-extended immediate. -/
  | ori (d : BitVec 5) (a : BitVec 5) (i : BitVec 16)
  /-- XORI (R190): XORs with a zero-extended immediate. -/
  | xori (d : BitVec 5) (a : BitVec 5) (i : BitVec 16)
  /-- SLTI (R190): Signed compare against an immediate. -/
  | slti (d : BitVec 5) (a : BitVec 5) (i : BitVec 16)
  /-- SLTIU (R190): Unsigned compare against a sign-extended immediate. -/
  | sltiu (d : BitVec 5) (a : BitVec 5) (i : BitVec 16)
  /-- SLLI (R191): Shifts left by an immediate amount. -/
  | slli (d : BitVec 5) (a : BitVec 5) (s : BitVec 6)
  /-- SRLI (R191): Shifts right logically by an immediate amount. -/
  | srli (d : BitVec 5) (a : BitVec 5) (s : BitVec 6)
  /-- SRAI (R191): Shifts right arithmetically by an immediate amount. -/
  | srai (d : BitVec 5) (a : BitVec 5) (s : BitVec 6)
  /-- LUI (R192): Writes the sign-extended immediate shifted left by 16. -/
  | lui (d : BitVec 5) (i : BitVec 16)
  /-- ADDPC (R192): Writes PC plus the immediate shifted left by 16. -/
  | addpc (d : BitVec 5) (i : BitVec 16)
  /-- MUL (R193): Writes the low 64 bits of the product. -/
  | mul (d : BitVec 5) (a : BitVec 5) (b : BitVec 5)
  /-- MULH (R193): Writes the high 64 bits of the signed product. -/
  | mulh (d : BitVec 5) (a : BitVec 5) (b : BitVec 5)
  /-- MULHU (R193): Writes the high 64 bits of the unsigned product. -/
  | mulhu (d : BitVec 5) (a : BitVec 5) (b : BitVec 5)
  /-- MULW (R193): Writes the sign-extended 32-bit product of low words. -/
  | mulw (d : BitVec 5) (a : BitVec 5) (b : BitVec 5)
  /-- DIV (R193): Writes the signed quotient under R67. -/
  | div (d : BitVec 5) (a : BitVec 5) (b : BitVec 5)
  /-- DIVU (R193): Writes the unsigned quotient under R67. -/
  | divu (d : BitVec 5) (a : BitVec 5) (b : BitVec 5)
  /-- REM (R193): Writes the signed remainder under R67. -/
  | rem (d : BitVec 5) (a : BitVec 5) (b : BitVec 5)
  /-- REMU (R193): Writes the unsigned remainder under R67. -/
  | remu (d : BitVec 5) (a : BitVec 5) (b : BitVec 5)
  /-- BEQ (R194): Branches when the registers are equal. -/
  | beq (a : BitVec 5) (b : BitVec 5) (d : BitVec 16)
  /-- BNE (R194): Branches when the registers differ. -/
  | bne (a : BitVec 5) (b : BitVec 5) (d : BitVec 16)
  /-- BLT (R194): Branches when a is below b signed. -/
  | blt (a : BitVec 5) (b : BitVec 5) (d : BitVec 16)
  /-- BGE (R194): Branches when a is at least b signed. -/
  | bge (a : BitVec 5) (b : BitVec 5) (d : BitVec 16)
  /-- BLTU (R194): Branches when a is below b unsigned. -/
  | bltu (a : BitVec 5) (b : BitVec 5) (d : BitVec 16)
  /-- BGEU (R194): Branches when a is at least b unsigned. -/
  | bgeu (a : BitVec 5) (b : BitVec 5) (d : BitVec 16)
  /-- J (R195): Jumps PC-relative. -/
  | j (d : BitVec 21)
  /-- JL (R195): Jumps PC-relative and links PC+4. -/
  | jl (r : BitVec 5) (d : BitVec 21)
  /-- JLR (R196): Jumps to register plus offset and links, taking ALIGN on a misaligned target. -/
  | jlr (d : BitVec 5) (a : BitVec 5) (i : BitVec 16)
  /-- CMP (R197): Sets a predicate from a comparison of two registers. -/
  | cmp (p : BitVec 4) (a : BitVec 5) (b : BitVec 5) (c : BitVec 3)
  /-- PAND (R197): ANDs two predicates. -/
  | pand (p : BitVec 4) (q : BitVec 4) (r : BitVec 4)
  /-- POR (R197): ORs two predicates. -/
  | por (p : BitVec 4) (q : BitVec 4) (r : BitVec 4)
  /-- PXOR (R197): XORs two predicates. -/
  | pxor (p : BitVec 4) (q : BitVec 4) (r : BitVec 4)
  /-- BP (R198): Branches when a predicate is true. -/
  | bp (p : BitVec 4) (d : BitVec 16)
  /-- BP_F (R198): Branches when a predicate is false. -/
  | bpF (p : BitVec 4) (d : BitVec 16)
  /-- LB (R204): Loads a sign-extended byte. -/
  | lb (d : BitVec 5) (a : BitVec 5) (r : BitVec 1) (o : BitVec 12)
  /-- LBU (R204): Loads a zero-extended byte. -/
  | lbu (d : BitVec 5) (a : BitVec 5) (r : BitVec 1) (o : BitVec 12)
  /-- LH (R204): Loads a sign-extended half. -/
  | lh (d : BitVec 5) (a : BitVec 5) (r : BitVec 1) (o : BitVec 12)
  /-- LHU (R204): Loads a zero-extended half. -/
  | lhu (d : BitVec 5) (a : BitVec 5) (r : BitVec 1) (o : BitVec 12)
  /-- LW (R204): Loads a sign-extended word or window element. -/
  | lw (d : BitVec 5) (a : BitVec 5) (r : BitVec 1) (o : BitVec 12)
  /-- LWU (R204): Loads a zero-extended word or window element. -/
  | lwu (d : BitVec 5) (a : BitVec 5) (r : BitVec 1) (o : BitVec 12)
  /-- LD (R204): Loads a double or two window elements. -/
  | ld (d : BitVec 5) (a : BitVec 5) (r : BitVec 1) (o : BitVec 12)
  /-- SB (R206): Stores a byte, writing tag 62. -/
  | sb (s : BitVec 5) (a : BitVec 5) (r : BitVec 1) (o : BitVec 12)
  /-- SH (R206): Stores a half, writing tag 62. -/
  | sh (s : BitVec 5) (a : BitVec 5) (r : BitVec 1) (o : BitVec 12)
  /-- SW (R206): Stores a word or encodes one window element. -/
  | sw (s : BitVec 5) (a : BitVec 5) (r : BitVec 1) (o : BitVec 12)
  /-- SD (R206): Stores a double or encodes two window elements. -/
  | sd (s : BitVec 5) (a : BitVec 5) (r : BitVec 1) (o : BitVec 12)
  /-- AADD (R209): Atomically adds and returns the old value. -/
  | aadd (d : BitVec 5) (a : BitVec 5) (b : BitVec 5) (r : BitVec 1) (z : BitVec 1)
  /-- AAND (R209): Atomically ANDs and returns the old value. -/
  | aand (d : BitVec 5) (a : BitVec 5) (b : BitVec 5) (r : BitVec 1) (z : BitVec 1)
  /-- AOR (R209): Atomically ORs and returns the old value. -/
  | aor (d : BitVec 5) (a : BitVec 5) (b : BitVec 5) (r : BitVec 1) (z : BitVec 1)
  /-- AXOR (R209): Atomically XORs and returns the old value. -/
  | axor (d : BitVec 5) (a : BitVec 5) (b : BitVec 5) (r : BitVec 1) (z : BitVec 1)
  /-- AMIN (R209): Atomic signed minimum returning the old value. -/
  | amin (d : BitVec 5) (a : BitVec 5) (b : BitVec 5) (r : BitVec 1) (z : BitVec 1)
  /-- AMAX (R209): Atomic signed maximum returning the old value. -/
  | amax (d : BitVec 5) (a : BitVec 5) (b : BitVec 5) (r : BitVec 1) (z : BitVec 1)
  /-- AMINU (R209): Atomic unsigned minimum returning the old value. -/
  | aminu (d : BitVec 5) (a : BitVec 5) (b : BitVec 5) (r : BitVec 1) (z : BitVec 1)
  /-- AMAXU (R209): Atomic unsigned maximum returning the old value. -/
  | amaxu (d : BitVec 5) (a : BitVec 5) (b : BitVec 5) (r : BitVec 1) (z : BitVec 1)
  /-- ASWAP (R209): Atomically swaps in a value and returns the old one. -/
  | aswap (d : BitVec 5) (a : BitVec 5) (b : BitVec 5) (r : BitVec 1) (z : BitVec 1)
  /-- ACAS (R209): Atomic compare-and-swap returning the old value. -/
  | acas (d : BitVec 5) (a : BitVec 5) (b : BitVec 5) (r : BitVec 1) (z : BitVec 1)
  /-- REDADD (R212): Fire-and-forget add into memory. -/
  | redadd (a : BitVec 5) (b : BitVec 5) (z : BitVec 1)
  /-- REDAND (R212): Fire-and-forget AND into memory. -/
  | redand (a : BitVec 5) (b : BitVec 5) (z : BitVec 1)
  /-- REDOR (R212): Fire-and-forget OR into memory. -/
  | redor (a : BitVec 5) (b : BitVec 5) (z : BitVec 1)
  /-- REDMIN (R212): Fire-and-forget signed minimum into memory. -/
  | redmin (a : BitVec 5) (b : BitVec 5) (z : BitVec 1)
  /-- REDMAX (R212): Fire-and-forget signed maximum into memory. -/
  | redmax (a : BitVec 5) (b : BitVec 5) (z : BitVec 1)
  /-- XCADD_V (R217): Sends lane 0 of a vector register with its tag as an exact-cell addend. -/
  | xcaddV (a : BitVec 5) (v : BitVec 5)
  /-- XCADD_G (R217): Sends a general register word tagged w0 as an exact-cell addend. -/
  | xcaddG (a : BitVec 5) (b : BitVec 5)
  /-- XCREAD (R218): Reads and rounds an exact cell into lane 0 with its tag. -/
  | xcread (d : BitVec 5) (a : BitVec 5)
  /-- XCCLR (R219): Writes the reset image to an exact cell. -/
  | xcclr (a : BitVec 5)
  /-- FENCE (R223): Waits for earlier relaxed accesses. -/
  | fence
  /-- FENCE_RED (R223): Waits for relaxed accesses and acknowledgements. -/
  | fenceRed
  /-- FENCE_ACQ (R223): Waits as FENCE.red and invalidates a large core's V-space cache. -/
  | fenceAcq
  /-- FENCE_SYS (R223): Waits as FENCE.red and until host-resident writes reach the host ordering point. -/
  | fenceSys
  /-- MIGRATE (R225): Moves the thread to the owner core of an address. -/
  | migrate (a : BitVec 5) (b : BitVec 5)
  /-- MIGTO (R225): Moves the thread to a named small or large core. -/
  | migto (a : BitVec 5) (b : BitVec 5)
  /-- SPAWN (R226): Starts a new context at the owner of an address, reserving a spill entry. -/
  | spawn (d : BitVec 5) (a : BitVec 5) (b : BitVec 5)
  /-- SEND (R228): Sends a message to a mailbox, parking while it is full. -/
  | send (d : BitVec 5) (a : BitVec 5)
  /-- SENDT (R228): Sends a message to a mailbox, returning 1 when it is full. -/
  | sendt (d : BitVec 5) (a : BitVec 5)
  /-- RECV (R229): Takes a message from the lowest masked non-empty mailbox, parking if none. -/
  | recv (d : BitVec 5) (a : BitVec 5)
  /-- RECVT (R229): Takes a message or returns 1 when no masked mailbox holds one. -/
  | recvt (d : BitVec 5) (a : BitVec 5)
  /-- APPEND (R231): Appends a record to an inbox ring, parking on FULL. -/
  | append (d : BitVec 5) (a : BitVec 5) (b : BitVec 5)
  /-- APPENDT (R231): Appends a record to an inbox ring, returning FULL instead of parking. -/
  | appendt (d : BitVec 5) (a : BitVec 5) (b : BitVec 5)
  /-- MBSTAT (R230): Returns the occupancy of every mailbox. -/
  | mbstat (d : BitVec 5)
  /-- QBIND (R233): Binds a queue register between a producer and a consumer slot. -/
  | qbind (q : BitVec 5) (a : BitVec 5)
  /-- QWR (R234): Appends a general register to a queue, parking when full. -/
  | qwr (q : BitVec 5) (a : BitVec 5)
  /-- QRD (R234): Takes the head entry of a queue, parking when empty. -/
  | qrd (d : BitVec 5) (q : BitVec 5)
  /-- VQWR (R234): Appends a vector register with tags as two queue entries. -/
  | vqwr (q : BitVec 5) (v : BitVec 5)
  /-- VQRD (R234): Takes two queue entries into a vector register with tags. -/
  | vqrd (v : BitVec 5) (q : BitVec 5)
  /-- QSTAT (R235): Returns a queue's state. -/
  | qstat (d : BitVec 5) (q : BitVec 5)
  /-- QCLOSE (R235): Unbinds a queue on both cores and discards its entries. -/
  | qclose (q : BitVec 5)
  /-- SYNCINIT (R108): Initialises a synchronisation descriptor from an image. -/
  | syncinit (d : BitVec 5) (a : BitVec 5) (b : BitVec 5)
  /-- ACQ (R108): Requests a lock and parks until granted. -/
  | acq (a : BitVec 5)
  /-- TRYACQ (R108): Takes a lock if free, else returns 0 without queueing. -/
  | tryacq (d : BitVec 5) (a : BitVec 5)
  /-- REL (R108): Releases a lock, fire-and-forget once sent. -/
  | rel (a : BitVec 5)
  /-- LOCKRUN (R110): Acquires a lock, runs a routine on the caller or owner, and releases. -/
  | lockrun (d : BitVec 5) (a : BitVec 5) (b : BitVec 5)
  /-- ARRIVE (R113): Counts one barrier arrival with a contribution and sets the slot's watch. -/
  | arrive (a : BitVec 5) (b : BitVec 5)
  /-- AWAIT (R113): Parks until the watched barrier release and returns the phase result. -/
  | await (d : BitVec 5) (a : BitVec 5)
  /-- SYNCSERVE (R110): Registers the thread as serving owner and waits for delegated work. -/
  | syncserve (a : BitVec 5)
  /-- SYNCDONE (R110): Ends the running routine or phase action, releasing. -/
  | syncdone (a : BitVec 5)
  /-- SYNCMODE (R122): Returns the mode, phase or skew word of an object. -/
  | syncmode (d : BitVec 5) (a : BitVec 5) (b : BitVec 5)
  /-- SYNCPOL (R121): Rewrites an object's policy fields, perhaps requesting a mode. -/
  | syncpol (d : BitVec 5) (a : BitVec 5) (b : BitVec 5)
  /-- SYNCFREE (R108): Sets an idle object's kind to FREE. -/
  | syncfree (a : BitVec 5)
  /-- TCINIT (R240): Writes a task counter record's count, placing the task at count 0. -/
  | tcinit (a : BitVec 5) (b : BitVec 5)
  /-- TCDEC (R241): Sends a fire-and-forget decrement to a task counter record. -/
  | tcdec (a : BitVec 5) (b : BitVec 5)
  /-- YIELD (R242): Offers the slot to waiting work and readmits the context. -/
  | yield (b : BitVec 5)
  /-- EXIT (R243): Ends the thread after its waits. -/
  | exit
  /-- QUIESCE (R244): Parks until quiescence of the launch is declared. -/
  | quiesce
  /-- DQPUSH (R245): Pushes a range on the core's deque. -/
  | dqpush (d : BitVec 5) (a : BitVec 5) (b : BitVec 5)
  /-- DQPOP (R245): Pops the top range of the deque. -/
  | dqpop (d : BitVec 5)
  /-- DQSPLIT (R245): Splits the top range in place. -/
  | dqsplit (d : BitVec 5)
  /-- DQSTEAL (R245): Steals from the bottom of a victim core's deque. -/
  | dqsteal (d : BitVec 5) (a : BitVec 5)
  /-- DQLEN (R245): Returns the deque's entry count. -/
  | dqlen (d : BitVec 5)
  /-- ALLOC (R246): Requests a heap block from the die allocator engine. -/
  | alloc (d : BitVec 5) (a : BitVec 5)
  /-- FREE (R246): Returns a heap block to the allocator engine. -/
  | free (a : BitVec 5)
  /-- VLD_F32 (R264): Loads four lanes with their tags through a window. -/
  | vldF32 (d : BitVec 4) (a : BitVec 5) (r : BitVec 1) (o : BitVec 12)
  /-- VLD_F64 (R264): Loads two doubles with their tags through RAW or TAGGED. -/
  | vldF64 (d : BitVec 4) (a : BitVec 5) (r : BitVec 1) (o : BitVec 12)
  /-- VLDB_F32 (R264): Loads one element with its tag into every lane. -/
  | vldbF32 (d : BitVec 4) (a : BitVec 5) (r : BitVec 1) (o : BitVec 12)
  /-- VLDB_F64 (R264): Loads one double into both doubles. -/
  | vldbF64 (d : BitVec 4) (a : BitVec 5) (r : BitVec 1) (o : BitVec 12)
  /-- VST_F32 (R265): Stores four lanes, encoding through the window and writing tags. -/
  | vstF32 (s : BitVec 4) (a : BitVec 5) (r : BitVec 1) (o : BitVec 12)
  /-- VST_F64 (R265): Stores two doubles, writing even-lane tags through TAGGED. -/
  | vstF64 (s : BitVec 4) (a : BitVec 5) (r : BitVec 1) (o : BitVec 12)
  /-- VADD (R267): Adds integer elements, wrapping or saturating. -/
  | vadd (d : BitVec 5) (a : BitVec 5) (b : BitVec 5) (f : BitVec 3) (s : BitVec 1)
  /-- VSUB (R267): Subtracts integer elements, wrapping or saturating. -/
  | vsub (d : BitVec 5) (a : BitVec 5) (b : BitVec 5) (f : BitVec 3) (s : BitVec 1)
  /-- VMUL (R267): Multiplies integer elements, wrapping or saturating. -/
  | vmul (d : BitVec 5) (a : BitVec 5) (b : BitVec 5) (f : BitVec 3) (s : BitVec 1)
  /-- VMIN (R267): Signed element minimum. -/
  | vmin (d : BitVec 5) (a : BitVec 5) (b : BitVec 5) (f : BitVec 3)
  /-- VMAX (R267): Signed element maximum. -/
  | vmax (d : BitVec 5) (a : BitVec 5) (b : BitVec 5) (f : BitVec 3)
  /-- VMINU (R267): Unsigned element minimum. -/
  | vminu (d : BitVec 5) (a : BitVec 5) (b : BitVec 5) (f : BitVec 3)
  /-- VMAXU (R267): Unsigned element maximum. -/
  | vmaxu (d : BitVec 5) (a : BitVec 5) (b : BitVec 5) (f : BitVec 3)
  /-- VAND (R267): Bitwise AND of vectors. -/
  | vand (d : BitVec 5) (a : BitVec 5) (b : BitVec 5) (f : BitVec 3)
  /-- VOR (R267): Bitwise OR of vectors. -/
  | vor (d : BitVec 5) (a : BitVec 5) (b : BitVec 5) (f : BitVec 3)
  /-- VXOR (R267): Bitwise XOR of vectors. -/
  | vxor (d : BitVec 5) (a : BitVec 5) (b : BitVec 5) (f : BitVec 3)
  /-- VSLL (R267): Shifts elements left. -/
  | vsll (d : BitVec 5) (a : BitVec 5) (b : BitVec 5) (f : BitVec 3)
  /-- VSRL (R267): Shifts elements right logically. -/
  | vsrl (d : BitVec 5) (a : BitVec 5) (b : BitVec 5) (f : BitVec 3)
  /-- VSRA (R267): Shifts elements right arithmetically. -/
  | vsra (d : BitVec 5) (a : BitVec 5) (b : BitVec 5) (f : BitVec 3)
  /-- VCMPEQ (R267): Element equality mask. -/
  | vcmpeq (d : BitVec 5) (a : BitVec 5) (b : BitVec 5) (f : BitVec 3)
  /-- VCMPLT (R267): Signed element less-than mask. -/
  | vcmplt (d : BitVec 5) (a : BitVec 5) (b : BitVec 5) (f : BitVec 3)
  /-- VCMPLTU (R267): Unsigned element less-than mask. -/
  | vcmpltu (d : BitVec 5) (a : BitVec 5) (b : BitVec 5) (f : BitVec 3)
  /-- VSEL (R267): Selects elements by the top bit of vd, moving tags. -/
  | vsel (d : BitVec 5) (a : BitVec 5) (b : BitVec 5) (f : BitVec 3)
  /-- VPSUM (R267): Integer inclusive prefix sum of elements. -/
  | vpsum (d : BitVec 5) (a : BitVec 5) (f : BitVec 3) (s : BitVec 1)
  /-- VWACC (R268): Widening accumulate of narrow elements into INT32 lanes. -/
  | vwacc (d : BitVec 5) (a : BitVec 5) (b : BitVec 5) (f : BitVec 3) (s : BitVec 1)
  /-- VDOT4 (R268): Four-way 8-bit dot product accumulated into INT32 lanes. -/
  | vdot4 (d : BitVec 5) (a : BitVec 5) (b : BitVec 5) (f : BitVec 3) (s : BitVec 1)
  /-- VPSUM_F32 (R269): FP32 inclusive prefix sum in fixed order. -/
  | vpsumF32 (d : BitVec 5) (a : BitVec 5)
  /-- VFADD (R270): Floating-point add with tag rule. -/
  | vfadd (d : BitVec 4) (a : BitVec 5) (b : BitVec 5) (f : BitVec 3)
  /-- VFSUB (R270): Floating-point subtract with tag rule. -/
  | vfsub (d : BitVec 4) (a : BitVec 5) (b : BitVec 5) (f : BitVec 3)
  /-- VFMUL (R270): Floating-point multiply. -/
  | vfmul (d : BitVec 4) (a : BitVec 5) (b : BitVec 5) (f : BitVec 3)
  /-- VFDIV (R270): Correctly rounded divide, a special function. -/
  | vfdiv (d : BitVec 4) (a : BitVec 5) (b : BitVec 5) (f : BitVec 3)
  /-- VFSQRT (R270): Correctly rounded square root, a special function. -/
  | vfsqrt (d : BitVec 4) (a : BitVec 5) (f : BitVec 3)
  /-- VFMIN (R270): Floating-point minimum under R72. -/
  | vfmin (d : BitVec 4) (a : BitVec 5) (b : BitVec 5) (f : BitVec 3)
  /-- VFMAX (R270): Floating-point maximum under R72. -/
  | vfmax (d : BitVec 4) (a : BitVec 5) (b : BitVec 5) (f : BitVec 3)
  /-- VFABS (R270): Clears the sign. -/
  | vfabs (d : BitVec 4) (a : BitVec 5) (f : BitVec 3)
  /-- VFNEG (R270): Inverts the sign. -/
  | vfneg (d : BitVec 4) (a : BitVec 5) (f : BitVec 3)
  /-- VFCMPEQ (R271): Writes predicates for element equality. -/
  | vfcmpeq (p : BitVec 4) (a : BitVec 5) (b : BitVec 5) (f : BitVec 3)
  /-- VFCMPLT (R271): Writes predicates for element less-than. -/
  | vfcmplt (p : BitVec 4) (a : BitVec 5) (b : BitVec 5) (f : BitVec 3)
  /-- VFCMPLE (R271): Writes predicates for element less-or-equal. -/
  | vfcmple (p : BitVec 4) (a : BitVec 5) (b : BitVec 5) (f : BitVec 3)
  /-- VFCLASS (R272): Writes a one-hot class code per element. -/
  | vfclass (d : BitVec 4) (a : BitVec 5) (f : BitVec 3)
  /-- VFMA (R273): Fused a·b + c with one rounding. -/
  | vfma (d : BitVec 5) (a : BitVec 5) (b : BitVec 5) (c : BitVec 5) (f : BitVec 3)
  /-- VFMS (R273): Fused a·b − c with one rounding. -/
  | vfms (d : BitVec 5) (a : BitVec 5) (b : BitVec 5) (c : BitVec 5) (f : BitVec 3)
  /-- VFNMA (R273): Fused −(a·b) + c with one rounding. -/
  | vfnma (d : BitVec 5) (a : BitVec 5) (b : BitVec 5) (c : BitVec 5) (f : BitVec 3)
  /-- VFNMS (R273): Fused −(a·b) − c with one rounding. -/
  | vfnms (d : BitVec 5) (a : BitVec 5) (b : BitVec 5) (c : BitVec 5) (f : BitVec 3)
  /-- VEXP2 (R274): Correctly rounded 2^x, a special function. -/
  | vexp2 (d : BitVec 5) (a : BitVec 5) (f : BitVec 3)
  /-- VLOG2 (R274): Correctly rounded log2 x, a special function. -/
  | vlog2 (d : BitVec 5) (a : BitVec 5) (f : BitVec 3)
  /-- VRCP (R274): Correctly rounded reciprocal, a special function. -/
  | vrcp (d : BitVec 5) (a : BitVec 5) (f : BitVec 3)
  /-- VRSQ (R274): Correctly rounded reciprocal square root, a special function. -/
  | vrsq (d : BitVec 5) (a : BitVec 5) (f : BitVec 3)
  /-- SIGGET (R275): Reads lane tags into a general register. -/
  | sigget (d : BitVec 5) (a : BitVec 5) (f : BitVec 3)
  /-- SIGSET (R276): Writes lane tags from a general register. -/
  | sigset (d : BitVec 5) (b : BitVec 5) (f : BitVec 3)
  /-- SIGMIN (R277): Returns the smallest tag among the lanes. -/
  | sigmin (d : BitVec 5) (a : BitVec 5) (f : BitVec 3)
  /-- BSIG (R278): Branches when a lane's tag is below a threshold. -/
  | bsig (v : BitVec 4) (b : BitVec 5) (d : BitVec 16)
  /-- VSPLAT (R279): Broadcasts an element or general register to every element. -/
  | vsplat (d : BitVec 5) (a : BitVec 5) (k : BitVec 5) (f : BitVec 3)
  /-- VINS (R279): Inserts an element or general register value at element k. -/
  | vins (d : BitVec 5) (a : BitVec 5) (k : BitVec 5) (f : BitVec 3)
  /-- VEXT (R279): Extracts element k to a vector or general register. -/
  | vext (d : BitVec 5) (a : BitVec 5) (k : BitVec 5) (f : BitVec 3)
  /-- VPERM (R280): Permutes lanes with tags by indices in vb. -/
  | vperm (d : BitVec 5) (a : BitVec 5) (b : BitVec 5) (f : BitVec 3)
  /-- VHADD (R281): Horizontal FP32 add of four lanes in fixed order. -/
  | vhadd (d : BitVec 5) (a : BitVec 5) (f : BitVec 3)
  /-- VCVT (R283): Converts between floating-point formats, OL4 included. -/
  | vcvt (d : BitVec 5) (a : BitVec 5) (b : BitVec 5) (f : BitVec 3) (t : BitVec 4) (s : BitVec 4)
  /-- VCVTI (R284): Converts where either side is an integer format. -/
  | vcvti (d : BitVec 5) (a : BitVec 5) (b : BitVec 5) (f : BitVec 3) (t : BitVec 4) (s : BitVec 4)
  /-- MGANG (R291): Parks until every core of the tile joins the gang. -/
  | mgang
  /-- MLDW (R292): Gang instruction loading operand records into the shadow plane. -/
  | mldw (a : BitVec 5)
  /-- MTLD (R292): Gang instruction loading transposed records into the shadow plane. -/
  | mtld (a : BitVec 5)
  /-- MSWAP (R293): Gang instruction exchanging live and shadow planes. -/
  | mswap
  /-- MZERO (R293): Gang instruction clearing accumulators and mode. -/
  | mzero
  /-- MSTRM (R294): Gang instruction streaming rows past the live plane. -/
  | mstrm (a : BitVec 5)
  /-- MGRP (R295): Gang instruction for a ragged grouped product with per-group drains. -/
  | mgrp (a : BitVec 5) (b : BitVec 5) (g : BitVec 8)
  /-- MDRAIN (R296): Gang instruction draining the accumulators to a core. -/
  | mdrain (b : BitVec 5)
  /-- MSTAT (R297): Returns the array status of one core. -/
  | mstat
  /-- ANORM (R298): Forms an upward-rounded Euclidean norm of n words. -/
  | anorm (a : BitVec 5) (b : BitVec 5)
  /-- ACERT (R299): Submits a certification record to the check stage and parks. -/
  | acert (a : BitVec 5)
  /-- AFETCH (R300): Builds and commits a ROWFETCH engine job. -/
  | afetch (a : BitVec 5)
  /-- MCOVI (R301): Gang instruction initialising coverage-store entries and type. -/
  | mcovi (b : BitVec 5)
  /-- MCOVP (R302): Gang instruction committing, probing gains and returning the winner. -/
  | mcovp (a : BitVec 5) (b : BitVec 5) (r : BitVec 8)
  /-- MCOVC (R303): Gang instruction applying a coverage commit only. -/
  | mcovc (a : BitVec 5) (b : BitVec 5)
  /-- MCOVR (R304): Gang instruction writing coverage entries back to memory. -/
  | mcovr (a : BitVec 5) (b : BitVec 5)
  /-- ECW (R250): Writes a shadow engine register, claiming the shadow set. -/
  | ecw (b : BitVec 5) (i : BitVec 8)
  /-- ECR (R250): Reads an engine register, counter or status into g4. -/
  | ecr (i : BitVec 8)
  /-- EGO (R251): Checks, registers and commits the shadow set as a job. -/
  | ego
  /-- EWAIT (R252): Parks until the completion counter reaches a job number. -/
  | ewait (b : BitVec 5)
  /-- CBINIT (R254): Initialises a circular-buffer descriptor from an image. -/
  | cbinit (a : BitVec 5) (n : BitVec 4)
  /-- CBACQ (R255): Acquires the next filled slot, parking while none. -/
  | cbacq (n : BitVec 4)
  /-- CBREL (R255): Releases the oldest acquired slot to free. -/
  | cbrel (n : BitVec 4)
  /-- CBSTAT (R255): Returns a buffer's counters. -/
  | cbstat (n : BitVec 4)
  /-- SYSCALL (R305): Traps to the supervisor or machine handler with a code. -/
  | syscall (c : BitVec 12)
  /-- TRAP (R305): Takes cause TRAP with a code. -/
  | trap (c : BitVec 12)
  /-- ERET (R306): Returns from a trap handler. -/
  | eret
  /-- BRK (R305): Takes cause BREAK for the debugger. -/
  | brk (c : BitVec 12)
  /-- NOP (R307): Does nothing for one issue. -/
  | nop
  /-- TSTAMP (R308): Reads the Meridian count. -/
  | tstamp (d : BitVec 5)
  /-- TRIG (R309): Writes a software event to the trace buffer. -/
  | trig (d : BitVec 5) (a : BitVec 5) (c : BitVec 12)
  /-- PTBLW (R310): Writes and checks the core's staged pipe table. -/
  | ptblw (h : BitVec 5) (l : BitVec 5)
  /-- CSRR (R311): Reads a CSR. -/
  | csrr (d : BitVec 5) (c : BitVec 12)
  /-- CSRW (R311): Writes a CSR and returns its old value. -/
  | csrw (d : BitVec 5) (a : BitVec 5) (c : BitVec 12)
  /-- CSRS (R311): Sets CSR bits and returns the old value. -/
  | csrs (d : BitVec 5) (a : BitVec 5) (c : BitVec 12)
  /-- CSRC (R311): Clears CSR bits and returns the old value. -/
  | csrc (d : BitVec 5) (a : BitVec 5) (c : BitVec 12)
  /-- LAUNCH (R256): Sends a launch record to the distributor and parks until queued. -/
  | launch (d : BitVec 5) (a : BitVec 5)
  /-- LWAIT (R257): Parks until a completion record's status is non-zero. -/
  | lwait (d : BitVec 5) (a : BitVec 5)
  /-- STAGED_TABLE_GOES_LIVE (R13): The staged pipe table becomes live at entry 0 of the first frame after a barrier release reaches the core. -/
  | stagedTableGoesLive (core : Nat)
  /-- TRAP_ENTRY (R350): A trap is routed to the user, supervisor or machine handler. -/
  | trapEntry (core slot : Nat)
  /-- SLOT_TAKES_WORK (R20): A freed user slot takes the arrival-queue head, run-list task or spilled context, and the spill head moves to the arrival queue. -/
  | slotTakesWork (core : Nat)
  /-- CONTEXT_PACKET_ADMISSION (R27): An arriving migrating or spawned context is started, queued, spilled or refused. -/
  | contextPacketAdmission (id : Nat)
  /-- MIGRATION_REPLY (R27): An acceptance or refusal reaches the origin slot, releasing it or starting backoff. -/
  | migrationReply (id : Nat)
  /-- REFUSAL_BACKOFF_EXPIRY (R27): A refused context's backoff ends and the packet is resent. -/
  | refusalBackoffExpiry (id : Nat)
  /-- FORWARDING_ENTRY_EXPIRY (R28): A departed context's forwarding entry lapses after 4,096 cycles. -/
  | forwardingEntryExpiry (core slot : Nat)
  /-- LATE_REPLY_AT_ORIGIN (R28): A late reply reaching the origin is redirected or dropped and counted. -/
  | lateReplyAtOrigin (core slot : Nat)
  /-- TCDEC_ARRIVAL (R19): The home applies a decrement, queueing the task at zero or recording an over-decrement. -/
  | tcdecArrival (id : Nat)
  /-- QUIESCE_SWEEP (R32): A sweep sums sent and received counts and may declare quiescence, waking QUIESCE threads. -/
  | quiesceSweep (launch : Nat)
  /-- ACTIVE_MESSAGE (R53): The owner's service slot runs a remote access handler and replies. -/
  | activeMessage (id : Nat)
  /-- DEQUE_STEAL_SERVED (R23): The victim core's service slot serves a steal from the bottom of its deque. -/
  | dequeStealServed (id : Nat)
  /-- ACCESS_REPLY (R201): A reply to a remote or relaxed access arrives, writing the destination or delivering a cause. -/
  | accessReply (id : Nat)
  /-- FIRE_AND_FORGET_ACK (R215): An acknowledgement of a fire-and-forget operation returns, perhaps carrying a cause. -/
  | fireAndForgetAck (id : Nat)
  /-- EDGE_CORE_SERVE (R50): An edge core serves a request from its window at the DRAM. -/
  | edgeCoreServe (id : Nat)
  /-- SPECIAL_FUNCTION_RESULT (R260): A special function finishes its parked latency and writes results or traps. -/
  | specialFunctionResult (core slot : Nat)
  /-- ANORM_RESULT (R298): ANORM finishes reading its words and writes the norm to g4. -/
  | anormResult (core slot : Nat)
  /-- ALLOCATOR_ENGINE_STEP (R246): The die allocator engine serves one ALLOC or FREE and replies. -/
  | allocatorEngineStep (id : Nat)
  /-- ACQ_AT_HOME (R109): The Vesper unit stamps and applies a lock request, granting or queueing it. -/
  | acqAtHome (id : Nat)
  /-- TRYACQ_AT_HOME (R108): The Vesper unit grants a free lock or replies failure. -/
  | tryacqAtHome (id : Nat)
  /-- REL_AT_HOME (R109): The Vesper unit frees the lock or grants it to the front waiter. -/
  | relAtHome (id : Nat)
  /-- LOCKRUN_AT_HOME (R110): The Vesper unit queues or grants a LOCKRUN, placing its routine on caller or owner. -/
  | lockrunAtHome (id : Nat)
  /-- SYNCSERVE_AT_HOME (R104): The home records the named owner as serving. -/
  | syncserveAtHome (id : Nat)
  /-- DIRECT_ARRIVAL (R118): The home counts a direct barrier arrival, perhaps ending the phase. -/
  | directArrival (id : Nat)
  /-- COMBINED_ARRIVAL (R118): The home counts a phase-tagged combined arrival from a node. -/
  | combinedArrival (id : Nat)
  /-- ENGINE_ARRIVAL (R114): The home counts an engine's completion arrival. -/
  | engineArrival (id : Nat)
  /-- SYNCDONE_AT_HOME (R110): The home ends a routine or phase action, releasing lock or phase. -/
  | syncdoneAtHome (id : Nat)
  /-- SYNCPOL_AT_HOME (R121): The home rewrites policy fields and applies or refuses a requested mode. -/
  | syncpolAtHome (id : Nat)
  /-- SYNCFREE_AT_HOME (R123): The home frees an idle object or refuses with SYNC. -/
  | syncfreeAtHome (id : Nat)
  /-- OWNER_DEPARTURE (R123): The home applies a serving owner's departure as one step. -/
  | ownerDeparture (id : Nat)
  /-- KILL_MARK (R370): The home marks a killed thread's waiting lock request. -/
  | killMark (id : Nat)
  /-- RELEASE_REACHES_CORE (R113): A barrier release reaches a core and wakes watching slots. -/
  | releaseReachesCore (id core : Nat)
  /-- NODE_ARMING (R117): Arming from the home reaches a combining node. -/
  | nodeArming (id : Nat)
  /-- NODE_FORWARD (R117): A combining node forwards one combined arrival 8 cycles after its first pending arrival. -/
  | nodeForward (desc level unit : Nat)
  /-- DELEGATED_WORK_AT_OWNER (R110): A shipped routine or phase action wakes the owner from SYNCSERVE. -/
  | delegatedWorkAtOwner (id : Nat)
  /-- LOCKRUN_RESULT (R110): The owner's result reaches the requester, completing its LOCKRUN. -/
  | lockrunResult (id : Nat)
  /-- MAILBOX_DELIVERY (R227): A message reaches a mailbox and is accepted, refused or held. -/
  | mailboxDelivery (id : Nat)
  /-- APPEND_AT_RING (R59): The ring's core applies one APPEND as an indivisible step. -/
  | appendAtRing (id : Nat)
  /-- APPEND_RETRY (R232): Parked APPENDs are retried when the ring's head word is written. -/
  | appendRetry (ring : Nat)
  /-- CONTEXT_GONE (R382): A peer is told a context is gone and posts notices, wakes RECVs and discards parked sends. -/
  | contextGone (sender : BitVec 64)
  /-- JOB_START (R251): The committed shadow set is copied to the live set and its job starts. -/
  | jobStart (tile : Nat)
  /-- CB_SLOT_START (R56): An engine takes a free slot at tail to fill, after waiting for one. -/
  | cbSlotStart (tile : Nat)
  /-- CB_SLOT_FILLED (R56): A slot's writes complete and it moves from filling to filled, waking readers. -/
  | cbSlotFilled (tile : Nat)
  /-- JOB_COMPLETION (R252): An engine job finishes; ranges are removed, the counter advances and the barrier arrival is sent. -/
  | jobCompletion (tile : Nat)
  /-- JOB_SUSPENSION (R357): A faulting job drains in-flight sectors, writes its record, posts a fault and frees the live set. -/
  | jobSuspension (tile : Nat)
  /-- RANGE_TABLE_ROOM (R65): Entries free and a parked engine or array issue registers its ranges. -/
  | rangeTableRoom (core slot : Nat)
  /-- GANG_JOIN (R144): All 16 members have issued a gang operation; agreement is checked and it is queued. -/
  | gangJoin (tile : Nat)
  /-- MGANG_RELEASE (R291): The wired barrier releases the MGANG slots 4 cycles after the last arrival. -/
  | mgangRelease (tile : Nat)
  /-- GANG_LEAVE (R289): A core's matrix slot leaves the gang, waking parked members with ILLEGAL. -/
  | gangLeave (core : Nat)
  /-- SHADOW_LOAD (R292): The array loads the shadow plane from the members' records. -/
  | shadowLoad (tile : Nat)
  /-- PLANE_SWAP (R293): The array exchanges live and shadow planes. -/
  | planeSwap (tile : Nat)
  /-- ACCUMULATOR_ZERO (R293): The array clears accumulators, M, K and mode. -/
  | accumulatorZero (tile : Nat)
  /-- STREAM_PASS (R149): The array streams rows past the live plane, adding one K-block per accumulator. -/
  | streamPass (tile : Nat)
  /-- DRAIN (R153): The array writes converted accumulators and masks, removes ranges and sends the wake-up. -/
  | drain (tile : Nat)
  /-- GROUPED_PRODUCT (R154): The array clears, streams and drains each group of an MGRP in turn. -/
  | groupedProduct (tile : Nat)
  /-- COVERAGE_INIT (R160): The array sets the store type and writes a range of entries. -/
  | coverageInit (tile : Nat)
  /-- COVERAGE_PROBE (R161): The array commits and accumulates gains over the element rows. -/
  | coverageProbe (tile : Nat)
  /-- SPAN_JOIN (R162): A span's tiles have all queued their MCOVP; totals are formed and members wake with the winner. -/
  | spanJoin (tile : Nat)
  /-- COVERAGE_COMMIT (R163): The array applies a commit with no gains. -/
  | coverageCommit (tile : Nat)
  /-- COVERAGE_READBACK (R331): The array writes coverage entries to memory and wakes the members. -/
  | coverageReadback (tile : Nat)
  /-- MATRIX_RERUN (R151): An operand read meets an uncorrectable error; the snapshot is restored and the operation rerun, else MTXERR is pending. -/
  | matrixRerun (tile : Nat) (good : Bool)
  /-- CERTIFICATION (R157): The check stage classifies neurons, writes counts, bitmap and list, removes ranges and wakes the issuer. -/
  | certification (tile : Nat)
  /-- SYSCALL_GATE_REPLY (R367): The die's syscall gate serves a call with bounce copies and replies to the parked slot. -/
  | syscallGateReply (core slot : Nat) (call : GateCall)
  /-- QDB (R336): A doorbell write queues a launch record in a partition's priority queue. -/
  | qdb (part prio : Nat) (addr : BitVec 64)
  /-- LAUNCH_RECORD_SENT (R256): The distributor reads a LAUNCH's record and queues it or replies failure. -/
  | launchRecordSent (id : Nat)
  /-- DEPENDENCE_REREAD (R337): The distributor re-reads a waiting launch's dependence counter. -/
  | dependenceReread (launch : Nat)
  /-- QUEUE_AGING (R337): A launch past its queue's patience moves to the next priority queue. -/
  | queueAging (launch : Nat)
  /-- LAUNCH_HEAD_CHECK (R339): A launch reaching the head is checked and may end BADREC, REJECTED or NOPART. -/
  | launchHeadCheck (part : Nat)
  /-- SELECT_AND_RESERVE (R340): The distributor chooses and holds units for a gang. -/
  | selectAndReserve (part first : Nat)
  /-- PREPARE (R340): Zero-fill and stack setup of a gang's cores completes. -/
  | prepare (part : Nat)
  /-- COMMIT (R340): Every member of a gang starts in the same frame, with seed tasks after. -/
  | commit (part : Nat) (picks : List (List Nat))
  /-- LAUNCH_COMPLETION (R342): The distributor writes the completion record, then sends the signal. -/
  | launchCompletion (launch : Nat)
  /-- EVENTIDE_REQUEST (R344): The device OS requests an Eventide and the instant T is broadcast. -/
  | eventideRequest (part : Nat)
  /-- EVENTIDE_STOP (R344): At T each core stops at a frame boundary and its image is saved. -/
  | eventideStop (part : Nat)
  /-- EVENTIDE_RESUME (R346): Images are restored and held messages re-injected at a second instant. -/
  | eventideResume (part : Nat)
  /-- KILL (R370): The device OS kills a thread, passing its locks and clearing its watch. -/
  | kill (core slot : Nat)
  /-- HELD_REWALK (R362): A held translation is re-walked every 1 µs. -/
  | heldRewalk (id : Nat)
  /-- HOLD_TIMEOUT (R362): A held request times out after 10 ms with PAGE or proceeds to the host. -/
  | holdTimeout (id : Nat)
  /-- TRANSLATION_WALK (R363): A station's page walk completes for waiting requests. -/
  | translationWalk (id : Nat) (cached : Bool)
  /-- SHOOTDOWN (R364): A shootdown reaches stations and large cores, dropping entries and acknowledging. -/
  | shootdown (agent : Nat) (all : Bool) (pid lo hi : Nat)
  /-- JOB_RESUME (R358): A write to resume continues a suspended job. -/
  | jobResume (tile job : Nat)
  /-- JOB_ABORT (R358): A write to abort ends a suspended job. -/
  | jobAbort (tile job : Nat)
  /-- HOST_ACCESS (R135): A host CXL.mem access is performed at the serving point. -/
  | hostAccess (addr n : Nat) (data : Option (List (BitVec 8)))
  /-- HBHOST_WRITE (R374): A host write to hbhost, the first of which arms heartbeat checks. -/
  | hbhostWrite (v : BitVec 64)
  /-- HEARTBEAT_CHECK (R374): The leader checks hbhost each ms, fencing the host after three unchanged checks. -/
  | heartbeatCheck
  /-- UNFENCE (R375): A write of the current epoch lifts the host fence. -/
  | unfence (v : BitVec 64)
  /-- HBDEV_TICK (R372): hbdev advances each ms a pair is alive and is mirrored to the host. -/
  | hbdevTick
  /-- PAIR_STOP (R377): A lock-step disagreement stops a service pair. -/
  | pairStop (pair : Nat)
  /-- LIVENESS_STAMP (R378): The leader writes its liveness stamp every 1 ms. -/
  | livenessStamp
  /-- LEADER_TAKEOVER (R378): After 3 ms without a stamp the lowest live pair replays the journal and leads. -/
  | leaderTakeover
  /-- DUTY_ADOPTION (R379): A stopped pair's die duties are assigned to another live pair. -/
  | dutyAdoption (die pair : Nat)
  /-- DUSK (R394): A router stops forwarding onto a dead link and pauses injection. -/
  | dusk (link : Nat)
  /-- DUSK_RESUME (R394): Recomputed routes are in place; injection resumes and lost packets are re-sent. -/
  | duskResume (link lost : Nat)
  /-- DAYBREAK (R383): Power-on bring-up verifies firmware, loads repair maps, trains HBM and elects a leader. -/
  | daybreak (boot : BootReport)
  /-- UNIT_FAILURE (R395): A unit fails self-test or errors and is replaced by a spare or withdrawn. -/
  | unitFailure (unit : FailedUnit)
  /-- SCRUB_ERROR (R366): The scrubber finds an uncorrectable word, poisons it and posts a record. -/
  | scrubError (addr : Nat)
  /-- NIGHTFALL_STOP_REQUEST (R385): nfctl value 1 requests a stop at T = now + 2 µs. -/
  | nightfallStopRequest (part : Nat)
  /-- NIGHTFALL_RESUME_REQUEST (R385): nfctl value 2 requests a resume at an agreed instant. -/
  | nightfallResumeRequest (part : Nat)
  /-- NIGHTFALL_STOP (R385): At T every core stops at a frame boundary and writes its stop record. -/
  | nightfallStop (part : Nat)
  /-- NIGHTFALL_RESUME (R385): At the resume instant cores restart and held messages are re-injected. -/
  | nightfallResume (part : Nat)
  /-- TRCTL_WRITE (R389): A trctl write configures tracing and, with enable, clears frozen and empties the buffer. -/
  | trctlWrite (core : Nat) (v : BitVec 64)
  /-- PARTITION_ENTRY_WRITE (R397): A partition table write is applied or refused into pterr. -/
  | partitionEntryWrite (part : Nat) (v : BitVec 64)
  /-- LARGE_CORE_MASK_WRITE (R398): A large-core mask write is applied or refused into pterr. -/
  | largeCoreMaskWrite (part : Nat) (v : BitVec 64)
  /-- ISLAND_STEP_DOWN (R400): An island over its cap or hot steps down 100 MHz every 10 µs. -/
  | islandStepDown (island power temp : Nat)
  /-- ISLAND_STEP_UP (R400): An island below both limits for 1 ms steps up 100 MHz. -/
  | islandStepUp (island power temp : Nat)
  /-- THERMAL_WITHHOLD (R401): An island held hot at its floor for 100 ms withholds placements until it cools. -/
  | thermalWithhold (sg temp : Nat)
  /-- TELEMETRY_SAMPLE (R402): The leader writes a telemetry sample every 1 ms or counts a drop. -/
  | telemetrySample
  /-- QUOTE_REQUEST (R403): A write of 1 to qctl starts an attestation quote or is refused. -/
  | quoteRequest
  /-- QUOTE_READY (R403): The signed quote is complete and qstat reads ready. -/
  | quoteReady
  /-- REGISTER_WRITE (R336): A write to a control register with no row of its own stores or ignores the value. -/
  | registerWrite (off : Nat) (v : BitVec 64)
  /-- DEBUGGER_RELEASE (R388): The debugger releases a slot that it holds parked in its supervisor handler at a BRK. -/
  | debuggerRelease (core slot : Nat)
  /-- STOPPED_STATE_WRITE (R388): While a partition is stopped, firmware writes a slot's context, a scratchpad or array or engine state, to take effect at the resume. -/
  | stoppedStateWrite (w : StateWrite)
  /-- FIRMWARE_MEMORY_WRITE (R377): The device OS on the leader service pair writes shared state in device memory: a journal record, page-table or process-table entries, or a completion status. -/
  | firmwareMemoryWrite (addr : Nat) (data : List (BitVec 8)) (applied : Bool)
  /-- RANGE_ENTRY_REMOVAL (R62): A job or array operation finishes its reads or writes of one registered range, and that range's entry is removed before the job as a whole ends. -/
  | rangeEntryRemoval (id : Nat)
  /-- LINK_RETRY (R393): A flit with a CRC error on a die-to-die, peer or host link is retried, and linkretry is counted. -/
  | linkRetry (link : Nat)
  deriving DecidableEq, Repr

end Sys2Proof
end

