-- ==== Sys2Proof/WellFormed.lean ====
section
/-! DEFINITION.  Which instructions are well formed: the field values of R173-R176, R245, R269, R271, R279
and R282-R285 that make a word an instruction, with one named check for each kind of field.  A step of
another agent carries no encoded field and is well formed. -/

namespace Sys2Proof

/-- A field that names a vector register, v0-v15 (R261). -/
def isV (r : BitVec 5) : Bool := decide (r.toNat < 16)
/-- A field that names a queue register, q0-q7 (R176). -/
def isQ (q : BitVec 5) : Bool := decide (q.toNat < 8)
/-- The destination of a pair result: even, 2-30 (R245). -/
def isPair (d : BitVec 5) : Bool := decide (d.toNat % 2 = 0) && d != 0
/-- A floating-point format code: .f32, .f64, .s32 or .s64 (R174). -/
def isF (f : BitVec 3) : Bool := decide (f.toNat < 4)
/-- The scalar formats .s32 and .s64 (R174). -/
def fmtScalar (f : BitVec 3) : Bool := f == 2 || f == 3
/-- How many elements a floating-point format operates on (R258). -/
def fmtLanes (f : BitVec 3) : Nat := if f = 0 then 4 else if f = 1 then 2 else 1
/-- The element index of VSPLAT, VINS and VEXT (R279). -/
def isK (f : BitVec 3) (k : BitVec 5) : Bool := decide (k.toNat < (if f = 0 ∨ f = 2 then 4 else 2))
/-- The pairs of VCVT (R175, R282). -/
def isCvtPair (t s : BitVec 4) : Bool :=
  decide (t.toNat ≤ 5) && decide (s.toNat ≤ 5) && t != s && (t != 5 || s == 0) && (s != 5 || t == 0)
/-- The pairs of VCVTI (R175, R282). -/
def isCvtiPair (t s : BitVec 4) : Bool :=
  (decide (6 ≤ t.toNat) && decide (t.toNat ≤ 13) && decide (s.toNat ≤ 1)) ||
  (decide (t.toNat ≤ 1) && decide (6 ≤ s.toNat) && decide (s.toNat ≤ 13)) ||
  (s == 6 && (t == 10 || t == 11))

/-- A well-formed instruction. -/
def Instr.wf : Instr → Bool
  | .add _ _ _ => true
  | .sub _ _ _ => true
  | .and _ _ _ => true
  | .or _ _ _ => true
  | .xor _ _ _ => true
  | .andn _ _ _ => true
  | .sll _ _ _ => true
  | .srl _ _ _ => true
  | .sra _ _ _ => true
  | .slt _ _ _ => true
  | .sltu _ _ _ => true
  | .min _ _ _ => true
  | .max _ _ _ => true
  | .minu _ _ _ => true
  | .maxu _ _ _ => true
  | .clz _ _ => true
  | .ctz _ _ => true
  | .popc _ _ => true
  | .sextb _ _ => true
  | .sexth _ _ => true
  | .sextw _ _ => true
  | .zextw _ _ => true
  | .addw _ _ _ => true
  | .subw _ _ _ => true
  | .sllw _ _ _ => true
  | .srlw _ _ _ => true
  | .sraw _ _ _ => true
  | .addi _ _ _ => true
  | .andi _ _ _ => true
  | .ori _ _ _ => true
  | .xori _ _ _ => true
  | .slti _ _ _ => true
  | .sltiu _ _ _ => true
  | .slli _ _ _ => true
  | .srli _ _ _ => true
  | .srai _ _ _ => true
  | .lui _ _ => true
  | .addpc _ _ => true
  | .mul _ _ _ => true
  | .mulh _ _ _ => true
  | .mulhu _ _ _ => true
  | .mulw _ _ _ => true
  | .div _ _ _ => true
  | .divu _ _ _ => true
  | .rem _ _ _ => true
  | .remu _ _ _ => true
  | .beq _ _ _ => true
  | .bne _ _ _ => true
  | .blt _ _ _ => true
  | .bge _ _ _ => true
  | .bltu _ _ _ => true
  | .bgeu _ _ _ => true
  | .j _ => true
  | .jl _ _ => true
  | .jlr _ _ _ => true
  | .cmp _ _ _ c => decide (c.toNat ≤ 5)
  | .pand _ _ _ => true
  | .por _ _ _ => true
  | .pxor _ _ _ => true
  | .bp _ _ => true
  | .bpF _ _ => true
  | .lb _ _ _ _ => true
  | .lbu _ _ _ _ => true
  | .lh _ _ _ _ => true
  | .lhu _ _ _ _ => true
  | .lw _ _ _ _ => true
  | .lwu _ _ _ _ => true
  | .ld _ _ _ _ => true
  | .sb _ _ _ _ => true
  | .sh _ _ _ _ => true
  | .sw _ _ _ _ => true
  | .sd _ _ _ _ => true
  | .aadd _ _ _ _ _ => true
  | .aand _ _ _ _ _ => true
  | .aor _ _ _ _ _ => true
  | .axor _ _ _ _ _ => true
  | .amin _ _ _ _ _ => true
  | .amax _ _ _ _ _ => true
  | .aminu _ _ _ _ _ => true
  | .amaxu _ _ _ _ _ => true
  | .aswap _ _ _ _ _ => true
  | .acas _ _ _ _ _ => true
  | .redadd _ _ _ => true
  | .redand _ _ _ => true
  | .redor _ _ _ => true
  | .redmin _ _ _ => true
  | .redmax _ _ _ => true
  | .xcaddV _ v => isV v
  | .xcaddG _ _ => true
  | .xcread d _ => isV d
  | .xcclr _ => true
  | .fence => true
  | .fenceRed => true
  | .fenceAcq => true
  | .fenceSys => true
  | .migrate _ _ => true
  | .migto _ _ => true
  | .spawn _ _ _ => true
  | .send _ _ => true
  | .sendt _ _ => true
  | .recv _ _ => true
  | .recvt _ _ => true
  | .append _ _ _ => true
  | .appendt _ _ _ => true
  | .mbstat _ => true
  | .qbind q _ => isQ q
  | .qwr q _ => isQ q
  | .qrd _ q => isQ q
  | .vqwr q v => isQ q && isV v
  | .vqrd v q => isQ q && isV v
  | .qstat _ q => isQ q
  | .qclose q => isQ q
  | .syncinit _ _ _ => true
  | .acq _ => true
  | .tryacq _ _ => true
  | .rel _ => true
  | .lockrun _ _ _ => true
  | .arrive _ _ => true
  | .await _ _ => true
  | .syncserve _ => true
  | .syncdone _ => true
  | .syncmode _ _ _ => true
  | .syncpol _ _ _ => true
  | .syncfree _ => true
  | .tcinit _ _ => true
  | .tcdec _ _ => true
  | .yield _ => true
  | .exit => true
  | .quiesce => true
  | .dqpush _ _ _ => true
  | .dqpop d => isPair d
  | .dqsplit _ => true
  | .dqsteal d _ => isPair d
  | .dqlen _ => true
  | .alloc _ _ => true
  | .free _ => true
  | .vldF32 _ _ _ _ => true
  | .vldF64 _ _ _ _ => true
  | .vldbF32 _ _ _ _ => true
  | .vldbF64 _ _ _ _ => true
  | .vstF32 _ _ _ _ => true
  | .vstF64 _ _ _ _ => true
  | .vadd d a b _ _ => isV d && isV a && isV b
  | .vsub d a b _ _ => isV d && isV a && isV b
  | .vmul d a b _ _ => isV d && isV a && isV b
  | .vmin d a b _ => isV d && isV a && isV b
  | .vmax d a b _ => isV d && isV a && isV b
  | .vminu d a b _ => isV d && isV a && isV b
  | .vmaxu d a b _ => isV d && isV a && isV b
  | .vand d a b _ => isV d && isV a && isV b
  | .vor d a b _ => isV d && isV a && isV b
  | .vxor d a b _ => isV d && isV a && isV b
  | .vsll d a b _ => isV d && isV a && isV b
  | .vsrl d a b _ => isV d && isV a && isV b
  | .vsra d a b _ => isV d && isV a && isV b
  | .vcmpeq d a b _ => isV d && isV a && isV b
  | .vcmplt d a b _ => isV d && isV a && isV b
  | .vcmpltu d a b _ => isV d && isV a && isV b
  | .vsel d a b _ => isV d && isV a && isV b
  | .vpsum d a _ _ => isV d && isV a
  | .vwacc d a b f _ => isV d && isV a && isV b && (f == 0 || f == 1 || f == 4 || f == 5)
  | .vdot4 d a b f _ => isV d && isV a && isV b && (f == 0 || f == 4)
  | .vpsumF32 d a => isV d && isV a
  | .vfadd _ a b f => isV a && isV b && isF f
  | .vfsub _ a b f => isV a && isV b && isF f
  | .vfmul _ a b f => isV a && isV b && isF f
  | .vfdiv _ a b f => isV a && isV b && isF f
  | .vfsqrt _ a f => isV a && isF f
  | .vfmin _ a b f => isV a && isV b && isF f
  | .vfmax _ a b f => isV a && isV b && isF f
  | .vfabs _ a f => isV a && isF f
  | .vfneg _ a f => isV a && isF f
  | .vfcmpeq p a b f => isV a && isV b && isF f && decide (p.toNat + fmtLanes f ≤ 16)
  | .vfcmplt p a b f => isV a && isV b && isF f && decide (p.toNat + fmtLanes f ≤ 16)
  | .vfcmple p a b f => isV a && isV b && isF f && decide (p.toNat + fmtLanes f ≤ 16)
  | .vfclass _ a f => isV a && isF f
  | .vfma d a b c f => isV d && isV a && isV b && isV c && isF f
  | .vfms d a b c f => isV d && isV a && isV b && isV c && isF f
  | .vfnma d a b c f => isV d && isV a && isV b && isV c && isF f
  | .vfnms d a b c f => isV d && isV a && isV b && isV c && isF f
  | .vexp2 d a f => isV d && isV a && (f == 0 || f == 2)
  | .vlog2 d a f => isV d && isV a && (f == 0 || f == 2)
  | .vrcp d a f => isV d && isV a && (f == 0 || f == 2)
  | .vrsq d a f => isV d && isV a && (f == 0 || f == 2)
  | .sigget _ a f => isV a && isF f
  | .sigset d _ f => isV d && isF f
  | .sigmin _ a f => isV a && isF f
  | .bsig _ _ _ => true
  | .vsplat d a k f => isV d && isF f && (if fmtScalar f then k == 0 else isV a && isK f k)
  | .vins d a k f => isV d && isF f && isK f k && (fmtScalar f || isV a)
  | .vext d a k f => isV a && isF f && isK f k && (fmtScalar f || isV d)
  | .vperm d a b f => isV d && isV a && isV b && (f == 0 || f == 1)
  | .vhadd d a f => isV d && isV a && f == 0
  | .vcvt d a b f t s => isV d && isV a && decide (f.toNat ≤ 4) && isCvtPair t s && (t == 5 || s == 5 || b == 0) && (t != 5 || a == 0 || a == 8)
  | .vcvti d a b f t s => isV d && isV a && decide (f.toNat ≤ 4) && isCvtiPair t s && b == 0
  | .mgang => true
  | .mldw _ => true
  | .mtld _ => true
  | .mswap => true
  | .mzero => true
  | .mstrm _ => true
  | .mgrp _ _ _ => true
  | .mdrain _ => true
  | .mstat => true
  | .anorm _ _ => true
  | .acert _ => true
  | .afetch _ => true
  | .mcovi _ => true
  | .mcovp _ _ _ => true
  | .mcovc _ _ => true
  | .mcovr _ _ => true
  | .ecw _ _ => true
  | .ecr _ => true
  | .ego => true
  | .ewait _ => true
  | .cbinit _ _ => true
  | .cbacq _ => true
  | .cbrel _ => true
  | .cbstat _ => true
  | .syscall _ => true
  | .trap _ => true
  | .eret => true
  | .brk _ => true
  | .nop => true
  | .tstamp _ => true
  | .trig _ _ _ => true
  | .ptblw _ _ => true
  | .csrr _ _ => true
  | .csrw _ _ _ => true
  | .csrs _ _ _ => true
  | .csrc _ _ _ => true
  | .launch _ _ => true
  | .lwait _ _ => true
  | .stagedTableGoesLive _ => true
  | .trapEntry _ _ => true
  | .slotTakesWork _ => true
  | .contextPacketAdmission _ => true
  | .migrationReply _ => true
  | .refusalBackoffExpiry _ => true
  | .forwardingEntryExpiry _ _ => true
  | .lateReplyAtOrigin _ _ => true
  | .tcdecArrival _ => true
  | .quiesceSweep _ => true
  | .activeMessage _ => true
  | .dequeStealServed _ => true
  | .accessReply _ => true
  | .fireAndForgetAck _ => true
  | .edgeCoreServe _ => true
  | .specialFunctionResult _ _ => true
  | .anormResult _ _ => true
  | .allocatorEngineStep _ => true
  | .acqAtHome _ => true
  | .tryacqAtHome _ => true
  | .relAtHome _ => true
  | .lockrunAtHome _ => true
  | .syncserveAtHome _ => true
  | .directArrival _ => true
  | .combinedArrival _ => true
  | .engineArrival _ => true
  | .syncdoneAtHome _ => true
  | .syncpolAtHome _ => true
  | .syncfreeAtHome _ => true
  | .ownerDeparture _ => true
  | .killMark _ => true
  | .releaseReachesCore _ _ => true
  | .nodeArming _ => true
  | .nodeForward _ _ _ => true
  | .delegatedWorkAtOwner _ => true
  | .lockrunResult _ => true
  | .mailboxDelivery _ => true
  | .appendAtRing _ => true
  | .appendRetry _ => true
  | .contextGone _ => true
  | .jobStart _ => true
  | .cbSlotStart _ => true
  | .cbSlotFilled _ => true
  | .jobCompletion _ => true
  | .jobSuspension _ => true
  | .rangeTableRoom _ _ => true
  | .gangJoin _ => true
  | .mgangRelease _ => true
  | .gangLeave _ => true
  | .shadowLoad _ => true
  | .planeSwap _ => true
  | .accumulatorZero _ => true
  | .streamPass _ => true
  | .drain _ => true
  | .groupedProduct _ => true
  | .coverageInit _ => true
  | .coverageProbe _ => true
  | .spanJoin _ => true
  | .coverageCommit _ => true
  | .coverageReadback _ => true
  | .matrixRerun _ _ => true
  | .certification _ => true
  | .syscallGateReply _ _ _ => true
  | .qdb _ _ _ => true
  | .launchRecordSent _ => true
  | .dependenceReread _ => true
  | .queueAging _ => true
  | .launchHeadCheck _ => true
  | .selectAndReserve _ _ => true
  | .prepare _ => true
  | .commit _ _ => true
  | .launchCompletion _ => true
  | .eventideRequest _ => true
  | .eventideStop _ => true
  | .eventideResume _ => true
  | .kill _ _ => true
  | .heldRewalk _ => true
  | .holdTimeout _ => true
  | .translationWalk _ _ => true
  | .shootdown _ _ _ _ _ => true
  | .jobResume _ _ => true
  | .jobAbort _ _ => true
  | .hostAccess _ _ _ => true
  | .hbhostWrite _ => true
  | .heartbeatCheck => true
  | .unfence _ => true
  | .hbdevTick => true
  | .pairStop _ => true
  | .livenessStamp => true
  | .leaderTakeover => true
  | .dutyAdoption _ _ => true
  | .dusk _ => true
  | .duskResume _ _ => true
  | .daybreak _ => true
  | .unitFailure _ => true
  | .scrubError _ => true
  | .nightfallStopRequest _ => true
  | .nightfallResumeRequest _ => true
  | .nightfallStop _ => true
  | .nightfallResume _ => true
  | .trctlWrite _ _ => true
  | .partitionEntryWrite _ _ => true
  | .largeCoreMaskWrite _ _ => true
  | .islandStepDown _ _ _ => true
  | .islandStepUp _ _ _ => true
  | .thermalWithhold _ _ => true
  | .telemetrySample => true
  | .quoteRequest => true
  | .quoteReady => true
  | .registerWrite _ _ => true
  | .debuggerRelease _ _ => true
  | .stoppedStateWrite _ => true
  | .firmwareMemoryWrite _ _ _ => true
  | .rangeEntryRemoval _ => true
  | .linkRetry _ => true

end Sys2Proof
end

