-- ==== Sys2Proof/Decode.lean ====
section
/-! DEFINITION.  Decoding instruction words (R171-R176) and encoding them again.  decodeBytes is total: every
list of bytes is an instruction with the bytes after it, or is rejected by name.  The fields are read once,
here.  A step of another agent has no word. -/

namespace Sys2Proof

/-- Why bytes are no instruction (R176). -/
inductive DecodeError where
  /-- Fewer than four bytes. -/
  | short
  /-- Major 0x00 or 0x35-0x3F. -/
  | noMajor
  /-- An unassigned code, or a bit that must be zero and is not. -/
  | unassigned
  /-- A register, format, element index or format pair that the instruction does not take. -/
  | illFormed
  deriving DecidableEq, Repr

/-- The instruction, if it is well formed. -/
def checked (i : Instr) : Except DecodeError Instr := if i.wf then .ok i else .error .illFormed

/-- Words of major 0x01 (R173). -/
def decodeMajor01 (w : Nat) : Except DecodeError Instr :=
  if w % 2048 = 0 then checked (.add (BitVec.ofNat 5 (w / 2097152 % 32)) (BitVec.ofNat 5 (w / 65536 % 32)) (BitVec.ofNat 5 (w / 2048 % 32)))
  else if w % 2048 = 1 then checked (.sub (BitVec.ofNat 5 (w / 2097152 % 32)) (BitVec.ofNat 5 (w / 65536 % 32)) (BitVec.ofNat 5 (w / 2048 % 32)))
  else if w % 2048 = 2 then checked (.and (BitVec.ofNat 5 (w / 2097152 % 32)) (BitVec.ofNat 5 (w / 65536 % 32)) (BitVec.ofNat 5 (w / 2048 % 32)))
  else if w % 2048 = 3 then checked (.or (BitVec.ofNat 5 (w / 2097152 % 32)) (BitVec.ofNat 5 (w / 65536 % 32)) (BitVec.ofNat 5 (w / 2048 % 32)))
  else if w % 2048 = 4 then checked (.xor (BitVec.ofNat 5 (w / 2097152 % 32)) (BitVec.ofNat 5 (w / 65536 % 32)) (BitVec.ofNat 5 (w / 2048 % 32)))
  else if w % 2048 = 5 then checked (.andn (BitVec.ofNat 5 (w / 2097152 % 32)) (BitVec.ofNat 5 (w / 65536 % 32)) (BitVec.ofNat 5 (w / 2048 % 32)))
  else if w % 2048 = 6 then checked (.sll (BitVec.ofNat 5 (w / 2097152 % 32)) (BitVec.ofNat 5 (w / 65536 % 32)) (BitVec.ofNat 5 (w / 2048 % 32)))
  else if w % 2048 = 7 then checked (.srl (BitVec.ofNat 5 (w / 2097152 % 32)) (BitVec.ofNat 5 (w / 65536 % 32)) (BitVec.ofNat 5 (w / 2048 % 32)))
  else if w % 2048 = 8 then checked (.sra (BitVec.ofNat 5 (w / 2097152 % 32)) (BitVec.ofNat 5 (w / 65536 % 32)) (BitVec.ofNat 5 (w / 2048 % 32)))
  else if w % 2048 = 9 then checked (.slt (BitVec.ofNat 5 (w / 2097152 % 32)) (BitVec.ofNat 5 (w / 65536 % 32)) (BitVec.ofNat 5 (w / 2048 % 32)))
  else if w % 2048 = 10 then checked (.sltu (BitVec.ofNat 5 (w / 2097152 % 32)) (BitVec.ofNat 5 (w / 65536 % 32)) (BitVec.ofNat 5 (w / 2048 % 32)))
  else if w % 2048 = 11 then checked (.min (BitVec.ofNat 5 (w / 2097152 % 32)) (BitVec.ofNat 5 (w / 65536 % 32)) (BitVec.ofNat 5 (w / 2048 % 32)))
  else if w % 2048 = 12 then checked (.max (BitVec.ofNat 5 (w / 2097152 % 32)) (BitVec.ofNat 5 (w / 65536 % 32)) (BitVec.ofNat 5 (w / 2048 % 32)))
  else if w % 2048 = 13 then checked (.minu (BitVec.ofNat 5 (w / 2097152 % 32)) (BitVec.ofNat 5 (w / 65536 % 32)) (BitVec.ofNat 5 (w / 2048 % 32)))
  else if w % 2048 = 14 then checked (.maxu (BitVec.ofNat 5 (w / 2097152 % 32)) (BitVec.ofNat 5 (w / 65536 % 32)) (BitVec.ofNat 5 (w / 2048 % 32)))
  else if w % 65536 = 15 then checked (.clz (BitVec.ofNat 5 (w / 2097152 % 32)) (BitVec.ofNat 5 (w / 65536 % 32)))
  else if w % 65536 = 16 then checked (.ctz (BitVec.ofNat 5 (w / 2097152 % 32)) (BitVec.ofNat 5 (w / 65536 % 32)))
  else if w % 65536 = 17 then checked (.popc (BitVec.ofNat 5 (w / 2097152 % 32)) (BitVec.ofNat 5 (w / 65536 % 32)))
  else if w % 65536 = 18 then checked (.sextb (BitVec.ofNat 5 (w / 2097152 % 32)) (BitVec.ofNat 5 (w / 65536 % 32)))
  else if w % 65536 = 19 then checked (.sexth (BitVec.ofNat 5 (w / 2097152 % 32)) (BitVec.ofNat 5 (w / 65536 % 32)))
  else if w % 65536 = 20 then checked (.sextw (BitVec.ofNat 5 (w / 2097152 % 32)) (BitVec.ofNat 5 (w / 65536 % 32)))
  else if w % 65536 = 21 then checked (.zextw (BitVec.ofNat 5 (w / 2097152 % 32)) (BitVec.ofNat 5 (w / 65536 % 32)))
  else if w % 2048 = 22 then checked (.addw (BitVec.ofNat 5 (w / 2097152 % 32)) (BitVec.ofNat 5 (w / 65536 % 32)) (BitVec.ofNat 5 (w / 2048 % 32)))
  else if w % 2048 = 23 then checked (.subw (BitVec.ofNat 5 (w / 2097152 % 32)) (BitVec.ofNat 5 (w / 65536 % 32)) (BitVec.ofNat 5 (w / 2048 % 32)))
  else if w % 2048 = 24 then checked (.sllw (BitVec.ofNat 5 (w / 2097152 % 32)) (BitVec.ofNat 5 (w / 65536 % 32)) (BitVec.ofNat 5 (w / 2048 % 32)))
  else if w % 2048 = 25 then checked (.srlw (BitVec.ofNat 5 (w / 2097152 % 32)) (BitVec.ofNat 5 (w / 65536 % 32)) (BitVec.ofNat 5 (w / 2048 % 32)))
  else if w % 2048 = 26 then checked (.sraw (BitVec.ofNat 5 (w / 2097152 % 32)) (BitVec.ofNat 5 (w / 65536 % 32)) (BitVec.ofNat 5 (w / 2048 % 32)))
  else .error .unassigned

/-- Words of major 0x02 (R173). -/
def decodeMajor02 (w : Nat) : Except DecodeError Instr :=
  checked (.addi (BitVec.ofNat 5 (w / 2097152 % 32)) (BitVec.ofNat 5 (w / 65536 % 32)) (BitVec.ofNat 16 (w % 65536)))

/-- Words of major 0x03 (R173). -/
def decodeMajor03 (w : Nat) : Except DecodeError Instr :=
  checked (.andi (BitVec.ofNat 5 (w / 2097152 % 32)) (BitVec.ofNat 5 (w / 65536 % 32)) (BitVec.ofNat 16 (w % 65536)))

/-- Words of major 0x04 (R173). -/
def decodeMajor04 (w : Nat) : Except DecodeError Instr :=
  checked (.ori (BitVec.ofNat 5 (w / 2097152 % 32)) (BitVec.ofNat 5 (w / 65536 % 32)) (BitVec.ofNat 16 (w % 65536)))

/-- Words of major 0x05 (R173). -/
def decodeMajor05 (w : Nat) : Except DecodeError Instr :=
  checked (.xori (BitVec.ofNat 5 (w / 2097152 % 32)) (BitVec.ofNat 5 (w / 65536 % 32)) (BitVec.ofNat 16 (w % 65536)))

/-- Words of major 0x06 (R173). -/
def decodeMajor06 (w : Nat) : Except DecodeError Instr :=
  checked (.slti (BitVec.ofNat 5 (w / 2097152 % 32)) (BitVec.ofNat 5 (w / 65536 % 32)) (BitVec.ofNat 16 (w % 65536)))

/-- Words of major 0x07 (R173). -/
def decodeMajor07 (w : Nat) : Except DecodeError Instr :=
  checked (.sltiu (BitVec.ofNat 5 (w / 2097152 % 32)) (BitVec.ofNat 5 (w / 65536 % 32)) (BitVec.ofNat 16 (w % 65536)))

/-- Words of major 0x08 (R173). -/
def decodeMajor08 (w : Nat) : Except DecodeError Instr :=
  if w / 64 % 1024 = 0 then checked (.slli (BitVec.ofNat 5 (w / 2097152 % 32)) (BitVec.ofNat 5 (w / 65536 % 32)) (BitVec.ofNat 6 (w % 64)))
  else if w / 64 % 1024 = 256 then checked (.srli (BitVec.ofNat 5 (w / 2097152 % 32)) (BitVec.ofNat 5 (w / 65536 % 32)) (BitVec.ofNat 6 (w % 64)))
  else if w / 64 % 1024 = 512 then checked (.srai (BitVec.ofNat 5 (w / 2097152 % 32)) (BitVec.ofNat 5 (w / 65536 % 32)) (BitVec.ofNat 6 (w % 64)))
  else .error .unassigned

/-- Words of major 0x09 (R173). -/
def decodeMajor09 (w : Nat) : Except DecodeError Instr :=
  if w / 65536 % 32 = 0 then checked (.lui (BitVec.ofNat 5 (w / 2097152 % 32)) (BitVec.ofNat 16 (w % 65536)))
  else .error .unassigned

/-- Words of major 0x0A (R173). -/
def decodeMajor0A (w : Nat) : Except DecodeError Instr :=
  if w / 65536 % 32 = 0 then checked (.addpc (BitVec.ofNat 5 (w / 2097152 % 32)) (BitVec.ofNat 16 (w % 65536)))
  else .error .unassigned

/-- Words of major 0x0B (R173). -/
def decodeMajor0B (w : Nat) : Except DecodeError Instr :=
  if w % 2048 = 0 then checked (.mul (BitVec.ofNat 5 (w / 2097152 % 32)) (BitVec.ofNat 5 (w / 65536 % 32)) (BitVec.ofNat 5 (w / 2048 % 32)))
  else if w % 2048 = 1 then checked (.mulh (BitVec.ofNat 5 (w / 2097152 % 32)) (BitVec.ofNat 5 (w / 65536 % 32)) (BitVec.ofNat 5 (w / 2048 % 32)))
  else if w % 2048 = 2 then checked (.mulhu (BitVec.ofNat 5 (w / 2097152 % 32)) (BitVec.ofNat 5 (w / 65536 % 32)) (BitVec.ofNat 5 (w / 2048 % 32)))
  else if w % 2048 = 3 then checked (.mulw (BitVec.ofNat 5 (w / 2097152 % 32)) (BitVec.ofNat 5 (w / 65536 % 32)) (BitVec.ofNat 5 (w / 2048 % 32)))
  else if w % 2048 = 4 then checked (.div (BitVec.ofNat 5 (w / 2097152 % 32)) (BitVec.ofNat 5 (w / 65536 % 32)) (BitVec.ofNat 5 (w / 2048 % 32)))
  else if w % 2048 = 5 then checked (.divu (BitVec.ofNat 5 (w / 2097152 % 32)) (BitVec.ofNat 5 (w / 65536 % 32)) (BitVec.ofNat 5 (w / 2048 % 32)))
  else if w % 2048 = 6 then checked (.rem (BitVec.ofNat 5 (w / 2097152 % 32)) (BitVec.ofNat 5 (w / 65536 % 32)) (BitVec.ofNat 5 (w / 2048 % 32)))
  else if w % 2048 = 7 then checked (.remu (BitVec.ofNat 5 (w / 2097152 % 32)) (BitVec.ofNat 5 (w / 65536 % 32)) (BitVec.ofNat 5 (w / 2048 % 32)))
  else .error .unassigned

/-- Words of major 0x0C (R173). -/
def decodeMajor0C (w : Nat) : Except DecodeError Instr :=
  checked (.beq (BitVec.ofNat 5 (w / 2097152 % 32)) (BitVec.ofNat 5 (w / 65536 % 32)) (BitVec.ofNat 16 (w % 65536)))

/-- Words of major 0x0D (R173). -/
def decodeMajor0D (w : Nat) : Except DecodeError Instr :=
  checked (.bne (BitVec.ofNat 5 (w / 2097152 % 32)) (BitVec.ofNat 5 (w / 65536 % 32)) (BitVec.ofNat 16 (w % 65536)))

/-- Words of major 0x0E (R173). -/
def decodeMajor0E (w : Nat) : Except DecodeError Instr :=
  checked (.blt (BitVec.ofNat 5 (w / 2097152 % 32)) (BitVec.ofNat 5 (w / 65536 % 32)) (BitVec.ofNat 16 (w % 65536)))

/-- Words of major 0x0F (R173). -/
def decodeMajor0F (w : Nat) : Except DecodeError Instr :=
  checked (.bge (BitVec.ofNat 5 (w / 2097152 % 32)) (BitVec.ofNat 5 (w / 65536 % 32)) (BitVec.ofNat 16 (w % 65536)))

/-- Words of major 0x10 (R173). -/
def decodeMajor10 (w : Nat) : Except DecodeError Instr :=
  checked (.bltu (BitVec.ofNat 5 (w / 2097152 % 32)) (BitVec.ofNat 5 (w / 65536 % 32)) (BitVec.ofNat 16 (w % 65536)))

/-- Words of major 0x11 (R173). -/
def decodeMajor11 (w : Nat) : Except DecodeError Instr :=
  checked (.bgeu (BitVec.ofNat 5 (w / 2097152 % 32)) (BitVec.ofNat 5 (w / 65536 % 32)) (BitVec.ofNat 16 (w % 65536)))

/-- Words of major 0x12 (R173). -/
def decodeMajor12 (w : Nat) : Except DecodeError Instr :=
  if w / 2097152 % 32 = 0 then checked (.j (BitVec.ofNat 21 (w % 2097152)))
  else .error .unassigned

/-- Words of major 0x13 (R173). -/
def decodeMajor13 (w : Nat) : Except DecodeError Instr :=
  checked (.jl (BitVec.ofNat 5 (w / 2097152 % 32)) (BitVec.ofNat 21 (w % 2097152)))

/-- Words of major 0x14 (R173). -/
def decodeMajor14 (w : Nat) : Except DecodeError Instr :=
  checked (.jlr (BitVec.ofNat 5 (w / 2097152 % 32)) (BitVec.ofNat 5 (w / 65536 % 32)) (BitVec.ofNat 16 (w % 65536)))

/-- Words of major 0x15 (R173). -/
def decodeMajor15 (w : Nat) : Except DecodeError Instr :=
  if w % 16 = 0 ∧ w / 128 % 16 = 0 ∧ w / 33554432 % 2 = 0 then checked (.cmp (BitVec.ofNat 4 (w / 2097152 % 16)) (BitVec.ofNat 5 (w / 65536 % 32)) (BitVec.ofNat 5 (w / 2048 % 32)) (BitVec.ofNat 3 (w / 16 % 8)))
  else if w % 2048 = 1 ∧ w / 32768 % 2 = 0 ∧ w / 1048576 % 2 = 0 ∧ w / 33554432 % 2 = 0 then checked (.pand (BitVec.ofNat 4 (w / 2097152 % 16)) (BitVec.ofNat 4 (w / 65536 % 16)) (BitVec.ofNat 4 (w / 2048 % 16)))
  else if w % 2048 = 2 ∧ w / 32768 % 2 = 0 ∧ w / 1048576 % 2 = 0 ∧ w / 33554432 % 2 = 0 then checked (.por (BitVec.ofNat 4 (w / 2097152 % 16)) (BitVec.ofNat 4 (w / 65536 % 16)) (BitVec.ofNat 4 (w / 2048 % 16)))
  else if w % 2048 = 3 ∧ w / 32768 % 2 = 0 ∧ w / 1048576 % 2 = 0 ∧ w / 33554432 % 2 = 0 then checked (.pxor (BitVec.ofNat 4 (w / 2097152 % 16)) (BitVec.ofNat 4 (w / 65536 % 16)) (BitVec.ofNat 4 (w / 2048 % 16)))
  else .error .unassigned

/-- Words of major 0x16 (R173). -/
def decodeMajor16 (w : Nat) : Except DecodeError Instr :=
  if w / 65536 % 32 = 0 ∧ w / 33554432 % 2 = 0 then checked (.bp (BitVec.ofNat 4 (w / 2097152 % 16)) (BitVec.ofNat 16 (w % 65536)))
  else if w / 65536 % 32 = 1 ∧ w / 33554432 % 2 = 0 then checked (.bpF (BitVec.ofNat 4 (w / 2097152 % 16)) (BitVec.ofNat 16 (w % 65536)))
  else .error .unassigned

/-- Words of major 0x17 (R173). -/
def decodeMajor17 (w : Nat) : Except DecodeError Instr :=
  if w / 8192 % 8 = 0 then checked (.lb (BitVec.ofNat 5 (w / 2097152 % 32)) (BitVec.ofNat 5 (w / 65536 % 32)) (BitVec.ofNat 1 (w / 4096 % 2)) (BitVec.ofNat 12 (w % 4096)))
  else if w / 8192 % 8 = 1 then checked (.lbu (BitVec.ofNat 5 (w / 2097152 % 32)) (BitVec.ofNat 5 (w / 65536 % 32)) (BitVec.ofNat 1 (w / 4096 % 2)) (BitVec.ofNat 12 (w % 4096)))
  else if w / 8192 % 8 = 2 then checked (.lh (BitVec.ofNat 5 (w / 2097152 % 32)) (BitVec.ofNat 5 (w / 65536 % 32)) (BitVec.ofNat 1 (w / 4096 % 2)) (BitVec.ofNat 12 (w % 4096)))
  else if w / 8192 % 8 = 3 then checked (.lhu (BitVec.ofNat 5 (w / 2097152 % 32)) (BitVec.ofNat 5 (w / 65536 % 32)) (BitVec.ofNat 1 (w / 4096 % 2)) (BitVec.ofNat 12 (w % 4096)))
  else if w / 8192 % 8 = 4 then checked (.lw (BitVec.ofNat 5 (w / 2097152 % 32)) (BitVec.ofNat 5 (w / 65536 % 32)) (BitVec.ofNat 1 (w / 4096 % 2)) (BitVec.ofNat 12 (w % 4096)))
  else if w / 8192 % 8 = 5 then checked (.lwu (BitVec.ofNat 5 (w / 2097152 % 32)) (BitVec.ofNat 5 (w / 65536 % 32)) (BitVec.ofNat 1 (w / 4096 % 2)) (BitVec.ofNat 12 (w % 4096)))
  else if w / 8192 % 8 = 6 then checked (.ld (BitVec.ofNat 5 (w / 2097152 % 32)) (BitVec.ofNat 5 (w / 65536 % 32)) (BitVec.ofNat 1 (w / 4096 % 2)) (BitVec.ofNat 12 (w % 4096)))
  else .error .unassigned

/-- Words of major 0x18 (R173). -/
def decodeMajor18 (w : Nat) : Except DecodeError Instr :=
  if w / 8192 % 8 = 0 then checked (.sb (BitVec.ofNat 5 (w / 2097152 % 32)) (BitVec.ofNat 5 (w / 65536 % 32)) (BitVec.ofNat 1 (w / 4096 % 2)) (BitVec.ofNat 12 (w % 4096)))
  else if w / 8192 % 8 = 2 then checked (.sh (BitVec.ofNat 5 (w / 2097152 % 32)) (BitVec.ofNat 5 (w / 65536 % 32)) (BitVec.ofNat 1 (w / 4096 % 2)) (BitVec.ofNat 12 (w % 4096)))
  else if w / 8192 % 8 = 4 then checked (.sw (BitVec.ofNat 5 (w / 2097152 % 32)) (BitVec.ofNat 5 (w / 65536 % 32)) (BitVec.ofNat 1 (w / 4096 % 2)) (BitVec.ofNat 12 (w % 4096)))
  else if w / 8192 % 8 = 6 then checked (.sd (BitVec.ofNat 5 (w / 2097152 % 32)) (BitVec.ofNat 5 (w / 65536 % 32)) (BitVec.ofNat 1 (w / 4096 % 2)) (BitVec.ofNat 12 (w % 4096)))
  else .error .unassigned

/-- Words of major 0x19 (R173). -/
def decodeMajor19 (w : Nat) : Except DecodeError Instr :=
  if w % 16 = 0 ∧ w / 64 % 32 = 0 then checked (.aadd (BitVec.ofNat 5 (w / 2097152 % 32)) (BitVec.ofNat 5 (w / 65536 % 32)) (BitVec.ofNat 5 (w / 2048 % 32)) (BitVec.ofNat 1 (w / 32 % 2)) (BitVec.ofNat 1 (w / 16 % 2)))
  else if w % 16 = 1 ∧ w / 64 % 32 = 0 then checked (.aand (BitVec.ofNat 5 (w / 2097152 % 32)) (BitVec.ofNat 5 (w / 65536 % 32)) (BitVec.ofNat 5 (w / 2048 % 32)) (BitVec.ofNat 1 (w / 32 % 2)) (BitVec.ofNat 1 (w / 16 % 2)))
  else if w % 16 = 2 ∧ w / 64 % 32 = 0 then checked (.aor (BitVec.ofNat 5 (w / 2097152 % 32)) (BitVec.ofNat 5 (w / 65536 % 32)) (BitVec.ofNat 5 (w / 2048 % 32)) (BitVec.ofNat 1 (w / 32 % 2)) (BitVec.ofNat 1 (w / 16 % 2)))
  else if w % 16 = 3 ∧ w / 64 % 32 = 0 then checked (.axor (BitVec.ofNat 5 (w / 2097152 % 32)) (BitVec.ofNat 5 (w / 65536 % 32)) (BitVec.ofNat 5 (w / 2048 % 32)) (BitVec.ofNat 1 (w / 32 % 2)) (BitVec.ofNat 1 (w / 16 % 2)))
  else if w % 16 = 4 ∧ w / 64 % 32 = 0 then checked (.amin (BitVec.ofNat 5 (w / 2097152 % 32)) (BitVec.ofNat 5 (w / 65536 % 32)) (BitVec.ofNat 5 (w / 2048 % 32)) (BitVec.ofNat 1 (w / 32 % 2)) (BitVec.ofNat 1 (w / 16 % 2)))
  else if w % 16 = 5 ∧ w / 64 % 32 = 0 then checked (.amax (BitVec.ofNat 5 (w / 2097152 % 32)) (BitVec.ofNat 5 (w / 65536 % 32)) (BitVec.ofNat 5 (w / 2048 % 32)) (BitVec.ofNat 1 (w / 32 % 2)) (BitVec.ofNat 1 (w / 16 % 2)))
  else if w % 16 = 6 ∧ w / 64 % 32 = 0 then checked (.aminu (BitVec.ofNat 5 (w / 2097152 % 32)) (BitVec.ofNat 5 (w / 65536 % 32)) (BitVec.ofNat 5 (w / 2048 % 32)) (BitVec.ofNat 1 (w / 32 % 2)) (BitVec.ofNat 1 (w / 16 % 2)))
  else if w % 16 = 7 ∧ w / 64 % 32 = 0 then checked (.amaxu (BitVec.ofNat 5 (w / 2097152 % 32)) (BitVec.ofNat 5 (w / 65536 % 32)) (BitVec.ofNat 5 (w / 2048 % 32)) (BitVec.ofNat 1 (w / 32 % 2)) (BitVec.ofNat 1 (w / 16 % 2)))
  else if w % 16 = 8 ∧ w / 64 % 32 = 0 then checked (.aswap (BitVec.ofNat 5 (w / 2097152 % 32)) (BitVec.ofNat 5 (w / 65536 % 32)) (BitVec.ofNat 5 (w / 2048 % 32)) (BitVec.ofNat 1 (w / 32 % 2)) (BitVec.ofNat 1 (w / 16 % 2)))
  else if w % 16 = 9 ∧ w / 64 % 32 = 0 then checked (.acas (BitVec.ofNat 5 (w / 2097152 % 32)) (BitVec.ofNat 5 (w / 65536 % 32)) (BitVec.ofNat 5 (w / 2048 % 32)) (BitVec.ofNat 1 (w / 32 % 2)) (BitVec.ofNat 1 (w / 16 % 2)))
  else .error .unassigned

/-- Words of major 0x1A (R173). -/
def decodeMajor1A (w : Nat) : Except DecodeError Instr :=
  if w % 16 = 0 ∧ w / 32 % 64 = 0 ∧ w / 2097152 % 32 = 0 then checked (.redadd (BitVec.ofNat 5 (w / 65536 % 32)) (BitVec.ofNat 5 (w / 2048 % 32)) (BitVec.ofNat 1 (w / 16 % 2)))
  else if w % 16 = 1 ∧ w / 32 % 64 = 0 ∧ w / 2097152 % 32 = 0 then checked (.redand (BitVec.ofNat 5 (w / 65536 % 32)) (BitVec.ofNat 5 (w / 2048 % 32)) (BitVec.ofNat 1 (w / 16 % 2)))
  else if w % 16 = 2 ∧ w / 32 % 64 = 0 ∧ w / 2097152 % 32 = 0 then checked (.redor (BitVec.ofNat 5 (w / 65536 % 32)) (BitVec.ofNat 5 (w / 2048 % 32)) (BitVec.ofNat 1 (w / 16 % 2)))
  else if w % 16 = 3 ∧ w / 32 % 64 = 0 ∧ w / 2097152 % 32 = 0 then checked (.redmin (BitVec.ofNat 5 (w / 65536 % 32)) (BitVec.ofNat 5 (w / 2048 % 32)) (BitVec.ofNat 1 (w / 16 % 2)))
  else if w % 16 = 4 ∧ w / 32 % 64 = 0 ∧ w / 2097152 % 32 = 0 then checked (.redmax (BitVec.ofNat 5 (w / 65536 % 32)) (BitVec.ofNat 5 (w / 2048 % 32)) (BitVec.ofNat 1 (w / 16 % 2)))
  else .error .unassigned

/-- Words of major 0x1B (R173). -/
def decodeMajor1B (w : Nat) : Except DecodeError Instr :=
  if w % 2048 = 512 ∧ w / 2097152 % 32 = 0 then checked (.xcaddV (BitVec.ofNat 5 (w / 65536 % 32)) (BitVec.ofNat 5 (w / 2048 % 32)))
  else if w % 2048 = 513 ∧ w / 2097152 % 32 = 0 then checked (.xcaddG (BitVec.ofNat 5 (w / 65536 % 32)) (BitVec.ofNat 5 (w / 2048 % 32)))
  else if w % 65536 = 514 then checked (.xcread (BitVec.ofNat 5 (w / 2097152 % 32)) (BitVec.ofNat 5 (w / 65536 % 32)))
  else if w % 65536 = 515 ∧ w / 2097152 % 32 = 0 then checked (.xcclr (BitVec.ofNat 5 (w / 65536 % 32)))
  else .error .unassigned

/-- Words of major 0x1C (R173). -/
def decodeMajor1C (w : Nat) : Except DecodeError Instr :=
  if w % 67108864 = 0 then checked .fence
  else if w % 67108864 = 1 then checked .fenceRed
  else if w % 67108864 = 2 then checked .fenceAcq
  else if w % 67108864 = 3 then checked .fenceSys
  else if w % 2048 = 16 ∧ w / 2097152 % 32 = 0 then checked (.migrate (BitVec.ofNat 5 (w / 65536 % 32)) (BitVec.ofNat 5 (w / 2048 % 32)))
  else if w % 2048 = 17 ∧ w / 2097152 % 32 = 0 then checked (.migto (BitVec.ofNat 5 (w / 65536 % 32)) (BitVec.ofNat 5 (w / 2048 % 32)))
  else if w % 2048 = 18 then checked (.spawn (BitVec.ofNat 5 (w / 2097152 % 32)) (BitVec.ofNat 5 (w / 65536 % 32)) (BitVec.ofNat 5 (w / 2048 % 32)))
  else .error .unassigned

/-- Words of major 0x1D (R173). -/
def decodeMajor1D (w : Nat) : Except DecodeError Instr :=
  if w % 65536 = 0 then checked (.send (BitVec.ofNat 5 (w / 2097152 % 32)) (BitVec.ofNat 5 (w / 65536 % 32)))
  else if w % 65536 = 1 then checked (.sendt (BitVec.ofNat 5 (w / 2097152 % 32)) (BitVec.ofNat 5 (w / 65536 % 32)))
  else if w % 65536 = 2 then checked (.recv (BitVec.ofNat 5 (w / 2097152 % 32)) (BitVec.ofNat 5 (w / 65536 % 32)))
  else if w % 65536 = 3 then checked (.recvt (BitVec.ofNat 5 (w / 2097152 % 32)) (BitVec.ofNat 5 (w / 65536 % 32)))
  else if w % 2048 = 4 then checked (.append (BitVec.ofNat 5 (w / 2097152 % 32)) (BitVec.ofNat 5 (w / 65536 % 32)) (BitVec.ofNat 5 (w / 2048 % 32)))
  else if w % 2048 = 5 then checked (.appendt (BitVec.ofNat 5 (w / 2097152 % 32)) (BitVec.ofNat 5 (w / 65536 % 32)) (BitVec.ofNat 5 (w / 2048 % 32)))
  else if w % 2097152 = 6 then checked (.mbstat (BitVec.ofNat 5 (w / 2097152 % 32)))
  else .error .unassigned

/-- Words of major 0x1E (R173). -/
def decodeMajor1E (w : Nat) : Except DecodeError Instr :=
  if w % 65536 = 0 then checked (.qbind (BitVec.ofNat 5 (w / 2097152 % 32)) (BitVec.ofNat 5 (w / 65536 % 32)))
  else if w % 65536 = 1 then checked (.qwr (BitVec.ofNat 5 (w / 2097152 % 32)) (BitVec.ofNat 5 (w / 65536 % 32)))
  else if w % 65536 = 2 then checked (.qrd (BitVec.ofNat 5 (w / 2097152 % 32)) (BitVec.ofNat 5 (w / 65536 % 32)))
  else if w % 65536 = 3 then checked (.vqwr (BitVec.ofNat 5 (w / 2097152 % 32)) (BitVec.ofNat 5 (w / 65536 % 32)))
  else if w % 65536 = 4 then checked (.vqrd (BitVec.ofNat 5 (w / 2097152 % 32)) (BitVec.ofNat 5 (w / 65536 % 32)))
  else if w % 65536 = 5 then checked (.qstat (BitVec.ofNat 5 (w / 2097152 % 32)) (BitVec.ofNat 5 (w / 65536 % 32)))
  else if w % 65536 = 6 ∧ w / 2097152 % 32 = 0 then checked (.qclose (BitVec.ofNat 5 (w / 65536 % 32)))
  else .error .unassigned

/-- Words of major 0x1F (R173). -/
def decodeMajor1F (w : Nat) : Except DecodeError Instr :=
  if w % 2048 = 0 then checked (.syncinit (BitVec.ofNat 5 (w / 2097152 % 32)) (BitVec.ofNat 5 (w / 65536 % 32)) (BitVec.ofNat 5 (w / 2048 % 32)))
  else if w % 65536 = 1 ∧ w / 2097152 % 32 = 0 then checked (.acq (BitVec.ofNat 5 (w / 65536 % 32)))
  else if w % 65536 = 2 then checked (.tryacq (BitVec.ofNat 5 (w / 2097152 % 32)) (BitVec.ofNat 5 (w / 65536 % 32)))
  else if w % 65536 = 3 ∧ w / 2097152 % 32 = 0 then checked (.rel (BitVec.ofNat 5 (w / 65536 % 32)))
  else if w % 2048 = 4 then checked (.lockrun (BitVec.ofNat 5 (w / 2097152 % 32)) (BitVec.ofNat 5 (w / 65536 % 32)) (BitVec.ofNat 5 (w / 2048 % 32)))
  else if w % 2048 = 5 ∧ w / 2097152 % 32 = 0 then checked (.arrive (BitVec.ofNat 5 (w / 65536 % 32)) (BitVec.ofNat 5 (w / 2048 % 32)))
  else if w % 65536 = 6 then checked (.await (BitVec.ofNat 5 (w / 2097152 % 32)) (BitVec.ofNat 5 (w / 65536 % 32)))
  else if w % 65536 = 7 ∧ w / 2097152 % 32 = 0 then checked (.syncserve (BitVec.ofNat 5 (w / 65536 % 32)))
  else if w % 65536 = 8 ∧ w / 2097152 % 32 = 0 then checked (.syncdone (BitVec.ofNat 5 (w / 65536 % 32)))
  else if w % 2048 = 9 then checked (.syncmode (BitVec.ofNat 5 (w / 2097152 % 32)) (BitVec.ofNat 5 (w / 65536 % 32)) (BitVec.ofNat 5 (w / 2048 % 32)))
  else if w % 2048 = 10 then checked (.syncpol (BitVec.ofNat 5 (w / 2097152 % 32)) (BitVec.ofNat 5 (w / 65536 % 32)) (BitVec.ofNat 5 (w / 2048 % 32)))
  else if w % 65536 = 11 ∧ w / 2097152 % 32 = 0 then checked (.syncfree (BitVec.ofNat 5 (w / 65536 % 32)))
  else .error .unassigned

/-- Words of major 0x20 (R173). -/
def decodeMajor20 (w : Nat) : Except DecodeError Instr :=
  if w % 2048 = 0 ∧ w / 2097152 % 32 = 0 then checked (.tcinit (BitVec.ofNat 5 (w / 65536 % 32)) (BitVec.ofNat 5 (w / 2048 % 32)))
  else if w % 2048 = 1 ∧ w / 2097152 % 32 = 0 then checked (.tcdec (BitVec.ofNat 5 (w / 65536 % 32)) (BitVec.ofNat 5 (w / 2048 % 32)))
  else if w % 2048 = 2 ∧ w / 65536 % 1024 = 0 then checked (.yield (BitVec.ofNat 5 (w / 2048 % 32)))
  else if w % 67108864 = 3 then checked .exit
  else if w % 67108864 = 4 then checked .quiesce
  else .error .unassigned

/-- Words of major 0x21 (R173). -/
def decodeMajor21 (w : Nat) : Except DecodeError Instr :=
  if w % 2048 = 0 then checked (.dqpush (BitVec.ofNat 5 (w / 2097152 % 32)) (BitVec.ofNat 5 (w / 65536 % 32)) (BitVec.ofNat 5 (w / 2048 % 32)))
  else if w % 2097152 = 1 then checked (.dqpop (BitVec.ofNat 5 (w / 2097152 % 32)))
  else if w % 2097152 = 2 then checked (.dqsplit (BitVec.ofNat 5 (w / 2097152 % 32)))
  else if w % 65536 = 3 then checked (.dqsteal (BitVec.ofNat 5 (w / 2097152 % 32)) (BitVec.ofNat 5 (w / 65536 % 32)))
  else if w % 2097152 = 4 then checked (.dqlen (BitVec.ofNat 5 (w / 2097152 % 32)))
  else .error .unassigned

/-- Words of major 0x22 (R173). -/
def decodeMajor22 (w : Nat) : Except DecodeError Instr :=
  if w % 65536 = 0 then checked (.alloc (BitVec.ofNat 5 (w / 2097152 % 32)) (BitVec.ofNat 5 (w / 65536 % 32)))
  else if w % 65536 = 1 ∧ w / 2097152 % 32 = 0 then checked (.free (BitVec.ofNat 5 (w / 65536 % 32)))
  else .error .unassigned

/-- Words of major 0x23 (R173). -/
def decodeMajor23 (w : Nat) : Except DecodeError Instr :=
  if w / 8192 % 8 = 0 ∧ w / 33554432 % 2 = 0 then checked (.vldF32 (BitVec.ofNat 4 (w / 2097152 % 16)) (BitVec.ofNat 5 (w / 65536 % 32)) (BitVec.ofNat 1 (w / 4096 % 2)) (BitVec.ofNat 12 (w % 4096)))
  else if w / 8192 % 8 = 1 ∧ w / 33554432 % 2 = 0 then checked (.vldF64 (BitVec.ofNat 4 (w / 2097152 % 16)) (BitVec.ofNat 5 (w / 65536 % 32)) (BitVec.ofNat 1 (w / 4096 % 2)) (BitVec.ofNat 12 (w % 4096)))
  else if w / 8192 % 8 = 2 ∧ w / 33554432 % 2 = 0 then checked (.vldbF32 (BitVec.ofNat 4 (w / 2097152 % 16)) (BitVec.ofNat 5 (w / 65536 % 32)) (BitVec.ofNat 1 (w / 4096 % 2)) (BitVec.ofNat 12 (w % 4096)))
  else if w / 8192 % 8 = 3 ∧ w / 33554432 % 2 = 0 then checked (.vldbF64 (BitVec.ofNat 4 (w / 2097152 % 16)) (BitVec.ofNat 5 (w / 65536 % 32)) (BitVec.ofNat 1 (w / 4096 % 2)) (BitVec.ofNat 12 (w % 4096)))
  else .error .unassigned

/-- Words of major 0x24 (R173). -/
def decodeMajor24 (w : Nat) : Except DecodeError Instr :=
  if w / 8192 % 8 = 0 ∧ w / 33554432 % 2 = 0 then checked (.vstF32 (BitVec.ofNat 4 (w / 2097152 % 16)) (BitVec.ofNat 5 (w / 65536 % 32)) (BitVec.ofNat 1 (w / 4096 % 2)) (BitVec.ofNat 12 (w % 4096)))
  else if w / 8192 % 8 = 1 ∧ w / 33554432 % 2 = 0 then checked (.vstF64 (BitVec.ofNat 4 (w / 2097152 % 16)) (BitVec.ofNat 5 (w / 65536 % 32)) (BitVec.ofNat 1 (w / 4096 % 2)) (BitVec.ofNat 12 (w % 4096)))
  else .error .unassigned

/-- Words of major 0x25 (R173). -/
def decodeMajor25 (w : Nat) : Except DecodeError Instr :=
  if w % 128 = 0 then checked (.vadd (BitVec.ofNat 5 (w / 2097152 % 32)) (BitVec.ofNat 5 (w / 65536 % 32)) (BitVec.ofNat 5 (w / 2048 % 32)) (BitVec.ofNat 3 (w / 256 % 8)) (BitVec.ofNat 1 (w / 128 % 2)))
  else if w % 128 = 1 then checked (.vsub (BitVec.ofNat 5 (w / 2097152 % 32)) (BitVec.ofNat 5 (w / 65536 % 32)) (BitVec.ofNat 5 (w / 2048 % 32)) (BitVec.ofNat 3 (w / 256 % 8)) (BitVec.ofNat 1 (w / 128 % 2)))
  else if w % 128 = 2 then checked (.vmul (BitVec.ofNat 5 (w / 2097152 % 32)) (BitVec.ofNat 5 (w / 65536 % 32)) (BitVec.ofNat 5 (w / 2048 % 32)) (BitVec.ofNat 3 (w / 256 % 8)) (BitVec.ofNat 1 (w / 128 % 2)))
  else if w % 256 = 3 then checked (.vmin (BitVec.ofNat 5 (w / 2097152 % 32)) (BitVec.ofNat 5 (w / 65536 % 32)) (BitVec.ofNat 5 (w / 2048 % 32)) (BitVec.ofNat 3 (w / 256 % 8)))
  else if w % 256 = 4 then checked (.vmax (BitVec.ofNat 5 (w / 2097152 % 32)) (BitVec.ofNat 5 (w / 65536 % 32)) (BitVec.ofNat 5 (w / 2048 % 32)) (BitVec.ofNat 3 (w / 256 % 8)))
  else if w % 256 = 5 then checked (.vminu (BitVec.ofNat 5 (w / 2097152 % 32)) (BitVec.ofNat 5 (w / 65536 % 32)) (BitVec.ofNat 5 (w / 2048 % 32)) (BitVec.ofNat 3 (w / 256 % 8)))
  else if w % 256 = 6 then checked (.vmaxu (BitVec.ofNat 5 (w / 2097152 % 32)) (BitVec.ofNat 5 (w / 65536 % 32)) (BitVec.ofNat 5 (w / 2048 % 32)) (BitVec.ofNat 3 (w / 256 % 8)))
  else if w % 256 = 7 then checked (.vand (BitVec.ofNat 5 (w / 2097152 % 32)) (BitVec.ofNat 5 (w / 65536 % 32)) (BitVec.ofNat 5 (w / 2048 % 32)) (BitVec.ofNat 3 (w / 256 % 8)))
  else if w % 256 = 8 then checked (.vor (BitVec.ofNat 5 (w / 2097152 % 32)) (BitVec.ofNat 5 (w / 65536 % 32)) (BitVec.ofNat 5 (w / 2048 % 32)) (BitVec.ofNat 3 (w / 256 % 8)))
  else if w % 256 = 9 then checked (.vxor (BitVec.ofNat 5 (w / 2097152 % 32)) (BitVec.ofNat 5 (w / 65536 % 32)) (BitVec.ofNat 5 (w / 2048 % 32)) (BitVec.ofNat 3 (w / 256 % 8)))
  else if w % 256 = 10 then checked (.vsll (BitVec.ofNat 5 (w / 2097152 % 32)) (BitVec.ofNat 5 (w / 65536 % 32)) (BitVec.ofNat 5 (w / 2048 % 32)) (BitVec.ofNat 3 (w / 256 % 8)))
  else if w % 256 = 11 then checked (.vsrl (BitVec.ofNat 5 (w / 2097152 % 32)) (BitVec.ofNat 5 (w / 65536 % 32)) (BitVec.ofNat 5 (w / 2048 % 32)) (BitVec.ofNat 3 (w / 256 % 8)))
  else if w % 256 = 12 then checked (.vsra (BitVec.ofNat 5 (w / 2097152 % 32)) (BitVec.ofNat 5 (w / 65536 % 32)) (BitVec.ofNat 5 (w / 2048 % 32)) (BitVec.ofNat 3 (w / 256 % 8)))
  else if w % 256 = 13 then checked (.vcmpeq (BitVec.ofNat 5 (w / 2097152 % 32)) (BitVec.ofNat 5 (w / 65536 % 32)) (BitVec.ofNat 5 (w / 2048 % 32)) (BitVec.ofNat 3 (w / 256 % 8)))
  else if w % 256 = 14 then checked (.vcmplt (BitVec.ofNat 5 (w / 2097152 % 32)) (BitVec.ofNat 5 (w / 65536 % 32)) (BitVec.ofNat 5 (w / 2048 % 32)) (BitVec.ofNat 3 (w / 256 % 8)))
  else if w % 256 = 15 then checked (.vcmpltu (BitVec.ofNat 5 (w / 2097152 % 32)) (BitVec.ofNat 5 (w / 65536 % 32)) (BitVec.ofNat 5 (w / 2048 % 32)) (BitVec.ofNat 3 (w / 256 % 8)))
  else if w % 256 = 16 then checked (.vsel (BitVec.ofNat 5 (w / 2097152 % 32)) (BitVec.ofNat 5 (w / 65536 % 32)) (BitVec.ofNat 5 (w / 2048 % 32)) (BitVec.ofNat 3 (w / 256 % 8)))
  else if w % 128 = 17 ∧ w / 2048 % 32 = 0 then checked (.vpsum (BitVec.ofNat 5 (w / 2097152 % 32)) (BitVec.ofNat 5 (w / 65536 % 32)) (BitVec.ofNat 3 (w / 256 % 8)) (BitVec.ofNat 1 (w / 128 % 2)))
  else if w % 128 = 18 then checked (.vwacc (BitVec.ofNat 5 (w / 2097152 % 32)) (BitVec.ofNat 5 (w / 65536 % 32)) (BitVec.ofNat 5 (w / 2048 % 32)) (BitVec.ofNat 3 (w / 256 % 8)) (BitVec.ofNat 1 (w / 128 % 2)))
  else if w % 128 = 19 then checked (.vdot4 (BitVec.ofNat 5 (w / 2097152 % 32)) (BitVec.ofNat 5 (w / 65536 % 32)) (BitVec.ofNat 5 (w / 2048 % 32)) (BitVec.ofNat 3 (w / 256 % 8)) (BitVec.ofNat 1 (w / 128 % 2)))
  else if w % 65536 = 49 then checked (.vpsumF32 (BitVec.ofNat 5 (w / 2097152 % 32)) (BitVec.ofNat 5 (w / 65536 % 32)))
  else .error .unassigned

/-- Words of major 0x26 (R173). -/
def decodeMajor26 (w : Nat) : Except DecodeError Instr :=
  if w % 256 = 0 ∧ w / 33554432 % 2 = 0 then checked (.vfadd (BitVec.ofNat 4 (w / 2097152 % 16)) (BitVec.ofNat 5 (w / 65536 % 32)) (BitVec.ofNat 5 (w / 2048 % 32)) (BitVec.ofNat 3 (w / 256 % 8)))
  else if w % 256 = 1 ∧ w / 33554432 % 2 = 0 then checked (.vfsub (BitVec.ofNat 4 (w / 2097152 % 16)) (BitVec.ofNat 5 (w / 65536 % 32)) (BitVec.ofNat 5 (w / 2048 % 32)) (BitVec.ofNat 3 (w / 256 % 8)))
  else if w % 256 = 2 ∧ w / 33554432 % 2 = 0 then checked (.vfmul (BitVec.ofNat 4 (w / 2097152 % 16)) (BitVec.ofNat 5 (w / 65536 % 32)) (BitVec.ofNat 5 (w / 2048 % 32)) (BitVec.ofNat 3 (w / 256 % 8)))
  else if w % 256 = 3 ∧ w / 33554432 % 2 = 0 then checked (.vfdiv (BitVec.ofNat 4 (w / 2097152 % 16)) (BitVec.ofNat 5 (w / 65536 % 32)) (BitVec.ofNat 5 (w / 2048 % 32)) (BitVec.ofNat 3 (w / 256 % 8)))
  else if w % 256 = 4 ∧ w / 2048 % 32 = 0 ∧ w / 33554432 % 2 = 0 then checked (.vfsqrt (BitVec.ofNat 4 (w / 2097152 % 16)) (BitVec.ofNat 5 (w / 65536 % 32)) (BitVec.ofNat 3 (w / 256 % 8)))
  else if w % 256 = 5 ∧ w / 33554432 % 2 = 0 then checked (.vfmin (BitVec.ofNat 4 (w / 2097152 % 16)) (BitVec.ofNat 5 (w / 65536 % 32)) (BitVec.ofNat 5 (w / 2048 % 32)) (BitVec.ofNat 3 (w / 256 % 8)))
  else if w % 256 = 6 ∧ w / 33554432 % 2 = 0 then checked (.vfmax (BitVec.ofNat 4 (w / 2097152 % 16)) (BitVec.ofNat 5 (w / 65536 % 32)) (BitVec.ofNat 5 (w / 2048 % 32)) (BitVec.ofNat 3 (w / 256 % 8)))
  else if w % 256 = 7 ∧ w / 2048 % 32 = 0 ∧ w / 33554432 % 2 = 0 then checked (.vfabs (BitVec.ofNat 4 (w / 2097152 % 16)) (BitVec.ofNat 5 (w / 65536 % 32)) (BitVec.ofNat 3 (w / 256 % 8)))
  else if w % 256 = 8 ∧ w / 2048 % 32 = 0 ∧ w / 33554432 % 2 = 0 then checked (.vfneg (BitVec.ofNat 4 (w / 2097152 % 16)) (BitVec.ofNat 5 (w / 65536 % 32)) (BitVec.ofNat 3 (w / 256 % 8)))
  else if w % 256 = 9 ∧ w / 33554432 % 2 = 0 then checked (.vfcmpeq (BitVec.ofNat 4 (w / 2097152 % 16)) (BitVec.ofNat 5 (w / 65536 % 32)) (BitVec.ofNat 5 (w / 2048 % 32)) (BitVec.ofNat 3 (w / 256 % 8)))
  else if w % 256 = 10 ∧ w / 33554432 % 2 = 0 then checked (.vfcmplt (BitVec.ofNat 4 (w / 2097152 % 16)) (BitVec.ofNat 5 (w / 65536 % 32)) (BitVec.ofNat 5 (w / 2048 % 32)) (BitVec.ofNat 3 (w / 256 % 8)))
  else if w % 256 = 11 ∧ w / 33554432 % 2 = 0 then checked (.vfcmple (BitVec.ofNat 4 (w / 2097152 % 16)) (BitVec.ofNat 5 (w / 65536 % 32)) (BitVec.ofNat 5 (w / 2048 % 32)) (BitVec.ofNat 3 (w / 256 % 8)))
  else if w % 256 = 12 ∧ w / 2048 % 32 = 0 ∧ w / 33554432 % 2 = 0 then checked (.vfclass (BitVec.ofNat 4 (w / 2097152 % 16)) (BitVec.ofNat 5 (w / 65536 % 32)) (BitVec.ofNat 3 (w / 256 % 8)))
  else .error .unassigned

/-- Words of major 0x27 (R173). -/
def decodeMajor27 (w : Nat) : Except DecodeError Instr :=
  if w % 8 = 0 then checked (.vfma (BitVec.ofNat 5 (w / 2097152 % 32)) (BitVec.ofNat 5 (w / 65536 % 32)) (BitVec.ofNat 5 (w / 2048 % 32)) (BitVec.ofNat 5 (w / 64 % 32)) (BitVec.ofNat 3 (w / 8 % 8)))
  else if w % 8 = 1 then checked (.vfms (BitVec.ofNat 5 (w / 2097152 % 32)) (BitVec.ofNat 5 (w / 65536 % 32)) (BitVec.ofNat 5 (w / 2048 % 32)) (BitVec.ofNat 5 (w / 64 % 32)) (BitVec.ofNat 3 (w / 8 % 8)))
  else if w % 8 = 2 then checked (.vfnma (BitVec.ofNat 5 (w / 2097152 % 32)) (BitVec.ofNat 5 (w / 65536 % 32)) (BitVec.ofNat 5 (w / 2048 % 32)) (BitVec.ofNat 5 (w / 64 % 32)) (BitVec.ofNat 3 (w / 8 % 8)))
  else if w % 8 = 3 then checked (.vfnms (BitVec.ofNat 5 (w / 2097152 % 32)) (BitVec.ofNat 5 (w / 65536 % 32)) (BitVec.ofNat 5 (w / 2048 % 32)) (BitVec.ofNat 5 (w / 64 % 32)) (BitVec.ofNat 3 (w / 8 % 8)))
  else .error .unassigned

/-- Words of major 0x28 (R173). -/
def decodeMajor28 (w : Nat) : Except DecodeError Instr :=
  if w % 256 = 0 ∧ w / 2048 % 32 = 0 then checked (.vexp2 (BitVec.ofNat 5 (w / 2097152 % 32)) (BitVec.ofNat 5 (w / 65536 % 32)) (BitVec.ofNat 3 (w / 256 % 8)))
  else if w % 256 = 1 ∧ w / 2048 % 32 = 0 then checked (.vlog2 (BitVec.ofNat 5 (w / 2097152 % 32)) (BitVec.ofNat 5 (w / 65536 % 32)) (BitVec.ofNat 3 (w / 256 % 8)))
  else if w % 256 = 2 ∧ w / 2048 % 32 = 0 then checked (.vrcp (BitVec.ofNat 5 (w / 2097152 % 32)) (BitVec.ofNat 5 (w / 65536 % 32)) (BitVec.ofNat 3 (w / 256 % 8)))
  else if w % 256 = 3 ∧ w / 2048 % 32 = 0 then checked (.vrsq (BitVec.ofNat 5 (w / 2097152 % 32)) (BitVec.ofNat 5 (w / 65536 % 32)) (BitVec.ofNat 3 (w / 256 % 8)))
  else .error .unassigned

/-- Words of major 0x29 (R173). -/
def decodeMajor29 (w : Nat) : Except DecodeError Instr :=
  if w % 256 = 0 ∧ w / 2048 % 32 = 0 then checked (.sigget (BitVec.ofNat 5 (w / 2097152 % 32)) (BitVec.ofNat 5 (w / 65536 % 32)) (BitVec.ofNat 3 (w / 256 % 8)))
  else if w % 256 = 1 ∧ w / 65536 % 32 = 0 then checked (.sigset (BitVec.ofNat 5 (w / 2097152 % 32)) (BitVec.ofNat 5 (w / 2048 % 32)) (BitVec.ofNat 3 (w / 256 % 8)))
  else if w % 256 = 2 ∧ w / 2048 % 32 = 0 then checked (.sigmin (BitVec.ofNat 5 (w / 2097152 % 32)) (BitVec.ofNat 5 (w / 65536 % 32)) (BitVec.ofNat 3 (w / 256 % 8)))
  else .error .unassigned

/-- Words of major 0x2A (R173). -/
def decodeMajor2A (w : Nat) : Except DecodeError Instr :=
  if w / 33554432 % 2 = 0 then checked (.bsig (BitVec.ofNat 4 (w / 2097152 % 16)) (BitVec.ofNat 5 (w / 65536 % 32)) (BitVec.ofNat 16 (w % 65536)))
  else .error .unassigned

/-- Words of major 0x2B (R173). -/
def decodeMajor2B (w : Nat) : Except DecodeError Instr :=
  if w % 256 = 0 then checked (.vsplat (BitVec.ofNat 5 (w / 2097152 % 32)) (BitVec.ofNat 5 (w / 65536 % 32)) (BitVec.ofNat 5 (w / 2048 % 32)) (BitVec.ofNat 3 (w / 256 % 8)))
  else if w % 256 = 1 then checked (.vins (BitVec.ofNat 5 (w / 2097152 % 32)) (BitVec.ofNat 5 (w / 65536 % 32)) (BitVec.ofNat 5 (w / 2048 % 32)) (BitVec.ofNat 3 (w / 256 % 8)))
  else if w % 256 = 2 then checked (.vext (BitVec.ofNat 5 (w / 2097152 % 32)) (BitVec.ofNat 5 (w / 65536 % 32)) (BitVec.ofNat 5 (w / 2048 % 32)) (BitVec.ofNat 3 (w / 256 % 8)))
  else if w % 256 = 3 then checked (.vperm (BitVec.ofNat 5 (w / 2097152 % 32)) (BitVec.ofNat 5 (w / 65536 % 32)) (BitVec.ofNat 5 (w / 2048 % 32)) (BitVec.ofNat 3 (w / 256 % 8)))
  else if w % 256 = 4 ∧ w / 2048 % 32 = 0 then checked (.vhadd (BitVec.ofNat 5 (w / 2097152 % 32)) (BitVec.ofNat 5 (w / 65536 % 32)) (BitVec.ofNat 3 (w / 256 % 8)))
  else .error .unassigned

/-- Words of major 0x2C (R173). -/
def decodeMajor2C (w : Nat) : Except DecodeError Instr :=
  if w / 16 % 16 ≤ 5 ∧ w % 16 ≤ 5 then checked (.vcvt (BitVec.ofNat 5 (w / 2097152 % 32)) (BitVec.ofNat 5 (w / 65536 % 32)) (BitVec.ofNat 5 (w / 2048 % 32)) (BitVec.ofNat 3 (w / 256 % 8)) (BitVec.ofNat 4 (w / 16 % 16)) (BitVec.ofNat 4 (w % 16)))
  else checked (.vcvti (BitVec.ofNat 5 (w / 2097152 % 32)) (BitVec.ofNat 5 (w / 65536 % 32)) (BitVec.ofNat 5 (w / 2048 % 32)) (BitVec.ofNat 3 (w / 256 % 8)) (BitVec.ofNat 4 (w / 16 % 16)) (BitVec.ofNat 4 (w % 16)))

/-- Words of major 0x2D (R173). -/
def decodeMajor2D (w : Nat) : Except DecodeError Instr :=
  if w % 67108864 = 0 then checked .mgang
  else if w % 2097152 = 256 then checked (.mldw (BitVec.ofNat 5 (w / 2097152 % 32)))
  else if w % 2097152 = 512 then checked (.mtld (BitVec.ofNat 5 (w / 2097152 % 32)))
  else if w % 67108864 = 768 then checked .mswap
  else if w % 67108864 = 1024 then checked .mzero
  else if w % 2097152 = 1280 then checked (.mstrm (BitVec.ofNat 5 (w / 2097152 % 32)))
  else if w / 256 % 256 = 6 then checked (.mgrp (BitVec.ofNat 5 (w / 2097152 % 32)) (BitVec.ofNat 5 (w / 65536 % 32)) (BitVec.ofNat 8 (w % 256)))
  else if w % 65536 = 1792 ∧ w / 2097152 % 32 = 0 then checked (.mdrain (BitVec.ofNat 5 (w / 65536 % 32)))
  else if w % 67108864 = 2048 then checked .mstat
  else .error .unassigned

/-- Words of major 0x2E (R173). -/
def decodeMajor2E (w : Nat) : Except DecodeError Instr :=
  if w % 65536 = 0 then checked (.anorm (BitVec.ofNat 5 (w / 2097152 % 32)) (BitVec.ofNat 5 (w / 65536 % 32)))
  else if w % 2097152 = 256 then checked (.acert (BitVec.ofNat 5 (w / 2097152 % 32)))
  else if w % 2097152 = 512 then checked (.afetch (BitVec.ofNat 5 (w / 2097152 % 32)))
  else .error .unassigned

/-- Words of major 0x2F (R173). -/
def decodeMajor2F (w : Nat) : Except DecodeError Instr :=
  if w % 65536 = 0 ∧ w / 2097152 % 32 = 0 then checked (.mcovi (BitVec.ofNat 5 (w / 65536 % 32)))
  else if w / 256 % 256 = 1 then checked (.mcovp (BitVec.ofNat 5 (w / 2097152 % 32)) (BitVec.ofNat 5 (w / 65536 % 32)) (BitVec.ofNat 8 (w % 256)))
  else if w % 65536 = 512 then checked (.mcovc (BitVec.ofNat 5 (w / 2097152 % 32)) (BitVec.ofNat 5 (w / 65536 % 32)))
  else if w % 65536 = 768 then checked (.mcovr (BitVec.ofNat 5 (w / 2097152 % 32)) (BitVec.ofNat 5 (w / 65536 % 32)))
  else .error .unassigned

/-- Words of major 0x30 (R173). -/
def decodeMajor30 (w : Nat) : Except DecodeError Instr :=
  if w / 256 % 256 = 0 ∧ w / 2097152 % 32 = 0 then checked (.ecw (BitVec.ofNat 5 (w / 65536 % 32)) (BitVec.ofNat 8 (w % 256)))
  else if w / 256 % 262144 = 1 then checked (.ecr (BitVec.ofNat 8 (w % 256)))
  else if w % 67108864 = 512 then checked .ego
  else if w % 65536 = 768 ∧ w / 2097152 % 32 = 0 then checked (.ewait (BitVec.ofNat 5 (w / 65536 % 32)))
  else .error .unassigned

/-- Words of major 0x31 (R173). -/
def decodeMajor31 (w : Nat) : Except DecodeError Instr :=
  if w / 16 % 131072 = 0 then checked (.cbinit (BitVec.ofNat 5 (w / 2097152 % 32)) (BitVec.ofNat 4 (w % 16)))
  else if w / 16 % 4194304 = 16 then checked (.cbacq (BitVec.ofNat 4 (w % 16)))
  else if w / 16 % 4194304 = 32 then checked (.cbrel (BitVec.ofNat 4 (w % 16)))
  else if w / 16 % 4194304 = 48 then checked (.cbstat (BitVec.ofNat 4 (w % 16)))
  else .error .unassigned

/-- Words of major 0x32 (R173). -/
def decodeMajor32 (w : Nat) : Except DecodeError Instr :=
  if w % 16 = 0 ∧ w / 65536 % 1024 = 0 then checked (.syscall (BitVec.ofNat 12 (w / 16 % 4096)))
  else if w % 16 = 1 ∧ w / 65536 % 1024 = 0 then checked (.trap (BitVec.ofNat 12 (w / 16 % 4096)))
  else if w % 67108864 = 2 then checked .eret
  else if w % 16 = 3 ∧ w / 65536 % 1024 = 0 then checked (.brk (BitVec.ofNat 12 (w / 16 % 4096)))
  else if w % 67108864 = 4 then checked .nop
  else if w % 2097152 = 5 then checked (.tstamp (BitVec.ofNat 5 (w / 2097152 % 32)))
  else if w % 16 = 6 then checked (.trig (BitVec.ofNat 5 (w / 2097152 % 32)) (BitVec.ofNat 5 (w / 65536 % 32)) (BitVec.ofNat 12 (w / 16 % 4096)))
  else if w % 65536 = 7 then checked (.ptblw (BitVec.ofNat 5 (w / 2097152 % 32)) (BitVec.ofNat 5 (w / 65536 % 32)))
  else .error .unassigned

/-- Words of major 0x33 (R173). -/
def decodeMajor33 (w : Nat) : Except DecodeError Instr :=
  if w % 16 = 0 ∧ w / 65536 % 32 = 0 then checked (.csrr (BitVec.ofNat 5 (w / 2097152 % 32)) (BitVec.ofNat 12 (w / 16 % 4096)))
  else if w % 16 = 1 then checked (.csrw (BitVec.ofNat 5 (w / 2097152 % 32)) (BitVec.ofNat 5 (w / 65536 % 32)) (BitVec.ofNat 12 (w / 16 % 4096)))
  else if w % 16 = 2 then checked (.csrs (BitVec.ofNat 5 (w / 2097152 % 32)) (BitVec.ofNat 5 (w / 65536 % 32)) (BitVec.ofNat 12 (w / 16 % 4096)))
  else if w % 16 = 3 then checked (.csrc (BitVec.ofNat 5 (w / 2097152 % 32)) (BitVec.ofNat 5 (w / 65536 % 32)) (BitVec.ofNat 12 (w / 16 % 4096)))
  else .error .unassigned

/-- Words of major 0x34 (R173). -/
def decodeMajor34 (w : Nat) : Except DecodeError Instr :=
  if w % 65536 = 0 then checked (.launch (BitVec.ofNat 5 (w / 2097152 % 32)) (BitVec.ofNat 5 (w / 65536 % 32)))
  else if w % 65536 = 1 then checked (.lwait (BitVec.ofNat 5 (w / 2097152 % 32)) (BitVec.ofNat 5 (w / 65536 % 32)))
  else .error .unassigned

/-- The instruction of a 32-bit word (R173, R176). -/
def decodeWord (w : Nat) : Except DecodeError Instr :=
  match w / 67108864 with
  | 1 => decodeMajor01 w
  | 2 => decodeMajor02 w
  | 3 => decodeMajor03 w
  | 4 => decodeMajor04 w
  | 5 => decodeMajor05 w
  | 6 => decodeMajor06 w
  | 7 => decodeMajor07 w
  | 8 => decodeMajor08 w
  | 9 => decodeMajor09 w
  | 10 => decodeMajor0A w
  | 11 => decodeMajor0B w
  | 12 => decodeMajor0C w
  | 13 => decodeMajor0D w
  | 14 => decodeMajor0E w
  | 15 => decodeMajor0F w
  | 16 => decodeMajor10 w
  | 17 => decodeMajor11 w
  | 18 => decodeMajor12 w
  | 19 => decodeMajor13 w
  | 20 => decodeMajor14 w
  | 21 => decodeMajor15 w
  | 22 => decodeMajor16 w
  | 23 => decodeMajor17 w
  | 24 => decodeMajor18 w
  | 25 => decodeMajor19 w
  | 26 => decodeMajor1A w
  | 27 => decodeMajor1B w
  | 28 => decodeMajor1C w
  | 29 => decodeMajor1D w
  | 30 => decodeMajor1E w
  | 31 => decodeMajor1F w
  | 32 => decodeMajor20 w
  | 33 => decodeMajor21 w
  | 34 => decodeMajor22 w
  | 35 => decodeMajor23 w
  | 36 => decodeMajor24 w
  | 37 => decodeMajor25 w
  | 38 => decodeMajor26 w
  | 39 => decodeMajor27 w
  | 40 => decodeMajor28 w
  | 41 => decodeMajor29 w
  | 42 => decodeMajor2A w
  | 43 => decodeMajor2B w
  | 44 => decodeMajor2C w
  | 45 => decodeMajor2D w
  | 46 => decodeMajor2E w
  | 47 => decodeMajor2F w
  | 48 => decodeMajor30 w
  | 49 => decodeMajor31 w
  | 50 => decodeMajor32 w
  | 51 => decodeMajor33 w
  | 52 => decodeMajor34 w
  | _ => .error .noMajor

/-- The number that little-endian bytes spell (R6). -/
def leNat : List (BitVec 8) → Nat
  | [] => 0
  | b :: r => b.toNat + 256 * leNat r

/-- The n low bytes of a number, least significant first (R6). -/
def leBytes : Nat → Nat → List (BitVec 8)
  | 0, _ => []
  | n + 1, x => BitVec.ofNat 8 x :: leBytes n (x / 256)

/-- Decoding: a word of four little-endian bytes and the bytes after it (R171). -/
def decodeBytes : List (BitVec 8) → Except DecodeError (Instr × List (BitVec 8))
  | b0 :: b1 :: b2 :: b3 :: r =>
    match decodeWord (leNat [b0, b1, b2, b3]) with
    | .ok i => .ok (i, r)
    | .error e => .error e
  | _ => .error .short

/-- The instruction that the decoder reads from an instruction of the opcode table's numbering. -/
def decodeTableWord (nbits w : Nat) : Option Instr :=
  match decodeBytes (leBytes 4 (w % 2 ^ nbits)) with
  | .ok (i, _) => some i
  | .error _ => none

/-- The word of an instruction, from the encoding tables of R171-R175; a step of another agent has none. -/
def encodeWord : Instr → Option Nat
  | .add d a b => some (0x04000000 + d.toNat * 2097152 + a.toNat * 65536 + b.toNat * 2048)
  | .sub d a b => some (0x04000001 + d.toNat * 2097152 + a.toNat * 65536 + b.toNat * 2048)
  | .and d a b => some (0x04000002 + d.toNat * 2097152 + a.toNat * 65536 + b.toNat * 2048)
  | .or d a b => some (0x04000003 + d.toNat * 2097152 + a.toNat * 65536 + b.toNat * 2048)
  | .xor d a b => some (0x04000004 + d.toNat * 2097152 + a.toNat * 65536 + b.toNat * 2048)
  | .andn d a b => some (0x04000005 + d.toNat * 2097152 + a.toNat * 65536 + b.toNat * 2048)
  | .sll d a b => some (0x04000006 + d.toNat * 2097152 + a.toNat * 65536 + b.toNat * 2048)
  | .srl d a b => some (0x04000007 + d.toNat * 2097152 + a.toNat * 65536 + b.toNat * 2048)
  | .sra d a b => some (0x04000008 + d.toNat * 2097152 + a.toNat * 65536 + b.toNat * 2048)
  | .slt d a b => some (0x04000009 + d.toNat * 2097152 + a.toNat * 65536 + b.toNat * 2048)
  | .sltu d a b => some (0x0400000A + d.toNat * 2097152 + a.toNat * 65536 + b.toNat * 2048)
  | .min d a b => some (0x0400000B + d.toNat * 2097152 + a.toNat * 65536 + b.toNat * 2048)
  | .max d a b => some (0x0400000C + d.toNat * 2097152 + a.toNat * 65536 + b.toNat * 2048)
  | .minu d a b => some (0x0400000D + d.toNat * 2097152 + a.toNat * 65536 + b.toNat * 2048)
  | .maxu d a b => some (0x0400000E + d.toNat * 2097152 + a.toNat * 65536 + b.toNat * 2048)
  | .clz d a => some (0x0400000F + d.toNat * 2097152 + a.toNat * 65536)
  | .ctz d a => some (0x04000010 + d.toNat * 2097152 + a.toNat * 65536)
  | .popc d a => some (0x04000011 + d.toNat * 2097152 + a.toNat * 65536)
  | .sextb d a => some (0x04000012 + d.toNat * 2097152 + a.toNat * 65536)
  | .sexth d a => some (0x04000013 + d.toNat * 2097152 + a.toNat * 65536)
  | .sextw d a => some (0x04000014 + d.toNat * 2097152 + a.toNat * 65536)
  | .zextw d a => some (0x04000015 + d.toNat * 2097152 + a.toNat * 65536)
  | .addw d a b => some (0x04000016 + d.toNat * 2097152 + a.toNat * 65536 + b.toNat * 2048)
  | .subw d a b => some (0x04000017 + d.toNat * 2097152 + a.toNat * 65536 + b.toNat * 2048)
  | .sllw d a b => some (0x04000018 + d.toNat * 2097152 + a.toNat * 65536 + b.toNat * 2048)
  | .srlw d a b => some (0x04000019 + d.toNat * 2097152 + a.toNat * 65536 + b.toNat * 2048)
  | .sraw d a b => some (0x0400001A + d.toNat * 2097152 + a.toNat * 65536 + b.toNat * 2048)
  | .addi d a i => some (0x08000000 + d.toNat * 2097152 + a.toNat * 65536 + i.toNat)
  | .andi d a i => some (0x0C000000 + d.toNat * 2097152 + a.toNat * 65536 + i.toNat)
  | .ori d a i => some (0x10000000 + d.toNat * 2097152 + a.toNat * 65536 + i.toNat)
  | .xori d a i => some (0x14000000 + d.toNat * 2097152 + a.toNat * 65536 + i.toNat)
  | .slti d a i => some (0x18000000 + d.toNat * 2097152 + a.toNat * 65536 + i.toNat)
  | .sltiu d a i => some (0x1C000000 + d.toNat * 2097152 + a.toNat * 65536 + i.toNat)
  | .slli d a s => some (0x20000000 + d.toNat * 2097152 + a.toNat * 65536 + s.toNat)
  | .srli d a s => some (0x20004000 + d.toNat * 2097152 + a.toNat * 65536 + s.toNat)
  | .srai d a s => some (0x20008000 + d.toNat * 2097152 + a.toNat * 65536 + s.toNat)
  | .lui d i => some (0x24000000 + d.toNat * 2097152 + i.toNat)
  | .addpc d i => some (0x28000000 + d.toNat * 2097152 + i.toNat)
  | .mul d a b => some (0x2C000000 + d.toNat * 2097152 + a.toNat * 65536 + b.toNat * 2048)
  | .mulh d a b => some (0x2C000001 + d.toNat * 2097152 + a.toNat * 65536 + b.toNat * 2048)
  | .mulhu d a b => some (0x2C000002 + d.toNat * 2097152 + a.toNat * 65536 + b.toNat * 2048)
  | .mulw d a b => some (0x2C000003 + d.toNat * 2097152 + a.toNat * 65536 + b.toNat * 2048)
  | .div d a b => some (0x2C000004 + d.toNat * 2097152 + a.toNat * 65536 + b.toNat * 2048)
  | .divu d a b => some (0x2C000005 + d.toNat * 2097152 + a.toNat * 65536 + b.toNat * 2048)
  | .rem d a b => some (0x2C000006 + d.toNat * 2097152 + a.toNat * 65536 + b.toNat * 2048)
  | .remu d a b => some (0x2C000007 + d.toNat * 2097152 + a.toNat * 65536 + b.toNat * 2048)
  | .beq a b d => some (0x30000000 + a.toNat * 2097152 + b.toNat * 65536 + d.toNat)
  | .bne a b d => some (0x34000000 + a.toNat * 2097152 + b.toNat * 65536 + d.toNat)
  | .blt a b d => some (0x38000000 + a.toNat * 2097152 + b.toNat * 65536 + d.toNat)
  | .bge a b d => some (0x3C000000 + a.toNat * 2097152 + b.toNat * 65536 + d.toNat)
  | .bltu a b d => some (0x40000000 + a.toNat * 2097152 + b.toNat * 65536 + d.toNat)
  | .bgeu a b d => some (0x44000000 + a.toNat * 2097152 + b.toNat * 65536 + d.toNat)
  | .j d => some (0x48000000 + d.toNat)
  | .jl r d => some (0x4C000000 + r.toNat * 2097152 + d.toNat)
  | .jlr d a i => some (0x50000000 + d.toNat * 2097152 + a.toNat * 65536 + i.toNat)
  | .cmp p a b c => some (0x54000000 + p.toNat * 2097152 + a.toNat * 65536 + b.toNat * 2048 + c.toNat * 16)
  | .pand p q r => some (0x54000001 + p.toNat * 2097152 + q.toNat * 65536 + r.toNat * 2048)
  | .por p q r => some (0x54000002 + p.toNat * 2097152 + q.toNat * 65536 + r.toNat * 2048)
  | .pxor p q r => some (0x54000003 + p.toNat * 2097152 + q.toNat * 65536 + r.toNat * 2048)
  | .bp p d => some (0x58000000 + p.toNat * 2097152 + d.toNat)
  | .bpF p d => some (0x58010000 + p.toNat * 2097152 + d.toNat)
  | .lb d a r o => some (0x5C000000 + d.toNat * 2097152 + a.toNat * 65536 + r.toNat * 4096 + o.toNat)
  | .lbu d a r o => some (0x5C002000 + d.toNat * 2097152 + a.toNat * 65536 + r.toNat * 4096 + o.toNat)
  | .lh d a r o => some (0x5C004000 + d.toNat * 2097152 + a.toNat * 65536 + r.toNat * 4096 + o.toNat)
  | .lhu d a r o => some (0x5C006000 + d.toNat * 2097152 + a.toNat * 65536 + r.toNat * 4096 + o.toNat)
  | .lw d a r o => some (0x5C008000 + d.toNat * 2097152 + a.toNat * 65536 + r.toNat * 4096 + o.toNat)
  | .lwu d a r o => some (0x5C00A000 + d.toNat * 2097152 + a.toNat * 65536 + r.toNat * 4096 + o.toNat)
  | .ld d a r o => some (0x5C00C000 + d.toNat * 2097152 + a.toNat * 65536 + r.toNat * 4096 + o.toNat)
  | .sb s a r o => some (0x60000000 + s.toNat * 2097152 + a.toNat * 65536 + r.toNat * 4096 + o.toNat)
  | .sh s a r o => some (0x60004000 + s.toNat * 2097152 + a.toNat * 65536 + r.toNat * 4096 + o.toNat)
  | .sw s a r o => some (0x60008000 + s.toNat * 2097152 + a.toNat * 65536 + r.toNat * 4096 + o.toNat)
  | .sd s a r o => some (0x6000C000 + s.toNat * 2097152 + a.toNat * 65536 + r.toNat * 4096 + o.toNat)
  | .aadd d a b r z => some (0x64000000 + d.toNat * 2097152 + a.toNat * 65536 + b.toNat * 2048 + r.toNat * 32 + z.toNat * 16)
  | .aand d a b r z => some (0x64000001 + d.toNat * 2097152 + a.toNat * 65536 + b.toNat * 2048 + r.toNat * 32 + z.toNat * 16)
  | .aor d a b r z => some (0x64000002 + d.toNat * 2097152 + a.toNat * 65536 + b.toNat * 2048 + r.toNat * 32 + z.toNat * 16)
  | .axor d a b r z => some (0x64000003 + d.toNat * 2097152 + a.toNat * 65536 + b.toNat * 2048 + r.toNat * 32 + z.toNat * 16)
  | .amin d a b r z => some (0x64000004 + d.toNat * 2097152 + a.toNat * 65536 + b.toNat * 2048 + r.toNat * 32 + z.toNat * 16)
  | .amax d a b r z => some (0x64000005 + d.toNat * 2097152 + a.toNat * 65536 + b.toNat * 2048 + r.toNat * 32 + z.toNat * 16)
  | .aminu d a b r z => some (0x64000006 + d.toNat * 2097152 + a.toNat * 65536 + b.toNat * 2048 + r.toNat * 32 + z.toNat * 16)
  | .amaxu d a b r z => some (0x64000007 + d.toNat * 2097152 + a.toNat * 65536 + b.toNat * 2048 + r.toNat * 32 + z.toNat * 16)
  | .aswap d a b r z => some (0x64000008 + d.toNat * 2097152 + a.toNat * 65536 + b.toNat * 2048 + r.toNat * 32 + z.toNat * 16)
  | .acas d a b r z => some (0x64000009 + d.toNat * 2097152 + a.toNat * 65536 + b.toNat * 2048 + r.toNat * 32 + z.toNat * 16)
  | .redadd a b z => some (0x68000000 + a.toNat * 65536 + b.toNat * 2048 + z.toNat * 16)
  | .redand a b z => some (0x68000001 + a.toNat * 65536 + b.toNat * 2048 + z.toNat * 16)
  | .redor a b z => some (0x68000002 + a.toNat * 65536 + b.toNat * 2048 + z.toNat * 16)
  | .redmin a b z => some (0x68000003 + a.toNat * 65536 + b.toNat * 2048 + z.toNat * 16)
  | .redmax a b z => some (0x68000004 + a.toNat * 65536 + b.toNat * 2048 + z.toNat * 16)
  | .xcaddV a v => some (0x6C000200 + a.toNat * 65536 + v.toNat * 2048)
  | .xcaddG a b => some (0x6C000201 + a.toNat * 65536 + b.toNat * 2048)
  | .xcread d a => some (0x6C000202 + d.toNat * 2097152 + a.toNat * 65536)
  | .xcclr a => some (0x6C000203 + a.toNat * 65536)
  | .fence  => some (0x70000000)
  | .fenceRed  => some (0x70000001)
  | .fenceAcq  => some (0x70000002)
  | .fenceSys  => some (0x70000003)
  | .migrate a b => some (0x70000010 + a.toNat * 65536 + b.toNat * 2048)
  | .migto a b => some (0x70000011 + a.toNat * 65536 + b.toNat * 2048)
  | .spawn d a b => some (0x70000012 + d.toNat * 2097152 + a.toNat * 65536 + b.toNat * 2048)
  | .send d a => some (0x74000000 + d.toNat * 2097152 + a.toNat * 65536)
  | .sendt d a => some (0x74000001 + d.toNat * 2097152 + a.toNat * 65536)
  | .recv d a => some (0x74000002 + d.toNat * 2097152 + a.toNat * 65536)
  | .recvt d a => some (0x74000003 + d.toNat * 2097152 + a.toNat * 65536)
  | .append d a b => some (0x74000004 + d.toNat * 2097152 + a.toNat * 65536 + b.toNat * 2048)
  | .appendt d a b => some (0x74000005 + d.toNat * 2097152 + a.toNat * 65536 + b.toNat * 2048)
  | .mbstat d => some (0x74000006 + d.toNat * 2097152)
  | .qbind q a => some (0x78000000 + q.toNat * 2097152 + a.toNat * 65536)
  | .qwr q a => some (0x78000001 + q.toNat * 2097152 + a.toNat * 65536)
  | .qrd d q => some (0x78000002 + d.toNat * 2097152 + q.toNat * 65536)
  | .vqwr q v => some (0x78000003 + q.toNat * 2097152 + v.toNat * 65536)
  | .vqrd v q => some (0x78000004 + v.toNat * 2097152 + q.toNat * 65536)
  | .qstat d q => some (0x78000005 + d.toNat * 2097152 + q.toNat * 65536)
  | .qclose q => some (0x78000006 + q.toNat * 65536)
  | .syncinit d a b => some (0x7C000000 + d.toNat * 2097152 + a.toNat * 65536 + b.toNat * 2048)
  | .acq a => some (0x7C000001 + a.toNat * 65536)
  | .tryacq d a => some (0x7C000002 + d.toNat * 2097152 + a.toNat * 65536)
  | .rel a => some (0x7C000003 + a.toNat * 65536)
  | .lockrun d a b => some (0x7C000004 + d.toNat * 2097152 + a.toNat * 65536 + b.toNat * 2048)
  | .arrive a b => some (0x7C000005 + a.toNat * 65536 + b.toNat * 2048)
  | .await d a => some (0x7C000006 + d.toNat * 2097152 + a.toNat * 65536)
  | .syncserve a => some (0x7C000007 + a.toNat * 65536)
  | .syncdone a => some (0x7C000008 + a.toNat * 65536)
  | .syncmode d a b => some (0x7C000009 + d.toNat * 2097152 + a.toNat * 65536 + b.toNat * 2048)
  | .syncpol d a b => some (0x7C00000A + d.toNat * 2097152 + a.toNat * 65536 + b.toNat * 2048)
  | .syncfree a => some (0x7C00000B + a.toNat * 65536)
  | .tcinit a b => some (0x80000000 + a.toNat * 65536 + b.toNat * 2048)
  | .tcdec a b => some (0x80000001 + a.toNat * 65536 + b.toNat * 2048)
  | .yield b => some (0x80000002 + b.toNat * 2048)
  | .exit  => some (0x80000003)
  | .quiesce  => some (0x80000004)
  | .dqpush d a b => some (0x84000000 + d.toNat * 2097152 + a.toNat * 65536 + b.toNat * 2048)
  | .dqpop d => some (0x84000001 + d.toNat * 2097152)
  | .dqsplit d => some (0x84000002 + d.toNat * 2097152)
  | .dqsteal d a => some (0x84000003 + d.toNat * 2097152 + a.toNat * 65536)
  | .dqlen d => some (0x84000004 + d.toNat * 2097152)
  | .alloc d a => some (0x88000000 + d.toNat * 2097152 + a.toNat * 65536)
  | .free a => some (0x88000001 + a.toNat * 65536)
  | .vldF32 d a r o => some (0x8C000000 + d.toNat * 2097152 + a.toNat * 65536 + r.toNat * 4096 + o.toNat)
  | .vldF64 d a r o => some (0x8C002000 + d.toNat * 2097152 + a.toNat * 65536 + r.toNat * 4096 + o.toNat)
  | .vldbF32 d a r o => some (0x8C004000 + d.toNat * 2097152 + a.toNat * 65536 + r.toNat * 4096 + o.toNat)
  | .vldbF64 d a r o => some (0x8C006000 + d.toNat * 2097152 + a.toNat * 65536 + r.toNat * 4096 + o.toNat)
  | .vstF32 s a r o => some (0x90000000 + s.toNat * 2097152 + a.toNat * 65536 + r.toNat * 4096 + o.toNat)
  | .vstF64 s a r o => some (0x90002000 + s.toNat * 2097152 + a.toNat * 65536 + r.toNat * 4096 + o.toNat)
  | .vadd d a b f s => some (0x94000000 + d.toNat * 2097152 + a.toNat * 65536 + b.toNat * 2048 + f.toNat * 256 + s.toNat * 128)
  | .vsub d a b f s => some (0x94000001 + d.toNat * 2097152 + a.toNat * 65536 + b.toNat * 2048 + f.toNat * 256 + s.toNat * 128)
  | .vmul d a b f s => some (0x94000002 + d.toNat * 2097152 + a.toNat * 65536 + b.toNat * 2048 + f.toNat * 256 + s.toNat * 128)
  | .vmin d a b f => some (0x94000003 + d.toNat * 2097152 + a.toNat * 65536 + b.toNat * 2048 + f.toNat * 256)
  | .vmax d a b f => some (0x94000004 + d.toNat * 2097152 + a.toNat * 65536 + b.toNat * 2048 + f.toNat * 256)
  | .vminu d a b f => some (0x94000005 + d.toNat * 2097152 + a.toNat * 65536 + b.toNat * 2048 + f.toNat * 256)
  | .vmaxu d a b f => some (0x94000006 + d.toNat * 2097152 + a.toNat * 65536 + b.toNat * 2048 + f.toNat * 256)
  | .vand d a b f => some (0x94000007 + d.toNat * 2097152 + a.toNat * 65536 + b.toNat * 2048 + f.toNat * 256)
  | .vor d a b f => some (0x94000008 + d.toNat * 2097152 + a.toNat * 65536 + b.toNat * 2048 + f.toNat * 256)
  | .vxor d a b f => some (0x94000009 + d.toNat * 2097152 + a.toNat * 65536 + b.toNat * 2048 + f.toNat * 256)
  | .vsll d a b f => some (0x9400000A + d.toNat * 2097152 + a.toNat * 65536 + b.toNat * 2048 + f.toNat * 256)
  | .vsrl d a b f => some (0x9400000B + d.toNat * 2097152 + a.toNat * 65536 + b.toNat * 2048 + f.toNat * 256)
  | .vsra d a b f => some (0x9400000C + d.toNat * 2097152 + a.toNat * 65536 + b.toNat * 2048 + f.toNat * 256)
  | .vcmpeq d a b f => some (0x9400000D + d.toNat * 2097152 + a.toNat * 65536 + b.toNat * 2048 + f.toNat * 256)
  | .vcmplt d a b f => some (0x9400000E + d.toNat * 2097152 + a.toNat * 65536 + b.toNat * 2048 + f.toNat * 256)
  | .vcmpltu d a b f => some (0x9400000F + d.toNat * 2097152 + a.toNat * 65536 + b.toNat * 2048 + f.toNat * 256)
  | .vsel d a b f => some (0x94000010 + d.toNat * 2097152 + a.toNat * 65536 + b.toNat * 2048 + f.toNat * 256)
  | .vpsum d a f s => some (0x94000011 + d.toNat * 2097152 + a.toNat * 65536 + f.toNat * 256 + s.toNat * 128)
  | .vwacc d a b f s => some (0x94000012 + d.toNat * 2097152 + a.toNat * 65536 + b.toNat * 2048 + f.toNat * 256 + s.toNat * 128)
  | .vdot4 d a b f s => some (0x94000013 + d.toNat * 2097152 + a.toNat * 65536 + b.toNat * 2048 + f.toNat * 256 + s.toNat * 128)
  | .vpsumF32 d a => some (0x94000031 + d.toNat * 2097152 + a.toNat * 65536)
  | .vfadd d a b f => some (0x98000000 + d.toNat * 2097152 + a.toNat * 65536 + b.toNat * 2048 + f.toNat * 256)
  | .vfsub d a b f => some (0x98000001 + d.toNat * 2097152 + a.toNat * 65536 + b.toNat * 2048 + f.toNat * 256)
  | .vfmul d a b f => some (0x98000002 + d.toNat * 2097152 + a.toNat * 65536 + b.toNat * 2048 + f.toNat * 256)
  | .vfdiv d a b f => some (0x98000003 + d.toNat * 2097152 + a.toNat * 65536 + b.toNat * 2048 + f.toNat * 256)
  | .vfsqrt d a f => some (0x98000004 + d.toNat * 2097152 + a.toNat * 65536 + f.toNat * 256)
  | .vfmin d a b f => some (0x98000005 + d.toNat * 2097152 + a.toNat * 65536 + b.toNat * 2048 + f.toNat * 256)
  | .vfmax d a b f => some (0x98000006 + d.toNat * 2097152 + a.toNat * 65536 + b.toNat * 2048 + f.toNat * 256)
  | .vfabs d a f => some (0x98000007 + d.toNat * 2097152 + a.toNat * 65536 + f.toNat * 256)
  | .vfneg d a f => some (0x98000008 + d.toNat * 2097152 + a.toNat * 65536 + f.toNat * 256)
  | .vfcmpeq p a b f => some (0x98000009 + p.toNat * 2097152 + a.toNat * 65536 + b.toNat * 2048 + f.toNat * 256)
  | .vfcmplt p a b f => some (0x9800000A + p.toNat * 2097152 + a.toNat * 65536 + b.toNat * 2048 + f.toNat * 256)
  | .vfcmple p a b f => some (0x9800000B + p.toNat * 2097152 + a.toNat * 65536 + b.toNat * 2048 + f.toNat * 256)
  | .vfclass d a f => some (0x9800000C + d.toNat * 2097152 + a.toNat * 65536 + f.toNat * 256)
  | .vfma d a b c f => some (0x9C000000 + d.toNat * 2097152 + a.toNat * 65536 + b.toNat * 2048 + c.toNat * 64 + f.toNat * 8)
  | .vfms d a b c f => some (0x9C000001 + d.toNat * 2097152 + a.toNat * 65536 + b.toNat * 2048 + c.toNat * 64 + f.toNat * 8)
  | .vfnma d a b c f => some (0x9C000002 + d.toNat * 2097152 + a.toNat * 65536 + b.toNat * 2048 + c.toNat * 64 + f.toNat * 8)
  | .vfnms d a b c f => some (0x9C000003 + d.toNat * 2097152 + a.toNat * 65536 + b.toNat * 2048 + c.toNat * 64 + f.toNat * 8)
  | .vexp2 d a f => some (0xA0000000 + d.toNat * 2097152 + a.toNat * 65536 + f.toNat * 256)
  | .vlog2 d a f => some (0xA0000001 + d.toNat * 2097152 + a.toNat * 65536 + f.toNat * 256)
  | .vrcp d a f => some (0xA0000002 + d.toNat * 2097152 + a.toNat * 65536 + f.toNat * 256)
  | .vrsq d a f => some (0xA0000003 + d.toNat * 2097152 + a.toNat * 65536 + f.toNat * 256)
  | .sigget d a f => some (0xA4000000 + d.toNat * 2097152 + a.toNat * 65536 + f.toNat * 256)
  | .sigset d b f => some (0xA4000001 + d.toNat * 2097152 + b.toNat * 2048 + f.toNat * 256)
  | .sigmin d a f => some (0xA4000002 + d.toNat * 2097152 + a.toNat * 65536 + f.toNat * 256)
  | .bsig v b d => some (0xA8000000 + v.toNat * 2097152 + b.toNat * 65536 + d.toNat)
  | .vsplat d a k f => some (0xAC000000 + d.toNat * 2097152 + a.toNat * 65536 + k.toNat * 2048 + f.toNat * 256)
  | .vins d a k f => some (0xAC000001 + d.toNat * 2097152 + a.toNat * 65536 + k.toNat * 2048 + f.toNat * 256)
  | .vext d a k f => some (0xAC000002 + d.toNat * 2097152 + a.toNat * 65536 + k.toNat * 2048 + f.toNat * 256)
  | .vperm d a b f => some (0xAC000003 + d.toNat * 2097152 + a.toNat * 65536 + b.toNat * 2048 + f.toNat * 256)
  | .vhadd d a f => some (0xAC000004 + d.toNat * 2097152 + a.toNat * 65536 + f.toNat * 256)
  | .vcvt d a b f t s => some (0xB0000000 + d.toNat * 2097152 + a.toNat * 65536 + b.toNat * 2048 + f.toNat * 256 + t.toNat * 16 + s.toNat)
  | .vcvti d a b f t s => some (0xB0000000 + d.toNat * 2097152 + a.toNat * 65536 + b.toNat * 2048 + f.toNat * 256 + t.toNat * 16 + s.toNat)
  | .mgang  => some (0xB4000000)
  | .mldw a => some (0xB4000100 + a.toNat * 2097152)
  | .mtld a => some (0xB4000200 + a.toNat * 2097152)
  | .mswap  => some (0xB4000300)
  | .mzero  => some (0xB4000400)
  | .mstrm a => some (0xB4000500 + a.toNat * 2097152)
  | .mgrp a b g => some (0xB4000600 + a.toNat * 2097152 + b.toNat * 65536 + g.toNat)
  | .mdrain b => some (0xB4000700 + b.toNat * 65536)
  | .mstat  => some (0xB4000800)
  | .anorm a b => some (0xB8000000 + a.toNat * 2097152 + b.toNat * 65536)
  | .acert a => some (0xB8000100 + a.toNat * 2097152)
  | .afetch a => some (0xB8000200 + a.toNat * 2097152)
  | .mcovi b => some (0xBC000000 + b.toNat * 65536)
  | .mcovp a b r => some (0xBC000100 + a.toNat * 2097152 + b.toNat * 65536 + r.toNat)
  | .mcovc a b => some (0xBC000200 + a.toNat * 2097152 + b.toNat * 65536)
  | .mcovr a b => some (0xBC000300 + a.toNat * 2097152 + b.toNat * 65536)
  | .ecw b i => some (0xC0000000 + b.toNat * 65536 + i.toNat)
  | .ecr i => some (0xC0000100 + i.toNat)
  | .ego  => some (0xC0000200)
  | .ewait b => some (0xC0000300 + b.toNat * 65536)
  | .cbinit a n => some (0xC4000000 + a.toNat * 2097152 + n.toNat)
  | .cbacq n => some (0xC4000100 + n.toNat)
  | .cbrel n => some (0xC4000200 + n.toNat)
  | .cbstat n => some (0xC4000300 + n.toNat)
  | .syscall c => some (0xC8000000 + c.toNat * 16)
  | .trap c => some (0xC8000001 + c.toNat * 16)
  | .eret  => some (0xC8000002)
  | .brk c => some (0xC8000003 + c.toNat * 16)
  | .nop  => some (0xC8000004)
  | .tstamp d => some (0xC8000005 + d.toNat * 2097152)
  | .trig d a c => some (0xC8000006 + d.toNat * 2097152 + a.toNat * 65536 + c.toNat * 16)
  | .ptblw h l => some (0xC8000007 + h.toNat * 2097152 + l.toNat * 65536)
  | .csrr d c => some (0xCC000000 + d.toNat * 2097152 + c.toNat * 16)
  | .csrw d a c => some (0xCC000001 + d.toNat * 2097152 + a.toNat * 65536 + c.toNat * 16)
  | .csrs d a c => some (0xCC000002 + d.toNat * 2097152 + a.toNat * 65536 + c.toNat * 16)
  | .csrc d a c => some (0xCC000003 + d.toNat * 2097152 + a.toNat * 65536 + c.toNat * 16)
  | .launch d a => some (0xD0000000 + d.toNat * 2097152 + a.toNat * 65536)
  | .lwait d a => some (0xD0000001 + d.toNat * 2097152 + a.toNat * 65536)
  | .stagedTableGoesLive _ => none
  | .trapEntry _ _ => none
  | .slotTakesWork _ => none
  | .contextPacketAdmission _ => none
  | .migrationReply _ => none
  | .refusalBackoffExpiry _ => none
  | .forwardingEntryExpiry _ _ => none
  | .lateReplyAtOrigin _ _ => none
  | .tcdecArrival _ => none
  | .quiesceSweep _ => none
  | .activeMessage _ => none
  | .dequeStealServed _ => none
  | .accessReply _ => none
  | .fireAndForgetAck _ => none
  | .edgeCoreServe _ => none
  | .specialFunctionResult _ _ => none
  | .anormResult _ _ => none
  | .allocatorEngineStep _ => none
  | .acqAtHome _ => none
  | .tryacqAtHome _ => none
  | .relAtHome _ => none
  | .lockrunAtHome _ => none
  | .syncserveAtHome _ => none
  | .directArrival _ => none
  | .combinedArrival _ => none
  | .engineArrival _ => none
  | .syncdoneAtHome _ => none
  | .syncpolAtHome _ => none
  | .syncfreeAtHome _ => none
  | .ownerDeparture _ => none
  | .killMark _ => none
  | .releaseReachesCore _ _ => none
  | .nodeArming _ => none
  | .nodeForward _ _ _ => none
  | .delegatedWorkAtOwner _ => none
  | .lockrunResult _ => none
  | .mailboxDelivery _ => none
  | .appendAtRing _ => none
  | .appendRetry _ => none
  | .contextGone _ => none
  | .jobStart _ => none
  | .cbSlotStart _ => none
  | .cbSlotFilled _ => none
  | .jobCompletion _ => none
  | .jobSuspension _ => none
  | .rangeTableRoom _ _ => none
  | .gangJoin _ => none
  | .mgangRelease _ => none
  | .gangLeave _ => none
  | .shadowLoad _ => none
  | .planeSwap _ => none
  | .accumulatorZero _ => none
  | .streamPass _ => none
  | .drain _ => none
  | .groupedProduct _ => none
  | .coverageInit _ => none
  | .coverageProbe _ => none
  | .spanJoin _ => none
  | .coverageCommit _ => none
  | .coverageReadback _ => none
  | .matrixRerun _ _ => none
  | .certification _ => none
  | .syscallGateReply _ _ _ => none
  | .qdb _ _ _ => none
  | .launchRecordSent _ => none
  | .dependenceReread _ => none
  | .queueAging _ => none
  | .launchHeadCheck _ => none
  | .selectAndReserve _ _ => none
  | .prepare _ => none
  | .commit _ _ => none
  | .launchCompletion _ => none
  | .eventideRequest _ => none
  | .eventideStop _ => none
  | .eventideResume _ => none
  | .kill _ _ => none
  | .heldRewalk _ => none
  | .holdTimeout _ => none
  | .translationWalk _ _ => none
  | .shootdown _ _ _ _ _ => none
  | .jobResume _ _ => none
  | .jobAbort _ _ => none
  | .hostAccess _ _ _ => none
  | .hbhostWrite _ => none
  | .heartbeatCheck => none
  | .unfence _ => none
  | .hbdevTick => none
  | .pairStop _ => none
  | .livenessStamp => none
  | .leaderTakeover => none
  | .dutyAdoption _ _ => none
  | .dusk _ => none
  | .duskResume _ _ => none
  | .daybreak _ => none
  | .unitFailure _ => none
  | .scrubError _ => none
  | .nightfallStopRequest _ => none
  | .nightfallResumeRequest _ => none
  | .nightfallStop _ => none
  | .nightfallResume _ => none
  | .trctlWrite _ _ => none
  | .partitionEntryWrite _ _ => none
  | .largeCoreMaskWrite _ _ => none
  | .islandStepDown _ _ _ => none
  | .islandStepUp _ _ _ => none
  | .thermalWithhold _ _ => none
  | .telemetrySample => none
  | .quoteRequest => none
  | .quoteReady => none
  | .registerWrite _ _ => none
  | .debuggerRelease _ _ => none
  | .stoppedStateWrite _ => none
  | .firmwareMemoryWrite _ _ _ => none
  | .rangeEntryRemoval _ => none
  | .linkRetry _ => none

/-- The bytes of an instruction in memory (R171). -/
def encode (i : Instr) : List (BitVec 8) :=
  match encodeWord i with
  | some w => leBytes 4 w
  | none => []

/-- Whether the row of an instruction is an encoded instruction. -/
def Instr.encoded (i : Instr) : Bool := (encodeWord i).isSome

end Sys2Proof
end

