-- ==== Sys2Proof/Machine/Bits.lean ====
section
/-! DEFINITION.  Bit fields, extensions and byte order (R6, R186), and the geometry of core IDs (R4). -/

namespace Sys2Proof.Machine

/-- Bits [lo+n-1 : lo] of a double. -/
def field (w : Word) (lo n : Nat) : Nat := w.toNat / 2 ^ lo % 2 ^ n

/-- Bits [lo+n-1 : lo] of a number. -/
def nfield (w lo n : Nat) : Nat := w / 2 ^ lo % 2 ^ n

/-- One bit of a double. -/
def bit (w : Word) (k : Nat) : Bool := w.toNat / 2 ^ k % 2 == 1

/-- One bit of a number. -/
def nbit (w k : Nat) : Bool := w / 2 ^ k % 2 == 1

/-- A number as a double. -/
def dbl (n : Nat) : Word := BitVec.ofNat 64 n

/-- SExt of R186: the low n bits of x, sign-extended to 64 bits. -/
def sext (n : Nat) (x : Word) : Word := (x.truncate n).signExtend 64

/-- ZExt of R186. -/
def zext (n : Nat) (x : Word) : Word := (x.truncate n).zeroExtend 64

/-- 1 for true, 0 for false. -/
def flag (b : Bool) : Word := if b then 1 else 0

/-- The word that encodes an instruction, zero-extended, as a trap value (R352). -/
def wordOf (i : Instr) : Word := dbl ((encodeWord i).getD 0)

/-- The low 32 bits of a double. -/
def lowW (x : Word) : W32 := x.truncate 32
/-- The high 32 bits of a double. -/
def highW (x : Word) : W32 := (x >>> 32).truncate 32
/-- A double from its two words. -/
def joinW (lo hi : W32) : Word := (hi ++ lo : BitVec 64)

/-- Large cores are numbered from 0x10000 in the model (R4, R222). -/
def largeBase : Nat := 65536
/-- Whether a core is a large core. -/
def isLarge (c : Nat) : Bool := decide (65536 ≤ c)
/-- The tile of a small core (R4). -/
def tileOf (c : Nat) : Nat := c / 16
/-- The group of a small core (R4). -/
def groupOf (c : Nat) : Nat := c / 256
/-- The super-group of a small core (R4). -/
def sgOf (c : Nat) : Nat := c / 4096
/-- The die of a core: 8,192 small cores or 8 large cores each (R3). -/
def dieOf (c : Nat) : Nat := if isLarge c then (c - 65536) / 8 else c / 8192

/-- How many cores a domain or scope holds: SLOT and CORE one core, up to PACKAGE (R14, R123). -/
def domainCores (d : Nat) : Nat :=
  match d with
  | 0 => 1 | 1 => 1 | 2 => 16 | 3 => 256 | 4 => 4096 | 5 => 8192 | _ => 65536

/-- The number of slots of a core: eight, or four hardware contexts (R9, R380). -/
def slotCount (c : Nat) : Nat := if isLarge c then 4 else 8
/-- The slots that user work may occupy (R9, R380). -/
def userSlots (c : Nat) : List Nat := if isLarge c then [0, 1, 2, 3] else [0, 1, 2, 3, 4, 5, 6]

/-- The key of a scratchpad byte in State.mem. -/
def spadKey (core raw : Nat) : Nat := core * 1048576 + raw
/-- The key of a device physical byte in State.mem. -/
def devKey (pa : Nat) : Nat := pa + 2 ^ 60
/-- The key of a host physical byte in State.mem. -/
def hostKey (pa : Nat) : Nat := pa + 2 ^ 61

/-- The first raw offset of the reserved area (R44). -/
def reservedBase : Nat := 0x1C000

/-- The ceiling of a division. -/
def ceilDiv (a b : Nat) : Nat := (a + b - 1) / b

/-- A word address: a PC is always a multiple of 4, and a trap vector's and exception PC's bits [1:0] read zero (R165,
R169, R348; log entry 34). -/
def wordAddr (v : Word) : Word := v &&& ~~~(3 : Word)

/-- The element at an index of a list, or d. -/
def nth {α : Type} (l : List α) (k : Nat) (d : α) : α := l.getD k d


end Sys2Proof.Machine
end

