-- ==== Sys2Proof/Machine/Maps.lean ====
section
/-! DEFINITION.  Sparse maps: lists of (key, value) pairs with strictly rising keys.  Scratchpad and HBM
bytes, side tags, slots, cores and tiles are held in them, so that a state is plain data. -/

namespace Sys2Proof.Machine

/-- A sparse map: the value at a key is the first pair of that key, or the map's default. -/
abbrev SMap (α : Type) := List (Nat × α)

/-- The value at key k, or the default d where the map lists none. -/
def mapGet {α : Type} (m : SMap α) (d : α) (k : Nat) : α :=
  match m with
  | [] => d
  | (j, v) :: r => if j = k then v else mapGet r d k

/-- The map without key k. -/
def mapErase {α : Type} (m : SMap α) (k : Nat) : SMap α :=
  match m with
  | [] => []
  | (j, v) :: r => if j = k then mapErase r k else (j, v) :: mapErase r k

/-- The pair (k, v) put before the first larger key. -/
def mapInsert {α : Type} (m : SMap α) (k : Nat) (v : α) : SMap α :=
  match m with
  | [] => [(k, v)]
  | (j, w) :: r => if k < j then (k, v) :: (j, w) :: r else (j, w) :: mapInsert r k v

/-- The map with value v at key k; the key is listed whatever the value is. -/
def mapPut {α : Type} (m : SMap α) (k : Nat) (v : α) : SMap α := mapInsert (mapErase m k) k v

/-- The map with value v at key k, listing no entry equal to the default d. -/
def mapSet {α : Type} [DecidableEq α] (m : SMap α) (d : α) (k : Nat) (v : α) : SMap α :=
  if v = d then mapErase m k else mapInsert (mapErase m k) k v

/-- Keys strictly rising. -/
def mapSorted {α : Type} : SMap α → Bool
  | [] => true
  | [_] => true
  | (j, _) :: (k, w) :: r => decide (j < k) && mapSorted ((k, w) :: r)

/-- The canonical form: keys strictly rising and no entry equal to the default. -/
def mapWf {α : Type} [DecidableEq α] (m : SMap α) (d : α) : Bool :=
  mapSorted m && m.all (fun p => decide (p.2 ≠ d))

/-- The keys of a map. -/
def mapKeys {α : Type} (m : SMap α) : List Nat := m.map (fun p => p.1)

end Sys2Proof.Machine
end

