-- ==== Sys2Proof/Machine/State.lean ====
section
/-! DEFINITION.  The state of the part as plain data (INVENTORY.md, State): every slot, core and tile, the
memories, everything in flight, the distributor, the host link and the firmware's registers; and the state
right after reset, which is the state Daybreak leaves on a part with every unit up (R383, log entry 20). -/

namespace Sys2Proof.Machine

/-- The trap causes of R177. -/
inductive Cause where
  | illegal | priv | align | access | page | prot | rangeLocked | sigfloor | fpexc | bounds
  | poison | syscall | brk | trap | queue | sync | migrate | mtxerr | fenced
  deriving DecidableEq, Repr

/-- The modes of R347. -/
inductive Mode where
  | user | super | machine
  deriving DecidableEq, Repr

/-- A thread's place: its core (a small core's logical ID, or 0x10000 + n for large core n) and its slot. -/
structure Who where
  core : Nat
  slot : Nat
  deriving DecidableEq, Repr

/-- A value on its way through the array or the exact arithmetic: a finite dyadic number
(-1)^neg * mant * 2^exp, an infinity, or a NaN. -/
inductive FV where
  | fin (neg : Bool) (mant : Nat) (exp : Int)
  | inf (neg : Bool)
  | nan
  deriving DecidableEq, Repr

/-- A range on its way into the tables (R62): of S-space keys, or of V-space addresses. -/
structure RangeReq where
  vspace : Bool
  lo : Nat
  hi : Nat
  write : Bool
  deriving DecidableEq, Repr

/-- An operand record (R146). -/
structure OpRec where
  base : Nat
  bitmap : Nat
  scale : Nat
  key1 : BitVec 16
  key0 : BitVec 16
  stride : Nat
  cols : Nat
  rows : Nat
  asig : Tag
  window : Nat
  deriving DecidableEq, Repr

/-- The gang operations (R291-R304), by what the array does. -/
inductive GangFn where
  | mldw | mtld | mswap | mzero | mstrm | mgrp | mdrain | mcovi | mcovp | mcovc | mcovr
  deriving DecidableEq, Repr

/-- One member's instruction of a gang operation (R144): the slot and the number of its thread, the function, the
instruction word, the values of g[ra] and g[rb], imm8, the operand record and the drain words as read at its issue, and its
slot's csr.fpctl.sat at the issue (R153, R320; log entry 33). -/
structure Member where
  who : Who
  thread : Nat := 0
  fn : GangFn
  word : Word
  ra : Word
  rb : Word
  imm : Nat
  record : Option OpRec
  words : List Word
  sat : Bool := false
  deriving DecidableEq, Repr

/-- An engine job (R247, R251, R159): its number once committed, its registers, the indices and the arrays of
w1, s1, w2, s2 with dblk for AFETCH, its issuer, and how far it has come: rows filled and the slot being
filled of its buffer, the cursor and valid bits of R356, the bytes moved, QUANT's flags, the pages it waits
for and since when, whether it was resumed, and the place of a fill that waits for room in the tables (R65). -/
structure Job where
  num : Nat
  regs : Vector Word 12
  idx : List Nat
  arrays : List Nat
  dblk : Nat
  cb : Option Nat
  barrier : Nat
  jrec : Nat
  who : Who
  pid : BitVec 16
  part : Nat
  launch : Nat
  filled : Nat
  filling : Option Nat
  cursor : Nat
  valid : Word
  moved : Nat
  flags : BitVec 5
  faddr : Nat
  cause : Nat
  holds : List (Nat × Nat)
  resumed : Bool
  place : Option Nat := none
  deriving DecidableEq, Repr

/-- An ACERT that the check stage serves or queues (R156), with the number of the thread that issued it, its launch and
its process. -/
structure Cert where
  who : Who
  record : Nat
  thread : Nat := 0
  launch : Nat := 0
  pid : BitVec 16 := 0
  deriving DecidableEq, Repr

/-- An issue whose ranges wait for room in the tables (R65). -/
inductive Issue where
  | job (j : Job)
  | member (m : Member)
  | cert (c : Cert)
  deriving DecidableEq, Repr

/-- What a plain wait waits for (R12); the instruction is issued again when it holds. -/
inductive Cond where
  | relaxed                       -- R129: the relaxed accesses complete
  | acks                          -- R129: relaxed accesses and acknowledgements
  | ackRoom                       -- R214
  | result (id : Nat)             -- R128, R201: the reply of this relaxed access
  | queueEntry (q n : Nat)        -- R234: n entries in queue q
  | queueRoom (q n : Nat)         -- R234: room for n entries
  | spawnRoom                     -- R226
  | claim                         -- R250
  | counter (target : Nat)        -- R252
  | bufferFilled (cb : Nat)       -- R56
  | launchRoom                    -- R256: 16 unfinished launches
  | statusSet (addr : Nat)        -- R257
  | frame                         -- R242: entry 0 of the next frame
  | homeClear (desc : Nat)        -- R322: the slot's requests to this home are served
  | hostDrain                     -- R131, R135: the thread's writes have reached the host's ordering point
  deriving DecidableEq, Repr

/-- One element of a result: its bits, its flags, its tag, whether it is finite, and the operand tags that
csr.sigtrap would record (R102). -/
structure Elem where
  val : Nat
  fl : BitVec 5
  tag : Tag
  finite : Bool
  ta : Tag
  tb : Tag
  tc : Tag
  deriving DecidableEq, Repr

/-- Why a slot is parked (R12). -/
inductive Park where
  | ready
  | wait (c : Cond) (ticket : Nat)          -- the instruction is issued again
  | reply (id : Nat)                        -- until the step that answers message id
  | fetch (id : Nat)                        -- a fetch held at a station (R362)
  | special (i : Instr) (pc : Word) (es : List Elem)   -- R260: the results wait for the last three steps of R259
  | norm (a b : BitVec 5)                   -- R155
  | recv (mask : BitVec 16) (rd : BitVec 5) (ticket : Nat)  -- R229
  | lock (desc id : Nat)                    -- ACQ, LOCKRUN, TRYACQ: the object and the request's message
  | await (desc : Nat) (rd : BitVec 5)      -- R113
  | serve (desc : Nat)                      -- R108
  | quiesce                                 -- R32
  | migrating (id : Nat)                    -- R26, R27
  | room (i : Issue) (checks qs : List RangeReq) (ticket : Nat)  -- R65: until RANGE_TABLE_ROOM
  | gang                                    -- R143
  | member                                  -- R144: parked until the join
  | arrayDone (op : Nat)                    -- MCOVP, MCOVR until their operation ends
  | certify                                 -- R156
  | gate (since : Option Nat)               -- R367: since the instant from which a pointer's page is held (R362)
  | debugger                                -- R388
  deriving DecidableEq, Repr

/-- The kinds of thread of R17-R31. -/
inductive ThreadKind where
  | spatial
  | seed
  | task (record : Nat)
  | spawned (parent : Nat)
  | phaseTask (desc : Nat)
  deriving DecidableEq, Repr

/-- The CSRs of one trap level, R348 and R349. -/
structure TrapCsrs where
  status : BitVec 3
  tvec : Word
  epc : Word
  cause : Word
  tval : Word
  scratch : Word
  deriving DecidableEq, Repr

/-- The user CSRs of R167 that a slot holds. -/
structure UserCsrs where
  fpctl : BitVec 13
  winsig : BitVec 48
  olscale : BitVec 17
  sigfloor : BitVec 7
  sigtrap : BitVec 29
  mtxerr : Word
  uinh : Bool
  utvec : Word
  uepc : Word
  ucause : BitVec 8
  utval : Word
  udeleg : BitVec 15
  deriving DecidableEq, Repr

/-- The watch of R113: the object, and the phase result once a release has reached the core. -/
structure Watch where
  desc : Nat
  released : Option Word
  deriving DecidableEq, Repr

/-- A trap that waits for the relaxed accesses of R350; sigtrap is what a SIGFLOOR writes in its CSR once it enters
(R102). -/
structure Pending where
  cause : Cause
  value : Word
  sigtrap : Option (BitVec 29) := none
  deriving DecidableEq, Repr

/-- The destination of a memory reply. -/
inductive Dest where
  | none
  | general (reg : BitVec 5)
  | vector (reg : BitVec 4)
  deriving DecidableEq, Repr

/-- An outstanding relaxed access (R128, R201): its message, destination, and its cause once it faulted. -/
structure Relaxed where
  id : Nat
  dest : Dest
  fault : Option (Cause × Word)
  deriving DecidableEq, Repr

/-- An unacknowledged operation (R214, R215): its message, its address, the cause its acknowledgement carried,
and whether it is an ARRIVE (R113). -/
structure Unacked where
  id : Nat
  addr : Nat
  fault : Option (Cause × Word)
  arrive : Bool
  deriving DecidableEq, Repr

/-- A routine or phase action that runs on a thread (R110, R115). -/
inductive Routine where
  | caller (desc : Nat) (rd : BitVec 5)        -- a LOCKRUN on its caller, with its destination
  | delegated (desc : Nat) (from_ : Who)       -- a LOCKRUN shipped to the owner
  | action (desc : Nat)                        -- a phase action
  deriving DecidableEq, Repr

/-- A slot's state (R165-R170, R348, R369); debug is set while the debugger holds the slot (R388, log entry 24), thread is
the model's own number of the thread (R256, log entry 16), serving the home's note of the object that it serves (R104), and
traps counts the handlers entered in the slot, by which a step's trap entries are told (R390, log entry 21). -/
structure Slot where
  occ : Bool
  regs : Vector Word 32
  lanes : Vector W32 64
  tags : Vector Tag 64
  pw : BitVec 16
  pc : Word
  mode : Mode
  csr : UserCsrs
  sup : TrapCsrs
  mach : TrapCsrs
  locks : List Nat
  watch : Option Watch
  park : Park
  turn : Option Nat
  pend : Option Pending
  relaxed : List Relaxed
  unacked : List Unacked
  lastJob : Nat
  pid : BitVec 16
  part : Nat
  launch : Nat
  kind : ThreadKind
  routines : List Routine
  serving : Option Nat
  lastStamp : Nat
  code : BitVec 12
  debug : Bool
  thread : Nat
  traps : Nat := 0
  deriving DecidableEq, Repr

/-- A context on its way: a context packet, or one that waits in an arrival queue or spill area (R25); stamp is the
thread's latest TSTAMP (R34). -/
structure Ctx where
  pc : Word
  pw : BitVec 16
  g3 : Word
  mask : BitVec 32
  regs : Vector Word 32
  pid : BitVec 16
  part : Nat
  launch : Nat
  kind : ThreadKind
  thread : Nat
  fpctl : BitVec 13
  winsig : BitVec 48
  olscale : BitVec 17
  sigfloor : BitVec 7
  stamp : Nat := 0
  deriving DecidableEq, Repr

/-- A queue entry of R234. -/
structure QEntry where
  data : Word
  tag0 : Tag
  tag1 : Tag
  deriving DecidableEq, Repr

/-- A binding of a queue register (R233): the home of its entries is the consumer's core. -/
structure QueueReg where
  bound : Bool
  prodCore : Nat
  prodSlot : Nat
  consCore : Nat
  consSlot : Nat
  entries : List QEntry
  deriving DecidableEq, Repr

/-- A mailbox message (R227), or a CONTEXT_GONE notice (R229). -/
structure Mail where
  payload : List Word
  sender : Word
  gone : Bool
  deriving DecidableEq, Repr

/-- An entry of a run list: a task counter record, a seed task, or a phase task (R18, R115, R335). -/
inductive RunEntry where
  | task (off : Nat) (launch : Nat)
  | seed (k : Nat) (launch : Nat)
  | phase (desc : Nat) (pc g4 g5 : Word) (launch : Nat) (pid : BitVec 16)
  deriving DecidableEq, Repr

/-- A forwarding entry of R28. -/
structure Forward where
  slot : Nat
  target : Nat
  since : Nat
  deriving DecidableEq, Repr

/-- A cached V-space line of a large core (R134), with the tags of its sixteen words on a TAGS page, and none on a page
that is not one (R48, R95). -/
structure Line where
  pid : BitVec 16
  addr : Nat
  bytes : List Byte
  tags : List Tag
  deriving DecidableEq, Repr

/-- A trace buffer (R389-R391); reading is set while firmware reads through trwin (R390). -/
structure Trace where
  ctl : Word
  trig : Word
  lo : Word
  hi : Word
  win : BitVec 10
  next : Nat
  wrapped : Bool
  frozen : Bool
  full : Bool
  dropped : Nat
  events : SMap (BitVec 128)
  lastHigh : Option Nat
  post : Option Nat
  reading : Bool
  deriving DecidableEq, Repr

/-- The work in progress on an object: a LOCKRUN routine on its caller, a routine shipped to the owner for a
requester, an action shipped to the owner, or an action placed as a phase task (R110, R115, R125). -/
inductive Work where
  | caller (w : Who)
  | owner (w requester : Who)
  | ownerAction (w : Who)
  | phaseTask
  deriving DecidableEq, Repr

/-- What the home's Vesper unit keeps of a live object beside its descriptor: the tile of its first request
(for multi, R104), the latest stamp, the cores and the launch of the phase's arrivals and whether the phase
switched modes (R13, R115, R116, R119), the work in progress (R125), the waiting requests
that a kill marked (R370), the places used in the tail block of its overflow chain (R105), and whether the holder and
each waiting thread, front first, is on a large core, which a handle does not tell (log entry 32). -/
structure Obj where
  tile1 : Option Nat
  last : Nat
  cores : List Nat
  launch : Nat
  pid : BitVec 16
  switched : Bool
  work : Option Work
  marked : List Who
  placed : Nat
  bigHolder : Bool := false
  big : List Bool := []
  deriving DecidableEq, Repr

/-- A core's state beside its slots (R3, R10, R13, R22, R27, R31, R54, R105, R321, R344, R345, R387): boundary is its
Meridian reading at its last frame boundary, service the messages in its service slot's queue, reached the context
packets that reached it, with a 0 between those of two cycles, and buffer the messages that the router nearest to it holds while it is stopped,
each in order of arrival. -/
structure Core where
  queues : SMap QueueReg
  boxes : SMap (List Mail)
  deque : List (Word × Word)
  arrival : List Ctx
  spill : List Ctx
  reserved : List Nat
  runList : List RunEntry
  forwards : List Forward
  lateDropped : Nat
  sent : SMap Nat
  received : SMap Nat
  spawned : Nat
  live : Vector (BitVec 4) 32
  staged : Option (Vector (BitVec 4) 32)
  goLive : Bool
  pos : Nat
  recent : List Nat
  objects : SMap Obj
  blocks : List Nat
  trace : Trace
  issued : Nat
  bubbles : Nat
  parkedCycles : Nat
  boundary : Nat
  service : List Nat
  reached : List Nat
  buffer : List Nat
  cache : List Line
  deriving DecidableEq, Repr

/-- What an access does at its serving point. -/
inductive AccOp where
  | load (signed : Bool)
  | vload (double broadcast : Bool)
  | store (lo hi : W32)
  | vstore (double : Bool) (lanes : List W32) (tags : List Tag)
  | atomic (op : BitVec 4) (b expect : Word)
  | reduce (op : BitVec 3) (b : Word)
  | xcadd (v : W32) (tag : Tag)
  | xcread
  | xcclr
  | syncInit (image : Nat)
  | syncMode (sel : Word)
  | taskInit (count : Word)
  | launchRead                  -- R256: a record's done field, with its part and prio
  | launchZero (record : Nat)   -- R256: zero to the status of the completion record
  | status                      -- R257
  deriving DecidableEq, Repr

/-- The answer of a serving point: words with their tags and raised flags, or a cause. -/
inductive Reply where
  | data (words : List (W32 × Tag)) (flags : BitVec 5)
  | fault (cause : Cause) (value : Word)
  deriving DecidableEq, Repr

/-- Where an access stands on its way. -/
inductive Stage where
  | walk                               -- at a translation station (R45)
  | held (since : Nat) (asked : Bool)  -- held there (R362)
  | edge (key : Nat) (shadow : Option Nat)  -- at the channel's edge core, or the host: the keys of the data
                                        -- and of the first shadow byte (R48)
  | shadow (key : Nat) (r : Reply)     -- the data performed, the shadow bytes not yet (R95)
  | owner                              -- at the owner core's service slot (R53)
  | bank                               -- at its own super-group's bank (relaxed, fire-and-forget)
  | answered (r : Reply)
  deriving DecidableEq, Repr

/-- An access: its address and size, the slot state it carries, where it stands, and whether a large core's cache takes
the line that it reads (R134). -/
structure Access where
  op : AccOp
  ea : Nat
  size : Nat
  dest : Dest
  relaxed : Bool
  ff : Bool
  fpctl : BitVec 13
  winsig : BitVec 48
  olscale : BitVec 17
  super : Bool
  pid : BitVec 16
  part : Nat
  launch : Nat
  stage : Stage
  fill : Bool := true
  deriving DecidableEq, Repr

/-- A request to a Vesper unit (R107).  waiting is a lock request that its home has queued: it keeps the routine
and arguments of a LOCKRUN until the grant (R110). -/
inductive SyncReq where
  | acq
  | tryAcq
  | rel
  | lockRun (pc : Word) (args : List Word)
  | waiting (run : Option (Word × List Word))
  | serve
  | arrive (contribution : Word) (tag : Tag) (stamp : Nat)
  | combined (level unit phase : Nat) (contribs : List (Word × Tag)) (first last : Nat) (members : List (Who × Nat))
  | engine (count stamp launch : Nat)
  | done (g4 : Word)
  | pol (image : List Byte)
  | syncFree
  | depart (from_ : Who)
  | abandon (from_ : Who)
  | killMark (from_ : Who)
  | releaseOf (from_ : Who)
  deriving DecidableEq, Repr

/-- Work shipped to an owner (R110, R115). -/
inductive Shipped where
  | routine (requester : Who) (pc : Word) (args : List Word)
  | action (pc g4 phase : Word)
  deriving DecidableEq, Repr

/-- What another agent answers to a slot, or tells a core (R344, R385): a lock granted to an ACQ or TRYACQ, or to a
LOCKRUN that runs on its caller; a cause for a slot that waits with a park; a status or a stolen range for message id; a new
name for the owner that an object had; a status of the syscall gate; and CONTEXT_GONE. -/
inductive Answer where
  | granted (desc id : Nat) (rd : BitVec 5) (try_ : Bool)
  | runs (desc id : Nat) (rd : BitVec 5) (pc : Word) (args : List Word)
  | refusal (p : Park) (c : Cause) (v : Word)
  | status (p : Park) (rd : BitVec 5) (v : Word)
  | stolen (id : Nat) (rd : BitVec 5) (lo hi : Word)
  | renamed (desc : Nat)
  | gate (v : Word)
  | gone (sender : Word)
  deriving DecidableEq, Repr

/-- The body of a message in flight: answer is one that a stopped core has not heard yet (R344), and fields the hardware
fields of a launch record that the distributor cannot write while their page is held (R343, R362). -/
inductive Body where
  | access (a : Access)
  | sync (desc : Nat) (req : SyncReq)
  | ack (addr : Nat) (fault : Option (Cause × Word)) (arrive : Bool)
  | release (desc phase : Nat) (result : Word) (todo cores : List Nat)
  | arming (desc phase level unit : Nat) (on : Bool)
  | work (desc : Nat) (owner : Who) (w : Shipped)
  | runResult (target : Who) (request : Nat) (g4 : Option Word)
  | packet (ctx : Ctx) (dest : Nat) (refusals : Nat) (state : Nat) (due : Nat)
  | decrement (record d launch : Nat) (counted : Bool)
  | mail (core box : Nat) (m : Mail) (try_ signal : Bool) (parked : Bool) (launch : Nat)
  | append (ring : Nat) (payload : List Word) (try_ parked due : Bool) (launch : Nat)
  | peer (append try_ : Bool) (launch : Nat)
  | steal (victim : Nat)
  | alloc (n : Word) (since : Option Nat)
  | free (p : Word) (since : Option Nat)
  | record (addr : Nat) (prio : Nat) (since : Option Nat)
  | fetch (va : Nat) (since : Nat) (asked ripe : Bool)
  | answer (w : Who) (a : Answer)
  | fields (part : Nat) (pid : BitVec 16) (launch addr : Nat) (bytes : List Byte) (since : Nat) (asked : Bool)
  deriving DecidableEq, Repr

/-- A message in flight: its number, its sender, its destination register, and its body. -/
structure Msg where
  id : Nat
  src : Who
  rd : BitVec 5
  body : Body
  deriving DecidableEq, Repr

/-- A combining node armed for an object (R117): level 2 tile, 3 group, 4 super-group.  It holds the
contributions of its pending arrivals, whose reduction is exact and associative (R114), their earliest and
latest stamps, the instant of the first, and the members to be acknowledged. -/
structure Node where
  desc : Nat
  level : Nat
  unit : Nat
  phase : Nat
  contribs : List (Word × Tag)
  first : Nat
  last : Nat
  since : Nat
  members : List (Who × Nat)
  deriving DecidableEq, Repr

/-- Where a range is registered (R62): a tile's table, or the V-space ranges of a process. -/
inductive RangeTable where
  | tile (t : Nat)
  | stations (pid : BitVec 16) (st : List Nat)
  deriving DecidableEq, Repr

/-- Who registered a range. -/
inductive RangeOwner where
  | job (tile num : Nat)
  | member (w : Who)
  | op (tile num : Nat)
  | certify (tile : Nat) (w : Who) (thread : Nat)
  deriving DecidableEq, Repr

/-- A registered range: bytes lo up to hi, of S-space keys in a tile's table and of V-space addresses at the
stations (R62, log entry 13). -/
structure RangeEntry where
  id : Nat
  table : RangeTable
  lo : Nat
  hi : Nat
  write : Bool
  owner : RangeOwner
  deriving DecidableEq, Repr

/-- A cached translation of a station (R363). -/
structure TlbEntry where
  station : Nat
  pid : BitVec 16
  base : Nat
  size : Nat
  leaf : Word
  deriving DecidableEq, Repr

/-- A weight plane (R142): its format as a window number, its cells by 32 k + n (none
for an element of a zero block or gated, which contributes nothing, R80), and each column's key and assumed tag. -/
structure Plane where
  win : Nat
  cells : SMap (Option FV)
  keys : SMap (BitVec 16)
  sigs : SMap Tag
  deriving DecidableEq, Repr

/-- An accumulator (R82, R83, R97): its value, M, K, the smallest min(Sa, Sb) of its passes (EXACT while every
pass paired EXACT records), and whether an accumulation rounded. -/
structure Accum where
  val : FV
  m : Option Int
  k : Nat
  sig : Tag
  rounded : Bool
  deriving DecidableEq, Repr

/-- The accumulator mode (R142). -/
inductive AccMode where
  | unset | fp | int
  deriving DecidableEq, Repr

/-- What an operation of the array may write (R151). -/
structure Snap where
  accs : SMap Accum
  amode : AccMode
  shadow : Plane
  covFp : Bool
  cover : SMap W32
  deriving DecidableEq, Repr

/-- A joined gang operation of the array: waiting in the queue, or started and running (R145, R297); probed is set while
a span waits (R162), snap is the snapshot that its start took (R151), row the number of rows that the running operation has
passed, each of which is one K-block of every accumulator of its row (R81, R149, R164), and fl the flags that it has raised
in each core's columns (R71, R153). -/
structure GangOp where
  num : Nat
  seq : Nat
  fn : GangFn
  ra : Word
  rb : Word
  imm : Nat
  members : List Member
  launch : Nat
  started : Bool
  probed : Bool
  snap : Option Snap := none
  row : Nat := 0
  fl : SMap (BitVec 5) := []
  deriving DecidableEq, Repr

/-- A tile's copy engine (R247-R253): the shadow and live sets, the claim and whether an EGO or AFETCH took it,
the committed shadow, the running job, the suspended and resumed jobs, the jobs done but not counted, the
completion counter, the next job number, and the flags of the last completed QUANT. -/
structure Engine where
  shadow : Vector Word 12
  liveSet : Vector Word 12
  claim : Option Who
  fresh : Bool
  committed : Option Job
  live : Option Job
  suspended : List Job
  held : List Nat
  counter : Nat
  nextNum : Nat
  qflags : BitVec 5
  deriving DecidableEq, Repr

/-- A circular buffer (R55). -/
structure CircBuf where
  base : Nat
  size : Nat
  count : Nat
  free : Nat
  filled : Nat
  head : Nat
  tail : Nat
  acquired : Nat
  filling : Nat
  deriving DecidableEq, Repr

/-- A tile's state (R142-R163, R247-R256). -/
structure Tile where
  live : Plane
  shadow : Plane
  accs : SMap Accum
  amode : AccMode
  queue : List GangOp
  joining : List Member
  mslots : SMap Nat
  gops : Nat
  opNum : Nat
  pendErr : SMap Word
  leaving : List Nat
  covFp : Bool
  cover : SMap W32
  spans : Nat
  certs : List Cert
  engine : Engine
  bufs : SMap CircBuf
  deriving DecidableEq, Repr

/-- A level entry of a launch record (R334). -/
structure Level where
  count : Nat
  rsv : Nat
  scope : Nat
  domain : Nat
  kind : Nat
  deriving DecidableEq, Repr

/-- The states of a launch (R333). -/
inductive LState where
  | queued | waitDep | placing | running | ended
  deriving DecidableEq, Repr

/-- A launch (R333, R338-R342): own is the priority of the queue that it was submitted to (R256, R336), issuer the
thread whose LAUNCH submitted it, since the instant from which an access of the distributor is held (R343), head is set
from its first reservation on, while it holds the head of its queue (R338), and due once a completion asks for a re-read
of its counter (R337). -/
structure Launch where
  id : Nat
  addr : Nat
  part : Nat
  pid : BitVec 16
  entry : Word
  args : Word
  done : Word
  signal : Word
  dep : Word
  prio : Nat
  recPart : Nat
  zero : Bool
  det : Bool
  levels : List Level
  badField : Option Nat
  state : LState
  eprio : Nat
  enq : Nat
  own : Nat
  issuer : Option Nat
  since : Option Nat
  checked : Bool
  gangs : Nat
  held : List (Nat × Nat)
  started : Nat
  start : Nat
  faults : Nat
  sweeps : Nat
  lastSums : Option Nat
  status : Nat
  detail : Nat
  head : Bool := false
  due : Bool := false
  deriving DecidableEq, Repr

/-- A gang being placed (R340); zeroed is how many bytes of each core's user area the zero-fill has passed. -/
structure Placing where
  launch : Nat
  first : Nat
  cores : Nat
  prepared : Bool
  zeroed : Nat := 0
  deriving DecidableEq, Repr

/-- Whether a partition runs (R344, R346, R384): t is the instant T of the stop, and at_ the instant of the restart. -/
inductive RunState where
  | running
  | eventide (t : Nat)
  | saved (t : Nat)
  | restoring (t at_ : Nat)
  | stopping (t : Nat)
  | stopped (t : Nat)
  | resuming (t at_ : Nat)
  deriving DecidableEq, Repr

/-- A slot's or a tile's state as firmware writes it whole (R345, R369, R388). -/
inductive Poke where
  | slot (w : Who) (x : Slot)
  | tile (t : Nat) (x : Tile)
  deriving DecidableEq, Repr

/-- What an Eventide saves of a partition (R345): its slots, cores and tiles, the scratchpads with tags and poison marks,
the messages held for it, its combining nodes and ranges, and the units of each launch, at the instant at_ to which its
timers run. -/
structure Image where
  at_ : Nat
  slots : SMap Slot
  cores : SMap Core
  tiles : SMap Tile
  mem : List Host.Cell
  stags : SMap Tag
  poison : SMap Bool
  net : List Msg
  nodes : List Node
  ranges : List RangeEntry
  held : List (Nat × List (Nat × Nat))
  deriving DecidableEq, Repr

/-- A partition (R332, R336, R354, R359, R384, R397, R398), with the writes that take effect at its resume (R388) and the
images of the contexts that an Eventide has switched out (R345). -/
structure Partition where
  sgs : BitVec 16
  pid : BitVec 16
  valid : Bool
  refused : Bool
  largeMask : Word
  fqbase : Word
  fqsize : Nat
  fqhead : Nat
  fqtail : Nat
  fqlost : Nat
  fqsig : Word
  ptab : Word
  queues : SMap (List Nat)
  patience : SMap Nat
  qdropped : SMap Nat
  placing : Option Placing
  run : RunState
  nfRefused : Bool
  nft : Nat
  evWaiting : Bool
  writes : List StateWrite
  pokes : List Poke
  images : List Image
  deriving DecidableEq, Repr

/-- An island (R399, R400). -/
structure Island where
  cap : Nat
  powerCap : Nat
  freq : Nat
  power : Nat
  temp : Nat
  throttled : Bool
  lastStep : Nat
  coolSince : Nat
  hotSince : Option Nat
  deriving DecidableEq, Repr

/-- A pending shootdown (R364). -/
structure Shoot where
  all : Bool
  pid : Nat
  lo : Nat
  hi : Nat
  acked : List Nat
  deriving DecidableEq, Repr

/-- A chunk that a die's allocator engine took from a process's arena (R60): its class is the block size, and
taken are the blocks handed out. -/
structure Chunk where
  part : Nat
  pid : BitVec 16
  die : Nat
  block : Nat
  base : Nat
  taken : List Nat
  deriving DecidableEq, Repr

/-- A change that the device OS makes to shared state (R377): a write of device memory, a partition's entry or its mask of
large cores, a shootdown at every agent, an Eventide, or a kill. -/
inductive Change where
  | memory (addr : Nat) (data : List Byte)
  | entry (part : Nat) (v : Word)
  | mask (part : Nat) (v : Word)
  | shoot (all : Bool) (pid lo hi : Nat)
  | eventide (part : Nat)
  | kill (w : Who) (thread : Nat)
  deriving DecidableEq, Repr

/-- A journal record: its change, and whether it is marked done (R377, R378). -/
structure Record where
  change : Change
  marked : Bool
  deriving DecidableEq, Repr

/-- A write to a host-resident page that has been performed for the part and has not passed the CXL ordering point: the
thread's number, its launch, the address and the key, and the bytes that the host still sees (R135). -/
structure Posted where
  thread : Nat
  launch : Nat
  ea : Nat
  key : Nat
  old : List Byte
  deriving DecidableEq, Repr

/-- The host link and the firmware's registers (22, 24): hbdevAt and hbAt are the instants of the last heartbeat of
either direction, scrubs those of the uncorrectable errors of each unit, hostRead is what the last host read of
device memory returned, none for the poison indication, hostError whether the last host access completed with error status,
and tmAt the instant of the last telemetry sample (R353, R366, R372, R374, R395, R402). -/
structure Sys where
  meridian : Nat
  hbhost : Word
  hbSeen : Word
  hbMisses : Nat
  hbArmed : Bool
  hbdev : Word
  hbdevAt : Nat
  hbAt : Nat
  hbmirror : Word
  epoch : Nat
  fenced : Bool
  hostDropped : Nat
  annvec : Word
  alive : BitVec 8
  leader : Nat
  takeovers : Nat
  stamp : Nat
  gatemap : SMap Nat
  counters : SMap Nat
  depths : SMap Nat
  retired : List Nat
  sgmask : BitVec 16
  spareTiles : List Nat
  spareCores : List Nat
  dies : BitVec 8
  measures : List (BitVec 256)
  maps : List (BitVec 256)
  islands : SMap Island
  withheld : List Nat
  peers : SMap (Nat × Nat)
  msixOn : List Nat
  msixPending : List Nat
  msixSent : List Nat
  shoots : List Shoot
  journal : List Record
  scrubs : SMap (List Nat)
  dead : List Nat
  tmbase : Word
  tmsize : Nat
  tmhead : Nat
  tmtail : Nat
  nonce : BitVec 256
  qstate : Nat
  quote : List Byte
  gone : List Word
  hostUp : Bool
  mapout : List FailedUnit
  hostRead : Option (List Byte)
  hostError : Bool
  tmAt : Nat
  deriving DecidableEq, Repr

/-- What the environment does next (log entry 1): a core's cycle, with or without the stale cached
translations of R363; a step of another agent, likewise; the passage of time; the eviction of a large core's line; the debugger taking or leaving hold of a slot
(R388); the host enabling or masking an MSI-X vector (R371); the device OS filling an entry of the peer table, and a peer's SEND or APPEND coming in (R381);
the loader writing an image of a prepared core's scratchpad, with its task counter records (R182, R324); a message
reaching its core, edge core or holding buffer (R50, R54, R321, R344); a router's merged group served (R49); a posted
write passing the CXL ordering point, and the host writing its own memory (R135); the array passing a row of a running operation,
the load of the shadow plane or the other one (R145, R164); the device OS putting another context of a stopped partition in place (R345); firmware reading a trace buffer (R390), placing supervisor code in a service slot (R9), placing the serial part
of a launch on a large core (R380), and writing a stopped slot or tile (R388); an error corrected, of kind k (R393); and n more 64-byte lines of the zero-fill of a placement (R340). -/
inductive Sched where
  | cycle (core : Nat) (cached : Bool)
  | event (i : Instr) (cached : Bool)
  | tick (ns : Nat)
  | evict (core addr : Nat)
  | attach (core slot : Nat) (on : Bool)
  | msix (vector : Nat) (on : Bool)
  | peer (id port part : Nat)
  | peerMail (sender : Word) (core box : Nat) (payload : List Word) (try_ : Bool)
  | peerAppend (sender : Word) (ring : Nat) (payload : List Word) (try_ : Bool)
  | image (core off : Nat) (data : List Byte) (records : List Nat)
  | arrive (id : Nat)
  | merge (ids : List Nat)
  | drain (k : Nat)
  | hostWrite (addr : Nat) (data : List Byte)
  | row (tile : Nat) (load : Bool)
  | context (part k : Nat)
  | traceRead (core : Nat) (on : Bool)
  | supervisor (core : Nat) (pc : Word)
  | serial (launch core : Nat)
  | poke (p : Poke)
  | corrected (k : Nat)
  | zero (part n : Nat)
  deriving DecidableEq, Repr

/-- The state of the part; edges holds each edge core's window, in order of arrival, with how many later requests have
passed each (R50). -/
structure State where
  cur : Who
  focus : Nat
  cached : Bool
  agenda : List Sched
  mem : List Host.Cell
  stags : SMap Tag
  poison : SMap Bool
  slots : SMap Slot
  cores : SMap Core
  tiles : SMap Tile
  net : List Msg
  nodes : List Node
  edges : SMap (List (Nat × Nat))
  posted : List Posted
  ranges : List RangeEntry
  tlb : List TlbEntry
  nextId : Nat
  ticket : Nat
  launches : List Launch
  chunks : List Chunk
  parts : SMap Partition
  sys : Sys
  free : Nat
  deriving DecidableEq, Repr

/-- What stops the machine. -/
inductive Fault where
  /-- A step reads or writes a physical address that no memory of the part answers, that is, beyond the
  remnant region (R46, R47; log entry 23).  Raised by the physical reads and writes of Ops.lean.  Safe: the
  machine stops where the manual gives no effect. -/
  | noSuchMemory (addr : Nat)
  deriving DecidableEq, Repr

/-- What the model refuses. -/
inductive Refusal where
  /-- An instruction with no meaning yet, named by its mnemonic.  No arm of exec answers it.  Safe. -/
  | notModelled (mnemonic : String)
  deriving DecidableEq, Repr

/-- csr reset values of R42, R39, R69, R100, R102, R151, R169. -/
def UserCsrs.reset : UserCsrs :=
  { fpctl := 0, winsig := 0xFFF0C3108618#48, olscale := 0x1B000#17, sigfloor := 0, sigtrap := 0x1F7DF7C0#29,
    mtxerr := 0, uinh := false, utvec := 0, uepc := 0, ucause := 0, utval := 0, udeleg := 0 }

/-- Trap CSRs at reset (R349, log entry 3). -/
def TrapCsrs.reset : TrapCsrs := { status := 0, tvec := 0, epc := 0, cause := 0, tval := 0, scratch := 0 }

/-- A slot that holds no thread (R17, R165; log entry 3). -/
def Slot.reset : Slot :=
  { occ := false, regs := Vector.replicate 32 0, lanes := Vector.replicate 64 0,
    tags := Vector.replicate 64 Tag.exact, pw := 1, pc := 0, mode := .user, csr := .reset,
    sup := .reset, mach := .reset, locks := [], watch := none, park := .ready, turn := none,
    pend := none, relaxed := [], unacked := [], lastJob := 0, pid := 0, part := 0,
    launch := 0, kind := .spatial, routines := [], serving := none, lastStamp := 0, code := 0, debug := false, thread := 0 }

/-- The reset pipe table: slot k mod 8 at entry k (R10). -/
def resetTable : Vector (BitVec 4) 32 := Vector.ofFn (fun k => BitVec.ofNat 4 (k.val % 8))

/-- A trace buffer at reset (R389). -/
def Trace.reset : Trace :=
  { ctl := 0, trig := 0, lo := 0, hi := 0, win := 0, next := 0, wrapped := false, frozen := false,
    full := false, dropped := 0, events := [], lastHigh := none, post := none, reading := false }

/-- A core at reset. -/
def Core.reset : Core :=
  { queues := [], boxes := [], deque := [], arrival := [], spill := [], reserved := [], runList := [],
    forwards := [], lateDropped := 0, sent := [], received := [], spawned := 0, live := resetTable,
    staged := none, goLive := false, pos := 0, recent := [], objects := [], blocks := [],
    trace := .reset, issued := 0, bubbles := 0, parkedCycles := 0, boundary := 0,
    service := [], reached := [], buffer := [], cache := [] }

/-- An object just made live (R108). -/
def Obj.reset : Obj :=
  { tile1 := none, last := 0, cores := [], launch := 0, pid := 0, switched := false, work := none, marked := [], placed := 0 }

/-- An unbound queue register. -/
def QueueReg.reset : QueueReg :=
  { bound := false, prodCore := 0, prodSlot := 0, consCore := 0, consSlot := 0, entries := [] }

/-- A plane never loaded (R330). -/
def Plane.reset : Plane := { win := 0, cells := [], keys := [], sigs := [] }

/-- An accumulator after MZERO (R82, R97). -/
def Accum.reset : Accum :=
  { val := .fin false 0 0, m := none, k := 0, sig := Tag.exact, rounded := false }

/-- The engine at the start of a partition (R247, R252). -/
def Engine.reset : Engine :=
  { shadow := Vector.replicate 12 0, liveSet := Vector.replicate 12 0, claim := none, fresh := false, committed := none, live := none, suspended := [],
    held := [], counter := 0, nextNum := 1, qflags := 0 }

/-- A circular buffer at reset (R55). -/
def CircBuf.reset : CircBuf :=
  { base := 0, size := 0, count := 0, free := 0, filled := 0, head := 0, tail := 0, acquired := 0,
    filling := 0 }

/-- A tile at reset (R330). -/
def Tile.reset : Tile :=
  { live := .reset, shadow := .reset, accs := [], amode := .unset, queue := [], joining := [],
    mslots := [], gops := 0, opNum := 0, pendErr := [], leaving := [], covFp := false, cover := [], spans := 0,
    certs := [], engine := .reset, bufs := [] }

/-- A partition at reset (R336, R354, R397; log entry 3). -/
def Partition.reset : Partition :=
  { sgs := 0, pid := 0, valid := false, refused := false, largeMask := 0, fqbase := 0, fqsize := 64,
    fqhead := 0, fqtail := 0, fqlost := 0, fqsig := 0, ptab := 0, queues := [], patience := [],
    qdropped := [], placing := none, run := .running, nfRefused := false, nft := 0,
    evWaiting := false, writes := [], pokes := [], images := [] }

/-- Island i at reset, at its highest frequency (R399, R400; log entry 20). -/
def Island.reset (i : Nat) : Island :=
  { cap := if i % 4 = 3 then 34 else 17, powerCap := 0xFFFF, freq := if i % 4 = 3 then 34 else 17, power := 0, temp := 35, throttled := false,
    lastStep := 0, coolSince := 0, hotSince := none }

/-- The host link and the firmware's registers after Daybreak on a part with every unit up (R383, log
entries 3 and 20).  DESIGN CHOICE (log entries 10 and 20): no measurement and no repair-map digest stands until a DAYBREAK
reports them, and a quote before it reads zeros for them. -/
def Sys.reset : Sys :=
  { meridian := 0, hbhost := 0, hbSeen := 0, hbMisses := 0, hbArmed := false, hbdev := 0,
    hbdevAt := 0, hbAt := 0, hbmirror := 0, epoch := 0, fenced := false, hostDropped := 0, annvec := 0, alive := 0xFF,
    leader := 0, takeovers := 0, stamp := 0, gatemap := [], counters := [], depths := [],
    retired := [], sgmask := 0xFFFF, spareTiles := [],
    spareCores := [], dies := 0xFF, measures := [], maps := [], islands := [], withheld := [],
    peers := [], msixOn := [], msixPending := [], msixSent := [], shoots := [], journal := [], scrubs := [],
    dead := [], tmbase := 0, tmsize := 16, tmhead := 0, tmtail := 0, nonce := 0, qstate := 0,
    hostUp := true, quote := [], gone := [], mapout := [], hostRead := some [], hostError := false, tmAt := 0 }

/-- The part right after reset: Daybreak done, every memory listing nothing, no thread, no partition, no
message in flight. -/
def State.reset : State :=
  { cur := { core := 0, slot := 0 }, focus := 0, cached := false, agenda := [], mem := [], stags := [],
    poison := [], slots := [], cores := [], tiles := [], net := [], nodes := [], edges := [], posted := [], ranges := [],
    tlb := [], nextId := 1, ticket := 1, launches := [], chunks := [], parts := [], sys := .reset, free := 0 }

end Sys2Proof.Machine
end

