-- ==== Sys2Proof/Machine/FpCore.lean ====
section
/-! DEFINITION.  Floating-point layouts, exact values, the one rounding and NaN selection (R68, R70, R72), and
the correctly rounded functions (R75, R76).  Values are exact dyadic numbers; every result is rounded once. -/

namespace Sys2Proof.Machine

/-- A binary format of R68: exponent bits, fraction bits and bias. -/
structure Fmt where
  eb : Nat
  mb : Nat
  bias : Nat
  deriving DecidableEq, Repr

/-- FP64 of R68. -/
def f64 : Fmt := ⟨11, 52, 1023⟩
/-- FP32 of R68. -/
def f32 : Fmt := ⟨8, 23, 127⟩
/-- BF16 of R68. -/
def bf16 : Fmt := ⟨8, 7, 127⟩
/-- E5M2 of R68. -/
def e5m2 : Fmt := ⟨5, 2, 15⟩
/-- E4M3 of R68; its top exponent carries finite numbers, which its own functions handle. -/
def e4m3 : Fmt := ⟨4, 3, 7⟩
/-- The accumulator's format of R82. -/
def accFmt : Fmt := ⟨12, 47, 2047⟩

/-- The rounding modes of R69. -/
inductive Rm where
  | rne | rtz | rdn | rup
  deriving DecidableEq, Repr

/-- The mode of a two-bit code (R69). -/
def rmOf (n : Nat) : Rm := match n with | 0 => .rne | 1 => .rtz | 2 => .rdn | _ => .rup

/-- The exception flags, in the order NV, DZ, OF, UF, NX from bit 4 down (R69, R169). -/
abbrev Flags := BitVec 5
/-- Invalid. -/
def Flags.nv : Flags := 16
/-- Divide by zero. -/
def Flags.dz : Flags := 8
/-- Overflow. -/
def Flags.of : Flags := 4
/-- Underflow. -/
def Flags.uf : Flags := 2
/-- Inexact. -/
def Flags.nx : Flags := 1

/-- The sign bit of an encoding. -/
def Fmt.sign (f : Fmt) (x : Nat) : Bool := nbit x (f.eb + f.mb)
/-- The exponent field. -/
def Fmt.expField (f : Fmt) (x : Nat) : Nat := nfield x f.mb f.eb
/-- The fraction field. -/
def Fmt.frac (f : Fmt) (x : Nat) : Nat := nfield x 0 f.mb
/-- The exponent field of infinities and NaNs. -/
def Fmt.top (f : Fmt) : Nat := 2 ^ f.eb - 1
/-- Whether an encoding is a NaN (R68). -/
def Fmt.isNaN (f : Fmt) (x : Nat) : Bool := f.expField x == f.top && f.frac x != 0
/-- Whether an encoding is a signalling NaN (R68). -/
def Fmt.isSNaN (f : Fmt) (x : Nat) : Bool := f.isNaN x && !nbit x (f.mb - 1)
/-- Whether an encoding is an infinity (R68). -/
def Fmt.isInf (f : Fmt) (x : Nat) : Bool := f.expField x == f.top && f.frac x == 0
/-- Whether an encoding is ±0. -/
def Fmt.isZero (f : Fmt) (x : Nat) : Bool := f.expField x == 0 && f.frac x == 0
/-- Whether an encoding is finite. -/
def Fmt.isFinite (f : Fmt) (x : Nat) : Bool := f.expField x != f.top
/-- The sign bit in place. -/
def Fmt.signBit (f : Fmt) (neg : Bool) : Nat := if neg then 2 ^ (f.eb + f.mb) else 0
/-- ±infinity. -/
def Fmt.inf (f : Fmt) (neg : Bool) : Nat := f.signBit neg + f.top * 2 ^ f.mb
/-- The largest finite value with a sign. -/
def Fmt.maxFin (f : Fmt) (neg : Bool) : Nat := f.inf neg - 1
/-- The default NaN (R72). -/
def Fmt.nan (f : Fmt) : Nat := f.top * 2 ^ f.mb + 2 ^ (f.mb - 1)
/-- A NaN quieted, sign and payload kept (R72). -/
def Fmt.quiet (f : Fmt) (x : Nat) : Nat := if nbit x (f.mb - 1) then x else x + 2 ^ (f.mb - 1)
/-- The width of an encoding. -/
def Fmt.width (f : Fmt) : Nat := f.eb + f.mb + 1

/-- The exact value of an encoding (R68). -/
def Fmt.value (f : Fmt) (x : Nat) : FV :=
  if f.isNaN x then .nan
  else if f.isInf x then .inf (f.sign x)
  else if f.expField x = 0 then .fin (f.sign x) (f.frac x) (1 - f.bias - f.mb)
  else .fin (f.sign x) (2 ^ f.mb + f.frac x) ((f.expField x : Int) - f.bias - f.mb)

/-- Whether a magnitude is rounded away from zero, given the mode, the sign, whether the kept part is odd, and
how the discarded part compares with one half (R70). -/
def roundUp (rm : Rm) (neg odd : Bool) (rest half : Nat) (sticky : Bool) : Bool :=
  match rm with
  | .rne => decide (half < rest) || (decide (rest = half) && (sticky || odd)) 
  | .rtz => false
  | .rdn => neg && (decide (rest ≠ 0) || sticky)
  | .rup => !neg && (decide (rest ≠ 0) || sticky)

/-- A magnitude m * 2^e with something below it, cut to a multiple of 2^q and rounded; and whether that was
inexact. -/
def cutTo (rm : Rm) (neg : Bool) (m : Nat) (e q : Int) (sticky : Bool) : Nat × Bool :=
  if q ≤ e then
    let k := m * 2 ^ (e - q).toNat
    (if sticky && roundUp rm neg (k % 2 == 1) 0 1 true then k + 1 else k, sticky)
  else
    let sh := (q - e).toNat
    let k := m / 2 ^ sh
    let rest := m % 2 ^ sh
    (if roundUp rm neg (k % 2 == 1) rest (2 ^ (sh - 1)) sticky then k + 1 else k, decide (rest ≠ 0) || sticky)

/-- A finite magnitude rounded once to a format, with its flags (R70): overflow after rounding, tininess after
rounding.  sticky says that the exact value lies strictly above m * 2^e. -/
def roundFin (f : Fmt) (rm : Rm) (neg : Bool) (m : Nat) (e : Int) (sticky : Bool) : Nat × Flags :=
  if m = 0 ∧ sticky = false then (f.signBit neg, 0)
  else
    let top : Int := e + (Nat.log2 m : Int)
    let emin : Int := 1 - f.bias
    let q := max (top - f.mb) (emin - f.mb)
    let (k, inexact) := cutTo rm neg m e q sticky
    let bits := (q + f.mb + f.bias - 1).toNat * 2 ^ f.mb + k
    if f.top * 2 ^ f.mb ≤ bits then
      let big := match rm with | .rne => true | .rtz => false | .rdn => neg | .rup => !neg
      (if big then f.inf neg else f.maxFin neg, Flags.of ||| Flags.nx)
    else
      let free := cutTo rm neg m e (top - f.mb) sticky
      let tiny := decide (top < emin) && !(decide (top = emin - 1) && decide (2 ^ (f.mb + 1) ≤ free.1))
      (f.signBit neg + bits,
        (if inexact then Flags.nx else 0) ||| (if inexact && tiny then Flags.uf else 0))

/-- An exact value rounded once (R70). -/
def roundFV (f : Fmt) (rm : Rm) (v : FV) : Nat × Flags :=
  match v with
  | .fin n m e => roundFin f rm n m e false
  | .inf n => (f.inf n, 0)
  | .nan => (f.nan, 0)

/-- The exact sum of two values; an exact zero sum of opposite signs is +0, or -0 under RDN (R70). -/
def addFV (rm : Rm) (a b : FV) : FV :=
  match a, b with
  | .nan, _ => .nan
  | _, .nan => .nan
  | .inf n, .inf k => if n = k then .inf n else .nan
  | .inf n, _ => .inf n
  | _, .inf k => .inf k
  | .fin n m e, .fin k p d =>
    let q := min e d
    let x : Int := (if n then -1 else 1) * (m * 2 ^ (e - q).toNat : Nat) + (if k then -1 else 1) * (p * 2 ^ (d - q).toNat : Nat)
    if x = 0 then .fin (if n = k then n else decide (rm = .rdn)) 0 q
    else .fin (decide (x < 0)) x.natAbs q

/-- The exact product of two values. -/
def mulFV (a b : FV) : FV :=
  match a, b with
  | .nan, _ => .nan
  | _, .nan => .nan
  | .inf n, .inf k => .inf (n != k)
  | .inf n, .fin k p _ => if p = 0 then .nan else .inf (n != k)
  | .fin n m _, .inf k => if m = 0 then .nan else .inf (n != k)
  | .fin n m e, .fin k p d => .fin (n != k) (m * p) (e + d)

/-- The value with its sign inverted; a NaN is unchanged. -/
def negFV : FV → FV
  | .fin n m e => .fin (!n) m e
  | .inf n => .inf (!n)
  | .nan => .nan

/-- Comparison of two values that are not NaNs: -1, 0 or 1. -/
def cmpFV (a b : FV) : Int :=
  match a, b with
  | .inf n, .inf k => if n = k then 0 else if n then -1 else 1
  | .inf n, _ => if n then -1 else 1
  | _, .inf k => if k then 1 else -1
  | .fin n m e, .fin k p d =>
    let q := min e d
    let x : Int := (if n then -1 else 1) * (m * 2 ^ (e - q).toNat : Nat)
    let y : Int := (if k then -1 else 1) * (p * 2 ^ (d - q).toNat : Nat)
    if x < y then -1 else if x = y then 0 else 1
  | _, _ => 0

/-- The exponent of the leading bit of a value; none for zero, infinities and NaNs (R89). -/
def leadFV : FV → Option Int
  | .fin _ m e => if m = 0 then none else some (e + Nat.log2 m)
  | _ => none

/-! ### NaN selection (R72) -/

/-- The first NaN in operand order, quieted, with NV when any operand is a signalling NaN. -/
def pickNaN (f : Fmt) (xs : List Nat) : Option (Nat × Flags) :=
  match xs.find? (fun x => f.isNaN x) with
  | some x => some (f.quiet x, if xs.any (fun y => f.isSNaN y) then Flags.nv else 0)
  | none => none

/-- The default NaN of an invalid operation (R72). -/
def invalid (f : Fmt) : Nat × Flags := (f.nan, Flags.nv)

/-- A value rounded, or the default NaN with NV where the operation had none (R70, R72). -/
def finishFV (f : Fmt) (rm : Rm) (v : FV) : Nat × Flags :=
  match v with | .nan => invalid f | v => roundFV f rm v

/-! ### Arithmetic (R270, R273) -/

/-- VFADD. -/
def fpAdd (f : Fmt) (rm : Rm) (a b : Nat) : Nat × Flags :=
  match pickNaN f [a, b] with | some r => r | none => finishFV f rm (addFV rm (f.value a) (f.value b))

/-- The encoding with its sign bit inverted. -/
def Fmt.flip (f : Fmt) (x : Nat) : Nat :=
  if f.sign x then x - 2 ^ (f.eb + f.mb) else x + 2 ^ (f.eb + f.mb)

/-- VFSUB: a NaN keeps its own sign. -/
def fpSub (f : Fmt) (rm : Rm) (a b : Nat) : Nat × Flags :=
  match pickNaN f [a, b] with | some r => r | none => finishFV f rm (addFV rm (f.value a) (negFV (f.value b)))

/-- VFMUL. -/
def fpMul (f : Fmt) (rm : Rm) (a b : Nat) : Nat × Flags :=
  match pickNaN f [a, b] with | some r => r | none => finishFV f rm (mulFV (f.value a) (f.value b))

/-- A quotient of magnitudes rounded once. -/
def divFin (f : Fmt) (rm : Rm) (neg : Bool) (m : Nat) (e : Int) (p : Nat) (d : Int) : Nat × Flags :=
  let k := f.mb + 4 + Nat.log2 p
  roundFin f rm neg (m * 2 ^ k / p) (e - d - k) (decide (m * 2 ^ k % p ≠ 0))

/-- VFDIV. -/
def fpDiv (f : Fmt) (rm : Rm) (a b : Nat) : Nat × Flags :=
  match pickNaN f [a, b] with
  | some r => r
  | none =>
    match f.value a, f.value b with
    | .inf _, .inf _ => invalid f
    | .inf n, .fin k _ _ => (f.inf (n != k), 0)
    | .fin n _ _, .inf k => (f.signBit (n != k), 0)
    | .fin n m e, .fin k p d =>
      if p = 0 then (if m = 0 then invalid f else (f.inf (n != k), Flags.dz))
      else if m = 0 then (f.signBit (n != k), 0)
      else divFin f rm (n != k) m e p d
    | _, _ => invalid f

/-- The integer square root, bit by bit. -/
def isqrtGo (n : Nat) : Nat → Nat → Nat
  | 0, r => r
  | k + 1, r => isqrtGo n k (if (r + 2 ^ k) * (r + 2 ^ k) ≤ n then r + 2 ^ k else r)

/-- The largest number whose square is at most n. -/
def isqrt (n : Nat) : Nat := isqrtGo n (Nat.log2 n / 2 + 1) 0

/-- The square root of a finite magnitude rounded once. -/
def sqrtFin (f : Fmt) (rm : Rm) (m : Nat) (e : Int) : Nat × Flags :=
  let e2 := if e % 2 = 0 then e else e - 1
  let m2 := if e % 2 = 0 then m else 2 * m
  let k := f.mb + 4
  let r := isqrt (m2 * 4 ^ k)
  roundFin f rm false r (e2 / 2 - k) (decide (r * r ≠ m2 * 4 ^ k))

/-- VFSQRT: -0 gives -0, a negative operand the default NaN. -/
def fpSqrt (f : Fmt) (rm : Rm) (a : Nat) : Nat × Flags :=
  match pickNaN f [a] with
  | some r => r
  | none =>
    match f.value a with
    | .inf n => if n then invalid f else (f.inf false, 0)
    | .fin n m e => if m = 0 then (f.signBit n, 0) else if n then invalid f else sqrtFin f rm m e
    | .nan => invalid f

/-- VFMIN and VFMAX (R72): -0 is less than +0, and one NaN gives the other operand. -/
def fpMinMax (f : Fmt) (mx : Bool) (a b : Nat) : Nat × Flags :=
  let fl := if f.isSNaN a || f.isSNaN b then Flags.nv else 0
  if f.isNaN a && f.isNaN b then (f.quiet a, fl)
  else if f.isNaN a then (b, fl)
  else if f.isNaN b then (a, fl)
  else
    let c := cmpFV (f.value a) (f.value b)
    let less := decide (c < 0) || (decide (c = 0) && f.sign a && !f.sign b)
    (if less != mx then a else b, fl)

/-- VFMA and its siblings (R273): NaNs in the order addend, multiplier, multiplicand, each with its own sign;
a product of 0 and infinity raises NV even beside a NaN addend. -/
def fpFma (f : Fmt) (rm : Rm) (negP negC : Bool) (a b c : Nat) : Nat × Flags :=
  let p := mulFV (f.value a) (f.value b)
  let bad := !f.isNaN a && !f.isNaN b && decide (p = .nan)
  match pickNaN f [c, a, b] with
  | some (r, fl) => (r, if bad then fl ||| Flags.nv else fl)
  | none =>
    let p := if negP then negFV p else p
    let v := if negC then negFV (f.value c) else f.value c
    finishFV f rm (addFV rm p v)

/-- The relations of VFCMPEQ, VFCMPLT and VFCMPLE (R72, R271): codes 0, 1, 2. -/
def fpCompare (f : Fmt) (op a b : Nat) : Bool × Flags :=
  let snan := f.isSNaN a || f.isSNaN b
  if f.isNaN a || f.isNaN b then (false, if op = 0 then (if snan then Flags.nv else 0) else Flags.nv)
  else
    let c := cmpFV (f.value a) (f.value b)
    (match op with | 0 => decide (c = 0) | 1 => decide (c < 0) | _ => decide (c ≤ 0), 0)

/-- VFCLASS (R272). -/
def fpClass (f : Fmt) (x : Nat) : Nat :=
  if f.isNaN x then (if f.isSNaN x then 256 else 512)
  else if f.isInf x then (if f.sign x then 1 else 128)
  else if f.isZero x then (if f.sign x then 8 else 16)
  else if f.expField x = 0 then (if f.sign x then 4 else 32)
  else (if f.sign x then 2 else 64)

/-! ### Special functions (R75, R76) -/

/-- VRCP. -/
def fpRcp (rm : Rm) (a : Nat) : Nat × Flags :=
  match pickNaN f32 [a] with
  | some r => r
  | none =>
    match f32.value a with
    | .inf n => (f32.signBit n, 0)
    | .fin n m e => if m = 0 then (f32.inf n, Flags.dz) else divFin f32 rm n 1 0 m e
    | .nan => invalid f32

/-- VRSQ: a zero gives the infinity of its own sign, as R76 states. -/
def fpRsq (rm : Rm) (a : Nat) : Nat × Flags :=
  match pickNaN f32 [a] with
  | some r => r
  | none =>
    match f32.value a with
    | .inf n => if n then invalid f32 else (0, 0)
    | .fin n m e =>
      if m = 0 then (f32.inf n, Flags.dz)
      else if n then invalid f32
      else
        let e2 := if e % 2 = 0 then e else e - 1
        let m2 := if e % 2 = 0 then m else 2 * m
        let r := isqrt (4 ^ 80 / m2)
        roundFin f32 rm false r (-(e2 / 2) - 80) (decide (r * r * m2 ≠ 4 ^ 80))
    | .nan => invalid f32

/-- The fixed-point width of the exponential (log entry 18). -/
def expBits : Nat := 320

/-- 2^f in fixed point for a fraction f of n bits, most significant first: c is 2^(2^-i) for the bit at
hand. -/
def exp2Go (fr : Nat) : Nat → Nat → Nat → Nat
  | 0, _, acc => acc
  | n + 1, c, acc =>
    exp2Go fr n (isqrt (c * 2 ^ expBits)) (if fr / 2 ^ n % 2 = 1 then acc * c / 2 ^ expBits else acc)

/-- VEXP2 (R76): exact for integers, otherwise rounded once from a fixed-point value (log entry 18). -/
def fpExp2 (rm : Rm) (a : Nat) : Nat × Flags :=
  match pickNaN f32 [a] with
  | some r => r
  | none =>
    match f32.value a with
    | .inf n => if n then (0, 0) else (f32.inf false, 0)
    | .fin n m e =>
      if m = 0 then roundFin f32 rm false 1 0 false
      else if 0 ≤ e + 23 ∧ 9 ≤ e + (Nat.log2 m : Int) then
        (if n then roundFin f32 rm false 1 (-1000) false else roundFin f32 rm false 1 1000 false)
      else
        let k := (-e).toNat
        let i : Int := if 0 ≤ e then (m * 2 ^ e.toNat : Nat) else (m / 2 ^ k : Nat)
        let fr := if 0 ≤ e then 0 else m % 2 ^ k
        let whole : Int := if n then (if fr = 0 then -i else -i - 1) else i
        let fr := if n ∧ fr ≠ 0 then 2 ^ k - fr else fr
        if fr = 0 then roundFin f32 rm false 1 whole false
        else
          let v := exp2Go fr k (isqrt (2 ^ (2 * expBits + 1))) (2 ^ expBits)
          roundFin f32 rm false v (whole - expBits) true
    | .nan => invalid f32

/-- The fixed-point width of the logarithm (log entry 18). -/
def logBits : Nat := 400

/-- The binary digits of log2 y for y in [1, 2) in fixed point, by squaring. -/
def log2Go : Nat → Nat → Nat → Nat
  | 0, _, acc => acc
  | n + 1, y, acc =>
    let z := y * y / 2 ^ logBits
    if 2 ^ (logBits + 1) ≤ z then log2Go n (z / 2) (2 * acc + 1) else log2Go n z (2 * acc)

/-- VLOG2 (R76): exact for powers of two, otherwise rounded once (log entry 18). -/
def fpLog2 (rm : Rm) (a : Nat) : Nat × Flags :=
  match pickNaN f32 [a] with
  | some r => r
  | none =>
    match f32.value a with
    | .inf n => if n then invalid f32 else (f32.inf false, 0)
    | .fin n m e =>
      if m = 0 then (f32.inf true, Flags.dz)
      else if n then invalid f32
      else
        let l := Nat.log2 m
        let top : Int := e + l
        if m = 2 ^ l then roundFin f32 rm (decide (top < 0)) top.natAbs 0 false
        else
          let fr := log2Go 200 (m * 2 ^ (logBits - l)) 0
          -- the exact value lies strictly between (top * 2^200 + fr) and the next step
          let x : Int := top * 2 ^ 200 + fr
          if 0 ≤ x then roundFin f32 rm false x.natAbs (-200) true
          else roundFin f32 rm true (x.natAbs - 1) (-200) true
    | .nan => invalid f32

/-! ### FP8 (R68, R73, R74) -/

/-- The FP32 image of an E4M3 byte (R73). -/
def e4m3Image (b : Nat) : Nat :=
  let neg := nbit b 7
  if b % 128 = 127 then f32.signBit neg + f32.nan
  else
    let ef := nfield b 3 4
    let fr := nfield b 0 3
    if ef = 0 then (roundFin f32 .rne neg fr (-9) false).1 else (roundFin f32 .rne neg (8 + fr) ((ef : Int) - 10) false).1

/-- The FP32 image of an E5M2 byte (R73). -/
def e5m2Image (b : Nat) : Nat :=
  if e5m2.isNaN b then f32.signBit (e5m2.sign b) + f32.nan
  else (roundFV f32 .rne (e5m2.value b)).1

/-- The FP32 image of BF16 (R73). -/
def bf16Image (h : Nat) : Nat := h * 65536

/-- Narrowing a value to E4M3 (R74): saturation is decided on the exact value. -/
def toE4m3 (rm : Rm) (v : FV) (nanNeg snan : Bool) : Nat × Flags :=
  match v with
  | .nan => ((if nanNeg then 128 else 0) + 127, if snan then Flags.nv else 0)
  | .inf n => ((if n then 128 else 0) + 126, Flags.of)
  | .fin n m e =>
    if cmpFV (.fin false 448 0) (.fin false m e) < 0 then ((if n then 128 else 0) + 126, Flags.of ||| Flags.nx)
    else
      let r := roundFin ⟨5, 3, 7⟩ rm n m e false
      ((if n then 128 else 0) + r.1 % 128, r.2)

/-- Narrowing a value to E5M2 (R74). -/
def toE5m2 (rm : Rm) (sat : Bool) (v : FV) (nanNeg snan : Bool) : Nat × Flags :=
  match v with
  | .nan => ((if nanNeg then 128 else 0) + 126, if snan then Flags.nv else 0)
  | .inf n => (e5m2.inf n, 0)
  | .fin n m e =>
    let r := roundFin e5m2 rm n m e false
    if sat && (r.2 &&& Flags.of) != 0 then (e5m2.maxFin n, Flags.of ||| Flags.nx) else r

/-- Narrowing a value to BF16 (R74). -/
def toBf16 (rm : Rm) (v : FV) (nanNeg snan : Bool) : Nat × Flags :=
  match v with
  | .nan => (bf16.signBit nanNeg + 0x7FC0, if snan then Flags.nv else 0)
  | v => roundFV bf16 rm v

/-- Narrowing an FP64 encoding to FP32 (R74): a NaN keeps its sign and payload bits [51:29]. -/
def f64ToF32 (rm : Rm) (x : Nat) : Nat × Flags :=
  if f64.isNaN x then
    (f32.quiet (f32.signBit (f64.sign x) + f32.top * 2 ^ 23 + nfield x 29 23), if f64.isSNaN x then Flags.nv else 0)
  else roundFV f32 rm (f64.value x)

/-- Widening an FP32 encoding to FP64 (R73): a NaN is quieted, its payload left-aligned. -/
def f32ToF64 (x : Nat) : Nat × Flags :=
  if f32.isNaN x then
    (f64.quiet (f64.signBit (f32.sign x) + f64.top * 2 ^ 52 + f32.frac x * 2 ^ 29), if f32.isSNaN x then Flags.nv else 0)
  else roundFV f64 .rne (f32.value x)

end Sys2Proof.Machine
end

