-- ==== Sys2Proof/Machine/Ops.lean ====
section
/-! DEFINITION.  The named operations over registers, memory, messages and parks, and taking a trap and
returning from one (R12, R40, R129, R165, R169, R170, R347-R355, R370). -/

namespace Sys2Proof.Machine

/-- What a step of the part answers. -/
abbrev Out := Host.Outcome State Fault Refusal

/-! ### Slots, cores, tiles, partitions -/

/-- The key of a slot in State.slots. -/
def slotKey (w : Who) : Nat := w.core * 8 + w.slot

/-- The state of a slot. -/
def State.slot (s : State) (w : Who) : Slot := mapGet s.slots .reset (slotKey w)
/-- The state with another slot state. -/
def State.setSlot (s : State) (w : Who) (x : Slot) : State := { s with slots := mapPut s.slots (slotKey w) x }
/-- The slot whose instruction runs. -/
def State.me (s : State) : Slot := s.slot s.cur
/-- The state with the running slot replaced. -/
def State.setMe (s : State) (x : Slot) : State := s.setSlot s.cur x

/-- The state of a core. -/
def State.core (s : State) (c : Nat) : Core := mapGet s.cores .reset c
/-- The state with another core state. -/
def State.setCore (s : State) (c : Nat) (x : Core) : State := { s with cores := mapPut s.cores c x }
/-- The state of a tile. -/
def State.tile (s : State) (t : Nat) : Tile := mapGet s.tiles .reset t
/-- The state with another tile state. -/
def State.setTile (s : State) (t : Nat) (x : Tile) : State := { s with tiles := mapPut s.tiles t x }
/-- A partition. -/
def State.part (s : State) (p : Nat) : Partition := mapGet s.parts .reset p
/-- The state with another partition state. -/
def State.setPart (s : State) (p : Nat) (x : Partition) : State := { s with parts := mapPut s.parts p x }
/-- The state with other registers of the host link and firmware. -/
def State.setSys (s : State) (x : Sys) : State := { s with sys := x }

/-- The slots of a core that hold a thread. -/
def State.threads (s : State) (c : Nat) : List Nat :=
  (List.range (slotCount c)).filter (fun k => (s.slot ⟨c, k⟩).occ)

/-- Every slot that holds a thread. -/
def State.allThreads (s : State) : List Who :=
  (s.slots.filter (fun p => p.2.occ)).map (fun p => ⟨p.1 / 8, p.1 % 8⟩)

/-! ### Registers (R165) -/

/-- g[r]: g0 reads zero (R165). -/
def Slot.g (x : Slot) (r : BitVec 5) : Word := if r = 0 then 0 else x.regs.get r.toFin
/-- g[r] written: a write to g0 is discarded (R165, R188). -/
def Slot.setG (x : Slot) (r : BitVec 5) (v : Word) : Slot :=
  if r = 0 then x else { x with regs := x.regs.set r.toNat v r.isLt }

/-- p[k]: p0 reads true (R165). -/
def Slot.p (x : Slot) (k : BitVec 4) : Bool := if k = 0 then true else x.pw.getLsbD k.toNat
/-- p[k] written: a write to p0 is discarded (R165). -/
def Slot.setP (x : Slot) (k : BitVec 4) (b : Bool) : Slot :=
  if k = 0 then x
  else { x with pw := if b then x.pw ||| (1#16 <<< k.toNat) else x.pw &&& ~~~(1#16 <<< k.toNat) }

/-- Lane l of v[r] (R258). -/
def Slot.lane (x : Slot) (r : BitVec 4) (l : Nat) : W32 := x.lanes.toList.getD (4 * r.toNat + l % 4) 0
/-- The stored tag of lane l of v[r] (R88). -/
def Slot.tag (x : Slot) (r : BitVec 4) (l : Nat) : Tag := x.tags.toList.getD (4 * r.toNat + l % 4) Tag.exact
/-- Lane l of v[r] written with its tag. -/
def Slot.setLane (x : Slot) (r : BitVec 4) (l : Nat) (v : W32) (t : Tag) : Slot :=
  { x with lanes := x.lanes.setIfInBounds (4 * r.toNat + l % 4) v,
           tags := x.tags.setIfInBounds (4 * r.toNat + l % 4) t }

/-- A vector register field as a register number (R261). -/
def vnum (r : BitVec 5) : BitVec 4 := r.truncate 4

/-- g[r] of the running slot. -/
def State.g (s : State) (r : BitVec 5) : Word := s.me.g r
/-- The running slot's g[r] written. -/
def State.setG (s : State) (r : BitVec 5) (v : Word) : State := s.setMe (s.me.setG r v)
/-- g[n] of the running slot by number. -/
def State.gn (s : State) (n : Nat) : Word := s.me.g (BitVec.ofNat 5 n)
/-- g[n] written by number. -/
def State.setGn (s : State) (n : Nat) (v : Word) : State := s.setG (BitVec.ofNat 5 n) v

/-- The instruction completes: the PC moves past the word (R171). -/
def Slot.next (x : Slot) : Slot := { x with pc := x.pc + 4, turn := none, park := .ready }
/-- The instruction completes with a jump. -/
def Slot.jump (x : Slot) (t : Word) : Slot := { x with pc := t, turn := none, park := .ready }
/-- The running slot's PC moves past the word. -/
def State.advance (s : State) : State := s.setMe s.me.next
/-- The running slot jumps. -/
def State.jump (s : State) (t : Word) : State := s.setMe (s.me.jump t)

/-- A register result and the next PC: the shape of a register-only instruction (R188). -/
def State.result (s : State) (r : BitVec 5) (v : Word) : State := s.setMe ((s.me.setG r v).next)

/-! ### Memory bytes, side tags and poison (R6, R40, R366) -/

/-- The canonical form of a memory: addresses strictly rising, no byte listed that equals what an unlisted
address reads as, which is 0 (log entry 2). -/
def Memory.wf (m : List Host.Cell) : Bool := mapWf m (0 : Byte)

/-- One byte of memory. -/
def State.byte (s : State) (k : Nat) : Byte := mapGet s.mem (0 : Byte) k
/-- One byte of memory written. -/
def State.setByte (s : State) (k : Nat) (b : Byte) : State := { s with mem := mapSet s.mem (0 : Byte) k b }

/-- n bytes from k upward. -/
def State.bytes (s : State) (k : Nat) : Nat → List Byte
  | 0 => []
  | n + 1 => s.byte k :: s.bytes (k + 1) n

/-- Bytes written from k upward. -/
def State.setBytes (s : State) (k : Nat) : List Byte → State
  | [] => s
  | b :: r => (s.setByte k b).setBytes (k + 1) r

/-- n bytes from k as a little-endian number (R6). -/
def State.nat (s : State) (k n : Nat) : Nat := leNat (s.bytes k n)
/-- A number written as n little-endian bytes at k (R6). -/
def State.setNat (s : State) (k n x : Nat) : State := s.setBytes k (leBytes n x)

/-- The side tag of the scratchpad word that holds byte k (R40). -/
def State.sideTag (s : State) (k : Nat) : Tag := mapGet s.stags Tag.none (k / 4)
/-- A side tag written (R40). -/
def State.setSideTag (s : State) (k : Nat) (t : Tag) : State :=
  { s with stags := mapSet s.stags Tag.none (k / 4) t }

/-- Tag 62 written to every word of n bytes from k (R40). -/
def State.clearTags (s : State) (k n : Nat) : State :=
  (List.range (ceilDiv (k % 4 + n) 4)).foldl (fun s i => s.setSideTag (k + 4 * i) Tag.none) s

/-- The poison mark of a scratchpad word or an HBM codeword of 64 bytes (R203, R366). -/
def poisonKey (k : Nat) : Nat := if k < 2 ^ 60 then k / 4 else 2 ^ 60 + k / 64
/-- Whether byte k lies in a poisoned word or codeword. -/
def State.poisoned (s : State) (k : Nat) : Bool := mapGet s.poison false (poisonKey k)
/-- A poison mark set or cleared. -/
def State.setPoison (s : State) (k : Nat) (b : Bool) : State :=
  { s with poison := mapSet s.poison false (poisonKey k) b }
/-- Whether any of n bytes from k is poisoned. -/
def State.anyPoison (s : State) (k n : Nat) : Bool :=
  decide (s.poison ≠ []) && (List.range n).any (fun i => s.poisoned (k + i))

/-- The 64-byte codewords that a write of n bytes at a key covers whole, by first key. -/
def wholeWords (k n : Nat) : List Nat :=
  ((List.range (n / 64 + 1)).map (fun i => ceilDiv k 64 * 64 + 64 * i)).filter (fun c => decide (c + 64 ≤ k + n))
/-- The poison marks of the codewords that a write of n bytes covers whole, cleared (R366). -/
def State.clearWhole (s : State) (k n : Nat) : State :=
  if s.poison = [] then s else (wholeWords k n).foldl (fun s c => s.setPoison c false) s
/-- Bytes written to device or host memory; a codeword written whole loses its poison mark (R366). -/
def State.physWrite (s : State) (k : Nat) (bs : List Byte) : State := (s.setBytes k bs).clearWhole k bs.length
/-- Whether a write of n bytes touches a poisoned codeword without covering it (R366). -/
def State.partlyPoisoned (s : State) (k n : Nat) : Bool :=
  decide (s.poison ≠ []) && (List.range n).any (fun i => s.poisoned (k + i) && !(wholeWords k n).contains ((k + i) / 64 * 64))

/-- A store of bytes in scratchpad by anything but a tagged vector store: tag 62 (R40). -/
def State.storeSpad (s : State) (k : Nat) (bs : List Byte) : State :=
  (s.setBytes k bs).clearTags k bs.length

/-! ### Messages, tickets and parks -/

/-- A message sent. -/
def State.send (s : State) (src : Who) (rd : BitVec 5) (b : Body) : State :=
  { s with net := s.net ++ [{ id := s.nextId, src := src, rd := rd, body := b }], nextId := s.nextId + 1 }

/-- A message in flight by its number. -/
def State.msg? (s : State) (id : Nat) : Option Msg := s.net.find? (fun m => m.id == id)
/-- A message taken out of flight. -/
def State.drop (s : State) (id : Nat) : State := { s with net := s.net.filter (fun m => m.id != id) }
/-- The body of a message replaced. -/
def State.rebody (s : State) (id : Nat) (b : Body) : State :=
  { s with net := s.net.map (fun m => if m.id == id then { m with body := b } else m) }
/-- The messages sent before a message. -/
def State.earlier (s : State) (id : Nat) : List Msg := s.net.filter (fun m => decide (m.id < id))

/-- A slot's park replaced. -/
def State.setPark (s : State) (w : Who) (p : Park) : State := s.setSlot w { s.slot w with park := p }

/-- The running slot parks with its instruction to be issued again; an instruction that waits a second
time keeps its place (R12, log entry 5). -/
def State.parkOn (s : State) (c : Cond) : State :=
  match s.me.turn with
  | some t => s.setMe { s.me with park := .wait c t }
  | none => { s with ticket := s.ticket + 1 }.setMe { s.me with park := .wait c s.ticket, turn := some s.ticket }

/-- How many slots among the cores that a predicate names wait for the same thing and began before a slot whose
place is turn (R12, R56). -/
def State.ahead (s : State) (c : Cond) (turn : Option Nat) (among : Nat → Bool) : Nat :=
  (s.slots.filter (fun p => among (p.1 / 8) && (match p.2.park with
    | .wait d k => decide (d = c) && (match turn with | some t => decide (k < t) | none => true)
    | _ => false))).length

/-! ### Parties of a launch -/

/-- A launch by its number. -/
def State.launch? (s : State) (id : Nat) : Option Launch := s.launches.find? (fun l => l.id == id)
/-- A launch changed. -/
def State.updLaunch (s : State) (id : Nat) (f : Launch → Launch) : State :=
  { s with launches := s.launches.map (fun l => if l.id == id then f l else l) }

/-- Whether a launch holds a core (R338). -/
def Launch.holds (l : Launch) (core : Nat) : Bool := l.held.any (fun p => decide (p.1 ≤ core ∧ core < p.1 + p.2))
/-- The launch that holds a core (R338). -/
def State.holder (s : State) (core : Nat) : Option Launch := s.launches.find? (fun l => l.holds core)

/-- A message counted as sent by a core for a launch (R31). -/
def State.countSent (s : State) (c launch : Nat) : State :=
  let x := s.core c
  s.setCore c { x with sent := mapPut x.sent launch (mapGet x.sent 0 launch + 1) }
/-- A message counted as received by a core for a launch (R31). -/
def State.countReceived (s : State) (c launch : Nat) : State :=
  let x := s.core c
  s.setCore c { x with received := mapPut x.received launch (mapGet x.received 0 launch + 1) }

/-- Whether a core belongs to a partition: a small core by its super-group, a large core by the mask
(R332, R398). -/
def State.inPart (s : State) (p c : Nat) : Bool :=
  if isLarge c then bit (s.part p).largeMask (c - largeBase)
  else decide (c < 65536) && (s.part p).valid && (s.part p).sgs.getLsbD (sgOf c)

/-- The partition a super-group belongs to. -/
def State.partOf (s : State) (c : Nat) : Option Nat :=
  (List.range 16).find? (fun p => s.inPart p c)

/-- A core's reading of Meridian, up to 2 ns from the package's (R34; log entry 8). -/
def State.clock (s : State) (c : Nat) : Nat := s.sys.meridian + Config.skew c % 3

/-- Whether a core runs (R344, R385): with a stop agreed for T it does until it stands at a frame boundary at or after
T by its own reading, and it does not before the restart. -/
def State.coreRuns (s : State) (c : Nat) : Bool :=
  match s.partOf c with
  | none => true
  | some p =>
    match (s.part p).run with
    | .running => true
    | .eventide t => decide ((s.core c).pos ≠ 0) || decide (s.clock c < t)
    | .stopping t => decide ((s.core c).pos ≠ 0) || decide (s.clock c < t)
    | _ => false

/-- The instant at which a core stopped for T: its frame boundary at or after T by its own reading (R344, R385, R387). -/
def State.stoppedAt (s : State) (c t : Nat) : Nat := max t (s.core c).boundary

/-! ### Signals and fault records (R341, R354, R355) -/

/-- A saturating count added to an error counter of R393. -/
def State.count (s : State) (off n : Nat) : State :=
  s.setSys { s.sys with counters := mapPut s.sys.counters off (min (2 ^ 64 - 1) (mapGet s.sys.counters 0 off + n)) }

/-- A poison mark set and counted, unless the word or codeword has one (R366, R393). -/
def State.markPoison (s : State) (k : Nat) : State := if s.poisoned k then s else (s.setPoison k true).count 0x138 1

/-- An MSI-X vector raised, or held pending when the host has not enabled it (R371). -/
def State.msix (s : State) (v : Nat) : State :=
  if s.sys.msixOn.contains v then s.setSys { s.sys with msixSent := s.sys.msixSent ++ [v] }
  else if s.sys.msixPending.contains v then s
  else s.setSys { s.sys with msixPending := s.sys.msixPending ++ [v] }

/-- A signal word acted on: a mailbox message of the distributor's sender word, or an MSI-X (R341, R342). -/
def State.signal (s : State) (sig : Word) (payload : List Word) (launch : Nat) : State :=
  match field sig 62 2 with
  | 1 =>
    let box := field sig 16 4
    s.send ⟨2 ^ 20, 0⟩ 0 (.mail (field sig 0 16) box
      { payload := payload, sender := dbl (box * 2 ^ 20 + 0xEFFFF), gone := false } false true false launch)
  | 2 => s.msix (field sig 0 11)
  | _ => s

/-- The code of a cause (R177). -/
def Cause.code : Cause → Nat
  | .illegal => 1 | .priv => 2 | .align => 3 | .access => 4 | .page => 5 | .prot => 6
  | .rangeLocked => 7 | .sigfloor => 8 | .fpexc => 9 | .bounds => 10 | .poison => 11
  | .syscall => 12 | .brk => 13 | .trap => 14 | .queue => 15 | .sync => 16 | .migrate => 17
  | .mtxerr => 18 | .fenced => 19

/-- A fault-queue record (R355); code stands for the cause where the manual states none (log entry 30). -/
structure FaultRec where
  cause : Cause
  agent : Nat
  id : Nat
  slot : Nat
  addr : Word
  cursor : Word
  detail : Word
  pid : BitVec 16
  code : Option Nat := none

/-- The 64 bytes of a fault-queue record (R355). -/
def FaultRec.bytes (r : FaultRec) (seq stamp : Nat) : List Byte :=
  leBytes 8 seq ++ leBytes 8 stamp ++
  leBytes 8 (r.pid.toNat + r.code.getD r.cause.code % 2 ^ 8 * 2 ^ 16 + r.agent * 2 ^ 24 + r.id % 2 ^ 16 * 2 ^ 32 + r.slot % 8 * 2 ^ 48) ++
  leBytes 8 r.addr.toNat ++ leBytes 8 r.cursor.toNat ++ leBytes 8 r.detail.toNat ++ leBytes 16 0

/-- A record posted to a partition's fault ring, or dropped and counted when the ring is full; the signal is
sent when the ring goes from empty to non-empty (R354).  The launch's fault count rises (R342). -/
def State.post (s : State) (p : Nat) (launch : Nat) (r : FaultRec) : State :=
  let s := s.updLaunch launch (fun l => { l with faults := min (2 ^ 32 - 1) (l.faults + 1) })
  let q := s.part p
  if q.fqsize ≤ q.fqtail - q.fqhead then
    (s.setPart p { q with fqlost := min (2 ^ 64 - 1) (q.fqlost + 1) }).count 0x158 1
  else
    let s := s.physWrite (devKey (q.fqbase.toNat + 64 * (q.fqtail % q.fqsize))) (r.bytes q.fqtail s.sys.meridian)
    let s := s.setPart p { q with fqtail := q.fqtail + 1 }
    if q.fqtail = q.fqhead then s.signal q.fqsig [] 0 else s

/-- A record posted in every partition that exists (R374, R395). -/
def State.postAll (s : State) (r : FaultRec) : State :=
  ((List.range 16).filter (fun p => (s.part p).valid)).foldl (fun s p => s.post p 0 r) s

/-! ### The end of a thread (R243, R250, R289, R370) -/

/-- The slot of a tile parked earliest for the shadow claim (R250). -/
def State.claimWaiter (s : State) (tile : Nat) : Option Who :=
  let ws := s.slots.filterMap (fun p => match p.2.park with
    | .wait .claim k => if tileOf (p.1 / 8) = tile ∧ p.2.occ then some (k, p.1) else none
    | _ => none)
  (ws.foldl (fun r q => match r with | some x => if x.1 ≤ q.1 then some x else some q | none => some q) none).map
    (fun q => ⟨q.2 / 8, q.2 % 8⟩)

/-- A free claim passes to the earliest parked ECW, EGO or AFETCH, unless a committed shadow still waits (R250). -/
def State.handClaim (s : State) (tile : Nat) : State :=
  let t := s.tile tile
  if t.engine.claim.isSome || t.engine.committed.isSome then s
  else match s.claimWaiter tile with
    | some w => s.setTile tile { t with engine := { t.engine with claim := some w, fresh := true } }
    | none => s

/-- The claim on a tile's engine released (R250). -/
def State.dropClaim (s : State) (tile : Nat) : State :=
  let t := s.tile tile
  (s.setTile tile { t with engine := { t.engine with claim := none, fresh := false } }).handClaim tile

/-- The claim on the tile engine released by a claimant that leaves its slot (R250). -/
def State.unclaim (s : State) (w : Who) : State :=
  if isLarge w.core then s
  else if (s.tile (tileOf w.core)).engine.claim = some w then s.dropClaim (tileOf w.core) else s

/-- A core whose matrix slot leaves the gang (R289); the parked members wake in GANG_LEAVE. -/
def State.leaveGang (s : State) (w : Who) : State :=
  if isLarge w.core then s
  else
    let t := s.tile (tileOf w.core)
    let c := w.core % 16
    if mapGet t.mslots 8 c = w.slot then
      s.setTile (tileOf w.core) { t with mslots := mapErase t.mslots c, leaving := t.leaving ++ [c] }
    else s

/-- Whether a routine is the work of an object's owner. -/
def Routine.ownedAt (r : Routine) (a : Nat) : Bool :=
  match r with
  | .caller .. => false
  | .delegated d _ => d == a
  | .action d => d == a

/-- A slot that no longer owns an object: its running work there is abandoned (R124). -/
def Slot.departs (x : Slot) (a : Nat) : Slot :=
  { x with serving := none, routines := x.routines.filter (fun r => !r.ownedAt a) }

/-- A serving owner's departure is sent to the home (R123). -/
def State.departOwner (s : State) (w : Who) : State :=
  match (s.slot w).serving with
  | some d => (s.setSlot w ((s.slot w).departs d)).send w 0 (.sync d (.depart w))
  | none => s

/-- The context of a slot is gone: everything the thread holds in its core, tile and launch is released, and
the slot is free.  The supervisor and machine CSRs stay, since firmware installs the handlers per slot
(R347, R348). -/
def State.freeSlot (s : State) (w : Who) : State :=
  let x := s.slot w
  s.setSlot w { Slot.reset with
    sup := { x.sup with status := 0 }, mach := { x.mach with status := 0 }, debug := x.debug, traps := x.traps }

/-- A phase task that ends before SYNCDONE abandons its action, which its home places again (R124, R243). -/
def State.abandon (s : State) (w : Who) : State :=
  match (s.slot w).kind, (s.slot w).routines with
  | .phaseTask _, .action d :: _ => s.send w 0 (.sync d (.abandon w))
  | _, _ => s

/-- A thread leaves its slot by EXIT or kill: its owner role, engine claim and gang membership end, and a
spawned context lowers its spawner core's count (R243). -/
def State.endThread (s : State) (w : Who) : State :=
  let s := (((s.departOwner w).abandon w).unclaim w).leaveGang w
  let s := match (s.slot w).kind with
    | .spawned p => s.setCore p { s.core p with spawned := (s.core p).spawned - 1 }
    | _ => s
  s.freeSlot w

/-- The sender word of a thread (R227). -/
def senderWord (w : Who) (box : Nat) : Word :=
  if isLarge w.core then dbl (box * 2 ^ 20 + w.slot * 2 ^ 17 + 2 ^ 16 + (w.core - largeBase))
  else dbl (box * 2 ^ 20 + w.slot * 2 ^ 17 + w.core)

/-- Whether a migrating slot's context has been accepted at its destination, so that it lives there (R27). -/
def State.movedAway (s : State) (x : Slot) : Bool :=
  match x.park with
  | .migrating id =>
    match s.msg? id with
    | some m => (match m.body with | .packet _ _ _ 1 _ => true | _ => false)
    | none => false
  | _ => false

/-- A thread killed (R370): its locks pass on, a waiting request is marked, its watch is cleared, an owner
departs, its launch ends KILLED, and peers that hold its work will receive CONTEXT_GONE.  DESIGN CHOICE (log entry 34): the
packet of a thread killed while its migration is in flight is dropped, so that it counts as sent and never as received. -/
def State.kill (s : State) (w : Who) : State :=
  let x := s.slot w
  if !x.occ || s.movedAway x then s
  else
    let s := x.locks.foldl (fun s d => s.send w 0 (.sync d (.releaseOf w))) s
    let s := match x.park with
      | .migrating id => s.drop id
      | .lock d id =>
        { s with net := s.net.filter (fun m => match m.body with
          | .sync _ (.waiting _) => m.id != id
          | _ => true) }.send w 0 (.sync d (.killMark w))
      | _ => s
    let s := s.updLaunch x.launch (fun l => { l with status := 6 })
    let s := s.setSys { s.sys with gone := s.sys.gone ++ [senderWord w 0] }
    s.endThread w

/-! ### Taking a trap and returning (R170, R347-R352) -/

/-- The delegation bit of a cause in csr.udeleg (R169). -/
def Cause.delegBit : Cause → Option Nat
  | .rangeLocked => some 7 | .sigfloor => some 8 | .fpexc => some 9 | .trap => some 14
  | _ => none

/-- Whether a cause is delegated to the user handler (R170). -/
def Slot.userTrap (x : Slot) (c : Cause) : Bool :=
  decide (x.mode = .user) && decide (x.csr.utvec ≠ 0) && !x.csr.uinh &&
  (match c.delegBit with | some k => x.csr.udeleg.getLsbD k | none => false)

/-- Whether a trap goes to the machine handler rather than the supervisor handler (R350). -/
def Slot.toMachine (x : Slot) (c : Cause) (value : Word) : Bool :=
  decide (x.mode = .machine) || x.sup.status.getLsbD 0 || decide (x.sup.tvec = 0) ||
  (decide (c = .syscall) && decide (x.mode = .super)) ||
  (decide (c = .priv) && decide (x.mode = .super) && decide (value = wordOf .eret))

/-- The status word of an entry: inh with the mode at entry (R349). -/
def entryStatus (m : Mode) : BitVec 3 :=
  match m with | .user => 1 | .super => 3 | .machine => 5

/-- Taking an exception (R170, R350): the saved PC, cause and value are written, the status holds the mode at
entry and inh, and the slot continues at the handler; with no machine handler available the thread is
killed and a record posted. -/
def State.enterTrap (s : State) (w : Who) (c : Cause) (value : Word) : State :=
  let x := { s.slot w with park := .ready, turn := none, pend := none, traps := (s.slot w).traps + 1 }
  if x.userTrap c then
    s.setSlot w { x with
      csr := { x.csr with uepc := x.pc, ucause := BitVec.ofNat 8 c.code, utval := value, uinh := true }
      pc := x.csr.utvec }
  else if x.toMachine c value then
    if x.mach.status.getLsbD 0 || decide (x.mach.tvec = 0) then
      (s.kill w).post x.part x.launch
        { cause := c, agent := 0, id := w.core, slot := w.slot, addr := value, cursor := x.pc, detail := 0, pid := x.pid }
    else
      s.setSlot w { x with
        mach := { x.mach with epc := x.pc, cause := dbl c.code, tval := value, status := entryStatus x.mode }
        mode := .machine, pc := x.mach.tvec }
  else
    s.setSlot w { x with
      sup := { x.sup with epc := x.pc, cause := dbl c.code, tval := value, status := entryStatus x.mode }
      mode := .super, pc := x.sup.tvec }

/-- The relaxed accesses of a slot whose reply is outstanding (R128). -/
def Slot.outstanding (x : Slot) : List Relaxed := x.relaxed.filter (fun r => r.fault.isNone)
/-- The oldest relaxed access that carries a cause (R128). -/
def Slot.relaxedFault (x : Slot) : Option (Relaxed × Cause × Word) :=
  match x.relaxed.find? (fun r => r.fault.isSome) with
  | some r => match r.fault with | some (c, v) => some (r, c, v) | none => none
  | none => none

/-- csr.sigtrap as an entry leaves it: what the SIGFLOOR that is taken writes (R102). -/
def Slot.noteSig (x : Slot) (sig : Option (BitVec 29)) : Slot :=
  match sig with
  | some v => { x with csr := { x.csr with sigtrap := v } }
  | none => x

/-- Entry once the relaxed accesses are complete: one of them that carries a cause displaces it, and then no SIGFLOOR
writes csr.sigtrap (R102, R350). -/
def State.trapNow (s : State) (w : Who) (p : Pending) : State :=
  match (s.slot w).relaxedFault with
  | some (r, c', v) =>
    (s.setSlot w { s.slot w with relaxed := (s.slot w).relaxed.filter (fun q => q.id != r.id) }).enterTrap w c' v
  | none => (s.setSlot w ((s.slot w).noteSig p.sigtrap)).enterTrap w p.cause p.value

/-- A slot takes a trap precisely at its PC; it first waits for its relaxed accesses (R350). -/
def State.trapWith (s : State) (w : Who) (p : Pending) : State :=
  let x := s.slot w
  if x.outstanding.isEmpty then s.trapNow w p
  else s.setSlot w { x with pend := some p, park := .wait .relaxed s.ticket }

/-- A slot takes a cause. -/
def State.trapAt (s : State) (w : Who) (c : Cause) (value : Word) : State := s.trapWith w { cause := c, value := value }

/-- The running slot takes a cause (Trap of R186). -/
def State.raise (s : State) (c : Cause) (value : Word) : State := s.trapAt s.cur c value

/-- The mode a status word returns to; 3 returns to USER (R351). -/
def statusMode (st : BitVec 3) : Mode :=
  match st.toNat / 2 with | 1 => .super | 2 => .machine | _ => .user

/-- The slot returns past its SYSCALL to the mode it came from (R305, R351). -/
def Slot.syscallReturn (x : Slot) : Slot :=
  { x with park := .ready, turn := none, pc := x.sup.epc + 4, mode := statusMode x.sup.status,
           sup := { x.sup with status := x.sup.status &&& 6 } }

/-- Return from a handler (R170, R306, R351): the PC and mode come back from the saved registers and inh
clears; with inh = 0 ERET takes PRIV. -/
def State.returnTrap (s : State) : State :=
  let x := s.me
  match x.mode with
  | .user =>
    if x.csr.uinh then s.setMe ({ x with csr := { x.csr with uinh := false } }.jump x.csr.uepc)
    else s.raise .priv (wordOf .eret)
  | .super =>
    if x.sup.status.getLsbD 0 then
      s.setMe ({ x with sup := { x.sup with status := x.sup.status &&& 6 }, mode := statusMode x.sup.status }.jump x.sup.epc)
    else s.raise .priv (wordOf .eret)
  | .machine =>
    if x.mach.status.getLsbD 0 then
      s.setMe ({ x with mach := { x.mach with status := x.mach.status &&& 6 }, mode := statusMode x.mach.status }.jump x.mach.epc)
    else s.raise .priv (wordOf .eret)

/-! ### The waits before an instruction (R128, R129, R215) -/

/-- The unacknowledged operations of a slot (R214). -/
def Slot.unackedNow (x : Slot) : List Unacked := x.unacked.filter (fun u => u.fault.isNone)

/-- WaitRelaxed: park while a relaxed access is outstanding, then take the first cause one carries
(R128, R129). -/
def State.waitRelaxed (s : State) (k : State → State) : State :=
  if !s.me.outstanding.isEmpty then s.parkOn .relaxed
  else match s.me.relaxedFault with
    | some (r, c, v) =>
      (s.setMe { s.me with relaxed := s.me.relaxed.filter (fun q => q.id != r.id) }).enterTrap s.cur c v
    | none => k s

/-- WaitAcks: park while an acknowledgement is outstanding, then take the causes they carry one at a time in
issue order (R129, R215). -/
def State.waitAcks (s : State) (k : State → State) : State :=
  if !s.me.unackedNow.isEmpty then s.parkOn .acks
  else match s.me.unacked with
    | u :: rest =>
      match u.fault with
      | some (c, v) => (s.setMe { s.me with unacked := rest }).trapAt s.cur c v
      | none => k s
    | [] => k s

/-- Both waits of R129. -/
def State.waitBoth (s : State) (k : State → State) : State := s.waitRelaxed (fun s => s.waitAcks k)

/-- A small core only: the instruction takes ILLEGAL on a large core (R176, R221). -/
def State.smallOnly (s : State) (i : Instr) (k : State → State) : State :=
  if isLarge s.cur.core then s.raise .illegal (wordOf i) else k s

/-! ### Starting a thread (R17, R20, R25) -/

/-- A slot that starts at a PC with the state of R17. -/
def Slot.start (x : Slot) (pc g3 : Word) (pid : BitVec 16) (part launch : Nat) (kind : ThreadKind) : Slot :=
  { (Slot.reset.setG 3 g3) with
    occ := true, pc := pc, pid := pid, part := part, launch := launch, kind := kind, sup := x.sup, mach := x.mach
    debug := x.debug, traps := x.traps }

/-- A context restored in a slot with the state of R25 and the CSRs of R224. -/
def Slot.restore (x : Slot) (c : Ctx) : Slot :=
  let y := x.start c.pc c.g3 c.pid c.part c.launch c.kind
  { y with
    pw := c.pw ||| 1
    thread := c.thread
    lastStamp := c.stamp
    regs := (List.range 32).foldl (fun v k =>
      if k ≠ 0 ∧ k ≠ 3 ∧ c.mask.getLsbD k then v.setIfInBounds k (c.regs.toList.getD k 0) else v) y.regs
    csr := { y.csr with fpctl := c.fpctl, winsig := c.winsig, olscale := c.olscale, sigfloor := c.sigfloor } }

/-- The top of a slot's stack in its core's share, where g2 starts (R340). -/
def stackTop (core slot : Nat) : Word := dbl (core * 1048576 + reservedBase - 4096 * slot)

end Sys2Proof.Machine
end

