-- ==== Sys2Proof/Machine/Flags.lean ====
section
/-! DEFINITION.  Floating-point flags and the significance floor: csr.fpctl (R69, R71), the tag rules of R89-R92,
and csr.sigfloor with csr.sigtrap (R100-R102). -/

namespace Sys2Proof.Machine

/-- csr.fpctl.rm as a rounding mode (R69). -/
def Slot.rm (x : Slot) : Rm := rmOf (x.csr.fpctl.toNat % 4)
/-- csr.fpctl.sat (R69). -/
def fpSat (c : BitVec 13) : Bool := c.getLsbD 12
/-- The accrued flags of csr.fpctl (R69). -/
def fpFlags (c : BitVec 13) : Flags := BitVec.ofNat 5 (c.toNat / 4)
/-- The trap enables of csr.fpctl (R69). -/
def fpEnables (c : BitVec 13) : Flags := BitVec.ofNat 5 (c.toNat / 128)
/-- Flags accrued into csr.fpctl (R71). -/
def accrue (c : BitVec 13) (f : Flags) : BitVec 13 := c ||| BitVec.ofNat 13 (f.toNat * 4)
/-- Flags accrued by a slot (R71). -/
def Slot.accrue (x : Slot) (f : Flags) : Slot := { x with csr := { x.csr with fpctl := Machine.accrue x.csr.fpctl f } }
/-- Whether a raised flag is enabled (R71). -/
def trapsOn (c : BitVec 13) (f : Flags) : Bool := (f &&& fpEnables c) != 0

/-! ### Tags (R88-R92) -/

/-- The full count of a format (R88). -/
def Fmt.full (f : Fmt) : Nat := f.mb + 1

/-- A tag read as an operand of a format (R90). -/
def readTag (full : Nat) (t : Tag) : Tag := if t.toNat ≤ full ∨ t = 63 then t else BitVec.ofNat 6 full

/-- E of R89: the exponent of the leading bit, and for ±0 one below the smallest subnormal. -/
def Fmt.lead (f : Fmt) (x : Nat) : Int :=
  match leadFV (f.value x) with | some e => e | none => -(f.bias : Int) - f.mb

/-- A of R89: the available count of a finite result. -/
def Fmt.avail (f : Fmt) (x : Nat) : Nat :=
  if f.expField x = 0 then (f.lead x + f.bias + f.mb).toNat else f.full

/-- U of R89; none is -∞, the value of an EXACT tag. -/
def uncert (e : Int) (t : Tag) : Option Int := if t = 63 then none else some (e - t.toNat + 1)

/-- clamp(…, 0, full) of R89, which clamps to the available count of the result. -/
def Fmt.clampTag (f : Fmt) (res : Nat) (x : Int) : Tag :=
  BitVec.ofNat 6 (min (max x 0).toNat (f.avail res))

/-- The multiply row of R91 before its clamp. -/
def mulTag (a b : Tag) : Int :=
  let m : Int := min a.toNat b.toNat
  if a = b ∧ a ≠ 63 then m - 1 else m

/-- The add row of R91 before its clamp, from the exponent of the result and the operands' uncertainties. -/
def addTag (e : Int) (ua ub : Option Int) : Int :=
  match ua, ub with
  | none, none => e + 1
  | some u, none => e - u + 1
  | none, some u => e - u + 1
  | some u, some v => e - max u v - (if u = v then 1 else 0) + 1

/-- The first rows of R91 and R92, in order: every input EXACT; a result that is ±∞ or a NaN; a zero result;
then the operation's own row. -/
def Fmt.tagOf (f : Fmt) (allExact : Bool) (res : Nat) (fl : Flags) (row : Tag) : Tag :=
  let exact := (fl &&& (Flags.nx ||| Flags.of ||| Flags.nv)) == 0
  if allExact then (if exact then Tag.exact else if f.isFinite res then BitVec.ofNat 6 (f.avail res) else 0)
  else if !f.isFinite res then 0
  else if f.isZero res then 0
  else row

/-- The union of the flags of every element (R71). -/
def unionFlags (es : List Elem) : Flags := es.foldl (fun f e => f ||| e.fl) 0

/-- Whether a result falls below the floor (R100, R101). -/
def belowFloor (c : BitVec 7) (t : Tag) : Bool := c.getLsbD 6 && decide (t.toNat < c.toNat % 64)

/-- csr.sigtrap for a lane below the floor (R102). -/
def sigtrapWord (e : Elem) (fmt lane : Nat) : BitVec 29 :=
  BitVec.ofNat 29 (lane + fmt * 4 + e.tag.toNat * 2 ^ 5 + e.ta.toNat * 2 ^ 11 + e.tb.toNat * 2 ^ 17 + e.tc.toNat * 2 ^ 23)

/-- The first element, counted from lane k in steps of st, that is finite and below the floor. -/
def firstBelow (c : BitVec 7) (st : Nat) : Nat → List Elem → Option (Nat × Elem)
  | _, [] => none
  | k, e :: r => if e.finite && belowFloor c e.tag then some (k, e) else firstBelow c st (k + st) r

/-- The last steps of R259: flags accrue; an enabled flag takes FPEXC; a checked lane below the floor takes
SIGFLOOR, whose entry writes csr.sigtrap (R102); otherwise the results are written and the instruction completes. -/
def State.finishFp (s : State) (fmt step : Nat) (es checked : List Elem) (write : Slot → Slot) : State :=
  let fl := unionFlags es
  let x := s.me.accrue fl
  if trapsOn s.me.csr.fpctl fl then (s.setMe x).raise .fpexc (dbl fl.toNat)
  else match firstBelow x.csr.sigfloor step 0 checked with
    | some (lane, e) =>
      (s.setMe x).trapWith s.cur { cause := .sigfloor, value := 0, sigtrap := some (sigtrapWord e fmt lane) }
    | none => s.setMe (write x).next

end Sys2Proof.Machine
end

