-- ==== Sys2Proof/Machine/Operands.lean ====
section
/-! DEFINITION.  Vector operands and results by format (R90, R93, R258, R259): elements with their tags, read
and written whole. -/

namespace Sys2Proof.Machine

/-- Whether a floating-point format works on FP64 (R174, R258). -/
def fmtDouble (f : BitVec 3) : Bool := f == 1 || f == 3
/-- The layout of a format's elements (R258). -/
def fmtOf (f : BitVec 3) : Fmt := if fmtDouble f then f64 else f32
/-- The step from one element's lane to the next. -/
def fmtStep (f : BitVec 3) : Nat := if fmtDouble f then 2 else 1

/-- Double j of v[r] (R258). -/
def Slot.double (x : Slot) (r : BitVec 4) (j : Nat) : Word := joinW (x.lane r (2 * j)) (x.lane r (2 * j + 1))
/-- Double j written, the same tag to both lanes (R90). -/
def Slot.setDouble (x : Slot) (r : BitVec 4) (j : Nat) (v : Word) (t : Tag) : Slot :=
  (x.setLane r (2 * j) (lowW v) t).setLane r (2 * j + 1) (highW v) t

/-- Element k of a floating-point operand (R258). -/
def Slot.elem (x : Slot) (f : BitVec 3) (r : BitVec 4) (k : Nat) : Nat :=
  if fmtDouble f then (x.double r k).toNat else (x.lane r k).toNat
/-- The stored tag of element k: an FP64 operand takes it from the even lane (R90). -/
def Slot.elemTag (x : Slot) (f : BitVec 3) (r : BitVec 4) (k : Nat) : Tag :=
  if fmtDouble f then x.tag r (2 * k) else x.tag r k
/-- The tag of element k as an operand (R90). -/
def Slot.elemSig (x : Slot) (f : BitVec 3) (r : BitVec 4) (k : Nat) : Tag := readTag (fmtOf f).full (x.elemTag f r k)
/-- Element k of a result written with its tag (R90). -/
def Slot.setElem (x : Slot) (f : BitVec 3) (r : BitVec 4) (k : Nat) (v : Nat) (t : Tag) : Slot :=
  if fmtDouble f then x.setDouble r k (BitVec.ofNat 64 v) t else x.setLane r k (BitVec.ofNat 32 v) t

/-- Results written to the elements of v[r] in order; the elements a format does not name keep data and tags
(R90). -/
def Slot.setElems (x : Slot) (f : BitVec 3) (r : BitVec 4) : Nat → List Elem → Slot
  | _, [] => x
  | k, e :: es => (x.setElem f r k e.val e.tag).setElems f r (k + 1) es

/-- The tag of a value from a general register: w0, or 53 for an FP64 image when w0 = 24 (R41, R93). -/
def w0Tag (winsig : BitVec 48) (double : Bool) : Tag :=
  let t := BitVec.ofNat 6 winsig.toNat
  if double && t == 24 then 53 else t

/-- A field of csr.winsig (R42). -/
def winTag (winsig : BitVec 48) (w : Nat) : Tag := BitVec.ofNat 6 (winsig.toNat / 2 ^ (6 * w))

/-- The integer element widths of major 0x25 (R174). -/
def intWidth (f : BitVec 3) : Nat := 8 * 2 ^ (f.toNat % 4)
/-- Whether an integer format is unsigned (R174). -/
def intUnsigned (f : BitVec 3) : Bool := decide (4 ≤ f.toNat)

/-- The 128 bits of v[r] as a number (R258). -/
def Slot.vnat (x : Slot) (r : BitVec 4) : Nat :=
  (x.lane r 0).toNat + (x.lane r 1).toNat * 2 ^ 32 + (x.lane r 2).toNat * 2 ^ 64 + (x.lane r 3).toNat * 2 ^ 96
/-- v[r] written from 128 bits, every lane tagged as given. -/
def Slot.setVnat (x : Slot) (r : BitVec 4) (n : Nat) (t : Nat → Tag) : Slot :=
  (List.range 4).foldl (fun x l => x.setLane r l (BitVec.ofNat 32 (n / 2 ^ (32 * l))) (t l)) x

/-- Element k of width w (R258). -/
def elemOf (n w k : Nat) : Nat := n / 2 ^ (w * k) % 2 ^ w

/-- A number of w bits read as two's complement. -/
def asInt (w n : Nat) : Int := if 2 ^ (w - 1) ≤ n then (n : Int) - 2 ^ w else n
/-- An integer as w bits of two's complement. -/
def toBits (w : Nat) (x : Int) : Nat := (x % (2 ^ w : Int)).toNat
/-- Clamp of R186. -/
def clampInt (lo hi x : Int) : Int := if x < lo then lo else if hi < x then hi else x

/-- Elements packed from the lowest (R258). -/
def packElems (w : Nat) : List Nat → Nat
  | [] => 0
  | e :: r => e + 2 ^ w * packElems w r

end Sys2Proof.Machine
end

