-- ==== Sys2Proof/Machine/Exact.lean ====
section
/-! DEFINITION.  Exact cells (R84-R86, R98) as numbers of 512 bits. -/

namespace Sys2Proof.Machine

/-- The maximum uncertainty exponent of a cell, bits [511:496] (R84). -/
def cellUmax (c : Nat) : Nat := nfield c 496 16
/-- The addend count, bits [495:480] (R84). -/
def cellCount (c : Nat) : Nat := nfield c 480 16
/-- The value in units of 2^-149 (R84). -/
def cellValue (c : Nat) : Int := asInt 480 (nfield c 0 480)
/-- A cell from its fields. -/
def mkCell (umax count : Nat) (v : Int) : Nat := toBits 480 v + count % 2 ^ 16 * 2 ^ 480 + umax % 2 ^ 16 * 2 ^ 496
/-- The reset image (R84). -/
def cellReset : Nat := mkCell 0x8000 0 0

/-- Whether umax names a finite state (R84, R85). -/
def umaxFinite (u : Nat) : Bool := !(u == 0x7FFD || u == 0x7FFE || u == 0x7FFF)

/-- The greater of two signed 16-bit exponents, the second any integer in range. -/
def umaxMax (u : Nat) (x : Int) : Nat := if asInt 16 u < x then toBits 16 x else u

/-- A finite FP32 number in units of 2^-149 (R84). -/
def cellUnits (x : Nat) : Int :=
  match f32.value x with
  | .fin n m e => let k : Int := (m * 2 ^ (e + 149).toNat : Nat); if n then -k else k
  | _ => 0

/-- XCADD: one FP32 addend with its tag applied to a cell (R85, R98).  An infinity that meets the other one leaves the
count as it is, as R85's row states. -/
def cellAdd (c x : Nat) (t : Tag) : Nat :=
  let u := cellUmax c
  let n := min 65535 (cellCount c + 1)
  let v := cellValue c
  if f32.isNaN x then mkCell 0x7FFF n v
  else if u = 0x7FFF then mkCell u n v
  else if f32.isInf x then
    let s := if f32.sign x then 0x7FFD else 0x7FFE
    if umaxFinite u || u == s then mkCell s n v else mkCell 0x7FFF (cellCount c) v
  else if !umaxFinite u then mkCell u n v
  else
    let w := v + cellUnits x
    if w < -(2 ^ 479) then mkCell 0x7FFD n v
    else if 2 ^ 479 ≤ w then mkCell 0x7FFE n v
    else
      match uncert (f32.lead x) (readTag 24 t) with
      | some y => mkCell (umaxMax u y) n w
      | none => mkCell u n w

/-- The value of a cell rounded once to FP32 with its flags (R86). -/
def cellRound (rm : Rm) (c : Nat) : Nat × Flags :=
  let u := cellUmax c
  if u = 0x7FFF then (f32.nan, 0)
  else if u = 0x7FFE then (f32.inf false, 0)
  else if u = 0x7FFD then (f32.inf true, 0)
  else
    let v := cellValue c
    if v = 0 then (0, 0) else roundFin f32 rm (decide (v < 0)) v.natAbs (-149) false

/-- ⌈log₂ n⌉ for n at least 1. -/
def clog2 (n : Nat) : Nat := if 2 ^ Nat.log2 n = n then Nat.log2 n else Nat.log2 n + 1

/-- A tag that R88 allows an FP32 lane, 0-24 or EXACT, that nothing else constrains. -/
def openTag (c : Nat) : Tag :=
  let k := (Config.freeTag c).toNat % 26
  if k = 25 then Tag.exact else BitVec.ofNat 6 k

/-- The tag of a rounded cell (R98).  A count of 0 beside a finite umax and an inexact read, which only ordinary
stores can leave, has no stated tag: it is a free value among those of R88 (log entry 29).  DESIGN CHOICE (log entry 29):
a count of 0 beside umax 0x7FFD-0x7FFF, which two rows of R98 match, takes the last row's 0. -/
def cellTag (c : Nat) (r : Nat × Flags) : Tag :=
  let u := cellUmax c
  let exact := (r.2 &&& Flags.nx) == 0
  if !umaxFinite u then 0
  else if !f32.isFinite r.1 then 0
  else if (cellCount c == 0 || u == 0x8000) && exact then Tag.exact
  else if u = 0x8000 then 24
  else if cellValue c = 0 then 0
  else if cellCount c = 0 then openTag c
  else f32.clampTag r.1 (f32.lead r.1 - asInt 16 u - clog2 (cellCount c))

/-- The read of a cell as one element (R86, R98, R102). -/
def cellElem (rm : Rm) (c : Nat) : Elem :=
  let r := cellRound rm c
  let t := cellTag c r
  { val := r.1, fl := r.2, tag := t, finite := f32.isFinite r.1, ta := t, tb := 62, tc := 62 }

/-- The identity of a redop in a contribution cell (R114): IADD 0, IMIN 2^63 - 1, IMAX -2^63, FADD the reset
image. -/
def redIdentity (redop : Nat) : Nat :=
  match redop with | 2 => 2 ^ 63 - 1 | 3 => 2 ^ 63 | 4 => cellReset | _ => 0

/-- One contribution reduced into a cell (R114). -/
def redApply (redop c : Nat) (x : Word) (t : Tag) : Nat :=
  let lo := dbl c
  let put := fun (v : Word) => c / 2 ^ 64 * 2 ^ 64 + v.toNat
  match redop with
  | 1 => put (lo + x)
  | 2 => put (if x.slt lo then x else lo)
  | 3 => put (if lo.slt x then x else lo)
  | 4 => cellAdd c (lowW x).toNat t
  | _ => c

/-- The reduced value as a phase result or an action's g4 (R114, R327). -/
def redResult (redop c : Nat) : Word :=
  match redop with | 0 => 0 | 4 => dbl (cellRound .rne c).1 | _ => dbl c

end Sys2Proof.Machine
end

