-- ==== Sys2Proof/Machine/Translate.lean ====
section
/-! DEFINITION.  V-space: the interleave (R46, R47), the process table (R359), the page walk and its leaves
(R360-R363), and what a translation finds. -/

namespace Sys2Proof.Machine

/-- The number of active channels, C of R46. -/
def State.channels (s : State) : Nat := 2048 - s.sys.retired.length

/-- The depth of a channel in sectors that repair has not lowered: 1 GiB (R2, R46). -/
def fullDepth : Nat := 4194304
/-- The usable depth of a channel in sectors (R46). -/
def State.depthOf (s : State) (n : Nat) : Nat := mapGet s.sys.depths fullDepth n

/-- The active channels that hold fewer sectors than a whole one (R46). -/
def State.shallow (s : State) : SMap Nat := s.sys.depths.filter (fun p => decide (p.1 < 2048) && !s.sys.retired.contains p.1)

/-- The usable depth of the shallowest active channel, u of R46. -/
def State.depth (s : State) : Nat := s.shallow.foldl (fun u p => min u p.2) fullDepth

/-- The bytes of the interleave (R46). -/
def State.interleaveEnd (s : State) : Nat := s.channels * s.depth * 256

/-- The first address past the remnant region: what every active channel holds (R46, R47). -/
def State.remnantEnd (s : State) : Nat :=
  (s.channels * fullDepth - s.shallow.foldl (fun n p => n + (fullDepth - p.2)) 0) * 256

/-- Whether a device physical address lies in a memory of the part (R46, R47; log entry 23). -/
def State.deviceHas (s : State) (pa : Nat) : Bool := decide (pa < s.remnantEnd)

/-- The channel of a physical sector of the interleave (R46). -/
def channelOf (c sector : Nat) : Nat :=
  let k := sector / c
  let h := (k % 2 ^ 11) ^^^ (k / 2 ^ 11 % 2 ^ 11) ^^^ (k / 2 ^ 22 % 2 ^ 11)
  (sector % c + h) % c

/-- The active channels in map order (R46). -/
def State.activeChannels (s : State) : List Nat :=
  if s.sys.retired = [] then List.range 2048 else (List.range 2048).filter (fun k => !s.sys.retired.contains k)
/-- The unretired number of an active channel (R46). -/
def State.channelNumber (s : State) (n : Nat) : Nat := if s.sys.retired = [] then n else s.activeChannels.getD n 0

/-- The channel of a sector of the remnant region, the channels in map order (R47): n counts sectors from its start. -/
def State.remnantChannel (s : State) : List Nat → Nat → Nat
  | [], _ => 0
  | c :: r, n => if n < s.depthOf c - s.depth then c else s.remnantChannel r (n - (s.depthOf c - s.depth))

/-- The unretired number of the channel that holds a device byte (R46, R47). -/
def State.channelAt (s : State) (pa : Nat) : Nat :=
  if pa < s.interleaveEnd then s.channelNumber (channelOf s.channels (pa / 256))
  else s.remnantChannel s.activeChannels (pa / 256 - s.channels * s.depth)

/-- The translation station of a leaf's page at an address: that of the stack of its sector, or for a
host-resident page that of its page number (R45, R46, R62; log entry 13). -/
def State.stationOf (s : State) (va pa : Nat) (host : Bool) : Nat :=
  if host then va / 2 ^ 16 % 32 else s.channelAt pa / 64 % 32

/-- A double of device memory. -/
def State.devNat (s : State) (pa n : Nat) : Nat := s.nat (devKey pa) n

/-- The process table entry of a process in a partition (R359). -/
def State.procEntry (s : State) (part : Nat) (pid : BitVec 16) : Nat := (s.part part).ptab.toNat + 32 * pid.toNat
/-- Whether the entry is valid (R359). -/
def State.procValid (s : State) (part : Nat) (pid : BitVec 16) : Bool := nbit (s.devNat (s.procEntry part pid) 8) 0
/-- The shadow window base of a process (R359). -/
def State.shadowBase (s : State) (part : Nat) (pid : BitVec 16) : Nat := s.devNat (s.procEntry part pid + 8) 8

/-- The levels of the page table: level, lowest address bit and index width (R360). -/
def pageLevels : List (Nat × Nat × Nat) := [(0, 39, 17), (1, 30, 9), (2, 21, 9), (3, 16, 5)]

/-- Whether a leaf is malformed at a level (R361). -/
def leafMalformed (level e : Nat) : Bool :=
  decide (level = 0) || decide (nfield e 6 2 ≠ 0) || nbit e 2 ||
  (match level with
    | 1 => decide (nfield e 13 14 ≠ 0) || (nbit e 10 && decide (nfield e 45 14 ≠ 0))
    | 2 => decide (nfield e 13 5 ≠ 0) || (nbit e 10 && decide (nfield e 45 5 ≠ 0))
    | _ => false)

/-- Whether a pointer is malformed at a level (R361). -/
def pointerMalformed (level e : Nat) : Bool :=
  decide (level = 3) || decide (nfield e 2 10 ≠ 0) || decide (nfield e 45 19 ≠ 0)

/-- What a walk finds: no usable entry; a page in migration (V = 0, MOF = 1); a valid leaf with the number
of address bits below its page. -/
inductive Walk where
  | none
  | moving
  | leaf (bits e : Nat)
  deriving DecidableEq, Repr

/-- The walk below a table (R360, R361).  An entry with V = 0 is a page in migration only where it is a
well-formed leaf with MOF (log entry 27). -/
def State.walkFrom (s : State) (va : Nat) : Nat → List (Nat × Nat × Nat) → Walk
  | _, [] => .none
  | table, (level, lo, w) :: rest =>
    let e := s.devNat (table + 8 * (va / 2 ^ lo % 2 ^ w)) 8
    if nbit e 1 then
      if leafMalformed level e then .none
      else if nbit e 0 then .leaf lo e
      else if nbit e 12 then .moving else .none
    else if !nbit e 0 || pointerMalformed level e then .none
    else s.walkFrom va (nfield e 12 33 * 256) rest

/-- A whole walk (R359, R360): root entry 0 covers S-space and is never read. -/
def State.walk (s : State) (part : Nat) (pid : BitVec 16) (va : Nat) : Walk :=
  if va < 2 ^ 39 then .none
  else if s.procValid part pid then s.walkFrom va (nfield (s.devNat (s.procEntry part pid) 8) 20 21 * 2 ^ 20) pageLevels
  else .none

/-- The station that a leaf's page has at an address (R45). -/
def State.leafStation (s : State) (bits e va : Nat) : Nat :=
  s.stationOf va (nfield e 13 32 * 2 ^ 16 + va % 2 ^ bits) (nbit e 11)

/-- A cached translation of an address, at the station to which it leads (R45, R363). -/
def State.cachedLeaf (s : State) (pid : BitVec 16) (va : Nat) : Option TlbEntry :=
  s.tlb.find? (fun t => t.pid == pid && decide (t.base ≤ va ∧ va < t.base + t.size) &&
    decide (t.station = s.leafStation (Nat.log2 t.size) t.leaf.toNat va))

/-- A leaf from a station's cache, when the environment lets the station use it, or from a walk (R363). -/
def State.leafOf (s : State) (part : Nat) (pid : BitVec 16) (va : Nat) : Walk :=
  match (if s.cached then s.cachedLeaf pid va else none) with
  | some t => .leaf (Nat.log2 t.size) t.leaf.toNat
  | none => s.walk part pid va

/-- A walk's leaf kept at its station, which holds 32,768 entries: the oldest makes room (R2, R363; log entry 27). -/
def State.keepLeaf (s : State) (pid : BitVec 16) (va bits e : Nat) : State :=
  let t : TlbEntry := { station := s.leafStation bits e va, pid := pid, base := va / 2 ^ bits * 2 ^ bits, size := 2 ^ bits, leaf := dbl e }
  let rest := s.tlb.filter (fun u => !(u.station == t.station && u.pid == pid && u.base == t.base && u.size == t.size))
  let own := rest.filter (fun u => u.station == t.station)
  { s with tlb := t :: (if own.length < 32768 then rest
      else match own.getLast? with | some u => rest.erase u | none => rest) }

/-- What an access needs of its page (R362): read, write and execute permission, an atomics field that lets
it run, the shadow bytes of a TAGS page, and whether it has waited out the hold of R362. -/
structure Need where
  r : Bool
  w : Bool
  x : Bool
  atomic : Bool
  shadow : Bool
  ripe : Bool

/-- A translation: the key of the byte in State.mem with the first shadow byte's key where the page is marked
TAGS, a cause, or a hold, which asks for migration when the leaf is host-resident (R362). -/
inductive Xlat where
  | ok (key : Nat) (shadow : Option Nat)
  | fault (c : Cause)
  | held (ask : Bool)
  deriving DecidableEq, Repr

/-- The physical address a leaf gives (R361). -/
def leafAddr (bits e va : Nat) : Nat := nfield e 13 32 * 2 ^ 16 + va % 2 ^ bits
/-- Whether a leaf is host-resident (R361). -/
def leafHost (e : Nat) : Bool := nbit e 11
/-- The key of a leaf's byte. -/
def leafKey (bits e va : Nat) : Nat :=
  if leafHost e then hostKey (leafAddr bits e va) else devKey (leafAddr bits e va)

/-- The checks of a valid leaf in the order of the table of R362 (log entry 27): a cause, or none. -/
def State.leafCause (s : State) (pid : BitVec 16) (n : Need) (bits e va : Nat) : Option Cause :=
  if (n.r && !nbit e 3) || (n.w && !nbit e 4) || (n.x && !nbit e 5) then some .prot
  else if n.atomic && decide (2 ≤ nfield e 8 2) then some .prot
  else if !leafHost e && decide (pid ≠ 0) && decide (s.interleaveEnd ≤ leafAddr bits e va) then some .prot
  else if leafHost e && s.sys.fenced then some .fenced
  else none

/-- The shadow byte of the word at an address of a TAGS page (R48, R361). -/
def State.shadowVa (s : State) (part : Nat) (pid : BitVec 16) (bits e va : Nat) : Nat :=
  s.shadowBase part pid + 2 ^ 14 * nfield e 45 19 + va % 2 ^ bits / 4

/-- The translation of the shadow bytes; any failure is PAGE on the access (R48, R362). -/
def State.shadowKey (s : State) (part : Nat) (pid : BitVec 16) (n : Need) (va : Nat) : Option Nat :=
  match s.leafOf part pid va with
  | .leaf bits e =>
    if (s.leafCause pid { n with x := false, atomic := false } bits e va).isNone then some (leafKey bits e va) else none
  | _ => none

/-- The translation of an address (R362). -/
def State.translate (s : State) (part : Nat) (pid : BitVec 16) (n : Need) (va : Nat) : Xlat :=
  match s.leafOf part pid va with
  | .none => .fault .page
  | .moving => if n.ripe then .fault .page else .held false
  | .leaf bits e =>
    if leafHost e && nbit e 12 && !n.ripe then .held true
    else match s.leafCause pid n bits e va with
      | some c => .fault c
      | none =>
        if n.shadow && nbit e 10 then
          match s.shadowKey part pid n (s.shadowVa part pid bits e va) with
          | some k => .ok (leafKey bits e va) (some k)
          | none => .fault .page
        else .ok (leafKey bits e va) none

/-- A translation that also keeps the leaf at its station (R363). -/
def State.keepWalk (s : State) (part : Nat) (pid : BitVec 16) (va : Nat) : State :=
  match s.leafOf part pid va with
  | .leaf bits e => s.keepLeaf pid va bits e
  | _ => s

/-- The record that asks the device OS to migrate a host-resident page (R355, R362). -/
def State.askMigration (s : State) (part : Nat) (pid : BitVec 16) (w : Who) (launch va : Nat) : State :=
  s.post part launch
    { cause := .page, agent := 3, id := s.stationOf va 0 true, slot := w.slot, addr := dbl va, cursor := 0, detail := 3, pid := pid }

/-- Whether the bytes behind a key exist: every host physical address does, a device address where a memory
answers it (log entry 23). -/
def State.keyExists (s : State) (k : Nat) : Bool := decide (2 ^ 61 ≤ k) || s.deviceHas (k - 2 ^ 60)

end Sys2Proof.Machine
end

