-- ==== Sys2Proof/Machine/Ranges.lean ====
section
/-! DEFINITION.  Range locks (R62-R65): the tables of the tiles and stations, what an access meets in them, and
registering and removing entries. -/

namespace Sys2Proof.Machine

/-- Whether two half-open spans share a byte. -/
def overlaps (lo hi lo' hi' : Nat) : Bool := decide (lo < hi' ∧ lo' < hi)

/-- The entries of the owning tile's table that meet raw bytes lo up to hi of S-space keys (R62). -/
def State.spadMeets (s : State) (lo hi : Nat) : List RangeEntry :=
  s.ranges.filter (fun r => (match r.table with | .tile _ => true | .stations _ _ => false) && overlaps lo hi r.lo r.hi)

/-- The entries of the stations that meet V-space bytes of a process (R62; log entry 13). -/
def State.vMeets (s : State) (pid : BitVec 16) (lo hi : Nat) : List RangeEntry :=
  s.ranges.filter (fun r => (match r.table with | .tile _ => false | .stations p _ => p == pid) && overlaps lo hi r.lo r.hi)

/-- Whether a thread's load is turned away: it meets a WRITE range (R63). -/
def blocksLoad (rs : List RangeEntry) : Bool := rs.any (fun r => r.write)
/-- Whether a thread's store, atomic or reduction is turned away: it meets any range (R63, R64). -/
def blocksStore (rs : List RangeEntry) : Bool := !rs.isEmpty

/-- Whether a range on its way meets an entry that conflicts with it, for issue checks and engine sectors:
reads meet WRITE ranges, writes meet any (R63); entries of the same owner never conflict (R62). -/
def State.reqMeets (s : State) (pid : BitVec 16) (own : RangeOwner → Bool) (q : RangeReq) : Bool :=
  ((if q.vspace then s.vMeets pid q.lo q.hi else s.spadMeets q.lo q.hi).filter (fun r => !own r.owner)).any
    (fun r => q.write || r.write)

/-- The stations that translate a sector of a V-space range (R62). -/
def State.stationsOf (s : State) (part : Nat) (pid : BitVec 16) (lo hi : Nat) : List Nat :=
  ((List.range (ceilDiv (hi - lo / 256 * 256) 256)).foldl (fun l k =>
    let va := lo / 256 * 256 + 256 * k
    match s.leafOf part pid va with
    | .leaf bits e =>
      let st := s.stationOf va (leafAddr bits e va) (leafHost e)
      if l.contains st then l else l ++ [st]
    | _ => l) [])

/-- The table a range goes into. -/
def State.tableOf (s : State) (part : Nat) (pid : BitVec 16) (q : RangeReq) : RangeTable :=
  if q.vspace then .stations pid (s.stationsOf part pid q.lo q.hi) else .tile (tileOf (q.lo / 2 ^ 20))

/-- Whether two ranges of one issue share a table entry: S-space ranges of one core, both read or both written (R62: one
entry per core touched; log entry 13). -/
def sameEntry (p q : RangeReq) : Bool := !p.vspace && !q.vspace && p.write == q.write && decide (p.lo / 2 ^ 20 = q.lo / 2 ^ 20)

/-- The tables of the entries that stand, one for each entry. -/
def State.entryTables (s : State) : List RangeTable :=
  (s.ranges.foldl (fun (l : List (Nat × RangeTable)) r => if l.any (fun p => p.1 == r.id) then l else l ++ [(r.id, r.table)]) []).map
    (fun p => p.2)

/-- The tables that the entries of an issue go into, one for each entry. -/
def State.newTables (s : State) (part : Nat) (pid : BitVec 16) (qs : List RangeReq) : List RangeTable :=
  (qs.zipIdx.filter (fun p => !(qs.take p.2).any (sameEntry p.1))).map (fun p => s.tableOf part pid p.1)

/-- How many entries a tile's table holds. -/
def tileUse (rs : List RangeTable) (t : Nat) : Nat := (rs.filter (fun r => decide (r = .tile t))).length
/-- How many entries a station's table holds. -/
def stationUse (rs : List RangeTable) (st : Nat) : Nat :=
  (rs.filter (fun r => match r with | .tile _ => false | .stations _ l => l.contains st)).length

/-- Whether new entries fit in every table they go into: 32 in a tile's, 256 in a station's (R62, R65). -/
def State.rangesFit (s : State) (part : Nat) (pid : BitVec 16) (qs : List RangeReq) : Bool :=
  let new := s.newTables part pid qs
  let all := s.entryTables ++ new
  new.all (fun t => match t with
    | .tile k => decide (tileUse all k ≤ 32)
    | .stations _ l => l.all (fun st => decide (stationUse all st ≤ 256)))

/-- Ranges registered, each under the number of its entry (R62). -/
def State.register (s : State) (own : RangeOwner) (part : Nat) (pid : BitVec 16) (qs : List RangeReq) : State :=
  { s with
    ranges := s.ranges ++ qs.zipIdx.map (fun p =>
      { id := s.nextId + (qs.findIdx? (sameEntry p.1)).getD p.2, table := s.tableOf part pid p.1, lo := p.1.lo, hi := p.1.hi
        write := p.1.write, owner := own })
    nextId := s.nextId + qs.length }

/-- Entries removed by owner (R62). -/
def State.unregister (s : State) (own : RangeOwner → Bool) : State :=
  { s with ranges := s.ranges.filter (fun r => !own r.owner) }

/-- Entries handed to another owner. -/
def State.reown (s : State) (f : RangeOwner → RangeOwner) : State :=
  { s with ranges := s.ranges.map (fun r => { r with owner := f r.owner }) }

end Sys2Proof.Machine
end

