-- ==== Sys2Proof/Machine/Objects.lean ====
section
/-! DEFINITION.  Records in scratchpad that hardware rewrites: synchronisation descriptors (R104-R106) with
SYNCINIT and SYNCMODE (R108, R122), and task counter records with TCINIT (R18, R240). -/

namespace Sys2Proof.Machine

/-! ### Descriptor fields (R104) -/

/-- A bit field of a descriptor: its lowest bit and width. -/
structure Fld where
  lo : Nat
  n : Nat

/-- A field read. -/
def Fld.get (f : Fld) (d : Nat) : Nat := nfield d f.lo f.n
/-- A field written, modulo its width. -/
def Fld.set (f : Fld) (d v : Nat) : Nat := d - f.get d * 2 ^ f.lo + v % 2 ^ f.n * 2 ^ f.lo

/-- kind: 0 FREE, 1 LOCK, 2 BARRIER. -/
def dKind : Fld := ⟨0, 2⟩
/-- armed. -/
def dArmed : Fld := ⟨8, 1⟩
/-- pin. -/
def dPin : Fld := ⟨9, 1⟩
/-- mode: 0 FLAG, 1 QUEUE or TREE, 2 DELEGATE. -/
def dMode : Fld := ⟨10, 2⟩
/-- parts. -/
def dParts : Fld := ⟨12, 20⟩
/-- scope. -/
def dScope : Fld := ⟨32, 3⟩
/-- multi. -/
def dMulti : Fld := ⟨35, 1⟩
/-- serving. -/
def dServing : Fld := ⟨36, 1⟩
/-- oslot. -/
def dOslot : Fld := ⟨37, 3⟩
/-- ocore. -/
def dOcore : Fld := ⟨40, 16⟩
/-- window. -/
def dWindow : Fld := ⟨56, 16⟩
/-- tskew. -/
def dTskew : Fld := ⟨72, 32⟩
/-- tcont. -/
def dTcont : Fld := ⟨104, 16⟩
/-- skew. -/
def dSkew : Fld := ⟨120, 32⟩
/-- cont. -/
def dCont : Fld := ⟨152, 16⟩
/-- calm. -/
def dCalm : Fld := ⟨168, 4⟩
/-- waiting. -/
def dWaiting : Fld := ⟨172, 20⟩
/-- holder: the handle of a LOCK. -/
def dHolder : Fld := ⟨192, 24⟩
/-- phase of a BARRIER. -/
def dPhase : Fld := ⟨192, 32⟩
/-- seq. -/
def dSeq : Fld := ⟨224, 32⟩
/-- wopen of a BARRIER. -/
def dWopen : Fld := ⟨256, 32⟩
/-- first of a BARRIER. -/
def dFirst : Fld := ⟨288, 32⟩
/-- direct arrivals of a BARRIER. -/
def dDirect : Fld := ⟨332, 20⟩
/-- combined arrivals of a BARRIER. -/
def dCombined : Fld := ⟨352, 20⟩
/-- burst of a BARRIER. -/
def dBurst : Fld := ⟨372, 2⟩
/-- inline handle k of a LOCK. -/
def dInline (k : Nat) : Fld := ⟨256 + 24 * k, 24⟩
/-- tail link of a LOCK. -/
def dTail : Fld := ⟨352, 13⟩
/-- head link of a LOCK. -/
def dHead : Fld := ⟨365, 13⟩
/-- redop. -/
def dRedop : Fld := ⟨387, 3⟩
/-- redcell. -/
def dRedcell : Fld := ⟨390, 58⟩
/-- action. -/
def dAction : Fld := ⟨448, 64⟩

/-- The home of a descriptor address (R104). -/
def homeOf (a : Nat) : Nat := a / 2 ^ 20 % 2 ^ 16
/-- The raw offset of an S-space address. -/
def offOf (a : Nat) : Nat := a % 2 ^ 20
/-- The key of a RAW address's byte. -/
def rawKey (a : Nat) : Nat := spadKey (homeOf a) (offOf a)

/-- The descriptor at an address as a number of 512 bits. -/
def State.desc (s : State) (a : Nat) : Nat := s.nat (rawKey a) 64
/-- The descriptor written. -/
def State.setDesc (s : State) (a d : Nat) : State := s.storeSpad (rawKey a) (leBytes 64 d)

/-- The unit's own record of a live object, if the object is live (R106, R125; log entry 11). -/
def State.obj? (s : State) (a : Nat) : Option Obj :=
  (((s.core (homeOf a)).objects.find? (fun p => p.1 == offOf a)).map (fun p => p.2))
/-- The unit's record, or a fresh one. -/
def State.obj (s : State) (a : Nat) : Obj := mapGet (s.core (homeOf a)).objects .reset (offOf a)
/-- The unit's record replaced. -/
def State.setObj (s : State) (a : Nat) (o : Obj) : State :=
  let c := s.core (homeOf a)
  s.setCore (homeOf a) { c with objects := mapPut c.objects (offOf a) o }
/-- The object no longer live. -/
def State.dropObj (s : State) (a : Nat) : State :=
  let c := s.core (homeOf a)
  s.setCore (homeOf a) { c with objects := mapErase c.objects (offOf a) }

/-- Whether a live descriptor's bytes meet [lo, lo + n) of a core's raw bytes (R106; log entry 11). -/
def State.liveTouch (s : State) (core lo n : Nat) : Bool :=
  (s.core core).objects.any (fun p => overlaps lo (lo + n) p.1 (p.1 + 64) &&
    decide (dKind.get (s.desc (core * 2 ^ 20 + p.1)) ≠ 0))

/-- Whether the count word of a queued task record meets [lo, lo + n) (R240, R352). -/
def State.queuedTouch (s : State) (core lo n : Nat) : Bool :=
  (s.core core).runList.any (fun e => match e with
    | .task off _ => overlaps lo (lo + n) off (off + 4)
    | _ => false)

/-! ### SYNCINIT and SYNCMODE (R108, R122, R123) -/

/-- Whether a redcell field names 64 bytes of the home's user area (R104, R123). -/
def redcellOk (home rc : Nat) : Bool :=
  let a := rc * 64
  decide (a < 2 ^ 36) && decide (homeOf a = home) && decide (offOf a + 64 ≤ reservedBase)

/-- Whether an image is refused by SYNCINIT (R123). -/
def badImage (home img : Nat) : Bool :=
  let k := dKind.get img
  decide (k = 0 ∨ k = 3) || decide (5 ≤ dRedop.get img) || decide (dMode.get img = 3) ||
  (decide (k = 2) && decide (dParts.get img = 0)) || (decide (k = 1) && decide (dAction.get img ≠ 0)) ||
  (decide (k = 2) && decide (1 ≤ dRedop.get img) && decide (dRedcell.get img = 0)) ||
  (decide (dRedcell.get img ≠ 0) && !redcellOk home (dRedcell.get img))

/-- The fields SYNCINIT copies from its image (R104). -/
def initFields : List Fld :=
  [dKind, dPin, dParts, dScope, dOslot, dOcore, dWindow, dTskew, dTcont, dRedop, dRedcell, dAction]
/-- The descriptor that SYNCINIT leaves: the image's fields and every hardware field at its reset value
(R108).  DESIGN CHOICE (log entry 38): a LOCK image with parts other than 0 is taken, and its parts stand as given. -/
def initDesc (img : Nat) : Nat := initFields.foldl (fun d f => f.set d (f.get img)) 0

/-- The address of the contribution cell of a descriptor. -/
def redcellAddr (d : Nat) : Nat := dRedcell.get d * 64
/-- The contribution cell's content (R114). -/
def State.redCell (s : State) (d : Nat) : Nat := s.nat (rawKey (redcellAddr d)) 64
/-- The contribution cell written; with redop 0 it is not (R114). -/
def State.setRedCell (s : State) (d c : Nat) : State :=
  if dRedop.get d = 0 ∨ dRedcell.get d = 0 then s else s.storeSpad (rawKey (redcellAddr d)) (leBytes 64 c)

/-- SYNCINIT at the home: the new state, or SYNC (R108, R123). -/
def State.syncInit (s : State) (a img : Nat) : Option State :=
  if dKind.get (s.desc a) ≠ 0 then none
  else if badImage (homeOf a) img then none
  else
    let d := initDesc img
    some (((s.setDesc a d).setRedCell d (redIdentity (dRedop.get d))).setObj a .reset)

/-- Whether a core lies in the scope domain that contains the home (R123). -/
def inScope (scope home core : Nat) : Bool :=
  if 6 ≤ scope then true
  else if isLarge core then decide (scope = 5) && decide (dieOf core = dieOf home)
  else decide (core / domainCores scope = home / domainCores scope)

/-- SYNCMODE at the home: the word of R122, or SYNC for a FREE object or a core outside its scope (R123). -/
def State.syncMode (s : State) (a core : Nat) (sel : Word) : Option Word :=
  let d := s.desc a
  if dKind.get d = 0 ∨ !inScope (dScope.get d) (homeOf a) core then none
  else some (match sel.toNat with
    | 0 => dbl (dMode.get d + dPin.get d * 2 ^ 2 + dArmed.get d * 2 ^ 3 + dWaiting.get d * 2 ^ 4 +
        dCont.get d * 2 ^ 24 + dServing.get d * 2 ^ 40)
    | 1 => dbl (if dKind.get d = 1 then dHolder.get d else dPhase.get d)
    | 2 => dbl (dSkew.get d)
    | _ => 0)

/-! ### Task counter records (R18, R19, R240) -/

/-- The count word of the record at a raw offset of a core. -/
def State.countWord (s : State) (core off : Nat) : Nat := s.nat (spadKey core off) 4
/-- The count word written; the bytes of a live object keep what they hold (R106; log entry 28). -/
def State.setCountWord (s : State) (core off w : Nat) : State :=
  if s.liveTouch core off 4 then s else s.storeSpad (spadKey core off) (leBytes 4 w)

/-- The last queued record of a run list. -/
def lastTask (l : List RunEntry) : Option Nat :=
  l.foldl (fun r e => match e with | .task off _ => some off | _ => r) none

/-- The launch that a task of a core belongs to: the launch that holds the core, or for a core that no launch
holds the launch of the thread that placed it (R18, R338; log entry 16). -/
def State.homeLaunch (s : State) (core launch : Nat) : Nat :=
  ((s.holder core).map (fun l => l.id)).getD launch

/-- A task appended to the tail of its home's run list: queued set, the end mark 0x1FFF in its link, and the
record before it linked to it (R18, R19). -/
def State.placeTask (s : State) (core off launch : Nat) : State :=
  let s := match lastTask (s.core core).runList with
    | some p => s.setCountWord core p (2 ^ 31 + off / 16 % 2 ^ 13 * 16)
    | none => s
  let s := s.setCountWord core off (2 ^ 31 + 0x1FFF0)
  s.setCore core { s.core core with runList := (s.core core).runList ++ [.task off (s.homeLaunch core launch)] }

/-- TCINIT at the home (R240): SYNC for a queued record, and for bytes of a live descriptor (log entry 28). -/
def State.taskInit (s : State) (a : Nat) (count : Word) (launch : Nat) : Option State :=
  let core := homeOf a
  let off := offOf a
  if nbit (s.countWord core off) 31 || s.liveTouch core off 4 then none
  else
    let s := s.setCountWord core off (count.toNat % 2 ^ 31)
    some (if count.toNat % 2 ^ 31 = 0 then s.placeTask core off launch else s)

end Sys2Proof.Machine
end

