-- ==== Sys2Proof/Machine/Ol4.lean ====
section
/-! DEFINITION.  The OL4 block format (R77-R79): decoding a nibble byte with its block's scale, and the one
encoding of 32 FP32 values. -/

namespace Sys2Proof.Machine

/-- A 4-bit two's-complement code (SInt4 of R186). -/
def sint4 (n : Nat) : Int := if 8 ≤ n % 16 then (n % 16 : Int) - 16 else n % 16

/-- A scale byte as a two's-complement shift count (R77). -/
def scaleOf (b : Nat) : Int := if 128 ≤ b % 256 then (b % 256 : Int) - 256 else b % 256

/-- An integer times a power of two. -/
def intFV (x : Int) (e : Int) : FV := .fin (decide (x < 0)) x.natAbs e

/-- The E4M3 value of a byte times 2^s. -/
def e4m3Scaled (b : Nat) (s : Int) : FV :=
  match f32.value (e4m3Image b) with
  | .fin n m e => .fin n m (e + s)
  | v => v

/-- The element of a nibble byte: the even one, or the odd one (R78). -/
def ol4Elem (b : Nat) (odd : Bool) (s : Int) : FV :=
  if s = -128 then .fin false 0 0
  else
    let lo := b % 16
    let hi := b / 16 % 16
    if lo = 8 then (if odd then .fin false 0 0 else e4m3Scaled b s)
    else if hi = 8 then (if odd then e4m3Scaled (lo * 16 + hi) s else .fin false 0 0)
    else intFV (sint4 (if odd then hi else lo)) s

/-- The FP32 image of an OL4 value: exact, ±infinity beyond the range (R73). -/
def ol4Image (v : FV) : Nat := (roundFV f32 .rne v).1

/-- The magnitude of a value. -/
def absFV : FV → FV
  | .fin _ m e => .fin false m e
  | .inf _ => .inf false
  | .nan => .nan

/-- The smallest s with k * 2^s at least the magnitude, for k = 7 or 256 (R79 step 3), clamped. -/
def ol4Scale (seven : Bool) (v : FV) : Int :=
  match absFV v with
  | .fin _ m e =>
    if m = 0 then -127
    else
      let l : Int := e + Nat.log2 m
      let s := if seven then (if cmpFV v (.fin false 7 (l - 2)) ≤ 0 then l - 2 else l - 1)
        else (if m = 2 ^ Nat.log2 m then l - 8 else l - 7)
      if s < -127 then -127 else if 127 < s then 127 else s
  | _ => 127

/-- RNE(x / 2^s) clamped to -7..7, with ±infinity taken as ±7 (R79 step 4). -/
def ol4Code (v : FV) (s : Int) : Int :=
  match v with
  | .inf n => if n then -7 else 7
  | .fin n m e =>
    let k := (cutTo .rne n m (e - s) 0 false).1
    let c : Int := min k 7
    if n then -c else c
  | .nan => 0

/-- The exact absolute difference of two values. -/
def distFV (a b : FV) : FV := absFV (addFV .rne a (negFV b))

/-- The nearest outlier exponent j of a magnitude, ties to the smaller (R79 step 4). -/
def ol4Outlier (v : FV) (s : Int) : Nat :=
  match v with
  | .inf _ => 7
  | _ =>
    (List.range 8).foldl (fun (best j : Nat) =>
      if cmpFV (distFV (absFV v) (.fin false 1 (2 * (j : Int) - 6 + s))) (distFV (absFV v) (.fin false 1 (2 * (best : Int) - 6 + s))) < 0
      then j else best) 0

/-- The sign of a value. -/
def signFV : FV → Bool
  | .fin n _ _ => n
  | .inf n => n
  | .nan => false

/-- One pair encoded (R79 step 4): the nibble byte, and the two encoded values with whether each is an
outlier.  DESIGN CHOICE (log entry 26): both costs of a pair that holds an infinity are infinite, so the outlier choice
is never strictly cheaper there and the pair is coded in nibbles.  DESIGN CHOICE (log entry 26): an odd major coded as
-2^(-6) * 2^s becomes byte 0x88, which R78 reads back as an even outlier; the byte is emitted as step 4 forms it and its
flags are those of the odd outlier that was coded. -/
def ol4Pair (x y : FV) (s : Int) : Nat × (FV × Bool) × (FV × Bool) :=
  let cx := ol4Code x s
  let cy := ol4Code y s
  let oddMajor := decide (cmpFV (absFV x) (absFV y) < 0)
  let major := if oddMajor then y else x
  let minor := if oddMajor then x else y
  let j := ol4Outlier major s
  let o : FV := .fin (signFV major) 1 (2 * j - 6 + s)
  let nib := addFV .rne (distFV x (intFV cx s)) (distFV y (intFV cy s))
  let out := addFV .rne (distFV major o) (absFV minor)
  let infin := decide (absFV x = .inf false) || decide (absFV y = .inf false)
  if !infin && decide (cmpFV out nib < 0) then
    let byte := (if signFV major then 128 else 0) + (2 * j + 1) * 8
    if oddMajor then (128 + byte / 16, (.fin false 0 0, false), (o, true))
    else (byte, (o, true), (.fin false 0 0, false))
  else ((cx % 16).toNat + 16 * (cy % 16).toNat, (intFV cx s, false), (intFV cy s, false))

/-- Neighbouring elements as pairs. -/
def pairUp {α : Type} : List α → List (α × α)
  | x :: y :: r => (x, y) :: pairUp r
  | _ => []

/-- The flags of one encoded element (R79 steps 1 and 5).  A NaN, coded 0, raises NV and differs from its input.
DEDUCED (log entry 26): a finite input beyond 7 * 2^s raises OF where it was clamped to a nibble code, for only an element
coded as an outlier has an outlier's range. -/
def ol4Flags (x : FV) (enc : FV × Bool) (s : Int) : Flags :=
  match x with
  | .nan => Flags.nv ||| Flags.nx
  | .inf _ => Flags.of ||| Flags.nx
  | x =>
    (if cmpFV x enc.1 ≠ 0 then Flags.nx else 0) |||
    (if cmpFV (absFV x) (.fin false 7 s) > 0 && !enc.2 then Flags.of else 0)

/-- Steps 1 to 4 of R79 on a block of FP32 values: its scale byte, and each pair with its code. -/
def ol4Block (xs : List Nat) : Int × List ((FV × FV) × (Nat × (FV × Bool) × (FV × Bool))) :=
  let pairs := pairUp (xs.map f32.value)
  let num := fun (v : FV) => if v = .nan then FV.fin false 0 0 else v
  let big := fun (a b : FV) => if cmpFV a b < 0 then b else a
  let small := fun (a b : FV) => if cmpFV a b < 0 then a else b
  let maj := pairs.foldl (fun m p => big m (big (absFV (num p.1)) (absFV (num p.2)))) (.fin false 0 0)
  let mino := pairs.foldl (fun m p => big m (small (absFV (num p.1)) (absFV (num p.2)))) (.fin false 0 0)
  let zero := (FV.fin false 0 0, false)
  if cmpFV maj (.fin false 0 0) = 0 then (-128, pairs.map (fun p => (p, (0, zero, zero))))
  else
    let s := if cmpFV mino (.fin false 0 0) = 0 then ol4Scale false maj else ol4Scale true mino
    (s, pairs.map (fun p => (p, ol4Pair (num p.1) (num p.2) s)))

/-- What each element of a block is coded as, with its flags (R79 step 5). -/
def ol4Lanes (xs : List Nat) : List (FV × Flags) :=
  let b := ol4Block xs
  b.2.flatMap (fun e => [(e.2.2.1.1, ol4Flags e.1.1 e.2.2.1 b.1), (e.2.2.2.1, ol4Flags e.1.2 e.2.2.2 b.1)])

/-- The encoding of a block of FP32 values (R79): nibble bytes, scale byte and flags. -/
def ol4Encode (xs : List Nat) : List Nat × Int × Flags :=
  let b := ol4Block xs
  (b.2.map (fun e => e.2.1), b.1, (ol4Lanes xs).foldl (fun f e => f ||| e.2) 0)

end Sys2Proof.Machine
end

