-- ==== Sys2Proof/Machine/Serve.lean ====
section
/-! DEFINITION.  What an access does at its serving point (R126, R127): the windows of S-space (R38-R44), the
bytes and shadow bytes of V-space (R48, R95), the checks of step 4 of R200, atomics and reductions (R209, R212),
exact cells (R217-R220), and a large core's cache (R134). -/

namespace Sys2Proof.Machine

/-- The window of an S-space address (R37). -/
def winOf (a : Nat) : Nat := a / 2 ^ 36 % 8
/-- The bytes of an element of windows 2-4, 6 and 7 (R38). -/
def elemBytes (w : Nat) : Nat := if w = 2 then 2 else 1
/-- The element an offset names (R38). -/
def elemIndex (a : Nat) : Nat := offOf a / 4

/-- Whether an operation writes its bytes (R200 step 4). -/
def AccOp.writes : AccOp → Bool
  | .store .. => true
  | .vstore .. => true
  | .atomic .. => true
  | .reduce .. => true
  | .xcadd .. => true
  | .xcclr => true
  | .launchZero _ => true
  | _ => false

/-- Whether an operation reads its bytes. -/
def AccOp.reads : AccOp → Bool
  | .load _ => true
  | .vload .. => true
  | .atomic .. => true
  | .reduce .. => true
  | .xcadd .. => true
  | .xcread => true
  | .launchRead => true
  | .status => true
  | _ => false

/-- Whether an operation is of majors 0x19-0x1B (R200 step 3, R203). -/
def AccOp.special : AccOp → Bool
  | .atomic .. => true
  | .reduce .. => true
  | .xcadd .. => true
  | .xcread => true
  | .xcclr => true
  | _ => false

/-- The raw bytes of a core that an access touches, as offset and length (R38, R39). -/
def State.spans (s : State) (a : Access) : List (Nat × Nat) :=
  let w := winOf a.ea
  let i := elemIndex a.ea
  let cnt := a.size / 4
  if w ≤ 1 then [(offOf a.ea, a.size)]
  else if w = 5 then
    let sc := a.olscale.toNat + i / 32
    let nib := (i / 2, (i + cnt - 1) / 2 - i / 2 + 1)
    if s.byte (spadKey (homeOf a.ea) sc) = 0x80 then [(sc, 1)] else [(sc, 1), nib]
  else [(i * elemBytes w, cnt * elemBytes w)]

/-! ### Register images through the windows (R38, R39, R43) -/

/-- The 32-bit image of element i of a core through windows 2-7 (R38, R73). -/
def State.elemImage (s : State) (core w olscale i : Nat) : W32 :=
  let b := fun k => (s.byte (spadKey core k)).toNat
  match w with
  | 2 => BitVec.ofNat 32 (bf16Image (b (2 * i) + 256 * b (2 * i + 1)))
  | 3 => BitVec.ofNat 32 (e4m3Image (b i))
  | 4 => BitVec.ofNat 32 (e5m2Image (b i))
  | 5 =>
    let sc := scaleOf (b (olscale + i / 32))
    if sc = -128 then 0 else BitVec.ofNat 32 (ol4Image (ol4Elem (b (i / 2)) (i % 2 == 1) sc))
  | 6 => (s.byte (spadKey core i)).signExtend 32
  | _ => (s.byte (spadKey core i)).zeroExtend 32

/-- The bytes and flags of a lane stored through windows 2-4, 6 and 7 (R43, R74, R206). -/
def encodeElem (w : Nat) (sat : Bool) (v : W32) : List Byte × Flags :=
  let x := v.toNat
  let fv := f32.value x
  match w with
  | 2 => let r := toBf16 .rne fv (f32.sign x) (f32.isSNaN x); (leBytes 2 r.1, r.2)
  | 3 => let r := toE4m3 .rne fv (f32.sign x) (f32.isSNaN x); (leBytes 1 r.1, r.2)
  | 4 => let r := toE5m2 .rne sat fv (f32.sign x) (f32.isSNaN x); (leBytes 1 r.1, r.2)
  | _ =>
    let n := v.toInt
    let c := if w = 6 then clampInt (-128) 127 n else clampInt 0 255 n
    (leBytes 1 (toBits 8 c), if c = n then 0 else Flags.of)

/-! ### Tags of loads (R41, R94, R264) -/

/-- w1 for a word with no stored tag, read as 53 for a double when it is 24 (R94). -/
def w1Tag (winsig : BitVec 48) (double : Bool) : Tag :=
  let t := winTag winsig 1
  if double && t == 24 then 53 else t
/-- The tag of a word loaded through RAW (none) or TAGGED (its stored tag) (R264). -/
def loadTag (winsig : BitVec 48) (double : Bool) (stored : Option Tag) : Tag :=
  match stored with
  | none => w0Tag winsig double
  | some t => if t = Tag.none then w1Tag winsig double else t

/-- The words of n bytes at a key; fewer than four bytes give one word, zero-extended. -/
def State.words (s : State) (k n : Nat) : List W32 :=
  if n < 4 then [BitVec.ofNat 32 (s.nat k n)]
  else (List.range (n / 4)).map (fun j => BitVec.ofNat 32 (s.nat (k + 4 * j) 4))

/-- Words with the tags of a vector load; a double takes its lower word's tag (R264). -/
def tagWords (winsig : BitVec 48) (double : Bool) (stored : Nat → Option Tag) (ws : List W32) : List (W32 × Tag) :=
  ws.mapIdx (fun j v => (v, loadTag winsig double (stored (if double then j / 2 * 2 else j))))

/-! ### Atomics and reductions (R209, R212) -/

/-- The new value of an atomic on n bytes, none for a failed ACAS (R209). -/
def atomicNew (op : BitVec 4) (n old b x : Nat) : Option Nat :=
  let w := 8 * n
  let so := asInt w old
  let sb := asInt w b
  match op.toNat with
  | 0 => some ((old + b) % 2 ^ w)
  | 1 => some (old &&& b)
  | 2 => some (old ||| b)
  | 3 => some (old ^^^ b)
  | 4 => some (if sb < so then b else old)
  | 5 => some (if so < sb then b else old)
  | 6 => some (min old b)
  | 7 => some (max old b)
  | 8 => some b
  | _ => if old = x then some b else none

/-- The new value of a reduction (R212). -/
def reduceNew (op : BitVec 3) (n old b : Nat) : Nat :=
  let w := 8 * n
  let so := asInt w old
  let sb := asInt w b
  match op.toNat with
  | 0 => (old + b) % 2 ^ w
  | 1 => old &&& b
  | 2 => old ||| b
  | 3 => if sb < so then b else old
  | _ => if so < sb then b else old

/-! ### The effect on the bytes -/

/-- The head word of an inbox ring was written: its parked APPENDs will be retried (R232). -/
def State.noteHeads (s : State) (k n : Nat) : State :=
  { s with net := s.net.map (fun m => match m.body with
    | .append ring p t true d l =>
      if overlaps k (k + n) (rawKey ring) (rawKey ring + 4) then { m with body := .append ring p t true true l }
      else { m with body := .append ring p t true d l }
    | _ => m) }

/-- Bytes written: in scratchpad with tag 62 (R40), elsewhere as they are. -/
def State.put (s : State) (k : Nat) (bs : List Byte) : State :=
  if k < 2 ^ 60 then (s.storeSpad k bs).noteHeads k bs.length else s.setBytes k bs

/-- The poison marks of scratchpad words, or of codewords, that a store writes whole, cleared (R203, R366). -/
def State.clearPoison (s : State) (k n : Nat) : State :=
  if 2 ^ 60 ≤ k then s.clearWhole k n
  else if s.poison = [] then s
  else (List.range n).foldl (fun s i => if (k + i) % 4 = 0 ∧ i + 4 ≤ n then s.setPoison (k + i) false else s) s

/-- Bytes stored by a thread. -/
def State.store (s : State) (k : Nat) (bs : List Byte) : State := (s.put k bs).clearPoison k bs.length

/-- The effect of an access on the raw bytes at a key, with the answer before tags, and whether it wrote
(R204, R206, R209, R212, R217-R219, R264, R265). -/
def State.rawPerform (s : State) (k : Nat) (a : Access) (stored : Nat → Option Tag) : State × Reply × Bool :=
  let n := a.size
  match a.op with
  | .load _ => (s, .data ((s.words k n).map (fun v => (v, 0))) 0, false)
  | .vload d _ => (s, .data (tagWords a.winsig d stored (s.words k n)) 0, false)
  | .store lo hi => (s.store k (leBytes n (lo.toNat + hi.toNat * 2 ^ 32)), .data [] 0, true)
  | .vstore _ ls _ => (s.store k (ls.flatMap (fun v => leBytes 4 v.toNat)), .data [] 0, true)
  | .atomic op b x =>
    let old := s.nat k n
    let ans := Reply.data ((s.words k n).map (fun v => (v, 0))) 0
    match atomicNew op n old (b.toNat % 2 ^ (8 * n)) (x.toNat % 2 ^ (8 * n)) with
    | some v => (s.put k (leBytes n v), ans, true)
    | none => (s, ans, false)
  | .reduce op b => (s.put k (leBytes n (reduceNew op n (s.nat k n) (b.toNat % 2 ^ (8 * n)))), .data [] 0, true)
  | .xcadd v t => (s.put k (leBytes 64 (cellAdd (s.nat k 64) v.toNat t)), .data [] 0, true)
  | .xcread => (s, .data ((s.words k 64).map (fun v => (v, 0))) 0, false)
  | .xcclr => (s.store k (leBytes 64 cellReset), .data [] 0, true)
  | .launchRead => (s, .data ((s.words k n).map (fun v => (v, 0))) 0, false)
  | .status => (s, .data ((s.words k n).map (fun v => (v, 0))) 0, false)
  | .launchZero _ => (s.store k (leBytes 4 0), .data [] 0, true)
  | _ => (s, .data [] 0, false)

/-- The words that a store to raw bytes writes only in part and that are poisoned (R203). -/
def State.partialPoison (s : State) (k n : Nat) : Bool :=
  decide (s.poison ≠ []) && (List.range n).any (fun i =>
    s.poisoned (k + i) && !(decide (k ≤ (k + i) / 4 * 4) && decide ((k + i) / 4 * 4 + 4 ≤ k + n)))

/-- The POISON check of R203 on a span of bytes at a key: a store that covers a word of scratchpad, or an XCCLR that covers
a codeword, whole writes it anew (R366). -/
def State.poisonStops (s : State) (k n : Nat) (op : AccOp) : Bool :=
  match op with
  | .store .. => if k < 2 ^ 60 then s.partialPoison k n else s.partlyPoisoned k n
  | .vstore .. => if k < 2 ^ 60 then s.partialPoison k n else s.partlyPoisoned k n
  | .xcclr => if k < 2 ^ 60 then s.anyPoison k n else s.partlyPoisoned k n
  | _ => s.anyPoison k n

/-! ### The owning bank (R127, R200 step 4) -/

/-- Side tags written by a vector store through TAGGED (R40). -/
def State.setLaneTags (s : State) (k : Nat) (ts : List Tag) : State :=
  (ts.zipIdx).foldl (fun s p => s.setSideTag (k + 4 * p.2) p.1) s

/-- An access performed at the owning bank, past the checks of step 4. -/
def State.bankPerform (s : State) (a : Access) : State × Reply :=
  let core := homeOf a.ea
  let w := winOf a.ea
  let k := spadKey core (offOf a.ea)
  if w = 0 then
    let r := s.rawPerform k a (fun _ => none)
    (r.1, r.2.1)
  else if w = 1 then
    let r := s.rawPerform k a (fun j => some (s.sideTag (k + 4 * j)))
    match a.op with
    | .vstore _ _ ts => (r.1.setLaneTags k ts, r.2.1)
    | _ => (r.1, r.2.1)
  else
    let i := elemIndex a.ea
    let cnt := a.size / 4
    let ws := (List.range cnt).map (fun j => s.elemImage core w a.olscale.toNat (i + j))
    let enc := fun (ls : List W32) =>
      let es := ls.map (encodeElem w (fpSat a.fpctl))
      let fl := es.foldl (fun f e => f ||| e.2) 0
      if trapsOn a.fpctl fl then (s, Reply.fault .fpexc (dbl fl.toNat))
      else (s.store (spadKey core (i * elemBytes w)) (es.flatMap (fun e => e.1)), .data [] fl)
    match a.op with
    | .store lo hi => enc (if cnt = 1 then [lo] else [lo, hi])
    | .vstore _ ls _ => enc ls
    | .vload _ _ => (s, .data (ws.map (fun v => (v, if 6 ≤ w then Tag.exact else winTag a.winsig w))) 0)
    | _ => (s, .data (ws.map (fun v => (v, 0))) 0)

/-- The word of a double as an answer. -/
def wordReply (v : Word) : Reply := .data [(lowW v, 0), (highW v, 0)] 0

/-- Whether n bytes of a RAW address meet a registered range, as a store does (R63; log entry 28). -/
def State.rangeStops (s : State) (a n : Nat) : Bool := blocksStore (s.spadMeets (rawKey a) (rawKey a + n))

/-- An S-space access at its serving point: the checks of step 4 of R200 in order, then its effect; the
accesses of the Vesper unit and of the task counters with it. -/
def State.serveBank (s : State) (src : Who) (a : Access) : State × Reply :=
  let core := homeOf a.ea
  let ea := dbl a.ea
  match a.op with
  | .syncInit img =>
    match s.syncInit a.ea img with
    | some s' => if s.rangeStops a.ea 64 then (s, .fault .rangeLocked ea) else (s', .data [] 0)
    | none => (s, .fault .sync ea)
  | .syncMode sel =>
    match s.syncMode a.ea src.core sel with | some v => (s, wordReply v) | none => (s, .fault .sync ea)
  | .taskInit c =>
    match s.taskInit a.ea c a.launch with
    | some s' => if s.rangeStops a.ea 4 then (s, .fault .rangeLocked ea) else (s', .data [] 0)
    | none => (s, .fault .sync ea)
  | op =>
    let sp := s.spans a
    if op.writes && sp.any (fun p => s.liveTouch core p.1 p.2 || s.queuedTouch core p.1 p.2) then (s, .fault .sync ea)
    else
      let rs := sp.flatMap (fun p => s.spadMeets (spadKey core p.1) (spadKey core p.1 + p.2))
      if (if op.writes then blocksStore rs else blocksLoad rs) then (s, .fault .rangeLocked ea)
      else if sp.any (fun p => s.poisonStops (spadKey core p.1) p.2 op) then (s, .fault .poison ea)
      else s.bankPerform a

/-! ### The edge core (R127, R200 step 4, R95) -/

/-- The line of a large core's cache that holds an address (R134). -/
def State.line? (s : State) (core : Nat) (pid : BitVec 16) (va : Nat) : Option Line :=
  (s.core core).cache.find? (fun l => l.pid == pid && l.addr == va / 64 * 64)

/-- A core's cache with one line put in or replaced. -/
def State.setLine (s : State) (core : Nat) (l : Line) : State :=
  let c := s.core core
  s.setCore core { c with cache := l :: c.cache.filter (fun m => !(m.pid == l.pid && m.addr == l.addr)) }

/-- Whether a large core has acknowledged a pending shootdown of an address's line: it takes the line no more until the
last agent has acknowledged (R364). -/
def State.shotLine (s : State) (core : Nat) (pid : BitVec 16) (va : Nat) : Bool :=
  s.sys.shoots.any (fun x => x.acked.contains (32 + (core - largeBase)) && (x.all || decide (pid.toNat = x.pid)) &&
    decide (va / 64 * 64 < x.hi ∧ x.lo < va / 64 * 64 + 64))

/-- The tags of a line's sixteen words, from the shadow byte of the word at an address of it. -/
def State.lineTags (s : State) (va : Nat) (shadow : Option Nat) : List Tag :=
  match shadow with
  | some k => (List.range 16).map (fun j => BitVec.ofNat 6 (s.byte (k - va % 64 / 4 + j)).toNat)
  | none => []

/-- A large core's cache after one of its accesses was performed: a load brings its line in with the tags of a TAGS page,
and a write updates the bytes of a line that is there (R134; log entry 15). -/
def State.refreshLine (s : State) (src : Who) (a : Access) (key : Nat) (shadow : Option Nat) : State :=
  if !isLarge src.core then s
  else
    let base := key - a.ea % 64
    if a.op.writes then
      match s.line? src.core a.pid a.ea with
      | some l =>
        s.setLine src.core { l with bytes := l.bytes.mapIdx (fun j b =>
          if a.ea % 64 ≤ j ∧ j < a.ea % 64 + a.size then s.byte (base + j) else b) }
      | none => s
    else if !a.fill || s.shotLine src.core a.pid a.ea || shadow.any (fun k => s.anyPoison (k - a.ea % 64 / 4) 16) then s
    else s.setLine src.core { pid := a.pid, addr := a.ea / 64 * 64, bytes := s.bytes base 64, tags := s.lineTags a.ea shadow }

/-- A large core's line after the tags of the words that its access touches were read or written (R95, R134). -/
def State.retagLine (s : State) (src : Who) (a : Access) (shadow : Nat) : State :=
  match s.line? src.core a.pid a.ea with
  | some l =>
    if isLarge src.core then s.setLine src.core { l with tags := l.tags.mapIdx (fun j t =>
      if a.ea % 64 / 4 ≤ j ∧ j < a.ea % 64 / 4 + (a.size + 3) / 4 then
        BitVec.ofNat 6 (s.byte (shadow + (j - a.ea % 64 / 4))).toNat
      else t) }
    else s
  | none => s

/-- Whether an access also reads or writes the shadow bytes of a TAGS page (R48). -/
def AccOp.shadows (op : AccOp) : Bool :=
  op.writes || (match op with | .vload .. => true | _ => false)

/-- A store to host memory is performed for the part before it passes the CXL ordering point (R51, R135). -/
def State.postWrite (s : State) (src : Who) (a : Access) (key : Nat) : State :=
  if key < 2 ^ 61 then s
  else
    let posts := match a.op with
      | .store .. => true
      | .vstore .. => true
      | .xcclr => true
      | .launchZero _ => true
      | _ => false
    if posts then { s with posted := s.posted ++ [{ thread := (s.slot src).thread, launch := a.launch, ea := a.ea, key := key, old := s.bytes key a.size }] } else s

/-- A V-space access performed at its serving point (R200 step 4): the next stage is its answer, or the shadow
bytes of a TAGS page (R95).  An uncorrectable codeword of the shadow bytes takes POISON as one of the data does (R203,
R266; log entry 15). -/
def State.serveEdge (s : State) (src : Who) (a : Access) (key : Nat) (shadow : Option Nat) : State × Stage :=
  let rs := s.vMeets a.pid a.ea (a.ea + a.size)
  let ea := dbl a.ea
  if (if a.op.writes then blocksStore rs else blocksLoad rs) then (s, .answered (.fault .rangeLocked ea))
  else if s.poisonStops key a.size a.op then (s, .answered (.fault .poison ea))
  else if shadow.any (fun k => a.op.shadows && s.anyPoison k ((a.size + 3) / 4)) then (s, .answered (.fault .poison ea))
  else
    let s := s.postWrite src a key
    let r := s.rawPerform key a (fun _ => none)
    let s' := r.1.refreshLine src a key shadow
    match shadow with
    | some k => if a.op.shadows && (!a.op.writes || r.2.2) then (s', .shadow k r.2.1) else (s', .answered r.2.1)
    | none => (s', .answered r.2.1)

/-- The shadow bytes read or written: a vector load takes its tags from them, a vector store writes each word's
tag, and every other write writes 62; a large core's line holds the tags that its own accesses leave (R48, R95, R134). -/
def State.serveShadow (s : State) (src : Who) (a : Access) (k : Nat) (r : Reply) : State × Reply :=
  let n := (a.size + 3) / 4
  let tag := fun j => BitVec.ofNat 6 (s.byte (k + j)).toNat
  match a.op, r with
  | .vload d _, .data ws fl =>
    (s.retagLine src a k, .data (tagWords a.winsig d (fun j => some (tag j)) (ws.map (fun p => p.1))) fl)
  | .vstore _ _ ts, _ => ((s.setBytes k (ts.map (fun t => t.zeroExtend 8))).retagLine src a k, r)
  | _, _ => ((s.setBytes k (List.replicate n (Tag.none.zeroExtend 8))).retagLine src a k, r)

/-! ### What a page must allow (R362) -/

/-- The permissions an operation needs of its page (R51, R362). -/
def AccOp.need (op : AccOp) (ripe : Bool) : Need :=
  { r := (match op with
    | .load _ => true | .vload .. => true | .xcread => true | .atomic .. => true | .launchRead => true | .status => true
    | _ => false)
    w := op.writes, x := false, atomic := op.special, shadow := op.shadows, ripe := ripe }

/-- A receiving event of R132 at a core: a large core's cache is invalidated (R134). -/
def State.acquired (s : State) (c : Nat) : State :=
  if isLarge c then s.setCore c { s.core c with cache := [] } else s

end Sys2Proof.Machine
end

