-- ==== Sys2Proof/Machine/Order.lean ====
section
/-! DEFINITION.  The order of messages: what a message is bound for, which of a thread's messages must be performed
before another (R128, R130, R227, R322), the holding buffers of a stopped core (R344-R346, R385), the service queues
(R54) and the edge cores' windows (R50). -/

namespace Sys2Proof.Machine

/-- Whether an access has been performed, its shadow bytes included (R95). -/
def Stage.performed : Stage → Bool
  | .answered _ => true
  | _ => false

/-- The core that a message is bound for: where it will act next, until it has. -/
def Msg.boundFor (m : Msg) : Option Nat :=
  match m.body with
  | .access a => match a.stage with
    | .owner => some (homeOf a.ea)
    | .answered _ => some m.src.core
    | _ => none
  | .sync _ (.waiting _) => none
  | .sync d _ => some (homeOf d)
  | .ack .. => some m.src.core
  | .work _ o _ => some o.core
  | .runResult w _ _ => some w.core
  | .packet _ dest _ st _ => if st = 0 then some dest else if st < 3 then some m.src.core else none
  | .decrement r _ _ _ => some (homeOf r)
  | .mail c _ _ _ _ parked _ => if parked then none else some c
  | .append ring _ _ parked _ _ => if parked then none else some (homeOf ring)
  | .steal v => some v
  | .peer .. => some m.src.core
  | .answer w _ => some w.core
  | _ => none

/-- Whether a message still has to act at a core: a release at each core that it has not reached yet (R112). -/
def Msg.boundAt (m : Msg) (c : Nat) : Bool :=
  match m.body with
  | .release _ _ _ todo _ => todo.contains c
  | _ => decide (m.boundFor = some c)

/-- Whether a message of a thread must be performed before a later one: relaxed accesses to one address (R128),
fire-and-forget operations to one address (R130), messages to one mailbox or ring (R227, R381), requests to one home
(R322). -/
def mustPrecede (q m : Msg) : Bool :=
  decide (q.src = m.src) && (match q.body, m.body with
    | .access b, .access a => decide (b.ea = a.ea) && !b.stage.performed && ((a.relaxed && b.relaxed) || (a.ff && b.ff))
    | .access b, .decrement r _ _ _ => b.ff && decide (b.ea = r) && !b.stage.performed
    | .decrement r _ _ _, .access a => a.ff && decide (a.ea = r)
    | .decrement r _ _ _, .decrement r' _ _ _ => decide (r = r')
    | .mail c b _ _ _ parked _, .mail c' b' _ _ _ _ _ => decide (c = c' ∧ b = b') && !parked
    | .append r _ _ parked _ _, .append r' _ _ _ _ _ => decide (r = r') && !parked
    | .sync _ (.waiting _), .sync _ _ => false
    | .sync d _, .sync d' _ => decide (homeOf d = homeOf d')
    | _, _ => false)

/-- Whether a message may be performed now: none that must be performed before it still waits. -/
def State.inOrder (s : State) (m : Msg) : Bool := (s.earlier m.id).all (fun q => !mustPrecede q m)

/-! ### Holding buffers (R344-R346, R385) -/

/-- Whether a held message still waits for its core. -/
def State.holdsFor (s : State) (c id : Nat) : Bool :=
  match s.msg? id with
  | some m => m.boundAt c
  | none => false

/-- Whether a core may act on a message: it runs, and no message that its buffer holds ahead of this one still waits:
held messages are injected in their order of arrival (R344-R346). -/
def State.mayAct (s : State) (c id : Nat) : Bool :=
  s.coreRuns c && (match (s.core c).buffer.find? (s.holdsFor c) with
    | some k => k == id
    | none => true)

/-- A message in the holding buffer of a stopped core, unless one that must be performed before it is still under way
(R344). -/
def State.hold (s : State) (c : Nat) (m : Msg) : State :=
  let k := s.core c
  let b := k.buffer.filter (s.holdsFor c)
  if b.contains m.id || (s.earlier m.id).any (fun q => mustPrecede q m && !b.contains q.id) then s
  else s.setCore c { k with buffer := b ++ [m.id] }

/-- Whether what is told to a core now takes effect there at once: the core runs, and its buffer holds nothing that has still
to act (R344-R346). -/
def State.hears (s : State) (c : Nat) : Bool := s.coreRuns c && !(s.core c).buffer.any (s.holdsFor c)

/-- A message out of its core's holding buffer. -/
def State.unhold (s : State) (c id : Nat) : State :=
  s.setCore c { s.core c with buffer := (s.core c).buffer.filter (fun k => k != id) }

/-! ### Service queues (R53, R54) -/

/-- Whether a message is an active message that its core's service slot serves. -/
def Msg.isService (m : Msg) : Bool :=
  match m.body with
  | .access a => decide (a.stage = .owner)
  | .steal _ => true
  | _ => false

/-- Whether a message in a service queue still waits there. -/
def State.queuedAt (s : State) (id : Nat) : Bool := ((s.msg? id).map Msg.isService).getD false

/-- An active message takes a place in its core's service queue, if one of the 64 is free (R54). -/
def State.enterService (s : State) (c : Nat) (m : Msg) : State :=
  let k := s.core c
  let q := k.service.filter s.queuedAt
  if q.contains m.id || decide (64 ≤ q.length) || (s.earlier m.id).any (fun p => mustPrecede p m && !q.contains p.id) then s
  else (s.setCore c { k with service := q ++ [m.id] }).unhold c m.id

/-- Whether a service slot takes up a message next (R54). -/
def State.servesNext (s : State) (c id : Nat) : Bool :=
  s.coreRuns c && decide ((s.core c).service.find? s.queuedAt = some id)

/-! ### Packets that reach a core in one cycle (R321) -/

/-- Whether a packet still waits for its admission. -/
def State.packetAt (s : State) (id : Nat) : Bool :=
  match s.msg? id with
  | some m => (match m.body with | .packet _ _ _ 0 _ => true | _ => false)
  | none => false

/-- A place by origin core and then origin slot among those that came in the same cycle (R321). -/
def State.insertPacket (s : State) (m : Msg) : List Nat → List Nat
  | [] => [m.id]
  | k :: r =>
    match s.msg? k with
    | some q => if m.src.core < q.src.core ∨ (m.src.core = q.src.core ∧ m.src.slot < q.src.slot) then m.id :: k :: r
      else k :: s.insertPacket m r
    | none => k :: s.insertPacket m r

/-- The packets that reached a core in cycles that have ended: those ahead of the last mark (R321). -/
def Core.reachedBefore (c : Core) : List Nat := (c.reached.reverse.dropWhile (fun i => i != 0)).reverse

/-- A context packet reaches its destination in this cycle, behind those of earlier cycles (R321). -/
def State.enterReached (s : State) (c : Nat) (m : Msg) : State :=
  let k := s.core c
  let now := (k.reached.reverse.takeWhile (fun i => i != 0)).reverse.filter s.packetAt
  let before := k.reachedBefore.filter s.packetAt
  if now.contains m.id || before.contains m.id then s
  else (s.setCore c { k with
    reached := (if before = [] then [] else before ++ [0]) ++ s.insertPacket m now }).unhold c m.id

/-- Whether a packet is the next to be admitted: the first that waits, once the cycle in which it came has ended with the
slots' work and the spill area's move (R321). -/
def State.admitsNext (s : State) (c id : Nat) : Bool :=
  s.coreRuns c && decide ((s.core c).reachedBefore.find? s.packetAt = some id)

/-! ### The edge cores' windows (R50) -/

/-- The edge core of a device byte, one for each pair of channels. -/
def State.edgeOf (s : State) (key : Nat) : Nat := s.channelAt (key - 2 ^ 60) / 2

/-- The key at which an access is served next by an edge core, or at the host's ordering point; none elsewhere. -/
def Msg.edgeKey (m : Msg) : Option Nat :=
  match m.body with
  | .access a => match a.stage with
    | .edge k _ => some k
    | .shadow k _ => some k
    | _ => none
  | _ => none

/-- The bytes of an access at its edge core: its data, or its shadow bytes. -/
def Msg.edgeSpan (m : Msg) : Nat × Nat :=
  match m.body with
  | .access a => match a.stage with
    | .edge k _ => (k, k + a.size)
    | .shadow k _ => (k, k + (a.size + 3) / 4)
    | _ => (0, 0)
  | _ => (0, 0)

/-- The requests that wait in an edge core's window, in order of arrival. -/
def State.window (s : State) (e : Nat) : List (Nat × Nat) :=
  (mapGet s.edges [] e).filter (fun p => match s.msg? p.1 with
    | some m => (match m.edgeKey with | some k => decide (k < 2 ^ 61) && decide (s.edgeOf k = e) | none => false)
    | none => false)

/-- A request takes a place in its edge core's window, if one of the 256 is free (R50). -/
def State.enterWindow (s : State) (m : Msg) (key : Nat) : State :=
  let e := s.edgeOf key
  let w := s.window e
  if decide (2 ^ 61 ≤ key) || w.any (fun p => p.1 == m.id) || decide (256 ≤ w.length) ||
      (s.earlier m.id).any (fun q => mustPrecede q m && !w.any (fun p => p.1 == q.id)) then s
  else { s with edges := mapPut s.edges e (w ++ [(m.id, 0)]) }

/-- Whether a request waits behind another in a window: of the same thread, or for the same bytes (R50). -/
def edgeBehind (q m : Msg) : Bool := decide (q.src = m.src) || overlaps q.edgeSpan.1 q.edgeSpan.2 m.edgeSpan.1 m.edgeSpan.2

/-- Whether an edge core may serve a request next: it stands in the window, behind none that it must follow, and none
ahead of it has been passed 255 times (R50). -/
def State.edgeServes (s : State) (m : Msg) (key : Nat) : Bool :=
  decide (2 ^ 61 ≤ key) ||
  (let w := s.window (s.edgeOf key)
   w.any (fun p => p.1 == m.id) &&
   (w.takeWhile (fun p => p.1 != m.id)).all (fun p => decide (p.2 < 255) &&
     (match s.msg? p.1 with | some q => !edgeBehind q m | none => true)))

/-- A request served leaves its window, and has passed those ahead of it (R50). -/
def State.leaveWindow (s : State) (m : Msg) (key : Nat) : State :=
  if 2 ^ 61 ≤ key then s
  else
    let e := s.edgeOf key
    let w := s.window e
    let ahead := w.takeWhile (fun p => p.1 != m.id)
    { s with edges := mapPut s.edges e (ahead.map (fun p => (p.1, p.2 + 1)) ++ (w.drop ahead.length).drop 1) }

/-! ### Writes on their way to the host (R135) -/

/-- Whether a posted write covers a byte. -/
def Posted.covers (p : Posted) (k : Nat) : Bool := decide (p.key ≤ k ∧ k < p.key + p.old.length)
/-- A byte of host memory as the host sees it: a write that has not passed the CXL ordering point is not there yet. -/
def State.hostByte (s : State) (k : Nat) : Byte :=
  match s.posted.find? (fun p => p.covers k) with
  | some p => p.old.getD (k - p.key) 0
  | none => s.byte k
/-- Whether a posted write meets n bytes of host memory. -/
def State.postedMeets (s : State) (k n : Nat) : Bool := s.posted.any (fun p => overlaps k (k + n) p.key (p.key + p.old.length))

/-- The k-th posted write passes the ordering point, after every earlier one of the same bytes; none passes while the host
is fenced (R135, R374). -/
def State.drainPosted (s : State) (k : Nat) : State :=
  match s.posted[k]? with
  | some p =>
    if s.sys.fenced || (s.posted.take k).any (fun q => overlaps p.key (p.key + p.old.length) q.key (q.key + q.old.length)) then s
    else { s with posted := s.posted.eraseIdx k }
  | none => s

/-- The host writes its own memory, once no write of the part to those bytes is on its way (R135, R138). -/
def State.hostWrites (s : State) (addr : Nat) (bs : List Byte) : State :=
  if s.postedMeets (hostKey addr) bs.length then s else s.physWrite (hostKey addr) bs

end Sys2Proof.Machine
end

