-- ==== Sys2Proof/Machine/Access.lean ====
section
/-! DEFINITION.  Memory accesses from issue to completion: the checks at issue (R37-R39, R200 steps 1 and 2), the
waits (R128, R129, R202, R214), and the steps that carry an access on: translation, serving, reply and
acknowledgement (R45, R50, R53, R201, R215, R362). -/

namespace Sys2Proof.Machine

/-- The first offset past a window's populated span (R38). -/
def windowSpan (w : Nat) : Nat :=
  match w with | 0 => 0x20000 | 1 => 0x20000 | 2 => 0x40000 | 5 => 0xE0000 | _ => 0x80000

/-- Whether an access through a window touches the reserved area (R44). -/
def touchesReserved (ea size : Nat) : Bool :=
  let w := winOf ea
  let i := elemIndex ea
  if w ≤ 1 then decide (reservedBase < offOf ea + size)
  else if w = 5 then false
  else decide (reservedBase < i * elemBytes w + size / 4 * elemBytes w)

/-- Steps 1 and 2 of R200: ALIGN, then ACCESS by R37, R39, R45 and the window table of the instruction. -/
def State.accessCause (s : State) (x : Slot) (ea : Word) (size : Nat) (allow : Nat → Bool) : Option Cause :=
  let a := ea.toNat
  if a % size ≠ 0 then some .align
  else if 2 ^ 56 ≤ a then some .access
  else if 2 ^ 39 ≤ a then none
  else
    let w := winOf a
    if !allow w then some .access
    else if windowSpan w ≤ offOf a then some .access
    else if !s.inPart x.part (homeOf a) then some .access
    else if decide (x.mode = .user) && touchesReserved a size then some .access
    else if decide (w = 5) && decide (reservedBase ≤ x.csr.olscale.toNat + elemIndex a / 32) then some .access
    else none

/-- Whether an S-space address lies in the thread's own super-group (R53, R202). -/
def nearBank (core ea : Nat) : Bool := !isLarge core && decide (sgOf (homeOf ea) = sgOf core)

/-- The low bytes of a loaded value, extended (R204). -/
def loadValue (size : Nat) (signed : Bool) (ws : List (W32 × Tag)) : Word :=
  let lo := (ws.headD (0, 0)).1
  let hi := (ws.getD 1 (0, 0)).1
  if size = 8 then joinW lo hi
  else
    let v : Word := lo.zeroExtend 64
    if signed then sext (8 * size) v else zext (8 * size) v

/-- The lanes of a vector load (R264). -/
def Slot.putLanes (x : Slot) (r : BitVec 4) (double broadcast : Bool) (ws : List (W32 × Tag)) : Slot :=
  (List.range 4).foldl (fun x l =>
    let j := if broadcast then (if double then l % 2 else 0) else l
    let p := ws.getD j (0, 0)
    x.setLane r l p.1 p.2) x

/-- The destination of an access written, and its flags accrued (R201, R204, R207, R209, R264). -/
def Slot.deliver (x : Slot) (a : Access) (ws : List (W32 × Tag)) (fl : Flags) : Slot :=
  let x := if fl = 0 then x else x.accrue fl
  match a.dest with
  | .none => x
  | .general r =>
    match a.op with
    | .load sg => x.setG r (loadValue a.size sg ws)
    | .atomic .. => x.setG r (loadValue a.size true ws)
    | .syncInit _ => x.setG r 0
    | _ => x.setG r (loadValue 8 false ws)
  | .vector r =>
    match a.op with
    | .vload d b => x.putLanes r d b ws
    | _ => x

/-- Sixteen words as the number a cell holds. -/
def cellOf (ws : List (W32 × Tag)) : Nat := leNat (ws.flatMap (fun p => leBytes 4 p.1.toNat))

/-- An access as the running slot sends it. -/
def State.mkAccess (s : State) (op : AccOp) (ea : Word) (size : Nat) (dest : Dest) (rlx ff : Bool) (st : Stage) : Access :=
  let x := s.me
  { op := op, ea := ea.toNat, size := size, dest := dest, relaxed := rlx, ff := ff, fpctl := x.csr.fpctl,
    winsig := x.csr.winsig, olscale := x.csr.olscale, super := decide (x.mode ≠ .user), pid := x.pid, part := x.part,
    launch := x.launch, stage := st }

/-- An access on its way while the slot parks until its reply. -/
def State.sendAccess (s : State) (a : Access) : State := (s.send s.cur 0 (.access a)).setPark s.cur (.reply s.nextId)

/-- A LAUNCH past its accesses: the record goes to the distributor, with the issuing launch's own priority, and the
slot parks until it is queued (R256). -/
def State.sendRecord (s : State) (record : Nat) (dest : Dest) : State :=
  let own := ((s.launch? s.me.launch).map (fun l => l.own)).getD 23
  let d := match dest with | .general r => r | _ => 0
  (s.send s.cur d (.record record own none)).setPark s.cur (.reply s.nextId)

/-- Whether an address is 64-byte aligned in V-space, as a completion record is (R256, R342). -/
def doneOk (a : Nat) : Bool := decide (a % 64 = 0) && decide (2 ^ 39 ≤ a) && decide (a < 2 ^ 56)

/-- A LAUNCH that has read its record's done, prio and part: another partition takes ACCESS, and a usable done field
has its status written zero next (R256). -/
def State.launchNext (s : State) (a : Access) (ws : List (W32 × Tag)) : State :=
  let n := leNat (ws.flatMap (fun p => leBytes 4 p.1.toNat))
  let record := a.ea - 16
  let done_ := n % 2 ^ 64
  if nfield n 200 4 ≠ s.me.part then s.raise .access (dbl record)
  else if doneOk done_ then s.sendAccess (s.mkAccess (.launchZero record) (dbl done_) 4 a.dest false false .walk)
  else s.sendRecord record a.dest

/-- LWAIT's read of the status field: zero parks the slot, and any other value is the receipt of the launch's
completion (R132, R257). -/
def State.statusRead (s : State) (a : Access) (ws : List (W32 × Tag)) : State :=
  let v := loadValue 4 false ws
  let d := match a.dest with | .general r => r | _ => 0
  if v = 0 then s.parkOn (.statusSet a.ea) else (s.result d v).acquired s.cur.core

/-- Whether a ring's size is valid (R57). -/
def ringSizeOk (n : Nat) : Bool := decide (256 ≤ n ∧ n ≤ 65536) && decide (2 ^ Nat.log2 n = n)
/-- Whether a control block is an enabled inbox ring with a valid size (R57). -/
def State.isRing (s : State) (ring : Nat) : Bool := nbit (s.nat (rawKey ring + 12) 4) 0 && ringSizeOk (s.nat (rawKey ring + 8) 4)
/-- Whether a load covers the tail of an inbox ring, which makes it the receiving event of R132. -/
def State.readsTail (s : State) (a : Access) : Bool :=
  decide (a.ea < 2 ^ 37) && decide (a.ea % 64 ≤ 4 ∧ 8 ≤ a.ea % 64 + a.size) && s.isRing (a.ea / 64 * 64)

/-- Whether an operation is a scalar or vector load. -/
def AccOp.loads (op : AccOp) : Bool := match op with | .load _ => true | .vload .. => true | _ => false

/-- A non-relaxed access of the running slot completes with its answer (R200, R202, R218); a load, scalar or vector, that
covers a ring's tail is a receiving event (R132, R134). -/
def State.finishAccess (s : State) (a : Access) (r : Reply) : State :=
  match r with
  | .fault c v =>
    (if c = .fpexc then s.setMe (s.me.accrue (BitVec.ofNat 5 v.toNat)) else s).raise c v
  | .data ws fl =>
    match a.op, a.dest with
    | .launchRead, _ => s.launchNext a ws
    | .launchZero r, d => s.sendRecord r d
    | .status, _ => s.statusRead a ws
    | .xcread, .vector d =>
      let e := cellElem s.me.rm (cellOf ws)
      s.finishFp 2 1 [e] [e] (fun x => x.setLane d 0 (BitVec.ofNat 32 e.val) e.tag)
    | op, _ =>
      let t := s.setMe (s.me.deliver a ws fl).next
      if op.loads && !a.relaxed && isLarge s.cur.core && s.readsTail a then t.acquired s.cur.core else t

/-- The answer of a large core's cached line to a load (R134; log entry 15). -/
def State.cachedAnswer (s : State) (a : Access) : Option Reply :=
  if !isLarge s.cur.core || decide (a.ea < 2 ^ 39) then none
  else match s.line? s.cur.core a.pid a.ea with
    | none => none
    | some l =>
      let n := leNat ((l.bytes.drop (a.ea % 64)).take a.size)
      let ws : List W32 := if a.size < 4 then [BitVec.ofNat 32 n]
        else (List.range (a.size / 4)).map (fun j => BitVec.ofNat 32 (n / 2 ^ (32 * j)))
      match a.op with
      | .load _ => some (.data (ws.map (fun v => (v, 0))) 0)
      | .vload d _ =>
        match l.tags with
        | [] => some (.data (tagWords a.winsig d (fun _ => none) ws) 0)
        | ts => some (.data (tagWords a.winsig d (fun j => some (ts.getD (a.ea % 64 / 4 + j) Tag.none)) ws) 0)
      | _ => none

/-- Where an access of the running slot is first dealt with. -/
def State.firstStage (s : State) (ea : Word) : Stage :=
  if 2 ^ 39 ≤ ea.toNat then .walk else if nearBank s.cur.core ea.toNat then .bank else .owner

/-- A non-relaxed access past its waits: performed at once in the thread's own super-group, unless the bank's core has
stopped, or from a large core's cache; otherwise sent while the slot parks (R53, R134, R202, R344). -/
def State.perform (s : State) (a : Access) : State :=
  match s.cachedAnswer a with
  | some r => s.finishAccess a r
  | none =>
    match a.stage with
    | .bank =>
      if s.coreRuns (homeOf a.ea) then
        let r := s.serveBank s.cur a
        r.1.finishAccess a r.2
      else s.sendAccess a
    | _ => s.sendAccess a

/-- Whether a relaxed access of the running slot to a line has not been performed yet. -/
def State.lineBusy (s : State) (a : Access) : Bool :=
  s.net.any (fun m => decide (m.src = s.cur) && (match m.body with
    | .access b => b.relaxed && decide (b.ea / 64 = a.ea / 64) && !b.stage.performed
    | _ => false))

/-- A relaxed access: a fifth waits for the oldest, otherwise the instruction completes with the access in
flight, or at once from a large core's cache where no earlier relaxed access to the line still waits (R128, R134,
R201). -/
def State.performRelaxed (s : State) (a : Access) : State :=
  match s.me.outstanding with
  | o :: _ :: _ :: _ :: _ => s.parkOn (.result o.id)
  | _ =>
    match (if s.lineBusy a then none else s.cachedAnswer a) with
    | some r => s.finishAccess a r
    | none =>
      let s' := s.send s.cur 0 (.access a)
      let x := s'.me
      s'.setMe ({ x with relaxed := x.relaxed ++ [{ id := s.nextId, dest := a.dest, fault := none }] } : Slot).next

/-- A fire-and-forget operation sent, with room for its acknowledgement (R213, R214). -/
def State.sendAcked (s : State) (addr : Nat) (b : Body) (arrive : Bool) : State :=
  let s' := s.send s.cur 0 b
  s'.setMe { s'.me with unacked := s'.me.unacked ++ [{ id := s.nextId, addr := addr, fault := none, arrive := arrive }] }

/-- The room for one more unacknowledged operation, or a park (R214). -/
def State.ackRoom (s : State) (k : State → State) : State :=
  if 64 ≤ s.me.unackedNow.length then s.parkOn .ackRoom else k s

/-- A memory instruction (R200-R202, R213): its checks at issue, its waits, and its access. -/
def State.access (s : State) (op : AccOp) (ea : Word) (size : Nat) (dest : Dest) (rlx ff : Bool)
    (allow : Nat → Bool) : State :=
  match s.accessCause s.me ea size allow with
  | some c => s.raise c ea
  | none =>
    let a := s.mkAccess op ea size dest rlx ff (s.firstStage ea)
    if ff then s.ackRoom (fun s => (s.sendAcked ea.toNat (.access a) false).advance)
    else if rlx then s.performRelaxed a
    else s.waitRelaxed (fun s => s.perform a)

/-! ### The steps that carry an access on -/

/-- An access at a new stage. -/
def State.toStage (s : State) (m : Msg) (a : Access) (st : Stage) : State := s.rebody m.id (.access { a with stage := st })

/-- The shadow key under which a large core's cache takes the line of an access that uses no shadow byte itself, and whether
it takes the line: not where a TAGS page's shadow bytes cannot be reached (R48, R134). -/
def State.fillKey (s : State) (a : Access) (src : Who) (ripe : Bool) (sh : Option Nat) : Option Nat × Bool :=
  if !isLarge src.core || a.op.shadows then (sh, true)
  else match s.translate a.part a.pid { a.op.need ripe with shadow := true } a.ea with
    | .ok _ j => (j, true)
    | _ => (none, false)

/-- What a translation does with an access (R200 step 3, R362). -/
def State.translated (s : State) (m : Msg) (a : Access) (since : Nat) (asked ripe : Bool) : State :=
  match s.translate a.part a.pid (a.op.need ripe) a.ea with
  | .ok k sh =>
    let f := s.fillKey a m.src ripe sh
    (s.keepWalk a.part a.pid a.ea).toStage m { a with fill := f.2 } (.edge k f.1)
  | .fault c => s.toStage m a (.answered (.fault c (dbl a.ea)))
  | .held ask =>
    let s := if ask && !asked then s.askMigration a.part a.pid m.src a.launch a.ea else s
    s.toStage m a (.held since (asked || ask))

/-- TRANSLATION_WALK: a station translates a waiting request, from its cache when the environment says so
(R45, R362, R363). -/
def execTranslationWalk (id : Nat) (cached : Bool) (s : State) : Out :=
  match s.msg? id with
  | some m =>
    match m.body with
    | .access a =>
      match a.stage with
      | .walk => .next ({ s with cached := cached }.translated m a s.sys.meridian false false)
      | _ => .next s
    | _ => .next s
  | none => .next s

/-- Whether a request for the same page that came to the station earlier is still held (R362: held requests are
re-walked in arrival order); of two that came in one instant the one sent first. -/
def State.heldBefore (s : State) (m : Msg) (since : Nat) (pid : BitVec 16) (va : Nat) : Bool :=
  let first := fun (t id : Nat) => decide (t < since) || (decide (t = since) && decide (id < m.id))
  s.net.any (fun q => match q.body with
    | .access b => decide (b.pid = pid) && decide (b.ea / 2 ^ 16 = va / 2 ^ 16) &&
        (match b.stage with | .held t _ => first t q.id | _ => false)
    | .fetch v t _ ripe => decide ((s.slot q.src).pid = pid) && decide (v / 2 ^ 16 = va / 2 ^ 16) && !ripe && first t q.id
    | .fields _ p _ v _ t _ => decide (p = pid) && decide (v / 2 ^ 16 = va / 2 ^ 16) && first t q.id
    | _ => false)

/-- What a fetch needs of its page (R352, R362). -/
def fetchNeed (ripe : Bool) : Need := { r := true, w := false, x := true, atomic := false, shadow := false, ripe := ripe }

/-- A held fetch walked again: the slot fetches once the walk finds anything but a hold (R362). -/
def State.rewalkFetch (s : State) (m : Msg) (va since : Nat) (asked : Bool) : State :=
  let x := s.slot m.src
  if x.park ≠ .fetch m.id then s.drop m.id
  else match s.translate x.part x.pid (fetchNeed false) va with
  | .held ask =>
    let s := if ask && !asked then s.askMigration x.part x.pid m.src x.launch va else s
    s.rebody m.id (.fetch va since (asked || ask) false)
  | _ => (s.drop m.id).setPark m.src .ready

/-- Whether an operation at host memory waits for writes that are on their way to the ordering point: all but loads
and stores are performed by the host's home agent itself (R51, R135). -/
def AccOp.atHost (op : AccOp) : Bool :=
  match op with
  | .atomic .. => true
  | .reduce .. => true
  | .xcadd .. => true
  | .xcread => true
  | _ => false

/-- Whether a key's bytes are host memory that a fence cuts off (R374). -/
def State.cutOff (s : State) (key : Nat) : Bool := s.sys.fenced && decide (2 ^ 61 ≤ key)

/-- A request performed by an edge core, or at the host: its data, or as a second write the shadow bytes of a TAGS
page (R51, R95).  Of host memory while the host is fenced it takes FENCED, and its shadow bytes there are a shadow fault,
which is PAGE (R48, R374). -/
def State.edgePerform (s : State) (m : Msg) (a : Access) : State :=
  match a.stage with
  | .edge k sh =>
    if s.cutOff k then s.toStage m a (.answered (.fault .fenced (dbl a.ea)))
    else if a.op.shadows && sh.any s.cutOff then s.toStage m a (.answered (.fault .page (dbl a.ea)))
    else
      let r := s.serveEdge m.src a k sh
      r.1.toStage m a r.2
  | .shadow k rep =>
    if s.cutOff k then s.toStage m a (.answered (.fault .page (dbl a.ea)))
    else
      let r := s.serveShadow m.src a k rep
      r.1.toStage m a (.answered r.2)
  | _ => s

/-- EDGE_CORE_SERVE: an edge core takes a request from its window and performs it; the host performs one that has come
to it (R50, R51, R95). -/
def execEdgeCoreServe (id : Nat) (s : State) : Out :=
  match s.msg? id with
  | some m =>
    match m.body, m.edgeKey with
    | .access a, some k =>
      if !s.keyExists k then .fault (.noSuchMemory (k - 2 ^ 60))
      else if !s.inOrder m || !s.edgeServes m k || (decide (2 ^ 61 ≤ k) && a.op.atHost && s.postedMeets k a.size) then .next s
      else .next ((s.leaveWindow m k).edgePerform m a)
    | _, _ => .next s
  | none => .next s

/-- An access performed at its owner core (R53). -/
def State.ownerPerform (s : State) (m : Msg) (a : Access) : State :=
  let r := s.serveBank m.src a
  r.1.toStage m a (.answered r.2)

/-- ACTIVE_MESSAGE: the owner core's service slot performs a remote access, the first in its queue (R53, R54). -/
def execActiveMessage (id : Nat) (s : State) : Out :=
  match s.msg? id with
  | some m =>
    match m.body with
    | .access a =>
      match a.stage with
      | .owner => if !s.servesNext (homeOf a.ea) id || !s.inOrder m then .next s else .next (s.ownerPerform m a)
      | _ => .next s
    | _ => .next s
  | none => .next s

/-! ### Merging at the routers (R49) -/

/-- Whether two operations are of one kind that routers merge (R49). -/
def AccOp.merges (x y : AccOp) : Bool :=
  match x, y with
  | .load _, .load _ => true
  | .vload .., .vload .. => true
  | .atomic p _ _, .atomic q _ _ => decide (p = q) && decide (p.toNat < 8)
  | .reduce p _, .reduce q _ => decide (p = q)
  | _, _ => false

/-- Whether a message may join the group of another: not yet performed, for the same place, of one address and size. -/
def mergesWith (x y : Access) : Bool :=
  x.op.merges y.op && decide (x.ea = y.ea ∧ x.size = y.size ∧ x.pid = y.pid) &&
  (match x.stage, y.stage with
    | .owner, .owner => true
    | .edge k _, .edge j _ => decide (k = j)
    | _, _ => false)

/-- The group served: its members one after another in the order of their arrival at the router. -/
def State.serveGroup (s : State) (a : Access) : List Msg → State
  | [] => s
  | m :: r =>
    match m.body with
    | .access b =>
      if mergesWith a b && s.inOrder m then
        (match b.stage with
          | .owner => s.ownerPerform m b
          | .edge k _ => (s.leaveWindow m k).edgePerform m b
          | _ => s).serveGroup a r
      else s.serveGroup a r
    | _ => s.serveGroup a r

/-- A router's merged group takes one position at the serving point, that of its first member (R49). -/
def State.mergeServe (s : State) (ids : List Nat) : State :=
  match ids.filterMap s.msg? with
  | [] => s
  | m :: r =>
    match m.body with
    | .access a =>
      let next := match a.stage with
        | .owner => s.servesNext (homeOf a.ea) m.id
        | .edge k _ => s.keyExists k && s.edgeServes m k && !(decide (2 ^ 61 ≤ k) && a.op.atHost && s.postedMeets k a.size)
        | _ => false
      if next then s.serveGroup a (m :: r) else s
    | _ => s

/-- An access of a bank in the thread's super-group, or one already answered, with its answer and the state
after it; none while it is still on its way, or the bank's core is stopped. -/
def State.answerOf (s : State) (m : Msg) (a : Access) : Option (State × Reply) :=
  match a.stage with
  | .answered r => some (s, r)
  | .bank => if s.inOrder m && s.coreRuns (homeOf a.ea) then some (s.serveBank m.src a) else none
  | _ => none

/-- A relaxed access's answer reaches its slot: the destination is written, or the cause kept until R128
delivers it. -/
def State.relaxedReply (s : State) (w : Who) (id : Nat) (a : Access) (r : Reply) : State :=
  let x := s.slot w
  match r with
  | .data ws fl => s.setSlot w { (x.deliver a ws fl) with relaxed := x.relaxed.filter (fun q => q.id != id) }
  | .fault c v =>
    let x := if c = .fpexc then x.accrue (BitVec.ofNat 5 v.toNat) else x
    s.setSlot w { x with relaxed := x.relaxed.map (fun q => if q.id == id then { q with fault := some (c, v) } else q) }

/-- ACCESS_REPLY: the reply of a remote or relaxed access arrives (R128, R201, R202). -/
def execAccessReply (id : Nat) (s : State) : Out :=
  match s.msg? id with
  | some m =>
    match m.body with
    | .access a =>
      if a.ff || !s.mayAct m.src.core id then .next s
      else match s.answerOf m a with
        | none => .next s
        | some (s1, r) =>
          let s1 := s1.drop id
          let x := s1.slot m.src
          if a.relaxed then
            if x.relaxed.any (fun q => q.id == id) then .next (s1.relaxedReply m.src id a r) else .next s1
          else if x.park = .reply id then .next ({ s1 with cur := m.src }.finishAccess a r)
          else .next s1
    | _ => .next s
  | none => .next s

/-- The acknowledgement of an operation: its cause is kept until an instruction that waits for
acknowledgements takes it (R215). -/
def State.acked (s : State) (w : Who) (id : Nat) (f : Option (Cause × Word)) : State :=
  let x := s.slot w
  match f with
  | none => s.setSlot w { x with unacked := x.unacked.filter (fun u => u.id != id) }
  | some c => s.setSlot w { x with unacked := x.unacked.map (fun u => if u.id == id then { u with fault := some c } else u) }

/-- A refused ARRIVE's acknowledgement: the watch is cleared if it still names the object, and an AWAIT of the
object that is parked takes the SYNC in its stead (R113). -/
def State.refusedArrive (s : State) (w : Who) (id addr : Nat) : Option State :=
  let x := s.slot w
  match x.watch with
  | some v =>
    if v.desc = addr then
      let s := s.setSlot w { x with watch := none }
      match x.park with
      | .await d _ => if d = addr then some ((s.acked w id none).trapAt w .sync (dbl addr)) else none
      | _ => none
    else none
  | none => none

/-- FIRE_AND_FORGET_ACK: an acknowledgement returns, perhaps with a cause (R213-R215, R239).  A phase task that
waits for the acknowledgement of its SYNCDONE ends as EXIT does (R115).  That of a killed thread is discarded (R370). -/
def execFireAndForgetAck (id : Nat) (s : State) : Out :=
  match s.msg? id with
  | some m =>
    if !s.mayAct m.src.core id then .next s
    else match m.body with
    | .access a =>
      if !a.ff then .next s
      else match s.answerOf m a with
        | none => .next s
        | some (s1, r) =>
          .next ((s1.drop id).acked m.src id (match r with | .fault c v => some (c, v) | .data _ _ => none))
    | .ack addr f arrive =>
      let s1 := s.drop id
      if (s1.slot m.src).park = .reply id then
        match f with
        | some (c, v) => .next (s1.trapAt m.src c v)
        | none => .next (s1.endThread m.src)
      else if !(s1.slot m.src).unacked.any (fun u => u.id == id) then .next s1
      else if arrive && f.isSome then
        match s1.refusedArrive m.src id addr with
        | some s2 => .next s2
        | none =>
          let x := s1.slot m.src
          let s2 := match x.watch with
            | some v => if v.desc = addr then s1.setSlot m.src { x with watch := none } else s1
            | none => s1
          .next (s2.acked m.src id f)
      else .next (s1.acked m.src id f)
    | _ => .next s
  | none => .next s

end Sys2Proof.Machine
end

