-- ==== Sys2Proof/Machine/Memory.lean ====
section
/-! DEFINITION.  Loads, stores, atomics, reductions and exact cells: majors 0x17-0x1B (R199-R220), and vector
loads and stores: majors 0x23 and 0x24 (R263-R266). -/

namespace Sys2Proof.Machine

/-- The effective address with a scaled offset (R199, R263). -/
def offsetAddr (b : Word) (o : BitVec 12) (n : Nat) : Word := b + o.signExtend 64 * dbl n

/-- The windows of LW, LWU, LD and the f32 vector loads (R200, R263). -/
def winAny (_ : Nat) : Bool := true
/-- The windows of byte and half accesses (R200). -/
def winRaw (w : Nat) : Bool := decide (w = 0)
/-- The windows of SW, SD and VST.F32 (R200, R263). -/
def winStore (w : Nat) : Bool := decide (w ≠ 5)
/-- The windows of atomics, reductions, exact cells and the f64 vector forms (R200, R263). -/
def winTwo (w : Nat) : Bool := decide (w ≤ 1)

/-- A scalar load of n bytes (R204). -/
def State.loadG (s : State) (d a : BitVec 5) (r : BitVec 1) (o : BitVec 12) (n : Nat) (signed : Bool) (allow : Nat → Bool) : State :=
  s.access (.load signed) (offsetAddr (s.g a) o n) n (.general d) (r == 1) false allow

/-- LB (R204). -/
def execLb (d a : BitVec 5) (r : BitVec 1) (o : BitVec 12) (s : State) : Out := .next (s.loadG d a r o 1 true winRaw)
/-- LBU (R204). -/
def execLbu (d a : BitVec 5) (r : BitVec 1) (o : BitVec 12) (s : State) : Out := .next (s.loadG d a r o 1 false winRaw)
/-- LH (R204). -/
def execLh (d a : BitVec 5) (r : BitVec 1) (o : BitVec 12) (s : State) : Out := .next (s.loadG d a r o 2 true winRaw)
/-- LHU (R204). -/
def execLhu (d a : BitVec 5) (r : BitVec 1) (o : BitVec 12) (s : State) : Out := .next (s.loadG d a r o 2 false winRaw)
/-- LW (R204, R205). -/
def execLw (d a : BitVec 5) (r : BitVec 1) (o : BitVec 12) (s : State) : Out := .next (s.loadG d a r o 4 true winAny)
/-- LWU (R204, R205). -/
def execLwu (d a : BitVec 5) (r : BitVec 1) (o : BitVec 12) (s : State) : Out := .next (s.loadG d a r o 4 false winAny)
/-- LD (R204, R205). -/
def execLd (d a : BitVec 5) (r : BitVec 1) (o : BitVec 12) (s : State) : Out := .next (s.loadG d a r o 8 true winAny)

/-- A scalar store of n bytes (R206). -/
def State.storeG (s : State) (v a : BitVec 5) (r : BitVec 1) (o : BitVec 12) (n : Nat) (allow : Nat → Bool) : State :=
  s.access (.store (lowW (s.g v)) (highW (s.g v))) (offsetAddr (s.g a) o n) n .none (r == 1) false allow

/-- SB (R206). -/
def execSb (v a : BitVec 5) (r : BitVec 1) (o : BitVec 12) (s : State) : Out := .next (s.storeG v a r o 1 winRaw)
/-- SH (R206). -/
def execSh (v a : BitVec 5) (r : BitVec 1) (o : BitVec 12) (s : State) : Out := .next (s.storeG v a r o 2 winRaw)
/-- SW (R206). -/
def execSw (v a : BitVec 5) (r : BitVec 1) (o : BitVec 12) (s : State) : Out := .next (s.storeG v a r o 4 winStore)
/-- SD (R206). -/
def execSd (v a : BitVec 5) (r : BitVec 1) (o : BitVec 12) (s : State) : Out := .next (s.storeG v a r o 8 winStore)

/-- The access size of an atomic or reduction (R199). -/
def atomSize (z : BitVec 1) : Nat := if z = 1 then 8 else 4

/-- An atomic (R209): op is its code of R209, the expected value of ACAS is g[rd]. -/
def State.atomG (s : State) (op : BitVec 4) (d a b : BitVec 5) (r z : BitVec 1) : State :=
  s.access (.atomic op (s.g b) (s.g d)) (s.g a) (atomSize z) (.general d) (r == 1) false winTwo

/-- AADD (R209). -/
def execAadd (d a b : BitVec 5) (r z : BitVec 1) (s : State) : Out := .next (s.atomG 0 d a b r z)
/-- AAND (R209). -/
def execAand (d a b : BitVec 5) (r z : BitVec 1) (s : State) : Out := .next (s.atomG 1 d a b r z)
/-- AOR (R209). -/
def execAor (d a b : BitVec 5) (r z : BitVec 1) (s : State) : Out := .next (s.atomG 2 d a b r z)
/-- AXOR (R209). -/
def execAxor (d a b : BitVec 5) (r z : BitVec 1) (s : State) : Out := .next (s.atomG 3 d a b r z)
/-- AMIN (R209). -/
def execAmin (d a b : BitVec 5) (r z : BitVec 1) (s : State) : Out := .next (s.atomG 4 d a b r z)
/-- AMAX (R209). -/
def execAmax (d a b : BitVec 5) (r z : BitVec 1) (s : State) : Out := .next (s.atomG 5 d a b r z)
/-- AMINU (R209). -/
def execAminu (d a b : BitVec 5) (r z : BitVec 1) (s : State) : Out := .next (s.atomG 6 d a b r z)
/-- AMAXU (R209). -/
def execAmaxu (d a b : BitVec 5) (r z : BitVec 1) (s : State) : Out := .next (s.atomG 7 d a b r z)
/-- ASWAP (R209). -/
def execAswap (d a b : BitVec 5) (r z : BitVec 1) (s : State) : Out := .next (s.atomG 8 d a b r z)
/-- ACAS (R209). -/
def execAcas (d a b : BitVec 5) (r z : BitVec 1) (s : State) : Out := .next (s.atomG 9 d a b r z)

/-- A reduction: fire-and-forget (R212, R213). -/
def State.redG (s : State) (op : BitVec 3) (a b : BitVec 5) (z : BitVec 1) : State :=
  s.access (.reduce op (s.g b)) (s.g a) (atomSize z) .none false true winTwo

/-- REDADD (R212). -/
def execRedadd (a b : BitVec 5) (z : BitVec 1) (s : State) : Out := .next (s.redG 0 a b z)
/-- REDAND (R212). -/
def execRedand (a b : BitVec 5) (z : BitVec 1) (s : State) : Out := .next (s.redG 1 a b z)
/-- REDOR (R212). -/
def execRedor (a b : BitVec 5) (z : BitVec 1) (s : State) : Out := .next (s.redG 2 a b z)
/-- REDMIN (R212). -/
def execRedmin (a b : BitVec 5) (z : BitVec 1) (s : State) : Out := .next (s.redG 3 a b z)
/-- REDMAX (R212). -/
def execRedmax (a b : BitVec 5) (z : BitVec 1) (s : State) : Out := .next (s.redG 4 a b z)

/-- XCADD of lane 0 of a vector register with its tag (R217). -/
def execXcaddV (a v : BitVec 5) (s : State) : Out :=
  .next (s.access (.xcadd (s.me.lane (vnum v) 0) (s.me.tag (vnum v) 0)) (s.g a) 64 .none false true winTwo)
/-- XCADD of a general register's low word tagged w0 (R217). -/
def execXcaddG (a b : BitVec 5) (s : State) : Out :=
  .next (s.access (.xcadd (lowW (s.g b)) (w0Tag s.me.csr.winsig false)) (s.g a) 64 .none false true winTwo)
/-- XCREAD (R218). -/
def execXcread (d a : BitVec 5) (s : State) : Out :=
  .next (s.access .xcread (s.g a) 64 (.vector (vnum d)) false false winTwo)
/-- XCCLR (R219). -/
def execXcclr (a : BitVec 5) (s : State) : Out := .next (s.access .xcclr (s.g a) 64 .none false false winTwo)

/-- A vector load of n bytes (R263, R264). -/
def State.loadV (s : State) (d : BitVec 4) (a : BitVec 5) (r : BitVec 1) (o : BitVec 12) (n : Nat) (double broadcast : Bool) : State :=
  s.access (.vload double broadcast) (offsetAddr (s.g a) o n) n (.vector d) (r == 1) false (if double then winTwo else winAny)

/-- VLD.F32 (R264). -/
def execVldF32 (d : BitVec 4) (a : BitVec 5) (r : BitVec 1) (o : BitVec 12) (s : State) : Out := .next (s.loadV d a r o 16 false false)
/-- VLD.F64 (R264). -/
def execVldF64 (d : BitVec 4) (a : BitVec 5) (r : BitVec 1) (o : BitVec 12) (s : State) : Out := .next (s.loadV d a r o 16 true false)
/-- VLDB.F32 (R264). -/
def execVldbF32 (d : BitVec 4) (a : BitVec 5) (r : BitVec 1) (o : BitVec 12) (s : State) : Out := .next (s.loadV d a r o 4 false true)
/-- VLDB.F64 (R264). -/
def execVldbF64 (d : BitVec 4) (a : BitVec 5) (r : BitVec 1) (o : BitVec 12) (s : State) : Out := .next (s.loadV d a r o 8 true true)

/-- A vector store (R265): the .f64 form writes each double's even-lane tag to both of its words (R40). -/
def State.storeV (s : State) (v : BitVec 4) (a : BitVec 5) (r : BitVec 1) (o : BitVec 12) (double : Bool) : State :=
  let x := s.me
  let ls := (List.range 4).map (fun l => x.lane v l)
  let ts := (List.range 4).map (fun l => x.tag v (if double then l / 2 * 2 else l))
  s.access (.vstore double ls ts) (offsetAddr (s.g a) o 16) 16 .none (r == 1) false (if double then winTwo else winStore)

/-- VST.F32 (R265). -/
def execVstF32 (v : BitVec 4) (a : BitVec 5) (r : BitVec 1) (o : BitVec 12) (s : State) : Out := .next (s.storeV v a r o false)
/-- VST.F64 (R265). -/
def execVstF64 (v : BitVec 4) (a : BitVec 5) (r : BitVec 1) (o : BitVec 12) (s : State) : Out := .next (s.storeV v a r o true)

end Sys2Proof.Machine
end

