-- ==== Sys2Proof/Machine/Contexts.lean ====
section
/-! DEFINITION.  Contexts and the work of a slot: carry masks and packets (R25, R224), admission (R27, R321), and
how a freed slot takes work (R20). -/

namespace Sys2Proof.Machine

/-- The running slot takes a cause whose trap value the manual does not state: a free value (log entry 30). -/
def State.raiseFree (s : State) (c : Cause) : State := { s with free := s.free + 1 }.raise c (Config.freeValue s.free)

/-! ### Packets -/

/-- How many bits of a mask are set. -/
def popCount (m : BitVec 32) : Nat := ((List.range 32).filter (fun k => m.getLsbD k)).length

/-- CarryMask(rb) (R224): the default names g4-g13, and bits 0 and 3 are cleared. -/
def State.carryMask (s : State) (b : BitVec 5) : BitVec 32 :=
  (if b = 0 then 0x3FF0#32 else (s.g b).truncate 32) &&& ~~~(9#32)

/-- A carry mask checked: more than ten registers take MIGRATE (R25, R224). -/
def State.withMask (s : State) (b : BitVec 5) (k : BitVec 32 → State) : State :=
  let m := s.carryMask b
  if 10 < popCount m then s.raise .migrate (m.zeroExtend 64) else k m

/-- The context that a slot sends or yields (R25, R224). -/
def Slot.context (x : Slot) (pc : Word) (mask : BitVec 32) (kind : ThreadKind) (thread : Nat) : Ctx :=
  { pc := pc, pw := x.pw, g3 := x.g 3, mask := mask, regs := x.regs, pid := x.pid, part := x.part, launch := x.launch,
    kind := kind, thread := thread, fpctl := x.csr.fpctl, winsig := x.csr.winsig, olscale := x.csr.olscale, sigfloor := x.csr.sigfloor
    stamp := x.lastStamp }

/-! ### Starting -/

/-- The gang of a launch that holds a core (R17). -/
def Launch.gangOf (l : Launch) (core : Nat) : Nat := l.held.findIdx (fun p => decide (p.1 ≤ core ∧ core < p.1 + p.2))

/-- A thread start counted for the completion record (R342). -/
def State.countStart (s : State) (launch : Nat) : State := s.updLaunch launch (fun l => { l with started := l.started + 1 })

/-- The lowest-numbered free user slot of a core. -/
def State.freeUser (s : State) (c : Nat) : Option Nat := (userSlots c).find? (fun k => !(s.slot ⟨c, k⟩).occ)

/-- The routines that a context of a kind carries: a phase task still runs its action (R115). -/
def kindRoutines (k : ThreadKind) : List Routine :=
  match k with
  | .phaseTask d => [.action d]
  | _ => []

/-- A context started in a slot (R25, R27). -/
def State.startContext (s : State) (w : Who) (c : Ctx) : State :=
  (s.setSlot w { ((s.slot w).restore c) with routines := kindRoutines c.kind }).acquired w.core

/-- The state of a thread that a launch starts in a slot: R17 with the slot's stack and its gang number, and the
model's own number of the thread. -/
def State.fresh (s : State) (w : Who) (l : Launch) (pc : Word) (kind : ThreadKind) (gang : Nat) : Slot :=
  let x := { (s.slot w).start pc (dbl l.addr) l.pid l.part l.id kind with thread := s.nextId }
  (x.setG 2 (stackTop w.core w.slot)).setG 6 (dbl gang)

/-- A thread numbered and put in its slot, and its start counted. -/
def State.place (s : State) (w : Who) (x : Slot) (launch : Nat) : State :=
  ({ s with nextId := s.nextId + 1 }.setSlot w x).countStart launch

/-- A run-list entry started in a slot (R17, R20, R115, R335): a task reads its record's entry and arg now. -/
def State.startEntry (s : State) (w : Who) (e : RunEntry) : State :=
  match e with
  | .task off launch =>
    match s.launch? launch with
    | none => s.setCountWord w.core off 0
    | some l =>
      let k := spadKey w.core off
      let pc := l.entry + 4 * (BitVec.ofNat 32 (s.nat (k + 4) 4)).signExtend 64
      let x := s.fresh w l pc (.task (w.core * 2 ^ 20 + off)) (l.gangOf w.core)
      (s.setCountWord w.core off 0).place w ((x.setG 4 (dbl (s.nat (k + 8) 8))).setG 5 (dbl (w.core * 2 ^ 20 + off))) launch
  | .seed k launch =>
    match s.launch? launch with
    | none => s
    | some l =>
      let x := s.fresh w l l.entry .seed (l.gangOf w.core)
      s.place w ((x.setG 4 l.args).setG 5 (dbl (2 ^ 63 + w.core * 2 ^ 8 + k))) launch
  | .phase d pc g4 g5 launch pid =>
    let x := match s.launch? launch with
      | some l => s.fresh w l pc (.phaseTask d) (l.gangOf w.core)
      | none => { ((s.slot w).start pc 0 pid ((s.partOf w.core).getD 0) launch (.phaseTask d)).setG 2 (stackTop w.core w.slot)
          with thread := s.nextId }
    s.place w { ((x.setG 4 g4).setG 5 g5).setG 10 (dbl d) with pid := pid, routines := [.action d] } launch

/-! ### Admission (R27, R321) -/

/-- Entries of a core's spill area in use: contexts and the reservations of SPAWN (R27, R226). -/
def Core.spillUse (c : Core) : Nat := c.spill.length + c.reserved.length

/-- n free values as bytes, and the state that has drawn them (log entry 37). -/
def State.freeBytes (s : State) (n : Nat) : List Byte :=
  (List.range n).flatMap (fun k => leBytes 8 (Config.freeValue (s.free + k)).toNat)

/-- The image of a spilled context in the reserved area: one of the 64 entries of 128 bytes; which entry, and what its
bytes are, the manual does not state: free values (R44; log entry 37). -/
def State.spillImage (s : State) (c : Nat) : State :=
  if isLarge c then s
  else { s with free := s.free + 17 }.storeSpad
    (spadKey c (reservedBase + 128 * ((Config.freeValue (s.free + 16)).toNat % 64))) (s.freeBytes 16)

/-- A context admitted to a core by the table of R27; none when it is refused, as it is by a large core that does not
serve its partition (R398). -/
def State.takeIn (s : State) (c : Nat) (x : Ctx) : Option State :=
  let k := s.core c
  if isLarge c && !s.inPart x.part c then none
  else if k.spill = [] ∧ k.arrival = [] ∧ (s.freeUser c).isSome then
    (s.freeUser c).map (fun n => s.startContext ⟨c, n⟩ x)
  else if k.spill = [] ∧ k.arrival.length < 8 then some (s.setCore c { k with arrival := k.arrival ++ [x] })
  else if k.spillUse < 64 then some ((s.setCore c { k with spill := k.spill ++ [x] }).spillImage c)
  else none

/-- Whether a free user slot of a core has work to take (R20). -/
def State.workWaits (s : State) (c : Nat) : Bool :=
  let k := s.core c
  (s.freeUser c).isSome && (decide (k.arrival ≠ []) || decide (k.runList ≠ []) || decide (k.spill ≠ []))

/-- The lowest-numbered free user slot takes work: the head of the arrival queue, else of the run list, else of
the spill area (R20). -/
def State.takeOne (s : State) (c : Nat) : State :=
  let k := s.core c
  match s.freeUser c with
  | none => s
  | some n =>
    match k.arrival, k.runList, k.spill with
    | x :: r, _, _ => (s.setCore c { k with arrival := r }).startContext ⟨c, n⟩ x
    | [], e :: r, _ => (s.setCore c { k with runList := r }).startEntry ⟨c, n⟩ e
    | [], [], x :: r => (s.setCore c { k with spill := r }).startContext ⟨c, n⟩ x
    | [], [], [] => s

/-- The head of the spill area moves to the tail of the arrival queue, if that has room (R321). -/
def State.refill (s : State) (c : Nat) : State :=
  let k := s.core c
  match k.spill with
  | x :: r => if k.arrival.length < 8 then s.setCore c { k with spill := r, arrival := k.arrival ++ [x] } else s
  | [] => s

/-- Every free user slot takes work, while there is some. -/
def State.takeAll (s : State) (c : Nat) : Nat → State
  | 0 => s
  | n + 1 => if s.workWaits c then (s.takeOne c).takeAll c n else s

/-- The admission work at the end of a cycle of a core, ahead of the packets that reached it in the cycle: the free slots
take work, and then one context moves from the head of the spill area to the tail of the arrival queue (R20, R321). -/
def State.takeWork (s : State) (c : Nat) : State := (s.takeAll c 8).refill c

/-- SLOT_TAKES_WORK (R20). -/
def execSlotTakesWork (core : Nat) (s : State) : Out :=
  .next (if s.coreRuns core then s.takeAll core 8 else s)

end Sys2Proof.Machine
end

