-- ==== Sys2Proof/Machine/Flow.lean ====
section
/-! DEFINITION.  Fences, migration and spawning: major 0x1C (R221-R226), and the steps of a context packet
(R25-R30). -/

namespace Sys2Proof.Machine

/-! ### Fences (R131, R223) -/

/-- FENCE (R223). -/
def execFence (s : State) : Out := .next (s.waitRelaxed (fun s => s.advance))
/-- FENCE.red (R223). -/
def execFenceRed (s : State) : Out := .next (s.waitBoth (fun s => s.advance))
/-- FENCE.acq: a large core's cache is invalidated (R131, R134). -/
def execFenceAcq (s : State) : Out := .next (s.waitBoth (fun s => (s.acquired s.cur.core).advance))
/-- FENCE.sys: every acknowledged write has reached the host's ordering point; while the host is fenced it takes
FENCED, whose trap value R352 does not state for it (R131, R135, R223; log entry 30). -/
def execFenceSys (s : State) : Out :=
  .next (s.waitBoth (fun s =>
    if s.sys.fenced then s.raiseFree .fenced
    else if s.posted.any (fun p => decide (p.thread = s.me.thread)) then s.parkOn .hostDrain
    else (s.acquired s.cur.core).advance))

/-! ### Destination words (R222) -/

/-- The core that a destination word names. -/
def destCore (w : Word) : Nat := if bit w 16 then largeBase + field w 0 6 else field w 0 16
/-- The peer of a destination word. -/
def destPeer (w : Word) : Nat := field w 32 16
/-- Whether the bits that R222 gives as zero are zero. -/
def destOk (w : Word) : Bool :=
  decide (field w 48 16 = 0) && decide (field w 28 4 = 0) && decide (field w 17 3 = 0) &&
  (!bit w 16 || decide (field w 6 10 = 0))
/-- The same for MIGTO, whose n and box are zero as well. -/
def migtoOk (w : Word) : Bool := destOk w && decide (field w 20 8 = 0)

/-! ### MIGRATE, MIGTO and SPAWN (R225, R226) -/

/-- The slot's context is gone from its core: its engine claim ends and the slot is free (R225, R250). -/
def State.vacate (s : State) (w : Who) : State := (s.unclaim w).freeSlot w

/-- A migration past its checks: in place, or a packet sent and the slot parked until it is accepted.  Either way a
serving owner departs and a matrix slot leaves the gang (R26, R123, R225, R289). -/
def State.migrateTo (s : State) (dest : Nat) (mask : BitVec 32) : State :=
  if s.me.locks ≠ [] then s.raiseFree .sync
  else s.waitBoth (fun s =>
    let s := (s.departOwner s.cur).leaveGang s.cur
    if dest = s.cur.core then s.advance
    else
      let x := s.me
      let id := s.nextId
      let s := s.send s.cur 0 (.packet (x.context (x.pc + 4) mask x.kind x.thread) dest 0 0 0)
      (s.countSent s.cur.core x.launch).setMe { s.me with park := .migrating id, watch := none })

/-- The owner core of an S-space address (R225). -/
def ownerCore (a : Word) : Nat := field a 20 16

/-- MIGRATE (R225). -/
def execMigrate (a b : BitVec 5) (s : State) : Out :=
  .next (s.withMask b (fun m =>
    let v := s.g a
    if 2 ^ 39 ≤ v.toNat ∨ !s.inPart s.me.part (ownerCore v) then s.raise .access v
    else s.migrateTo (ownerCore v) m))

/-- MIGTO (R222, R225). -/
def execMigto (a b : BitVec 5) (s : State) : Out :=
  .next (s.withMask b (fun m =>
    let v := s.g a
    if !migtoOk v then s.raise .bounds 0
    else if destPeer v ≠ 0 ∨ !s.inPart s.me.part (destCore v) then s.raise .access v
    else s.migrateTo (destCore v) m))

/-- SPAWN (R226): a spill entry of this core is reserved for the packet until the destination admits it. -/
def execSpawn (d a b : BitVec 5) (s : State) : Out :=
  .next (s.withMask b (fun m =>
    let v := s.g a
    let pc := s.g d
    if pc.toNat % 4 ≠ 0 then s.raise .align pc
    else if 2 ^ 39 ≤ v.toNat ∨ !s.inPart s.me.part (ownerCore v) then s.raise .access v
    else s.waitRelaxed (fun s =>
      let k := s.core s.cur.core
      if 64 ≤ k.spawned ∨ 64 ≤ k.spillUse then s.parkOn .spawnRoom
      else
        let x := s.me
        let id := s.nextId
        let s := s.send s.cur 0 (.packet (x.context pc m (.spawned s.cur.core) id) (ownerCore v) 0 0 0)
        let s := s.setCore s.cur.core { k with spawned := k.spawned + 1, reserved := k.reserved ++ [id] }
        (s.countSent s.cur.core x.launch).advance)))

/-! ### The steps of a packet -/

/-- Whether a packet belongs to a SPAWN, whose spill entry still holds it (R226). -/
def State.isSpawn (s : State) (m : Msg) : Bool := (s.core m.src.core).reserved.contains m.id

/-- A core without a message's reservation. -/
def Core.release (c : Core) (id : Nat) : Core := { c with reserved := c.reserved.filter (fun j => j != id) }

/-- A packet reaches its destination: admitted, or refused and counted as received (R27, R31, R226). -/
def State.arrive (s : State) (m : Msg) (c : Ctx) (dest n : Nat) : State :=
  match s.takeIn dest c with
  | none => (s.rebody m.id (.packet c dest n 2 0)).countReceived dest c.launch
  | some t =>
    let t := t.countReceived dest c.launch
    if s.isSpawn m then
      ((t.setCore m.src.core ((t.core m.src.core).release m.id)).drop m.id).countStart c.launch
    else t.rebody m.id (.packet c dest n 1 0)

/-- CONTEXT_PACKET_ADMISSION (R27): once the cycle in which the packet reached the core has ended and no free slot has work
to take, and in the order of the packets that reached the core (R321). -/
def execContextPacketAdmission (id : Nat) (s : State) : Out :=
  .next (match s.msg? id with
    | some m =>
      match m.body with
      | .packet c dest n 0 _ =>
        if !s.admitsNext dest id || s.workWaits dest then s else s.arrive m c dest n
      | _ => s
    | none => s)

/-- MIGRATION_REPLY (R27): an acceptance frees the origin slot and leaves a forwarding entry; a refusal starts
the backoff of 64 ns * 2^n, n at most 6. -/
def execMigrationReply (id : Nat) (s : State) : Out :=
  .next (match s.msg? id with
    | some m =>
      if !s.mayAct m.src.core id then s
      else match m.body with
      | .packet _ dest _ 1 _ =>
        let s := s.drop id
        if (s.slot m.src).park = .migrating id then
          let s := s.vacate m.src
          let k := s.core m.src.core
          s.setCore m.src.core { k with forwards := k.forwards ++ [{ slot := m.src.slot, target := dest, since := s.sys.meridian }] }
        else s
      | .packet c dest n 2 _ => s.rebody id (.packet c dest (n + 1) 3 (s.sys.meridian + 64 * 2 ^ min n 6))
      | _ => s
    | none => s)

/-- REFUSAL_BACKOFF_EXPIRY (R27): the packet is sent again and counted again (R31). -/
def execRefusalBackoffExpiry (id : Nat) (s : State) : Out :=
  .next (match s.msg? id with
    | some m =>
      match m.body with
      | .packet c dest n 3 due =>
        if s.sys.meridian < due || !s.coreRuns m.src.core then s
        else (s.rebody id (.packet c dest n 0 0)).countSent m.src.core c.launch
      | _ => s
    | none => s)

/-- FORWARDING_ENTRY_EXPIRY (R28): the entry lapses 4,096 cycles after acceptance, at 1.7 cycles a ns (log entry 7). -/
def execForwardingEntryExpiry (core slot : Nat) (s : State) : Out :=
  let k := s.core core
  .next (match k.forwards.find? (fun f => f.slot == slot) with
    | some f =>
      if (s.sys.meridian - f.since) * 17 < 40960 || !s.coreRuns core then s
      else s.setCore core { k with forwards := k.forwards.erase f }
    | none => s)

/-- LATE_REPLY_AT_ORIGIN (R28): a late reply is redirected and discarded while the forwarding entry lives, and
afterwards dropped and counted. -/
def execLateReplyAtOrigin (core slot : Nat) (s : State) : Out :=
  let k := s.core core
  .next (if k.forwards.any (fun f => f.slot == slot) then s
    else s.setCore core { k with lateDropped := k.lateDropped + 1 })

end Sys2Proof.Machine
end

