-- ==== Sys2Proof/Machine/Messages.lean ====
section
/-! DEFINITION.  Mailboxes and inbox rings: major 0x1D (R57-R59, R227-R232), and their delivery. -/

namespace Sys2Proof.Machine

/-! ### Mailboxes (R227-R230) -/

/-- A mailbox of a core, oldest message first. -/
def State.box (s : State) (c b : Nat) : List Mail := mapGet (s.core c).boxes [] b
/-- A mailbox replaced. -/
def State.setBox (s : State) (c b : Nat) (l : List Mail) : State :=
  s.setCore c { s.core c with boxes := mapPut (s.core c).boxes b l }

/-- A message taken by RECV or RECVT: the payload in g4-g11, the sender in g12, the length in g13, and the
status, which overwrites them if rd names one (R229). -/
def Slot.takeMail (x : Slot) (rd : BitVec 5) (m : Mail) : Slot :=
  let x := (List.range 8).foldl (fun x i => x.setG (BitVec.ofNat 5 (4 + i)) (m.payload.getD i 0)) x
  let x := (x.setG 12 m.sender).setG 13 (dbl (8 * m.payload.length))
  (x.setG rd (if m.gone then 3 else 0)).next

/-- The slot parked earliest in a RECV whose mask names a box (R229). -/
def State.receiver (s : State) (c b : Nat) : Option (Who × BitVec 5) :=
  let ws := (s.threads c).filterMap (fun k => match (s.slot ⟨c, k⟩).park with
    | .recv mask rd t => if mask.getLsbD b then some (t, k, rd) else none
    | _ => none)
  (ws.foldl (fun r q => match r with | some p => if p.1 ≤ q.1 then some p else some q | none => some q) none).map
    (fun q => (⟨c, q.2.1⟩, q.2.2))

/-- A message accepted by a mailbox: it goes to a waiting RECV, else to the tail of the box (R227, R229). -/
def State.accept (s : State) (c b : Nat) (m : Mail) : State :=
  match s.receiver c b with
  | some (w, rd) => (s.setSlot w ((s.slot w).takeMail rd m)).acquired c
  | none => s.setBox c b (s.box c b ++ [m])

/-- The place that stands for a context of a peer as a sender (R381; log entry 31). -/
def peerWho (sender : Word) : Who := ⟨2 ^ 21 + destPeer sender * 2 ^ 17 + field sender 0 17, field sender 17 3⟩

/-- A notice about a gone context (R229). -/
def goneNotice (sender : Word) : Mail := { payload := [], sender := sender, gone := true }

/-- Whether a sender word names a context, its box aside. -/
def sameContext (a b : Word) : Bool := decide (a.toNat - field a 20 4 * 2 ^ 20 = b.toNat - field b 20 4 * 2 ^ 20)

/-- Whether a mailbox holds a message from a context (R382). -/
def holdsMailOf (sender : Word) (l : List Mail) : Bool := l.any (fun x => !x.gone && sameContext x.sender sender)

/-- The notice about a gone context in box b: it names the context (R229). -/
def noticeIn (sender : Word) (b : Nat) : Mail := goneNotice (dbl (sender.toNat - field sender 20 4 * 2 ^ 20 + b * 2 ^ 20))

/-- A mailbox with the notice right behind the last message from the context (R382). -/
def withNotice (sender : Word) (b : Nat) (l : List Mail) : List Mail :=
  let after := (l.reverse.takeWhile (fun x => x.gone || !sameContext x.sender sender)).reverse
  l.take (l.length - after.length) ++ [noticeIn sender b] ++ after

/-- Every RECV parked on box b of a core wakes with status 3 (R382). -/
def State.wakeGone (s : State) (sender : Word) (c b : Nat) : State :=
  (s.threads c).foldl (fun s k => match (s.slot ⟨c, k⟩).park with
    | .recv mask rd _ => if mask.getLsbD b then s.setSlot ⟨c, k⟩ ((s.slot ⟨c, k⟩).takeMail rd (noticeIn sender b)) else s
    | _ => s) s

/-- What CONTEXT_GONE does at one mailbox (R382). -/
def State.goneAt (s : State) (sender : Word) (c b : Nat) : State :=
  if holdsMailOf sender (s.box c b) then (s.setBox c b (withNotice sender b (s.box c b))).wakeGone sender c b else s

/-- Whether a message is a parked SEND or APPEND of a gone context (R382). -/
def Msg.parkedOf (m : Msg) (sender : Word) : Bool :=
  match m.body with
  | .mail _ _ x _ _ true _ => sameContext x.sender sender
  | .append _ _ _ true _ _ => decide (m.src = peerWho sender)
  | _ => false

/-- The core at which a parked SEND or APPEND stands. -/
def Msg.parkedCore (m : Msg) : Nat :=
  match m.body with
  | .mail c _ _ _ _ _ _ => c
  | .append ring _ _ _ _ _ => homeOf ring
  | _ => 0

/-- What CONTEXT_GONE does at one core: the gone context's SENDs and APPENDs parked there are discarded, and each of its
mailboxes takes the notice (R382). -/
def State.goneCore (s : State) (sender : Word) (c : Nat) : State :=
  let s := { s with net := s.net.filter (fun m => !(m.parkedOf sender && decide (m.parkedCore = c))) }
  (s.core c).boxes.foldl (fun s q => s.goneAt sender c q.1) s

/-! ### Answers (R344, R346, R385) -/

/-- A lock granted to its own thread by ACQ or TRYACQ: one more held lock, and the instruction completes
(R108, R237). -/
def State.grantPlain (s : State) (w : Who) (a : Nat) (rd : BitVec 5) (try_ : Bool) : State :=
  let x := s.slot w
  let x := if try_ then x.setG rd 1 else x
  (s.setSlot w { (x.next) with locks := x.locks ++ [a] }).acquired w.core

/-- A LOCKRUN granted on its caller: g1 continues after it, g10 holds the descriptor, and the thread jumps to
the routine; its rd is written when SYNCDONE completes it (R108, R110; log entry 34). -/
def State.grantCaller (s : State) (w : Who) (a : Nat) (rd : BitVec 5) (pc : Word) (args : List Word) : State :=
  let x := s.slot w
  let y := (List.range 6).foldl (fun y i => y.setG (BitVec.ofNat 5 (4 + i)) (args.getD i 0)) x
  let y := ((y.setG 1 (x.pc + 4)).setG 10 (dbl a)).jump pc
  (s.setSlot w { y with locks := x.locks ++ [a], routines := .caller a rd :: x.routines }).acquired w.core

/-- An owner that has served an object under a name it no longer has: one parked in SYNCSERVE wakes with g11 := 0 at the
next instruction (R238); its running work is abandoned (R124). -/
def State.wakeRenamed (s : State) (w : Who) (a : Nat) : State :=
  let x := s.slot w
  if x.serving ≠ some a then s
  else
    let x := x.departs a
    if x.park = .serve a then (s.setSlot w ((x.setG 11 0).next)).acquired w.core else s.setSlot w x

/-- A slot that still waits with a park completes with a status in a register. -/
def State.take (s : State) (w : Who) (p : Park) (rd : BitVec 5) (v : Word) : State :=
  if (s.slot w).park = p then s.setSlot w ((s.slot w).setG rd v).next else s

/-- Whether a slot is parked for the syscall gate (R367). -/
def Slot.atGate (x : Slot) : Bool := match x.park with | .gate _ => true | _ => false

/-- What an answer does at the slot that it is for; one that no longer waits for it, as a killed thread does not, changes
nothing (R239, R370). -/
def State.hear (s : State) (w : Who) (a : Answer) : State :=
  match a with
  | .granted d id rd try_ => if (s.slot w).park = .lock d id then s.grantPlain w d rd try_ else s
  | .runs d id rd pc args => if (s.slot w).park = .lock d id then s.grantCaller w d rd pc args else s
  | .refusal p c v => if (s.slot w).park = p then s.trapAt w c v else s
  | .status p rd v => s.take w p rd v
  | .stolen id rd lo hi =>
    if (s.slot w).park = .reply id then s.setSlot w (((s.slot w).setG rd lo).setG (rd + 1) hi).next else s
  | .renamed d => s.wakeRenamed w d
  | .gate v => if (s.slot w).atGate then s.setSlot w ((s.slot w).setG 4 v).syscallReturn else s
  | .gone sender => s.goneCore sender w.core

/-- What another agent tells a slot: it takes effect at once where the slot's core hears it, and otherwise waits among the
messages on their way to that core (R344, R385). -/
def State.tell (s : State) (w : Who) (a : Answer) : State :=
  if s.hears w.core then s.hear w a else s.send w 0 (.answer w a)

/-- A status returned to a slot that waits for message id. -/
def State.status (s : State) (w : Who) (id : Nat) (rd : BitVec 5) (v : Word) : State := s.tell w (.status (.reply id) rd v)

/-- A SEND or signal accepted at its mailbox (R31, R228, R342). -/
def State.acceptMail (s : State) (msg : Msg) (c b : Nat) (m : Mail) (signal : Bool) (launch : Nat) : State :=
  let s := (s.drop msg.id).accept c b m
  if signal then s else (s.countReceived c launch).status msg.src msg.id msg.rd 0

/-- The oldest message held at a full mailbox. -/
def State.parkedMail (s : State) (c b : Nat) : Option (Msg × Mail × Bool × Nat) :=
  (s.net.filterMap (fun m => match m.body with
    | .mail c' b' x _ signal true launch => if c' = c ∧ b' = b then some (m, x, signal, launch) else none
    | _ => none)).head?

/-- Held messages enter a mailbox while it has room, in arrival order (R228). -/
def State.fillBox (s : State) (c b : Nat) : Nat → State
  | 0 => s
  | n + 1 =>
    if 4 ≤ (s.box c b).length then s
    else match s.parkedMail c b with
      | some (m, x, signal, launch) => (s.acceptMail m c b x signal launch).fillBox c b n
      | none => s

/-- A message reaches its mailbox: accepted, refused with status 1 for SENDT, or held (R227, R228). -/
def State.deliverMail (s : State) (msg : Msg) (c b : Nat) (m : Mail) (try_ signal : Bool) (launch : Nat) : State :=
  if (s.box c b).length < 4 ∧ s.parkedMail c b = none then s.acceptMail msg c b m signal launch
  else if try_ then ((s.drop msg.id).countReceived c launch).status msg.src msg.id msg.rd 1
  else
    let s := s.drop msg.id
    { s with net := s.net ++ [{ msg with body := .mail c b m try_ signal true launch }] }

/-- Whether the peer table lacks an identifier, or a context gone at the peer's core is named (R381, R382). -/
def State.peerGone (s : State) (peer core : Nat) : Bool :=
  (s.sys.peers.all (fun p => p.1 != peer)) ||
  s.sys.gone.any (fun g => decide (destPeer g = peer) && decide (destCore g = core))

/-- SEND and SENDT (R222, R228).  A message to a peer leaves the part (R381; log entry 31); one toward a gone context counts
as sent and received at its issue (R31, R232; log entry 31). -/
def State.sendMail (s : State) (d a : BitVec 5) (try_ : Bool) : State :=
  let dw := s.g a
  let n := field dw 24 4
  let c := destCore dw
  let b := field dw 20 4
  let peer := destPeer dw
  if !destOk dw || decide (8 < n) then s.raise .bounds 0
  else if peer = 0 ∧ !s.inPart s.me.part c then s.raise .access dw
  else s.waitRelaxed (fun s =>
    if peer ≠ 0 ∧ s.peerGone peer c then
      (s.countSent s.cur.core s.me.launch |>.countReceived s.cur.core s.me.launch).result d 3
    else
      let m : Mail := { payload := (List.range n).map (fun i => s.gn (4 + i)), sender := senderWord s.cur b, gone := false }
      let launch := s.me.launch
      let s := s.countSent s.cur.core launch
      let id := s.nextId
      if peer ≠ 0 then (s.send s.cur d (.peer false try_ launch)).setPark s.cur (.reply id)
      else
        let body := Body.mail c b m try_ false false launch
        let s := (s.send s.cur d body).setPark s.cur (.reply id)
        if nearBank s.cur.core (c * 2 ^ 20) && !isLarge c && s.coreRuns c then s.deliverMail ⟨id, s.cur, d, body⟩ c b m try_ false launch else s)

/-- SEND (R228). -/
def execSend (d a : BitVec 5) (s : State) : Out := .next (s.sendMail d a false)
/-- SENDT (R228). -/
def execSendt (d a : BitVec 5) (s : State) : Out := .next (s.sendMail d a true)

/-- The lowest non-empty mailbox that a mask names (R229). -/
def State.fullBox (s : State) (c : Nat) (mask : BitVec 16) : Option Nat :=
  (List.range 16).find? (fun k => mask.getLsbD k && decide (s.box c k ≠ []))

/-- RECV and RECVT past the check of the mask (R229). -/
def State.recvMail (s : State) (d : BitVec 5) (mask : BitVec 16) (try_ : Bool) : State :=
  let c := s.cur.core
  match s.fullBox c mask with
  | some b =>
    match s.box c b with
    | m :: r => (((s.setBox c b r).setMe (s.me.takeMail d m)).acquired c).fillBox c b 4
    | [] => s
  | none =>
    if try_ then s.result d 1
    else { s with ticket := s.ticket + 1 }.setMe { s.me with park := .recv mask d s.ticket }

/-- RECV (R229): a mask of zero takes QUEUE, whose trap value names no queue (log entry 30). -/
def execRecv (d a : BitVec 5) (s : State) : Out :=
  let mask : BitVec 16 := (s.g a).truncate 16
  .next (if mask = 0 then s.raiseFree .queue else s.recvMail d mask false)
/-- RECVT (R229). -/
def execRecvt (d a : BitVec 5) (s : State) : Out :=
  let mask : BitVec 16 := (s.g a).truncate 16
  .next (if mask = 0 then s.raiseFree .queue else s.recvMail d mask true)

/-- The occupancy word of MBSTAT (R230). -/
def State.occupancy (s : State) (c : Nat) : Nat :=
  (List.range 16).foldl (fun n k => n + min 4 (s.box c k).length * 2 ^ (3 * k)) 0
/-- MBSTAT (R230). -/
def execMbstat (d : BitVec 5) (s : State) : Out := .next (s.result d (dbl (s.occupancy s.cur.core)))

/-! ### What a peer answers (R381; log entry 31) -/

/-- The statuses a peer may return (R228, R231). -/
def peerStatuses (append try_ : Bool) : List Nat :=
  if append then (if try_ then [0, 1, 2, 3] else [0, 2, 3]) else (if try_ then [0, 1, 3] else [0, 3])

/-- A peer's answer reaches the sender: a free value among the statuses that the rules allow (log entry 31). -/
def State.peerAnswer (s : State) (m : Msg) (append try_ : Bool) (launch : Nat) : State :=
  let l := peerStatuses append try_
  let v := l.getD ((Config.freeValue s.free).toNat % l.length) 0
  ({ s with free := s.free + 1 }.drop m.id |>.countReceived m.src.core launch).status m.src m.id m.rd (dbl v)

/-- MAILBOX_DELIVERY (R227, R228). -/
def execMailboxDelivery (id : Nat) (s : State) : Out :=
  .next (match s.msg? id with
    | some m =>
      match m.body with
      | .mail c b x try_ signal false launch =>
        if !s.mayAct c id || !s.inOrder m then s else s.deliverMail m c b x try_ signal launch
      | .mail c b _ _ _ true _ => if s.coreRuns c then s.fillBox c b 4 else s
      | .peer false try_ launch => if s.mayAct m.src.core id then s.peerAnswer m false try_ launch else s
      | _ => s
    | none => s)

/-! ### Inbox rings (R57-R59, R231, R232) -/

/-- A record header: type 0 DATA or 1 PAD (R58).  DESIGN CHOICE (log entry 31): the sender fields of a PAD are those
of the appender whose record follows, and a large core's number stands in the 16 bits of a logical core ID as its
number modulo 2^16, without a mark. -/
def ringHeader (w : Who) (type len : Nat) : List Byte :=
  leBytes 8 (len + type * 2 ^ 16 + w.core % 2 ^ 16 * 2 ^ 32 + w.slot * 2 ^ 48)

/-- What APPEND finds at a ring: its status, or a cause. -/
inductive RingAnswer where
  | status (v : Nat)
  | fault (c : Cause) (value : Word)

/-- The cause that the bytes of a record, or the ring's tail, meet as stores: outside the user area, a live object or
queued record, a registered range (R44, R63, R106, R231, R240). -/
def State.ringCause (s : State) (c lo n : Nat) : Option Cause :=
  if reservedBase < lo + n then some .access
  else if s.liveTouch c lo n || s.queuedTouch c lo n then some .sync
  else if blocksStore (s.spadMeets (spadKey c lo) (spadKey c lo + n)) then some .rangeLocked
  else none

/-- Whether an APPEND to a ring is parked there (R232). -/
def State.ringParked (s : State) (ring : Nat) : Bool :=
  s.net.any (fun m => match m.body with | .append r _ _ true _ _ => r == ring | _ => false)

/-- One APPEND at the ring's bank, one indivisible step (R59): held says that an earlier one is parked there. -/
def State.ringStep (s : State) (w : Who) (ring : Nat) (payload : List Word) (held : Bool) : State × RingAnswer :=
  let c := homeOf ring
  let o := offOf ring
  let k := rawKey ring
  let head := s.nat k 4
  let tail := s.nat (k + 4) 4
  let size := s.nat (k + 8) 4
  let used := (tail + 2 ^ 32 - head) % 2 ^ 32
  if s.anyPoison k 16 then (s, .fault .poison (dbl ring))
  else if !nbit (s.nat (k + 12) 4) 0 || !ringSizeOk size || decide (size < used) then (s, .status 2)
  else if held then (s, .status 1)
  else
    let r := 8 + 8 * payload.length
    let pos := tail % size
    let wraps := size < pos + r
    let need := if wraps then size - pos + r else r
    if size - used < need then (s, .status 1)
    else
      let at_ := if wraps then 0 else pos
      let spans := (if wraps then [(o + 64 + pos, 8)] else []) ++ [(o + 64 + at_, r), (o + 4, 4)]
      match spans.findSome? (fun p => (s.ringCause c p.1 p.2).map (fun x => (x, p.1))) with
      | some (x, lo) => (s, .fault x (dbl (ring / 2 ^ 20 * 2 ^ 20 + lo)))
      | none =>
        let s := if wraps then s.storeSpad (k + 64 + pos) (ringHeader w 1 (size - pos)) else s
        let s := s.storeSpad (k + 64 + at_) (ringHeader w 0 r ++ payload.flatMap (fun v => leBytes 8 v.toNat))
        let s := s.clearPoison (k + 64 + at_) r
        (s.storeSpad (k + 4) (leBytes 4 ((tail + need) % 2 ^ 32)), .status 0)

/-- An APPEND that has its answer: counted, and returned to its thread (R31, R231). -/
def State.ringReply (s : State) (m : Msg) (ring launch : Nat) (r : RingAnswer) : State :=
  let s := (s.drop m.id).countReceived (homeOf ring) launch
  match r with
  | .status v => s.status m.src m.id m.rd (dbl v)
  | .fault c v => s.tell m.src (.refusal (.reply m.id) c v)

/-- An APPEND reaches its ring: APPEND stays there on FULL (R231, R232). -/
def State.ringArrival (s : State) (m : Msg) (ring : Nat) (payload : List Word) (try_ : Bool) (launch : Nat) : State :=
  let r := s.ringStep m.src ring payload (s.ringParked ring)
  match r.2, try_ with
  | .status 1, false =>
    let s := r.1.drop m.id
    { s with net := s.net ++ [{ m with body := .append ring payload false true false launch }] }
  | a, _ => r.1.ringReply m ring launch a

/-- APPEND and APPENDT (R231): the causes are checked before BADARG (log entry 31). -/
def State.appendRing (s : State) (d a b : BitVec 5) (try_ : Bool) : State :=
  let ring := s.g a
  let r := ring.toNat
  let w := s.g b
  let n := field w 0 4
  let peer := field w 32 16
  if r % 64 ≠ 0 then s.raise .align ring
  else if 2 ^ 36 ≤ r ∨ reservedBase ≤ offOf r ∨ (peer = 0 ∧ !s.inPart s.me.part (homeOf r)) then s.raise .access ring
  else s.waitRelaxed (fun s =>
    if n = 0 ∨ 8 < n ∨ field w 4 28 ≠ 0 ∨ field w 48 16 ≠ 0 then s.result d 4
    else if peer ≠ 0 ∧ s.peerGone peer (homeOf r) then
      (s.countSent s.cur.core s.me.launch |>.countReceived s.cur.core s.me.launch).result d 3
    else
      let payload := (List.range n).map (fun i => s.gn (4 + i))
      let launch := s.me.launch
      let s := s.countSent s.cur.core launch
      let id := s.nextId
      if peer ≠ 0 then (s.send s.cur d (.peer true try_ launch)).setPark s.cur (.reply id)
      else
        let body := Body.append r payload try_ false false launch
        let s := (s.send s.cur d body).setPark s.cur (.reply id)
        if nearBank s.cur.core r && s.coreRuns (homeOf r) then s.ringArrival ⟨id, s.cur, d, body⟩ r payload try_ launch else s)

/-- APPEND (R231, R232). -/
def execAppend (d a b : BitVec 5) (s : State) : Out := .next (s.appendRing d a b false)
/-- APPENDT (R231). -/
def execAppendt (d a b : BitVec 5) (s : State) : Out := .next (s.appendRing d a b true)

/-- APPEND_AT_RING (R59). -/
def execAppendAtRing (id : Nat) (s : State) : Out :=
  .next (match s.msg? id with
    | some m =>
      match m.body with
      | .append ring payload try_ false _ launch =>
        if s.mayAct (homeOf ring) id && s.inOrder m then s.ringArrival m ring payload try_ launch else s
      | .peer true try_ launch => if s.mayAct m.src.core id then s.peerAnswer m true try_ launch else s
      | _ => s
    | none => s)

/-- The parked APPENDs of a ring retried in arrival order, up to the first that still meets FULL (R232). -/
def State.retryRing (s : State) (ring : Nat) : List Msg → State
  | [] => s
  | m :: rest =>
    match m.body with
    | .append r payload _ true true launch =>
      if r ≠ ring then s.retryRing ring rest
      else
        let a := s.ringStep m.src ring payload false
        match a.2 with
        | .status 1 => s
        | x => (a.1.ringReply m ring launch x).retryRing ring rest
    | _ => s.retryRing ring rest

/-- APPEND_RETRY (R232): after a write of the ring's head word. -/
def execAppendRetry (ring : Nat) (s : State) : Out :=
  .next (if s.coreRuns (homeOf ring) then
      let s := s.retryRing ring s.net
      { s with net := s.net.map (fun m => match m.body with
        | .append r p t true true l => if r = ring then { m with body := .append r p t true false l } else m
        | _ => m) }
    else s)

/-! ### Peers (R229, R381, R382) -/

/-- Whether a peer's message may come to a core: the peer table has its peer, and the core lies in a partition. -/
def State.peerReaches (s : State) (sender : Word) (core : Nat) (payload : List Word) : Bool :=
  s.sys.peers.any (fun p => p.1 == destPeer sender) && (s.partOf core).isSome && decide (payload.length ≤ 8)

/-- A SEND or SENDT of a peer's context comes in through its port (R381); the core counts it for no launch of this part. -/
def State.peerMail (s : State) (sender : Word) (core box : Nat) (payload : List Word) (try_ : Bool) : State :=
  if s.peerReaches sender core payload && decide (box < 16) then
    s.send (peerWho sender) 0 (.mail core box
      { payload := payload, sender := dbl (sender.toNat - field sender 20 4 * 2 ^ 20 + box * 2 ^ 20), gone := false } try_ false false 0)
  else s

/-- An APPEND or APPENDT of a peer's context comes in through its port (R381). -/
def State.peerAppend (s : State) (sender : Word) (ring : Nat) (payload : List Word) (try_ : Bool) : State :=
  if s.peerReaches sender (homeOf ring) payload && decide (ring % 64 = 0 ∧ offOf ring < reservedBase ∧ ring < 2 ^ 36 ∧ payload ≠ []) then
    s.send (peerWho sender) 0 (.append ring payload try_ false false 0)
  else s

/-- CONTEXT_GONE: a peer's context is gone.  Each core learns it, a stopped one at its resume (R344, R385).  Each mailbox that holds a message from it gets one notice behind
that message, the RECVs parked on such a box wake with status 3, its parked SENDs and APPENDs are discarded, and a
later SEND or APPEND toward it returns 3 (R382).  Only a context of a peer is announced to this part. -/
def execContextGone (sender : Word) (s : State) : Out :=
  .next (if destPeer sender = 0 then s
    else
      let cs := (s.cores.map (fun p => p.1) ++ (s.net.filter (fun m => m.parkedOf sender)).map Msg.parkedCore).eraseDups
      let s := cs.foldl (fun s c => s.tell ⟨c, 0⟩ (.gone sender)) s
      s.setSys { s.sys with gone := s.sys.gone ++ [sender] })

end Sys2Proof.Machine
end

