-- ==== Sys2Proof/Machine/Queues.lean ====
section
/-! DEFINITION.  Queue registers: major 0x1E (R233-R235), and the deque: major 0x21 (R22-R24, R245). -/

namespace Sys2Proof.Machine

/-! ### Queue registers -/

/-- Queue register q of a core. -/
def State.queueReg (s : State) (c q : Nat) : QueueReg := mapGet (s.core c).queues .reset q
/-- Queue register q of a core replaced. -/
def State.setQueueReg (s : State) (c q : Nat) (r : QueueReg) : State :=
  s.setCore c { s.core c with queues := mapPut (s.core c).queues q r }

/-- The entries of queue q as a core names it: they live on the consumer's core (R233). -/
def State.queueEntries (s : State) (c q : Nat) : List QEntry :=
  (s.queueReg (s.queueReg c q).consCore q).entries
/-- The entries replaced. -/
def State.setEntries (s : State) (c q : Nat) (l : List QEntry) : State :=
  let h := (s.queueReg c q).consCore
  s.setQueueReg h q { s.queueReg h q with entries := l }

/-- The trap value of QUEUE for a queue register (R352). -/
def queueValue (q : BitVec 5) : Word := q.zeroExtend 64

/-- QBIND (R233). -/
def State.bindQueue (s : State) (q : BitVec 5) (v : Word) : State :=
  let c := s.cur.core
  let n := q.toNat
  let p := c / 16 * 16 + field v 16 4
  let ps := field v 0 3
  let cs := field v 4 3
  if bit v 3 ∨ field v 7 9 ≠ 0 ∨ field v 20 44 ≠ 0 ∨ ps = 7 ∨ cs = 7 then s.raise .bounds 0
  else if (s.queueReg c n).bound || (s.queueReg p n).bound then s.raise .queue (queueValue q)
  else
    let r : QueueReg := { bound := true, prodCore := p, prodSlot := ps, consCore := c, consSlot := cs, entries := [] }
    ((s.setQueueReg p n r).setQueueReg c n r).advance
/-- QBIND (R233). -/
def execQbind (q a : BitVec 5) (s : State) : Out :=
  .next (s.smallOnly (.qbind q a) (fun s => s.bindQueue q (s.g a)))

/-- Whether a slot is the producer of a bound queue (R234). -/
def QueueReg.isProducer (r : QueueReg) (w : Who) : Bool := r.bound && decide (r.prodCore = w.core ∧ r.prodSlot = w.slot)
/-- Whether a slot is the consumer of a bound queue (R234). -/
def QueueReg.isConsumer (r : QueueReg) (w : Who) : Bool := r.bound && decide (r.consCore = w.core ∧ r.consSlot = w.slot)

/-- Entries appended by the producer, or a park while they do not fit in 8 (R234). -/
def State.queueWrite (s : State) (q : BitVec 5) (l : List QEntry) : State :=
  let n := q.toNat
  let r := s.queueReg s.cur.core n
  if !r.isProducer s.cur then s.raise .queue (queueValue q)
  else
    let es := s.queueEntries s.cur.core n
    if 8 < es.length + l.length then s.parkOn (.queueRoom n l.length)
    else (s.setEntries s.cur.core n (es ++ l)).advance

/-- n entries taken by the consumer, or a park while fewer are held (R234). -/
def State.queueRead (s : State) (q : BitVec 5) (n : Nat) (k : List QEntry → Slot → Slot) : State :=
  let r := s.queueReg s.cur.core q.toNat
  if !r.isConsumer s.cur then s.raise .queue (queueValue q)
  else
    let es := s.queueEntries s.cur.core q.toNat
    if es.length < n then s.parkOn (.queueEntry q.toNat n)
    else
      let s := s.setEntries s.cur.core q.toNat (es.drop n)
      s.setMe ((k (es.take n) s.me).next)

/-- QWR (R234). -/
def execQwr (q a : BitVec 5) (s : State) : Out :=
  .next (s.smallOnly (.qwr q a) (fun s => s.queueWrite q [{ data := s.g a, tag0 := Tag.exact, tag1 := Tag.exact }]))

/-- Two lanes as a queue entry (R234). -/
def Slot.pairEntry (x : Slot) (v : BitVec 4) (l : Nat) : QEntry :=
  { data := joinW (x.lane v l) (x.lane v (l + 1)), tag0 := x.tag v l, tag1 := x.tag v (l + 1) }
/-- VQWR (R234). -/
def execVqwr (q v : BitVec 5) (s : State) : Out :=
  .next (s.smallOnly (.vqwr q v) (fun s =>
    s.queueWrite q [s.me.pairEntry (vnum v) 0, s.me.pairEntry (vnum v) 2]))

/-- QRD (R234). -/
def execQrd (d q : BitVec 5) (s : State) : Out :=
  .next (s.smallOnly (.qrd d q) (fun s => s.queueRead q 1 (fun l x => x.setG d ((l.map (fun e => e.data)).headD 0))))

/-- An entry into two lanes with its tags (R234). -/
def Slot.setPair (x : Slot) (v : BitVec 4) (l : Nat) (e : QEntry) : Slot :=
  (x.setLane v l (lowW e.data) e.tag0).setLane v (l + 1) (highW e.data) e.tag1
/-- VQRD (R234). -/
def execVqrd (v q : BitVec 5) (s : State) : Out :=
  .next (s.smallOnly (.vqrd v q) (fun s => s.queueRead q 2 (fun l x => match l with
    | [a, b] => (x.setPair (vnum v) 0 a).setPair (vnum v) 2 b
    | _ => x)))

/-- The word of QSTAT (R235). -/
def State.queueStat (s : State) (c q : Nat) : Nat :=
  let r := s.queueReg c q
  if r.bound then (s.queueEntries c q).length + 2 ^ 4 + r.prodSlot * 2 ^ 8 + r.consSlot * 2 ^ 12 + r.prodCore % 16 * 2 ^ 16 else 0
/-- QSTAT (R235). -/
def execQstat (d q : BitVec 5) (s : State) : Out :=
  .next (s.smallOnly (.qstat d q) (fun s => s.result d (dbl (s.queueStat s.cur.core q.toNat))))

/-- A partner parked in a closed queue wakes and takes QUEUE (R235); one whose core is stopped does once its core runs again
and it looks at the queue (R344, R385). -/
def State.closePartner (s : State) (w : Who) (q : BitVec 5) : State :=
  if !s.coreRuns w.core then s
  else match (s.slot w).park with
  | .wait (.queueEntry n _) _ => if n = q.toNat then s.trapAt w .queue (queueValue q) else s
  | .wait (.queueRoom n _) _ => if n = q.toNat then s.trapAt w .queue (queueValue q) else s
  | _ => s
/-- QCLOSE (R235). -/
def State.closeQueue (s : State) (q : BitVec 5) : State :=
  let n := q.toNat
  let r := s.queueReg s.cur.core n
  if !(r.isProducer s.cur || r.isConsumer s.cur) then s.raise .queue (queueValue q)
  else
    let s := (s.setQueueReg r.prodCore n .reset).setQueueReg r.consCore n .reset
    ((s.closePartner ⟨r.prodCore, r.prodSlot⟩ q).closePartner ⟨r.consCore, r.consSlot⟩ q).advance
/-- QCLOSE (R235). -/
def execQclose (q : BitVec 5) (s : State) : Out := .next (s.smallOnly (.qclose q) (fun s => s.closeQueue q))

/-! ### The deque (R22-R24, R245), top first -/

/-- A core's deque replaced.  The core itself holds 16 entries; a further one also has an image in the reserved area,
one of 128 entries of 16 bytes: which entry, and what its bytes are, the manual does not state: free values (R22, R44;
log entry 37). -/
def State.setDeque (s : State) (c : Nat) (l : List (Word × Word)) : State :=
  let grown := decide ((s.core c).deque.length < l.length ∧ 16 < l.length)
  let s := s.setCore c { s.core c with deque := l }
  if grown && !isLarge c then
    { s with free := s.free + 3 }.storeSpad
      (spadKey c (reservedBase + 0x2000 + 16 * ((Config.freeValue (s.free + 2)).toNat % 128))) (s.freeBytes 2)
  else s

/-- The status and deque of DQPUSH (R22, R245). -/
def pushRange (l : List (Word × Word)) (lo hi : Word) : Nat × List (Word × Word) :=
  if hi.toNat ≤ lo.toNat then (1, l) else if 144 ≤ l.length then (2, l) else (0, (lo, hi) :: l)
/-- DQPUSH (R245). -/
def execDqpush (d a b : BitVec 5) (s : State) : Out :=
  let r := pushRange (s.core s.cur.core).deque (s.g a) (s.g b)
  .next ((s.setDeque s.cur.core r.2).result d (dbl r.1))

/-- A pair result in g[rd] and g[rd + 1] (R245). -/
def Slot.setPairG (x : Slot) (d : BitVec 5) (p : Word × Word) : Slot := (x.setG d p.1).setG (d + 1) p.2
/-- DQPOP (R245). -/
def execDqpop (d : BitVec 5) (s : State) : Out :=
  .next (match (s.core s.cur.core).deque with
    | p :: r => (s.setDeque s.cur.core r).setMe ((s.me.setPairG d p).next)
    | [] => s.setMe ((s.me.setPairG d (0, 0)).next))

/-- The status and deque of DQSPLIT: the upper part of the top range stays at the top (R22, R245). -/
def splitRange (l : List (Word × Word)) : Nat × List (Word × Word) :=
  match l with
  | [] => (1, [])
  | (lo, hi) :: r =>
    if hi - lo = 1 then (2, l)
    else if 144 ≤ l.length then (3, l)
    else
      let mid := lo + (hi - lo) / 2
      (0, (mid, hi) :: (lo, mid) :: r)
/-- DQSPLIT (R245). -/
def execDqsplit (d : BitVec 5) (s : State) : Out :=
  let r := splitRange (s.core s.cur.core).deque
  .next ((s.setDeque s.cur.core r.2).result d (dbl r.1))

/-- What a steal takes from the bottom of a deque, and the deque it leaves (R23). -/
def stealRange (l : List (Word × Word)) : (Word × Word) × List (Word × Word) :=
  match l.getLast? with
  | none => ((0, 0), l)
  | some (lo, hi) =>
    let n := (hi - lo).toNat
    if n = 1 then ((lo, hi), l.dropLast)
    else
      let cut := hi - dbl ((n + 1) / 2)
      ((cut, hi), l.dropLast ++ [(lo, cut)])

/-- A steal served at the victim within the super-group: the thief's pair result is written and its DQSTEAL completes (R23). -/
def State.serveSteal (s : State) (thief : Who) (d : BitVec 5) (victim : Nat) : State :=
  let r := stealRange (s.core victim).deque
  let s := s.setDeque victim r.2
  s.setSlot thief ((s.slot thief).setPairG d r.1).next
/-- A steal served by the victim's service slot, which returns the range to the thief (R23). -/
def State.shipSteal (s : State) (m : Msg) (victim : Nat) : State :=
  let r := stealRange (s.core victim).deque
  ((s.drop m.id).setDeque victim r.2).tell m.src (.stolen m.id m.rd r.1.1 r.1.2)

/-- DQSTEAL (R23, R129, R245): a steal beyond the super-group travels to the victim's service slot. -/
def execDqsteal (d a : BitVec 5) (s : State) : Out :=
  let v := s.g a
  let victim := v.toNat % 2 ^ 16
  .next (if 2 ^ 16 ≤ v.toNat then s.raise .bounds 0
    else if !s.inPart s.me.part victim then s.raise .access v
    else s.waitRelaxed (fun s =>
      if nearBank s.cur.core (victim * 2 ^ 20) && s.coreRuns victim then s.serveSteal s.cur d victim
      else (s.send s.cur d (.steal victim)).setPark s.cur (.reply s.nextId)))

/-- DQLEN (R245). -/
def execDqlen (d : BitVec 5) (s : State) : Out := .next (s.result d (dbl (s.core s.cur.core).deque.length))

/-- DEQUE_STEAL_SERVED (R23): the victim's service slot takes up the first active message of its queue (R54). -/
def execDequeStealServed (id : Nat) (s : State) : Out :=
  .next (match s.msg? id with
    | some m =>
      match m.body with
      | .steal victim =>
        if s.servesNext victim id then s.shipSteal m victim else s
      | _ => s
    | none => s)

end Sys2Proof.Machine
end

