-- ==== Sys2Proof/Machine/Tasks.lean ====
section
/-! DEFINITION.  Tasks and termination: major 0x20 (R18-R21, R31, R32, R240-R244). -/

namespace Sys2Proof.Machine

/-- The checks of a task counter record at issue, in order: ALIGN, ACCESS, and BOUNDS for a value above 2^31 - 1
(R240, R241). -/
def State.recordCause (s : State) (a v : Word) : Option Cause :=
  if a.toNat % 16 ≠ 0 then some .align
  else if 2 ^ 36 ≤ a.toNat ∨ reservedBase ≤ offOf a.toNat ∨ !s.inPart s.me.part (homeOf a.toNat) then some .access
  else if 2 ^ 31 ≤ v.toNat then some .bounds
  else none

/-- TCINIT (R240). -/
def execTcinit (a b : BitVec 5) (s : State) : Out :=
  let r := s.g a
  .next (match s.recordCause r (s.g b) with
    | some c => s.raise c r
    | none => s.waitRelaxed (fun s => s.perform (s.mkAccess (.taskInit (s.g b)) r 16 .none false false (s.firstStage r))))

/-- TCDEC: counted and acknowledged, it waits for nothing but room for its acknowledgement (R31, R214, R241). -/
def execTcdec (a b : BitVec 5) (s : State) : Out :=
  let r := s.g a
  .next (match s.recordCause r (s.g b) with
    | some c => s.raise c r
    | none => s.ackRoom (fun s =>
        let launch := s.me.launch
        (((s.sendAcked r.toNat (.decrement r.toNat (s.g b).toNat launch true) false).countSent s.cur.core launch)).advance))

/-- An over-decrement recorded (R19, R325, R355). -/
def State.overDecrement (s : State) (slot record launch : Nat) : State :=
  let c := homeOf record
  let l := s.homeLaunch c launch
  match s.partOf c with
  | some p => s.post p l
      { cause := .sync, agent := 4, id := c, slot := slot, addr := dbl record, cursor := 0, detail := 0
        pid := ((s.launch? l).map (fun x => x.pid)).getD 0 }
  | none => s

/-- A decrement applied at the home (R19); one of the bytes of a live object changes nothing and is recorded like an
over-decrement (R106; log entry 28). -/
def State.decrement (s : State) (slot record d launch : Nat) : State :=
  let c := homeOf record
  let o := offOf record
  let w := s.countWord c o
  if d = 0 then s
  else if nbit w 31 ∨ w % 2 ^ 31 = 0 ∨ s.liveTouch c o 4 then s.overDecrement slot record launch
  else if d < w % 2 ^ 31 then s.setCountWord c o (w - d)
  else
    let t := s.placeTask c o launch
    if w % 2 ^ 31 < d then t.overDecrement slot record launch else t

/-- TCDEC_ARRIVAL (R19, R31, R130): a thread's decrement is counted as received and acknowledged. -/
def execTcdecArrival (id : Nat) (s : State) : Out :=
  .next (match s.msg? id with
    | some m =>
      match m.body with
      | .decrement record d launch counted =>
        if !s.mayAct (homeOf record) id || !s.inOrder m then s
        else
          let t := s.decrement m.src.slot record d launch
          if counted then (t.countReceived (homeOf record) launch).rebody id (.ack record none false) else t.drop id
      | _ => s
    | none => s)

/-- The slot is not ready until entry 0 of the next frame (R242). -/
def State.frameWait (s : State) : State :=
  let s := s.advance
  s.setMe { s.me with park := .wait .frame s.ticket }

/-- YIELD past its waits: a serving owner departs and a matrix slot leaves the gang (R242, R289); then the slot is
freed, takes work, and the context is admitted to this core; when there is no work, or the context cannot be admitted,
the slot waits for the next frame instead (R242). -/
def State.yieldSlot (s : State) (mask : BitVec 32) : State :=
  let s := (s.departOwner s.cur).leaveGang s.cur
  let x := s.me
  let c := s.cur.core
  let k := s.core c
  if k.arrival = [] ∧ k.runList = [] then s.frameWait
  else
    let t := (s.vacate s.cur).takeAll c 8
    match t.takeIn c (x.context (x.pc + 4) mask x.kind x.thread) with
    | some u => u
    | none => s.frameWait

/-- YIELD (R242). -/
def execYield (b : BitVec 5) (s : State) : Out :=
  .next (s.withMask b (fun m =>
    if s.me.locks ≠ [] then s.raiseFree .sync else s.waitBoth (fun s => s.yieldSlot m)))

/-- EXIT: the thread ends and the slot takes work (R20, R243). -/
def execExit (s : State) : Out :=
  .next (s.waitBoth (fun s =>
    if s.me.locks ≠ [] then s.raiseFree .sync else (s.endThread s.cur).takeAll s.cur.core 8))

/-- QUIESCE (R32, R244). -/
def execQuiesce (s : State) : Out := .next (s.waitBoth (fun s => s.setPark s.cur .quiesce))

/-- The messages that every core has sent for a launch (R32). -/
def State.sentSum (s : State) (launch : Nat) : Nat := s.cores.foldl (fun n p => n + mapGet p.2.sent 0 launch) 0
/-- The messages that every core has received for a launch (R32). -/
def State.receivedSum (s : State) (launch : Nat) : Nat := s.cores.foldl (fun n p => n + mapGet p.2.received 0 launch) 0

/-- The threads of a launch parked in QUIESCE. -/
def State.quiescing (s : State) (launch : Nat) : List Who :=
  s.allThreads.filter (fun w => decide ((s.slot w).launch = launch) && decide ((s.slot w).park = .quiesce))

/-- QUIESCE_SWEEP (R32): two successive sweeps that find equal and unchanged sums wake the launch's threads with
the launch's sweep count in g4. -/
def State.sweep (s : State) (id : Nat) (l : Launch) : State :=
  let n := s.sentSum id
  let equal := decide (n = s.receivedSum id)
  let declared := equal && decide (l.lastSums = some n)
  let ws := s.quiescing id
  let s := s.updLaunch id (fun l => { l with
    sweeps := l.sweeps + 1, lastSums := if declared then none else if equal then some n else none })
  if declared then
    ws.foldl (fun s w => (s.setSlot w ((s.slot w).setG 4 (dbl (l.sweeps + 1))).next).acquired w.core) s
  else s
/-- QUIESCE_SWEEP (R32): no thread in it stands stopped at a frame boundary (R344, R385). -/
def execQuiesceSweep (launch : Nat) (s : State) : Out :=
  .next (match s.launch? launch with
    | some l => if s.quiescing launch = [] ∨ !(s.quiescing launch).all (fun w => s.coreRuns w.core) then s else s.sweep launch l
    | none => s)

end Sys2Proof.Machine
end

