-- ==== Sys2Proof/Machine/Agents.lean ====
section
/-! DEFINITION.  V-space as the part's other agents reach it: the allocator engines, the distributors, the syscall
gate and the copy engines translate as a thread does (R45, R343, R362). -/

namespace Sys2Proof.Machine

/-- A run of bytes of one page: its address, its length, its key in State.mem, and the key of its first shadow
byte on a TAGS page. -/
structure Piece where
  va : Nat
  len : Nat
  key : Nat
  shadow : Option Nat
  deriving DecidableEq, Repr

/-- What an agent's translation of a span finds. -/
inductive Span where
  | ok (ps : List Piece)
  | fault (c : Cause) (va : Nat)
  | held (ask : Bool) (va : Nat)
  | missing (pa : Nat)

/-- What an agent's read or write needs of its pages: a read of a TAGS page acts as RAW and uses no shadow byte (R48,
R362). -/
def agentNeed (write ripe : Bool) : Need := { r := !write, w := write, x := false, atomic := false, shadow := write, ripe := ripe }

/-- Bytes va up to hi, cut at the 256-byte sectors (R46). -/
def sectorCuts (va hi : Nat) : List (Nat × Nat) :=
  (List.range (ceilDiv hi 256 - va / 256)).map (fun k =>
    let lo := max va ((va / 256 + k) * 256)
    (lo, min hi ((va / 256 + k + 1) * 256) - lo))

/-- Cuts translated one after another; the first that cannot be used decides. -/
def State.spanOf (s : State) (part : Nat) (pid : BitVec 16) (need : Need) : List (Nat × Nat) → Span
  | [] => .ok []
  | (va, len) :: rest =>
    match s.translate part pid need va with
    | .fault c => .fault c va
    | .held ask => .held ask va
    | .ok k sh =>
      if !s.keyExists k then .missing (k - 2 ^ 60)
      else match s.spanOf part pid need rest with
        | .ok ps => .ok ({ va := va, len := len, key := k, shadow := sh } :: ps)
        | x => x

/-- An agent's span of n bytes of V-space. -/
def State.vspan (s : State) (part : Nat) (pid : BitVec 16) (write ripe : Bool) (va n : Nat) : Span :=
  s.spanOf part pid (agentNeed write ripe) (sectorCuts va (va + n))

/-- The bytes of pieces. -/
def State.getPieces (s : State) (ps : List Piece) : List Byte := ps.flatMap (fun p => s.bytes p.key p.len)

/-- Bytes written to pieces; a codeword written whole loses its poison mark, and a TAGS page's shadow bytes take 62 (R48, R94,
R366). -/
def State.putPieces (s : State) : List Piece → List Byte → State
  | [], _ => s
  | p :: ps, bs =>
    let s := s.physWrite p.key (bs.take p.len)
    let s := match p.shadow with
      | some k => s.setBytes k (List.replicate (ceilDiv (p.va % 4 + p.len) 4) (Tag.none.zeroExtend 8))
      | none => s
    s.putPieces ps (bs.drop p.len)

/-- Whether an engine's read or write of n bytes of V-space waits for a registered range (R63). -/
def State.engineWaits (s : State) (pid : BitVec 16) (write : Bool) (va n : Nat) : Bool :=
  s.reqMeets pid (fun _ => false) { vspace := true, lo := va, hi := va + n, write := write }

/-- Whether pieces hold a poisoned codeword. -/
def State.poisonPieces (s : State) (ps : List Piece) : Bool := ps.any (fun p => s.anyPoison p.key p.len)

/-- Whether a hold that began at an instant has lasted 10 ms (R362). -/
def State.ripe (s : State) (since : Option Nat) : Bool :=
  match since with
  | some t => decide (t + 10000000 ≤ s.sys.meridian)
  | none => false

/-- The record that a hold on a host-resident page asks for, once (R362). -/
def State.askHeld (s : State) (ask : Bool) (since : Option Nat) (part : Nat) (pid : BitVec 16) (w : Who) (launch va : Nat) : State :=
  if ask && since.isNone then s.askMigration part pid w launch va else s

end Sys2Proof.Machine
end

