-- ==== Sys2Proof/Machine/Engine.lean ====
section
/-! DEFINITION.  The tile's copy engine: major 0x30 and AFETCH (R247-R253, R159, R300), its jobs' data (R133, R249,
R366), and suspension, resume and abort (R356-R358). -/

namespace Sys2Proof.Machine

/-! ### The checks of an issue -/

/-- Whether n bytes at an address lie RAW in the user area of one core of a partition. -/
def State.userArea (s : State) (part a n : Nat) : Bool :=
  decide (a < 2 ^ 36) && s.inPart part (homeOf a) && decide (offOf a + n ≤ reservedBase)

/-- Whether n bytes at an address lie in V-space. -/
def inVspace (a n : Nat) : Bool := decide (2 ^ 39 ≤ a) && decide (a + n ≤ 2 ^ 56)

/-- The largest of a list of numbers. -/
def listMax (l : List Nat) : Nat := l.foldl max 0

/-- A span added to the one of its core, or as a new one (R62: one entry per core touched). -/
def addSpan (l : List (Nat × Nat)) (lo hi : Nat) : List (Nat × Nat) :=
  match l with
  | [] => [(lo, hi)]
  | (a, b) :: r => if a / 2 ^ 20 = lo / 2 ^ 20 then (min a lo, max b hi) :: r else (a, b) :: addSpan r lo hi

/-- S-space addresses as ranges of scratchpad keys. -/
def spanReq (write : Bool) (p : Nat × Nat) : RangeReq :=
  { vspace := false, lo := rawKey p.1, hi := rawKey p.1 + (p.2 - p.1), write := write }

/-- The ranges of rows of n bytes at a + k * stride, the rows named by ks: one in V-space, from a on and as far
as reach; one for each core touched in S-space (R62, R251).  The first address that is neither V-space nor in a
user area of the partition is the failure. -/
def State.rowRanges (s : State) (part : Nat) (write : Bool) (a stride n reach : Nat) (ks : List Nat) :
    Except Nat (List RangeReq) :=
  let rows := ks.map (fun k => a + k * stride)
  if 2 ^ 39 ≤ a then
    let hi := max (listMax rows + n) reach
    if hi ≤ 2 ^ 56 then .ok [{ vspace := true, lo := a, hi := hi, write := write }] else .error a
  else match rows.find? (fun r => !s.userArea part r n) with
    | some r => .error r
    | none =>
      let l := rows.foldl (fun l r => addSpan l r (r + n)) []
      .ok (match l with
        | [(lo, hi)] =>
          if lo / 2 ^ 20 = a / 2 ^ 20 then
            [spanReq write (min lo a, max hi (min reach (a / 2 ^ 20 * 2 ^ 20 + reservedBase)))]
          else [spanReq write (lo, hi)]
        | l => l.map (spanReq write))

/-- Whether two lists of ranges share a byte. -/
def rangesMeet (xs ys : List RangeReq) : Bool :=
  xs.any (fun x => ys.any (fun y => x.vspace == y.vspace && overlaps x.lo x.hi y.lo y.hi))

/-- The S-space address of a key, or the V-space address, of a range's first byte. -/
def RangeReq.first (q : RangeReq) : Word := dbl q.lo

/-- An issue's ranges checked against the tables (R63), the first that conflicts. -/
def State.lockedRange (s : State) (pid : BitVec 16) (own : RangeOwner → Bool) (qs : List RangeReq) : Option Word :=
  (qs.find? (s.reqMeets pid own)).map RangeReq.first

/-! ### EGO's job (R248, R249, R251) -/

/-- ctl.type. -/
def ctlType (r : Vector Word 12) : Nat := field (r.get 0) 0 4
/-- ctl.cbn where ctl.cb is set. -/
def ctlCb (r : Vector Word 12) : Option Nat := if bit (r.get 0) 8 then some (field (r.get 0) 12 4) else none

/-- Whether the fields lie in R247's and R248's ranges. -/
def fieldsOk (r : Vector Word 12) : Bool :=
  let ty := ctlType r
  let len := (r.get 3).toNat
  let rows := (r.get 4).toNat
  decide (ty < 3) && decide (field (r.get 0) 16 48 = 0) && decide (field (r.get 0) 9 3 = 0) &&
  decide (field (r.get 0) 4 4 = 0) && decide (r.get 11 = 0) && decide (len ≤ 65536) &&
  (if ty = 2 then decide (len % 32 = 0 ∧ 32 ≤ len ∧ rows = 1)
    else decide (len % 4 = 0 ∧ 4 ≤ len ∧ 1 ≤ rows ∧ rows ≤ (if ty = 1 then 4096 else 65536))) &&
  decide ((r.get 5).toNat % 4 = 0) && decide ((r.get 6).toNat % 4 = 0)

/-- The addresses that a job of these registers uses for data. -/
def dataAddrs (r : Vector Word 12) : List Word :=
  [r.get 1] ++ (if (ctlCb r).isSome then [] else [r.get 2]) ++ (if ctlType r = 1 then [r.get 7] else []) ++
  (if ctlType r = 2 then [r.get 8] else [])

/-- A tile's circular buffer. -/
def State.buf (s : State) (t n : Nat) : CircBuf := mapGet (s.tile t).bufs .reset n
/-- A circular buffer replaced. -/
def State.setBuf (s : State) (t n : Nat) (b : CircBuf) : State :=
  s.setTile t { s.tile t with bufs := mapPut (s.tile t).bufs n b }

/-- The trap value of QUEUE for a circular buffer (R352). -/
def bufValue (n : Nat) : Word := dbl (256 + n)

/-- What an issue has passed its own checks with: its job, the ranges it checks (R63) and those it registers
(R62).  A list or record that is read whole at the issue is checked only, since its range is done with there (log
entry 13). -/
structure JobPlan where
  job : Job
  checks : List RangeReq
  ranges : List RangeReq

/-- A job of the running slot before it has a number. -/
def State.newJob (s : State) (r : Vector Word 12) : Job :=
  let x := s.me
  { num := 0, regs := r, idx := [], arrays := [], dblk := 0, cb := ctlCb r, barrier := (r.get 9).toNat, jrec := (r.get 10).toNat,
    who := s.cur, pid := x.pid, part := x.part, launch := x.launch, filled := 0, filling := none, cursor := 0, valid := 0,
    moved := 0, flags := 0, faddr := 0, cause := 0, holds := [], resumed := false }

/-- The checks of R251 past the waits, up to the ranges. -/
def State.egoPlan (s : State) (r : Vector Word 12) : Except (Cause × Word) JobPlan :=
  let t := tileOf s.cur.core
  let part := s.me.part
  let j := s.newJob r
  let ty := ctlType r
  let src := (r.get 1).toNat
  let dst := (r.get 2).toNat
  let len := (r.get 3).toNat
  let rows := (r.get 4).toNat
  let list := (r.get 7).toNat
  let scale := (r.get 8).toNat
  let data := dataAddrs r
  if !fieldsOk r then .error (.bounds, 0)
  else if (data.any (fun a => inVspace a.toNat 1) && decide (j.jrec = 0)) || (j.cb.isSome && decide (ty = 2)) then .error (.bounds, 0)
  else match data.find? (fun a => decide (a.toNat % 4 ≠ 0)), decide (j.jrec % 64 ≠ 0), decide (j.barrier % 64 ≠ 0) with
    | some a, _, _ => .error (.align, a)
    | none, true, _ => .error (.align, r.get 10)
    | none, _, true => .error (.align, r.get 9)
    | none, _, _ =>
      if ty = 1 ∧ !s.userArea part list (4 * rows) then .error (.access, r.get 7)
      else
        let idx := if ty = 1 then (List.range rows).map (fun k => s.nat (rawKey list + 4 * k) 4) else []
        let reads := if ty = 0 then s.rowRanges part false src (r.get 5).toNat len 0 (List.range rows)
          else if ty = 1 then s.rowRanges part false src (r.get 5).toNat len (src + (listMax idx + 1) * (r.get 5).toNat) idx
          else s.rowRanges part false src 0 (4 * len) 0 [0]
        let writes := if j.cb.isSome then .ok []
          else if ty = 2 then
            match s.rowRanges part true dst 0 (len / 2) 0 [0], s.rowRanges part true scale 0 (len / 32) 0 [0] with
            | .ok x, .ok y => .ok (x ++ y)
            | .error a, _ => .error a
            | _, .error a => .error a
          else s.rowRanges part true dst (r.get 6).toNat len 0 (List.range rows)
        match reads, writes with
        | .error a, _ => .error (.access, dbl a)
        | _, .error a => .error (.access, dbl a)
        | .ok rs, .ok ws =>
          if j.jrec ≠ 0 ∧ !(s.userArea part j.jrec 64 || inVspace j.jrec 64) then .error (.access, r.get 10)
          else if j.barrier ≠ 0 ∧ !s.userArea part j.barrier 64 then .error (.access, r.get 9)
          else
            let b := s.buf t (j.cb.getD 0)
            if j.cb.isSome ∧ b.count = 0 then .error (.queue, bufValue (j.cb.getD 0))
            else if (j.cb.isSome ∧ b.size < len) ∨ rangesMeet rs ws then .error (.bounds, 0)
            else
              let ls := if ty = 1 then [spanReq false (list, list + 4 * rows)] else []
              .ok { job := { j with idx := idx }, checks := rs ++ ls ++ ws, ranges := rs ++ ws }

/-! ### AFETCH's job (R159, R300) -/

/-- P of R159: the second row's offset in a slot. -/
def fetchStep (dblk : Nat) : Nat := ceilDiv (17 * dblk) 64 * 64

/-- The checks of R300 past the waits, up to the ranges. -/
def State.fetchPlan (s : State) (ra : Word) : Except (Cause × Word) JobPlan :=
  let t := tileOf s.cur.core
  let part := s.me.part
  let a := ra.toNat
  let inTile := s.userArea part a 128 && decide (tileOf (homeOf a) = t)
  let x := if inTile then s.nat (rawKey a) 64 else 0
  let f := fun k => nfield x (64 * k) 64
  let list := f 4
  let count := nfield x 320 16
  let cb := nfield x 336 4
  let dblk := nfield x 352 9
  let barrier := f 6
  let w := fun k => dbl (f k)
  if a % 64 ≠ 0 then .error (.align, ra)
  else if list % 2 ≠ 0 then .error (.align, w 4)
  else if f 0 % 16 ≠ 0 then .error (.align, w 0)
  else if f 2 % 16 ≠ 0 then .error (.align, w 2)
  else if barrier % 64 ≠ 0 then .error (.align, w 6)
  else if !inTile then .error (.access, ra)
  else if !s.userArea part list (2 * min count 4096) then .error (.access, w 4)
  else match [0, 1, 2, 3].find? (fun k => !inVspace (f k) 1) with
    | some k => .error (.access, w k)
    | none =>
      if dblk = 0 ∨ 256 < dblk ∨ 4096 < count ∨ nfield x 448 64 ≠ 0 ∨ nfield x 361 23 ≠ 0 ∨ nfield x 340 12 ≠ 0 then .error (.bounds, ra)
      else if (s.buf t cb).count = 0 then .error (.queue, bufValue cb)
      else if (s.buf t cb).size < 2 * fetchStep dblk then .error (.bounds, ra)
      else
        let idx := (List.range count).map (fun k => s.nat (rawKey list + 2 * k) 2)
        let lo := idx.foldl min 65535
        let hi := listMax idx + 1
        let span := fun (k n : Nat) => ({ vspace := true, lo := f k + lo * n, hi := f k + hi * n, write := false } : RangeReq)
        let rs := if count = 0 then [] else [span 0 (16 * dblk), span 1 dblk, span 2 (16 * dblk), span 3 dblk]
        let ls := spanReq false (a, a + 64) :: (if count = 0 then [] else [spanReq false (list, list + 2 * count)])
        let regs := (Vector.replicate 12 (0 : Word)).set 0 3
        .ok { job := { s.newJob regs with idx := idx, arrays := [f 0, f 1, f 2, f 3], dblk := dblk, cb := some cb, barrier := barrier, jrec := a + 64 }
              checks := rs ++ ls, ranges := rs }

/-! ### Claim and commit (R250, R251) -/

/-- A tile's engine replaced. -/
def State.setEngine (s : State) (t : Nat) (e : Engine) : State := s.setTile t { s.tile t with engine := e }
/-- A tile's engine. -/
def State.engine (s : State) (t : Nat) : Engine := (s.tile t).engine

/-- Whether the running slot may use the shadow set (R250). -/
def State.claimFree (s : State) : Bool :=
  let e := s.engine (tileOf s.cur.core)
  e.committed.isNone && (match e.claim with | none => true | some w => decide (w = s.cur))

/-- The claim taken by the running slot, or a park until it is its own (R250); sticks says that an ECW took it. -/
def State.claiming (s : State) (sticks : Bool) (k : State → State) : State :=
  let t := tileOf s.cur.core
  let e := s.engine t
  if !s.claimFree then s.parkOn .claim
  else k (s.setEngine t { e with claim := some s.cur, fresh := !sticks && (e.fresh || e.claim.isNone) })

/-- An EGO or AFETCH that traps gives back a claim that it took itself (R221, R250). -/
def State.dropFresh (s : State) : State :=
  let t := tileOf s.cur.core
  if (s.engine t).fresh then s.dropClaim t else s

/-- Whether the waits of R129 end in a cause now. -/
def Slot.waitsTrap (x : Slot) : Bool :=
  x.outstanding.isEmpty && (x.relaxedFault.isSome || (x.unackedNow.isEmpty && !x.unacked.isEmpty))

/-- The number of resumed jobs of an engine that wait for the live set (R253). -/
def Engine.resumedJob (e : Engine) : Option Job := e.suspended.find? (fun j => j.resumed)

/-- A job committed (R250-R252): numbered, its ranges registered, and started if the live set is idle. -/
def State.commitJob (s : State) (j : Job) (qs : List RangeReq) : State :=
  let w := j.who
  let t := tileOf w.core
  let e := s.engine t
  let j := { j with num := e.nextNum }
  let s := s.register (.job t j.num) j.part j.pid qs
  let s := s.setSlot w ({ (s.slot w).setG 4 (dbl j.num) with lastJob := j.num } : Slot).next
  let e := { e with shadow := j.regs, nextNum := e.nextNum + 1, claim := none, fresh := false }
  if e.live.isNone ∧ e.resumedJob.isNone then
    (s.setEngine t { e with live := some j, liveSet := j.regs }).handClaim t
  else s.setEngine t { e with committed := some j }

/-- The ranges of an issue of the running slot: RANGE_LOCKED, a park under R65, or the issue itself. -/
def State.issueRanges (s : State) (own : RangeOwner → Bool) (checks qs : List RangeReq) (i : Issue)
    (onTrap : State → State) (k : State → State) : State :=
  match s.lockedRange s.me.pid own checks with
  | some v => (onTrap s).raise .rangeLocked v
  | none =>
    if s.rangesFit s.me.part s.me.pid qs then k s
    else { s with ticket := s.ticket + 1 }.setMe { s.me with park := .room i checks qs s.ticket }

/-- EGO and AFETCH: the claim, the waits, the checks, the ranges and the commit (R251, R300). -/
def State.issueJob (s : State) (plan : State → Except (Cause × Word) JobPlan) : State :=
  s.claiming false (fun s =>
    (if s.me.waitsTrap then s.dropFresh else s).waitBoth (fun s =>
      match plan s with
      | .error (c, v) => s.dropFresh.raise c v
      | .ok p => s.issueRanges (fun _ => false) p.checks p.ranges (.job p.job) State.dropFresh (fun s => s.commitJob p.job p.ranges)))

/-- ECW (R250). -/
def execEcw (b : BitVec 5) (i : BitVec 8) (s : State) : Out :=
  .next (s.smallOnly (.ecw b i) (fun s =>
    if 12 ≤ i.toNat then s.raise .bounds 0
    else s.claiming true (fun s =>
      let t := tileOf s.cur.core
      let e := s.engine t
      (s.setEngine t { e with shadow := e.shadow.setIfInBounds i.toNat (s.g b) }).advance)))

/-- The status register of R250. -/
def Engine.status (e : Engine) : Word :=
  let n := (e.suspended.filter (fun j => !j.resumed)).length
  let c := match e.claim with
    | some w => 4 + w.slot * 16 + w.core * 2 ^ 32
    | none => 0
  dbl ((if e.live.isSome then 1 else 0) + (if e.committed.isSome then 2 else 0) + c + n * 2 ^ 8 + e.qflags.toNat * 2 ^ 16)

/-- The register that ECR reads, none for BOUNDS (R250). -/
def Engine.read (e : Engine) (i : Nat) : Option Word :=
  if i < 12 then some (e.shadow.toList.getD i 0)
  else if 16 ≤ i ∧ i < 28 then some (e.liveSet.toList.getD (i - 16) 0)
  else if i = 32 then some (dbl e.counter)
  else if i = 33 then some e.status
  else if i = 34 then some (dbl e.nextNum)
  else none

/-- ECR (R250). -/
def execEcr (i : BitVec 8) (s : State) : Out :=
  .next (s.smallOnly (.ecr i) (fun s =>
    match (s.engine (tileOf s.cur.core)).read i.toNat with
    | some v => s.result 4 v
    | none => s.raise .bounds 0))

/-- EGO (R251). -/
def execEgo (s : State) : Out :=
  .next (s.smallOnly .ego (fun s => s.issueJob (fun s => s.egoPlan (s.engine (tileOf s.cur.core)).shadow)))

/-- AFETCH (R300). -/
def execAfetch (a : BitVec 5) (s : State) : Out :=
  .next (s.smallOnly (.afetch a) (fun s => s.issueJob (fun s => s.fetchPlan (s.g a))))

/-- EWAIT (R252). -/
def execEwait (b : BitVec 5) (s : State) : Out :=
  .next (s.smallOnly (.ewait b) (fun s =>
    let target := if b = 0 then s.me.lastJob else (s.g b).toNat
    let n := (s.engine (tileOf s.cur.core)).counter
    if target ≤ n then s.result 4 (dbl n) else s.parkOn (.counter target)))

/-! ### What a job moves (R159, R249) -/

/-- One piece of a job's data: bytes copied; nibble bytes copied unless the scale byte of their block says that
the block is zero; a block of 32 FP32 words encoded (R79). -/
inductive Move where
  | copy (src dst n : Nat)
  | nibbles (src scale dst n : Nat)
  | quant (src dst scale : Nat)

/-- The rows of a job. -/
def Job.rows (j : Job) : Nat := if j.arrays ≠ [] then j.idx.length else (j.regs.get 4).toNat
/-- The destination bytes of one row; QUANT's are its nibble bytes. -/
def Job.rowBytes (j : Job) : Nat :=
  if j.arrays ≠ [] then 34 * j.dblk
  else if ctlType j.regs = 2 then (j.regs.get 3).toNat / 2 else (j.regs.get 3).toNat

/-- The part of [lo, hi) within [a, a + n), as offset from a and length. -/
def clip (lo hi a n : Nat) : Nat × Nat := (max lo a - a, min hi (a + n) - max lo a)

/-- The pieces of nibble bytes: off up to off + n of a row's, cut at the blocks. -/
def nibbleMoves (src scale dst off n : Nat) : List Move :=
  if n = 0 then []
  else (List.range ((off + n - 1) / 16 - off / 16 + 1)).map (fun i =>
    let b := off / 16 + i
    let c := clip off (off + n) (16 * b) 16
    .nibbles (src + 16 * b + c.1) (scale + b) (dst + 16 * b + c.1) c.2)

/-- The pieces of bytes lo up to hi of an AFETCH row of index i, whose slot lies at dst: the nibbles and scales of
W1, then those of W2 (R159). -/
def Job.fetchMoves (j : Job) (i dst lo hi : Nat) : List Move :=
  let d := j.dblk
  let arr := fun k => nth j.arrays k 0
  let half := fun (k base at_ : Nat) =>
    let c := clip lo hi base (16 * d)
    let e := clip lo hi (base + 16 * d) d
    nibbleMoves (arr k + i * 16 * d) (arr (k + 1) + i * d) at_ c.1 c.2 ++
      (if e.2 = 0 then [] else [.copy (arr (k + 1) + i * d + e.1) (at_ + 16 * d + e.1) e.2])
  half 0 0 dst ++ half 2 (17 * d) (dst + fetchStep d)

/-- The pieces of destination bytes lo up to hi of a job; slot is where the buffer slot being filled lies. -/
def Job.moves (j : Job) (slot lo hi : Nat) : List Move :=
  let n := j.rowBytes
  let r := fun k => (j.regs.get k).toNat
  if n = 0 ∨ hi ≤ lo then []
  else if j.arrays ≠ [] then
    let k := lo / n
    j.fetchMoves (nth j.idx k 0) slot (lo - k * n) (hi - k * n)
  else if ctlType j.regs = 2 then
    (List.range ((hi - 1) / 16 - lo / 16 + 1)).map (fun i =>
      let b := lo / 16 + i
      .quant (r 1 + 128 * b) (r 2 + 16 * b) (r 8 + b))
  else
    (List.range ((hi - 1) / n - lo / n + 1)).map (fun i =>
      let k := lo / n + i
      let c := clip lo hi (k * n) n
      let src := r 1 + (if ctlType j.regs = 1 then nth j.idx k 0 else k) * (r 5)
      let dst := if j.cb.isSome then slot else r 2 + k * r 6
      .copy (src + c.1) (dst + c.1) c.2)

/-! ### The engine's reads and writes -/

/-- The span of an engine's access, V-space or S-space, a page it has waited for 10 ms counted as ripe (R362). -/
def State.engineSpan (s : State) (j : Job) (write : Bool) (a n : Nat) : Span :=
  if a < 2 ^ 39 then .ok [{ va := a, len := n, key := rawKey a, shadow := none }]
  else match s.vspan j.part j.pid write false a n with
    | .held ask va =>
      match j.holds.find? (fun p => p.1 == va / 2 ^ 16) with
      | some p => if p.2 + 10000000 ≤ s.sys.meridian then s.vspan j.part j.pid write true a n else .held ask va
      | none => .held ask va
    | x => x

/-- A record of the fault queue that an engine's job raises (R355). -/
def Job.report (j : Job) (c : Cause) (addr : Nat) : FaultRec :=
  { cause := c, agent := 1, id := j.who.core / 16 * 16, slot := j.who.slot, addr := dbl addr, cursor := dbl j.jrec, detail := dbl j.num, pid := j.pid }

/-- Poison marks after an agent's write: words or codewords written whole lose theirs, and the bytes that came
from a poisoned source mark theirs (R366); those at the places that skip names are not written. -/
def State.movePoison (s : State) (k : Nat) (bad : List Bool) (skip : Nat → Bool := fun _ => false) : State :=
  if s.poison = [] ∧ !bad.any (fun b => b) then s
  else
    let u := if k < 2 ^ 60 then 4 else 64
    let s := (List.range bad.length).foldl (fun s i =>
      if (k + i) % u = 0 ∧ i + u ≤ bad.length ∧ skip i = false then s.setPoison (k + i) false else s) s
    (bad.zipIdx).foldl (fun s p => if p.1 && !skip p.2 then s.markPoison (k + p.2) else s) s

/-- Bytes written in scratchpad by an agent, with the bytes that came from a poisoned source: those of a live descriptor are
discarded, neither written nor marked nor cleared of a mark, and a record of cause SYNC is posted for it (R106, R355, R366). -/
def State.unitPut (s : State) (part launch slot : Nat) (pid : BitVec 16) (core off : Nat) (bs : List Byte) (bad : List Bool) : State :=
  let hit := (s.core core).objects.filter (fun p => overlaps off (off + bs.length) p.1 (p.1 + 64) &&
    decide (dKind.get (s.desc (core * 2 ^ 20 + p.1)) ≠ 0))
  if hit.isEmpty then (s.put (spadKey core off) bs).movePoison (spadKey core off) bad
  else
    let live := fun i => hit.any (fun q => decide (q.1 ≤ off + i ∧ off + i < q.1 + 64))
    let s := (bs.zipIdx).foldl (fun s p => if live p.2 then s else s.put (spadKey core (off + p.2)) [p.1]) s
    hit.foldl (fun s q => s.post part launch
      { cause := .sync, agent := 4, id := core, slot := slot, addr := dbl (core * 2 ^ 20 + q.1), cursor := 0, detail := 0, pid := pid })
      (s.movePoison (spadKey core off) bad live)

/-- Which bytes of pieces are poisoned. -/
def State.badBytes (s : State) (ps : List Piece) : List Bool :=
  ps.flatMap (fun p => (List.range p.len).map (fun i => s.poisoned (p.key + i)))

/-- Bytes written by an engine's job, tag 62 in scratchpad and on TAGS pages (R40, R48, R249). -/
def State.engineWrite (s : State) (j : Job) : List Piece → List Byte → List Bool → State
  | [], _, _ => s
  | p :: ps, bs, bad =>
    let b := bs.take p.len
    let d := bad.take p.len
    (if p.key < 2 ^ 60 then s.unitPut j.part j.launch j.who.slot j.pid (homeOf p.va) (offOf p.va) b d
      else (s.putPieces [p] b).movePoison p.key d).engineWrite j ps (bs.drop p.len) (bad.drop p.len)

/-- What moving a piece of a job came to. -/
inductive Moved where
  | ok (s : State) (n : Nat) (fl : Flags)
  | fault (c : Cause) (va : Nat)
  | held (ask : Bool) (va : Nat)
  | missing (pa : Nat)

/-- A span's pieces, or why it cannot be used. -/
def Span.then_ (x : Span) (k : List Piece → Moved) : Moved :=
  match x with
  | .ok ps => k ps
  | .fault c va => .fault c va
  | .held ask va => .held ask va
  | .missing pa => .missing pa

/-- Bytes from a source written as they are, a poisoned source reported and carried over (R366). -/
def State.copyMove (s : State) (j : Job) (src dst n : Nat) : Moved :=
  (s.engineSpan j false src n).then_ (fun rs => (s.engineSpan j true dst n).then_ (fun ws =>
    let bad := s.badBytes rs
    let t := s.engineWrite j ws (s.getPieces rs) bad
    .ok (if bad.any (fun b => b) then t.post j.part j.launch (j.report .poison src) else t) n 0))

/-- A block of 32 FP32 words encoded (R79, R249). -/
def State.quantMove (s : State) (j : Job) (src dst scale : Nat) : Moved :=
  (s.engineSpan j false src 128).then_ (fun rs => (s.engineSpan j true dst 16).then_ (fun ws =>
    (s.engineSpan j true scale 1).then_ (fun ss =>
      let bs := s.getPieces rs
      let e := ol4Encode ((List.range 32).map (fun k => leNat ((bs.drop (4 * k)).take 4)))
      let bad := (s.badBytes rs).any (fun b => b)
      let t := s.engineWrite j ws (e.1.map (BitVec.ofNat 8)) (List.replicate 16 bad)
      let t := t.engineWrite j ss [BitVec.ofInt 8 e.2.1] [bad]
      .ok (if bad then t.post j.part j.launch (j.report .poison src) else t) 128 e.2.2)))

/-- One piece moved. -/
def State.tryMove (s : State) (j : Job) : Move → Moved
  | .copy src dst n => s.copyMove j src dst n
  | .nibbles src scale dst n =>
    (s.engineSpan j false scale 1).then_ (fun sc =>
      if s.getPieces sc = [0x80] then
        (s.engineSpan j true dst n).then_ (fun ws => .ok (s.engineWrite j ws (List.replicate n 0) (List.replicate n false)) 0 0)
      else s.copyMove j src dst n)
  | .quant src dst scale => s.quantMove j src dst scale

/-- Pieces moved one after another. -/
def State.tryMoves (s : State) (j : Job) (n : Nat) (fl : Flags) : List Move → Moved
  | [] => .ok s n fl
  | m :: r =>
    match s.tryMove j m with
    | .ok t k f => t.tryMoves j (n + k) (fl ||| f) r
    | x => x

/-! ### A job's progress, in destination sectors (R356, R357; log entry 14) -/

/-- How far a run over the sectors came. -/
structure Progress where
  s : State
  moved : Nat
  flags : Flags
  bad : Option (Nat × Cause × Nat)
  valid : Nat
  held : Option (Bool × Nat)
  missing : Option Nat

/-- The destination sectors of bytes lo up to hi, 256 bytes each from lo. -/
def sectorsOf (lo hi : Nat) : List (Nat × Nat) :=
  (List.range (ceilDiv (hi - lo) 256)).map (fun k => (lo + 256 * k, min hi (lo + 256 * (k + 1))))

/-- One sector: skipped when its valid bit is set; not issued beyond 64 sectors of the first that faulted. -/
def Progress.sector (p : Progress) (j : Job) (slot k : Nat) (c : Nat × Nat) : Progress :=
  let mark := fun (p : Progress) => match p.bad with
    | some b => { p with valid := p.valid + 2 ^ ((c.1 - b.1) / 256) }
    | none => p
  if p.held.isSome || p.missing.isSome || (match p.bad with | some b => decide (b.1 + 64 * 256 ≤ c.1) | none => false) then p
  else if k < 64 ∧ j.valid.getLsbD k then mark p
  else match p.s.tryMoves j 0 0 (j.moves slot c.1 c.2) with
    | .ok s n fl => mark { p with s := s, moved := p.moved + n, flags := p.flags ||| fl }
    | .fault cs va => if p.bad.isSome then p else { p with bad := some (c.1, cs, va) }
    | .held ask va => { p with held := some (ask, va) }
    | .missing pa => { p with missing := some pa }

/-- The destination bytes that remain: of the row in its buffer slot, or of the whole job. -/
def Job.remaining (j : Job) : Nat × Nat :=
  let n := j.rowBytes
  if j.cb.isSome then (max j.cursor (j.filled * n), (j.filled + 1) * n) else (j.cursor, j.rows * n)

/-- The address of the buffer slot being filled. -/
def State.slotAddr (s : State) (t : Nat) (j : Job) : Nat :=
  match j.cb, j.filling with
  | some n, some k => (s.buf t n).base + k * (s.buf t n).size
  | _, _ => 0

/-- A run over the sectors that remain. -/
def State.runJob (s : State) (t : Nat) (j : Job) : Progress :=
  let r := j.remaining
  ((sectorsOf r.1 r.2).zipIdx).foldl (fun p c => p.sector j (s.slotAddr t j) c.2 c.1)
    { s := s, moved := j.moved, flags := j.flags, bad := none, valid := 0, held := none, missing := none }

/-- The live job of a tile replaced. -/
def State.setLive (s : State) (t : Nat) (j : Option Job) : State := s.setEngine t { s.engine t with live := j }

/-- A page that a job waits for, with its instant, and the record that asks for its migration (R362). -/
def State.holdPage (s : State) (t : Nat) (j : Job) (ask : Bool) (va : Nat) : State :=
  if j.holds.any (fun p => p.1 == va / 2 ^ 16) then s
  else
    let s := s.setLive t (some { j with holds := (va / 2 ^ 16, s.sys.meridian) :: j.holds })
    if ask then s.askMigration j.part j.pid j.who j.launch va else s

/-- A run of the live job that must come to the end of its sectors: otherwise nothing happens but the note of a
hold. -/
def State.finishRun (s : State) (t : Nat) (j : Job) (k : State → Job → State) : Out :=
  let p := s.runJob t j
  match p.missing, p.held with
  | some pa, _ => .fault (.noSuchMemory pa)
  | none, some h => .next (s.holdPage t j h.1 h.2)
  | none, none =>
    .next (if p.bad.isSome then s
      else k p.s { j with moved := p.moved, flags := p.flags, cursor := j.remaining.2, valid := 0 })

/-- An event of a tile's engine, past the guard that its partition runs. -/
def State.onEngine (s : State) (t : Nat) (k : Engine → Out) : Out :=
  if s.coreRuns (16 * t) then k (s.engine t) else .next s

/-! ### The job record (R356) -/

/-- The 64 bytes of a job record. -/
def Job.record (j : Job) (state : Nat) : List Byte :=
  leBytes 20 0 ++ leBytes 1 state ++ leBytes 1 j.cause ++ leBytes 2 j.pid.toNat ++ leBytes 8 j.num ++ leBytes 8 j.moved ++
  leBytes 8 j.cursor ++ leBytes 8 j.valid.toNat ++ leBytes 8 j.faddr

/-- Bytes off up to off + n of a job's record written, where it has one that can be reached. -/
def State.writeRecord (s : State) (j : Job) (off : Nat) (bs : List Byte) : State :=
  if j.jrec = 0 then s
  else match s.engineSpan j true (j.jrec + off) bs.length with
    | .ok ps => s.engineWrite j ps bs (bs.map (fun _ => false))
    | _ => s

/-- The hold that a read or write of n bytes of a job's record meets, if it meets one: the access waits for the page as any
other of the engine does (R362, R365). -/
def State.recordHold (s : State) (j : Job) (write : Bool) (off n : Nat) : Option (Bool × Nat) :=
  if j.jrec = 0 then none
  else match s.engineSpan j write (j.jrec + off) n with
    | .held ask va => some (ask, va)
    | _ => none

/-- A page that a suspended job's record waits for, as holdPage notes one of the live job (R362). -/
def State.holdSuspended (s : State) (t : Nat) (j : Job) (ask : Bool) (va : Nat) : State :=
  if j.holds.any (fun p => p.1 == va / 2 ^ 16) then s
  else
    let e := s.engine t
    let s := s.setEngine t { e with suspended := e.suspended.map (fun x =>
      if x = j then { j with holds := (va / 2 ^ 16, s.sys.meridian) :: j.holds } else x) }
    if ask then s.askMigration j.part j.pid j.who j.launch va else s

/-- A job's record read back, as a number. -/
def State.readRecord (s : State) (j : Job) : Option Nat :=
  match s.engineSpan j false j.jrec 64 with
  | .ok ps => if j.jrec = 0 then none else some (leNat (s.getPieces ps))
  | _ => none

/-- Whether a write of n bytes of a job's record waits for a registered range (R63). -/
def State.recordWaits (s : State) (t : Nat) (j : Job) (off n : Nat) : Bool :=
  decide (j.jrec ≠ 0) && s.reqMeets j.pid (fun o => decide (o = .job t j.num))
    (if j.jrec < 2 ^ 39 then spanReq true (j.jrec + off, j.jrec + off + n)
      else { vspace := true, lo := j.jrec + off, hi := j.jrec + off + n, write := true })

/-! ### The engine's steps -/

/-- JOB_START (R251, R253): a resumed job, else the committed shadow, is copied to the idle live set. -/
def execJobStart (tile : Nat) (s : State) : Out :=
  s.onEngine tile (fun e => .next (
    if e.live.isSome then s
    else match e.resumedJob, e.committed with
      | some j, _ => s.setEngine tile { e with live := some j, liveSet := j.regs, suspended := e.suspended.erase j }
      | none, some j => (s.setEngine tile { e with live := some j, liveSet := j.regs, committed := none }).handClaim tile
      | none, none => s))

/-- The range of the buffer slot that a job fills next, if it may take one. -/
def State.nextFill (s : State) (tile : Nat) (j : Job) : Option RangeReq :=
  match j.cb with
  | some n =>
    let b := s.buf tile n
    let a := b.base + b.tail * b.size
    if j.filling.isSome || decide (j.rows ≤ j.filled) || decide (b.free = 0) then none else some (spanReq true (a, a + b.size))
  | none => none

/-- The issues and fills that wait for room: partition, process, ranges and place (R65). -/
def State.roomWaiters (s : State) : List (Nat × BitVec 16 × List RangeReq × Nat) :=
  s.slots.filterMap (fun p => match p.2.park with
    | .room _ _ qs t => if p.2.occ then some (p.2.part, p.2.pid, qs, t) else none
    | _ => none) ++
  s.tiles.filterMap (fun p => match p.2.engine.live with
    | some j => (match j.place, s.nextFill p.1 j with
      | some t, some q => some (j.part, j.pid, [q], t)
      | _, _ => none)
    | none => none)

/-- Whether two tables are the same or share a station. -/
def tablesMeet (a b : RangeTable) : Bool :=
  match a, b with
  | .tile x, .tile y => x == y
  | .stations _ x, .stations _ y => x.any (fun k => y.contains k)
  | _, _ => false

/-- Whether one that began to wait earlier waits for a table that these ranges go into. -/
def State.roomBehind (s : State) (part : Nat) (pid : BitVec 16) (qs : List RangeReq) (ticket : Nat) : Bool :=
  let ts := qs.map (s.tableOf part pid)
  s.roomWaiters.any (fun p => decide (p.2.2.2 < ticket) &&
    (p.2.2.1.map (s.tableOf p.1 p.2.1)).any (fun a => ts.any (tablesMeet a)))

/-- The free slot at tail taken, with its range registered (R56, R62). -/
def State.startFill (s : State) (tile n : Nat) (j : Job) (q : RangeReq) : State :=
  let b := s.buf tile n
  let s := s.setBuf tile n { b with free := b.free - 1, filling := b.filling + 1, tail := (b.tail + 1) % b.count }
  (s.register (.job tile j.num) j.part j.pid [q]).setLive tile (some { j with filling := some b.tail, place := none })

/-- CB_SLOT_START (R56, R62, R251): the live job takes the free slot at tail once its range meets no other and
fits in the table; one that finds no room waits in its place (R63, R65). -/
def execCbSlotStart (tile : Nat) (s : State) : Out :=
  s.onEngine tile (fun e => .next (
    match e.live with
    | some j =>
      match j.cb, s.nextFill tile j with
      | some n, some q =>
        if s.reqMeets j.pid (fun o => decide (o = .job tile j.num)) q then s
        else if s.roomBehind j.part j.pid [q] (j.place.getD s.ticket) || !s.rangesFit j.part j.pid [q] then
          (if j.place.isSome then s
            else { s with ticket := s.ticket + 1 }.setLive tile (some { j with place := some s.ticket }))
        else s.startFill tile n j q
      | _, _ => s
    | none => s))

/-- CB_SLOT_FILLED (R56): a row's writes are complete, its range is removed, and the slot is filled. -/
def execCbSlotFilled (tile : Nat) (s : State) : Out :=
  s.onEngine tile (fun e =>
    match e.live with
    | some j =>
      match j.cb, j.filling with
      | some n, some _ =>
        let lo := rawKey (s.slotAddr tile j)
        s.finishRun tile j (fun s j =>
          let b := s.buf tile n
          let s := { s with ranges := s.ranges.filter (fun r => !(decide (r.owner = RangeOwner.job tile j.num) && r.write && decide (r.lo = lo))) }
          (s.setBuf tile n { b with filling := b.filling - 1, filled := b.filled + 1 }).setLive tile
            (some { j with filled := j.filled + 1, filling := none }))
      | _, _ => .next s
    | none => .next s)

/-- Numbers counted in order from a counter on (R252). -/
def countDone : Nat → Nat → List Nat → Nat
  | 0, c, _ => c
  | k + 1, c, l => if l.contains (c + 1) then countDone k (c + 1) l else c

/-- A job that has ended: its ranges are removed, it is counted in its turn, and it arrives on its barrier (R114,
R249, R252). -/
def State.endJob (s : State) (t : Nat) (j : Job) : State :=
  let s := s.unregister (fun o => decide (o = .job t j.num))
  let e := s.engine t
  let l := e.held ++ [j.num]
  let c := countDone l.length e.counter l
  let s := s.setEngine t { e with held := l.filter (fun n => decide (c < n)), counter := c }
  if j.barrier = 0 then s
  else s.send ⟨16 * t, 8⟩ 0 (.sync j.barrier (.engine j.moved (s.sys.meridian % 2 ^ 32) j.launch))

/-- The live job ends: its record reads done, and QUANT leaves its flags (R249, R356). -/
def State.completeJob (s : State) (t : Nat) (j : Job) : State :=
  let s := (s.writeRecord j 0 (j.record 4)).setLive t none
  let s := if ctlType j.regs = 2 ∧ j.arrays = [] then s.setEngine t { s.engine t with qflags := j.flags } else s
  s.endJob t j

/-- JOB_COMPLETION (R252): the job's remaining bytes are performed, or every row of its buffer is filled; the write of
its record waits while it meets a range (R63) or its page is held (R362). -/
def execJobCompletion (tile : Nat) (s : State) : Out :=
  s.onEngine tile (fun e =>
    match e.live with
    | some j =>
      if s.recordWaits tile j 0 64 then .next s
      else match s.recordHold j true 0 64 with
      | some h => .next (s.holdPage tile j h.1 h.2)
      | none =>
      if j.cb.isSome then .next (if j.filling.isNone ∧ j.rows ≤ j.filled then s.completeJob tile j else s)
      else s.finishRun tile j (fun s j => s.completeJob tile j)
    | none => .next s)

/-- JOB_SUSPENSION (R253, R357): a sector faulted and no other is waiting; the record and the fault record are
written and the live set is free; both wait while the record's page is held (R362).  With four jobs suspended and not yet complete, the live set stands still. -/
def execJobSuspension (tile : Nat) (s : State) : Out :=
  s.onEngine tile (fun e =>
    match e.live with
    | some j =>
      if 4 ≤ e.suspended.length ∨ (j.cb.isSome ∧ j.filling.isNone) ∨ s.recordWaits tile j 0 64 then .next s
      else
        let p := s.runJob tile j
        match p.missing, p.held, p.bad with
        | some pa, _, _ => .fault (.noSuchMemory pa)
        | none, some h, _ => .next (s.holdPage tile j h.1 h.2)
        | none, none, none => .next s
        | none, none, some (off, c, va) =>
          match s.recordHold j true 0 64 with
          | some h => .next (s.holdPage tile j h.1 h.2)
          | none =>
            let j := { j with moved := p.moved, flags := p.flags, cursor := off, valid := dbl p.valid, faddr := va, cause := c.code }
            let s := (p.s.writeRecord j 0 (j.record 1)).post j.part j.launch (j.report c va)
            let e := s.engine tile
            .next (s.setEngine tile { e with live := none, suspended := e.suspended ++ [{ j with resumed := false, holds := [] }] })
    | none => .next s)

/-- A suspended job by its number, one that has not been resumed (R358). -/
def Engine.suspendedJob (e : Engine) (n : Nat) : Option Job := e.suspended.find? (fun j => j.num == n && !j.resumed)

/-- JOB_RESUME (R358): the record is read again and reads resumed; the job waits for the live set. -/
def execJobResume (tile job : Nat) (s : State) : Out :=
  s.onEngine tile (fun e => .next (
    match e.suspendedJob job with
    | some j =>
      if s.recordWaits tile j 0 64 then s
      else match s.recordHold j true 0 64, s.recordHold j false 0 64 with
      | some h, _ => s.holdSuspended tile j h.1 h.2
      | none, some h => s.holdSuspended tile j h.1 h.2
      | none, none =>
      let k := match s.readRecord j with
        | some x => { j with cursor := nfield x 320 64, valid := dbl (nfield x 384 64), moved := nfield x 256 64 }
        | none => j
      (s.writeRecord j 20 (leBytes 1 2)).setEngine tile { e with suspended := e.suspended.erase j ++ [{ k with resumed := true, holds := [] }] }
    | none => s))

/-- JOB_ABORT (R358): the record reads aborted and the job ends with what it has moved. -/
def execJobAbort (tile job : Nat) (s : State) : Out :=
  s.onEngine tile (fun e => .next (
    match e.suspendedJob job with
    | some j =>
      if s.recordWaits tile j 20 1 then s
      else match s.recordHold j true 20 1 with
      | some h => s.holdSuspended tile j h.1 h.2
      | none =>
      let s := (s.writeRecord j 20 (leBytes 1 3)).setEngine tile { e with suspended := e.suspended.erase j }
      s.endJob tile j
    | none => s))

/-- RANGE_ENTRY_REMOVAL (R62): the live job, which fills no buffer, has performed every byte, and one of its
entries is removed before the job ends; the array's and the check stage's entries go with their steps. -/
def execRangeEntryRemoval (id : Nat) (s : State) : Out :=
  match s.ranges.find? (fun r => r.id == id) with
  | some r =>
    match r.owner with
    | .job t n => s.onEngine t (fun e =>
        match e.live with
        | some j =>
          if j.num ≠ n ∨ j.cb.isSome then .next s
          else s.finishRun t j (fun s j => ({ s with ranges := s.ranges.filter (fun q => q.id != id) }).setLive t (some j))
        | none => .next s)
    | _ => .next s
  | none => .next s

end Sys2Proof.Machine
end

