-- ==== Sys2Proof/Machine/CircBuf.lean ====
section
/-! DEFINITION.  Circular buffers: major 0x31 (R55, R56, R254, R255). -/

namespace Sys2Proof.Machine

/-- The checks of CBINIT on its image: base, size and count (R55, R254). -/
def bufImageCause (tile img : Nat) : Option (Bool × Word) :=
  let base := nfield img 0 64
  let size := nfield img 64 32
  let count := nfield img 112 16
  if base % 64 ≠ 0 ∨ size % 64 ≠ 0 ∨ size < 64 ∨ 65536 < size ∨ count = 0 ∨ 256 < count ∨ 2 ^ 36 ≤ base ∨
      reservedBase < offOf base + size * count then some (true, 0)
  else if tileOf (homeOf base) ≠ tile then some (false, dbl base)
  else none

/-- CBINIT past its waits: the image is read as an access of the thread reads it. -/
def State.cbinit (s : State) (a : Word) (n : Nat) : State :=
  let t := tileOf s.cur.core
  let k := rawKey a.toNat
  if blocksLoad (s.spadMeets k (k + 16)) then s.raise .rangeLocked a
  else if s.anyPoison k 16 then s.raise .poison a
  else
    let img := s.nat k 16
    match bufImageCause t img with
    | some (true, _) => s.raise .bounds a
    | some (false, v) => s.raise .access v
    | none =>
      let b := s.buf t n
      if b.filling ≠ 0 ∨ b.acquired ≠ 0 then s.raise .queue (bufValue n)
      else
        let c := nfield img 112 16
        (s.setBuf t n { base := nfield img 0 64, size := nfield img 64 32, count := c, free := c, filled := 0, head := 0,
                        tail := 0, acquired := 0, filling := 0 }).advance

/-- Whether CBINIT's image lies RAW in the partition; the reserved area answers in SUPER and MACHINE only (R44, R254). -/
def State.imageHere (s : State) (a : Nat) : Bool :=
  decide (a < 2 ^ 36) && s.inPart s.me.part (homeOf a) &&
  decide (offOf a + 16 ≤ (if s.me.mode = .user then reservedBase else 0x20000))

/-- CBINIT (R254). -/
def execCbinit (a : BitVec 5) (n : BitVec 4) (s : State) : Out :=
  .next (s.smallOnly (.cbinit a n) (fun s =>
    let v := s.g a
    if v.toNat % 16 ≠ 0 then s.raise .align v
    else if !s.imageHere v.toNat then s.raise .access v
    else s.waitRelaxed (fun s => s.cbinit v n.toNat)))

/-- The address of the slot at head, taken by a reader (R56). -/
def CircBuf.acquire (b : CircBuf) : CircBuf :=
  { b with filled := b.filled - 1, acquired := b.acquired + 1, head := (b.head + 1) % b.count }

/-- CBACQ (R56, R255): readers that wait are served in arrival order. -/
def execCbacq (n : BitVec 4) (s : State) : Out :=
  .next (s.smallOnly (.cbacq n) (fun s =>
    let t := tileOf s.cur.core
    let b := s.buf t n.toNat
    if b.count = 0 then s.raise .queue (bufValue n.toNat)
    else if b.filled ≤ s.ahead (.bufferFilled n.toNat) s.me.turn (fun c => tileOf c == t) then s.parkOn (.bufferFilled n.toNat)
    else (s.setBuf t n.toNat b.acquire).result 4 (dbl (b.base + b.head * b.size))))

/-- CBREL (R56, R129, R255). -/
def execCbrel (n : BitVec 4) (s : State) : Out :=
  .next (s.smallOnly (.cbrel n) (fun s => s.waitRelaxed (fun s =>
    let t := tileOf s.cur.core
    let b := s.buf t n.toNat
    if b.count = 0 ∨ b.acquired = 0 then s.raise .queue (bufValue n.toNat)
    else (s.setBuf t n.toNat { b with acquired := b.acquired - 1, free := b.free + 1 }).advance)))

/-- CBSTAT (R255). -/
def execCbstat (n : BitVec 4) (s : State) : Out :=
  .next (s.smallOnly (.cbstat n) (fun s =>
    let b := s.buf (tileOf s.cur.core) n.toNat
    let v := dbl (b.free + b.filled * 2 ^ 16 + b.acquired * 2 ^ 32 + b.filling * 2 ^ 48)
    let w := dbl (b.head + b.tail * 2 ^ 16 + b.count * 2 ^ 32)
    s.setMe (((s.me.setG 4 v).setG 5 w).next)))

end Sys2Proof.Machine
end

