-- ==== Sys2Proof/Machine/Gang.lean ====
section
/-! DEFINITION.  The gang of a tile: MGANG, the checks of operand records and drain words, the issue of a member and
the join (R142-R148, R152, R287-R297), leaving the gang (R289), and the range-table wait (R65). -/

namespace Sys2Proof.Machine

/-! ### Leaving the gang (R289) -/

/-- The matrix slot of a core of a tile, 8 for none (R143). -/
def Tile.mslot (t : Tile) (c : Nat) : Nat := mapGet t.mslots 8 c

/-- The slots of a tile's cores, with their state. -/
def State.tileSlots (s : State) (tile : Nat) : List (Who × Slot) :=
  (s.slots.filter (fun p => decide (tileOf (p.1 / 8) = tile) && p.2.occ)).map (fun p => (⟨p.1 / 8, p.1 % 8⟩, p.2))

/-- The slots of a tile parked in MGANG (R291). -/
def State.inGang (s : State) (tile : Nat) : List Who :=
  ((s.tileSlots tile).filter (fun p => decide (p.2.park = .gang))).map (fun p => p.1)

/-- The slots of a tile parked for range-table room in a gang operation, with their instruction words. -/
def State.roomMembers (s : State) (tile : Nat) : List (Who × Word) :=
  (s.tileSlots tile).filterMap (fun p => match p.2.park with
    | .room (.member m) _ _ _ => some (p.1, m.word)
    | _ => none)

/-- Whether every core of a tile runs: the array and the wired barrier stand still with one that has stopped (R164, R344,
R385). -/
def State.tileRuns (s : State) (tile : Nat) : Bool := (List.range 16).all (fun k => s.coreRuns (16 * tile + k))

/-- Parked slots take a cause; one whose core has stopped takes it at the resume (R344, R385). -/
def State.trapAll (s : State) (c : Cause) (l : List (Who × Word)) : State :=
  l.foldl (fun s p =>
    if s.coreRuns p.1.core then s.trapAt p.1 c p.2
    else s.send p.1 0 (.answer p.1 (.refusal (s.slot p.1).park c p.2))) s

/-- The members of the partly joined operation that are still parked in it. -/
def State.joinedNow (s : State) (tile : Nat) : List Member :=
  (s.tile tile).joining.filter (fun m => decide ((s.slot m.who).park = .member))

/-- The partly joined operation of a tile discarded: its ranges are removed and its members, and those that wait
for room to join it, take ILLEGAL (R289, R291). -/
def State.discardJoining (s : State) (tile : Nat) : State :=
  let ms := s.joinedNow tile
  let rs := s.roomMembers tile
  let all := (s.tile tile).joining.map (fun m => m.who)
  let s := s.unregister (fun o => match o with | .member w => all.contains w | _ => false)
  let s := s.setTile tile { s.tile tile with joining := [] }
  s.trapAll .illegal (ms.map (fun m => (m.who, m.word)) ++ rs)

/-- A core leaves the gang: the slots parked in MGANG, and the members of an operation that it had not joined, take
ILLEGAL (R289). -/
def State.gangLeft (s : State) (tile c : Nat) : State :=
  let t := s.tile tile
  let s := s.setTile tile { t with leaving := t.leaving.filter (fun k => k != c) }
  let s := s.trapAll .illegal ((s.inGang tile).map (fun w => (w, wordOf .mgang)))
  if t.joining.any (fun m => decide (m.who.core % 16 = c)) then s else s.discardJoining tile

/-- The departures that have not taken effect yet. -/
def State.settleLeaves (s : State) (tile : Nat) : State := (s.tile tile).leaving.foldl (fun s c => s.gangLeft tile c) s

/-- GANG_LEAVE (R289). -/
def execGangLeave (core : Nat) (s : State) : Out :=
  let tile := tileOf core
  .next (if s.tileRuns tile && (s.tile tile).leaving.contains (core % 16) then s.gangLeft tile (core % 16) else s)

/-! ### MTXERR (R151, R287 step 3) -/

/-- A pending error of the running slot's core is taken; otherwise the instruction goes on. -/
def State.pendingError (s : State) (k : State → State) : State :=
  let tile := tileOf s.cur.core
  let t := s.tile tile
  match t.pendErr.find? (fun p => p.1 == s.cur.core % 16) with
  | some p => s.waitRelaxed (fun s =>
      let s := s.setTile tile { s.tile tile with pendErr := mapErase t.pendErr (s.cur.core % 16) }
      (s.setMe { s.me with csr := { s.me.csr with mtxerr := p.2 } }).raise .mtxerr p.2)
  | none => k s

/-! ### MGANG (R143, R291) -/

/-- Whether a launch holds every core of a tile (R291, R338). -/
def Launch.holdsTile (l : Launch) (tile : Nat) : Bool :=
  (List.range 16).all (fun k => l.held.any (fun p => decide (p.1 ≤ 16 * tile + k ∧ 16 * tile + k < p.1 + p.2)))

/-- MGANG: a pending MTXERR and the waits come before its own checks (R287, R291). -/
def execMgang (s : State) : Out :=
  .next (s.smallOnly .mgang (fun s =>
    let c := s.cur.core
    let s := s.settleLeaves (tileOf c)
    s.pendingError (fun s => s.waitBoth (fun s =>
      if (s.inGang (tileOf c)).any (fun w => decide (w.core = c)) then s.raise .illegal (wordOf .mgang)
      else if !((s.launch? s.me.launch).map (fun l => l.holdsTile (tileOf c))).getD false then s.raise .illegal (wordOf .mgang)
      else s.setPark s.cur .gang))))

/-- A slot released from MGANG becomes its core's matrix slot, and the release is a barrier phase for the staging
of its core (R13, R291). -/
def State.releaseGang (s : State) (tile : Nat) (w : Who) : State :=
  let t := s.tile tile
  let s := s.setTile tile { t with mslots := mapPut t.mslots (w.core % 16) w.slot }
  let k := s.core w.core
  let s := if k.staged.isSome then s.setCore w.core { k with goLive := true } else s
  s.setSlot w (s.slot w).next

/-- MGANG_RELEASE (R143, R291). -/
def execMgangRelease (tile : Nat) (s : State) : Out :=
  let s' := s.settleLeaves tile
  let ws := s'.inGang tile
  .next (if !s.tileRuns tile || decide (ws.length ≠ 16) then s
    else
      let t := s'.discardJoining tile
      let t := t.setTile tile { t.tile tile with gops := 0 }
      ws.foldl (fun s w => s.releaseGang tile w) t)

/-! ### What the queued operations will leave (R288) -/

/-- The plane formats, the accumulator mode and the store type. -/
structure Proj where
  live : Nat
  shadow : Nat
  mode : AccMode
  covFp : Bool

/-- The accumulator mode of a pairing, unset where R150 allows none. -/
def pairMode (live stream : Nat) : AccMode :=
  match live with
  | 2 => if stream = 2 then .fp else .unset
  | 3 => if stream = 3 ∨ stream = 4 then .fp else .unset
  | 4 => if stream = 3 ∨ stream = 4 then .fp else .unset
  | 6 => if stream = 6 ∨ stream = 7 then .int else .unset
  | 7 => if stream = 6 ∨ stream = 7 then .int else .unset
  | 5 => if stream = 3 ∨ stream = 4 ∨ stream = 6 ∨ stream = 7 then .fp else .unset
  | _ => .unset

/-- The window of an operation's records. -/
def GangOp.window (o : GangOp) : Nat := ((o.members.head?.bind (fun m => m.record)).map (fun r => r.window)).getD 0

/-- The accumulator mode that a store type gives an unset mode (R302). -/
def covMode (fp : Bool) : AccMode := if fp then .fp else .int

/-- A load of the shadow plane (R145). -/
def GangFn.isLoad (f : GangFn) : Bool := decide (f = .mldw) || decide (f = .mtld)

/-- The operations that wait in the queue (R144, R297). -/
def Tile.waiting (t : Tile) : Nat := (t.queue.filter (fun o => !o.started)).length

/-- One operation's effect on what later checks use. -/
def Proj.after (p : Proj) (o : GangOp) : Proj :=
  match o.fn with
  | .mldw => { p with shadow := o.window }
  | .mtld => { p with shadow := o.window }
  | .mswap => { p with live := p.shadow, shadow := p.live }
  | .mzero => { p with mode := .unset }
  | .mstrm => { p with mode := if p.mode = .unset then pairMode p.live o.window else p.mode }
  | .mgrp => { p with mode := .unset }
  | .mcovi => { p with covFp := bit o.rb 31 }
  | .mcovp => { p with mode := if p.mode = .unset then covMode p.covFp else p.mode }
  | _ => p

/-- What stands when the next operation to join runs (R288). -/
def Tile.proj (t : Tile) : Proj :=
  t.queue.foldl Proj.after { live := t.live.win, shadow := t.shadow.win, mode := t.amode, covFp := t.covFp }

/-! ### Operand records (R146-R148) -/

/-- A record as read at a key. -/
def opRecAt (x : Nat) : OpRec :=
  { base := nfield x 192 64, bitmap := nfield x 128 64, scale := nfield x 88 40, key1 := BitVec.ofNat 16 (nfield x 72 16),
    key0 := BitVec.ofNat 16 (nfield x 56 16), stride := nfield x 44 12, cols := nfield x 37 7, rows := nfield x 31 6,
    asig := BitVec.ofNat 6 (nfield x 25 6), window := nfield x 22 3 }

/-- The raw offset of an element's first byte through a window. -/
def elemOff (w i : Nat) : Nat := if w ≤ 1 then 4 * i else if w = 5 then i / 2 else elemBytes w * i

/-- The number of the element that base names.  DESIGN CHOICE (log entry 33): outside OL4X the two lowest bits of base are
not looked at. -/
def OpRec.first (r : OpRec) : Nat := elemIndex r.base

/-- The last element of a record. -/
def OpRec.last (r : OpRec) : Nat := r.first + (r.rows - 1) * r.stride + (r.cols - 1)

/-- The raw extents of a record's elements, scale bytes and bitmap, as S-space addresses. -/
def OpRec.extents (r : OpRec) : List (Nat × Nat) :=
  let c := homeOf r.base * 2 ^ 20
  let none_ := r.rows = 0 ∨ r.cols = 0
  (if none_ then [] else [(c + elemOff r.window r.first, c + (if r.window = 5 then r.last / 2 + 1 else elemOff r.window (r.last + 1)))]) ++
  (if none_ ∨ r.window ≠ 5 then [] else [(r.scale, r.scale + (r.last - r.first) / 32 + 1)]) ++
  (if r.bitmap = 0 ∨ r.rows = 0 then [] else [(r.bitmap, r.bitmap + 8 * r.rows)])

/-- The limits of R147 on a record's rows and columns. -/
structure RecLimits where
  rowsMax : Nat
  colsMin : Nat
  colsMax : Nat

/-- Step 3 of R148 on a record. -/
def OpRec.bad (r : OpRec) (mbz : Nat) (l : RecLimits) : Bool :=
  decide (mbz ≠ 0) || decide (r.window ≠ winOf r.base) || decide (l.rowsMax < r.rows) || decide (r.cols < l.colsMin) ||
  decide (l.colsMax < r.cols) || decide (r.window ≠ 5 ∧ r.scale ≠ 0) ||
  decide (r.window = 5 ∧ (r.base % 128 ≠ 0 ∨ r.stride % 32 ≠ 0)) || decide (r.bitmap % 8 ≠ 0) ||
  r.extents.any (fun p => decide (p.1 / 2 ^ 20 * 2 ^ 20 + reservedBase < p.2))

/-- Steps 1 to 3 of R148: the record at an address, whose windows a predicate allows.  DESIGN CHOICE (log entry 33): the
areas of an operand with no elements are checked as those of any other. -/
def State.checkRecord (s : State) (ra : Word) (allow : Nat → Bool) (lim : OpRec → RecLimits) : Except (Cause × Word) OpRec :=
  let a := ra.toNat
  let c := s.cur.core
  let own := fun (p : Nat) => decide (p < 2 ^ 36 ∧ homeOf p = c ∧ offOf p < reservedBase)
  if a % 32 ≠ 0 then .error (.align, ra)
  else if !own a then .error (.access, ra)
  else
    let x := s.nat (rawKey a) 32
    let r := opRecAt x
    if !allow r.window then .error (.access, ra)
    else if 2 ^ 39 ≤ r.base ∨ homeOf r.base ≠ c ∨ reservedBase ≤ elemOff r.window r.first then .error (.access, dbl r.base)
    else if r.bitmap ≠ 0 ∧ !own r.bitmap then .error (.access, dbl r.bitmap)
    else if r.window = 5 ∧ !own r.scale then .error (.access, dbl r.scale)
    else if r.bad (nfield x 0 22) (lim r) then .error (.bounds, ra)
    else .ok r

/-! ### Drain words (R152, R296) -/

/-- mask of a drain word. -/
def dwMask (v : Word) : Bool := bit v 63
/-- wake. -/
def dwWake (v : Word) : Bool := bit v 62
/-- rows. -/
def dwRows (v : Word) : Nat := field v 56 6
/-- fmt. -/
def dwFmt (v : Word) : Nat := field v 53 3
/-- The address of the task record that a drain wakes. -/
def dwRecord (v : Word) : Nat := field v 0 16 * 2 ^ 20 + field v 36 13 * 16
/-- The address of a drain's output. -/
def dwDest (v : Word) : Nat := field v 0 16 * 2 ^ 20 + field v 16 17
/-- The bytes of one drained element (R153). -/
def dwSize (v : Word) : Nat := match dwFmt v with | 1 => 2 | 2 => 1 | 3 => 1 | _ => 4
/-- The bytes that a drain of r rows writes (R153, R154). -/
def dwExtent (v : Word) (r : Nat) : Nat := if r = 0 then 0 else 32 * r * dwSize v + (if dwMask v then 4 * r else 0)

/-- The checks of a drain word of r rows, whose rows field must be below a limit (R148, R152, R296). -/
def State.drainCause (s : State) (v : Word) (mode : AccMode) (r limit : Nat) : Option (Cause × Word) :=
  let fmt := dwFmt v
  if !s.inPart s.me.part (field v 0 16) || decide (reservedBase ≤ field v 16 17) then some (.access, dbl (dwDest v))
  else if reservedBase ≤ field v 36 13 * 16 then some (.access, dbl (dwRecord v))
  else if (mode = .fp ∧ fmt = 4) ∨ (mode = .int ∧ fmt < 4) then some (.access, dbl (dwDest v))
  else if 4 < fmt ∨ limit < dwRows v ∨ field v 49 4 ≠ 0 ∨ field v 33 3 ≠ 0 ∨ field v 16 17 % 64 ≠ 0 ∨
      reservedBase < field v 16 17 + dwExtent v r then some (.bounds, 0)
  else none

/-- The ranges of a drain. -/
def drainRange (v : Word) (r : Nat) : List RangeReq :=
  if r = 0 then [] else [spanReq true (dwDest v, dwDest v + dwExtent v r)]

/-! ### The issue of a member (R144, R148, R287) -/

/-- What a member has passed its own checks with: its record, the drain words, the bytes that are its own and register at
its issue (the record's and those that it names), the bytes that the issue itself reads and is done with, and the ranges that
the members share (R148; log entry 13). -/
structure Plan where
  record : Option OpRec
  words : List Word
  own : List (Nat × Nat)
  reads : List (Nat × Nat)
  shared : List RangeReq

/-- Whether an owner is a member of the operation that a tile is joining. -/
def State.sameJoin (s : State) (tile : Nat) (o : RangeOwner) : Bool :=
  match o with
  | .member w => (s.tile tile).joining.any (fun m => decide (m.who = w))
  | _ => false

/-- A member joins: its ranges are registered and its slot parks (R144). -/
def State.joinMember (s : State) (m : Member) (qs : List RangeReq) : State :=
  let tile := tileOf m.who.core
  let x := s.slot m.who
  let s := s.register (.member m.who) x.part x.pid qs
  let s := s.setTile tile { s.tile tile with joining := (s.tile tile).joining ++ [m] }
  s.setPark m.who .member

/-- Steps 1 to 6 of R287 for a gang instruction.  The record's own bytes register with the operands; those of a group table
are checked like them, and are done with when the issue has read them (R148, R319; log entry 13). -/
def State.gangIssue (s : State) (i : Instr) (fn : GangFn) (ra rb : Word) (imm : Nat)
    (check : State → Proj → Except (Cause × Word) Plan) : State :=
  s.smallOnly i (fun s =>
    let tile := tileOf s.cur.core
    let s := s.settleLeaves tile
    if (s.tile tile).mslot (s.cur.core % 16) ≠ s.cur.slot then s.raise .illegal (wordOf i)
    else s.pendingError (fun s => s.waitBoth (fun s =>
      match check s (s.tile tile).proj with
      | .error (c, v) => s.raise c v
      | .ok p =>
        let qs := p.own.map (spanReq false)
        let all := p.reads.map (spanReq false) ++ qs ++ p.shared
        let m : Member := { who := s.cur, thread := s.me.thread, fn := fn, word := wordOf i, ra := ra, rb := rb, imm := imm, record := p.record,
                            words := p.words, sat := fpSat s.me.csr.fpctl }
        let qs := if s.cur.core % 16 = 0 then qs ++ p.shared else qs
        s.issueRanges (s.sameJoin tile) all qs (.member m) (fun s => s) (fun s => s.joinMember m qs))))

/-! ### The instructions -/

/-- No checks of its own. -/
def noChecks (_ : State) (_ : Proj) : Except (Cause × Word) Plan := .ok { record := none, words := [], own := [], reads := [], shared := [] }

/-- A record that passed, as a plan. -/
def recordPlan (ra : Word) (x : Except (Cause × Word) OpRec) : Except (Cause × Word) Plan :=
  match x with
  | .ok r => .ok { record := some r, words := [], own := (ra.toNat, ra.toNat + 32) :: r.extents, reads := [], shared := [] }
  | .error e => .error e

/-- MLDW (R292). -/
def execMldw (a : BitVec 5) (s : State) : Out :=
  .next (s.gangIssue (.mldw a) .mldw (s.g a) 0 0 (fun s _ =>
    recordPlan (s.g a) (s.checkRecord (s.g a) (fun w => decide (2 ≤ w) && decide (w ≠ 5)) (fun _ => ⟨32, 0, 2⟩))))

/-- MTLD (R292). -/
def execMtld (a : BitVec 5) (s : State) : Out :=
  .next (s.gangIssue (.mtld a) .mtld (s.g a) 0 0 (fun s _ =>
    recordPlan (s.g a) (s.checkRecord (s.g a) (fun w => decide (2 ≤ w)) (fun r => ⟨2, 0, if r.window = 5 then 64 else 32⟩))))

/-- MSWAP (R293). -/
def execMswap (s : State) : Out := .next (s.gangIssue .mswap .mswap 0 0 0 noChecks)

/-- MZERO (R293). -/
def execMzero (s : State) : Out := .next (s.gangIssue .mzero .mzero 0 0 0 noChecks)

/-- Whether a stream of a window may run (R147, R148, R150, R294). -/
def streamAllowed (p : Proj) (w : Nat) : Bool :=
  let m := pairMode p.live w
  decide (2 ≤ w) && decide (m ≠ .unset) && (decide (p.mode = .unset) || decide (p.mode = m))

/-- The record of a stream (R147, R294). -/
def State.streamRecord (s : State) (ra : Word) (p : Proj) : Except (Cause × Word) OpRec :=
  s.checkRecord ra (streamAllowed p) (fun _ => ⟨2, 1, if p.live = 5 then 64 else 32⟩)

/-- MSTRM (R294). -/
def execMstrm (a : BitVec 5) (s : State) : Out :=
  .next (s.gangIssue (.mstrm a) .mstrm (s.g a) 0 0 (fun s p => recordPlan (s.g a) (s.streamRecord (s.g a) p)))

/-- The checks of MGRP on its group table (R154, R295). -/
def State.groupPlan (s : State) (ra : Word) (r : OpRec) (rb : Word) (g : Nat) (mode : AccMode) : Except (Cause × Word) Plan :=
  let a := rb.toNat
  if g = 0 ∨ 16 < g ∨ a % 8 ≠ 0 ∨ !(s.userArea s.me.part a (8 * g) && decide (tileOf (homeOf a) = tileOf s.cur.core)) then .error (.bounds, 0)
  else
    let ws := (List.range g).map (fun q => dbl (s.nat (rawKey a + 8 * q) 8))
    match ws.findSome? (fun v => s.drainCause v mode (dwRows v) 32) with
    | some e => .error e
    | none => .ok { record := some r, words := ws, own := (ra.toNat, ra.toNat + 32) :: r.extents, reads := [(a, a + 8 * g)], shared := ws.flatMap (fun v => drainRange v (dwRows v)) }

/-- MGRP (R154, R295). -/
def execMgrp (a b : BitVec 5) (g : BitVec 8) (s : State) : Out :=
  .next (s.gangIssue (.mgrp a b g) .mgrp (s.g a) (s.g b) g.toNat (fun s p =>
    match s.streamRecord (s.g a) p with
    | .error e => .error e
    | .ok r => s.groupPlan (s.g a) r (s.g b) g.toNat (pairMode p.live r.window)))

/-- MDRAIN (R152, R296). -/
def execMdrain (b : BitVec 5) (s : State) : Out :=
  .next (s.gangIssue (.mdrain b) .mdrain 0 (s.g b) 0 (fun s p =>
    match s.drainCause (s.g b) p.mode 32 0 with
    | some e => .error e
    | none => .ok { record := none, words := [s.g b], own := [], reads := [], shared := drainRange (s.g b) 32 }))

/-- MCOVI (R160, R301). -/
def execMcovi (b : BitVec 5) (s : State) : Out :=
  .next (s.gangIssue (.mcovi b) .mcovi 0 (s.g b) 0 (fun s _ =>
    let v := s.g b
    if field v 29 2 ≠ 0 ∨ field v 12 4 ≠ 0 ∨ field v 16 13 = 0 ∨ 4096 < field v 0 12 + field v 16 13 then .error (.bounds, 0)
    else noChecks s { live := 0, shadow := 0, mode := .unset, covFp := false }))

/-- Whether a DIRECT record's window fits the store type (R161). -/
def directAllowed (fp : Bool) (w : Nat) : Bool := if fp then [0, 2, 3, 4].contains w else [0, 6, 7].contains w

/-- The record of MCOVP and MCOVC (R148, R161). -/
def State.coverRecord (s : State) (ra v : Word) (p : Proj) : Except (Cause × Word) OpRec :=
  let product := bit v 6
  s.checkRecord ra
    (fun w => if product then decide (2 ≤ w) && decide (pairMode p.live w ≠ .unset) else directAllowed p.covFp w)
    (fun _ => ⟨32, if product then 1 else 32, 32⟩)

/-- Whether an rb bit outside the fields of R161 is set, or the commit column is none of its values. -/
def coverBad (v : Word) : Bool :=
  decide (field v 8 8 ≠ 0) || decide (field v 28 4 ≠ 0) || decide (field v 36 4 ≠ 0) || decide (field v 44 20 ≠ 0) ||
  (decide (32 ≤ field v 0 6) && decide (field v 0 6 ≠ 63))

/-- The first tile of a span, within the group, and the number of tiles less one (R161). -/
def coverSpan (v : Word) : Nat × Nat := (field v 40 4, field v 32 4)

/-- MCOVP (R161, R302). -/
def execMcovp (a b : BitVec 5) (r : BitVec 8) (s : State) : Out :=
  .next (s.gangIssue (.mcovp a b r) .mcovp (s.g a) (s.g b) r.toNat (fun s p =>
    let v := s.g b
    let sp := coverSpan v
    let me := tileOf s.cur.core % 16
    match s.coverRecord (s.g a) v p with
    | .error e => .error e
    | .ok rec =>
      if 31 < r.toNat ∨ coverBad v ∨ 15 < sp.1 + sp.2 ∨ me < sp.1 ∨ sp.1 + sp.2 < me then .error (.bounds, 0)
      else if (bit v 6 ∧ !p.covFp) ∨ (p.mode ≠ .unset ∧ p.mode ≠ covMode p.covFp) then .error (.access, s.g a)
      else recordPlan (s.g a) (.ok rec)))

/-- MCOVC (R163, R303). -/
def execMcovc (a b : BitVec 5) (s : State) : Out :=
  .next (s.gangIssue (.mcovc a b) .mcovc (s.g a) (s.g b) 0 (fun s p =>
    let v := s.g b
    match s.coverRecord (s.g a) v p with
    | .error e => .error e
    | .ok rec => if coverBad v ∨ coverSpan v ≠ (0, 0) ∨ bit v 7 ∨ bit v 6 then .error (.bounds, 0) else recordPlan (s.g a) (.ok rec)))

/-- MCOVR (R163, R304). -/
def execMcovr (a b : BitVec 5) (s : State) : Out :=
  .next (s.gangIssue (.mcovr a b) .mcovr (s.g a) (s.g b) 0 (fun s _ =>
    let v := s.g b
    let d := s.g a
    let n := field v 16 13
    if field v 29 35 ≠ 0 ∨ field v 12 4 ≠ 0 ∨ n = 0 ∨ 4096 < field v 0 12 + n ∨ d.toNat % 4 ≠ 0 ∨
        (d.toNat < 2 ^ 39 ∧ offOf d.toNat < reservedBase ∧ reservedBase < offOf d.toNat + 4 * n) then .error (.bounds, 0)
    else if !s.userArea s.me.part d.toNat (4 * n) then .error (.access, d)
    else .ok { record := none, words := [], own := [], reads := [], shared := [spanReq true (d.toNat, d.toNat + 4 * n)] }))

/-- MSTAT (R297). -/
def State.arrayStatus (s : State) : Word :=
  let tile := tileOf s.cur.core
  let t := s.tile tile
  let m := t.mslot (s.cur.core % 16)
  let run := t.queue.filter (fun o => o.started)
  dbl (t.waiting + (match t.amode with | .unset => 0 | .fp => 1 | .int => 2) * 2 ^ 8 + t.live.win * 2 ^ 10 + t.shadow.win * 2 ^ 13 +
    (if run.any (fun o => !o.fn.isLoad) then 2 ^ 17 else 0) + (if run.any (fun o => o.fn.isLoad) then 2 ^ 18 else 0) +
    (if t.certs.isEmpty then 0 else 2 ^ 19) + (s.inGang tile).length * 2 ^ 20 +
    (if m = 8 then 0 else 2 ^ 25 + m * 2 ^ 26) + min t.gops 65535 * 2 ^ 32)
/-- MSTAT (R297). -/
def execMstat (s : State) : Out :=
  .next (s.smallOnly .mstat (fun s => s.pendingError (fun s => s.waitBoth (fun s => s.result 4 s.arrayStatus))))

/-! ### The join (R144, R154, R161) -/

/-- Whether the members agree (R144, R288, R304). -/
def membersAgree (ms : List Member) : Bool :=
  match ms with
  | [] => true
  | m :: r => r.all (fun n => decide (n.fn = m.fn ∧ n.rb = m.rb ∧ n.imm = m.imm) &&
      decide (n.record.map (fun x => x.window) = m.record.map (fun x => x.window)) &&
      (decide (m.fn ≠ .mcovr) || decide (n.ra = m.ra)))

/-- The record rows of all members. -/
def rowsOf (ms : List Member) : Nat := (ms.map (fun m => (m.record.map (fun r => r.rows)).getD 0)).foldl (fun a b => a + b) 0

/-- The tests that depend on more than one member's record (R154, R161). -/
def joinBad (ms : List Member) : Bool :=
  match ms with
  | [] => false
  | m :: _ =>
    match m.fn with
    | .mgrp => decide (rowsOf ms < (m.words.map dwRows).foldl (fun a b => a + b) 0)
    | .mcovp => decide (4096 < field m.rb 16 12 + rowsOf ms)
    | .mcovc => decide (4096 < field m.rb 16 12 + rowsOf ms)
    | _ => false

/-- The members in the order of their cores. -/
def sortMembers (ms : List Member) : List Member :=
  (List.range 16).filterMap (fun c => ms.find? (fun m => m.who.core % 16 == c))

/-- A join that fails: every member takes the cause and the operation's ranges are removed (R144). -/
def State.joinFails (s : State) (tile : Nat) (c : Cause) : State :=
  let now := s.joinedNow tile
  let all := (s.tile tile).joining.map (fun m => m.who)
  let s := s.unregister (fun o => match o with | .member w => all.contains w | _ => false)
  let s := s.setTile tile { s.tile tile with joining := [] }
  s.trapAll c (now.map (fun m => (m.who, if c = .illegal then m.word else m.ra)))

/-- The operation enters the queue; members go on, but those of MCOVP and MCOVR park until it ends (R144, R290). -/
def State.enqueueOp (s : State) (tile : Nat) : State :=
  let t := s.tile tile
  let ms := sortMembers t.joining
  match ms with
  | [] => s
  | m :: _ =>
    let n := t.opNum
    let now := s.joinedNow tile
    let all := ms.map (fun m => m.who)
    let s := s.reown (fun o => match o with
      | .member w => if all.contains w then .op tile n else o
      | _ => o)
    let op : GangOp := { num := n, seq := t.gops + 1, fn := m.fn, ra := m.ra, rb := m.rb, imm := m.imm, members := ms,
                         launch := (s.slot m.who).launch, started := false, probed := false }
    let s := s.setTile tile { t with joining := [], queue := t.queue ++ [op], gops := t.gops + 1, opNum := n + 1 }
    now.foldl (fun s m =>
      if m.fn = .mcovp ∨ m.fn = .mcovr then s.setPark m.who (.arrayDone n) else s.setSlot m.who (s.slot m.who).next) s

/-- GANG_JOIN (R144). -/
def execGangJoin (tile : Nat) (s : State) : Out :=
  let s' := s.settleLeaves tile
  let t := s'.tile tile
  .next (if !s.tileRuns tile || decide (t.joining.length ≠ 16) || decide (4 ≤ t.waiting) then s
    else if !membersAgree t.joining then s'.joinFails tile .illegal
    else if joinBad t.joining then s'.joinFails tile .bounds
    else s'.enqueueOp tile)

/-! ### Room in the range tables (R65) -/

/-- An ACERT past its checks is queued at the check stage and its slot parks (R156). -/
def State.queueCert (s : State) (c : Cert) (qs : List RangeReq) : State :=
  let x := s.slot c.who
  let tile := tileOf c.who.core
  let s := s.register (.certify tile c.who c.thread) x.part x.pid qs
  let s := s.setTile tile { s.tile tile with certs := (s.tile tile).certs ++ [c] }
  s.setPark c.who .certify

/-- RANGE_TABLE_ROOM (R65): the ranges of a parked issue fit, and no slot that began to wait earlier needs the same
tables; they are checked again and registered, and the issue goes on. -/
def execRangeTableRoom (core slot : Nat) (s : State) : Out :=
  let w : Who := ⟨core, slot⟩
  let x := s.slot w
  .next (match x.park with
    | .room i checks qs t =>
      if !s.coreRuns core || s.roomBehind x.part x.pid qs t || !s.rangesFit x.part x.pid qs then s
      else
        let own := match i with | .member _ => s.sameJoin (tileOf core) | _ => fun _ => false
        match s.lockedRange x.pid own checks, i with
        | some v, .job _ => (if (s.engine (tileOf core)).fresh then s.dropClaim (tileOf core) else s).trapAt w .rangeLocked v
        | some v, _ => s.trapAt w .rangeLocked v
        | none, .job j => s.commitJob j qs
        | none, .member m => s.joinMember m qs
        | none, .cert c => s.queueCert c qs
    | _ => s)

end Sys2Proof.Machine
end

