-- ==== Sys2Proof/Machine/Array.lean ====
section
/-! DEFINITION.  The tile array's operations: loads, swaps, streams, drains and grouped products (R80-R83, R97, R142,
R145, R149, R153, R154), and the rerun of a failed operation (R151). -/

namespace Sys2Proof.Machine

/-! ### Operands (R73, R80, R146, R147) -/

/-- Element (i, j) of a record, an OL4 weight with its scale exactly (R81); none for an element of an OL4 zero block. -/
def State.opElem (s : State) (r : OpRec) (i j : Nat) : Option FV :=
  let c := homeOf r.base
  let k := i * r.stride + j
  let n := r.first + k
  match r.window with
  | 2 => some (f32.value (s.elemImage c 2 0 n).toNat)
  | 3 => some (f32.value (s.elemImage c 3 0 n).toNat)
  | 4 => some (f32.value (s.elemImage c 4 0 n).toNat)
  | 5 =>
    let sc := scaleOf (s.byte (rawKey (r.scale + k / 32))).toNat
    if sc = -128 then none
    else some (ol4Elem (s.byte (spadKey c (n / 2))).toNat (n % 2 == 1) sc)
  | 6 => some (intFV (s.elemImage c 6 0 n).toInt 0)
  | 7 => some (intFV (s.elemImage c 7 0 n).toNat 0)
  | _ => some (f32.value (s.nat (spadKey c (4 * n)) 4))

/-- The bitmap double of a record row; every element takes part where there is none. -/
def State.rowBits (s : State) (r : OpRec) (i : Nat) : Nat :=
  if r.bitmap = 0 then 2 ^ 64 - 1 else s.nat (rawKey r.bitmap + 8 * i) 8

/-- Record row i, none when it is skipped; a gated element is none. -/
def State.opRow (s : State) (r : OpRec) (i : Nat) : Option (List (Option FV)) :=
  let b := s.rowBits r i
  if b = 0 then none
  else some ((List.range r.cols).map (fun j => if nbit b j then s.opElem r i j else none))

/-- The bytes that the array reads for element (i, j) of a record: the element's, and an OL4 element's scale byte; of a zero
block the scale byte alone (R39, R77). -/
def State.elemReads (s : State) (r : OpRec) (i j : Nat) : List (Nat × Nat) :=
  let k := i * r.stride + j
  let n := r.first + k
  let c := homeOf r.base
  let sc := rawKey (r.scale + k / 32)
  if r.window = 5 then (if s.byte sc = 0x80 then [(sc, 1)] else [(spadKey c (n / 2), 1), (sc, 1)])
  else [(spadKey c (elemOff r.window n), elemOff r.window (n + 1) - elemOff r.window n)]

/-- Whether a byte that the array reads for row i of a record is poisoned: its bitmap double, and the elements that are
neither skipped nor gated (R80, R147, R151). -/
def State.rowPoison (s : State) (r : OpRec) (i : Nat) : Bool :=
  (decide (r.bitmap ≠ 0) && s.anyPoison (rawKey r.bitmap + 8 * i) 8) ||
  (List.range r.cols).any (fun j => nbit (s.rowBits r i) j && (s.elemReads r i j).any (fun p => s.anyPoison p.1 p.2))

/-! ### The rows of an operation (R149, R154, R161, R164) -/

/-- The rows that the members' records supply, in the order of their cores: the core of the tile, the record, and the
row. -/
def GangOp.opRows (o : GangOp) : List (Nat × OpRec × Nat) :=
  o.members.flatMap (fun mb => match mb.record with
    | some r => (List.range r.rows).map (fun i => (mb.who.core % 16, r, i))
    | none => [])

/-- The drain words of a grouped product, one for each group (R154). -/
def GangOp.groups (o : GangOp) : List Word := (o.members.head?.map (fun m => m.words)).getD []

/-- How many rows an operation passes: those of its records, those that the groups of a grouped product name, or the rows of
accumulators that a drain writes (R149, R153, R154, R161). -/
def GangOp.rowCount (o : GangOp) : Nat :=
  match o.fn with
  | .mdrain => 32
  | .mgrp => (o.groups.map dwRows).sum
  | _ => o.opRows.length

/-- The operand rows that an operation has still to read. -/
def GangOp.rowsLeft (o : GangOp) : List (Nat × OpRec × Nat) := (o.opRows.drop o.row).take (o.rowCount - o.row)

/-- Whether a byte that an operation has still to read is poisoned (R151). -/
def State.opPoison (s : State) (o : GangOp) : Bool :=
  decide (s.poison ≠ []) && o.rowsLeft.any (fun q => s.rowPoison q.2.1 q.2.2)

/-! ### The queue (R145) -/

/-- The running operation of these functions. -/
def Tile.running (t : Tile) (f : GangFn → Bool) : Option GangOp :=
  t.queue.find? (fun o => o.started && !o.probed && f o.fn)

/-- The operation that may start (R145): the first that waits, once nothing runs that it must wait for.  A load runs
beside one operation on the live plane, and MSWAP waits for everything before it. -/
def Tile.startable (t : Tile) (f : GangFn → Bool) : Option GangOp :=
  let run := t.queue.filter (fun p => p.started)
  match t.queue.find? (fun p => !p.started) with
  | some o =>
    let free :=
      if o.fn.isLoad then run.all (fun p => !p.fn.isLoad && decide (p.fn ≠ .mswap))
      else if o.fn = .mswap then run.isEmpty
      else run.all (fun p => p.fn.isLoad)
    if free && f o.fn then some o else none
  | none => none

/-- An operation of the queue is changed. -/
def State.updOp (s : State) (tile : Nat) (o : GangOp) (f : GangOp → GangOp) : State :=
  let t := s.tile tile
  s.setTile tile { t with queue := t.queue.map (fun p => if p.num = o.num then f p else p) }

/-- The snapshot that an operation takes at its start (R151). -/
def Tile.snapshot (t : Tile) : Snap := { accs := t.accs, amode := t.amode, shadow := t.shadow, covFp := t.covFp, cover := t.cover }

/-- The snapshot restored in what an operation writes: the accumulators, the shadow plane or the coverage store (R151). -/
def Tile.restored (t : Tile) (o : GangOp) : Tile :=
  match o.snap with
  | none => t
  | some p =>
    match o.fn with
    | .mldw => { t with shadow := p.shadow }
    | .mtld => { t with shadow := p.shadow }
    | .mzero => { t with accs := p.accs, amode := p.amode }
    | .mstrm => { t with accs := p.accs, amode := p.amode }
    | .mgrp => { t with accs := p.accs, amode := p.amode }
    | .mcovi => { t with covFp := p.covFp, cover := p.cover }
    | .mcovp => { t with accs := p.accs, amode := p.amode, cover := p.cover }
    | .mcovc => { t with cover := p.cover }
    | _ => t

/-- An operation of the array: the running one ends, where its operands read well; else the next one starts, with a
snapshot (R145, R151). -/
def State.onOp (s : State) (tile : Nat) (f : GangFn → Bool) (k : GangOp → State) : Out :=
  .next (if s.tileRuns tile then
      match (s.tile tile).running f with
      | some o => if s.opPoison o then s else k o
      | none =>
        match (s.tile tile).startable f with
        | some o => s.updOp tile o (fun p => { p with started := true, snap := some (s.tile tile).snapshot })
        | none => s
    else s)

/-- The members that still wait for an operation's end. -/
def State.opWaiters (s : State) (o : GangOp) : List Who :=
  (o.members.filter (fun m => decide ((s.slot m.who).park = .arrayDone o.num))).map (fun m => m.who)

/-- An operation leaves the queue and its ranges are removed. -/
def State.endOp (s : State) (tile : Nat) (o : GangOp) : State :=
  let t := s.tile tile
  (s.setTile tile { t with queue := t.queue.filter (fun p => p.num != o.num) }).unregister
    (fun r => decide (r = .op tile o.num))

/-- The slot in which the flags of a core's columns accrue: the one that issued the operation, while it is its core's matrix
slot and holds the thread that issued it (R71, R153, R289). -/
def State.flagSlot (s : State) (tile : Nat) (o : GangOp) (c : Nat) : Option Who :=
  match o.members.find? (fun m => decide (m.who.core % 16 = c)) with
  | some m =>
    let x := s.slot m.who
    if x.occ ∧ x.thread = m.thread ∧ (s.tile tile).mslot c = m.who.slot then some m.who else none
  | none => none

/-- Flags accrued in the slots that issued an operation, by the core that owns the columns (R71, R153, R161). -/
def State.accrueCols (s : State) (tile : Nat) (o : GangOp) (fl : SMap Flags) : State :=
  fl.foldl (fun s p => match s.flagSlot tile o p.1 with
    | some w => s.setSlot w ((s.slot w).accrue p.2)
    | none => s) s

/-- Flags noted for the core that owns a column. -/
def noteFlags (m : SMap Flags) (col : Nat) (f : Flags) : SMap Flags :=
  if f = 0 then m else mapPut m (col / 2) (mapGet m 0 (col / 2) ||| f)

/-! ### Loading, swapping and clearing (R149, R292, R293) -/

/-- The cells that row i of a member's record loads: the cell's number by 32 k + n, with its value. -/
def State.loadCells (s : State) (fn : GangFn) (c : Nat) (r : OpRec) (i : Nat) : List (Nat × Option FV) :=
  let row := (s.opRow r i).getD (List.replicate r.cols none)
  (row.zipIdx).map (fun p => (if fn = .mtld then 32 * p.2 + 2 * c + i else 32 * i + 2 * c + p.2, p.1))

/-- The shadow plane as a load begins: the records' keys and tags, and no cell (R147, R149, R292). -/
def GangOp.newPlane (o : GangOp) : Plane :=
  o.members.foldl (fun p m =>
    let c := m.who.core % 16
    match m.record with
    | some r =>
      { p with keys := mapPut (mapPut p.keys (2 * c) r.key0) (2 * c + 1) r.key1
               sigs := mapPut (mapPut p.sigs (2 * c) r.asig) (2 * c + 1) r.asig }
    | none => p) { win := o.window, cells := [], keys := [], sigs := [] }

/-- A row of a record loaded into a plane (R292). -/
def State.loadRow (s : State) (fn : GangFn) (p : Plane) (q : Nat × OpRec × Nat) : Plane :=
  { p with cells := (s.loadCells fn q.1 q.2.1 q.2.2).foldl (fun l x => mapPut l x.1 x.2) p.cells }

/-! ### Streams (R81-R83, R97, R149) -/

/-- +0. -/
def zeroFV : FV := .fin false 0 0

/-- A zero as +0 (R82). -/
def plusZero (v : FV) : FV := match v with | .fin _ m _ => if m = 0 then zeroFV else v | v => v

/-- The larger of two exponents. -/
def maxE (a b : Option Int) : Option Int :=
  match a, b with
  | some x, some y => some (max x y)
  | some x, none => some x
  | none, y => y

/-- One K-block of a row against a column of a plane, exact, with the largest E of its products (R81, R97).  DESIGN
CHOICE (log entry 33): a product of ±0 is left out of the largest E. -/
def Plane.kblock (p : Plane) (row : List (Option FV)) (n : Nat) : FV × Option Int :=
  let r := (row.zipIdx).foldl (fun (acc : FV × Option Int) q =>
    match q.1, mapGet p.cells (some zeroFV) (32 * q.2 + n) with
    | some a, some w =>
      let x := mulFV a w
      (addFV .rne acc.1 x, maxE acc.2 (leadFV x))
    | _, _ => acc) (zeroFV, none)
  (plusZero r.1, r.2)

/-- A value of integers only. -/
def fvInt (v : FV) : Int :=
  match v with
  | .fin n m e => (if n then -1 else 1) * ((m * 2 ^ e.toNat : Nat) : Int)
  | _ => 0

/-- Saturation at -2^47 and 2^47 - 1 (R83). -/
def sat48 (x : Int) : Int := clampInt (-(2 ^ 47)) (2 ^ 47 - 1) x

/-- Whether a value is a NaN. -/
def FV.isNaN (v : FV) : Bool := match v with | .nan => true | _ => false

/-- The invalid flag of an operation that makes a NaN of two operands that are none (R71, R82). -/
def newNaN (a b r : FV) : Flags := if r.isNaN && !a.isNaN && !b.isNaN then Flags.nv else 0

/-- The flags of a K-block: the invalid of ∞ · 0 and of a sum of opposite infinities (R71, R82). -/
def Plane.kblockFlags (p : Plane) (row : List (Option FV)) (n : Nat) : Flags :=
  ((row.zipIdx).foldl (fun (acc : FV × Flags) q =>
    match q.1, mapGet p.cells (some zeroFV) (32 * q.2 + n) with
    | some a, some w =>
      let x := mulFV a w
      let y := addFV .rne acc.1 x
      (y, acc.2 ||| newNaN a w x ||| newNaN acc.1 x y)
    | _, _ => acc) (zeroFV, 0)).2

/-- A sum added to an accumulated value: RoundACC, or the saturating integer; with the flags of the rounding and of a sum of
opposite infinities (R71, R82, R83). -/
def accSum (mode : AccMode) (a b : FV) : FV × Flags :=
  match mode with
  | .int => (intFV (sat48 (fvInt a + fvInt b)) 0, 0)
  | _ =>
    match a with
    | .nan => (.nan, 0)
    | _ =>
      let x := addFV .rne a b
      let r := roundFV accFmt .rne x
      (plusZero (accFmt.value r.1), r.2 ||| newNaN a b x)

/-- The full count of a window's elements, 63 for integers and raw words (R88). -/
def winFull (w : Nat) : Nat := match w with | 2 => 8 | 3 => 4 | 4 => 3 | 5 => 3 | _ => 63

/-- The smaller tag of a pair of records, an EXACT tag counting as the other's (R97). -/
def pairSig (a b : Tag) : Tag := if a = 63 then b else if b = 63 then a else if a.toNat ≤ b.toNat then a else b

/-- Accumulator (m, n) of a tile. -/
def Tile.acc (t : Tile) (m n : Nat) : Accum := mapGet t.accs .reset (32 * m + n)
/-- Accumulator (m, n) replaced. -/
def Tile.setAcc (t : Tile) (m n : Nat) (a : Accum) : Tile := { t with accs := mapPut t.accs (32 * m + n) a }

/-- One accumulator after a streamed row: K grows by cols, and a row that is not skipped adds its K-block; with the flags of
the K-block and of the rounding, which accrue as a drain's do (R71, R81, R97, R149). -/
def Tile.accStep (t : Tile) (mode : AccMode) (r : OpRec) (row : Option (List (Option FV))) (m n : Nat) : Tile × Flags :=
  let a := t.acc m n
  let a := { a with k := a.k + r.cols }
  match row with
  | none => (t.setAcc m n a, 0)
  | some xs =>
    let b := t.live.kblock xs n
    let v := accSum mode a.val b.1
    let sb := readTag (winFull t.live.win) (mapGet t.live.sigs Tag.exact n)
    let sg := pairSig (readTag (winFull r.window) r.asig) sb
    (t.setAcc m n { a with val := v.1, m := maxE a.m b.2, sig := pairSig a.sig sg, rounded := a.rounded || (v.2 &&& Flags.nx) != 0 },
      match mode with | .int => 0 | _ => t.live.kblockFlags xs n ||| v.2)

/-- The row of accumulators that a row of a stream's records feeds (R147). -/
def rowOf (q : Nat × OpRec × Nat) : Nat := 2 * q.1 + q.2.2

/-- One row streamed past the live plane, with the flags by core of the columns (R149). -/
def State.streamRow (s : State) (t : Tile) (mode : AccMode) (q : Nat × OpRec × Nat) (fl : SMap Flags) : Tile × SMap Flags :=
  let row := s.opRow q.2.1 q.2.2
  (List.range 32).foldl (fun (z : Tile × SMap Flags) n =>
    let a := z.1.accStep mode q.2.1 row (rowOf q) n
    (a.1, noteFlags z.2 n a.2)) (t, fl)

/-- The accumulator mode under which a stream runs: the first stream after MZERO sets it (R149). -/
def Tile.streamMode (t : Tile) (o : GangOp) : AccMode := if t.amode = .unset then pairMode t.live.win o.window else t.amode

/-! ### Drains (R97, R152, R153, R296) -/

/-- The clamp of R97's tag (R89). -/
def drainTag (a : Accum) (out : Nat) (fl : Flags) : Tag :=
  match a.val with
  | .fin _ _ _ =>
    if !f32.isFinite out then 0
    else if a.sig = 63 then (if a.rounded || (fl &&& Flags.nx) != 0 then 24 else Tag.exact)
    else if f32.isZero out then 0
    else match a.m with
      | none => 0
      | some m => f32.clampTag out (f32.lead out - (m + 2 - a.sig.toNat) - clog2 a.k + 1)
  | _ => 0

/-- An accumulator drained in a format: its bits, its tag and its flags. -/
def Accum.drain (a : Accum) (mode : AccMode) (fmt : Nat) (sat : Bool) : Nat × Tag × Flags :=
  if mode = .unset ∨ a.k = 0 then (0, if fmt = 0 then Tag.exact else Tag.none, 0)
  else
    let neg := match a.val with | .fin n _ _ => n | .inf n => n | .nan => false
    match fmt with
    | 0 => let r := roundFV f32 .rne a.val; (r.1, drainTag a r.1 r.2, r.2)
    | 1 => let r := toBf16 .rne a.val neg false; (r.1, Tag.none, r.2)
    | 2 => let r := toE4m3 .rne a.val neg false; (r.1, Tag.none, r.2)
    | 3 => let r := toE5m2 .rne sat a.val neg false; (r.1, Tag.none, r.2)
    | _ => (toBits 32 (clampInt (-(2 ^ 31)) (2 ^ 31 - 1) (fvInt a.val)), Tag.none, 0)

/-- csr.fpctl.sat of the matrix slot of a core, as it stood when the slot issued the operation (R153, R320; log entry
33). -/
def GangOp.colSat (o : GangOp) (c : Nat) : Bool := o.members.any (fun m => decide (m.who.core % 16 = c) && m.sat)

/-- Bytes of scratchpad written by the array, whole words losing their poison marks. -/
def State.arrayPut (s : State) (part launch : Nat) (pid : BitVec 16) (addr : Nat) (bs : List Byte) : State :=
  s.unitPut part launch 0 pid (homeOf addr) (offOf addr) bs (bs.map (fun _ => false))

/-- Whether a drained element of a format is ±0. -/
def drainedZero (fmt size out : Nat) : Bool := if fmt = 4 then decide (out = 0) else decide (out % 2 ^ (8 * size - 1) = 0)
/-- A zero mask: bit n is set when element n is other than ±0 (R153). -/
def zeroMask (fmt size : Nat) (es : List (Nat × Tag × Flags)) : Nat :=
  ((es.zipIdx).filter (fun p => !drainedZero fmt size p.1.1)).foldl (fun n p => n + 2 ^ p.2) 0

/-- The side tags of FP32 words, which a live descriptor's do not take (R97, R106). -/
def State.drainTags (s : State) (addr : Nat) (ts : List Tag) : State :=
  (ts.zipIdx).foldl (fun s p =>
    if s.liveTouch (homeOf addr) (offOf addr + 4 * p.2) 4 then s else s.setSideTag (rawKey addr + 4 * p.2) p.1) s

/-- A row of accumulators in a drain's format (R153). -/
def Tile.drainedRow (t : Tile) (o : GangOp) (fmt m : Nat) : List (Nat × Tag × Flags) :=
  (List.range 32).map (fun n => (t.acc m n).drain t.amode fmt (o.colSat (n / 2)))

/-- Row j of a drain of r rows written: its elements with their tags, and its zero mask (R97, R153, R154). -/
def State.putRow (s : State) (tile : Nat) (o : GangOp) (v : Word) (r j : Nat) (es : List (Nat × Tag × Flags)) : State :=
  let size := dwSize v
  let fmt := dwFmt v
  let pid := ((s.launch? o.launch).map (fun l => l.pid)).getD 0
  let part := (s.partOf (16 * tile)).getD 0
  let d := dwDest v + 32 * j * size
  let s := s.arrayPut part o.launch pid d (es.flatMap (fun e => leBytes size e.1))
  let s := if fmt = 0 then s.drainTags d (es.map (fun e => e.2.1)) else s
  if dwMask v then s.arrayPut part o.launch pid (dwDest v + 32 * r * size + 4 * j) (leBytes 4 (zeroMask fmt size es)) else s

/-- Row m of the accumulators drained as row j of r rows, with the flags by core of the columns (R153, R154). -/
def State.drainRow (s : State) (tile : Nat) (o : GangOp) (v : Word) (r j m : Nat) (fl : SMap Flags) : State × SMap Flags :=
  let es := (s.tile tile).drainedRow o (dwFmt v) m
  (s.putRow tile o v r j es, (es.zipIdx).foldl (fun f p => noteFlags f p.2 p.1.2.2) fl)

/-- The wake-up of a drain word (R153, R154). -/
def State.drainWake (s : State) (tile launch : Nat) (v : Word) (d : Nat) : State :=
  if dwWake v then s.send ⟨16 * tile, 8⟩ 0 (.decrement (dwRecord v) d launch false) else s

/-! ### Grouped products (R154, R295) -/

/-- A row of accumulators cleared. -/
def Tile.clearRow (t : Tile) (m : Nat) : Tile :=
  { t with accs := t.accs.filter (fun p => decide (p.1 / 32 ≠ m)) }

/-- The group that row k of a grouped product belongs to, with the group's first row. -/
def groupAt : List Word → Nat → Nat → Option (Word × Nat)
  | [], _, _ => none
  | v :: ws, first, k => if k < first + dwRows v then some (v, first) else groupAt ws (first + dwRows v) k

/-- Row k of a grouped product: the first row of its group clears the group's rows of accumulators, each is streamed, and the
last one drains the group (R154, R295). -/
def State.groupRow (s : State) (tile : Nat) (o : GangOp) (k : Nat) (fl : SMap Flags) : State × SMap Flags :=
  match groupAt o.groups 0 k, o.opRows[k]? with
  | some (v, first), some q =>
    let t := s.tile tile
    let g := (o.opRows.drop first).take (dwRows v)
    let t := if k = first then { g.foldl (fun t q => t.clearRow (rowOf q)) t with amode := pairMode t.live.win o.window } else t
    let z := s.streamRow t t.amode q fl
    let s := s.setTile tile z.1
    if k + 1 < first + dwRows v then (s, z.2)
    else (g.zipIdx).foldl (fun (z : State × SMap Flags) p => z.1.drainRow tile o v (dwRows v) p.2 (rowOf p.1) z.2) (s, z.2)
  | _, _ => (s, fl)

/-! ### Uncorrectable errors (R151) -/

/-- The csr.mtxerr value that names an operation.  DESIGN CHOICE (log entry 33): every error of MCOVP and MCOVC, one of its
operand stream among them, is reported as one of the coverage store. -/
def GangOp.errWord (o : GangOp) : Word :=
  let i := match o.fn with
    | .mldw => (0x2D, 1, 1) | .mtld => (0x2D, 2, 1) | .mswap => (0x2D, 3, 0) | .mzero => (0x2D, 4, 0) | .mstrm => (0x2D, 5, 0)
    | .mgrp => (0x2D, 6, 0) | .mdrain => (0x2D, 7, 3) | .mcovi => (0x2F, 0, 2) | .mcovp => (0x2F, 1, 2) | .mcovc => (0x2F, 2, 2)
    | .mcovr => (0x2F, 3, 2)
  dbl (i.2.2 + i.2.1 * 2 ^ 18 + i.1 * 2 ^ 26 + o.seq % 2 ^ 32 * 2 ^ 32)

/-- An operation that failed its rerun: its snapshot stands, it and those behind it are discarded with no effect, their
ranges are removed, and the error is counted and pending on each member; a member parked in one of them takes it there
(R151, R393). -/
def State.failOp (s : State) (tile : Nat) (o : GangOp) : State :=
  let t := s.tile tile
  let gone := t.queue.filter (fun p => decide (o.num ≤ p.num))
  let waiting := gone.flatMap s.opWaiters
  let parked := waiting.map (fun w => w.core % 16)
  let v := o.errWord
  let pend := o.members.foldl (fun l m => if parked.contains (m.who.core % 16) then l else mapPut l (m.who.core % 16) v) t.pendErr
  let t := gone.foldr (fun p t => t.restored p) t
  let s := (s.setTile tile { t with queue := t.queue.filter (fun p => decide (p.num < o.num)), pendErr := pend }).count 0x140 1
  let s := s.unregister (fun r => match r with | .op k n => k == tile && decide (o.num ≤ n) | _ => false)
  waiting.foldl (fun s w =>
    (s.setSlot w { s.slot w with csr := { (s.slot w).csr with mtxerr := v } }).trapAt w .mtxerr v) s

end Sys2Proof.Machine
end

