-- ==== Sys2Proof/Machine/VectorFp.lean ====
section
/-! DEFINITION.  Floating-point arithmetic, compares, fused forms and special functions: majors 0x26, 0x27 and
0x28 (R259, R260, R270-R274), with the tags of R91. -/

namespace Sys2Proof.Machine

/-- Elements of a two-operand form: op gives bits and flags, row the tag row of R91. -/
def State.fpElems2 (s : State) (f : BitVec 3) (a b : BitVec 4)
    (op : Fmt → Rm → Nat → Nat → Nat × Flags) (row : Fmt → Nat → Nat → Tag → Tag → Nat → Tag) : List Elem :=
  let x := s.me
  let F := fmtOf f
  (List.range (fmtLanes f)).map (fun k =>
    let u := x.elem f a k
    let v := x.elem f b k
    let su := x.elemSig f a k
    let sv := x.elemSig f b k
    let r := op F x.rm u v
    { val := r.1, fl := r.2, tag := F.tagOf (su == 63 && sv == 63) r.1 r.2 (row F u v su sv r.1),
      finite := F.isFinite r.1, ta := su, tb := sv, tc := 62 })

/-- Elements of a one-operand form. -/
def State.fpElems1 (s : State) (f : BitVec 3) (a : BitVec 4)
    (op : Fmt → Rm → Nat → Nat × Flags) (row : Fmt → Nat → Tag → Nat → Tag) : List Elem :=
  let x := s.me
  let F := fmtOf f
  (List.range (fmtLanes f)).map (fun k =>
    let u := x.elem f a k
    let su := x.elemSig f a k
    let r := op F x.rm u
    { val := r.1, fl := r.2, tag := F.tagOf (su == 63) r.1 r.2 (row F u su r.1),
      finite := F.isFinite r.1, ta := su, tb := 62, tc := 62 })

/-- Every written lane is checked against the floor; the results go to v[d] (R259, R101). -/
def State.fpFinish (s : State) (f : BitVec 3) (d : BitVec 4) (es : List Elem) : State :=
  s.finishFp f.toNat (fmtStep f) es es (fun x => x.setElems f d 0 es)

/-- The add row of R91. -/
def addRow (F : Fmt) (u v : Nat) (su sv : Tag) (r : Nat) : Tag :=
  F.clampTag r (addTag (F.lead r) (uncert (F.lead u) su) (uncert (F.lead v) sv))
/-- The multiply row of R91, for VFMUL and VFDIV. -/
def mulRow (F : Fmt) (_u _v : Nat) (su sv : Tag) (r : Nat) : Tag := F.clampTag r (mulTag su sv)
/-- The row of VFMIN and VFMAX: the tag of the operand delivered, or the smaller of two equal operands. -/
def minMaxRow (F : Fmt) (u v : Nat) (su sv : Tag) (r : Nat) : Tag :=
  if F.isNaN u then sv
  else if F.isNaN v then su
  else if cmpFV (F.value u) (F.value v) = 0 then (if su.toNat ≤ sv.toNat then su else sv)
  else if r = u then su else sv

/-- The results of a special function, from its sources as they stand at its issue (R259, R260, R270, R274). -/
def State.specialElems (s : State) : Instr → List Elem
  | .vfdiv _ a b f => s.fpElems2 f (vnum a) (vnum b) fpDiv mulRow
  | .vfsqrt _ a f => s.fpElems1 f (vnum a) fpSqrt (fun F _ t r => F.clampTag r ((t.toNat : Int) + 1))
  | .vexp2 _ a f => s.fpElems1 f (vnum a) (fun _ rm u => fpExp2 rm u)
      (fun F u t r => match uncert (F.lead u) t with | some w => F.clampTag r (-w - 1) | none => F.clampTag r 24)
  | .vlog2 _ a f => s.fpElems1 f (vnum a) (fun _ rm u => fpLog2 rm u)
      (fun F _ t r => F.clampTag r (F.lead r - (2 - (t.toNat : Int)) + 1))
  | .vrcp _ a f => s.fpElems1 f (vnum a) (fun _ rm u => fpRcp rm u) (fun F _ t r => F.clampTag r t.toNat)
  | .vrsq _ a f => s.fpElems1 f (vnum a) (fun _ rm u => fpRsq rm u) (fun F _ t r => F.clampTag r ((t.toNat : Int) + 1))
  | _ => []

/-- A special function parks its slot with its address and its results; SPECIAL_FUNCTION_RESULT completes it (R260). -/
def State.special (s : State) (i : Instr) : State := s.setMe { s.me with park := .special i s.me.pc (s.specialElems i) }

/-- VFADD (R270). -/
def execVfadd (d : BitVec 4) (a b : BitVec 5) (f : BitVec 3) (s : State) : Out :=
  .next (s.fpFinish f d (s.fpElems2 f (vnum a) (vnum b) fpAdd addRow))
/-- VFSUB (R270). -/
def execVfsub (d : BitVec 4) (a b : BitVec 5) (f : BitVec 3) (s : State) : Out :=
  .next (s.fpFinish f d (s.fpElems2 f (vnum a) (vnum b) fpSub addRow))
/-- VFMUL (R270). -/
def execVfmul (d : BitVec 4) (a b : BitVec 5) (f : BitVec 3) (s : State) : Out :=
  .next (s.fpFinish f d (s.fpElems2 f (vnum a) (vnum b) fpMul mulRow))
/-- VFDIV, a special function (R260, R270). -/
def execVfdiv (d : BitVec 4) (a b : BitVec 5) (f : BitVec 3) (s : State) : Out :=
  .next (s.special (.vfdiv d a b f))
/-- VFSQRT, a special function (R260, R270). -/
def execVfsqrt (d : BitVec 4) (a : BitVec 5) (f : BitVec 3) (s : State) : Out :=
  .next (s.special (.vfsqrt d a f))
/-- VFMIN (R72, R270). -/
def execVfmin (d : BitVec 4) (a b : BitVec 5) (f : BitVec 3) (s : State) : Out :=
  .next (s.fpFinish f d (s.fpElems2 f (vnum a) (vnum b) (fun F _ u v => fpMinMax F false u v) minMaxRow))
/-- VFMAX (R72, R270). -/
def execVfmax (d : BitVec 4) (a b : BitVec 5) (f : BitVec 3) (s : State) : Out :=
  .next (s.fpFinish f d (s.fpElems2 f (vnum a) (vnum b) (fun F _ u v => fpMinMax F true u v) minMaxRow))
/-- VFABS: the sign cleared, no flag (R270). -/
def execVfabs (d : BitVec 4) (a : BitVec 5) (f : BitVec 3) (s : State) : Out :=
  .next (s.fpFinish f d (s.fpElems1 f (vnum a) (fun F _ u => (if F.sign u then F.flip u else u, 0)) (fun _ _ t _ => t)))
/-- VFNEG: the sign inverted, no flag (R270). -/
def execVfneg (d : BitVec 4) (a : BitVec 5) (f : BitVec 3) (s : State) : Out :=
  .next (s.fpFinish f d (s.fpElems1 f (vnum a) (fun F _ u => (F.flip u, 0)) (fun _ _ t _ => t)))

/-- Predicates written from p[k] upward; a write to p0 is discarded (R271). -/
def Slot.setPs (x : Slot) : Nat → List Bool → Slot
  | _, [] => x
  | k, b :: r => (x.setP (BitVec.ofNat 4 k) b).setPs (k + 1) r

/-- A floating-point compare: predicates p[pd + k], NV as R72 states, FPEXC with no predicate written when it
is enabled (R271). -/
def State.fpCmp (s : State) (op : Nat) (p : BitVec 4) (a b : BitVec 5) (f : BitVec 3) : State :=
  let x := s.me
  let rs := (List.range (fmtLanes f)).map (fun k => fpCompare (fmtOf f) op (x.elem f (vnum a) k) (x.elem f (vnum b) k))
  let fl := rs.foldl (fun g r => g ||| r.2) (0 : Flags)
  let y := x.accrue fl
  if trapsOn x.csr.fpctl fl then (s.setMe y).raise .fpexc (dbl fl.toNat)
  else s.setMe ((y.setPs p.toNat (rs.map (fun r => r.1))).next)

/-- VFCMPEQ (R271). -/
def execVfcmpeq (p : BitVec 4) (a b : BitVec 5) (f : BitVec 3) (s : State) : Out := .next (s.fpCmp 0 p a b f)
/-- VFCMPLT (R271). -/
def execVfcmplt (p : BitVec 4) (a b : BitVec 5) (f : BitVec 3) (s : State) : Out := .next (s.fpCmp 1 p a b f)
/-- VFCMPLE (R271). -/
def execVfcmple (p : BitVec 4) (a b : BitVec 5) (f : BitVec 3) (s : State) : Out := .next (s.fpCmp 2 p a b f)

/-- VFCLASS: the class code of each element, EXACT; in a double the odd lane is 0 (R272). -/
def execVfclass (d : BitVec 4) (a : BitVec 5) (f : BitVec 3) (s : State) : Out :=
  let x := s.me
  .next (s.setMe (((List.range (fmtLanes f)).foldl (fun y k =>
    y.setElem f d k (fpClass (fmtOf f) (x.elem f (vnum a) k)) Tag.exact) x).next))

/-- The elements of a fused form (R273): negP negates the product, negC the addend. -/
def State.fmaElems (s : State) (negP negC : Bool) (a b c : BitVec 4) (f : BitVec 3) : List Elem :=
  let x := s.me
  let F := fmtOf f
  (List.range (fmtLanes f)).map (fun k =>
    let u := x.elem f a k
    let v := x.elem f b k
    let w := x.elem f c k
    let su := x.elemSig f a k
    let sv := x.elemSig f b k
    let sw := x.elemSig f c k
    let r := fpFma F x.rm negP negC u v w
    let ep := match leadFV (mulFV (F.value u) (F.value v)) with | some e => e | none => -(F.bias : Int) - F.mb
    let sp : Int := min (max (mulTag su sv) 0) F.full
    let up : Option Int := if su = 63 ∧ sv = 63 then none else some (ep - sp + 1)
    { val := r.1, fl := r.2,
      tag := F.tagOf (su == 63 && sv == 63 && sw == 63) r.1 r.2
        (F.clampTag r.1 (addTag (F.lead r.1) up (uncert (F.lead w) sw))),
      finite := F.isFinite r.1, ta := su, tb := sv, tc := sw })

/-- VFMA (R273). -/
def execVfma (d a b c : BitVec 5) (f : BitVec 3) (s : State) : Out :=
  .next (s.fpFinish f (vnum d) (s.fmaElems false false (vnum a) (vnum b) (vnum c) f))
/-- VFMS (R273). -/
def execVfms (d a b c : BitVec 5) (f : BitVec 3) (s : State) : Out :=
  .next (s.fpFinish f (vnum d) (s.fmaElems false true (vnum a) (vnum b) (vnum c) f))
/-- VFNMA (R273). -/
def execVfnma (d a b c : BitVec 5) (f : BitVec 3) (s : State) : Out :=
  .next (s.fpFinish f (vnum d) (s.fmaElems true false (vnum a) (vnum b) (vnum c) f))
/-- VFNMS (R273). -/
def execVfnms (d a b c : BitVec 5) (f : BitVec 3) (s : State) : Out :=
  .next (s.fpFinish f (vnum d) (s.fmaElems true true (vnum a) (vnum b) (vnum c) f))

/-- VEXP2 (R274). -/
def execVexp2 (d a : BitVec 5) (f : BitVec 3) (s : State) : Out := .next (s.special (.vexp2 d a f))
/-- VLOG2 (R274). -/
def execVlog2 (d a : BitVec 5) (f : BitVec 3) (s : State) : Out := .next (s.special (.vlog2 d a f))
/-- VRCP (R274). -/
def execVrcp (d a : BitVec 5) (f : BitVec 3) (s : State) : Out := .next (s.special (.vrcp d a f))
/-- VRSQ (R274). -/
def execVrsq (d a : BitVec 5) (f : BitVec 3) (s : State) : Out := .next (s.special (.vrsq d a f))

/-- The last three steps of a parked special function (R259, R260). -/
def State.specialDone (s : State) (es : List Elem) : Instr → State
  | .vfdiv d _ _ f => s.fpFinish f d es
  | .vfsqrt d _ f => s.fpFinish f d es
  | .vexp2 d _ f => s.fpFinish f (vnum d) es
  | .vlog2 d _ f => s.fpFinish f (vnum d) es
  | .vrcp d _ f => s.fpFinish f (vnum d) es
  | .vrsq d _ f => s.fpFinish f (vnum d) es
  | _ => s

/-- SPECIAL_FUNCTION_RESULT: a parked special function writes its results or takes its trap, with its own address as
the exception PC; one in progress at an Eventide completes after the resume (R260). -/
def execSpecialFunctionResult (core slot : Nat) (s : State) : Out :=
  match (s.slot ⟨core, slot⟩).park with
  | .special i pc es =>
    .next (if s.coreRuns core then
        let s := { s with cur := ⟨core, slot⟩ }
        (s.setMe { s.me with pc := pc }).specialDone es i
      else s)
  | _ => .next s

end Sys2Proof.Machine
end

