-- ==== Sys2Proof/Machine/VectorInt.lean ====
section
/-! DEFINITION.  Vector integer operations, the FP32 prefix sum, significance and permutes: majors 0x25, 0x29,
0x2A and 0x2B (R262, R267-R269, R275-R281). -/

namespace Sys2Proof.Machine

/-- The range of a format (R66, R267). -/
def intRange (f : BitVec 3) : Int × Int :=
  let w := intWidth f
  if intUnsigned f then (0, 2 ^ w - 1) else (-(2 ^ (w - 1)), 2 ^ (w - 1) - 1)
/-- An element read with the format's own signedness. -/
def intVal (f : BitVec 3) (n : Nat) : Int := if intUnsigned f then n else asInt (intWidth f) n
/-- A result narrowed to the format: clamped under .sat, wrapped otherwise (R66). -/
def intNarrow (f : BitVec 3) (sat : Bool) (x : Int) : Nat :=
  toBits (intWidth f) (if sat then clampInt (intRange f).1 (intRange f).2 x else x)

/-- An elementwise integer operation: every lane of v[d] is written EXACT (R262, R267). -/
def State.intOp2 (s : State) (f : BitVec 3) (d a b : BitVec 5) (op : Nat → Nat → Nat) : State :=
  let x := s.me
  let w := intWidth f
  let m := x.vnat (vnum a)
  let n := x.vnat (vnum b)
  let es := (List.range (128 / w)).map (fun k => op (elemOf m w k) (elemOf n w k))
  s.setMe ((x.setVnat (vnum d) (packElems w es) (fun _ => Tag.exact)).next)

/-- All ones of a width for true. -/
def mask01 (f : BitVec 3) (b : Bool) : Nat := if b then 2 ^ intWidth f - 1 else 0
/-- An element read as signed, whatever the format. -/
def sVal (f : BitVec 3) (n : Nat) : Int := asInt (intWidth f) n

/-- VADD (R267). -/
def execVadd (d a b : BitVec 5) (f : BitVec 3) (sat : BitVec 1) (s : State) : Out :=
  .next (s.intOp2 f d a b (fun m n => intNarrow f (sat == 1) (intVal f m + intVal f n)))
/-- VSUB (R267). -/
def execVsub (d a b : BitVec 5) (f : BitVec 3) (sat : BitVec 1) (s : State) : Out :=
  .next (s.intOp2 f d a b (fun m n => intNarrow f (sat == 1) (intVal f m - intVal f n)))
/-- VMUL (R267). -/
def execVmul (d a b : BitVec 5) (f : BitVec 3) (sat : BitVec 1) (s : State) : Out :=
  .next (s.intOp2 f d a b (fun m n => intNarrow f (sat == 1) (intVal f m * intVal f n)))
/-- VMIN, signed (R267). -/
def execVmin (d a b : BitVec 5) (f : BitVec 3) (s : State) : Out :=
  .next (s.intOp2 f d a b (fun m n => if sVal f m ≤ sVal f n then m else n))
/-- VMAX, signed (R267). -/
def execVmax (d a b : BitVec 5) (f : BitVec 3) (s : State) : Out :=
  .next (s.intOp2 f d a b (fun m n => if sVal f m ≤ sVal f n then n else m))
/-- VMINU, unsigned (R267). -/
def execVminu (d a b : BitVec 5) (f : BitVec 3) (s : State) : Out :=
  .next (s.intOp2 f d a b (fun m n => min m n))
/-- VMAXU, unsigned (R267). -/
def execVmaxu (d a b : BitVec 5) (f : BitVec 3) (s : State) : Out :=
  .next (s.intOp2 f d a b (fun m n => max m n))
/-- VAND (R267). -/
def execVand (d a b : BitVec 5) (f : BitVec 3) (s : State) : Out := .next (s.intOp2 f d a b (fun m n => m &&& n))
/-- VOR (R267). -/
def execVor (d a b : BitVec 5) (f : BitVec 3) (s : State) : Out := .next (s.intOp2 f d a b (fun m n => m ||| n))
/-- VXOR (R267). -/
def execVxor (d a b : BitVec 5) (f : BitVec 3) (s : State) : Out := .next (s.intOp2 f d a b (fun m n => m ^^^ n))
/-- VSLL: by the low log2 w bits of b (R267). -/
def execVsll (d a b : BitVec 5) (f : BitVec 3) (s : State) : Out :=
  .next (s.intOp2 f d a b (fun m n => m * 2 ^ (n % intWidth f) % 2 ^ intWidth f))
/-- VSRL (R267). -/
def execVsrl (d a b : BitVec 5) (f : BitVec 3) (s : State) : Out :=
  .next (s.intOp2 f d a b (fun m n => m / 2 ^ (n % intWidth f)))
/-- VSRA: filling with a's top bit (R267). -/
def execVsra (d a b : BitVec 5) (f : BitVec 3) (s : State) : Out :=
  .next (s.intOp2 f d a b (fun m n => toBits (intWidth f) (sVal f m / 2 ^ (n % intWidth f))))
/-- VCMPEQ (R267). -/
def execVcmpeq (d a b : BitVec 5) (f : BitVec 3) (s : State) : Out :=
  .next (s.intOp2 f d a b (fun m n => mask01 f (m == n)))
/-- VCMPLT, signed (R267). -/
def execVcmplt (d a b : BitVec 5) (f : BitVec 3) (s : State) : Out :=
  .next (s.intOp2 f d a b (fun m n => mask01 f (decide (sVal f m < sVal f n))))
/-- VCMPLTU, unsigned (R267). -/
def execVcmpltu (d a b : BitVec 5) (f : BitVec 3) (s : State) : Out :=
  .next (s.intOp2 f d a b (fun m n => mask01 f (decide (m < n))))

/-- VSEL: a where the top bit of v[d]'s element is 1, otherwise b; in the 32-bit and 64-bit formats the tags
move with the data (R93, R262, R267). -/
def execVsel (d a b : BitVec 5) (f : BitVec 3) (s : State) : Out :=
  let x := s.me
  let w := intWidth f
  let k := x.vnat (vnum d)
  let pick := fun e => 2 ^ (w - 1) ≤ elemOf k w e
  let es := (List.range (128 / w)).map (fun e =>
    if pick e then elemOf (x.vnat (vnum a)) w e else elemOf (x.vnat (vnum b)) w e)
  let tag := fun l =>
    if w < 32 then Tag.exact
    else if pick (32 * l / w) then x.tag (vnum a) l else x.tag (vnum b) l
  .next (s.setMe ((x.setVnat (vnum d) (packElems w es) tag).next))

/-- The running sums of VPSUM (R267): a clamped partial sum is carried on. -/
def prefixSums (f : BitVec 3) (sat : Bool) : Option Nat → List Nat → List Nat
  | _, [] => []
  | none, e :: r => e :: prefixSums f sat (some e) r
  | some p, e :: r =>
    let q := intNarrow f sat (intVal f p + intVal f e)
    q :: prefixSums f sat (some q) r

/-- VPSUM (R267). -/
def execVpsum (d a : BitVec 5) (f : BitVec 3) (sat : BitVec 1) (s : State) : Out :=
  let x := s.me
  let w := intWidth f
  let es := (List.range (128 / w)).map (fun k => elemOf (x.vnat (vnum a)) w k)
  .next (s.setMe ((x.setVnat (vnum d) (packElems w (prefixSums f (sat == 1) none es)) (fun _ => Tag.exact)).next))

/-- An INT32 sum that wraps, or clamps under .sat (R268). -/
def sum32 (sat : Bool) (x : Int) : Nat := toBits 32 (if sat then clampInt (-(2 ^ 31)) (2 ^ 31 - 1) x else x)

/-- VWACC: lane i of v[b] plus narrow element i of v[a] (R268). -/
def execVwacc (d a b : BitVec 5) (f : BitVec 3) (sat : BitVec 1) (s : State) : Out :=
  let x := s.me
  let es := (List.range 4).map (fun i =>
    sum32 (sat == 1) (asInt 32 (x.lane (vnum b) i).toNat + intVal f (elemOf (x.vnat (vnum a)) (intWidth f) i)))
  .next (s.setMe ((x.setVnat (vnum d) (packElems 32 es) (fun _ => Tag.exact)).next))

/-- VDOT4: four byte products added to each lane of v[d] (R268). -/
def execVdot4 (d a b : BitVec 5) (f : BitVec 3) (sat : BitVec 1) (s : State) : Out :=
  let x := s.me
  let m := x.vnat (vnum a)
  let n := x.vnat (vnum b)
  let es := (List.range 4).map (fun i =>
    sum32 (sat == 1) ((List.range 4).foldl (fun t j =>
      t + intVal f (elemOf m 8 (4 * i + j)) * intVal f (elemOf n 8 (4 * i + j))) (asInt 32 (x.lane (vnum d) i).toNat)))
  .next (s.setMe ((x.setVnat (vnum d) (packElems 32 es) (fun _ => Tag.exact)).next))

/-- One rounded FP32 sum with the add row's tag (R87, R91). -/
def addStep (rm : Rm) (u : Nat) (su : Tag) (v : Nat) (sv : Tag) : Elem :=
  let r := fpAdd f32 rm u v
  let su' := readTag 24 su
  let sv' := readTag 24 sv
  { val := r.1, fl := r.2, tag := f32.tagOf (su' == 63 && sv' == 63) r.1 r.2 (addRow f32 u v su' sv' r.1),
    finite := f32.isFinite r.1, ta := su', tb := sv', tc := 62 }

/-- VPSUM.F32: lane 0 is copied with its tag, each later lane is one rounded sum (R87, R269). -/
def execVpsumF32 (d a : BitVec 5) (s : State) : Out :=
  let x := s.me
  let l := fun k => (x.lane (vnum a) k).toNat
  let t := fun k => x.tag (vnum a) k
  let e0 : Elem := { val := l 0, fl := 0, tag := t 0, finite := f32.isFinite (l 0), ta := readTag 24 (t 0), tb := 62, tc := 62 }
  let e1 := addStep x.rm e0.val e0.tag (l 1) (t 1)
  let e2 := addStep x.rm e1.val e1.tag (l 2) (t 2)
  let e3 := addStep x.rm e2.val e2.tag (l 3) (t 3)
  .next (s.fpFinish 0 (vnum d) [e0, e1, e2, e3])

/-! ### Significance (R275-R278) -/

/-- SIGGET: the stored tags in bytes (R275). -/
def execSigget (d a : BitVec 5) (f : BitVec 3) (s : State) : Out :=
  let x := s.me
  .next (s.result d (dbl ((List.range (fmtLanes f)).foldl (fun n j => n + (x.elemTag f (vnum a) j).toNat * 256 ^ j) 0)))

/-- The tag that SIGSET stores for a field value (R276). -/
def sigStore (full : Nat) (v : Nat) : Tag := if v = 63 then 63 else if v ≤ full then BitVec.ofNat 6 v else BitVec.ofNat 6 full

/-- SIGSET: tags only (R276). -/
def execSigset (d b : BitVec 5) (f : BitVec 3) (s : State) : Out :=
  let x := s.me
  let v := x.g b
  .next (s.setMe (((List.range (fmtLanes f)).foldl (fun y j =>
    y.setElem f (vnum d) j (y.elem f (vnum d) j) (sigStore (fmtOf f).full (field v (8 * j) 6))) x).next))

/-- SIGMIN: the smallest tag, read under R90 (R277). -/
def execSigmin (d a : BitVec 5) (f : BitVec 3) (s : State) : Out :=
  let x := s.me
  .next (s.result d (dbl ((List.range (fmtLanes f)).foldl (fun n j => min n (x.elemSig f (vnum a) j).toNat) 63)))

/-- A branch target (R172). -/
def branchTo (pc : Word) (disp : BitVec 16) : Word := pc + 4 * disp.signExtend 64

/-- Whether the tag of the lane that g[b] names is below the threshold in g[b] (R278). -/
def sigBelow (x : Slot) (v : BitVec 4) (b : BitVec 5) : Bool :=
  let k := x.g b
  let double := bit k 8
  let lane := if double then field k 7 1 * 2 else field k 6 2
  let t := readTag (if double then 53 else 24) (x.tag v lane)
  decide (t.toNat < field k 0 6) && decide (t ≠ 63)

/-- BSIG: taken when the tag of the named lane is below the threshold (R278). -/
def execBsig (v : BitVec 4) (b : BitVec 5) (d : BitVec 16) (s : State) : Out :=
  .next (if sigBelow s.me v b then s.jump (branchTo s.me.pc d) else s.advance)

/-! ### Permutes (R279-R281) -/

/-- VSPLAT (R279). -/
def execVsplat (d a k : BitVec 5) (f : BitVec 3) (s : State) : Out :=
  let x := s.me
  let n := if fmtDouble f then 2 else 4
  let v := if fmtScalar f then (x.g a).toNat else x.elem f (vnum a) k.toNat
  let t := if fmtScalar f then w0Tag x.csr.winsig (fmtDouble f) else x.tag (vnum a) (fmtStep f * k.toNat)
  let t1 := if fmtScalar f then t else x.tag (vnum a) (fmtStep f * k.toNat + 1)
  .next (s.setMe (((List.range n).foldl (fun y j =>
    if fmtDouble f then
      (y.setLane (vnum d) (2 * j) (BitVec.ofNat 32 v) t).setLane (vnum d) (2 * j + 1) (BitVec.ofNat 32 (v / 2 ^ 32)) t1
    else y.setLane (vnum d) j (BitVec.ofNat 32 v) t) x).next))

/-- One element of v[d] replaced, lane by lane with its tags (R93, R279). -/
def Slot.putElem (x : Slot) (f : BitVec 3) (d : BitVec 4) (j : Nat) (v : Nat) (t t1 : Tag) : Slot :=
  if fmtDouble f then
    (x.setLane d (2 * j) (BitVec.ofNat 32 v) t).setLane d (2 * j + 1) (BitVec.ofNat 32 (v / 2 ^ 32)) t1
  else x.setLane d j (BitVec.ofNat 32 v) t

/-- VINS (R279). -/
def execVins (d a k : BitVec 5) (f : BitVec 3) (s : State) : Out :=
  let x := s.me
  .next (s.setMe ((if fmtScalar f then
      let t := w0Tag x.csr.winsig (fmtDouble f)
      x.putElem f (vnum d) k.toNat (x.g a).toNat t t
    else x.putElem f (vnum d) k.toNat (x.elem f (vnum a) 0) (x.tag (vnum a) 0) (x.tag (vnum a) 1)).next))

/-- VEXT (R279). -/
def execVext (d a k : BitVec 5) (f : BitVec 3) (s : State) : Out :=
  let x := s.me
  .next (if fmtScalar f then
      s.result d (if fmtDouble f then dbl (x.elem f (vnum a) k.toNat) else (x.lane (vnum a) k.toNat).signExtend 64)
    else s.setMe ((x.putElem f (vnum d) 0 (x.elem f (vnum a) k.toNat) (x.tag (vnum a) (fmtStep f * k.toNat))
      (x.tag (vnum a) (fmtStep f * k.toNat + 1))).next))

/-- VPERM (R280). -/
def execVperm (d a b : BitVec 5) (f : BitVec 3) (s : State) : Out :=
  let x := s.me
  let n := if fmtDouble f then 2 else 4
  .next (s.setMe (((List.range n).foldl (fun y i =>
    let j := (x.lane (vnum b) (fmtStep f * i)).toNat % n
    y.putElem f (vnum d) i (x.elem f (vnum a) j) (x.tag (vnum a) (fmtStep f * j)) (x.tag (vnum a) (fmtStep f * j + 1))) x).next))

/-- VHADD: lane 0 of v[d] from three rounded sums in the fixed order (R87, R281). -/
def execVhadd (d a : BitVec 5) (f : BitVec 3) (s : State) : Out :=
  let x := s.me
  let l := fun k => (x.lane (vnum a) k).toNat
  let t := fun k => x.tag (vnum a) k
  let u := addStep x.rm (l 0) (t 0) (l 1) (t 1)
  let v := addStep x.rm (l 2) (t 2) (l 3) (t 3)
  let r := addStep x.rm u.val u.tag v.val v.tag
  .next (s.finishFp f.toNat 1 [u, v, r] [r] (fun y => y.setLane (vnum d) 0 (BitVec.ofNat 32 r.val) r.tag))

end Sys2Proof.Machine
end

