-- ==== Sys2Proof/Machine/Integer.lean ====
section
/-! DEFINITION.  Integer operations: majors 0x01-0x0B (R188-R193).  Each result is a function of the source
registers, read before the destination is written; the instruction then completes. -/

namespace Sys2Proof.Machine

/-- The number of leading zero bits (R189). -/
def clz64 (a : Word) : Word := if a = 0 then 64 else dbl (63 - Nat.log2 a.toNat)

/-- Trailing zero bits among the n low bits from bit k on. -/
def ctzGo (a : Nat) : Nat → Nat → Nat
  | 0, k => k
  | n + 1, k => if a / 2 ^ k % 2 = 1 then k else ctzGo a n (k + 1)
/-- The number of trailing zero bits; 64 for zero (R189). -/
def ctz64 (a : Word) : Word := dbl (ctzGo a.toNat 64 0)

/-- One bits among the n low bits. -/
def popcGo (a : Nat) : Nat → Nat
  | 0 => 0
  | n + 1 => a / 2 ^ n % 2 + popcGo a n
/-- The number of one bits (R189). -/
def popc64 (a : Word) : Word := dbl (popcGo a.toNat 64)

/-- The signed quotient of R67: rounded toward zero; all ones for a zero divisor; the dividend for the most
negative value divided by -1. -/
def sdiv64 (a b : Word) : Word := if b = 0 then BitVec.allOnes 64 else BitVec.ofInt 64 (a.toInt.tdiv b.toInt)
/-- The signed remainder of R67: the sign of the dividend; the dividend for a zero divisor. -/
def srem64 (a b : Word) : Word := if b = 0 then a else BitVec.ofInt 64 (a.toInt.tmod b.toInt)

/-- The result of ADD (R189). -/
def addResult (a b : Word) : Word := a + b
/-- ADD (R189). -/
def execAdd (d a b : BitVec 5) (s : State) : Out := .next (s.result d (addResult (s.g a) (s.g b)))

/-- The result of SUB (R189). -/
def subResult (a b : Word) : Word := a - b
/-- SUB (R189). -/
def execSub (d a b : BitVec 5) (s : State) : Out := .next (s.result d (subResult (s.g a) (s.g b)))

/-- The result of AND (R189). -/
def andResult (a b : Word) : Word := a &&& b
/-- AND (R189). -/
def execAnd (d a b : BitVec 5) (s : State) : Out := .next (s.result d (andResult (s.g a) (s.g b)))

/-- The result of OR (R189). -/
def orResult (a b : Word) : Word := a ||| b
/-- OR (R189). -/
def execOr (d a b : BitVec 5) (s : State) : Out := .next (s.result d (orResult (s.g a) (s.g b)))

/-- The result of XOR (R189). -/
def xorResult (a b : Word) : Word := a ^^^ b
/-- XOR (R189). -/
def execXor (d a b : BitVec 5) (s : State) : Out := .next (s.result d (xorResult (s.g a) (s.g b)))

/-- The result of ANDN (R189). -/
def andnResult (a b : Word) : Word := a &&& ~~~b
/-- ANDN (R189). -/
def execAndn (d a b : BitVec 5) (s : State) : Out := .next (s.result d (andnResult (s.g a) (s.g b)))

/-- The result of SLL (R189). -/
def sllResult (a b : Word) : Word := a <<< (b.toNat % 64)
/-- SLL (R189). -/
def execSll (d a b : BitVec 5) (s : State) : Out := .next (s.result d (sllResult (s.g a) (s.g b)))

/-- The result of SRL (R189). -/
def srlResult (a b : Word) : Word := a >>> (b.toNat % 64)
/-- SRL (R189). -/
def execSrl (d a b : BitVec 5) (s : State) : Out := .next (s.result d (srlResult (s.g a) (s.g b)))

/-- The result of SRA (R189). -/
def sraResult (a b : Word) : Word := a.sshiftRight (b.toNat % 64)
/-- SRA (R189). -/
def execSra (d a b : BitVec 5) (s : State) : Out := .next (s.result d (sraResult (s.g a) (s.g b)))

/-- The result of SLT (R189). -/
def sltResult (a b : Word) : Word := flag (a.slt b)
/-- SLT (R189). -/
def execSlt (d a b : BitVec 5) (s : State) : Out := .next (s.result d (sltResult (s.g a) (s.g b)))

/-- The result of SLTU (R189). -/
def sltuResult (a b : Word) : Word := flag (a.ult b)
/-- SLTU (R189). -/
def execSltu (d a b : BitVec 5) (s : State) : Out := .next (s.result d (sltuResult (s.g a) (s.g b)))

/-- The result of MIN (R189). -/
def minResult (a b : Word) : Word := if a.slt b then a else b
/-- MIN (R189). -/
def execMin (d a b : BitVec 5) (s : State) : Out := .next (s.result d (minResult (s.g a) (s.g b)))

/-- The result of MAX (R189). -/
def maxResult (a b : Word) : Word := if a.slt b then b else a
/-- MAX (R189). -/
def execMax (d a b : BitVec 5) (s : State) : Out := .next (s.result d (maxResult (s.g a) (s.g b)))

/-- The result of MINU (R189). -/
def minuResult (a b : Word) : Word := if a.ult b then a else b
/-- MINU (R189). -/
def execMinu (d a b : BitVec 5) (s : State) : Out := .next (s.result d (minuResult (s.g a) (s.g b)))

/-- The result of MAXU (R189). -/
def maxuResult (a b : Word) : Word := if a.ult b then b else a
/-- MAXU (R189). -/
def execMaxu (d a b : BitVec 5) (s : State) : Out := .next (s.result d (maxuResult (s.g a) (s.g b)))

/-- The result of ADDW (R189). -/
def addwResult (a b : Word) : Word := (lowW a + lowW b).signExtend 64
/-- ADDW (R189). -/
def execAddw (d a b : BitVec 5) (s : State) : Out := .next (s.result d (addwResult (s.g a) (s.g b)))

/-- The result of SUBW (R189). -/
def subwResult (a b : Word) : Word := (lowW a - lowW b).signExtend 64
/-- SUBW (R189). -/
def execSubw (d a b : BitVec 5) (s : State) : Out := .next (s.result d (subwResult (s.g a) (s.g b)))

/-- The result of SLLW (R189). -/
def sllwResult (a b : Word) : Word := (lowW a <<< (b.toNat % 32)).signExtend 64
/-- SLLW (R189). -/
def execSllw (d a b : BitVec 5) (s : State) : Out := .next (s.result d (sllwResult (s.g a) (s.g b)))

/-- The result of SRLW (R189). -/
def srlwResult (a b : Word) : Word := (lowW a >>> (b.toNat % 32)).signExtend 64
/-- SRLW (R189). -/
def execSrlw (d a b : BitVec 5) (s : State) : Out := .next (s.result d (srlwResult (s.g a) (s.g b)))

/-- The result of SRAW (R189). -/
def srawResult (a b : Word) : Word := ((lowW a).sshiftRight (b.toNat % 32)).signExtend 64
/-- SRAW (R189). -/
def execSraw (d a b : BitVec 5) (s : State) : Out := .next (s.result d (srawResult (s.g a) (s.g b)))

/-- The result of MUL (R193). -/
def mulResult (a b : Word) : Word := a * b
/-- MUL (R193). -/
def execMul (d a b : BitVec 5) (s : State) : Out := .next (s.result d (mulResult (s.g a) (s.g b)))

/-- The result of MULH (R193). -/
def mulhResult (a b : Word) : Word := BitVec.ofInt 64 (a.toInt * b.toInt / 2 ^ 64)
/-- MULH (R193). -/
def execMulh (d a b : BitVec 5) (s : State) : Out := .next (s.result d (mulhResult (s.g a) (s.g b)))

/-- The result of MULHU (R193). -/
def mulhuResult (a b : Word) : Word := dbl (a.toNat * b.toNat / 2 ^ 64)
/-- MULHU (R193). -/
def execMulhu (d a b : BitVec 5) (s : State) : Out := .next (s.result d (mulhuResult (s.g a) (s.g b)))

/-- The result of MULW (R193). -/
def mulwResult (a b : Word) : Word := (lowW a * lowW b).signExtend 64
/-- MULW (R193). -/
def execMulw (d a b : BitVec 5) (s : State) : Out := .next (s.result d (mulwResult (s.g a) (s.g b)))

/-- The result of DIV (R67, R193). -/
def divResult (a b : Word) : Word := sdiv64 a b
/-- DIV (R67, R193). -/
def execDiv (d a b : BitVec 5) (s : State) : Out := .next (s.result d (divResult (s.g a) (s.g b)))

/-- The result of DIVU (R67, R193). -/
def divuResult (a b : Word) : Word := if b = 0 then BitVec.allOnes 64 else a / b
/-- DIVU (R67, R193). -/
def execDivu (d a b : BitVec 5) (s : State) : Out := .next (s.result d (divuResult (s.g a) (s.g b)))

/-- The result of REM (R67, R193). -/
def remResult (a b : Word) : Word := srem64 a b
/-- REM (R67, R193). -/
def execRem (d a b : BitVec 5) (s : State) : Out := .next (s.result d (remResult (s.g a) (s.g b)))

/-- The result of REMU (R67, R193). -/
def remuResult (a b : Word) : Word := if b = 0 then a else a % b
/-- REMU (R67, R193). -/
def execRemu (d a b : BitVec 5) (s : State) : Out := .next (s.result d (remuResult (s.g a) (s.g b)))

/-- The result of CLZ (R189). -/
def clzResult (a : Word) : Word := clz64 a
/-- CLZ (R189). -/
def execClz (d a : BitVec 5) (s : State) : Out := .next (s.result d (clzResult (s.g a)))

/-- The result of CTZ (R189). -/
def ctzResult (a : Word) : Word := ctz64 a
/-- CTZ (R189). -/
def execCtz (d a : BitVec 5) (s : State) : Out := .next (s.result d (ctzResult (s.g a)))

/-- The result of POPC (R189). -/
def popcResult (a : Word) : Word := popc64 a
/-- POPC (R189). -/
def execPopc (d a : BitVec 5) (s : State) : Out := .next (s.result d (popcResult (s.g a)))

/-- The result of SEXTB (R189). -/
def sextbResult (a : Word) : Word := sext 8 a
/-- SEXTB (R189). -/
def execSextb (d a : BitVec 5) (s : State) : Out := .next (s.result d (sextbResult (s.g a)))

/-- The result of SEXTH (R189). -/
def sexthResult (a : Word) : Word := sext 16 a
/-- SEXTH (R189). -/
def execSexth (d a : BitVec 5) (s : State) : Out := .next (s.result d (sexthResult (s.g a)))

/-- The result of SEXTW (R189). -/
def sextwResult (a : Word) : Word := sext 32 a
/-- SEXTW (R189). -/
def execSextw (d a : BitVec 5) (s : State) : Out := .next (s.result d (sextwResult (s.g a)))

/-- The result of ZEXTW (R189). -/
def zextwResult (a : Word) : Word := zext 32 a
/-- ZEXTW (R189). -/
def execZextw (d a : BitVec 5) (s : State) : Out := .next (s.result d (zextwResult (s.g a)))

/-- The result of ADDI (R190). -/
def addiResult (a : Word) (i : BitVec 16) : Word := a + i.signExtend 64
/-- ADDI (R190). -/
def execAddi (d a : BitVec 5) (i : BitVec 16) (s : State) : Out := .next (s.result d (addiResult (s.g a) i))

/-- The result of ANDI (R190). -/
def andiResult (a : Word) (i : BitVec 16) : Word := a &&& i.signExtend 64
/-- ANDI (R190). -/
def execAndi (d a : BitVec 5) (i : BitVec 16) (s : State) : Out := .next (s.result d (andiResult (s.g a) i))

/-- The result of ORI (R190). -/
def oriResult (a : Word) (i : BitVec 16) : Word := a ||| i.zeroExtend 64
/-- ORI (R190). -/
def execOri (d a : BitVec 5) (i : BitVec 16) (s : State) : Out := .next (s.result d (oriResult (s.g a) i))

/-- The result of XORI (R190). -/
def xoriResult (a : Word) (i : BitVec 16) : Word := a ^^^ i.zeroExtend 64
/-- XORI (R190). -/
def execXori (d a : BitVec 5) (i : BitVec 16) (s : State) : Out := .next (s.result d (xoriResult (s.g a) i))

/-- The result of SLTI (R190). -/
def sltiResult (a : Word) (i : BitVec 16) : Word := flag (a.slt (i.signExtend 64))
/-- SLTI (R190). -/
def execSlti (d a : BitVec 5) (i : BitVec 16) (s : State) : Out := .next (s.result d (sltiResult (s.g a) i))

/-- The result of SLTIU (R190). -/
def sltiuResult (a : Word) (i : BitVec 16) : Word := flag (a.ult (i.signExtend 64))
/-- SLTIU (R190). -/
def execSltiu (d a : BitVec 5) (i : BitVec 16) (s : State) : Out := .next (s.result d (sltiuResult (s.g a) i))

/-- The result of SLLI (R191). -/
def slliResult (a : Word) (k : BitVec 6) : Word := a <<< k.toNat
/-- SLLI (R191). -/
def execSlli (d a : BitVec 5) (k : BitVec 6) (s : State) : Out := .next (s.result d (slliResult (s.g a) k))

/-- The result of SRLI (R191). -/
def srliResult (a : Word) (k : BitVec 6) : Word := a >>> k.toNat
/-- SRLI (R191). -/
def execSrli (d a : BitVec 5) (k : BitVec 6) (s : State) : Out := .next (s.result d (srliResult (s.g a) k))

/-- The result of SRAI (R191). -/
def sraiResult (a : Word) (k : BitVec 6) : Word := a.sshiftRight k.toNat
/-- SRAI (R191). -/
def execSrai (d a : BitVec 5) (k : BitVec 6) (s : State) : Out := .next (s.result d (sraiResult (s.g a) k))

/-- The value of LUI (R192). -/
def luiResult (i : BitVec 16) : Word := ((i.zeroExtend 32 : W32) <<< 16).signExtend 64
/-- LUI (R192). -/
def execLui (d : BitVec 5) (i : BitVec 16) (s : State) : Out := .next (s.result d (luiResult i))

/-- The value of ADDPC (R192). -/
def addpcResult (pc : Word) (i : BitVec 16) : Word := pc + (i.signExtend 64 <<< 16)
/-- ADDPC (R192). -/
def execAddpc (d : BitVec 5) (i : BitVec 16) (s : State) : Out := .next (s.result d (addpcResult s.me.pc i))

end Sys2Proof.Machine
end

