-- ==== Sys2Proof/Machine/Control.lean ====
section
/-! DEFINITION.  Branches, jumps and predicates: majors 0x0C-0x16 (R194-R198). -/

namespace Sys2Proof.Machine

/-- A conditional branch (R194). -/
def State.branch (s : State) (taken : Bool) (disp : BitVec 16) : State :=
  if taken then s.jump (branchTo s.me.pc disp) else s.advance

/-- The condition of BEQ (R194). -/
def beqCond (a b : Word) : Bool := a == b
/-- BEQ (R194). -/
def execBeq (a b : BitVec 5) (d : BitVec 16) (s : State) : Out := .next (s.branch (beqCond (s.g a) (s.g b)) d)

/-- The condition of BNE (R194). -/
def bneCond (a b : Word) : Bool := a != b
/-- BNE (R194). -/
def execBne (a b : BitVec 5) (d : BitVec 16) (s : State) : Out := .next (s.branch (bneCond (s.g a) (s.g b)) d)

/-- The condition of BLT (R194). -/
def bltCond (a b : Word) : Bool := a.slt b
/-- BLT (R194). -/
def execBlt (a b : BitVec 5) (d : BitVec 16) (s : State) : Out := .next (s.branch (bltCond (s.g a) (s.g b)) d)

/-- The condition of BGE (R194). -/
def bgeCond (a b : Word) : Bool := !(a.slt b)
/-- BGE (R194). -/
def execBge (a b : BitVec 5) (d : BitVec 16) (s : State) : Out := .next (s.branch (bgeCond (s.g a) (s.g b)) d)

/-- The condition of BLTU (R194). -/
def bltuCond (a b : Word) : Bool := a.ult b
/-- BLTU (R194). -/
def execBltu (a b : BitVec 5) (d : BitVec 16) (s : State) : Out := .next (s.branch (bltuCond (s.g a) (s.g b)) d)

/-- The condition of BGEU (R194). -/
def bgeuCond (a b : Word) : Bool := !(a.ult b)
/-- BGEU (R194). -/
def execBgeu (a b : BitVec 5) (d : BitVec 16) (s : State) : Out := .next (s.branch (bgeuCond (s.g a) (s.g b)) d)

/-- A jump target (R172). -/
def jumpTo (pc : Word) (d : BitVec 21) : Word := pc + 4 * d.signExtend 64
/-- J (R195). -/
def execJ (d : BitVec 21) (s : State) : Out := .next (s.jump (jumpTo s.me.pc d))
/-- JL: the link is the address after the instruction (R195). -/
def execJl (r : BitVec 5) (d : BitVec 21) (s : State) : Out :=
  .next (s.setMe ((s.me.setG r (s.me.pc + 4)).jump (jumpTo s.me.pc d)))

/-- The target of JLR (R196). -/
def jlrTarget (a : Word) (i : BitVec 16) : Word := a + i.signExtend 64
/-- JLR: a misaligned target takes ALIGN at the JLR with the link register unchanged (R196). -/
def execJlr (d a : BitVec 5) (i : BitVec 16) (s : State) : Out :=
  let t := jlrTarget (s.g a) i
  .next (if t.toNat % 4 ≠ 0 then s.raise .align t else s.setMe ((s.me.setG d (s.me.pc + 4)).jump t))

/-- The conditions of CMP (R197). -/
def cmpCond (c : BitVec 3) (a b : Word) : Bool :=
  match c.toNat with
  | 0 => beqCond a b | 1 => bneCond a b | 2 => bltCond a b | 3 => bgeCond a b | 4 => bltuCond a b | _ => bgeuCond a b
/-- CMP (R197). -/
def execCmp (p : BitVec 4) (a b : BitVec 5) (c : BitVec 3) (s : State) : Out :=
  .next (s.setMe ((s.me.setP p (cmpCond c (s.g a) (s.g b))).next))
/-- PAND (R197). -/
def execPand (p q r : BitVec 4) (s : State) : Out := .next (s.setMe ((s.me.setP p (s.me.p q && s.me.p r)).next))
/-- POR (R197). -/
def execPor (p q r : BitVec 4) (s : State) : Out := .next (s.setMe ((s.me.setP p (s.me.p q || s.me.p r)).next))
/-- PXOR (R197). -/
def execPxor (p q r : BitVec 4) (s : State) : Out := .next (s.setMe ((s.me.setP p (s.me.p q != s.me.p r)).next))

/-- BP: branch when the predicate is true (R198). -/
def execBp (p : BitVec 4) (d : BitVec 16) (s : State) : Out := .next (s.branch (s.me.p p) d)
/-- BP.F: branch when the predicate is false (R198). -/
def execBpF (p : BitVec 4) (d : BitVec 16) (s : State) : Out := .next (s.branch (!s.me.p p) d)

end Sys2Proof.Machine
end

