-- ==== Sys2Proof/Machine/Convert.lean ====
section
/-! DEFINITION.  VCVT and VCVTI (R175, R282-R286): element placement, the conversions, and the tags of packed
lanes. -/

namespace Sys2Proof.Machine

/-- The element width of a conversion code (R175, R282). -/
def cvtWidth (c : BitVec 4) : Nat :=
  match c.toNat with
  | 1 => 64 | 8 => 64 | 9 => 64 | 2 => 16 | 12 => 16 | 13 => 16 | 3 => 8 | 4 => 8 | 10 => 8 | 11 => 8 | _ => 32
/-- The full count of a floating-point conversion code (R88). -/
def cvtFull (c : BitVec 4) : Nat :=
  match c.toNat with | 0 => 24 | 1 => 53 | 2 => 8 | 3 => 4 | _ => 3
/-- The rounding of a conversion (R175). -/
def cvtRm (x : Slot) (f : BitVec 3) : Rm := if f = 0 then x.rm else rmOf (f.toNat - 1)

/-- A floating-point source element as an FP32 or FP64 encoding (R73, R283). -/
def cvtImage (src : BitVec 4) (b : Nat) : Nat :=
  match src.toNat with | 2 => bf16Image b | 3 => e4m3Image b | 4 => e5m2Image b | _ => b
/-- The format of that encoding. -/
def cvtSrcFmt (src : BitVec 4) : Fmt := if src = 1 then f64 else f32

/-- A floating-point pair (R283). -/
def cvtFp (rm : Rm) (sat : Bool) (t src : BitVec 4) (b : Nat) : Nat × Flags :=
  let x := cvtImage src b
  let F := cvtSrcFmt src
  let v := F.value x
  match t.toNat with
  | 0 => if src = 1 then f64ToF32 rm x else (x, 0)
  | 1 => f32ToF64 x
  | 2 => toBf16 rm v (F.sign x) (F.isSNaN x)
  | 3 => toE4m3 rm v (F.sign x) (F.isSNaN x)
  | _ => toE5m2 rm sat v (F.sign x) (F.isSNaN x)

/-- Whether a result of a floating-point target is finite. -/
def cvtFinite (t : BitVec 4) (r : Nat) : Bool :=
  match t.toNat with
  | 0 => f32.isFinite r | 1 => f64.isFinite r | 2 => bf16.isFinite r | 3 => decide (r % 128 ≠ 127) | _ => e5m2.isFinite r
/-- Whether it is ±0. -/
def cvtZero (t : BitVec 4) (r : Nat) : Bool := decide (r % 2 ^ (cvtWidth t - 1) = 0)
/-- Its available count (R89).  DESIGN CHOICE (log entry 35): for a subnormal or zero BF16, E4M3 or E5M2 result, for
which R89 gives no number, the formula of R89 is taken with the format's own smallest exponent and width. -/
def cvtAvail (t : BitVec 4) (r : Nat) : Nat :=
  match t.toNat with
  | 0 => f32.avail r | 1 => f64.avail r | 2 => bf16.avail r | 3 => e4m3.avail r | _ => e5m2.avail r

/-- Whether an integer conversion code is signed (R175). -/
def cvtSigned (c : BitVec 4) : Bool := c.toNat % 2 == 0
/-- The range of an integer conversion code. -/
def cvtRange (c : BitVec 4) : Int × Int :=
  let w := cvtWidth c
  if cvtSigned c then (-(2 ^ (w - 1)), 2 ^ (w - 1) - 1) else (0, 2 ^ w - 1)

/-- An integer source converted to f32 or f64 (R284). -/
def cvtFromInt (rm : Rm) (t src : BitVec 4) (b : Nat) : Nat × Flags :=
  let x : Int := if cvtSigned src then asInt (cvtWidth src) b else b
  roundFin (if t = 1 then f64 else f32) rm (decide (x < 0)) x.natAbs 0 false

/-- An f32 or f64 source converted to an integer (R70, R284). -/
def cvtToInt (rm : Rm) (t src : BitVec 4) (b : Nat) : Nat × Flags :=
  let w := cvtWidth t
  let lim := cvtRange t
  match (cvtSrcFmt src).value b with
  | .nan => (0, Flags.nv)
  | .inf n => (toBits w (if n then lim.1 else lim.2), Flags.nv)
  | .fin n m e =>
    let k := cutTo rm n m e 0 false
    let x : Int := if n then -(k.1 : Int) else k.1
    if x < lim.1 then (toBits w lim.1, Flags.nv)
    else if lim.2 < x then (toBits w lim.2, Flags.nv)
    else (toBits w x, if k.2 then Flags.nx else 0)

/-- INT32 narrowed to INT8 or UINT8 (R74, R284). -/
def cvtClamp (t : BitVec 4) (b : Nat) : Nat × Flags :=
  let x := asInt 32 b
  let y := clampInt (cvtRange t).1 (cvtRange t).2 x
  (toBits 8 y, if x = y then 0 else Flags.of)

/-- The elements of a conversion other than ol4 (R282-R286), with their tags. -/
def State.cvtElems (s : State) (t src : BitVec 4) (a : BitVec 4) (f : BitVec 3) : List Elem :=
  let x := s.me
  let w := cvtWidth src
  let n := if cvtWidth src = 64 ∨ cvtWidth t = 64 then 2 else 4
  let rm := cvtRm x f
  (List.range n).map (fun i =>
    let b := elemOf (x.vnat a) w i
    let st := if src.toNat ≤ 5 then readTag (cvtFull src) (x.tag a (w * i / 32)) else Tag.exact
    if 6 ≤ t.toNat then
      let r := if src.toNat ≤ 1 then cvtToInt rm t src b else cvtClamp t b
      { val := r.1, fl := r.2, tag := Tag.exact, finite := false, ta := st, tb := 62, tc := 62 }
    else
      let r := if src.toNat ≤ 5 then cvtFp rm (fpSat x.csr.fpctl) t src b else cvtFromInt rm t src b
      let exact := (r.2 &&& (Flags.nx ||| Flags.of ||| Flags.nv)) == 0
      let fin := cvtFinite t r.1
      let tag :=
        if st = 63 then (if exact then Tag.exact else if fin then BitVec.ofNat 6 (cvtAvail t r.1) else 0)
        else if !fin then 0
        else if cvtZero t r.1 then 0
        else if cvtFull t < cvtFull src then BitVec.ofNat 6 (min st.toNat (cvtFull t)) else st
      { val := r.1, fl := r.2, tag := tag, finite := fin, ta := st, tb := 62, tc := 62 })

/-- The smaller of two tags (R99). -/
def minTag (a b : Tag) : Tag := if a.toNat ≤ b.toNat then a else b

/-- The elements packed in one lane as one element for the floor: its finite results only (R286). -/
def packedElem (es : List Elem) : Elem :=
  let fin := es.filter (fun e => e.finite)
  let t := fin.foldl (fun t e => minTag t e.tag) Tag.exact
  let ta := match fin.find? (fun e => e.tag == t) with | some e => e.ta | none => 62
  { val := 0, fl := 0, tag := t, finite := !fin.isEmpty, ta := ta, tb := 62, tc := 62 }

/-- The tag of a lane that packs several results, EXACT when it holds none (R286). -/
def packedTag (es : List Elem) : Tag := es.foldl (fun t e => minTag t e.tag) Tag.exact

/-- A list cut into groups of n. -/
def cutList {α : Type} (n : Nat) : Nat → List α → List (List α)
  | 0, _ => []
  | k + 1, l => if l.isEmpty then [] else l.take n :: cutList n k (l.drop n)

/-- Conversion results written: element i in the i-th field of v[d], every other bit zero, each lane with its
tag; lanes that hold FP results are checked against the floor (R282, R286). -/
def State.cvtFinish (s : State) (t : BitVec 4) (d : BitVec 4) (f : BitVec 3) (es : List Elem) : State :=
  let w := cvtWidth t
  let groups := if w < 32 then cutList (32 / w) 4 es else []
  let checked := if 6 ≤ t.toNat then [] else if w < 32 then groups.map packedElem else es
  let tag := fun l =>
    if w = 64 then (match es[l / 2]? with | some e => e.tag | none => Tag.exact)
    else if w = 32 then (match es[l]? with | some e => e.tag | none => Tag.exact)
    else (match groups[l]? with | some g => packedTag g | none => Tag.exact)
  s.finishFp f.toNat (if w = 64 then 2 else 1) es checked
    (fun x => x.setVnat d (packElems w (es.map (fun e => e.val))) tag)

/-- f32 to ol4 (R285): a block of the 32 lanes of v[a] to v[a+7]; the scale goes to g[b].  DESIGN CHOICE (log entry
35): an inexact result of an EXACT input, ±0 too, takes OL4's full count of 3, since R89 states no available count of an
OL4 value.  DESIGN CHOICE (log entry 26): a lane's tag goes by the value that the lane is coded as and by the flags that it
raised, in the pair of byte 0x88 too, which R78 reads back as another value. -/
def State.cvtToOl4 (s : State) (d a : BitVec 4) (b : BitVec 5) (f : BitVec 3) : State :=
  let x := s.me
  let r := fun k => a + BitVec.ofNat 4 (k / 4)
  let xs := (List.range 32).map (fun k => (x.lane (r k) (k % 4)).toNat)
  let e := ol4Encode xs
  let es := (ol4Lanes xs).mapIdx (fun k q =>
    let st := readTag 24 (x.tag (r k) (k % 4))
    let exact := (q.2 &&& (Flags.nx ||| Flags.of ||| Flags.nv)) == 0
    let tag := if st = 63 then (if exact then Tag.exact else 3)
      else if cmpFV q.1 (.fin false 0 0) = 0 then 0 else BitVec.ofNat 6 (min st.toNat 3)
    ({ val := 0, fl := 0, tag := tag, finite := true, ta := st, tb := 62, tc := 62 } : Elem))
  let groups := cutList 8 4 es
  s.finishFp f.toNat 1 [{ val := 0, fl := e.2.2, tag := 0, finite := false, ta := 62, tb := 62, tc := 62 }]
    (groups.map packedElem)
    (fun y => (y.setVnat d (packElems 8 e.1) (fun l => match groups[l]? with | some g => packedTag g | none => Tag.exact)).setG b
      (BitVec.ofInt 64 e.2.1))

/-- ol4 to f32 (R285): quad q of the block in v[a] under scale s; every lane takes the tag of the lane that
holds the quad's nibbles, a ±0 too, and ±∞ the tag of R92 (R286; log entry 35). -/
def State.cvtFromOl4 (s : State) (d a : BitVec 4) (b : BitVec 5) (f : BitVec 3) : State :=
  let x := s.me
  let k := x.g b
  let sc := scaleOf (field k 0 8)
  let q := field k 8 3
  let st := readTag 3 (x.tag a (q / 2))
  let es := (List.range 4).map (fun i =>
    let e := 4 * q + i
    let v := ol4Image (ol4Elem (elemOf (x.vnat a) 8 (e / 2)) (e % 2 == 1) sc)
    let fin := f32.isFinite v
    ({ val := v, fl := 0, tag := if fin || st == 63 then st else 0, finite := fin, ta := st, tb := 62, tc := 62 } : Elem))
  s.finishFp f.toNat 1 es es (fun y => y.setElems 0 d 0 es)

/-- VCVT (R282, R283, R285). -/
def execVcvt (d a b : BitVec 5) (f : BitVec 3) (t src : BitVec 4) (s : State) : Out :=
  .next (if t = 5 then s.cvtToOl4 (vnum d) (vnum a) b f
    else if src = 5 then s.cvtFromOl4 (vnum d) (vnum a) b f
    else s.cvtFinish t (vnum d) f (s.cvtElems t src (vnum a) f))

/-- VCVTI (R282, R284). -/
def execVcvti (d a _b : BitVec 5) (f : BitVec 3) (t src : BitVec 4) (s : State) : Out :=
  .next (s.cvtFinish t (vnum d) f (s.cvtElems t src (vnum a) f))

end Sys2Proof.Machine
end

