-- ==== Sys2Proof/Machine/Coverage.lean ====
section
/-! DEFINITION.  The coverage store: the rows of probes and commits, the spans, and the winner (R160-R163, R301-R304). -/

namespace Sys2Proof.Machine

/-! ### Probes and commits (R161) -/

/-- The value of an element of a DIRECT row, as the store's type reads it: integers, or FP32 bits. -/
def directValue (fp : Bool) (w : Nat) (x : Option FV) (raw : W32) : Int × Nat :=
  if fp then (0, if w = 0 then raw.toNat else match x with | some v => (roundFV f32 .rne v).1 | none => 0)
  else (if w = 0 then raw.toInt else match x with | some v => fvInt v | none => 0, 0)

/-- The values of an element row, with the flags of PRODUCT mode's K-block and rounding (R161). -/
def State.rowValues (s : State) (t : Tile) (rb : Word) (r : OpRec) (i : Nat) (row : List (Option FV)) : List (Int × Nat × Flags) :=
  (List.range 32).map (fun c =>
    if bit rb 6 then
      let b := roundFV f32 .rne (t.live.kblock row c).1
      (0, b.1, b.2 ||| t.live.kblockFlags row c)
    else
      let raw := if nbit (s.rowBits r i) c then BitVec.ofNat 32 (s.nat (spadKey (homeOf r.base) (4 * (r.first + i * r.stride + c))) 4) else 0
      let v := directValue t.covFp r.window (row.getD c none) raw
      (v.1, v.2, 0))

/-- Entry x after the commit of a value (R161): a NaN does not commit. -/
def Tile.commitEntry (t : Tile) (x : Nat) (v : Int × Nat × Flags) : Tile :=
  let b := mapGet t.cover (0 : W32) x
  if t.covFp then
    if f32.isNaN v.2.1 then t else { t with cover := mapPut t.cover x (BitVec.ofNat 32 (fpMinMax f32 true b.toNat v.2.1).1) }
  else { t with cover := mapPut t.cover x (BitVec.ofInt 32 (max b.toInt v.1)) }

/-- One accumulator of the gains row after a value's gain over an entry (R161, R302). -/
def Accum.gain (a : Accum) (fp : Bool) (best : W32) (v : Int × Nat × Flags) : Accum × Flags :=
  let a := { a with k := a.k + 1, sig := Tag.exact }
  if fp then
    if f32.isNaN v.2.1 then (a, 0)
    else
      let d := fpSub f32 .rne v.2.1 best.toNat
      let g := if f32.isNaN d.1 ∨ f32.sign d.1 then zeroFV else plusZero (f32.value d.1)
      let n := accSum .fp a.val g
      let fl := d.2 ||| n.2
      ({ a with val := n.1, m := maxE a.m (leadFV g), rounded := a.rounded || (fl &&& Flags.nx) != 0 }, fl)
  else
    ({ a with val := (accSum .int a.val (intFV (max 0 (v.1 - best.toInt)) 0)).1 }, 0)

/-- Element row k of a probe or commit: the commit, then the probe of every column into a gains row where there is one, with
the flags by core of the columns (R161, R163). -/
def State.coverRow (s : State) (t : Tile) (rb : Word) (gains : Option Nat) (k : Nat) (r : OpRec) (i : Nat) (fl : SMap Flags) :
    Tile × SMap Flags :=
  let x := field rb 16 12 + k
  match s.opRow r i with
  | none => (t, fl)
  | some row =>
    let vs := s.rowValues t rb r i row
    let fl := (vs.zipIdx).foldl (fun f q => noteFlags f q.2 q.1.2.2) fl
    let t := if field rb 0 6 = 63 then t else t.commitEntry x (vs.getD (field rb 0 6) (0, 0, 0))
    match gains with
    | none => (t, fl)
    | some m =>
      let best := mapGet t.cover (0 : W32) x
      (vs.zipIdx).foldl (fun (z : Tile × SMap Flags) q =>
        let g := (z.1.acc m q.2).gain t.covFp best q.1
        (z.1.setAcc m q.2 g.1, noteFlags z.2 q.2 g.2)) (t, fl)

/-- A tile as an MCOVP begins: the gains row is cleared first unless cont = 1, and an unset mode takes the store's type
(R161, R302). -/
def Tile.probeStart (t : Tile) (o : GangOp) : Tile :=
  { (if bit o.rb 7 then t else t.clearRow o.imm) with amode := if t.amode = .unset then covMode t.covFp else t.amode }

/-! ### The winner (R162) -/

/-- The totals of a span's gains rows, in ascending order of tile, with the flags of the sums by column's core. -/
def spanTotals (mode : AccMode) (rows : List (List FV)) : List FV × SMap Flags :=
  match rows with
  | [] => (List.replicate 32 zeroFV, [])
  | g :: rest =>
    rest.foldl (fun (z : List FV × SMap Flags) h =>
      let sums := (List.range 32).map (fun c => accSum mode (z.1.getD c zeroFV) (h.getD c zeroFV))
      (sums.map (fun q => q.1), (sums.zipIdx).foldl (fun f q => noteFlags f q.2 q.1.2) z.2)) (g, [])

/-- The winning column: the larger total, then the smaller key, then the smaller column. -/
def winner (keys : SMap (BitVec 16)) (tot : List FV) : Nat :=
  (List.range 32).foldl (fun w c =>
    let k := cmpFV (tot.getD c zeroFV) (tot.getD w zeroFV)
    if k = 1 ∨ (k = 0 ∧ (mapGet keys 0 c).toNat < (mapGet keys 0 w).toNat) then c else w) 0

/-- g4 and g5 of MCOVP (R162).  DESIGN CHOICE (log entry 33): the FP32 bits of the total are its RNE rounding, which accrues no
flag. -/
def coverResult (fp : Bool) (keys : SMap (BitVec 16)) (tot : List FV) : Word × Word :=
  let w := winner keys tot
  let none_ := tot.all (fun v => decide (cmpFV v zeroFV ≠ 1))
  let v := tot.getD w zeroFV
  (dbl ((if none_ then 2 ^ 63 else 0) + (mapGet keys 0 w).toNat * 2 ^ 32 + w),
   if fp then dbl (roundFV f32 .rne v).1 else BitVec.ofInt 64 (fvInt v))

/-- An operation's members wake with the winner. -/
def State.coverEnd (s : State) (tile : Nat) (o : GangOp) (tot : List FV) : State :=
  let t := s.tile tile
  let r := coverResult t.covFp t.live.keys tot
  let ws := s.opWaiters o
  ws.foldl (fun s w => s.setSlot w (((s.slot w).setG 4 r.1).setG 5 r.2).next) (s.endOp tile o)

/-- A tile's gains row. -/
def Tile.gains (t : Tile) (m : Nat) : List FV := (List.range 32).map (fun c => (t.acc m c).val)

/-- Whether an operation is an MCOVP of several tiles. -/
def GangOp.isSpan (o : GangOp) : Bool := decide (o.fn = .mcovp) && decide ((coverSpan o.rb).2 ≠ 0)

/-- The tiles of an operation's span (R161). -/
def spanTiles (tile : Nat) (rb : Word) : List Nat :=
  (List.range ((coverSpan rb).2 + 1)).map (fun k => tile / 16 * 16 + (coverSpan rb).1 + k)

/-- The span operation of a tile that bears an ordinal, in the order they were queued (R302). -/
def Tile.spanOp (t : Tile) (ord : Nat) : Option GangOp :=
  if ord < t.spans then none else (t.queue.filter GangOp.isSpan)[ord - t.spans]?

/-- The ordinal of the span operation at the head of a tile's queue. -/
def Tile.spanOrd (t : Tile) : Nat := t.spans

/-- A span operation leaves a tile's queue. -/
def State.countSpan (s : State) (tile : Nat) : State := s.setTile tile { s.tile tile with spans := (s.tile tile).spans + 1 }

/-- The operations of a span, with their tiles, once every tile of it has queued its own (R161, R302). -/
def State.spanOps (s : State) (tile : Nat) (o : GangOp) : Option (List (Nat × GangOp)) :=
  let ops := (spanTiles tile o.rb).map (fun k => ((s.tile k).spanOp (s.tile tile).spanOrd).map (fun p => (k, p)))
  if ops.any (fun p => p.isNone) then none else some (ops.filterMap (fun p => p))

/-- Whether an operation may pass its rows: that of a span once the tiles of the span have queued theirs, with the same rb
(R161, R302). -/
def State.spanReady (s : State) (tile : Nat) (o : GangOp) : Bool :=
  !o.isSpan || (match s.spanOps tile o with
    | some l => l.all (fun p => decide (p.2.rb = o.rb))
    | none => false)

/-- A span whose rb values differ: every member of every tile takes ILLEGAL, with nothing applied (R302). -/
def State.spanFails (s : State) (l : List (Nat × GangOp)) : State :=
  l.foldl (fun s p =>
    let ws := (s.opWaiters p.2).filterMap (fun w => (p.2.members.find? (fun m => m.who == w)).map (fun m => (w, m.word)))
    (((s.endOp p.1 p.2)).countSpan p.1).trapAll .illegal ws) s

/-- The operation of a span that has applied its own pass and waits. -/
def Tile.waitingSpan (t : Tile) (ord : Nat) : Option GangOp :=
  if t.spanOrd = ord then t.queue.find? (fun o => o.isSpan && o.probed) else none

end Sys2Proof.Machine
end

