-- ==== Sys2Proof/Machine/Csr.lean ====
section
/-! DEFINITION.  The CSRs (R39, R42, R69, R100-R102, R151, R167-R169, R348, R349) and the CSR instructions
(R311). -/

namespace Sys2Proof.Machine

/-- How a CSR may be used in a mode. -/
inductive CsrAccess where
  | readWrite | readOnly
  deriving DecidableEq, Repr

/-- The access a mode has to an assigned CSR number; none for an unassigned number (R167, R348). -/
def csrAccess (m : Mode) (n : Nat) : Option CsrAccess :=
  if n ∈ [0x001, 0x002, 0x003, 0x004, 0x007, 0x011, 0x012] then some .readWrite
  else if n ∈ [0x005, 0x006, 0x010, 0x013, 0x014, 0x020, 0x021] then some .readOnly
  else if n = 0x015 then some (if m = .user then .readOnly else .readWrite)
  else if n ∈ [0x100, 0x101, 0x102, 0x105] then some .readWrite
  else if n ∈ [0x103, 0x104] then some (if m = .machine then .readWrite else .readOnly)
  else if n = 0x106 then some .readOnly
  else if n ∈ [0x400, 0x401, 0x402, 0x403, 0x404, 0x405] then some .readWrite
  else none

/-- Whether a number lies in a range above the mode (R167). -/
def csrAbove (m : Mode) (n : Nat) : Bool :=
  match m with
  | .user => decide (0x100 ≤ n ∧ n < 0x800)
  | .super => decide (0x400 ≤ n ∧ n < 0x800)
  | .machine => false

/-- csr.coreid (R168). -/
def coreidValue (w : Who) : Word :=
  if isLarge w.core then dbl (2 ^ 19 + w.slot * 2 ^ 16 + (w.core - largeBase)) else dbl (w.slot * 2 ^ 16 + w.core)

/-- csr.sctx: the held-lock count and the watch (R348). -/
def sctxValue (x : Slot) : Word :=
  dbl (min 255 x.locks.length + (match x.watch with
    | some w => 2 ^ 8 + w.desc / 64 % 2 ^ 33 * 2 ^ 9
    | none => 0))

/-- A CSR read. -/
def csrRead (w : Who) (x : Slot) (n : Nat) : Word :=
  match n with
  | 0x001 => x.csr.fpctl.zeroExtend 64
  | 0x002 => x.csr.winsig.zeroExtend 64
  | 0x003 => x.csr.olscale.zeroExtend 64
  | 0x004 => x.csr.sigfloor.zeroExtend 64
  | 0x005 => x.csr.sigtrap.zeroExtend 64
  | 0x006 => x.csr.mtxerr
  | 0x007 => (x.pw ||| 1).zeroExtend 64
  | 0x010 => flag x.csr.uinh
  | 0x011 => x.csr.utvec
  | 0x012 => x.csr.uepc
  | 0x013 => x.csr.ucause.zeroExtend 64
  | 0x014 => x.csr.utval
  | 0x015 => x.csr.udeleg.zeroExtend 64
  | 0x020 => coreidValue w
  | 0x021 => x.pid.zeroExtend 64
  | 0x100 => x.sup.status.zeroExtend 64
  | 0x101 => x.sup.tvec
  | 0x102 => x.sup.epc
  | 0x103 => x.sup.cause
  | 0x104 => x.sup.tval
  | 0x105 => x.sup.scratch
  | 0x106 => sctxValue x
  | 0x400 => x.mach.status.zeroExtend 64
  | 0x401 => x.mach.tvec
  | 0x402 => x.mach.epc
  | 0x403 => x.mach.cause
  | 0x404 => x.mach.tval
  | 0x405 => x.mach.scratch
  | _ => 0

/-- A field of csr.winsig as it is stored: 25-62 stores 24 (R42). -/
def winsigField (v : Nat) : Nat := if 25 ≤ v ∧ v ≤ 62 then 24 else v
/-- csr.winsig as it is written: w6 and w7 keep 63 (R42). -/
def winsigWrite (v : Word) : BitVec 48 :=
  BitVec.ofNat 48 ((List.range 6).foldl (fun n k => n + winsigField (field v (6 * k) 6) * 2 ^ (6 * k)) (63 * 2 ^ 36 + 63 * 2 ^ 42))
/-- A CSR written through its map: read-only and must-be-zero fields keep their value (R311). -/
def csrWrite (x : Slot) (n : Nat) (v : Word) : Slot :=
  match n with
  | 0x001 => { x with csr := { x.csr with fpctl := v.truncate 13 } }
  | 0x002 => { x with csr := { x.csr with winsig := winsigWrite v } }
  | 0x003 => { x with csr := { x.csr with olscale := v.truncate 17 } }
  | 0x004 => { x with csr := { x.csr with sigfloor := v.truncate 7 } }
  | 0x007 => { x with pw := v.truncate 16 ||| 1 }
  | 0x011 => { x with csr := { x.csr with utvec := wordAddr v } }
  | 0x012 => { x with csr := { x.csr with uepc := wordAddr v } }
  | 0x015 => { x with csr := { x.csr with udeleg := v.truncate 15 &&& 0x4380 } }
  | 0x100 => { x with sup := { x.sup with status := v.truncate 3 } }
  | 0x101 => { x with sup := { x.sup with tvec := wordAddr v } }
  | 0x102 => { x with sup := { x.sup with epc := wordAddr v } }
  | 0x103 => { x with sup := { x.sup with cause := v &&& 0xFF } }
  | 0x104 => { x with sup := { x.sup with tval := v } }
  | 0x105 => { x with sup := { x.sup with scratch := v } }
  | 0x400 => { x with mach := { x.mach with status := v.truncate 3 } }
  | 0x401 => { x with mach := { x.mach with tvec := wordAddr v } }
  | 0x402 => { x with mach := { x.mach with epc := wordAddr v } }
  | 0x403 => { x with mach := { x.mach with cause := v &&& 0xFF } }
  | 0x404 => { x with mach := { x.mach with tval := v } }
  | 0x405 => { x with mach := { x.mach with scratch := v } }
  | _ => x

/-- The checks of a CSR instruction, in the order of R311: PRIV above the mode, then ILLEGAL for an
unassigned number, then ILLEGAL for a write to a CSR that is read-only in this mode. -/
def csrCheck (m : Mode) (n : Nat) (writes : Bool) : Option Cause :=
  if csrAbove m n then some .priv
  else match csrAccess m n with
    | none => some .illegal
    | some .readOnly => if writes then some .illegal else none
    | some .readWrite => none

/-- A CSR instruction as one step (R311): new computes the value written, if it writes. -/
def State.csrOp (s : State) (i : Instr) (d : BitVec 5) (c : BitVec 12) (new : Option (Word → Word)) : State :=
  let x := s.me
  match csrCheck x.mode c.toNat new.isSome with
  | some cause => s.raise cause (wordOf i)
  | none =>
    let old := csrRead s.cur x c.toNat
    let y := match new with | some f => csrWrite x c.toNat (f old) | none => x
    s.setMe ((y.setG d old).next)

/-- CSRR (R311). -/
def execCsrr (d : BitVec 5) (c : BitVec 12) (s : State) : Out := .next (s.csrOp (.csrr d c) d c none)
/-- CSRW: always writes, g0 included (R167, R311). -/
def execCsrw (d a : BitVec 5) (c : BitVec 12) (s : State) : Out :=
  .next (s.csrOp (.csrw d a c) d c (some (fun _ => s.g a)))
/-- CSRS: with source g0 it only reads (R167, R311). -/
def execCsrs (d a : BitVec 5) (c : BitVec 12) (s : State) : Out :=
  .next (s.csrOp (.csrs d a c) d c (if a = 0 then none else some (fun old => old ||| s.g a)))
/-- CSRC: with source g0 it only reads (R167, R311). -/
def execCsrc (d a : BitVec 5) (c : BitVec 12) (s : State) : Out :=
  .next (s.csrOp (.csrc d a c) d c (if a = 0 then none else some (fun old => old &&& ~~~(s.g a))))

end Sys2Proof.Machine
end

