-- ==== Sys2Proof/Machine/Trace.lean ====
section
/-! DEFINITION.  The trace buffers (R309, R389-R392): what an instruction's event is, how an event enters the
buffer, and the trigger. -/

namespace Sys2Proof.Machine

/-- A trace event before it is stamped (R390). -/
structure Event where
  kind : Nat
  slot : Nat
  sub : Nat
  code : Nat
  payload : Word
  deriving DecidableEq, Repr

/-- The 128 bits of an event (R390). -/
def Event.bits (e : Event) (stamp : Nat) : BitVec 128 :=
  BitVec.ofNat 128 (e.payload.toNat + e.code % 2 ^ 12 * 2 ^ 64 + e.sub % 4 * 2 ^ 76 + e.slot % 8 * 2 ^ 78 +
    e.kind % 8 * 2 ^ 81 + stamp % 2 ^ 44 * 2 ^ 84)

/-- Whether the buffer records: enabled and not frozen (R390). -/
def Trace.on (t : Trace) : Bool := bit t.ctl 0 && !t.frozen
/-- Whether the kind and slot masks let an event in (R389). -/
def Trace.wants (t : Trace) (e : Event) : Bool := t.on && bit t.ctl (12 + e.kind) && bit t.ctl (16 + e.slot)

/-- One entry written, or the entry dropped and counted at a full buffer without wrap or while firmware reads through
trwin (R389, R390). -/
def Trace.push (t : Trace) (v : BitVec 128) : Trace × Bool :=
  if t.full || t.reading then ({ t with dropped := min (2 ^ 32 - 1) (t.dropped + 1) }, false)
  else
    let n := (t.next + 1) % 1024
    ({ t with
       events := mapPut t.events t.next v, next := n
       wrapped := t.wrapped || (decide (n = 0) && bit t.ctl 8)
       full := decide (n = 0) && !bit t.ctl 8 }, true)

/-- Whether a recorded event matches the armed trigger (R391). -/
def Trace.matches (t : Trace) (e : Event) : Bool :=
  bit t.trig 63 && decide (field t.trig 60 3 = e.kind) && bit t.trig (40 + e.slot) &&
  (match e.kind with
    | 0 => decide (t.lo.toNat ≤ e.payload.toNat ∧ e.payload.toNat < t.hi.toNat)
    | 1 => decide (field (e.payload &&& t.hi) 0 16 = field t.lo 0 16)
    | 2 => decide (t.lo.toNat ≤ field e.payload 0 56 ∧ field e.payload 0 56 < t.hi.toNat)
    | 3 => decide (e.code = field t.trig 0 12)
    | _ => false)

/-- The trigger after a recorded event: a match disarms it and starts the count of post, and the count freezes the
buffer (R391). -/
def Trace.fire (t : Trace) (e : Event) : Trace :=
  match t.post with
  | some n => if n ≤ 1 then { t with post := none, frozen := true } else { t with post := some (n - 1) }
  | none =>
    if t.matches e then
      let t := { t with trig := t.trig &&& ~~~(dbl (2 ^ 63)) }
      if field t.trig 48 10 = 0 then { t with frozen := true } else { t with post := some (field t.trig 48 10) }
    else t

/-- The time event that is due before an event, if one is; and whether it was dropped (R390). -/
def Trace.timed (t : Trace) (e : Event) (stamp : Nat) : Trace × Bool :=
  if t.lastHigh = some (stamp / 2 ^ 44) then (t, false)
  else
    let r := t.push (Event.bits { kind := 7, slot := e.slot, sub := 0, code := 0, payload := dbl stamp } stamp)
    if r.2 then ({ r.1 with lastHigh := some (stamp / 2 ^ 44) }, false) else (r.1, true)

/-- An event that the masks let in, behind the time event that is due: the buffer, whether the event was recorded, and
how many were dropped (R390, R393). -/
def Trace.record (t : Trace) (e : Event) (stamp : Nat) : Trace × Bool × Nat :=
  let p := t.timed e stamp
  let r := p.1.push (e.bits stamp)
  (if r.2 then r.1.fire e else r.1, r.2, (if p.2 then 1 else 0) + (if r.2 then 0 else 1))

/-- An event at a core: the new state, and whether it was recorded (R309, R390, R393). -/
def State.traceEvent (s : State) (c : Nat) (e : Event) : State × Bool :=
  let k := s.core c
  if k.trace.wants e then
    let r := k.trace.record e (s.clock c)
    let s := s.setCore c { k with trace := r.1 }
    (if r.2.2 = 0 then s else s.count 0x150 r.2.2, r.2.1)
  else (s, false)

/-! ### The event of an instruction -/

/-- The event of a memory access (R390). -/
def memEvent (slot op size : Nat) (ea : Word) : Event :=
  { kind := 2, slot := slot, sub := 0, code := 0, payload := dbl (op * 2 ^ 62 + Nat.log2 size * 2 ^ 56 + ea.toNat % 2 ^ 56) }

/-- The operation (0 load, 1 store, 2 atomic, 3 fire-and-forget), size and address of a memory instruction. -/
def memOf (x : Slot) : Instr → Option (Nat × Nat × Word)
  | .lb _ a _ o => some (0, 1, offsetAddr (x.g a) o 1)
  | .lbu _ a _ o => some (0, 1, offsetAddr (x.g a) o 1)
  | .lh _ a _ o => some (0, 2, offsetAddr (x.g a) o 2)
  | .lhu _ a _ o => some (0, 2, offsetAddr (x.g a) o 2)
  | .lw _ a _ o => some (0, 4, offsetAddr (x.g a) o 4)
  | .lwu _ a _ o => some (0, 4, offsetAddr (x.g a) o 4)
  | .ld _ a _ o => some (0, 8, offsetAddr (x.g a) o 8)
  | .sb _ a _ o => some (1, 1, offsetAddr (x.g a) o 1)
  | .sh _ a _ o => some (1, 2, offsetAddr (x.g a) o 2)
  | .sw _ a _ o => some (1, 4, offsetAddr (x.g a) o 4)
  | .sd _ a _ o => some (1, 8, offsetAddr (x.g a) o 8)
  | .aadd _ a _ _ z => some (2, atomSize z, x.g a)
  | .aand _ a _ _ z => some (2, atomSize z, x.g a)
  | .aor _ a _ _ z => some (2, atomSize z, x.g a)
  | .axor _ a _ _ z => some (2, atomSize z, x.g a)
  | .amin _ a _ _ z => some (2, atomSize z, x.g a)
  | .amax _ a _ _ z => some (2, atomSize z, x.g a)
  | .aminu _ a _ _ z => some (2, atomSize z, x.g a)
  | .amaxu _ a _ _ z => some (2, atomSize z, x.g a)
  | .aswap _ a _ _ z => some (2, atomSize z, x.g a)
  | .acas _ a _ _ z => some (2, atomSize z, x.g a)
  | .redadd a _ z => some (3, atomSize z, x.g a)
  | .redand a _ z => some (3, atomSize z, x.g a)
  | .redor a _ z => some (3, atomSize z, x.g a)
  | .redmin a _ z => some (3, atomSize z, x.g a)
  | .redmax a _ z => some (3, atomSize z, x.g a)
  | .xcaddV a _ => some (3, 64, x.g a)
  | .xcaddG a _ => some (3, 64, x.g a)
  | .xcread _ a => some (0, 64, x.g a)
  | .xcclr a => some (1, 64, x.g a)
  | .tcdec a _ => some (3, 4, x.g a)
  | .vldF32 _ a _ o => some (0, 16, offsetAddr (x.g a) o 16)
  | .vldF64 _ a _ o => some (0, 16, offsetAddr (x.g a) o 16)
  | .vldbF32 _ a _ o => some (0, 4, offsetAddr (x.g a) o 4)
  | .vldbF64 _ a _ o => some (0, 8, offsetAddr (x.g a) o 8)
  | .vstF32 _ a _ o => some (1, 16, offsetAddr (x.g a) o 16)
  | .vstF64 _ a _ o => some (1, 16, offsetAddr (x.g a) o 16)
  | _ => none

/-- Whether an instruction jumps, and its sub code in a branch event (R390). -/
def branchSub (x : Slot) : Instr → Option Nat
  | .beq a b _ => if beqCond (x.g a) (x.g b) then some 0 else none
  | .bne a b _ => if bneCond (x.g a) (x.g b) then some 0 else none
  | .blt a b _ => if bltCond (x.g a) (x.g b) then some 0 else none
  | .bge a b _ => if bgeCond (x.g a) (x.g b) then some 0 else none
  | .bltu a b _ => if bltuCond (x.g a) (x.g b) then some 0 else none
  | .bgeu a b _ => if bgeuCond (x.g a) (x.g b) then some 0 else none
  | .bp p _ => if x.p p then some 0 else none
  | .bpF p _ => if x.p p then none else some 0
  | .j .. => some 1
  | .jl .. => some 1
  | .jlr .. => some 1
  | .bsig v b _ => if sigBelow x v b then some 0 else none
  | .eret => some 3
  | _ => none

/-- Whether an instruction writes PW (R390). -/
def writesPw : Instr → Bool
  | .cmp .. => true
  | .pand .. => true
  | .por .. => true
  | .pxor .. => true
  | .csrw _ _ c => c == 7
  | .csrs _ a c => c == 7 && a != 0
  | .csrc _ a c => c == 7 && a != 0
  | _ => false

/-- Whether a slot entered a handler, wherever that stands: taking a trap counts in the slot, and nothing else does (R170,
R350, R390). -/
def entered (x y : Slot) : Bool := decide (x.traps < y.traps) && y.occ

/-- The event of a taken branch, a jump, a trap entry or an ERET: its target (R390). -/
def branchEvent (slot sub : Nat) (target : Word) : Event := { kind := 0, slot := slot, sub := sub, code := 0, payload := target }

/-- The event of an instruction that issued, by the slot before and after it: a trap entry; a taken branch, a jump or
an ERET; the new PW; a memory access that was not turned away or parked before its issue (R390; log entry 21). -/
def eventOf (slot : Nat) (i : Instr) (x y : Slot) : Option Event :=
  if entered x y then some (branchEvent slot 2 y.pc)
  else if !y.occ || y.pend.isSome then none
  else match branchSub x i with
    | some k => some (branchEvent slot k y.pc)
    | none =>
      if writesPw i then some { kind := 1, slot := slot, sub := 0, code := 0, payload := (y.pw ||| 1).zeroExtend 64 }
      else match memOf x i, y.park with
        | some _, .wait .. => none
        | some (op, n, ea), _ => some (memEvent slot op n ea)
        | none, _ => none

/-- The event of the instruction that the slot w issued, recorded (R390). -/
def State.traceIssue (s : State) (w : Who) (i : Instr) (x : Slot) : State :=
  match eventOf w.slot i x (s.slot w) with
  | some e => (s.traceEvent w.core e).1
  | none => s

/-- The trap entries of another step than an issue, recorded: before is the state ahead of it. -/
def State.traceEntries (s before : State) : State :=
  (s.allThreads.filter (fun w => entered (before.slot w) (s.slot w))).foldl
    (fun s w => (s.traceEvent w.core (branchEvent w.slot 2 (s.slot w).pc)).1) s

end Sys2Proof.Machine
end

