-- ==== Sys2Proof/Machine/System.lean ====
section
/-! DEFINITION.  The system instructions: major 0x32 (R305-R310), trap entry after a wait (R350), the syscall gate
(R326, R367, R368), the debugger's hold (R388), kills (R370) and shootdowns (R364). -/

namespace Sys2Proof.Machine

/-! ### SYSCALL, TRAP, BRK, ERET, NOP (R305-R307) -/

/-- The 12-bit code of SYSCALL, TRAP and BRK as a trap value (R352). -/
def codeValue (c : BitVec 12) : Word := c.zeroExtend 64

/-- SYSCALL (R305). -/
def execSyscall (c : BitVec 12) (s : State) : Out := .next (s.waitBoth (fun s => s.raise .syscall (codeValue c)))

/-- TRAP (R305). -/
def execTrap (c : BitVec 12) (s : State) : Out := .next (s.raise .trap (codeValue c))

/-- A slot that the debugger holds parks in its supervisor handler (R305, R388). -/
def State.holdDebug (s : State) (w : Who) : State :=
  if (s.slot w).debug && decide ((s.slot w).mode = .super) then s.setSlot w { s.slot w with park := .debugger } else s
/-- BRK (R305, R388): the park of a held slot follows its entry; an entry that waits for relaxed accesses parks in
TRAP_ENTRY. -/
def execBrk (c : BitVec 12) (s : State) : Out :=
  let t := s.raise .brk (codeValue c)
  .next (if t.me.pend.isSome then t else t.holdDebug s.cur)

/-- ERET (R170, R306, R351). -/
def execEret (s : State) : Out := .next s.returnTrap

/-- NOP (R307). -/
def execNop (s : State) : Out := .next s.advance

/-! ### TSTAMP, TRIG and PTBLW (R308-R310) -/

/-- TSTAMP (R34, R308): a thread's readings never decrease. -/
def execTstamp (d : BitVec 5) (s : State) : Out :=
  let v := max s.me.lastStamp (s.clock s.cur.core)
  .next ((s.setMe { s.me with lastStamp := v }).result d (dbl v))

/-- The event of TRIG (R309, R390). -/
def trigEvent (slot : Nat) (c : BitVec 12) (v : Word) : Event := { kind := 3, slot := slot, sub := 0, code := c.toNat, payload := v }
/-- TRIG (R309). -/
def execTrig (d a : BitVec 5) (c : BitVec 12) (s : State) : Out :=
  let r := s.traceEvent s.cur.core (trigEvent s.cur.slot c (s.g a))
  .next (r.1.result d (flag r.2))

/-- The table of a PTBLW: entries 0-15 from l, 16-31 from h (R310). -/
def pipeTable (h l : Word) : Vector (BitVec 4) 32 :=
  Vector.ofFn (fun k => BitVec.ofNat 4 (field (if k.val < 16 then l else h) (4 * (k.val % 16)) 4))
/-- The cyclic distance of two entries (R11). -/
def cyclic (i j : Nat) : Nat := min (max i j - min i j) (32 - (max i j - min i j))
/-- Entry k of a table. -/
def pipeAt (t : Vector (BitVec 4) 32) (k : Nat) : Nat := (t.toList.getD (k % 32) 0).toNat
/-- The checks of R13 on a staged table. -/
def pipeOk (t : Vector (BitVec 4) 32) : Bool :=
  (List.range 32).all (fun i => decide (pipeAt t i ≤ 8) && (decide (i % 8 ≠ 7) || decide (pipeAt t i = 7)) &&
    (List.range i).all (fun j => decide (pipeAt t i = 8 ∨ pipeAt t i ≠ pipeAt t j ∨ 8 ≤ cyclic i j)))
/-- PTBLW (R13, R310): ILLEGAL on a large core. -/
def execPtblw (h l : BitVec 5) (s : State) : Out :=
  .next (s.smallOnly (.ptblw h l) (fun s =>
    let t := pipeTable (s.g h) (s.g l)
    if pipeOk t then (s.setCore s.cur.core { s.core s.cur.core with staged := some t }).advance
    else s.raise .illegal (wordOf (.ptblw h l))))

/-- STAGED_TABLE_GOES_LIVE (R13): at entry 0 of a frame.  DESIGN CHOICE (log entry 36): a table staged after a release
has reached the core and before that entry 0 goes live there too, without a phase released after its own PTBLW. -/
def State.goLive (s : State) (c : Nat) : State :=
  let k := s.core c
  match k.staged with
  | some t => if k.goLive && decide (k.pos = 0) then s.setCore c { k with live := t, staged := none, goLive := false } else s
  | none => if k.goLive && decide (k.pos = 0) then s.setCore c { k with goLive := false } else s
/-- STAGED_TABLE_GOES_LIVE (R13). -/
def execStagedTableGoesLive (core : Nat) (s : State) : Out := .next (if s.coreRuns core then s.goLive core else s)

/-! ### Trap entry after a wait (R350) -/

/-- A trap that waited for relaxed accesses enters once they are complete (R350). -/
def State.lateEntry (s : State) (w : Who) : State :=
  let x := s.slot w
  match x.pend with
  | some p =>
    if x.outstanding.isEmpty then
      let t := (s.setSlot w { x with pend := none, park := .ready }).trapNow w p
      if p.cause = .brk then t.holdDebug w else t
    else s
  | none => s
/-- TRAP_ENTRY (R350). -/
def execTrapEntry (core slot : Nat) (s : State) : Out :=
  .next (if s.coreRuns core then s.lateEntry ⟨core, slot⟩ else s)

/-! ### The syscall gate (R326, R367, R368, R378, R379) -/

/-- Whether a service pair is alive (R373). -/
def State.pairUp (s : State) (k : Nat) : Bool := s.sys.alive.getLsbD k
/-- Whether the leader is alive. -/
def State.leaderUp (s : State) : Bool := s.pairUp s.sys.leader
/-- The pair that serves a die (R379). -/
def State.gateOf (s : State) (die : Nat) : Nat := mapGet s.sys.gatemap die die

/-- The statuses of R368. -/
def gateArg : Word := BitVec.ofInt 64 (-1)
/-- ENOSYS. -/
def gateNosys : Word := BitVec.ofInt 64 (-2)
/-- EPERM. -/
def gatePerm : Word := BitVec.ofInt 64 (-3)
/-- EAGAIN. -/
def gateAgain : Word := BitVec.ofInt 64 (-4)
/-- EFAULT. -/
def gateFault : Word := BitVec.ofInt 64 (-5)

/-- A reply with a status alone. -/
def State.gateStatus (s : State) (w : Who) (v : Word) : State := s.setSlot w ((s.slot w).setG 4 v).syscallReturn

/-- System call 16 (R326). -/
def State.setUdeleg (s : State) (w : Who) : State :=
  let v := (s.slot w).g 4
  if v &&& ~~~(0x4380 : Word) ≠ 0 then s.gateStatus w gateArg
  else (s.setSlot w { s.slot w with csr := { (s.slot w).csr with udeleg := v.truncate 15 } }).gateStatus w 0

/-- A pointer argument: its address and length. -/
def Slot.pointer (x : Slot) (p : PtrDecl) : Nat × Nat := ((x.g (BitVec.ofNat 5 p.reg)).toNat, (x.g (BitVec.ofNat 5 p.lenReg)).toNat)

/-- Whether a pointer takes EARG (R368): at or above 2^56, or below 2^39 and not RAW, outside the partition, in a
reserved area, across two cores or longer than 65,536 bytes. -/
def State.badPointer (s : State) (part a n : Nat) : Bool :=
  decide (2 ^ 56 ≤ a) || (decide (a < 2 ^ 39) &&
    (decide (a / 2 ^ 36 ≠ 0) || !s.inPart part (homeOf a) || decide (reservedBase < offOf a + n) || decide (65536 < n)))

/-- Since when a slot at the gate waits for a page of a pointer (R362). -/
def Slot.gateSince (x : Slot) : Option Nat := match x.park with | .gate since => since | _ => none

/-- What the gate's translation of a V-space pointer finds; a hold of 10 ms is ripe (R362, R368). -/
def State.pointerSpan (s : State) (x : Slot) (p : PtrDecl) : Span :=
  let q := x.pointer p
  s.spanOf x.part x.pid { r := true, w := p.isOut, x := false, atomic := false, shadow := p.isOut, ripe := s.ripe x.gateSince }
    (sectorCuts q.1 (q.1 + q.2))

/-- Whether a V-space pointer is not mapped at the gate (R368): only a page with no mapping is.  One that is mapped and gives
another cause, PROT or FENCED, does not turn the call away, and its bytes are not copied (log entry 12). -/
def State.unmapped (s : State) (x : Slot) (p : PtrDecl) : Bool :=
  let q := x.pointer p
  decide (2 ^ 39 ≤ q.1) && (decide (2 ^ 56 < q.1 + q.2) ||
    (match s.pointerSpan x p with
      | .fault .page _ => true
      | _ => false))

/-- The page that a pointer of a call waits for, held as any other agent's access to it is (R362, R365). -/
def State.gateHold (s : State) (x : Slot) (call : GateCall) : Option (Bool × Nat) :=
  if call.refused || decide (x.code = 16) then none
  else call.ptrs.findSome? (fun p =>
    if (x.pointer p).1 < 2 ^ 39 then none
    else match s.pointerSpan x p with
      | .held ask va => some (ask, va)
      | _ => none)

/-- A slot at the gate that waits for a page: the instant is noted and the migration asked for, once (R362). -/
def State.holdGate (s : State) (w : Who) (ask : Bool) (va : Nat) : State :=
  let x := s.slot w
  match x.gateSince with
  | some _ => s
  | none => (s.askHeld ask none x.part x.pid w x.launch va).setPark w (.gate (some s.sys.meridian))

/-- Bytes written to pieces, with those that came from a poisoned source (R366). -/
def State.putMarked (s : State) : List Piece → List Byte → List Bool → State
  | [], _, _ => s
  | p :: ps, bs, bad => ((s.putPieces [p] (bs.take p.len)).movePoison p.key (bad.take p.len)).putMarked ps (bs.drop p.len) (bad.drop p.len)

/-- The bytes of an out pointer copied back, with tag 62 (R368); those of a live descriptor are discarded as an
agent's write is (R106; log entry 12). -/
def State.copyOut (s : State) (w : Who) (p : PtrDecl) (bs : List Byte) : State :=
  let x := s.slot w
  let q := x.pointer p
  let bs := bs.take q.2
  if q.1 < 2 ^ 39 then s.unitPut x.part x.launch w.slot x.pid (homeOf q.1) (offOf q.1) bs (bs.map (fun _ => false))
  else match s.vspan x.part x.pid true (s.ripe x.gateSince) q.1 bs.length with
    | .ok ps => s.putPieces ps bs
    | _ => s

/-- The registers g5-g13 that a call changes (R305). -/
def Slot.callRegs (x : Slot) (rs : List (Nat × Word)) : Slot :=
  rs.foldl (fun x p => if 5 ≤ p.1 ∧ p.1 ≤ 13 then x.setG (BitVec.ofNat 5 p.1) p.2 else x) x

/-- The status that turns a call away before it is made, if one does (R368, R378, R379). -/
def State.gateRefusal (s : State) (w : Who) (call : GateCall) : Option Word :=
  let x := s.slot w
  let bounced := call.ptrs.filter (fun p => decide ((x.pointer p).1 < 2 ^ 39))
  if !s.pairUp (s.gateOf (dieOf w.core)) || call.busy then some gateAgain
  else if x.code = 16 then none
  else if !call.declared then some gateNosys
  else if 4 < bounced.length ∨ call.ptrs.any (fun p => s.badPointer x.part (x.pointer p).1 (x.pointer p).2) then some gateArg
  else if call.ptrs.any (fun p => s.unmapped x p) then some gateFault
  else none

/-- Bytes written at the place of bounced pointer k in the staging area, 65,536 bytes apart, with those that came from a
poisoned source (R366, R368; log entry 12). -/
def State.stage (s : State) (x : Slot) (area k : Nat) (bs : List Byte) (bad : List Bool) : State :=
  match s.vspan x.part x.pid true false (area + 65536 * k) bs.length with
  | .ok ps => s.putMarked ps bs bad
  | _ => s

/-- The bounced pointers of a call with their places in the staging area (R368). -/
def Slot.bounces (x : Slot) (call : GateCall) : List (PtrDecl × Nat) :=
  (call.ptrs.filter (fun p => decide ((x.pointer p).1 < 2 ^ 39))).zipIdx

/-- The bytes marked in copied to the staging area before the call (R368). -/
def State.copyIns (s : State) (w : Who) (call : GateCall) : State :=
  let x := s.slot w
  if (s.gateRefusal w call).isSome || call.refused || decide (x.code = 16) then s
  else ((x.bounces call).filter (fun p => p.1.isIn)).foldl (fun s p =>
    let q := x.pointer p.1
    let k := spadKey (homeOf q.1) (offOf q.1)
    s.stage x call.area p.2 (s.bytes k q.2) ((List.range q.2).map (fun i => s.poisoned (k + i)))) s

/-- The bytes that the call left for its bounced out pointers, in the staging area (R368). -/
def State.stageOuts (s : State) (w : Who) (call : GateCall) : State :=
  let x := s.slot w
  (((x.bounces call).filter (fun p => p.1.isOut)).zip
    (((call.ptrs.filter (fun p => p.isOut)).zip call.outs).filter (fun p => decide ((x.pointer p.1).1 < 2 ^ 39)))).foldl
    (fun s p => let bs := p.2.2.take (x.pointer p.1.1).2
      s.stage x call.area p.1.2 bs (bs.map (fun _ => false))) s

/-- The gate's answer (R367, R368; log entry 12). -/
def State.gateReply (s : State) (w : Who) (call : GateCall) : State :=
  match s.gateRefusal w call with
  | some v => s.gateStatus w v
  | none =>
    if (s.slot w).code = 16 then s.setUdeleg w
    else if call.refused then s.gateStatus w gatePerm
    else
      let s := s.stageOuts w call
      let s := ((call.ptrs.filter (fun p => p.isOut)).zip call.outs).foldl (fun s p => s.copyOut w p.1 p.2) s
      s.setSlot w (((s.slot w).callRegs call.regs).setG 4 (call.result &&& dbl (2 ^ 63 - 1))).syscallReturn

/-- Whether a slot runs the supervisor handler of a SYSCALL, whose call it may pass to the gate (R305, R367). -/
def Slot.inSyscall (x : Slot) : Bool :=
  x.occ && decide (x.mode = .super) && decide (x.park = .ready) && decide (x.sup.cause = dbl Cause.syscall.code)

/-- SYSCALL_GATE_REPLY (R367, R368): the handler passes the call, whose in-bytes are copied, and the slot stays in it,
parked; then the gate replies, once no pointer's page is held (R362). -/
def execSyscallGateReply (core slot : Nat) (call : GateCall) (s : State) : Out :=
  let w : Who := ⟨core, slot⟩
  let x := s.slot w
  .next (if !s.coreRuns core then s
    else if call.take then
      if x.inSyscall then
        { s with cached := false }.setSlot w { x with park := .gate none, code := x.sup.tval.truncate 12 } |>.copyIns w call
      else s
    else if x.atGate then
      let s := { s with cached := false }
      match s.gateRefusal w call, s.gateHold x call with
      | none, some h => s.holdGate w h.1 h.2
      | _, _ => s.gateReply w call
    else s)

/-- Every SYSCALL parked at a die's gate returns EAGAIN, that of a stopped core at its resume (R344, R378, R379, R385). -/
def State.gateBusy (s : State) (die : Nat) : State :=
  (s.allThreads.filter (fun w => decide (dieOf w.core = die) && (s.slot w).atGate)).foldl (fun s w => s.tell w (.gate gateAgain)) s

/-! ### The debugger and the device OS at a slot (R364, R370, R388) -/

/-- DEBUGGER_RELEASE (R388): the slot goes on in its supervisor handler, while its core runs. -/
def execDebuggerRelease (core slot : Nat) (s : State) : Out :=
  .next (if s.coreRuns core ∧ (s.slot ⟨core, slot⟩).park = .debugger then s.setPark ⟨core, slot⟩ .ready else s)

/-- Whether the journal holds a record of a change that is not marked done (R377). -/
def State.openRecord (s : State) (c : Change) : Bool := s.sys.journal.any (fun r => decide (r.change = c) && !r.marked)
/-- A change written to the journal (R377). -/
def State.journaled (s : State) (c : Change) : State := s.setSys { s.sys with journal := s.sys.journal ++ [{ change := c, marked := false }] }
/-- The records of a change marked done (R377). -/
def State.markRecord (s : State) (c : Change) : State :=
  s.setSys { s.sys with journal := s.sys.journal.map (fun r => if r.change = c then { r with marked := true } else r) }
/-- A change of the device OS to shared state: a first step writes its journal record, and the next one makes the
change and marks the record done (R377; log entry 10). -/
def State.osChange (s : State) (c : Change) (f : State → State) : State :=
  if s.openRecord c then (f s).markRecord c else s.journaled c

/-- A kill as the journal holds it: of the thread that runs in the slot now. -/
def State.killOf (s : State) (w : Who) : Change := .kill w (s.slot w).thread
/-- KILL (R370, R377): the device OS kills a thread through the service pair, behind its journal record. -/
def execKill (core slot : Nat) (s : State) : Out :=
  .next (if s.leaderUp && (s.slot ⟨core, slot⟩).occ then s.osChange (s.killOf ⟨core, slot⟩) (fun s => s.kill ⟨core, slot⟩) else s)

/-- A shootdown's pages: all processes or one, and a range of addresses (R364). -/
structure Range where
  all : Bool
  pid : Nat
  lo : Nat
  hi : Nat

/-- Whether a page lies in a shootdown. -/
def Range.covers (r : Range) (pid : BitVec 16) (base size : Nat) : Bool :=
  (r.all || decide (pid.toNat = r.pid)) && decide (base < r.hi ∧ r.lo < base + size)

/-- Whether an agent translated the address of a request: a large core its own, a station those of the pages it serves (R45,
R364). -/
def State.servedBy (s : State) (agent : Nat) (src : Who) (va key : Nat) : Bool :=
  if 32 ≤ agent then decide (src.core = largeBase + (agent - 32))
  else decide (s.stationOf va (key - 2 ^ 60) (decide (2 ^ 61 ≤ key)) = agent)

/-- Whether an access translated to a key, and to shadow bytes, may go there by the tables as they stand now. -/
def State.freshKeys (s : State) (a : Access) (key : Nat) (shadow : Option Nat) : Bool :=
  match ({ s with cached := false } : State).translate a.part a.pid { a.op.need true with shadow := shadow.isSome } a.ea with
  | .ok k j => decide (k = key) && (shadow.isNone || decide (j = shadow))
  | _ => false

/-- Whether a shootdown's range holds the shadow bytes of an access to a TAGS page (R48, R364). -/
def State.coversShadow (s : State) (r : Range) (a : Access) : Option Nat :=
  match ({ s with cached := false } : State).leafOf a.part a.pid a.ea with
  | .leaf bits e =>
    let va := s.shadowVa a.part a.pid bits e a.ea
    if nbit e 10 && r.covers a.pid va ((a.size + 3) / 4) then some va else none
  | _ => none

/-- Whether a request that an agent translated through another mapping of the range than the present one is still to be
performed, its shadow bytes among it (R48, R364). -/
def State.inFlight (s : State) (agent : Nat) (r : Range) : Bool :=
  s.net.any (fun m => match m.body with
    | .access a =>
      let data := r.covers a.pid a.ea a.size
      let sh := s.coversShadow r a
      (match a.stage with
        | .edge k j => !s.freshKeys a k j && ((data && s.servedBy agent m.src a.ea k) ||
            sh.any (fun va => j.any (fun j => s.servedBy agent m.src va j)))
        | .shadow .. => data || sh.isSome
        | _ => false)
    | _ => false)

/-- The pending shootdown of a range. -/
def State.shoot (s : State) (r : Range) : Shoot :=
  (s.sys.shoots.find? (fun x => x.all == r.all && x.pid == r.pid && x.lo == r.lo && x.hi == r.hi)).getD
    { all := r.all, pid := r.pid, lo := r.lo, hi := r.hi, acked := [] }

/-- What an agent holds of a range dropped: a station its cached entries, a large core its cached lines (R364).  A walk
is one step of the model, so that none of the range is under way. -/
def State.dropPages (s : State) (agent : Nat) (r : Range) : State :=
  if 32 ≤ agent then
    let c := largeBase + (agent - 32)
    s.setCore c { s.core c with cache := (s.core c).cache.filter (fun l => !r.covers l.pid l.addr 64) }
  else { s with tlb := s.tlb.filter (fun t => !(decide (t.station = agent) && r.covers t.pid t.base t.size)) }

/-- The change that a shootdown is. -/
def Range.change (r : Range) : Change := .shoot r.all r.pid r.lo r.hi

/-- A shootdown at an agent: a station is 0-31, large core n is 32 + n.  It drops what it holds of the range, and
acknowledges once the requests that it translated through it are performed; the 96th acknowledgement ends the
shootdown, whose journal record is then marked done (R364, R377; log entry 27). -/
def State.shootAt (s : State) (agent : Nat) (r : Range) : State :=
  let s := s.dropPages agent r
  let x := s.shoot r
  let rest := s.sys.shoots.filter (fun y => !(y.all == r.all && y.pid == r.pid && y.lo == r.lo && y.hi == r.hi))
  let acked := if s.inFlight agent r || x.acked.contains agent then x.acked else x.acked ++ [agent]
  if 96 ≤ acked.length then (s.setSys { s.sys with shoots := rest }).markRecord r.change
  else s.setSys { s.sys with shoots := rest ++ [{ x with acked := acked }] }

/-- SHOOTDOWN (R364, R377): the leader's journal record first, then each agent's step. -/
def execShootdown (agent : Nat) (all : Bool) (pid lo hi : Nat) (s : State) : Out :=
  let r : Range := { all := all, pid := pid, lo := lo, hi := hi }
  .next (if agent < 96 && s.leaderUp then (if s.openRecord r.change then s.shootAt agent r else s.journaled r.change) else s)

end Sys2Proof.Machine
end

