-- ==== Sys2Proof/Machine/Launching.lean ====
section
/-! DEFINITION.  Launches: LAUNCH and LWAIT (R256, R257), and the distributor's steps: queues and eligibility, checks,
placement and completion (R14-R17, R33, R332-R343). -/

namespace Sys2Proof.Machine

/-! ### LAUNCH and LWAIT (R256, R257) -/

/-- Whether an address lies in V-space. -/
def inV (a : Nat) : Bool := decide (2 ^ 39 ≤ a) && decide (a < 2 ^ 56)

/-- The launches of a thread that have not written their completion records (R256). -/
def State.unfinished (s : State) (thread : Nat) : Nat := (s.launches.filter (fun l => decide (l.issuer = some thread))).length

/-- LAUNCH (R256). -/
def execLaunch (d a : BitVec 5) (s : State) : Out :=
  let r := s.g a
  .next (if r.toNat % 256 ≠ 0 then s.raise .align r
    else if !inV r.toNat then s.raise .access r
    else s.waitBoth (fun s =>
      if 16 ≤ s.unfinished s.me.thread then s.parkOn .launchRoom
      else s.sendAccess (s.mkAccess .launchRead (r + 16) 32 (.general d) false false .walk)))

/-- LWAIT: its read of the status field is a non-relaxed load (R257). -/
def execLwait (d a : BitVec 5) (s : State) : Out :=
  let r := s.g a
  .next (if r.toNat % 64 ≠ 0 then s.raise .align r
    else if !inV r.toNat then s.raise .access r
    else s.waitRelaxed (fun s => s.sendAccess (s.mkAccess .status r 4 (.general d) false false .walk)))

/-! ### Level tables (R14, R15, R334) -/

/-- Whether a level entry ends the table (R334). -/
def Level.ends (l : Level) : Bool := decide (l.kind = 0) || (decide (l.kind = 1) && decide (l.count = 0))

/-- The entries before the end of the table. -/
def tableLevels (ls : List Level) : List Level := ls.takeWhile (fun l => !l.ends)

/-- The spatial levels of a table: domain and count. -/
def spatialOf (ls : List Level) : List (Nat × Nat) := (ls.filter (fun l => decide (l.kind = 1))).map (fun l => (l.domain, l.count))
/-- The seed counts of a table's dynamic levels. -/
def seedsOf (ls : List Level) : List Nat := (ls.filter (fun l => decide (l.kind = 2))).map (fun l => l.count)

/-- How many units of a domain one unit of a wider domain contains: at most 7 SLOT units per CORE (R15). -/
def unitsIn (outer inner : Nat) : Nat := domainCores outer / domainCores inner * (if inner = 0 then 7 else 1)

/-- Whether an entry fails R334 or R15 behind the entries before it. -/
def levelBad (before : List Level) (l : Level) : Bool :=
  decide (l.rsv ≠ 0) || decide (l.kind ≠ 1 ∧ l.kind ≠ 2) || decide (6 < l.domain) || decide (7 < l.scope) ||
  decide (l.scope < l.domain) ||
  (decide (l.kind = 2) && (decide (l.domain ≠ 1) || decide (7 < l.count))) ||
  (decide (l.kind = 1) && (before.any (fun b => decide (b.kind = 2)) ||
    (match (spatialOf before).getLast? with
      | some (d, _) => decide (d ≤ l.domain) || decide (unitsIn d l.domain < l.count)
      | none => false)))

/-- The level that makes a table fail: the first entry that fails, or 0 for a table with no spatial level (R339). -/
def badLevel (before : List Level) : List Level → Option Nat
  | [] => if before.any (fun l => decide (l.kind = 1)) then none else some 0
  | l :: rest => if levelBad before l then some before.length else badLevel (before ++ [l]) rest

/-- The levels inside a gang: those of the table past level 0, completed by the implied levels of R14.  A gang of
domain SLOT runs one slot of its core. -/
def innerLevels (sp : List (Nat × Nat)) : List (Nat × Nat) :=
  let last := (sp.getLast?.map (fun p => p.1)).getD 0
  let implied := if last = 0 then [] else (if 1 < last then [(1, domainCores last)] else []) ++ [(0, 1)]
  match sp with
  | (0, _) :: _ => [(0, 1)]
  | _ => sp.drop 1 ++ implied

/-- The units that one level takes inside units (first core and slot), by index within each enclosing unit: under DET
unit k takes index k, otherwise the distributor's pick (R338). -/
def placeLevel (det : Bool) (d c : Nat) (picks : List Nat) (us : List (Nat × Nat)) : List (Nat × Nat) :=
  us.zipIdx.flatMap (fun u => (List.range c).map (fun k =>
    let j := if det then k else picks.getD (u.2 * c + k) 0
    if d = 0 then (u.1.1 + j / 7, j % 7) else (u.1.1 + j * domainCores d, 0)))

/-- The members of a gang in the order of their index (R17). -/
def placeLevels (det : Bool) : List (Nat × Nat) → List (List Nat) → List (Nat × Nat) → List (Nat × Nat)
  | [], _, us => us
  | (d, c) :: rest, ps, us => placeLevels det rest (ps.drop 1) (placeLevel det d c (ps.headD []) us)

/-- Whether the picks of a level are distinct indices inside the enclosing unit (R338). -/
def pickOk (outer d c : Nat) (picks : List Nat) (n : Nat) : Bool :=
  decide (picks.length = n * c) && (List.range n).all (fun u =>
    let p := (picks.drop (u * c)).take c
    p.all (fun j => decide (j < unitsIn outer d)) && decide (p.eraseDups.length = c))

/-- Whether the picks of a gang are usable (R338). -/
def picksOk : Nat → List (Nat × Nat) → List (List Nat) → Nat → Bool
  | _, [], ps, _ => decide (ps = [])
  | outer, (d, c) :: rest, ps, n => pickOk outer d c (ps.headD []) n && picksOk d rest (ps.drop 1) (n * c)

/-! ### The launch record (R333, R334, R339, R341) -/

/-- The level entry of 64 bits (R334). -/
def levelOf (n : Nat) : Level :=
  { count := nfield n 32 32, rsv := nfield n 24 8, scope := nfield n 16 8, domain := nfield n 8 8, kind := nfield n 0 8 }

/-- The lowest bit of the fields of a record that make it BADREC in a queue's partition (R339). -/
def badFieldOf (n part : Nat) : Option Nat :=
  let sig := nfield n 192 64
  let kind := nfield sig 62 2
  let entry := nfield n 0 64
  let dep := nfield n 256 64
  ([(0, decide (entry % 4 ≠ 0) || !inV entry), (128, !doneOk (nfield n 128 64)), (192, decide (kind = 3)),
    (203, decide (kind = 2) && decide (nfield sig 11 5 ≠ 0)), (212, decide (nfield sig 20 42 ≠ 0)),
    (256, decide (dep ≠ 0) && (decide (dep % 8 ≠ 0) || !inV dep)), (320, decide (23 < nfield n 320 8)),
    (328, decide (nfield n 328 4 ≠ part)), (332, decide (nfield n 332 4 ≠ 0)), (338, decide (nfield n 338 174 ≠ 0)),
    (1024, decide (nfield n 1024 64 ≠ 0)), (1088, decide (nfield n 1088 64 ≠ 0)), (1152, decide (nfield n 1152 8 ≠ 0)),
    (1160, decide (nfield n 1160 8 ≠ 0)), (1168, decide (nfield n 1168 16 ≠ 0)), (1184, decide (nfield n 1184 32 ≠ 0)),
    (1216, decide (nfield n 1216 832 ≠ 0))].find? (fun p => p.2)).map (fun p => p.1)

/-- Whether a dep field names a counter (R333). -/
def depOk (a : Word) : Bool := decide (a ≠ 0) && decide (a.toNat % 8 = 0) && inV a.toNat

/-- A record read by the distributor (R333, R336): its software fields copied, waiting on its counter if it has one. -/
def parseLaunch (n id addr part prio : Nat) (pid : BitVec 16) (thread : Option Nat) (now : Nat) : Launch :=
  { id := id, addr := addr, part := part, pid := pid, entry := dbl (nfield n 0 64), args := dbl (nfield n 64 64),
    done := dbl (nfield n 128 64), signal := dbl (nfield n 192 64), dep := dbl (nfield n 256 64), prio := nfield n 320 8,
    recPart := nfield n 328 4, zero := nbit n 336, det := nbit n 337,
    levels := (List.range 8).map (fun j => levelOf (nfield n (512 + 64 * j) 64)), badField := badFieldOf n part,
    state := if depOk (dbl (nfield n 256 64)) then .waitDep else .queued
    eprio := prio, enq := now, own := prio, issuer := thread, since := none, checked := false, gangs := 0, held := [],
    started := 0, start := 0, faults := 0, sweeps := 0, lastSums := none, status := 0, detail := 0 }

/-- The code of a state (R333). -/
def LState.code : LState → Nat
  | .queued => 1 | .waitDep => 2 | .placing => 3 | .running => 4 | .ended => 5

/-! ### Queues (R336, R337) -/

/-- A queue of a partition, oldest launch first. -/
def State.queueOf (s : State) (p prio : Nat) : List Nat := mapGet (s.part p).queues [] prio
/-- A queue replaced. -/
def State.setQueue (s : State) (p prio : Nat) (l : List Nat) : State :=
  s.setPart p { s.part p with queues := mapPut (s.part p).queues prio l }

/-- The hardware fields of a record as bytes 128-151: link, enq, eprio, state, pid and gangs (R333). -/
def Launch.hardware (l : Launch) (link : Nat) : List Byte :=
  leBytes 8 link ++ leBytes 8 l.enq ++ leBytes 8 (l.eprio % 2 ^ 8 + l.state.code * 2 ^ 8 + l.pid.toNat * 2 ^ 16 + l.gangs * 2 ^ 32)

/-- The launch behind another in its queue (R333). -/
def State.linkOf (s : State) (l : Launch) : Nat :=
  match ((s.queueOf l.part l.eprio).dropWhile (fun i => i != l.id)).drop 1 with
  | i :: _ => ((s.launch? i).map (fun l => l.addr)).getD 0
  | [] => 0

/-- The sender of a distributor's messages: the slot is the partition of a doorbell's, and 0 of the others. -/
def doorbellCore : Nat := 2 ^ 20

/-- Whether a message holds the hardware fields of the record at an address under a process. -/
def Msg.holdsFields (m : Msg) (pid : BitVec 16) (addr : Nat) : Bool :=
  match m.body with
  | .fields _ p _ a _ _ _ => p == pid && decide (a = addr)
  | _ => false

/-- Hardware fields that wait while their page is held (R343, R362): newer fields of a record take the place of those
that wait already. -/
def State.holdFields (s : State) (l : Launch) (bs : List Byte) (ask : Bool) (va : Nat) : State :=
  match s.net.find? (fun m => m.holdsFields l.pid (l.addr + 128)) with
  | some m => match m.body with
    | .fields part pid launch a _ since asked => s.rebody m.id (.fields part pid launch a bs since asked)
    | _ => s
  | none =>
    let w : Who := ⟨doorbellCore, 0⟩
    (s.askHeld ask none l.part l.pid w l.id va).send w 0
      (.fields l.part l.pid l.id (l.addr + 128) bs s.sys.meridian ask)

/-- The hardware fields written to a launch's record: a held page makes them wait, and a write that meets a cause is left
out (R333, R343, R362; log entry 16). -/
def State.publish (s : State) (id : Nat) : State :=
  match s.launch? id with
  | none => s
  | some l =>
    let bs := l.hardware (s.linkOf l)
    match s.vspan l.part l.pid true false (l.addr + 128) 24 with
    | .ok ps => ({ s with net := s.net.filter (fun m => !m.holdsFields l.pid (l.addr + 128)) } : State).putPieces ps bs
    | .held ask va => s.holdFields l bs ask va
    | _ => s
/-- The hardware fields of every record of a queue written. -/
def State.publishQueue (s : State) (p prio : Nat) : State := (s.queueOf p prio).foldl (fun s i => s.publish i) s

/-- A launch leaves its queue. -/
def State.dequeue (s : State) (l : Launch) : State :=
  (s.setQueue l.part l.eprio ((s.queueOf l.part l.eprio).filter (fun i => i != l.id))).publishQueue l.part l.eprio

/-- Whether a launch in its queue may be served (R337). -/
def Launch.eligible (l : Launch) : Bool := decide (l.state ≠ .waitDep) && decide (l.state ≠ .ended)

/-- The launch that a queue offers: the one that holds its head until its last gang is placed, or else the oldest
eligible one (R338, R340). -/
def State.offered (s : State) (q : List Nat) : Option Launch :=
  let ls := (q.filterMap (fun i => s.launch? i)).filter (fun l => l.eligible)
  match ls.find? (fun l => l.head) with
  | some l => some l
  | none => ls.head?
/-- The launch that the distributor serves: that of the highest queue that offers one (R338). -/
def State.pick (s : State) (p : Nat) : Option Launch := (List.range 24).findSome? (fun k => s.offered (s.queueOf p (23 - k)))
/-- Whether every launch that waits on a counter has been read again since the last completion (R337). -/
def State.rereadDone (s : State) (p : Nat) : Bool :=
  s.launches.all (fun l => !(l.due && decide (l.part = p) && decide (l.state = .waitDep)))

/-- The distributor's report (R343): the die of the partition's lowest super-group. -/
def State.distReport (s : State) (p : Nat) (c : Cause) (addr detail : Nat) (pid : BitVec 16) : FaultRec :=
  let sg := ((List.range 16).find? (fun k => (s.part p).sgs.getLsbD k)).getD 0
  { cause := c, agent := 8, id := sg / 2, slot := 0, addr := dbl addr, cursor := 0, detail := dbl detail, pid := pid }

/-- The units of a placement released and its launch back at the head of its queue (R340). -/
def State.rollback (s : State) (p : Nat) : State :=
  match (s.part p).placing with
  | none => s
  | some x =>
    let s := s.setPart p { s.part p with placing := none }
    let s := s.updLaunch x.launch (fun l => { l with
      held := l.held.filter (fun h => h.1 != x.first)
      state := if l.gangs = 0 then .queued else .running })
    s.publish x.launch

/-- A partial placement rolled back when an eligible launch of higher eprio stands in a queue (R340). -/
def State.reconsider (s : State) (p : Nat) : State :=
  match (s.part p).placing, s.pick p with
  | some x, some l =>
    if (match s.launch? x.launch with | some k => decide (k.eprio < l.eprio) | none => false) then s.rollback p else s
  | _, _ => s

/-- A launch queued at the tail of its queue (R336, R337). -/
def State.enqueue (s : State) (l : Launch) : State :=
  let s := { s with launches := s.launches ++ [l], nextId := s.nextId + 1 }
  ((s.setQueue l.part l.eprio (s.queueOf l.part l.eprio ++ [l.id])).publishQueue l.part l.eprio).reconsider l.part

/-- What a distributor's read finds: a number, a cause, or a hold. -/
inductive DistRead where
  | ok (n : Nat)
  | fault (c : Cause)
  | held (ask : Bool)
  | missing (pa : Nat)

/-- A distributor's read of V-space under a process (R343, R362): ranges and poison turn it away as a load. -/
def State.distRead (s : State) (part : Nat) (pid : BitVec 16) (since : Option Nat) (va n : Nat) : DistRead :=
  match s.vspan part pid false (s.ripe since) va n with
  | .missing pa => .missing pa
  | .fault c _ => .fault c
  | .held ask _ => .held ask
  | .ok ps =>
    if blocksLoad (s.vMeets pid va (va + n)) then .fault .rangeLocked
    else if s.poisonPieces ps then .fault .poison
    else .ok (leNat (s.getPieces ps))

/-- A doorbell write dropped and counted (R336). -/
def State.dropBell (s : State) (p prio : Nat) : State :=
  s.setPart p { s.part p with qdropped := mapPut (s.part p).qdropped prio (min 65535 (mapGet (s.part p).qdropped 0 prio + 1)) }

/-- The thread behind a LAUNCH's record, if it still waits. -/
def State.issuerOf (s : State) (m : Msg) : Option Nat :=
  if (s.slot m.src).park = .reply m.id then some (s.slot m.src).thread else none

/-- A record that could not be read (R343). -/
def State.recordLost (s : State) (m : Msg) (part prio addr : Nat) (pid : BitVec 16) (c : Cause) : State :=
  let s := (s.drop m.id).post part 0 (s.distReport part c addr 0 pid)
  if m.src.core = doorbellCore then s.dropBell part prio else s.status m.src m.id m.rd 1

/-- The distributor reads a record and queues it: one from a doorbell in the queue its offset names under the
partition's process, one from LAUNCH in the record's partition at the lower of its prio and the issuing launch's
(R256, R336, R343). -/
def State.takeRecord (s : State) (m : Msg) (addr prio : Nat) (since : Option Nat) : Out :=
  let bell := decide (m.src.core = doorbellCore)
  let part := if bell then m.src.slot else (s.slot m.src).part
  let pid := if bell then (s.part part).pid else (s.slot m.src).pid
  if bell && decide (pid = 0) then .next ((s.drop m.id).dropBell part prio)
  else match s.distRead part pid since addr 256 with
    | .missing pa => .fault (.noSuchMemory pa)
    | .fault c => .next (s.recordLost m part prio addr pid c)
    | .held ask =>
      let w : Who := if bell then ⟨doorbellCore, 0⟩ else m.src
      .next ((s.askHeld ask since part pid w 0 addr).rebody m.id (.record addr prio (some (since.getD s.sys.meridian))))
    | .ok n =>
      let q := if bell then prio else min prio (nfield n 320 8)
      let l := parseLaunch n s.nextId addr part q pid (s.issuerOf m) s.sys.meridian
      .next (((s.drop m.id).enqueue l).status m.src m.id m.rd 0)

/-- LAUNCH_RECORD_SENT (R256, R343). -/
def execLaunchRecordSent (id : Nat) (s : State) : Out :=
  match s.msg? id with
  | some m =>
    match m.body with
    | .record addr prio since =>
      if m.src.core ≠ doorbellCore && (!s.coreRuns m.src.core || decide ((s.slot m.src).park ≠ .reply id)) then
        .next (if s.coreRuns m.src.core then s.drop id else s)
      else { s with cached := false }.takeRecord m addr prio since
    | _ => .next s
  | none => .next s

/-- QDB (R336): a doorbell write; a record whose read is held waits as LAUNCH_RECORD_SENT takes it up. -/
def execQdb (part prio : Nat) (addr : BitVec 64) (s : State) : Out :=
  if 23 < prio ∨ 15 < part ∨ !(s.part part).valid ∨ !s.sys.hostUp then .next s
  else if addr.toNat % 256 ≠ 0 ∨ !inV addr.toNat ∨ (s.part part).pid = 0 then .next (s.dropBell part prio)
  else
    let w : Who := ⟨doorbellCore, part⟩
    let body := Body.record addr.toNat prio none
    ({ s with cached := false }.send w 0 body).takeRecord ⟨s.nextId, w, 0, body⟩ addr.toNat prio none

/-- A launch that ends before anything of it starts (R337, R339). -/
def State.endLaunch (s : State) (l : Launch) (status detail : Nat) : State :=
  let s := s.dequeue l
  (s.updLaunch l.id (fun l => { l with state := .ended, status := status, detail := detail, since := none })).publish l.id

/-- DEPENDENCE_REREAD (R337, R343). -/
def execDependenceReread (launch : Nat) (s : State) : Out :=
  match s.launch? launch with
  | some l =>
    if l.state ≠ .waitDep then .next s
    else
      let s := { s with cached := false }.updLaunch l.id (fun l => { l with due := false })
      match s.distRead l.part l.pid l.since l.dep.toNat 8 with
      | .missing pa => .fault (.noSuchMemory pa)
      | .fault c => .next ((s.post l.part l.id (s.distReport l.part c l.dep.toNat 0 l.pid)).endLaunch l 5 c.code)
      | .held ask =>
        .next ((s.askHeld ask l.since l.part l.pid ⟨doorbellCore, 0⟩ l.id l.dep.toNat).updLaunch l.id
          (fun l => { l with since := some (l.since.getD s.sys.meridian) }))
      | .ok n =>
        .next (if n = 0 then
            ((s.updLaunch l.id (fun l => { l with state := .queued, since := none })).publish l.id).reconsider l.part
          else if 2 ^ 63 ≤ n then s.endLaunch l 5 0
          else (s.updLaunch l.id (fun l => { l with since := none })).publish l.id)
  | none => .next s

/-- Whether a launch has stood in its queue for longer than the queue's patience: also one that is being placed, or runs
and has gangs left (R337). -/
def State.overdue (s : State) (l : Launch) : Bool :=
  (s.queueOf l.part l.eprio).contains l.id &&
  decide (l.eprio < 23 ∧ 1000 * mapGet (s.part l.part).patience 2000 l.eprio < s.sys.meridian - l.enq)

/-- QUEUE_AGING (R337): a launch that has stood in its queue for longer than the queue's patience moves to the tail of
the next queue, behind the overdue launches that stand before it, which move first.  One that holds the head keeps it
(R338; log entry 16). -/
def execQueueAging (launch : Nat) (s : State) : Out :=
  .next (match s.launch? launch with
    | some l =>
      let before := ((s.queueOf l.part l.eprio).takeWhile (fun i => i != l.id)).filterMap (fun i => s.launch? i)
      if !s.overdue l || before.any (fun k => s.overdue k) then s
      else
        let s := s.dequeue l
        let s := s.setQueue l.part (l.eprio + 1) (s.queueOf l.part (l.eprio + 1) ++ [l.id])
        let s := s.updLaunch l.id (fun l => { l with eprio := l.eprio + 1, enq := s.sys.meridian })
        ({ s with cached := false }.publishQueue l.part (l.eprio + 1)).reconsider l.part
    | none => s)

/-! ### Checks and placement (R338-R340) -/

/-- Whether every core of a unit lies in a partition (R332). -/
def State.unitIn (s : State) (p d first : Nat) : Bool :=
  let n := domainCores d
  decide (first % n = 0) && decide (first + n ≤ 65536) && (s.part p).valid &&
  (List.range (ceilDiv n 4096)).all (fun k => (s.part p).sgs.getLsbD (sgOf first + k))

/-- The units of a domain that exist in a partition, by first core. -/
def State.unitsOf (s : State) (p d : Nat) : List Nat :=
  ((List.range (65536 / domainCores d)).map (fun k => k * domainCores d)).filter (fun b => s.unitIn p d b)

/-- The outermost spatial level of a launch. -/
def Launch.outer (l : Launch) : Nat × Nat := (spatialOf (tableLevels l.levels)).headD (1, 0)

/-- The check of a launch that reaches the head (R339): its status and detail, or none. -/
def State.headStatus (s : State) (l : Launch) : Option (Nat × Nat) :=
  match l.badField with
  | some b => some (2, b)
  | none =>
    match badLevel [] (tableLevels l.levels) with
    | some k => some (3, k)
    | none => if (s.unitsOf l.part l.outer.1).length < l.outer.2 then some (4, 0) else none

/-- LAUNCH_HEAD_CHECK (R339). -/
def execLaunchHeadCheck (part : Nat) (s : State) : Out :=
  .next (match s.pick part with
    | some l =>
      if l.checked || !s.rereadDone part then s
      else match s.headStatus l with
        | some (st, d) => { s with cached := false }.endLaunch l st d
        | none => s.updLaunch l.id (fun l => { l with checked := true })
    | none => s)

/-- Whether a unit's cores are free: no launch holds one (R338). -/
def State.unitFree (s : State) (first n : Nat) : Bool :=
  s.launches.all (fun l => l.held.all (fun h => !overlaps first (first + n) h.1 (h.1 + h.2)))

/-- Whether a unit lies in a super-group whose placements are withheld (R401). -/
def State.unitWithheld (s : State) (first n : Nat) : Bool :=
  s.sys.withheld.any (fun k => overlaps first (first + n) (4096 * k) (4096 * k + 4096))

/-- Whether the distributor may take a unit for the next gang (R338, R401): a free one, the lowest under DET. -/
def State.unitTaken (s : State) (l : Launch) (first : Nat) : Bool :=
  let d := l.outer.1
  s.unitIn l.part d first && s.unitFree first (domainCores d) && !s.unitWithheld first (domainCores d) &&
  (!l.det || decide ((s.unitsOf l.part d).find? (fun b => s.unitFree b (domainCores d)) = some first))

/-- Whether a partition starts placements: not from the request of a stop to its resume (R344, R385). -/
def State.placementOn (s : State) (p : Nat) : Bool := (s.part p).valid && decide ((s.part p).run = .running)
/-- Whether a placement that has begun goes on: a Nightfall lets a gang commit until T (R385). -/
def State.commitOn (s : State) (p : Nat) : Bool :=
  match (s.part p).run with
  | .running => (s.part p).valid
  | .stopping t => (s.part p).valid && decide (s.sys.meridian < t)
  | _ => false

/-- SELECT_AND_RESERVE (R340): first is the first core of the unit that the distributor chooses. -/
def execSelectAndReserve (part first : Nat) (s : State) : Out :=
  .next (match (s.part part).placing, s.pick part with
    | none, some l =>
      if !l.checked || !s.rereadDone part || !s.placementOn part || !s.unitTaken l first then s
      else
        let n := domainCores l.outer.1
        let s := s.setPart part { s.part part with placing := some { launch := l.id, first := first, cores := n, prepared := false } }
        ({ s with cached := false }.updLaunch l.id (fun l => { l with state := .placing, head := true, held := l.held ++ [(first, n)] })).publish l.id
    | _, _ => s)

/-- Bytes lo up to hi of the user areas of cores zero-filled: every byte 0, every side tag 62, no poison mark and no
live object (R16, R40, R340). -/
def State.zeroFill (s : State) (first n lo hi : Nat) : State :=
  let hit := fun (k : Nat) => decide (first ≤ k / 2 ^ 20 ∧ k / 2 ^ 20 < first + n ∧ lo ≤ k % 2 ^ 20 ∧ k % 2 ^ 20 < hi)
  { s with
    mem := s.mem.filter (fun p => !hit p.1)
    stags := s.stags.filter (fun p => !hit (4 * p.1))
    poison := s.poison.filter (fun p => !hit (4 * p.1))
    cores := s.cores.map (fun (p : Nat × Core) =>
      if first ≤ p.1 ∧ p.1 < first + n then
        (p.1, { p.2 with
          objects := p.2.objects.filter (fun o => !decide (lo ≤ o.1 ∧ o.1 < hi))
          blocks := if hi = reservedBase then [] else p.2.blocks })
      else p) }

/-- Whether a placement's launch asks for zeroed user areas (R16). -/
def State.zeroes (s : State) (x : Placing) : Bool := decide ((s.launch? x.launch).map (fun l => l.zero) = some true)

/-- The zero-fill of a placement passes n more lines of 64 bytes; where a rollback stops it, the bytes already zeroed
stay zero (R340). -/
def State.zeroMore (s : State) (part n : Nat) : State :=
  match (s.part part).placing with
  | some x =>
    if x.prepared || !s.commitOn part || !s.zeroes x then s
    else
      let hi := min reservedBase (x.zeroed + 64 * n)
      (s.zeroFill x.first x.cores x.zeroed hi).setPart part { s.part part with placing := some { x with zeroed := hi } }
  | none => s

/-- PREPARE (R340): the zero-fill, or what is left of it, is done and the placement is ready to commit. -/
def execPrepare (part : Nat) (s : State) : Out :=
  .next (match (s.part part).placing with
    | some x =>
      if x.prepared || !s.commitOn part then s
      else
        let s := if s.zeroes x then s.zeroFill x.first x.cores x.zeroed reservedBase else s
        s.setPart part { s.part part with placing := some { x with prepared := true } }
    | none => s)

/-- A tile's array as a gang finds it (R330). -/
def Tile.clearArray (t : Tile) : Tile :=
  { t with live := .reset, shadow := .reset, accs := [], amode := .unset, queue := [], joining := [], gops := 0, pendErr := [],
           covFp := false, cover := [], spans := 0 }

/-- The arrays of a gang's tiles cleared, but for a tile of which another launch or gang holds a core (R330; log
entry 16). -/
def State.clearArrays (s : State) (first n : Nat) : State :=
  { s with tiles := s.tiles.map (fun (p : Nat × Tile) =>
      if overlaps first (first + n) (16 * p.1) (16 * p.1 + 16) && !s.launches.any (fun l => l.held.any (fun h =>
          decide (h.1 ≠ first) && overlaps h.1 (h.1 + h.2) (16 * p.1) (16 * p.1 + 16))) then (p.1, p.2.clearArray)
      else p) }

/-- One member of a gang started (R17). -/
def State.startMember (s : State) (l : Launch) (index : Nat) (m : Nat × Nat) : State :=
  let w : Who := ⟨m.1, m.2⟩
  let x := s.fresh w l l.entry .spatial l.gangs
  s.place w ((x.setG 4 l.args).setG 5 (dbl index)) l.id

/-- The seed tasks of a gang put on its cores' run lists, after its spatial threads (R335). -/
def State.placeSeeds (s : State) (l : Launch) (first n : Nat) : State :=
  let es := (seedsOf (tableLevels l.levels)).flatMap (fun c => (List.range c).map (fun k => RunEntry.seed k l.id))
  if es = [] then s
  else (List.range n).foldl (fun s j =>
    let k := s.core (first + j)
    s.setCore (first + j) { k with runList := k.runList ++ es }) s

/-- The members of the gang of a placement. -/
def Launch.members (l : Launch) (first : Nat) (picks : List (List Nat)) : List (Nat × Nat) :=
  placeLevels l.det (innerLevels (spatialOf (tableLevels l.levels))) picks [(first, 0)]

/-- COMMIT (R16, R17, R335, R340): the members start together, then the seeds are placed; picks are the units that the
distributor chose inside the gang, level by level. -/
def execCommit (part : Nat) (picks : List (List Nat)) (s : State) : Out :=
  .next (match (s.part part).placing with
    | some x =>
      match s.launch? x.launch with
      | some l =>
        let inner := innerLevels (spatialOf (tableLevels l.levels))
        let ms := l.members x.first picks
        if !x.prepared || !s.commitOn part || !(l.det || picksOk (max 1 l.outer.1) inner picks 1) ||
            ms.any (fun m => (s.slot ⟨m.1, m.2⟩).occ) then s
        else
          let s := s.clearArrays x.first x.cores
          let s := ms.zipIdx.foldl (fun s m => s.startMember l (l.gangs * ms.length + m.2) m.1) s
          let s := s.placeSeeds l x.first x.cores
          let s := s.setPart part { s.part part with placing := none }
          let s := s.updLaunch l.id (fun l => { l with
            gangs := l.gangs + 1, state := .running, start := if l.gangs = 0 then s.sys.meridian else l.start })
          let s := { s with cached := false }.publish l.id
          if l.gangs + 1 = l.outer.2 then s.dequeue l else s
      | none => s
    | none => s)

/-! ### Completion (R33, R341-R343) -/

/-- Whether a list of contexts holds one of a launch. -/
def ctxOf (l : List Ctx) (id : Nat) : Bool := l.any (fun c => decide (c.launch = id))

/-- Whether work of a launch waits at a core (R27, R325). -/
def Core.works (c : Core) (id : Nat) : Bool :=
  ctxOf c.arrival id || ctxOf c.spill id || c.runList.any (fun e => match e with
    | .task _ l => decide (l = id)
    | .seed _ l => decide (l = id)
    | .phase _ _ _ _ l _ => decide (l = id))

/-- Whether a message in flight keeps a launch from completing: a context on its way, or an operation not acknowledged
(R33). -/
def Body.works (b : Body) (id : Nat) : Bool :=
  match b with
  | .packet c _ _ st _ => decide (st ≠ 1) && decide (c.launch = id)
  | .access a => a.ff && decide (a.launch = id)
  | .decrement _ _ l _ => decide (l = id)
  | _ => false

/-- Whether a tile has an engine job, an array operation or a certification of a launch to finish (R33). -/
def Tile.works (t : Tile) (id : Nat) : Bool :=
  (t.engine.committed.toList ++ t.engine.live.toList ++ t.engine.suspended).any (fun j => decide (j.launch = id)) ||
  t.queue.any (fun o => decide (o.launch = id))

/-- Whether a context that an Eventide has switched out holds work of a launch (R33, R345). -/
def Image.works (i : Image) (id : Nat) : Bool :=
  i.slots.any (fun p => p.2.occ && decide (p.2.launch = id)) || i.cores.any (fun p => p.2.works id) ||
  i.tiles.any (fun p => p.2.works id) || i.net.any (fun m => m.body.works id)

/-- Whether a launch has finished; its writes to the host have passed the ordering point (R33, R135; log entry 16). -/
def State.finished (s : State) (l : Launch) : Bool :=
  decide (l.state = .ended) ||
  (decide (l.state = .running) && !(s.queueOf l.part l.eprio).contains l.id &&
   s.slots.all (fun p => !(p.2.occ && decide (p.2.launch = l.id))) &&
   !s.posted.any (fun q => decide (q.launch = l.id)) && s.cores.all (fun p => !p.2.works l.id) && s.net.all (fun m => !m.body.works l.id) && s.tiles.all (fun p => !p.2.works l.id) &&
   (s.part l.part).images.all (fun i => !i.works l.id))

/-- The status that a completing launch has: DONE unless it ended otherwise (R342). -/
def Launch.finalStatus (l : Launch) : Nat := if l.status = 0 then 1 else l.status

/-- The completion record (R342). -/
def Launch.completion (l : Launch) (now : Nat) : List Byte :=
  leBytes 4 l.finalStatus ++ leBytes 4 l.faults ++ leBytes 8 l.start ++ leBytes 8 now ++ leBytes 4 l.started ++
  leBytes 4 l.gangs ++ leBytes 4 l.sweeps ++ leBytes 4 l.detail ++ leBytes 24 0

/-- A launch that waits on its counter in a partition, to be read again (R337). -/
def Launch.rereadIn (l : Launch) (p : Nat) : Launch := if l.part = p ∧ l.state = .waitDep then { l with due := true } else l

/-- The end of a launch: its units are released, its record says ENDED, and its signal is sent; the counters of the
launches that wait in its partition are to be read again (R337, R338, R341, R342). -/
def State.finishLaunch (s : State) (l : Launch) : State :=
  let s := (s.updLaunch l.id (fun l => { l with state := .ended, held := [] })).publish l.id
  let ls := s.launches.filter (fun k => k.id != l.id)
  let s := { s with launches := ls.map (fun (k : Launch) => k.rereadIn l.part) }
  s.signal l.signal [l.done, dbl l.finalStatus] l.id

/-- A completion record that could not be written (R343). -/
def State.recordUnwritten (s : State) (l : Launch) (c : Cause) : State :=
  (s.post l.part 0 (s.distReport l.part c l.done.toNat l.finalStatus l.pid)).finishLaunch l

/-- LAUNCH_COMPLETION (R33, R342, R343): the completion record, then the signal. -/
def execLaunchCompletion (launch : Nat) (s : State) : Out :=
  match s.launch? launch with
  | some l =>
    if !s.finished l then .next s
    else
      let s := { s with cached := false }
      if !doneOk l.done.toNat then .next (s.finishLaunch l)
      else match s.vspan l.part l.pid true (s.ripe l.since) l.done.toNat 64 with
        | .missing pa => .fault (.noSuchMemory pa)
        | .fault c _ => .next (s.recordUnwritten l c)
        | .held ask va =>
          .next ((s.askHeld ask l.since l.part l.pid ⟨doorbellCore, 0⟩ l.id va).updLaunch l.id
            (fun l => { l with since := some (l.since.getD s.sys.meridian) }))
        | .ok ps =>
          if blocksStore (s.vMeets l.pid l.done.toNat (l.done.toNat + 64)) then .next (s.recordUnwritten l .rangeLocked)
          else
            .next ((s.putPieces ps (l.completion s.sys.meridian)).finishLaunch l)
  | none => .next s

/-- Whether the loader may write a core for a placement: a prepared core of its gang, where the launch's first gang has
not started or the gang's zero-fill has just passed, and before the first gang starts also any core of the partition
that no other launch holds (R182, R324; log entry 17). -/
def State.mayLoad (s : State) (core p : Nat) : Bool :=
  match (s.part p).placing with
  | some x =>
    let first := decide ((s.launch? x.launch).map (fun l => l.gangs) = some 0)
    x.prepared && ((decide (x.first ≤ core ∧ core < x.first + x.cores) && (first || s.zeroes x)) ||
      (first && !isLarge core && s.inPart p core && (s.holder core).isNone))
  | none => false

/-- The loader writes an image of a core's scratchpad before the threads start: with tag 62, and bit 31 of the count word
of each of the image's task counter records cleared (R182, R324). -/
def State.loadImage (s : State) (core off : Nat) (data : List Byte) (records : List Nat) : State :=
  if (List.range 16).any (fun p => s.mayLoad core p) && decide (off + data.length ≤ reservedBase) then
    let s := s.storeSpad (spadKey core off) data
    records.foldl (fun s r => if off ≤ r ∧ r + 4 ≤ off + data.length then s.setCountWord core r (s.countWord core r % 2 ^ 31) else s) s
  else s

/-- Firmware places the serial part of a launch on a large core that serves its partition, in a free context: with the
state of a thread's start, g4 := args, and g2 and g5 at 0 (R380, R398; log entry 32). -/
def State.placeSerial (s : State) (launch core : Nat) : State :=
  match s.launch? launch with
  | some l =>
    if isLarge core && s.leaderUp && s.inPart l.part core && s.coreRuns core && l.checked && decide (l.state ≠ .ended) then
      match s.freeUser core with
      | some k =>
        let w : Who := ⟨core, k⟩
        s.place w ((((s.fresh w l l.entry .spatial 0).setG 2 0).setG 4 l.args).setG 5 0) l.id
      | none => s
    else s
  | none => s

/-- Firmware places supervisor code in the service slot of a small core, under its partition's process (R9; log entry
17). -/
def State.placeSupervisor (s : State) (core : Nat) (pc : Word) : State :=
  let w : Who := ⟨core, 7⟩
  if isLarge core || !s.leaderUp || (s.slot w).occ then s
  else match s.partOf core with
    | some p =>
      { s with nextId := s.nextId + 1 }.setSlot w
        { (s.slot w).start (wordAddr pc) 0 (s.part p).pid p 0 .spatial with mode := .super, thread := s.nextId }
    | none => s

end Sys2Proof.Machine
end

