-- ==== Sys2Proof/Machine/Heap.lean ====
section
/-! DEFINITION.  The heap: major 0x22 and the die allocator engines (R60, R61, R246; log entry 9). -/

namespace Sys2Proof.Machine

/-- ALLOC: sent to the engine of the thread's die (R246). -/
def execAlloc (d a : BitVec 5) (s : State) : Out :=
  .next (s.waitRelaxed (fun s => (s.send s.cur d (.alloc (s.g a) none)).setPark s.cur (.reply s.nextId)))
/-- FREE (R246). -/
def execFree (a : BitVec 5) (s : State) : Out :=
  .next (s.waitRelaxed (fun s => (s.send s.cur 0 (.free (s.g a) none)).setPark s.cur (.reply s.nextId)))

/-- The bytes of a chunk (R60). -/
def chunkBytes : Nat := 2 ^ 21

/-- The block size of n bytes: 2^max(4, ⌈log2 n⌉) (R60). -/
def blockSize (n : Nat) : Nat := 2 ^ max 4 (clog2 n)
/-- The offset of a chunk's first block (R60). -/
def firstBlock (size : Nat) : Nat := max 64 size
/-- The blocks of a chunk (R60). -/
def blockCount (size : Nat) : Nat := (chunkBytes - firstBlock size) / size
/-- The header of a chunk, 64 bytes (R60; log entry 9). -/
def headerBytes (base : Nat) (pid : BitVec 16) (size : Nat) : List Byte :=
  let l := Config.chunkHeader base pid.toNat size
  (l ++ List.replicate 64 0).take 64

/-- The arena of a process: its base, its size and its mark in chunks (R359). -/
def State.arena (s : State) (part : Nat) (pid : BitVec 16) : Nat × Nat × Nat :=
  let e := s.procEntry part pid
  if s.procValid part pid then (s.devNat (e + 16) 8, s.devNat (e + 24) 4, s.devNat (e + 28) 4) else (0, 0, 0)
/-- Whether the process has an arena with a chunk left (R60, R359). -/
def State.arenaLeft (s : State) (part : Nat) (pid : BitVec 16) : Bool :=
  let a := s.arena part pid
  decide (a.1 ≠ 0) && decide (a.2.2 < a.2.1)
/-- The mark advanced by one chunk. -/
def State.bumpMark (s : State) (part : Nat) (pid : BitVec 16) : State :=
  s.setNat (devKey (s.procEntry part pid + 28)) 4 ((s.arena part pid).2.2 + 1)

/-- The k-th block index that is not taken. -/
def freeIndex (taken : List Nat) : Nat → Nat → Nat → Nat
  | 0, i, _ => i
  | fuel + 1, i, k => if taken.contains i then freeIndex taken fuel (i + 1) k else if k = 0 then i else freeIndex taken fuel (i + 1) (k - 1)

/-- A block of a chunk handed out: which of its free blocks the manual leaves open, and the choice depends on the chunk
alone (R5, R60; log entry 9). -/
def State.takeBlock (s : State) (c : Chunk) : State × Nat :=
  let left := blockCount c.block - c.taken.length
  let i := freeIndex c.taken (c.taken.length + left) 0 (Config.heapChoice c.base c.block c.taken % max 1 left)
  ({ s with chunks := s.chunks.map (fun x => if x = c then { c with taken := i :: c.taken } else x) },
    c.base + firstBlock c.block + i * c.block)

/-- The marker taken out of a block that is handed out again: what is left there the manual leaves open (R61; log
entry 9). -/
def State.unmark (s : State) (part : Nat) (pid : BitVec 16) (taken : List Nat) (p : Nat) : State :=
  match s.vspan part pid true true (p + 8) 8 with
  | .ok ps =>
    if dbl (leNat (s.getPieces ps)) = Config.freeMarker p then
      let v := Config.heapLink p taken
      s.putPieces ps (leBytes 8 (if v = Config.freeMarker p then v + 1 else v).toNat)
    else s
  | _ => s

/-- The answer of the engine to a parked ALLOC or FREE. -/
def State.heapReply (s : State) (m : Msg) (v : Word) : State := (s.drop m.id).status m.src m.id m.rd v
/-- A cause of FREE, taken precisely. -/
def State.heapFault (s : State) (m : Msg) (c : Cause) (v : Word) : State :=
  (s.drop m.id).tell m.src (.refusal (.reply m.id) c v)

/-- A chunk taken from the arena and its header written; a header write that meets a cause returns zero and posts
a record, with the chunk still counted in the mark (R60). -/
def State.newChunk (s : State) (m : Msg) (n : Word) (since : Option Nat) (size : Nat) : Out :=
  let x := s.slot m.src
  let a := s.arena x.part x.pid
  let base := a.1 + a.2.2 * chunkBytes
  let bad := fun (c : Cause) (va : Nat) =>
    Host.Outcome.next (((s.bumpMark x.part x.pid).post x.part x.launch
      { cause := c, agent := 0, id := m.src.core, slot := m.src.slot, addr := dbl va, cursor := x.pc, detail := 0, pid := x.pid }).heapReply m 0)
  match s.vspan x.part x.pid true (s.ripe since) base 64 with
  | .missing pa => .fault (.noSuchMemory pa)
  | .fault c va => bad c va
  | .held ask va =>
    .next ((s.askHeld ask since x.part x.pid m.src x.launch va).rebody m.id (.alloc n (some (since.getD s.sys.meridian))))
  | .ok ps =>
    if s.engineWaits x.pid true base 64 then .next s
    else if ps.any (fun p => s.partlyPoisoned p.key p.len) then bad .poison base
    else
      let c : Chunk := { part := x.part, pid := x.pid, die := dieOf m.src.core, block := size, base := base, taken := [] }
      let s := (s.bumpMark x.part x.pid).putPieces ps (headerBytes base x.pid size)
      let r := { s with chunks := s.chunks ++ [c] }.takeBlock c
      .next (r.1.heapReply m (dbl r.2))

/-- An ALLOC at the engine (R60); a write of the engine waits while it meets a registered range (R63). -/
def State.allocStep (s : State) (m : Msg) (n : Word) (since : Option Nat) : Out :=
  let x := s.slot m.src
  if n.toNat = 0 ∨ 65536 < n.toNat then .next (s.heapReply m 0)
  else
    let size := blockSize n.toNat
    match s.chunks.find? (fun c => decide (c.part = x.part ∧ c.pid = x.pid ∧ c.die = dieOf m.src.core ∧ c.block = size ∧
        c.taken.length < blockCount size)) with
    | some c =>
      let r := s.takeBlock c
      if s.engineWaits x.pid true r.2 16 then .next s
      else .next ((r.1.unmark x.part x.pid c.taken r.2).heapReply m (dbl r.2))
    | none => if s.arenaLeft x.part x.pid then s.newChunk m n since size else .next (s.heapReply m 0)

/-- A FREE past its checks: the link and the marker are written, and the block is free again (R61). -/
def State.giveBlock (s : State) (c : Chunk) (p : Nat) (ps : List Piece) : State :=
  let i := (p - c.base - firstBlock c.block) / c.block
  let s' := s.putPieces ps (leBytes 8 (Config.heapLink p c.taken).toNat ++ leBytes 8 (Config.freeMarker p).toNat)
  { s' with chunks := s'.chunks.map (fun x => if x = c then { c with taken := c.taken.filter (fun j => j != i) } else x) }

/-- A FREE at the engine: the ACCESS cases of R61, and the waits of an engine's read and write (R63).  DESIGN CHOICE
(log entry 9): a pointer inside the chunk's header, or past its last block, takes ACCESS as well. -/
def State.freeStep (s : State) (m : Msg) (p : Word) (since : Option Nat) : Out :=
  let x := s.slot m.src
  let a := s.arena x.part x.pid
  let v := p.toNat
  let base := a.1 + (v - a.1) / chunkBytes * chunkBytes
  let hold := fun (ask : Bool) (va : Nat) =>
    Host.Outcome.next ((s.askHeld ask since x.part x.pid m.src x.launch va).rebody m.id (.free p (some (since.getD s.sys.meridian))))
  let no := Host.Outcome.next (s.heapFault m .access p)
  if v = 0 then .next (s.heapReply m 0)
  else if a.1 = 0 ∨ v < a.1 ∨ a.1 + a.2.1 * chunkBytes ≤ v then no
  else match s.vspan x.part x.pid false (s.ripe since) base 64 with
    | .missing pa => .fault (.noSuchMemory pa)
    | .fault c va => .next (s.heapFault m c (dbl va))
    | .held ask va => hold ask va
    | .ok hs =>
      if s.engineWaits x.pid false base 64 || s.engineWaits x.pid true v 16 then .next s
      else match s.chunks.find? (fun c => decide (c.part = x.part ∧ c.pid = x.pid ∧ c.base = base)) with
      | none => no
      | some c =>
        if s.getPieces hs ≠ headerBytes base x.pid c.block then no
        else if v < base + firstBlock c.block ∨ (v - base - firstBlock c.block) % c.block ≠ 0 ∨
            base + firstBlock c.block + blockCount c.block * c.block ≤ v then no
        else match s.vspan x.part x.pid true (s.ripe since) v 16 with
          | .missing pa => .fault (.noSuchMemory pa)
          | .fault c va => .next (s.heapFault m c (dbl va))
          | .held ask va => hold ask va
          | .ok ps =>
            if dbl (leNat ((s.getPieces ps).drop 8)) = Config.freeMarker v then no
            else .next ((s.giveBlock c v ps).heapReply m 0)

/-- ALLOCATOR_ENGINE_STEP (R60, R61, R246): requests of a die's engine are served in arrival order. -/
def execAllocatorEngineStep (id : Nat) (s : State) : Out :=
  match s.msg? id with
  | some m =>
    if !s.coreRuns m.src.core then .next s
    else if (s.slot m.src).park ≠ .reply id then .next (s.drop id)
    else match m.body with
    | .alloc n since => { s with cached := false }.allocStep m n since
    | .free p since => { s with cached := false }.freeStep m p since
    | _ => .next s
  | none => .next s

end Sys2Proof.Machine
end

