-- ==== Sys2Proof/Machine/Vesper.lean ====
section
/-! DEFINITION.  What a home's Vesper unit does: stamps, the waiting queue of a lock with its overflow blocks
(R105), grants and mode switches (R109-R111, R119, R120), barrier phases and releases (R112-R118), owners and
their departures (R123, R124), and kill marks (R370). -/

namespace Sys2Proof.Machine

/-! ### Handles (R105) -/

/-- The handle of a thread's request: 0 ACQ, 1 LOCKRUN; a large core stands in it with its number (log entry 32). -/
def handleOf (w : Who) (req : Nat) : Nat :=
  2 ^ 23 + req * 2 ^ 21 + w.slot * 2 ^ 16 + (if isLarge w.core then w.core - largeBase else w.core)
/-- The thread a handle names: of a large core or of a small one. -/
def handleWho (h : Nat) (big : Bool) : Who :=
  { core := h % 2 ^ 16 + (if big then largeBase else 0), slot := h / 2 ^ 16 % 8 }
/-- Whether a handle is valid. -/
def handleOk (h : Nat) : Bool := nbit h 23

/-! ### The waiting queue (R105) -/

/-- The offset of overflow block k of a home. -/
def blockOff (k : Nat) : Nat := 0x1E800 + 16 * k
/-- The link that names a block. -/
def blockLink (k : Nat) : Nat := blockOff k / 16
/-- The block a link names, if it names one. -/
def linkBlock (l : Nat) : Option Nat :=
  if blockLink 0 ≤ l ∧ l < blockLink 128 then some (l - blockLink 0) else none

/-- An overflow block's 128 bits. -/
def State.block (s : State) (c k : Nat) : Nat := s.nat (spadKey c (blockOff k)) 16
/-- An overflow block written. -/
def State.setBlock (s : State) (c k v : Nat) : State := s.storeSpad (spadKey c (blockOff k)) (leBytes 16 v)
/-- Handle p of a block. -/
def blockHandle (p : Nat) : Fld := ⟨24 * p, 24⟩
/-- The link of a block. -/
def blockNext : Fld := ⟨96, 13⟩

/-- How many inline handles are valid; they are packed. -/
def inlineCount (d : Nat) : Nat := ((List.range 4).filter (fun k => handleOk ((dInline k).get d))).length

/-- The first valid place of a block. -/
def firstPlace (b : Nat) : Option Nat := (List.range 4).find? (fun p => handleOk ((blockHandle p).get b))

/-- Whether a waiter can be placed: an inline place, a place of the tail block, or a free block (R105, R109). -/
def State.roomToWait (s : State) (a : Nat) : Bool :=
  let d := s.desc a
  decide (inlineCount d < 4) || ((linkBlock (dTail.get d)).isSome && decide ((s.obj a).placed < 4)) ||
  decide ((s.core (homeOf a)).blocks.length < 128)

/-- The lowest-numbered free block of a home. -/
def Core.freeBlock (c : Core) : Nat := ((List.range 128).find? (fun k => !c.blocks.contains k)).getD 0

/-- A handle put at the tail of a lock's queue (R105); big says that its thread is on a large core. -/
def State.pushWaiter (s : State) (a h : Nat) (big : Bool) : State :=
  let d := s.desc a
  let c := homeOf a
  let o := { s.obj a with big := ((s.obj a).big ++ List.replicate (dWaiting.get d) false).take (dWaiting.get d) ++ [big] }
  let d := dWaiting.set d (dWaiting.get d + 1)
  if inlineCount d < 4 then (s.setDesc a ((dInline (inlineCount d)).set d h)).setObj a o
  else match linkBlock (dTail.get d), decide (o.placed < 4) with
    | some k, true =>
      ((s.setBlock c k ((blockHandle o.placed).set (s.block c k) h)).setDesc a d).setObj a { o with placed := o.placed + 1 }
    | t, _ =>
      let k := (s.core c).freeBlock
      let s := s.setCore c { s.core c with blocks := (s.core c).blocks ++ [k] }
      let s := s.setBlock c k ((blockNext.set 0 0x1FFF) + h)
      let s := match t with
        | some j => s.setBlock c j (blockNext.set (s.block c j) (blockLink k))
        | none => s
      let d := dTail.set d (blockLink k)
      let d := if t.isNone then dHead.set d (blockLink k) else d
      (s.setDesc a d).setObj a { o with placed := 1 }

/-- The oldest overflow handle taken: it is written with bit 23 clear, and a block whose four handles have all
been taken is freed (R105). -/
def State.takeOverflow (s : State) (a : Nat) : State × Option Nat :=
  let d := s.desc a
  let c := homeOf a
  match linkBlock (dHead.get d) with
  | none => (s, none)
  | some k =>
    let b := s.block c k
    match firstPlace b with
    | none => (s, none)
    | some p =>
      let h := (blockHandle p).get b
      let s := s.setBlock c k ((blockHandle p).set b (h - 2 ^ 23))
      if p < 3 then (s, some h)
      else
        let s := s.setCore c { s.core c with blocks := (s.core c).blocks.filter (fun j => j != k) }
        let n := blockNext.get b
        let last := (linkBlock n).isNone
        let d := dHead.set d (if last then 0x1FFF else n)
        let d := if last then dTail.set d 0x1FFF else d
        (s.setDesc a d, some h)

/-- The front entry of a lock's queue taken: the inline handles move down and the oldest overflow handle moves
into h3 (R105).  The answer is the handle and its thread. -/
def State.popWaiter (s : State) (a : Nat) : State × Option (Nat × Who) :=
  let h := (dInline 0).get (s.desc a)
  if !handleOk h then (s, none)
  else
    let r := s.takeOverflow a
    let d := r.1.desc a
    let d := (List.range 3).foldl (fun d k => (dInline k).set d ((dInline (k + 1)).get d)) d
    let d := (dInline 3).set d (r.2.getD 0)
    let o := r.1.obj a
    ((r.1.setDesc a (dWaiting.set d (dWaiting.get d - 1))).setObj a { o with big := o.big.drop 1 },
      some (h, handleWho h (o.big.headD false)))

/-- The handles of a chain of overflow blocks. -/
def State.chainHandles (s : State) (c : Nat) : Nat → Nat → List Nat
  | 0, _ => []
  | n + 1, l =>
    match linkBlock l with
    | none => []
    | some k =>
      let b := s.block c k
      ((List.range 4).map (fun p => (blockHandle p).get b)).filter handleOk ++ s.chainHandles c n (blockNext.get b)
/-- The handles that wait, front first. -/
def State.waiters (s : State) (a : Nat) : List Nat :=
  let d := s.desc a
  ((List.range 4).map (fun k => (dInline k).get d)).filter handleOk ++ s.chainHandles (homeOf a) 128 (dHead.get d)
/-- The threads that wait, front first. -/
def State.waitingThreads (s : State) (a : Nat) : List Who :=
  (s.waiters a).zipIdx.map (fun p => handleWho p.1 ((s.obj a).big.getD p.2 false))
/-- The thread that holds a lock. -/
def State.holderOf (s : State) (a : Nat) : Who := handleWho (dHolder.get (s.desc a)) (s.obj a).bigHolder
/-- The blocks of a chain. -/
def State.chainBlocks (s : State) (c : Nat) : Nat → Nat → List Nat
  | 0, _ => []
  | n + 1, l =>
    match linkBlock l with
    | none => []
    | some k => k :: s.chainBlocks c n (blockNext.get (s.block c k))

/-! ### Answers -/

/-- A field of a live descriptor written. -/
def State.setFld (s : State) (a : Nat) (f : Fld) (v : Nat) : State := s.setDesc a (f.set (s.desc a) v)
/-- A field of a descriptor. -/
def State.fld (s : State) (a : Nat) (f : Fld) : Nat := f.get (s.desc a)

/-- The queued request of a thread, kept until its grant. -/
def State.waitingMsg (s : State) (w : Who) (a : Nat) : Option (Msg × Option (Word × List Word)) :=
  s.net.findSome? (fun m => match m.body with
    | .sync d (.waiting run) => if d = a ∧ m.src = w then some (m, run) else none
    | _ => none)

/-- The owner that a descriptor names (R104). -/
def dOwner (d : Nat) : Who := { core := dOcore.get d, slot := dOslot.get d }

/-- A granted request carried out: in DELEGATE mode with an owner serving a LOCKRUN is shipped, otherwise it runs
on its caller; a request whose thread is gone holds the lock until its kill mark (R110, R370). -/
def State.carryGrant (s : State) (a : Nat) (w : Who) (mode : Nat) : State :=
  match s.waitingMsg w a with
  | none => s
  | some (m, none) => (s.drop m.id).tell w (.granted a m.id 0 false)
  | some (m, some (pc, args)) =>
    let d := s.desc a
    if mode = 2 ∧ dServing.get d = 1 then
      (s.setObj a { s.obj a with work := some (.owner (dOwner d) w) }).send ⟨homeOf a, 8⟩ 0 (.work a (dOwner d) (.routine w pc args))
    else ((s.drop m.id).setObj a { s.obj a with work := some (.caller w) }).tell w (.runs a m.id m.rd pc args)

/-- cont after a grant that leaves w requests waiting (R111). -/
def contAfter (cont w : Nat) : Nat := ((cont : Int) + ((256 * min w 255 : Nat) - (cont : Int)).tdiv 8).toNat
/-- calm after a grant that leaves w requests waiting (R111). -/
def calmAfter (calm w : Nat) : Nat := if w = 0 then min 15 (calm + 1) else 0

/-- The mode of a lock after a grant, by the rows of R119; a switch sets calm to 0. -/
def lockSwitch (d : Nat) : Nat :=
  if dPin.get d = 1 then d
  else
    let sw := fun m => dCalm.set (dMode.set d m) 0
    match dMode.get d with
    | 1 => if dTcont.get d ≤ dCont.get d ∧ dServing.get d = 1 then sw 2 else if 8 ≤ dCalm.get d then sw 0 else d
    | 2 => if 8 ≤ dCalm.get d then sw 1 else d
    | _ => d

/-- A grant: holder, cont and calm are updated, the mode may switch, and the granted request runs where the mode
before the switch runs it (R111, R119). -/
def State.grant (s : State) (a h : Nat) (w : Who) : State :=
  let d := s.desc a
  let mode := dMode.get d
  let n := dWaiting.get d
  let d := dHolder.set d h
  let d := dCont.set d (contAfter (dCont.get d) n)
  let d := dCalm.set d (calmAfter (dCalm.get d) n)
  ((s.setDesc a (lockSwitch d)).setObj a { s.obj a with bigHolder := isLarge w.core }).carryGrant a w mode

/-- A lock passed on: entries that a kill marked are removed without a grant, the first other entry is granted,
and with none left the lock is free (R109, R370). -/
def State.passOn (s : State) (a : Nat) : Nat → State
  | 0 => s
  | n + 1 =>
    match s.popWaiter a with
    | (s, none) => s.setFld a dHolder 0
    | (s, some (h, w)) =>
      let o := s.obj a
      if o.marked.contains w then (s.setObj a { o with marked := o.marked.erase w }).passOn a n
      else s.grant a h w

/-- A lock released (R109). -/
def State.unlock (s : State) (a : Nat) : State :=
  (s.setObj a { s.obj a with work := none }).passOn a (s.fld a dWaiting + 1)

/-! ### Barrier phases (R112-R119) -/

/-- Whether a stamp of 32 bits lies before another, by their signed difference (R116). -/
def before32 (x y : Nat) : Bool := decide (asInt 32 ((x + 2 ^ 32 - y % 2 ^ 32) % 2 ^ 32) < 0)

/-- The combining nodes of an object: the tiles, groups and super-groups of its scope domain, a unit's parent
first (R117). -/
def nodeUnits (scope home : Nat) : List (Nat × Nat) :=
  let n := domainCores scope
  let base := home / n * n
  ([4, 3, 2].filter (fun l => decide (l ≤ scope))).flatMap (fun l =>
    (List.range (n / domainCores l)).map (fun k => (l, base / domainCores l + k)))

/-- Arming or disarming messages sent to every node (R117, R120). -/
def State.armNodes (s : State) (a : Nat) (on : Bool) : State :=
  let d := s.desc a
  (nodeUnits (dScope.get d) (homeOf a)).foldl (fun s p => s.send ⟨homeOf a, 8⟩ 0 (.arming a (dPhase.get d) p.1 p.2 on)) s

/-- A barrier's mode switched: TREE arms the nodes, FLAG disarms them, and calm is 0 (R119, R120).  DESIGN CHOICE (log entry
38): every switch makes the phase one that is not quiet, one by SYNCPOL or by an owner's departure among them. -/
def State.barrierMode (s : State) (a m : Nat) : State :=
  let d := s.desc a
  let armed := if m = 1 then 1 else if m = 0 then 0 else dArmed.get d
  let s' := (s.setDesc a (dArmed.set (dCalm.set (dMode.set d m) 0) armed)).setObj a { s.obj a with switched := true }
  if armed = 1 ∧ dArmed.get d = 0 then s'.armNodes a true
  else if armed = 0 ∧ dArmed.get d = 1 then s'.armNodes a false
  else s'

/-- Arrivals still expected (R104). -/
def expected (d : Nat) : Nat := dParts.get d - (dDirect.get d + dCombined.get d)

/-- The cores of a scope domain that run threads. -/
def State.scopeCores (s : State) (scope home : Nat) : List Nat :=
  (s.allThreads.foldl (fun l w => if l.contains w.core || !inScope scope home w.core then l else l ++ [w.core]) [])

/-- The nodes of an object that a release passes advance their phase (R117). -/
def State.passNodes (s : State) (a phase : Nat) (passes : Node → Bool) : State :=
  { s with nodes := s.nodes.map (fun (n : Node) =>
      if n.desc = a ∧ n.phase = phase ∧ passes n = true then { n with phase := (phase + 1) % 2 ^ 32 } else n) }

/-- Whether a core lies in a node's unit. -/
def Node.covers (n : Node) (core : Nat) : Bool := !isLarge core && decide (core / domainCores n.level = n.unit)

/-- A release (R112; DESIGN CHOICE, log entry 38: waiting starts again at parts): the counts start again, the phase advances, the contribution cell takes the identity, and
the result is broadcast to the scope domain.  A node passes on when the release reaches a core of its unit; one over no
core that waits for the release passes on here (R117). -/
def State.release (s : State) (a : Nat) (result : Word) : State :=
  let d := s.desc a
  let o := s.obj a
  let phase := dPhase.get d
  let d := dPhase.set (dWaiting.set (dBurst.set (dCombined.set (dDirect.set d 0) 0) 0) (dParts.get d)) (phase + 1)
  let todo := s.scopeCores (dScope.get d) (homeOf a)
  let todo := o.cores.foldl (fun l c => if l.contains c then l else l ++ [c]) todo
  let s := (s.setDesc a d).setRedCell d (redIdentity (dRedop.get d))
  let s := (s.setObj a { o with cores := [], switched := false, work := none, last := 0 }).passNodes a phase
    (fun n => !todo.any n.covers)
  if todo = [] then s else s.send ⟨homeOf a, 8⟩ 0 (.release a phase result todo o.cores)

/-- A phase action placed as a phase task at the home (R115). -/
def State.placeAction (s : State) (a : Nat) : State :=
  let d := s.desc a
  let o := s.obj a
  let c := homeOf a
  let e := RunEntry.phase a (wordAddr (dbl (dAction.get d))) (redResult (dRedop.get d) (s.redCell d)) (dbl (dPhase.get d)) o.launch o.pid
  (s.setCore c { s.core c with runList := (s.core c).runList ++ [e] }).setObj a { o with work := some .phaseTask }

/-- The action of a phase that ended, placed by the mode before any switch (R115, R119). -/
def State.startAction (s : State) (a mode : Nat) : State :=
  let d := s.desc a
  if mode = 2 ∧ dServing.get d = 1 then
    (s.setObj a { s.obj a with work := some (.ownerAction (dOwner d)) }).send ⟨homeOf a, 8⟩ 0
      (.work a (dOwner d) (.action (wordAddr (dbl (dAction.get d))) (redResult (dRedop.get d) (s.redCell d)) (dbl (dPhase.get d))))
  else s.placeAction a

/-- The switch at the end of a phase, unless this step has switched already (R119). -/
def State.phaseSwitch (s : State) (a : Nat) (done_ : Bool) : State :=
  let d := s.desc a
  if dPin.get d = 1 || done_ then s
  else if dMode.get d ≤ 1 ∧ dTskew.get d < dSkew.get d ∧ dAction.get d ≠ 0 ∧ dServing.get d = 1 then s.barrierMode a 2
  else if 8 ≤ dCalm.get d then
    (match dMode.get d with
      | 2 => s.barrierMode a (if dArmed.get d = 1 then 1 else 0)
      | 1 => s.barrierMode a 0
      | _ => s)
  else s

/-- The end of a phase (R112, R119): skew and calm are recorded, the mode may switch, and the action starts or the
phase releases; stepSwitched says that the arrival itself switched the mode from mode. -/
def State.endPhase (s : State) (a mode : Nat) (stepSwitched : Bool) : State :=
  let d := s.desc a
  let o := s.obj a
  let skew := (o.last + 2 ^ 32 - dFirst.get d) % 2 ^ 32
  let quiet := !o.switched && decide (skew ≤ dTskew.get d)
  let d := dCalm.set (dSkew.set d skew) (if quiet then min 15 (dCalm.get d + 1) else 0)
  let s := (s.setDesc a d).phaseSwitch a stepSwitched
  if dAction.get d ≠ 0 then s.startAction a mode else s.release a (redResult (dRedop.get d) (s.redCell d))

/-- first, last, the launch and the participating cores after arrivals stamped from lo to hi (R13, R115, R116). -/
def State.noteArrival (s : State) (a lo hi launch : Nat) (pid : BitVec 16) (cores : List Nat) : State :=
  let d := s.desc a
  let o := s.obj a
  let fresh := dDirect.get d + dCombined.get d = 0
  let first := if fresh || before32 lo (dFirst.get d) then lo else dFirst.get d
  let last := if fresh || before32 o.last hi then hi % 2 ^ 32 else o.last
  (s.setFld a dFirst first).setObj a { o with
    last := last, launch := launch, pid := pid, cores := cores.foldl (fun l c => if l.contains c then l else l ++ [c]) o.cores }

/-- Contributions reduced into the cell (R114). -/
def State.contribute (s : State) (a : Nat) (xs : List (Word × Tag)) : State :=
  let d := s.desc a
  s.setRedCell d (xs.foldl (fun c p => redApply (dRedop.get d) c p.1 p.2) (s.redCell d))

/-- Whether the phase is complete (R112). -/
def phaseFull (d : Nat) : Bool := decide (dParts.get d ≤ dDirect.get d + dCombined.get d)
/-- Whether an arrival ends the phase: it is complete, and has not ended already, as one whose action runs has (R112). -/
def State.phaseEnds (s : State) (a : Nat) : Bool := phaseFull (s.desc a) && (s.obj a).work.isNone

/-- The burst of a direct arrival (R119): its new wopen and burst, and whether it is the third of its window. -/
def burstOf (d stamp : Nat) : Nat × Nat × Bool :=
  let out := decide ((dWindow.get d : Int) < asInt 32 ((stamp + 2 ^ 32 - dWopen.get d) % 2 ^ 32))
  if dBurst.get d = 0 ∨ out then (stamp % 2 ^ 32, 1, false)
  else (dWopen.get d, min 3 (dBurst.get d + 1), decide (2 ≤ dBurst.get d))

/-- A direct arrival counted (R114, R116, R118, R119). -/
def State.countDirect (s : State) (a stamp : Nat) (xs : List (Word × Tag)) (launch : Nat) (pid : BitVec 16) (cores : List Nat) : State :=
  let s := (s.noteArrival a (stamp % 2 ^ 32) stamp launch pid cores).contribute a xs
  let d := s.desc a
  let mode := dMode.get d
  let b := burstOf d stamp
  let d := dBurst.set (dWopen.set d b.1) b.2.1
  let d := dDirect.set d (dDirect.get d + 1)
  let s := s.setDesc a (dWaiting.set d (expected d))
  let tree := b.2.2 && decide (dMulti.get d = 1) && decide (2 < dScope.get d) && decide (dPin.get d = 0) && decide (mode = 0)
  let s := if tree then s.barrierMode a 1 else s
  if s.phaseEnds a then s.endPhase a mode tree else s

/-- A combined arrival counted; one tagged with an earlier phase counts into the current phase and posts SYNC
(R118). -/
def State.countCombined (s : State) (a phase : Nat) (xs : List (Word × Tag)) (first last launch : Nat) (pid : BitVec 16) (cores : List Nat) : State :=
  let s := (s.noteArrival a (first % 2 ^ 32) last launch pid cores).contribute a xs
  let d := s.desc a
  let d := dCombined.set d (dCombined.get d + xs.length)
  let s := s.setDesc a (dWaiting.set d (expected d))
  let s := if phase % 2 ^ 32 = dPhase.get d then s
    else match s.partOf (homeOf a) with
      | some p => s.post p launch
          { cause := .sync, agent := 4, id := homeOf a, slot := 0, addr := dbl a, cursor := 0, detail := 0, pid := pid }
      | none => s
  if s.phaseEnds a then s.endPhase a (dMode.get d) false else s

/-! ### Departures (R123, R124, R238) -/

/-- An owner's work abandoned: a routine's LOCKRUN completes with rd := 1 and the lock passes on; an action is
placed again as a phase task (R124). -/
def State.abandonWork (s : State) (a : Nat) : State :=
  let s := { s with net := s.net.filter (fun m => match m.body with
    | .work d _ _ => d != a
    | _ => true) }
  match (s.obj a).work with
  | some (.owner _ r) =>
    let s := match s.waitingMsg r a with
      | some (m, _) => s.send ⟨homeOf a, 8⟩ m.rd (.runResult r m.id none)
      | none => s
    s.unlock a
  | some (.ownerAction _) => s.placeAction a
  | _ => s

/-- The departure row of R119. -/
def State.departSwitch (s : State) (a : Nat) : State :=
  let d := s.desc a
  if dPin.get d = 1 ∨ dMode.get d ≠ 2 then s
  else if dKind.get d = 1 then s.setDesc a (dCalm.set (dMode.set d 1) 0)
  else s.barrierMode a (if dArmed.get d = 1 then 1 else 0)

/-- A departure of the serving owner as one step (R123). -/
def State.ownerGone (s : State) (a : Nat) : State :=
  ((s.setFld a dServing 0).abandonWork a).departSwitch a

end Sys2Proof.Machine
end

