-- ==== Sys2Proof/Machine/Sync.lean ====
section
/-! DEFINITION.  Synchronisation objects: the twelve instructions of major 0x1F (R108, R113, R123, R236-R239), the
steps of their home, the combining nodes (R117), releases (R112, R113), and delegated work (R110, R115). -/

namespace Sys2Proof.Machine

/-! ### At issue (R239) -/

/-- ALIGN and ACCESS of a descriptor or image address: 64-byte aligned, RAW, in the partition's user area
(R123, R236). -/
def State.objectCause (s : State) (a : Word) : Option Cause :=
  if a.toNat % 64 ≠ 0 then some .align
  else if 2 ^ 36 ≤ a.toNat ∨ reservedBase ≤ offOf a.toNat ∨ !s.inPart s.me.part (homeOf a.toNat) then some .access
  else none

/-- A synchronisation instruction past the checks of its descriptor. -/
def State.onObject (s : State) (a : BitVec 5) (k : Nat → State) : State :=
  let v := s.g a
  match s.objectCause v with
  | some c => s.raise c v
  | none => k v.toNat

/-- An image that SYNCINIT or SYNCPOL reads, as a load reads it (R236; log entry 28). -/
def State.onImage (s : State) (b : BitVec 5) (k : Nat → State) : State :=
  let v := s.g b
  match s.objectCause v with
  | some c => s.raise c v
  | none => s.waitRelaxed (fun s =>
      let key := rawKey v.toNat
      if blocksLoad (s.spadMeets key (key + 64)) then s.raise .rangeLocked v
      else if s.anyPoison key 64 then s.raise .poison v
      else k (s.nat key 64))

/-- Whether a request of the running slot to a home is still on its way (R322). -/
def State.homeBusy (s : State) (w : Who) (a : Nat) : Bool :=
  s.net.any (fun m => decide (m.src = w) && (match m.body with
    | .sync _ (.waiting _) => false
    | .sync d _ => homeOf d == homeOf a
    | _ => false))

/-- SYNCINIT (R108, R123). -/
def execSyncinit (d a b : BitVec 5) (s : State) : Out :=
  .next (s.onObject a (fun o => s.onImage b (fun img =>
    if s.homeBusy s.cur o then s.parkOn (.homeClear o)
    else s.perform (s.mkAccess (.syncInit img) (s.g a) 64 (.general d) false false (s.firstStage (s.g a))))))

/-- A lock request sent, its slot parked until the home answers (R108, R237). -/
def State.askLock (s : State) (d : BitVec 5) (o : Nat) (r : SyncReq) : State :=
  (s.send s.cur d (.sync o r)).setPark s.cur (.lock o s.nextId)

/-- Whether one more grant would pass 255 held locks (R237). -/
def State.locksFull (s : State) : Bool := decide (255 ≤ s.me.locks.length)

/-- ACQ (R108, R237). -/
def execAcq (a : BitVec 5) (s : State) : Out :=
  .next (s.onObject a (fun o =>
    if s.locksFull then s.raise .sync (s.g a) else s.waitRelaxed (fun s => s.askLock 0 o .acq)))
/-- TRYACQ (R108, R237). -/
def execTryacq (d a : BitVec 5) (s : State) : Out :=
  .next (s.onObject a (fun o =>
    if s.locksFull then s.raise .sync (s.g a) else s.waitRelaxed (fun s => s.askLock d o .tryAcq)))
/-- LOCKRUN (R110, R237): the routine's PC and g4-g9 go with the request. -/
def execLockrun (d a b : BitVec 5) (s : State) : Out :=
  .next (s.onObject a (fun o =>
    if s.locksFull then s.raise .sync (s.g a)
    else s.waitBoth (fun s => s.askLock d o (.lockRun (s.g b) ((List.range 6).map (fun i => s.gn (4 + i)))))))

/-- REL: while the caller's own routine runs it takes SYNC; otherwise it is sent and one held lock is given up
(R108, R123, R237). -/
def execRel (a : BitVec 5) (s : State) : Out :=
  .next (s.onObject a (fun o =>
    if s.me.routines.any (fun r => match r with | .caller e _ => e == o | _ => false) then s.raise .sync (s.g a)
    else s.waitBoth (fun s => s.ackRoom (fun s =>
      let s := s.sendAcked o (.sync o .rel) false
      s.setMe ({ s.me with locks := s.me.locks.erase o } : Slot).next))))

/-- Whether the tile node of a core is armed for an object (R117). -/
def Node.isTile (n : Node) (core a : Nat) : Bool := !isLarge core && decide (n.desc = a ∧ n.level = 2 ∧ n.unit = tileOf core)

/-- Arrivals that reach a node: they wait there, and the first starts its 8 cycles (R117). -/
def Node.add (n : Node) (now : Nat) (xs : List (Word × Tag)) (lo hi : Nat) (ms : List (Who × Nat)) : Node :=
  let fresh := n.contribs.isEmpty
  { n with
    contribs := n.contribs ++ xs, members := n.members ++ ms, since := if fresh then now else n.since
    first := if fresh || before32 lo n.first then lo else n.first
    last := if fresh || before32 n.last hi then hi else n.last }

/-- ARRIVE: the watch is set, and the arrival goes to the tile node if that is armed, direct to the home otherwise
(R113, R117).  DESIGN CHOICE (log entry 8): the package's reading of Meridian stamps it, whichever core it comes from. -/
def State.arriveAt (s : State) (o : Nat) (v : Word) : State :=
  let x := s.me
  let now := s.sys.meridian
  let tag := w0Tag x.csr.winsig false
  let done := fun (s : State) => s.setMe ({ s.me with watch := some ⟨o, none⟩ } : Slot).next
  if s.nodes.any (fun n => n.isTile s.cur.core o) then
    let id := s.nextId
    let s := { s with
      nextId := id + 1
      nodes := s.nodes.map (fun (n : Node) => if n.isTile s.cur.core o then n.add now [(v, tag)] (now % 2 ^ 32) (now % 2 ^ 32) [(s.cur, id)] else n) }
    done (s.setMe { s.me with unacked := s.me.unacked ++ [{ id := id, addr := o, fault := none, arrive := true }] })
  else done (s.sendAcked o (.sync o (.arrive v tag now)) true)
/-- ARRIVE (R113). -/
def execArrive (a b : BitVec 5) (s : State) : Out :=
  .next (s.onObject a (fun o => s.waitBoth (fun s => s.ackRoom (fun s => s.arriveAt o (s.g b)))))

/-- The cause of the first refused ARRIVE of an object is delivered (R113). -/
def Slot.takeRefused (x : Slot) (o : Nat) : Slot :=
  match x.unacked.find? (fun u => u.arrive && u.fault.isSome && decide (u.addr = o)) with
  | some u => { x with unacked := x.unacked.filter (fun v => v.id != u.id) }
  | none => x

/-- AWAIT: with no watch, or one on another object, SYNC, which also delivers a refused ARRIVE's cause; otherwise the phase result once a release has reached the
core (R113, R123). -/
def execAwait (d a : BitVec 5) (s : State) : Out :=
  .next (s.onObject a (fun o =>
    match s.me.watch with
    | none => (s.setMe (s.me.takeRefused o)).raise .sync (s.g a)
    | some w =>
      if w.desc ≠ o then (s.setMe (s.me.takeRefused o)).raise .sync (s.g a)
      else s.waitRelaxed (fun s =>
        match w.released with
        | some r => (s.setMe (({ s.me with watch := none } : Slot).setG d r).next).acquired s.cur.core
        | none => s.setPark s.cur (.await o d))))

/-- SYNCSERVE: an owner that serves another object departs from it (R108, R123). -/
def execSyncserve (a : BitVec 5) (s : State) : Out :=
  .next (s.onObject a (fun o => s.waitRelaxed (fun s =>
    let s := if s.me.serving.isSome && decide (s.me.serving ≠ some o) then s.departOwner s.cur else s
    (s.send s.cur 0 (.sync o .serve)).setPark s.cur (.serve o))))

/-- The routine or action of an object that runs on a slot, innermost first. -/
def Slot.routineOf (x : Slot) (o : Nat) : Option Routine :=
  x.routines.find? (fun r => match r with | .caller d _ => d == o | .delegated d _ => d == o | .action d => d == o)

/-- Whether a routine is the action that a phase task was placed for (R115). -/
def Slot.isOwnAction (x : Slot) (r : Routine) : Bool :=
  match r, x.kind with
  | .action d, .phaseTask e => d == e
  | _, _ => false

/-- SYNCDONE past its waits: the routine or action ends on this thread, which continues at g1; a LOCKRUN on its caller
completes with rd := 0; an owner is parked in its SYNCSERVE again, whose address g1 holds; and a phase task waits for
the acknowledgement and then ends as EXIT does, so that a held lock takes SYNC with the descriptor's address (R108, R110,
R115, R237, R243, R352). -/
def State.finishRoutine (s : State) (o : Nat) (r : Routine) : State :=
  let id := s.nextId
  let x := s.me
  if x.isOwnAction r && decide (x.locks ≠ []) then s.raise .sync (dbl o)
  else
    let s := s.sendAcked o (.sync o (.done (s.gn 4))) false
    let y := { s.me with routines := x.routines.erase r }
    match r with
    | .caller _ rd => s.setMe ((({ y with locks := y.locks.erase o } : Slot).jump (wordAddr (y.g 1))).setG rd 0)
    | _ =>
      if x.isOwnAction r then s.setMe { y with park := .reply id }
      else s.setMe { y.jump (wordAddr (y.g 1)) with park := .serve o }
/-- SYNCDONE (R108, R110, R123). -/
def execSyncdone (a : BitVec 5) (s : State) : Out :=
  .next (s.onObject a (fun o =>
    match s.me.routineOf o with
    | none => s.raise .sync (s.g a)
    | some r => s.waitBoth (fun s => s.ackRoom (fun s => s.finishRoutine o r))))

/-- SYNCMODE: reads the descriptor after every earlier request of its slot to the home (R122, R322). -/
def execSyncmode (d a b : BitVec 5) (s : State) : Out :=
  .next (s.onObject a (fun o => s.waitRelaxed (fun s =>
    if s.homeBusy s.cur o then s.parkOn (.homeClear o)
    else s.perform (s.mkAccess (.syncMode (s.g b)) (s.g a) 8 (.general d) false false (s.firstStage (s.g a))))))

/-- SYNCPOL (R121, R236). -/
def execSyncpol (d a b : BitVec 5) (s : State) : Out :=
  .next (s.onObject a (fun o => s.onImage b (fun img =>
    (s.send s.cur d (.sync o (.pol (leBytes 64 img)))).setPark s.cur (.reply s.nextId))))
/-- SYNCFREE (R108). -/
def execSyncfree (a : BitVec 5) (s : State) : Out :=
  .next (s.onObject a (fun o => s.waitRelaxed (fun s =>
    (s.send s.cur 0 (.sync o .syncFree)).setPark s.cur (.reply s.nextId))))

/-! ### At the home (R107) -/

/-- A request that its home may apply now: after every earlier one of the same sender to this home (R322). -/
def State.atHome (s : State) (id : Nat) (k : Msg → Nat → SyncReq → State) : State :=
  match s.msg? id with
  | some m =>
    match m.body with
    | .sync a r => if !s.mayAct (homeOf a) id || !s.inOrder m then s else k m a r
    | _ => s
  | none => s

/-- A request stamped: seq advances, and where the home refuses the request nothing else changes, a FREE object's other
bytes and their tags among it (R107). -/
def State.stamped (s : State) (a : Nat) : State :=
  if s.fld a dKind = 0 then s.storeSpad (rawKey a + 28) (leBytes 4 (s.fld a dSeq + 1)) else s.setFld a dSeq (s.fld a dSeq + 1)
/-- The tile of an applied request noted: multi is 1 once two tiles have reached the object (R104). -/
def State.noteTile (s : State) (a core : Nat) : State :=
  let o := s.obj a
  match o.tile1 with
  | none => s.setObj a { o with tile1 := some (tileOf core) }
  | some t => if t = tileOf core then s else s.setFld a dMulti 1

/-- Whether the home refuses a request by its kind or scope (R123). -/
def State.wrongUse (s : State) (a core : Nat) (kinds : List Nat) : Bool :=
  let d := s.desc a
  !kinds.contains (dKind.get d) || !inScope (dScope.get d) (homeOf a) core

/-- A refusal taken by a slot that still waits with a park (R239). -/
def State.refuse (s : State) (m : Msg) (p : Park) (c : Cause) (v : Word) : State :=
  (s.drop m.id).tell m.src (.refusal p c v)
/-- The acknowledgement of REL, ARRIVE or SYNCDONE, with SYNC when the home refuses it (R239). -/
def State.ackSync (s : State) (m : Msg) (a : Nat) (bad arrive : Bool) : State :=
  s.rebody m.id (.ack a (if bad then some (.sync, dbl a) else none) arrive)

/-- Whether a lock is held by a thread. -/
def State.heldBy (s : State) (a : Nat) (w : Who) : Bool := handleOk (s.fld a dHolder) && decide (s.holderOf a = w)
/-- Whether a thread is the serving owner (R104). -/
def ownedBy (d : Nat) (w : Who) : Bool := decide (dServing.get d = 1) && decide (dOwner d = w)

/-- Why the home refuses an ACQ or LOCKRUN, if it does (R123, R236). -/
def State.lockRefusal (s : State) (m : Msg) (a : Nat) (run : Option (Word × List Word)) : Option (Cause × Word) :=
  if s.wrongUse a m.src.core [1] || s.heldBy a m.src || ownedBy (s.desc a) m.src then some (.sync, dbl a)
  else match run with
    | some (pc, _) => if pc.toNat % 4 ≠ 0 then some (.align, pc) else none
    | none => none

/-- Whether a lock request needs a place and must wait for an overflow block at the home port (R109). -/
def State.pressed (s : State) (m : Msg) (a : Nat) (run : Option (Word × List Word)) : Bool :=
  (s.lockRefusal m a run).isNone && handleOk (s.fld a dHolder) && !s.roomToWait a

/-- ACQ or LOCKRUN applied: granted when the lock is free, queued otherwise; a third request switches FLAG to QUEUE
(R109, R119, R120, R123). -/
def State.lockRequest (s : State) (m : Msg) (a req : Nat) (run : Option (Word × List Word)) : State :=
  let t := s.stamped a
  let p := Park.lock a m.id
  match s.lockRefusal m a run with
  | some (c, v) => t.refuse m p c v
  | none =>
    let t := t.noteTile a m.src.core
    let t := if (t.slot m.src).park = p then t.rebody m.id (.sync a (.waiting run)) else t.drop m.id
    let h := handleOf m.src req
    let d := t.desc a
    if !handleOk (dHolder.get d) then t.grant a h m.src
    else
      let sw := decide (dMode.get d = 0) && decide (dPin.get d = 0) && decide (2 ≤ dWaiting.get d)
      (if sw then t.setDesc a (dCalm.set (dMode.set d 1) 0) else t).pushWaiter a h (isLarge m.src.core)

/-- ACQ_AT_HOME (R109). -/
def execAcqAtHome (id : Nat) (s : State) : Out :=
  .next (s.atHome id (fun m a r => match r with
    | .acq => if s.pressed m a none then s else s.lockRequest m a 0 none
    | _ => s))
/-- LOCKRUN_AT_HOME (R110). -/
def execLockrunAtHome (id : Nat) (s : State) : Out :=
  .next (s.atHome id (fun m a r => match r with
    | .lockRun pc args => if s.pressed m a (some (pc, args)) then s else s.lockRequest m a 1 (some (pc, args))
    | _ => s))

/-- A TRYACQ applied: a free lock is granted, which counts as a grant; otherwise 0 (R108, R111). -/
def State.tryRequest (s : State) (m : Msg) (a : Nat) : State :=
  let t := s.stamped a
  let d := t.desc a
  let p := Park.lock a m.id
  if s.wrongUse a m.src.core [1] || s.heldBy a m.src then t.refuse m p .sync (dbl a)
  else
    let t := t.noteTile a m.src.core
    let t := t.drop m.id
    if handleOk (dHolder.get d) then t.tell m.src (.status p m.rd 0)
    else (t.grant a (handleOf m.src 0) m.src).tell m.src (.granted a m.id m.rd true)
/-- TRYACQ_AT_HOME (R108). -/
def execTryacqAtHome (id : Nat) (s : State) : Out :=
  .next (s.atHome id (fun m a r => match r with
    | .tryAcq => s.tryRequest m a
    | _ => s))

/-- REL_AT_HOME (R109): a REL by any thread but the holder is refused; the locks of a killed thread pass on as a
REL would pass them (R370). -/
def execRelAtHome (id : Nat) (s : State) : Out :=
  .next (s.atHome id (fun m a r =>
    let t := s.stamped a
    match r with
    | .rel =>
      if s.wrongUse a m.src.core [1] || !s.heldBy a m.src then t.ackSync m a true false
      else (((t.noteTile a m.src.core).unlock a).ackSync m a false false)
    | .releaseOf w => (if s.heldBy a w && decide (s.fld a dKind = 1) then t.unlock a else t).drop m.id
    | _ => s))

/-- SYNCSERVE_AT_HOME (R104, R123). -/
def execSyncserveAtHome (id : Nat) (s : State) : Out :=
  .next (s.atHome id (fun m a r => match r with
    | .serve =>
      let t := s.stamped a
      if s.wrongUse a m.src.core [1, 2] || decide (dOwner (s.desc a) ≠ m.src) then t.refuse m (.serve a) .sync (dbl a)
      else
        let t := (t.noteTile a m.src.core).drop m.id
        if (t.slot m.src).park = .serve a then
          (t.setFld a dServing 1).setSlot m.src { t.slot m.src with serving := some a }
        else t
    | _ => s))

/-- DIRECT_ARRIVAL (R118). -/
def execDirectArrival (id : Nat) (s : State) : Out :=
  .next (s.atHome id (fun m a r => match r with
    | .arrive v tag stamp =>
      let t := s.stamped a
      if s.wrongUse a m.src.core [2] then t.ackSync m a true true
      else
        let x := s.slot m.src
        (((t.noteTile a m.src.core).countDirect a stamp [(v, tag)] x.launch x.pid [m.src.core]).ackSync m a false true)
    | _ => s))

/-- The acknowledgements of a combined arrival's members. -/
def State.ackMembers (s : State) (a : Nat) (ms : List (Who × Nat)) (bad : Bool) : State :=
  { s with net := s.net ++ ms.map (fun p =>
      { id := p.2, src := p.1, rd := 0, body := .ack a (if bad then some (.sync, dbl a) else none) true }) }

/-- COMBINED_ARRIVAL (R118). -/
def execCombinedArrival (id : Nat) (s : State) : Out :=
  .next (s.atHome id (fun m a r => match r with
    | .combined _ _ phase xs first last ms =>
      let t := (s.stamped a).drop m.id
      if s.wrongUse a m.src.core [2] then t.ackMembers a ms true
      else
        let w := (ms.head?.map (fun p => p.1)).getD m.src
        let x := s.slot w
        let t := ms.foldl (fun t p => t.noteTile a p.1.core) t
        (t.countCombined a phase xs first last x.launch x.pid (ms.map (fun p => p.1.core))).ackMembers a ms false
    | _ => s))

/-- ENGINE_ARRIVAL (R114): one direct arrival that carries its byte count under IADD; a refused one posts a
record of cause SYNC (R353, R355). -/
def execEngineArrival (id : Nat) (s : State) : Out :=
  .next (s.atHome id (fun m a r => match r with
    | .engine n stamp launch =>
      let t := (s.stamped a).drop m.id
      let pid := ((s.launch? launch).map (fun l => l.pid)).getD 0
      if s.wrongUse a m.src.core [2] then
        match s.partOf (homeOf a) with
        | some p => t.post p launch
            { cause := .sync, agent := 4, id := homeOf a, slot := 0, addr := dbl a, cursor := 0, detail := 0, pid := pid }
        | none => t
      else
        (t.noteTile a m.src.core).countDirect a stamp (if s.fld a dRedop = 1 then [(dbl n, 0)] else []) launch pid []
    | _ => s))

/-- A routine's or action's end applied at the home (R110, R115): none for a refusal. -/
def State.routineEnd (s : State) (w : Who) (a : Nat) (g4 : Word) : Option State :=
  match (s.obj a).work with
  | some (.caller c) => if c = w ∧ s.fld a dKind = 1 then some (s.unlock a) else none
  | some (.owner o q) =>
    if o ≠ w ∨ s.fld a dKind ≠ 1 then none
    else
      let s := match s.waitingMsg q a with
        | some (m, _) => s.send ⟨homeOf a, 8⟩ m.rd (.runResult q m.id (some g4))
        | none => s
      some (s.unlock a)
  | some (.ownerAction o) => if o = w ∧ s.fld a dKind = 2 then some (s.release a g4) else none
  | some .phaseTask => if (s.slot w).kind = .phaseTask a ∧ s.fld a dKind = 2 then some (s.release a g4) else none
  | none => none

/-- SYNCDONE_AT_HOME (R110, R115). -/
def execSyncdoneAtHome (id : Nat) (s : State) : Out :=
  .next (s.atHome id (fun m a r => match r with
    | .done g4 =>
      let t := s.stamped a
      if s.wrongUse a m.src.core [1, 2] then t.ackSync m a true false
      else match (t.noteTile a m.src.core).routineEnd m.src a g4 with
        | some u => u.ackSync m a false false
        | none => t.ackSync m a true false
    | _ => s))

/-- Whether SYNCPOL refuses its image (R121). -/
def polRefused (d img : Nat) (serves : Bool) : Bool :=
  decide (dPin.get img = 1) &&
  (decide (dMode.get img = 3) || (decide (dMode.get img = 2) && !serves) ||
   (decide (dMode.get img = 1) && decide (dKind.get d = 2) && decide (dScope.get d ≤ 2)))

/-- A requested mode applied (R120, R121). -/
def State.requestMode (s : State) (a m : Nat) : State :=
  let d := s.desc a
  if dMode.get d = m then s
  else if dKind.get d = 1 then s.setDesc a (dCalm.set (dMode.set d m) 0)
  else s.barrierMode a m

/-- A SYNCPOL that is not refused (R121). -/
def State.rewritePolicy (s : State) (a img : Nat) : State :=
  let d := s.desc a
  let old := dOwner d
  let renamed := decide (dOwner img ≠ old)
  let d' := [dTcont, dTskew, dWindow, dOcore, dOslot, dPin].foldl (fun d f => f.set d (f.get img)) d
  let s := s.setDesc a d'
  let s := if renamed && decide (dServing.get d = 1) then (s.ownerGone a).tell old (.renamed a) else s
  if dPin.get img = 1 then s.requestMode a (dMode.get img) else s

/-- SYNCPOL_AT_HOME (R121). -/
def execSyncpolAtHome (id : Nat) (s : State) : Out :=
  .next (s.atHome id (fun m a r => match r with
    | .pol bytes =>
      let t := s.stamped a
      let img := leNat bytes
      let d := s.desc a
      if s.wrongUse a m.src.core [1, 2] then t.refuse m (.reply m.id) .sync (dbl a)
      else
        let t := t.drop m.id
        if polRefused d img (decide (dServing.get d = 1) && decide (dOwner img = dOwner d)) then t.status m.src m.id m.rd 1
        else ((t.noteTile a m.src.core).rewritePolicy a img).status m.src m.id m.rd 0
    | _ => s))

/-- Whether an object is in use, so that SYNCFREE takes SYNC (R123). -/
def State.inUse (s : State) (a : Nat) : Bool :=
  let d := s.desc a
  (s.obj a).work.isSome || decide (dServing.get d = 1) ||
  (if dKind.get d = 1 then handleOk (dHolder.get d) || decide (dWaiting.get d ≠ 0)
   else decide (dDirect.get d + dCombined.get d ≠ 0))

/-- An object set FREE: its nodes are disarmed and its overflow blocks given back (R108). -/
def State.freeObject (s : State) (a : Nat) : State :=
  let d := s.desc a
  let c := homeOf a
  let s := if dArmed.get d = 1 then s.armNodes a false else s
  let bs := if dKind.get d = 1 then s.chainBlocks c 128 (dHead.get d) else []
  let s := s.setCore c { s.core c with blocks := (s.core c).blocks.filter (fun k => !bs.contains k) }
  (s.setFld a dKind 0).dropObj a

/-- SYNCFREE_AT_HOME (R123). -/
def execSyncfreeAtHome (id : Nat) (s : State) : Out :=
  .next (s.atHome id (fun m a r => match r with
    | .syncFree =>
      let t := s.stamped a
      if s.wrongUse a m.src.core [1, 2] || s.inUse a then t.refuse m (.reply m.id) .sync (dbl a)
      else (((t.noteTile a m.src.core).freeObject a).drop m.id).status m.src m.id 0 0
    | _ => s))

/-- OWNER_DEPARTURE: the departure of the serving owner (R123), or the end of a phase task before its SYNCDONE, whose action
is placed again (R124). -/
def execOwnerDeparture (id : Nat) (s : State) : Out :=
  .next (s.atHome id (fun m a r => match r with
    | .depart w =>
      let t := (s.stamped a).drop m.id
      if s.fld a dKind ≠ 0 ∧ ownedBy (s.desc a) w = true then t.ownerGone a else t
    | .abandon _ =>
      let t := (s.stamped a).drop m.id
      if (s.obj a).work = some .phaseTask ∧ s.fld a dKind = 2 then t.placeAction a else t
    | _ => s))

/-- KILL_MARK (R370): a waiting entry of the killed thread is marked; a lock granted to it since is passed on. -/
def execKillMark (id : Nat) (s : State) : Out :=
  .next (s.atHome id (fun m a r => match r with
    | .killMark w =>
      let t := (s.stamped a).drop m.id
      if s.fld a dKind ≠ 1 then t
      else if (s.waitingThreads a).contains w then t.setObj a { t.obj a with marked := (t.obj a).marked ++ [w] }
      else match (s.obj a).work with
        | some (.owner ..) => t
        | _ => if s.heldBy a w then t.unlock a else t
    | _ => s))

/-! ### Releases (R112, R113, R117) -/

/-- A release reaches the slots of a core: those that watch the object get the phase result, and a parked AWAIT
completes (R113). -/
def State.wakeWatch (s : State) (w : Who) (a : Nat) (r : Word) : State :=
  let x := s.slot w
  match x.occ, x.watch with
  | true, some v =>
    if v.desc ≠ a ∨ v.released.isSome then s
    else match x.park with
      | .await d rd =>
        if d = a then (s.setSlot w (({ x with watch := none } : Slot).setG rd r).next).acquired w.core
        else s.setSlot w { x with watch := some ⟨a, some r⟩ }
      | _ => s.setSlot w { x with watch := some ⟨a, some r⟩ }
  | _, _ => s

/-- RELEASE_REACHES_CORE (R13, R112, R113): one that a stopped core's buffer holds has its place there (R345, R346); a core that took part and holds a staged table goes live at the next frame.
DESIGN CHOICE (log entry 36): the table that goes live is the one staged then, a later PTBLW's among them. -/
def execReleaseReachesCore (id core : Nat) (s : State) : Out :=
  .next (match s.msg? id with
    | some m =>
      match m.body with
      | .release a phase r todo cores =>
        if !todo.contains core || !s.mayAct core id then s
        else
          let s := (List.range (slotCount core)).foldl (fun s k => s.wakeWatch ⟨core, k⟩ a r) s
          let s := s.passNodes a phase (fun n => n.covers core)
          let s := if cores.contains core && (s.core core).staged.isSome then s.setCore core { s.core core with goLive := true } else s
          let todo := todo.filter (fun c => c != core)
          if todo = [] then s.drop id else s.rebody id (.release a phase r todo cores)
      | _ => s
    | none => s)

/-! ### Nodes (R117, R120) -/

/-- Whether a node is the one of an object, level and unit. -/
def Node.named (n : Node) (a level unit : Nat) : Bool := decide (n.desc = a ∧ n.level = level ∧ n.unit = unit)

/-- The first core of a node's unit. -/
def Node.firstCore (n : Node) : Nat := n.unit * domainCores n.level

/-- A node's pending arrivals forwarded: to the armed node above it in the scope domain, else to the home (R117). -/
def State.forwardNode (s : State) (n : Node) : State :=
  if n.contribs = [] then s
  else
    let up := n.level + 1
    let unit := n.firstCore / domainCores up
    let s := { s with nodes := s.nodes.map (fun (k : Node) => if k.named n.desc n.level n.unit then { k with contribs := [], members := [] } else k) }
    if n.level < 4 ∧ s.nodes.any (fun k => k.named n.desc up unit && decide (k.phase = n.phase)) then
      { s with nodes := s.nodes.map (fun (k : Node) =>
          if k.named n.desc up unit then k.add s.sys.meridian n.contribs n.first n.last n.members else k) }
    else s.send ⟨n.firstCore, 8 + n.level⟩ 0 (.sync n.desc (.combined n.level n.unit n.phase n.contribs n.first n.last n.members))

/-- NODE_FORWARD (R117): 8 cycles after the first pending arrival (log entry 7). -/
def execNodeForward (desc level unit : Nat) (s : State) : Out :=
  .next (match s.nodes.find? (fun n => n.named desc level unit) with
    | some n =>
      if n.contribs = [] ∨ (s.sys.meridian - n.since) * 17 < 80 ∨ !s.coreRuns n.firstCore then s else s.forwardNode n
    | none => s)

/-- NODE_ARMING (R117, R120): a node is bound to the object and its current phase, or forwards what is pending and
disarms; messages to one node act in order, and none acts while the node's cores are stopped (R344, R385). -/
def execNodeArming (id : Nat) (s : State) : Out :=
  .next (match s.msg? id with
    | some m =>
      match m.body with
      | .arming a _ level unit on =>
        if !s.coreRuns (unit * domainCores level) || (s.earlier id).any (fun q => match q.body with
            | .arming a' _ l u _ => decide (a' = a ∧ l = level ∧ u = unit)
            | _ => false) then s
        else
          let s := s.drop id
          match s.nodes.find? (fun n => n.named a level unit), on with
          | some n, false =>
            let s := s.forwardNode n
            { s with nodes := s.nodes.filter (fun (k : Node) => !k.named a level unit) }
          | none, true =>
            { s with nodes := s.nodes ++ [{ desc := a, level := level, unit := unit, phase := s.fld a dPhase, contribs := [], first := 0, last := 0, since := 0, members := [] }] }
          | _, _ => s
      | _ => s
    | none => s)

/-! ### Delegated work (R110, R115) -/

/-- DELEGATED_WORK_AT_OWNER (R110, R115): an owner parked in SYNCSERVE wakes with the work in its registers. -/
def execDelegatedWorkAtOwner (id : Nat) (s : State) : Out :=
  .next (match s.msg? id with
    | some m =>
      match m.body with
      | .work a owner w =>
        let x := s.slot owner
        if x.park ≠ .serve a ∨ x.serving ≠ some a ∨ !s.mayAct owner.core id then s
        else
          let y := match w with
            | .routine q pc args =>
              let y := (List.range 6).foldl (fun y i => y.setG (BitVec.ofNat 5 (4 + i)) (args.getD i 0)) x
              { ((((y.setG 10 (dbl a)).setG 11 (dbl (handleOf q 1))).setG 1 x.pc).jump pc) with routines := .delegated a q :: x.routines }
            | .action pc g4 phase =>
              { ((((((x.setG 4 g4).setG 5 phase).setG 10 (dbl a)).setG 11 0xFFFFFF).setG 1 x.pc).jump pc) with routines := .action a :: x.routines }
          ((s.drop id).setSlot owner y).acquired owner.core
      | _ => s
    | none => s)

/-- LOCKRUN_RESULT (R110, R124): the requester's LOCKRUN completes with the owner's g4 and rd := 0, or with rd := 1
and g4 unchanged when the owner departed.  DESIGN CHOICE (log entry 38): with rd = g4 the status stays, not the result. -/
def execLockrunResult (id : Nat) (s : State) : Out :=
  .next (match s.msg? id with
    | some m =>
      match m.body with
      | .runResult w q g4 =>
        if !s.mayAct w.core id then s
        else
          let s := (s.drop id).drop q
          let x := s.slot w
          match x.park with
          | .lock _ j =>
            if j ≠ q then s
            else
              let x := match g4 with
                | some v => (x.setG 4 v).setG m.rd 0
                | none => x.setG m.rd 1
              (s.setSlot w x.next).acquired w.core
          | _ => s
      | _ => s
    | none => s)

end Sys2Proof.Machine
end

