-- ==== Sys2Proof/Machine/Ready.lean ====
section
/-! DEFINITION.  Which slot of a core issues in a cycle (R10-R13), and which registers an instruction reads or
writes, for the waits of R128 and R201. -/

namespace Sys2Proof.Machine

/-! ### When a parked slot is ready again (R12; log entry 5) -/

/-- Whether LWAIT finds a status other than zero; an address that no longer translates makes the slot ready too, and
the access then takes its cause (R257). -/
def State.statusReady (s : State) (x : Slot) (addr : Nat) : Bool :=
  match s.translate x.part x.pid (AccOp.status.need false) addr with
  | .ok k _ => decide (s.nat k 4 ≠ 0)
  | .fault _ => true
  | .held _ => false

/-- Whether a plain wait of a slot is over; turn is its place among the waiters (R12). -/
def State.condHolds (s : State) (w : Who) (c : Cond) (turn : Nat) : Bool :=
  let x := s.slot w
  match c with
  | .relaxed => x.outstanding.isEmpty
  | .acks => x.unackedNow.isEmpty
  | .ackRoom => decide (x.unackedNow.length < 64)
  | .result id => !x.outstanding.any (fun r => r.id == id)
  | .queueEntry q n => !(s.queueReg w.core q).isConsumer w || decide (n ≤ (s.queueEntries w.core q).length)
  | .queueRoom q n => !(s.queueReg w.core q).isProducer w || decide ((s.queueEntries w.core q).length + n ≤ 8)
  | .spawnRoom => decide ((s.core w.core).spawned < 64 ∧ (s.core w.core).spillUse < 64)
  | .claim => ({ s with cur := w } : State).claimFree
  | .counter t => decide (t ≤ (s.engine (tileOf w.core)).counter)
  | .bufferFilled cb =>
    let b := s.buf (tileOf w.core) cb
    decide (b.count = 0) || decide (s.ahead (.bufferFilled cb) (some turn) (fun c => tileOf c == tileOf w.core) < b.filled)
  | .launchRoom => decide (s.unfinished x.thread < 16)
  | .statusSet addr => s.statusReady x addr
  | .frame => false
  | .homeClear d => !s.homeBusy w d
  | .hostDrain => !s.posted.any (fun q => decide (q.thread = x.thread))

/-- Whether a slot may issue: it holds a thread that is not parked, or whose wait is over (R12), or whose trap has
seen its relaxed accesses complete (R350). -/
def State.slotReady (s : State) (w : Who) : Bool :=
  let x := s.slot w
  x.occ && (match x.pend with
    | some _ => x.outstanding.isEmpty
    | none =>
      match x.park with
      | .ready => true
      | .wait c t => s.condHolds w c t
      | .fetch id => (match s.msg? id with
        | some m => (match m.body with | .fetch _ _ _ ripe => ripe | _ => true)
        | none => true)
      | _ => false)

/-! ### The pipe table (R10, R11) -/

/-- Whether the entry k places on from a core's position names a slot. -/
def Core.names (c : Core) (k slot : Nat) : Bool := decide (pipeAt c.live (c.pos + k) = slot)

/-- Whether an ANY entry may go to a slot: ready, not issued in the previous 7 cycles, and named by none of the next
7 entries (R11).  DESIGN CHOICE (log entry 36): late in a frame the next entries are read from the live table, also where
a staged table goes live at the coming entry 0. -/
def State.anyMay (s : State) (core slot : Nat) : Bool :=
  let c := s.core core
  s.slotReady ⟨core, slot⟩ && !c.recent.contains slot && !(List.range 7).any (fun k => c.names (k + 1) slot)

/-- The slot that issues in this cycle, if one does: that of the pipe table, or on a large core the next context in
turn (R10, R11, R380; log entry 7). -/
def State.pickSlot (s : State) (core : Nat) : Option Nat :=
  let c := s.core core
  if isLarge core then (if s.slotReady ⟨core, c.pos % 4⟩ then some (c.pos % 4) else none)
  else
    let e := pipeAt c.live c.pos
    if e = 8 then (List.range 8).find? (fun k => s.anyMay core k)
    else if s.slotReady ⟨core, e⟩ then some e else none

/-- The position moved on, and the parked slots counted; now is the core's reading, kept at a frame's end (R10, R387; log
entry 7). -/
def Core.counted (c : Core) (parked now : Nat) : Core :=
  { c with
    pos := (c.pos + 1) % 32
    boundary := if (c.pos + 1) % 32 = 0 then now else c.boundary
    parkedCycles := c.parkedCycles + parked }

/-- The cycle ended with the slot that issued in it: one issue or one bubble counted, and the packets that reached the core
are those of an earlier cycle from now on (R11, R321, R387; log entry 7). -/
def Core.cycled (c : Core) (issued : Option Nat) : Core :=
  { c with
    reached := if c.reached = [] ∨ c.reached.getLast? = some 0 then c.reached else c.reached ++ [0]
    recent := (issued.getD 8 :: c.recent).take 7
    issued := c.issued + (if issued.isSome then 1 else 0)
    bubbles := c.bubbles + (if issued.isSome then 0 else 1) }

/-- The end of a core's cycle: its admission work, and the count of the cycle (R20, R321, R387). -/
def State.endCycle (s : State) (core : Nat) (issued : Option Nat) : State :=
  let s := s.takeWork core
  s.setCore core ((s.core core).cycled issued)

/-- The slot that has issued its instruction in a cycle: none where the instruction only parks it, to be issued when its
wait is over (R12, R387). -/
def State.issuedIn (s : State) (w : Who) : Option Nat :=
  match (s.slot w).park with
  | .wait c _ => if c = .frame then some w.slot else none
  | _ => some w.slot

/-- Whether a slot is parked: it holds a thread that may not issue (R12). -/
def State.isParked (s : State) (w : Who) : Bool := (s.slot w).occ && !s.slotReady w
/-- How many slots of a core are parked. -/
def State.parkedSlots (s : State) (core : Nat) : Nat :=
  ((List.range (slotCount core)).filter (fun k => s.isParked ⟨core, k⟩)).length

/-! ### The registers an instruction reads or writes (R201) -/

/-- A vector register field as a destination. -/
def vdest (r : BitVec 5) : Dest := .vector (vnum r)

/-- g[4] up to g[4 + n - 1]. -/
def argRegs (n : Nat) : List Dest := (List.range n).map (fun k => .general (BitVec.ofNat 5 (4 + k)))

/-- The general and vector registers that an instruction of majors 0x01 to 0x16 reads or writes. -/
def usesScalar : Instr → List Dest
  | .add d a b => [.general d, .general a, .general b]
  | .sub d a b => [.general d, .general a, .general b]
  | .and d a b => [.general d, .general a, .general b]
  | .or d a b => [.general d, .general a, .general b]
  | .xor d a b => [.general d, .general a, .general b]
  | .andn d a b => [.general d, .general a, .general b]
  | .sll d a b => [.general d, .general a, .general b]
  | .srl d a b => [.general d, .general a, .general b]
  | .sra d a b => [.general d, .general a, .general b]
  | .slt d a b => [.general d, .general a, .general b]
  | .sltu d a b => [.general d, .general a, .general b]
  | .min d a b => [.general d, .general a, .general b]
  | .max d a b => [.general d, .general a, .general b]
  | .minu d a b => [.general d, .general a, .general b]
  | .maxu d a b => [.general d, .general a, .general b]
  | .clz d a => [.general d, .general a]
  | .ctz d a => [.general d, .general a]
  | .popc d a => [.general d, .general a]
  | .sextb d a => [.general d, .general a]
  | .sexth d a => [.general d, .general a]
  | .sextw d a => [.general d, .general a]
  | .zextw d a => [.general d, .general a]
  | .addw d a b => [.general d, .general a, .general b]
  | .subw d a b => [.general d, .general a, .general b]
  | .sllw d a b => [.general d, .general a, .general b]
  | .srlw d a b => [.general d, .general a, .general b]
  | .sraw d a b => [.general d, .general a, .general b]
  | .addi d a _ => [.general d, .general a]
  | .andi d a _ => [.general d, .general a]
  | .ori d a _ => [.general d, .general a]
  | .xori d a _ => [.general d, .general a]
  | .slti d a _ => [.general d, .general a]
  | .sltiu d a _ => [.general d, .general a]
  | .slli d a _ => [.general d, .general a]
  | .srli d a _ => [.general d, .general a]
  | .srai d a _ => [.general d, .general a]
  | .lui d _ => [.general d]
  | .addpc d _ => [.general d]
  | .mul d a b => [.general d, .general a, .general b]
  | .mulh d a b => [.general d, .general a, .general b]
  | .mulhu d a b => [.general d, .general a, .general b]
  | .mulw d a b => [.general d, .general a, .general b]
  | .div d a b => [.general d, .general a, .general b]
  | .divu d a b => [.general d, .general a, .general b]
  | .rem d a b => [.general d, .general a, .general b]
  | .remu d a b => [.general d, .general a, .general b]
  | .beq a b _ => [.general a, .general b]
  | .bne a b _ => [.general a, .general b]
  | .blt a b _ => [.general a, .general b]
  | .bge a b _ => [.general a, .general b]
  | .bltu a b _ => [.general a, .general b]
  | .bgeu a b _ => [.general a, .general b]
  | .jl r _ => [.general r]
  | .jlr d a _ => [.general d, .general a]
  | .cmp _ a b _ => [.general a, .general b]
  | _ => []

/-- The same for the memory, messaging, task, heap, engine, buffer and system instructions. -/
def usesMemory : Instr → List Dest
  | .lb d a _ _ => [.general d, .general a]
  | .lbu d a _ _ => [.general d, .general a]
  | .lh d a _ _ => [.general d, .general a]
  | .lhu d a _ _ => [.general d, .general a]
  | .lw d a _ _ => [.general d, .general a]
  | .lwu d a _ _ => [.general d, .general a]
  | .ld d a _ _ => [.general d, .general a]
  | .sb v a _ _ => [.general v, .general a]
  | .sh v a _ _ => [.general v, .general a]
  | .sw v a _ _ => [.general v, .general a]
  | .sd v a _ _ => [.general v, .general a]
  | .aadd d a b _ _ => [.general d, .general a, .general b]
  | .aand d a b _ _ => [.general d, .general a, .general b]
  | .aor d a b _ _ => [.general d, .general a, .general b]
  | .axor d a b _ _ => [.general d, .general a, .general b]
  | .amin d a b _ _ => [.general d, .general a, .general b]
  | .amax d a b _ _ => [.general d, .general a, .general b]
  | .aminu d a b _ _ => [.general d, .general a, .general b]
  | .amaxu d a b _ _ => [.general d, .general a, .general b]
  | .aswap d a b _ _ => [.general d, .general a, .general b]
  | .acas d a b _ _ => [.general d, .general a, .general b]
  | .redadd a b _ => [.general a, .general b]
  | .redand a b _ => [.general a, .general b]
  | .redor a b _ => [.general a, .general b]
  | .redmin a b _ => [.general a, .general b]
  | .redmax a b _ => [.general a, .general b]
  | .xcaddV a v => [.general a, vdest v]
  | .xcaddG a b => [.general a, .general b]
  | .xcread d a => [vdest d, .general a]
  | .xcclr a => [.general a]
  | .migrate a b => [.general a, .general b]
  | .migto a b => [.general a, .general b]
  | .spawn d a b => [.general d, .general a, .general b]
  | .send d a => [.general d, .general a]
  | .sendt d a => [.general d, .general a]
  | .recv d a => [.general d, .general a] ++ argRegs 10
  | .recvt d a => [.general d, .general a] ++ argRegs 10
  | .append d a b => [.general d, .general a, .general b]
  | .appendt d a b => [.general d, .general a, .general b]
  | .mbstat d => [.general d]
  | .qbind _ a => [.general a]
  | .qwr _ a => [.general a]
  | .qrd d _ => [.general d]
  | .vqwr _ v => [vdest v]
  | .vqrd v _ => [vdest v]
  | .qstat d _ => [.general d]
  | .syncinit d a b => [.general d, .general a, .general b]
  | .acq a => [.general a]
  | .tryacq d a => [.general d, .general a]
  | .rel a => [.general a]
  | .lockrun d a b => [.general d, .general a, .general b]
  | .arrive a b => [.general a, .general b]
  | .await d a => [.general d, .general a]
  | .syncserve a => [.general a]
  | .syncdone a => [.general a]
  | .syncmode d a b => [.general d, .general a, .general b]
  | .syncpol d a b => [.general d, .general a, .general b]
  | .syncfree a => [.general a]
  | .tcinit a b => [.general a, .general b]
  | .tcdec a b => [.general a, .general b]
  | .yield b => [.general b]
  | .dqpush d a b => [.general d, .general a, .general b]
  | .dqpop d => [.general d, .general (d + 1)]
  | .dqsplit d => [.general d]
  | .dqsteal d a => [.general d, .general (d + 1), .general a]
  | .dqlen d => [.general d]
  | .alloc d a => [.general d, .general a]
  | .free a => [.general a]
  | .mldw a => [.general a]
  | .mtld a => [.general a]
  | .mstrm a => [.general a]
  | .mgrp a b _ => [.general a, .general b]
  | .mdrain b => [.general b]
  | .mstat => argRegs 1
  | .anorm a b => [.general a, .general b] ++ argRegs 1
  | .acert a => [.general a]
  | .afetch a => [.general a] ++ argRegs 1
  | .mcovi b => [.general b]
  | .mcovp a b _ => [.general a, .general b] ++ argRegs 2
  | .mcovc a b => [.general a, .general b]
  | .mcovr a b => [.general a, .general b]
  | .ecw b _ => [.general b]
  | .ecr _ => argRegs 1
  | .ego => argRegs 1
  | .ewait b => .general b :: argRegs 1
  | .cbinit a _ => [.general a]
  | .cbacq _ => argRegs 1
  | .cbstat _ => argRegs 2
  | .tstamp d => [.general d]
  | .trig d a _ => [.general d, .general a]
  | .ptblw h l => [.general h, .general l]
  | .csrr d _ => [.general d]
  | .csrw d a _ => [.general d, .general a]
  | .csrs d a _ => [.general d, .general a]
  | .csrc d a _ => [.general d, .general a]
  | .launch d a => [.general d, .general a]
  | .lwait d a => [.general d, .general a]
  | _ => []

/-- The same for the vector instructions; of a conversion to or from ol4 the block's registers and g[rb] too
(R279, R285). -/
def usesVector : Instr → List Dest
  | .vldF32 d a _ _ => [.vector d, .general a]
  | .vldF64 d a _ _ => [.vector d, .general a]
  | .vldbF32 d a _ _ => [.vector d, .general a]
  | .vldbF64 d a _ _ => [.vector d, .general a]
  | .vstF32 v a _ _ => [.vector v, .general a]
  | .vstF64 v a _ _ => [.vector v, .general a]
  | .vadd d a b _ _ => [vdest d, vdest a, vdest b]
  | .vsub d a b _ _ => [vdest d, vdest a, vdest b]
  | .vmul d a b _ _ => [vdest d, vdest a, vdest b]
  | .vmin d a b _ => [vdest d, vdest a, vdest b]
  | .vmax d a b _ => [vdest d, vdest a, vdest b]
  | .vminu d a b _ => [vdest d, vdest a, vdest b]
  | .vmaxu d a b _ => [vdest d, vdest a, vdest b]
  | .vand d a b _ => [vdest d, vdest a, vdest b]
  | .vor d a b _ => [vdest d, vdest a, vdest b]
  | .vxor d a b _ => [vdest d, vdest a, vdest b]
  | .vsll d a b _ => [vdest d, vdest a, vdest b]
  | .vsrl d a b _ => [vdest d, vdest a, vdest b]
  | .vsra d a b _ => [vdest d, vdest a, vdest b]
  | .vcmpeq d a b _ => [vdest d, vdest a, vdest b]
  | .vcmplt d a b _ => [vdest d, vdest a, vdest b]
  | .vcmpltu d a b _ => [vdest d, vdest a, vdest b]
  | .vsel d a b _ => [vdest d, vdest a, vdest b]
  | .vpsum d a _ _ => [vdest d, vdest a]
  | .vwacc d a b _ _ => [vdest d, vdest a, vdest b]
  | .vdot4 d a b _ _ => [vdest d, vdest a, vdest b]
  | .vpsumF32 d a => [vdest d, vdest a]
  | .vfadd d a b _ => [.vector d, vdest a, vdest b]
  | .vfsub d a b _ => [.vector d, vdest a, vdest b]
  | .vfmul d a b _ => [.vector d, vdest a, vdest b]
  | .vfdiv d a b _ => [.vector d, vdest a, vdest b]
  | .vfsqrt d a _ => [.vector d, vdest a]
  | .vfmin d a b _ => [.vector d, vdest a, vdest b]
  | .vfmax d a b _ => [.vector d, vdest a, vdest b]
  | .vfabs d a _ => [.vector d, vdest a]
  | .vfneg d a _ => [.vector d, vdest a]
  | .vfcmpeq _ a b _ => [vdest a, vdest b]
  | .vfcmplt _ a b _ => [vdest a, vdest b]
  | .vfcmple _ a b _ => [vdest a, vdest b]
  | .vfclass d a _ => [.vector d, vdest a]
  | .vfma d a b c _ => [vdest d, vdest a, vdest b, vdest c]
  | .vfms d a b c _ => [vdest d, vdest a, vdest b, vdest c]
  | .vfnma d a b c _ => [vdest d, vdest a, vdest b, vdest c]
  | .vfnms d a b c _ => [vdest d, vdest a, vdest b, vdest c]
  | .vexp2 d a _ => [vdest d, vdest a]
  | .vlog2 d a _ => [vdest d, vdest a]
  | .vrcp d a _ => [vdest d, vdest a]
  | .vrsq d a _ => [vdest d, vdest a]
  | .sigget d a _ => [.general d, vdest a]
  | .sigset d b _ => [vdest d, .general b]
  | .sigmin d a _ => [.general d, vdest a]
  | .bsig v b _ => [.vector v, .general b]
  | .vsplat d a _ f => [vdest d, if fmtScalar f then .general a else vdest a]
  | .vins d a _ f => [vdest d, if fmtScalar f then .general a else vdest a]
  | .vext d a _ f => [if fmtScalar f then .general d else vdest d, vdest a]
  | .vperm d a b _ => [vdest d, vdest a, vdest b]
  | .vhadd d a _ => [vdest d, vdest a]
  | .vcvt d a b _ t src =>
    if t = 5 then vdest d :: .general b :: (List.range 8).map (fun k => vdest (a + BitVec.ofNat 5 k))
    else if src = 5 then [vdest d, vdest a, .general b]
    else [vdest d, vdest a]
  | .vcvti d a _ _ _ _ => [vdest d, vdest a]
  | _ => []

/-- The registers whose relaxed result an instruction waits for; no instruction reads a result in g0 (R201). -/
def regUses (i : Instr) : List Dest :=
  (usesScalar i ++ usesMemory i ++ usesVector i).filter (fun d => decide (d ≠ .general 0))

/-- The oldest relaxed access whose destination an instruction reads or writes (R201). -/
def Slot.hazard (x : Slot) (i : Instr) : Option Relaxed :=
  if x.relaxed = [] then none else x.relaxed.find? (fun r => decide (r.dest ≠ .none) && (regUses i).contains r.dest)

end Sys2Proof.Machine
end

