-- ==== Sys2Proof/Machine/Host.lean ====
section
/-! DEFINITION.  The host link, the service pairs and Daybreak (R46-R48, R63, R135, R366, R371-R383), and firmware's
writes of device memory (R377). -/

namespace Sys2Proof.Machine

/-! ### CXL.mem (R48, R63, R135, R374) -/

/-- The partitions of a process. -/
def State.partsOf (s : State) (pid : BitVec 16) (va : Nat) : List Nat :=
  (List.range 16).filter (fun p => (s.part p).valid && (match s.walk p pid va with | .leaf .. => true | _ => false))
/-- Whether a registered V-space range meets device bytes: its sectors translated (R62, R63). -/
def State.rangeAt (s : State) (r : RangeEntry) (k n : Nat) : Bool :=
  match r.table with
  | .tile _ => false
  | .stations pid _ =>
    (sectorCuts r.lo r.hi).any (fun c => (s.partsOf pid c.1).any (fun p =>
      match s.walk p pid c.1 with
      | .leaf bits e => overlaps k (k + n) (leafKey bits e c.1) (leafKey bits e c.1 + c.2)
      | _ => false))
/-- Whether a host access waits for a registered range (R63). -/
def State.hostWaits (s : State) (k n : Nat) (write : Bool) : Bool := s.ranges.any (fun r => (write || r.write) && s.rangeAt r k n)

/-- The record of a host access that met poison (R353, R355; log entry 21). -/
def hostReport (c : Cause) (addr : Nat) : FaultRec :=
  { cause := c, agent := 6, id := 0, slot := 0, addr := dbl addr, cursor := 0, detail := 0, pid := 0 }

/-- What a host read returns: the bytes, or the poison indication (R366, R374). -/
def State.hostReads (s : State) (r : Option (List Byte)) : State := s.setSys { s.sys with hostRead := r }

/-- The status with which a host access completes: an error, or none (R353). -/
def State.hostEnds (s : State) (bad : Bool) : State := s.setSys { s.sys with hostError := bad }

/-- HOST_ACCESS (R48, R63, R135, R353, R366, R374): a read returns the bytes, or where it meets poison the poison indication;
a write writes data only; one that meets poison completes with error status and posts a record.  While the host is fenced a read returns the poison indication, a write is
discarded, and both are counted.  An access past the interleave lies outside the CXL.mem range (R371). -/
def execHostAccess (addr n : Nat) (data : Option (List (BitVec 8))) (s : State) : Out :=
  let k := devKey addr
  .next (if !s.sys.hostUp then s
    else if s.sys.fenced then
      let s := s.setSys { s.sys with hostDropped := s.sys.hostDropped + 1 }
      if data.isNone then (s.hostEnds false).hostReads none else s.hostEnds false
    else match data with
    | none =>
      if s.interleaveEnd < addr + n || s.hostWaits k n false then s
      else if s.anyPoison k n then ((s.hostEnds true).hostReads none).postAll (hostReport .poison addr)
      else (s.hostEnds false).hostReads (some (s.bytes k n))
    | some bs =>
      if s.interleaveEnd < addr + bs.length || s.hostWaits k bs.length true then s
      else if s.partlyPoisoned k bs.length then (s.hostEnds true).postAll (hostReport .poison addr)
      else (s.hostEnds false).physWrite k bs)

/-! ### Heartbeats and fencing (R372, R374-R376) -/

/-- HBHOST_WRITE (R374): the first write arms the checks. -/
def execHbhostWrite (v : BitVec 64) (s : State) : Out :=
  .next (if s.sys.hostUp then s.setSys { s.sys with hbhost := v, hbArmed := true } else s)

/-- A slot that is to take FENCED for a write that the host never saw. -/
def Slot.lost (x : Slot) (id : Nat) (p : Posted) : Slot :=
  { x with unacked := x.unacked ++ [{ id := id, addr := p.ea, fault := some (.fenced, dbl p.ea), arrive := false }] }

/-- The writes that have not passed the ordering point at a fence: the host never sees them, and each is held against
its thread, which takes FENCED where it next waits for acknowledgements (R135, R215, R374; log entry 15). -/
def State.losePosted (s : State) : State :=
  let t := s.posted.foldl (fun t p => t.setBytes p.key ((List.range p.old.length).map (fun i => s.hostByte (p.key + i)))) s
  s.posted.foldl (fun t p =>
    (t.allThreads.filter (fun w => decide ((t.slot w).thread = p.thread))).foldl (fun t w =>
      { t with nextId := t.nextId + 1 }.setSlot w ((t.slot w).lost t.nextId p)) t)
    { t with posted := [] }

/-- The host fenced at one instant (R374). -/
def State.fenceHost (s : State) : State :=
  let s := s.losePosted
  (s.setSys { s.sys with fenced := true, epoch := s.sys.epoch + 1, hbMisses := 0 }).postAll (hostReport .fenced 0)

/-- HEARTBEAT_CHECK (R374): once per ms; the third successive check that finds hbhost unchanged fences the host. -/
def execHeartbeatCheck (s : State) : Out :=
  .next (if !s.sys.hbArmed || !s.leaderUp || decide (s.sys.meridian < s.sys.hbAt + 1000000) then s
    else
      let s := s.setSys { s.sys with hbAt := s.sys.meridian }
      if s.sys.hbhost ≠ s.sys.hbSeen then s.setSys { s.sys with hbSeen := s.sys.hbhost, hbMisses := 0 }
    else if s.sys.fenced then s
    else if 3 ≤ s.sys.hbMisses + 1 then s.fenceHost
    else s.setSys { s.sys with hbMisses := s.sys.hbMisses + 1 })

/-- UNFENCE (R375). -/
def execUnfence (v : BitVec 64) (s : State) : Out :=
  .next (if s.sys.hostUp && s.sys.fenced && decide (v.toNat = s.sys.epoch) then s.setSys { s.sys with fenced := false, hbSeen := s.sys.hbhost, hbMisses := 0 } else s)

/-- HBDEV_TICK (R372, R376): each ms hbdev advances while a pair is alive, and is mirrored to the host. -/
def execHbdevTick (s : State) : Out :=
  .next (if s.sys.alive = 0 ∨ s.sys.meridian < s.sys.hbdevAt + 1000000 then s
    else
      let v := s.sys.hbdev + 1
      let s := s.setSys { s.sys with hbdev := v, hbdevAt := s.sys.meridian }
      if s.sys.hbmirror = 0 ∨ s.sys.fenced then s else s.physWrite (hostKey s.sys.hbmirror.toNat) (leBytes 8 v.toNat))

/-- devstat (R373). -/
def State.devstat (s : State) : Nat :=
  s.sys.alive.toNat + s.sys.leader % 8 * 2 ^ 8 + (if s.sys.fenced then 2 ^ 12 else 0) + s.sys.takeovers % 2 ^ 32 * 2 ^ 32

/-! ### Service pairs (R377-R379) -/

/-- PAIR_STOP (R377). -/
def execPairStop (pair : Nat) (s : State) : Out :=
  .next (s.setSys { s.sys with alive := s.sys.alive &&& ~~~(1#8 <<< pair) })

/-- LIVENESS_STAMP (R378). -/
def execLivenessStamp (s : State) : Out :=
  .next (if s.leaderUp then s.setSys { s.sys with stamp := s.sys.meridian } else s)

/-- The lowest-numbered live pair. -/
def State.lowestPair (s : State) : Option Nat := (List.range 8).find? (fun k => s.pairUp k)

/-- cap0 (R396). -/
def State.cap0 (s : State) : Nat :=
  let up := (List.range 16).filter (fun k => s.sys.dies.getLsbD (k / 2))
  s.sys.dies.toNat + (up.filter (fun k => !s.sys.spareTiles.contains k)).length * 2 ^ 8 + s.sys.sgmask.toNat * 2 ^ 16 +
    s.channels * 2 ^ 32
/-- cap1 (R396). -/
def State.cap1 (s : State) : Nat :=
  let up := (List.range 16).filter (fun k => s.sys.dies.getLsbD (k / 2))
  (256 * up.length - s.sys.spareCores.length) + s.interleaveEnd / 2 ^ 20 * 2 ^ 32

/-- The signed part of a quote with a nonce, at this instant (R403). -/
def State.quoteBody (s : State) (nonce : List Byte) : List Byte :=
  leBytes 8 1 ++ leBytes 8 s.sys.meridian ++ nonce.take 32 ++
  (List.range 8).flatMap (fun k => leBytes 32 (if s.pairUp k then (s.sys.measures.getD k 0).toNat else 0)) ++
  (List.range 8).flatMap (fun k => leBytes 32 (s.sys.maps.getD k 0).toNat) ++
  leBytes 8 s.cap0 ++ leBytes 8 s.cap1 ++ leBytes 8 s.devstat

/-! ### Daybreak (R383) -/

/-- The dies that come up: the pair's firmware and the repair map verify (R383). -/
def bootDies (b : BootReport) : BitVec 8 := b.pairs &&& b.dies

/-- The channels that are retired at Daybreak: those that it reports, those that failed before it, and those of the
four stacks of a die that stays down, which are not trained (R46, R383, R395). -/
def bootRetired (b : BootReport) (failed : List Nat) : List Nat :=
  (List.range 2048).filter (fun n => b.retired.contains n || failed.contains n || !(bootDies b).getLsbD (n / 256))

/-- The tiles whose spare core the repair maps have in use, of the dies that come up (R1, R4, R383). -/
def bootSpareCores (b : BootReport) : List Nat :=
  (b.spareCores.filter (fun t => decide (t < 4096) && (bootDies b).getLsbD (t / 512))).eraseDups
/-- The super-groups whose spare tile the repair maps have in use, of the dies that come up (R1, R4, R383). -/
def bootSpareTiles (b : BootReport) : List Nat :=
  (b.spareTiles.filter (fun k => decide (k < 16) && (bootDies b).getLsbD (k / 2))).eraseDups

/-- The state that Daybreak leaves (R1, R383): the package as at reset, with the dies and channels that came up, less
the channels that had failed (R395), and the spares in use and super-groups withdrawn of the repair maps; the host port
comes up under a leader.  The interleave and the remnant region follow from the channels and their depths (R46, R47). -/
def bootState (b : BootReport) (failed : List Nat) : State :=
  let sg := (List.range 16).foldl (fun (m : BitVec 16) k =>
    if (bootDies b).getLsbD (k / 2) && !b.withdrawn.getLsbD k then m ||| (1#16 <<< k) else m) 0
  let leader := (List.range 8).find? (fun k => (bootDies b).getLsbD k)
  State.reset.setSys { Sys.reset with
    alive := (bootDies b), dies := (bootDies b), sgmask := sg, leader := leader.getD 0, hostUp := leader.isSome
    retired := bootRetired b failed
    depths := b.depths.foldl (fun m p => mapPut m p.1 (min fullDepth p.2)) []
    spareCores := bootSpareCores b, spareTiles := bootSpareTiles b
    measures := b.measures.mapIdx (fun k m => if (bootDies b).getLsbD k then m else 0), maps := b.maps }
/-- DAYBREAK (R383): power-on; what the environment does next is kept. -/
def execDaybreak (boot : BootReport) (s : State) : Out :=
  let failed := s.sys.mapout.filterMap (fun u => match u with | .channel n => some n | _ => none)
  .next { bootState boot failed with agenda := s.agenda, focus := s.focus, free := s.free }

/-! ### Links (R381, R393, R394) -/

/-- LINK_RETRY (R393). -/
def execLinkRetry (link : Nat) (s : State) : Out := .next (if s.sys.dead.contains link then s else s.count 0x118 1)

/-- DUSK (R394): the link is dead; injection pauses, which only delays messages. -/
def execDusk (link : Nat) (s : State) : Out :=
  .next (if s.sys.dead.contains link then s else (s.setSys { s.sys with dead := s.sys.dead ++ [link] }).count 0x120 1)

/-- DUSK_RESUME (R394): injection resumes over new routes; each lost packet is sent again in issue order, ahead of any
later packet, so that the messages in flight stay as they are. -/
def execDuskResume (link lost : Nat) (s : State) : Out :=
  .next (if s.sys.dead.contains link then
      (s.setSys { s.sys with dead := s.sys.dead.filter (fun k => k != link) }).count 0x128 lost
    else s)

end Sys2Proof.Machine
end

