-- ==== Sys2Proof/Machine/Passes.lean ====
section
/-! DEFINITION.  The array's steps: the rows that an operation passes one at a time, its end once they are passed, the span
join, and the read-back of the coverage store (R145, R149, R153, R154, R161-R164, R292-R296, R301-R304, R331). -/

namespace Sys2Proof.Machine

/-! ### Rows (R164) -/

/-- What an operation does to its tile before its first row (R149, R161, R292). -/
def Tile.opBegin (t : Tile) (o : GangOp) : Tile :=
  match o.fn with
  | .mldw => { t with shadow := o.newPlane }
  | .mtld => { t with shadow := o.newPlane }
  | .mstrm => { t with amode := t.streamMode o }
  | .mcovp => t.probeStart o
  | _ => t

/-- An operation's tile as its next row finds it. -/
def State.opBegin (s : State) (tile : Nat) (o : GangOp) : State :=
  if o.row = 0 then s.setTile tile ((s.tile tile).opBegin o) else s

/-- A row of an operation that only changes its tile (R149, R161, R163, R292). -/
def State.tileRow (s : State) (t : Tile) (o : GangOp) (k : Nat) (fl : SMap Flags) : Tile × SMap Flags :=
  match o.opRows[k]? with
  | none => (t, fl)
  | some q =>
    match o.fn with
    | .mldw => ({ t with shadow := s.loadRow o.fn t.shadow q }, fl)
    | .mtld => ({ t with shadow := s.loadRow o.fn t.shadow q }, fl)
    | .mstrm => s.streamRow t t.amode q fl
    | .mcovp => s.coverRow t o.rb (some o.imm) k q.2.1 q.2.2 fl
    | .mcovc => s.coverRow t o.rb none k q.2.1 q.2.2 fl
    | _ => (t, fl)

/-- Row k of an operation, with the flags that it has raised, by core of the columns: a row of operands, of which each is one
K-block of every accumulator of its row, or a row that a drain writes (R81, R149, R153, R154, R161). -/
def State.passRow (s : State) (tile : Nat) (o : GangOp) (k : Nat) (fl : SMap Flags) : State × SMap Flags :=
  match o.fn with
  | .mdrain => s.drainRow tile o o.rb 32 k k fl
  | .mgrp => s.groupRow tile o k fl
  | _ =>
    let z := s.tileRow (s.tile tile) o k fl
    (s.setTile tile z.1, z.2)

/-- n rows of an operation from row k on. -/
def State.passRows (s : State) (tile : Nat) (o : GangOp) : Nat → Nat → SMap Flags → State × SMap Flags
  | 0, _, fl => (s, fl)
  | n + 1, k, fl => let z := s.passRow tile o k fl; z.1.passRows tile o n (k + 1) z.2

/-- The rows that an operation has left, and then the flags of all of them, which accrue in the slots that issued it (R71,
R153, R161). -/
def State.passAll (s : State) (tile : Nat) (o : GangOp) : State :=
  let z := (s.opBegin tile o).passRows tile o (o.rowCount - o.row) o.row o.fl
  z.1.accrueCols tile o z.2

/-- Whether the next row of an operation holds a byte that is poisoned (R151). -/
def State.nextPoison (s : State) (o : GangOp) : Bool := o.rowsLeft.head?.any (fun q => s.rowPoison q.2.1 q.2.2)

/-- The array passes the next row of a running operation: of the load of the shadow plane, or of the other that runs (R145,
R164). -/
def State.opRowPast (s : State) (tile : Nat) (load : Bool) : State :=
  match (s.tile tile).running (fun f => f.isLoad == load) with
  | some o =>
    if !s.tileRuns tile || !s.spanReady tile o || s.nextPoison o || decide (o.rowCount ≤ o.row) then s
    else
      let z := (s.opBegin tile o).passRow tile o o.row o.fl
      z.1.updOp tile o (fun p => { p with row := p.row + 1, fl := z.2 })
  | none => s

/-! ### The ends of operations -/

/-- SHADOW_LOAD (R292). -/
def execShadowLoad (tile : Nat) (s : State) : Out := s.onOp tile GangFn.isLoad (fun o => (s.passAll tile o).endOp tile o)

/-- PLANE_SWAP (R293). -/
def execPlaneSwap (tile : Nat) (s : State) : Out :=
  s.onOp tile (fun f => decide (f = .mswap)) (fun o =>
    let t := s.tile tile
    (s.setTile tile { t with live := t.shadow, shadow := t.live }).endOp tile o)

/-- ACCUMULATOR_ZERO (R293). -/
def execAccumulatorZero (tile : Nat) (s : State) : Out :=
  s.onOp tile (fun f => decide (f = .mzero)) (fun o =>
    (s.setTile tile { s.tile tile with accs := [], amode := .unset }).endOp tile o)

/-- STREAM_PASS (R149, R294): the rows that are left, in order of m. -/
def execStreamPass (tile : Nat) (s : State) : Out :=
  s.onOp tile (fun f => decide (f = .mstrm)) (fun o => (s.passAll tile o).endOp tile o)

/-- DRAIN (R153): the elements and masks are performed, the range is removed, and then the wake-up is sent
(R323). -/
def execDrain (tile : Nat) (s : State) : Out :=
  s.onOp tile (fun f => decide (f = .mdrain)) (fun o => ((s.passAll tile o).endOp tile o).drainWake tile o.launch o.rb 1)

/-- GROUPED_PRODUCT (R154, R295): the accumulators end as after MZERO, and then the wake-ups are due. -/
def execGroupedProduct (tile : Nat) (s : State) : Out :=
  s.onOp tile (fun f => decide (f = .mgrp)) (fun o =>
    let s := s.passAll tile o
    let s := (s.setTile tile { s.tile tile with accs := [], amode := .unset }).endOp tile o
    o.groups.foldl (fun s v => s.drainWake tile o.launch v (if dwRows v = 0 then 0 else 1)) s)

/-- COVERAGE_INIT (R160, R301): the store's type and a range of entries. -/
def execCoverageInit (tile : Nat) (s : State) : Out :=
  s.onOp tile (fun f => decide (f = .mcovi)) (fun o =>
    let t := s.tile tile
    let v := highW o.rb
    let c := (List.range (field o.rb 16 13)).foldl (fun c k => mapPut c (field o.rb 0 12 + k) v) t.cover
    (s.setTile tile { t with covFp := bit o.rb 31, cover := c }).endOp tile o)

/-- COVERAGE_READBACK (R163, R304, R331): the entries are written with tag 62 and the members wake. -/
def execCoverageReadback (tile : Nat) (s : State) : Out :=
  s.onOp tile (fun f => decide (f = .mcovr)) (fun o =>
    let t := s.tile tile
    let pid := ((s.launch? o.launch).map (fun l => l.pid)).getD 0
    let bs := (List.range (field o.rb 16 13)).flatMap (fun k => leBytes 4 (mapGet t.cover (0 : W32) (field o.rb 0 12 + k)).toNat)
    let ws := s.opWaiters o
    let s := (s.arrayPut ((s.partOf (16 * tile)).getD 0) o.launch pid o.ra.toNat bs).endOp tile o
    ws.foldl (fun s w => s.setSlot w (s.slot w).next) s)

/-- COVERAGE_COMMIT (R163, R303). -/
def execCoverageCommit (tile : Nat) (s : State) : Out :=
  s.onOp tile (fun f => decide (f = .mcovc)) (fun o => (s.passAll tile o).endOp tile o)

/-- COVERAGE_PROBE (R161, R162, R302): a tile applies its own pass; the operation of a span once every tile of it
has queued its own. -/
def execCoverageProbe (tile : Nat) (s : State) : Out :=
  s.onOp tile (fun f => decide (f = .mcovp)) (fun o =>
    if !o.isSpan then
      let s := s.passAll tile o
      s.coverEnd tile o ((s.tile tile).gains o.imm)
    else
      match s.spanOps tile o with
      | none => s
      | some l =>
        if s.spanReady tile o then (s.passAll tile o).updOp tile o (fun p => { p with probed := true })
        else if l.all (fun p => s.tileRuns p.1) then s.spanFails l else s)

/-- SPAN_JOIN (R162): every tile of the span has applied its own pass; the totals are formed and the members of
every tile wake with the winner. -/
def execSpanJoin (tile : Nat) (s : State) : Out :=
  let ord := (s.tile tile).spanOrd
  .next (match (s.tile tile).waitingSpan ord with
    | some o =>
      let ks := spanTiles tile o.rb
      let ops := ks.map (fun k => ((s.tile k).waitingSpan ord).map (fun p => (k, p)))
      if !ks.all s.tileRuns || ops.any (fun p => p.isNone) then s
      else
        let z := spanTotals (covMode (s.tile tile).covFp) (ops.filterMap (fun p => p.map (fun q => (s.tile q.1).gains q.2.imm)))
        (ops.filterMap (fun p => p)).foldl (fun s p => ((s.accrueCols p.1 p.2 z.2).coverEnd p.1 p.2 z.1).countSpan p.1) s
    | none => s)

/-! ### Reruns (R151) -/

/-- The step that runs an operation of the array. -/
def State.runFn (s : State) (tile : Nat) (f : GangFn) : Out :=
  match f with
  | .mldw => execShadowLoad tile s
  | .mtld => execShadowLoad tile s
  | .mswap => execPlaneSwap tile s
  | .mzero => execAccumulatorZero tile s
  | .mstrm => execStreamPass tile s
  | .mgrp => execGroupedProduct tile s
  | .mdrain => execDrain tile s
  | .mcovi => execCoverageInit tile s
  | .mcovp => execCoverageProbe tile s
  | .mcovc => execCoverageCommit tile s
  | .mcovr => execCoverageReadback tile s

/-- Whether an operation reads the array's own storage: accumulators that it drains, or the coverage store (R151). -/
def GangOp.readsStore (o : GangOp) : Bool :=
  decide (o.fn = .mdrain) || decide (o.fn = .mcovp) || decide (o.fn = .mcovc) || decide (o.fn = .mcovr)

/-- An operation as its rerun begins (R151). -/
def GangOp.afresh (o : GangOp) : GangOp := { o with row := 0, fl := [] }

/-- A good rerun: the snapshot is restored, the operands are fetched again, the operation is performed from its first row, and
the rerun is counted (R151, R393). -/
def State.rerun (s : State) (tile : Nat) (o : GangOp) : Out :=
  (((s.setTile tile ((s.tile tile).restored o)).updOp tile o GangOp.afresh).count 0x130 1).runFn tile o.fn

end Sys2Proof.Machine
end

