-- ==== Sys2Proof/Machine/Fleet.lean ====
section
/-! DEFINITION.  The control registers and the fleet: Eventide (R344-R346), Nightfall (R384-R388), the trace registers
(R389, R391), self-test and map-out (R395, R396), partitions (R397, R398), islands (R399-R401), telemetry (R402) and
attestation (R403). -/

namespace Sys2Proof.Machine

/-! ### Eventide (R344-R346) -/

/-- Whether every core of a partition stands at a frame boundary (R344). -/
def State.atBoundary (s : State) (p : Nat) : Bool := s.cores.all (fun c => !s.inPart p c.1 || decide (c.2.pos = 0))

/-- A partition's run state replaced. -/
def State.setRun (s : State) (p : Nat) (r : RunState) : State := s.setPart p { s.part p with run := r }

/-- An Eventide requested: T is 20 µs on and the placement in progress is rolled back; a request before T joins, and
one while Nightfall holds the partition, or while it is being restored, waits for the resume (R344, R386). -/
def State.eventide (s : State) (p : Nat) : State :=
  if !(s.part p).valid then s
  else match (s.part p).run with
    | .running => { s with cached := false }.rollback p |>.setRun p (.eventide (s.sys.meridian + 20000))
    | .eventide _ => s
    | .saved _ => s
    | _ => s.setPart p { s.part p with evWaiting := true }
/-- EVENTIDE_REQUEST (R344, R377): behind its journal record. -/
def execEventideRequest (part : Nat) (s : State) : Out :=
  .next (if s.leaderUp then s.osChange (.eventide part) (fun s => s.eventide part) else s)

/-- EVENTIDE_STOP (R344, R345): at T, with every core at a frame boundary; the state stays as it is saved. -/
def execEventideStop (part : Nat) (s : State) : Out :=
  .next (match (s.part part).run with
    | .eventide t => if s.sys.meridian < t || !s.atBoundary part then s else s.setRun part (.saved t)
    | _ => s)

/-- The instant to which a timer of a core that stopped for T runs on: its remaining time counts from the restart
(R345, R385). -/
def State.resumedAt (s : State) (c t due : Nat) : Nat := due + (s.sys.meridian - s.stoppedAt c t)

/-- The timers of a partition, each moved by f of its core: a refused context's backoff, a combining node's wait and a
forwarding entry's age (R28, R117, R345). -/
def State.retime (s : State) (p : Nat) (f : Nat → Nat → Nat) : State :=
  { s with
    net := s.net.map (fun m => match m.body with
      | .packet c d n st due => if s.inPart p m.src.core then { m with body := .packet c d n st (f m.src.core due) } else m
      | _ => m)
    nodes := s.nodes.map (fun n => if s.inPart p n.firstCore then { n with since := f n.firstCore n.since } else n)
    cores := s.cores.map (fun (k : Nat × Core) => if s.inPart p k.1 then
      (k.1, { k.2 with forwards := k.2.forwards.map (fun w => { w with since := f k.1 w.since }) }) else k) }

/-- The timers of a partition that stopped for T, which counts as its cores', run on from the restart (R345). -/
def State.shiftTimers (s : State) (p t : Nat) : State := s.retime p (fun c due => s.resumedAt c t due)

/-- The distance of the second agreed instant, which the manual does not state (R346, R385; log entry 30). -/
def State.restartAt (s : State) : Nat := s.sys.meridian + (Config.freeValue s.free).toNat

/-! ### Self-test and map-out (R395, R396) -/

/-- Whether a launch holds one of n cores from first on. -/
def State.heldIn (s : State) (first n : Nat) : Bool := !s.unitFree first n

/-- A unit mapped out and counted (R393, R395). -/
def State.countMapped (s : State) : State := s.count 0x168 1

/-- A kill that the device OS makes of its own, with its journal record (R370, R377). -/
def State.killNow (s : State) (w : Who) : State := ((s.journaled (s.killOf w)).kill w).markRecord (s.killOf w)

/-- A gang of a withdrawn super-group ends: its threads are killed, its waiting contexts and work are gone, and its
launch, which places no more gangs, ends KILLED (R377, R395). -/
def State.endGang (s : State) (l : Launch) (h : Nat × Nat) : State :=
  let within := fun (c : Nat) => decide (h.1 ≤ c ∧ c < h.1 + h.2)
  let s := (s.allThreads.filter (fun w => within w.core && decide ((s.slot w).launch = l.id))).foldl (fun s w => s.killNow w) s
  let s := { s with
    cores := s.cores.map (fun (p : Nat × Core) => if within p.1 then (p.1, { p.2 with
      arrival := p.2.arrival.filter (fun c => decide (c.launch ≠ l.id)), spill := p.2.spill.filter (fun c => decide (c.launch ≠ l.id))
      runList := [] }) else p)
    tiles := s.tiles.map (fun (p : Nat × Tile) => if within (16 * p.1) then (p.1, { p.2.clearArray with
      certs := [], engine := { p.2.engine with committed := none, live := none, suspended := [] } }) else p)
    net := s.net.filter (fun m => !(within m.src.core && m.body.works l.id)) }
  s.updLaunch l.id (fun l => { l with status := 6, held := l.held.filter (fun k => decide (k ≠ h)) })

/-- A partition's entry register (R397). -/
def Partition.entry (x : Partition) : Word :=
  dbl (x.sgs.toNat * 2 ^ 48 + x.pid.toNat * 2 ^ 32 + (if x.valid then 1 else 0))

/-- A super-group withdrawn: cleared from every partition and from sgmask, and the gangs that hold units in it end; the
changes of the partition table stand in the journal (R377, R395). -/
def State.withdraw (s : State) (sg : Nat) : State :=
  let hit := fun (h : Nat × Nat) => overlaps h.1 (h.1 + h.2) (4096 * sg) (4096 * sg + 4096)
  let s := (s.launches.filter (fun l => l.held.any hit)).foldl (fun s l =>
    let s := (l.held.filter hit).foldl (fun s h => s.endGang l h) s
    ({ s with cached := false }.dequeue l).updLaunch l.id (fun l => { l with state := .running })) s
  let less := fun (x : Partition) => ({ x with sgs := x.sgs &&& ~~~(1#16 <<< sg) } : Partition)
  let hits := s.parts.filter (fun p => p.2.sgs.getLsbD sg)
  let s := hits.foldl (fun s p => (s.journaled (.entry p.1 (less p.2).entry)).markRecord (.entry p.1 (less p.2).entry)) s
  { s with parts := s.parts.map (fun (p : Nat × Partition) => (p.1, less p.2)) }.setSys
    { s.sys with sgmask := s.sys.sgmask &&& ~~~(1#16 <<< sg) }

/-- The unit that stands for a failure: a core whose tile's spare core is in use is its whole tile (R395). -/
def State.failureOf (s : State) (u : FailedUnit) : FailedUnit :=
  match u with
  | .core c => if s.sys.spareCores.contains (tileOf c) then .tile (tileOf c) else u
  | _ => u

/-- The cores that must be idle for a failed unit to be mapped out at once, by first core and count (R395). -/
def State.failureSpan (s : State) (u : FailedUnit) : Nat × Nat :=
  match u with
  | .core c => (c, 1)
  | .tile t => if s.sys.spareTiles.contains (t / 256) then (t / 256 * 4096, 4096) else (16 * t, 16)
  | _ => (0, 0)

/-- A failed unit mapped out: a spare stands in under the same logical IDs, or the super-group is withdrawn (R395).  A
spare tile brings a spare core of its own, unused (R2, R4).  DESIGN CHOICE (log entry 34): a failed spare counts as used. -/
def State.mapOut (s : State) (u : FailedUnit) : State :=
  match s.failureOf u with
  | .core c => (s.setSys { s.sys with spareCores := s.sys.spareCores ++ [tileOf c] }).countMapped
  | .tile t =>
    if s.sys.spareTiles.contains (t / 256) then (s.withdraw (t / 256)).countMapped
    else (s.setSys { s.sys with
      spareTiles := s.sys.spareTiles ++ [t / 256], spareCores := s.sys.spareCores.filter (fun k => k != t) }).countMapped
  | .spareCore t => s.setSys { s.sys with spareCores := s.sys.spareCores ++ [t] }
  | .spareTile k => s.setSys { s.sys with spareTiles := s.sys.spareTiles ++ [k] }
  | .channel _ => s

/-- The record of a failed unit, whose cause the manual does not state (R395; log entry 30). -/
def unitReport (u : FailedUnit) (code : Nat) : FaultRec :=
  let id := match u with
    | .core c => c
    | .tile t => 16 * t
    | .channel n => n
    | .spareCore t => 16 * t
    | .spareTile k => 4096 * k
  { cause := .poison, agent := 7, id := id, slot := 0, addr := 0, cursor := 0, detail := 0, pid := 0, code := some code }

/-- An Eventide that the device OS requests of its own, with its journal record (R377, R395). -/
def State.eventideNow (s : State) (p : Nat) : State := ((s.journaled (.eventide p)).eventide p).markRecord (.eventide p)

/-- Whether a unit has failed already and waits to be mapped out, by itself or with its tile; or is no spare, since it
stands in for a unit (R4, R395). -/
def State.failedAlready (s : State) (u : FailedUnit) : Bool :=
  s.sys.mapout.contains u || (match u with
    | .core c => s.sys.mapout.contains (.tile (tileOf c))
    | .spareCore t => s.sys.spareCores.contains t
    | .spareTile k => s.sys.spareTiles.contains k
    | _ => false)

/-- A failed unit that waits to be mapped out; a tile takes its waiting cores with it (R395). -/
def State.awaitMapOut (s : State) (u : FailedUnit) : State :=
  let inTile := fun (v : FailedUnit) => match u, v with | .tile t, .core c => decide (tileOf c = t) | _, _ => false
  s.setSys { s.sys with mapout := s.sys.mapout.filter (fun v => !inTile v) ++ [u] }

/-- A failed unit taken up by the device OS: an idle unit is mapped out at once, and one held by a gang waits for an Eventide
of its partition (R395). -/
def State.takeUp (s : State) (u : FailedUnit) : State :=
  let sp := s.failureSpan u
  if s.heldIn sp.1 sp.2 then
    ((List.range 16).filter (fun p => s.launches.any (fun l => decide (l.part = p) &&
      l.held.any (fun h => overlaps h.1 (h.1 + h.2) sp.1 (sp.1 + sp.2))))).foldl (fun s p => s.eventideNow p) (s.awaitMapOut u)
  else s.mapOut u

/-- A unit that failed (R395): counted and reported, and then taken up by the device OS, where a leader runs it (R377); a
channel is retired at the next Daybreak. -/
def State.unitFails (s : State) (unit : FailedUnit) : State :=
  let u := s.failureOf unit
  if s.failedAlready u then s
  else
    let s := (s.count 0x160 1).postAll (unitReport unit (Config.freeValue s.free).toNat)
    let s := { s with free := s.free + 1 }
    match u with
    | .channel _ => s.awaitMapOut u
    | _ => if s.leaderUp then s.takeUp u else s.awaitMapOut u

/-- The failed units that a new leader takes up (R377, R378, R395). -/
def State.takeUpAll (s : State) : State :=
  let us := s.sys.mapout.filter (fun u => match u with | .channel _ => false | _ => true)
  us.foldl (fun s u => (s.setSys { s.sys with mapout := s.sys.mapout.filter (fun v => v != u) }).takeUp u) s

/-- UNIT_FAILURE (R395): a unit fails self-test. -/
def execUnitFailure (unit : FailedUnit) (s : State) : Out := .next (s.unitFails unit)

/-- The failed units that lie in a partition and wait for its Eventide. -/
def State.waitingUnits (s : State) (p : Nat) : List FailedUnit :=
  s.sys.mapout.filter (fun u => match u with
    | .core c => s.inPart p c
    | .tile t => s.inPart p (16 * t)
    | _ => false)

/-- EVENTIDE_RESUME (R346, R377, R395): the device OS has the images restored, spares standing in for units mapped out, and a
second instant is agreed; at it every core restarts from the state that was saved, with its held messages in their order and
its timers at their remaining time, and an Eventide requested meanwhile begins. -/
def execEventideResume (part : Nat) (s : State) : Out :=
  .next (match (s.part part).run with
    | .saved t =>
      if !s.leaderUp then s
      else
        let us := s.waitingUnits part
        let s := s.setSys { s.sys with mapout := s.sys.mapout.filter (fun u => !us.contains u) }
        let s := us.foldl (fun s u => s.mapOut u) s
        { s with free := s.free + 1 }.setRun part (.restoring t s.restartAt)
    | .restoring t r =>
      if s.sys.meridian < r then s
      else
        let x := s.part part
        let s := (s.shiftTimers part t).setPart part { x with run := .running, evWaiting := false }
        if x.evWaiting then s.eventide part else s
    | _ => s)

/-! ### Contexts switched by an Eventide (R345, R346) -/

/-- Whether a message belongs to a partition's cores: one of them sent it, or it is bound for one. -/
def State.netOf (s : State) (p : Nat) (m : Msg) : Bool :=
  s.inPart p m.src.core || m.boundFor.any (fun c => s.inPart p c) ||
  (match m.body with | .release _ _ _ todo _ => todo.any (fun c => s.inPart p c) | _ => false)

/-- Whether a message is one that the memory side still performs: it drops into no holding buffer yet. -/
def Msg.underWay (m : Msg) : Bool :=
  match m.body with
  | .access a => (match a.stage with
    | .walk => true
    | .held .. => true
    | .edge .. => true
    | .shadow .. => true
    | _ => false)
  | _ => false

/-- Whether a range belongs to a partition, by its owner. -/
def State.rangeOf (s : State) (p : Nat) (r : RangeEntry) : Bool :=
  match r.owner with
  | .job t _ => s.inPart p (16 * t)
  | .member w => s.inPart p w.core
  | .op t _ => s.inPart p (16 * t)
  | .certify t _ _ => s.inPart p (16 * t)

/-- A core's counts, trace buffer and last boundary, which are the part's and in no image (R31, R387, R389). -/
def Core.keep (c now : Core) : Core :=
  { c with issued := now.issued, bubbles := now.bubbles, parkedCycles := now.parkedCycles, trace := now.trace
           boundary := now.boundary, sent := now.sent, received := now.received, cache := [] }

/-- The image of a saved partition (R345). -/
def State.imageOf (s : State) (p : Nat) : Image :=
  { at_ := s.sys.meridian
    slots := s.slots.filter (fun x => s.inPart p (x.1 / 8))
    cores := s.cores.filter (fun x => s.inPart p x.1)
    tiles := s.tiles.filter (fun x => s.inPart p (16 * x.1))
    mem := s.mem.filter (fun x => decide (x.1 < 2 ^ 36) && s.inPart p (homeOf x.1))
    stags := s.stags.filter (fun x => s.inPart p (homeOf (4 * x.1)))
    poison := s.poison.filter (fun x => decide (x.1 < 2 ^ 36) && s.inPart p (homeOf (4 * x.1)))
    net := s.net.filter (s.netOf p), nodes := s.nodes.filter (fun n => s.inPart p n.firstCore), ranges := s.ranges.filter (s.rangeOf p)
    held := (s.launches.filter (fun l => decide (l.part = p ∧ l.held ≠ []))).map (fun l => (l.id, l.held)) }

/-- A partition with its image taken out: its cores hold no thread, and its units no launch. -/
def State.cleared (s : State) (p : Nat) : State :=
  { s with
    slots := s.slots.filter (fun x => !s.inPart p (x.1 / 8))
    cores := s.cores.map (fun (x : Nat × Core) => if s.inPart p x.1 then (x.1, Core.reset.keep x.2) else x)
    tiles := s.tiles.filter (fun x => !s.inPart p (16 * x.1))
    mem := s.mem.filter (fun x => !(decide (x.1 < 2 ^ 36) && s.inPart p (homeOf x.1)))
    stags := s.stags.filter (fun x => !s.inPart p (homeOf (4 * x.1)))
    poison := s.poison.filter (fun x => !(decide (x.1 < 2 ^ 36) && s.inPart p (homeOf (4 * x.1))))
    net := s.net.filter (fun m => !s.netOf p m), nodes := s.nodes.filter (fun n => !s.inPart p n.firstCore)
    ranges := s.ranges.filter (fun r => !s.rangeOf p r)
    launches := s.launches.map (fun (l : Launch) => if l.part = p then { l with held := [] } else l) }

/-- An image put into a partition's cores, which hold nothing; its timers count from the stop of this Eventide. -/
def State.restored (s : State) (p t : Nat) (i : Image) : State :=
  let s := i.slots.foldl (fun s x => s.setSlot ⟨x.1 / 8, x.1 % 8⟩ { x.2 with traps := (s.slot ⟨x.1 / 8, x.1 % 8⟩).traps }) s
  let s := i.cores.foldl (fun s x => s.setCore x.1 (x.2.keep (s.core x.1))) s
  let s := i.tiles.foldl (fun s x => s.setTile x.1 x.2) s
  let s := i.mem.foldl (fun s x => s.setBytes x.1 [x.2]) s
  let s := i.stags.foldl (fun s x => s.setSideTag (4 * x.1) x.2) s
  let s := i.poison.foldl (fun s x => s.setPoison (4 * x.1) x.2) s
  let s := i.held.foldl (fun s h => s.updLaunch h.1 (fun l => { l with held := l.held ++ h.2 })) s
  ({ s with net := s.net ++ i.net, nodes := s.nodes ++ i.nodes, ranges := s.ranges ++ i.ranges } : State).retime p
    (fun c due => due + s.stoppedAt c t - i.at_)

/-- The device OS switches the context of a partition that an Eventide has saved: the present one is kept as an image, and
image k comes to the same logical cores, or one that holds nothing where k is the number of the images (R345, R346; log
entry 30). -/
def State.switchContext (s : State) (p k : Nat) : State :=
  match (s.part p).run with
  | .saved t =>
    let l := (s.part p).images
    if !s.leaderUp || decide (l.length < k) || s.net.any (fun m => s.netOf p m && m.underWay) then s
    else
      let i := (s.shiftTimers p t).imageOf p
      let s := (s.cleared p).setPart p { s.part p with images := l.eraseIdx k ++ [i] }
      match l[k]? with
      | some j => s.restored p t j
      | none => s
  | _ => s

/-- How long an uncorrectable error counts against its unit: 24 hours (R395). -/
def errorSpan : Nat := 86400 * 1000000000

/-- The unit in which an uncorrectable error of a byte's key lies: its core, or the channel of its codeword (R395). -/
def State.errorUnit (s : State) (k : Nat) : FailedUnit :=
  if k < 2 ^ 36 then .core (homeOf k) else .channel (s.channelAt (k - 2 ^ 60))

/-- The number under which the errors of a unit are kept. -/
def errorKey (u : FailedUnit) : Nat :=
  match u with
  | .core c => c
  | .tile t => 2 ^ 20 + t
  | .channel n => 2 ^ 21 + n
  | .spareCore t => 2 ^ 22 + t
  | .spareTile k => 2 ^ 23 + k

/-- An uncorrectable error counted against its unit: the fourth within 24 hours fails the unit (R395). -/
def State.countError (s : State) (u : FailedUnit) : State :=
  let now := s.sys.meridian
  let l := ((mapGet s.sys.scrubs [] (errorKey u)).filter (fun t => decide (now < t + errorSpan))) ++ [now]
  let s := s.setSys { s.sys with scrubs := mapPut s.sys.scrubs (errorKey u) (if 4 ≤ l.length then [] else l) }
  if 4 ≤ l.length then s.unitFails u else s

/-- MATRIX_RERUN (R151): a read of a running operation met an uncorrectable error, its snapshot was restored, and it was
run again.  A good rerun performs the operation and is counted; when the bytes are still uncorrectable, or the array's
own storage is, the operation fails, and an error of the array's storage counts against the tile (R395). -/
def execMatrixRerun (tile : Nat) (good : Bool) (s : State) : Out :=
  let run := (s.tile tile).queue.filter (fun o => o.started && !o.probed)
  if !s.tileRuns tile then .next s
  else if good then
    match run.find? (fun o => !s.opPoison o.afresh) with
    | some o => s.rerun tile o
    | none => .next s
  else .next (match run.find? (fun o => s.opPoison o || o.readsStore) with
    | some o => if s.opPoison o then s.failOp tile o else (s.failOp tile o).countError (.tile tile)
    | none => s)

/-- SCRUB_ERROR (R366, R395): addr is the byte's key, below 2^36 in scratchpad and from 2^60 on in device memory.  The
word or codeword is poisoned, a record is posted, by the core's partition or for device memory in every partition, and the
error counts against its unit. -/
def execScrubError (addr : Nat) (s : State) : Out :=
  let rep := fun (id a : Nat) => ({ cause := .poison, agent := 7, id := id, slot := 0, addr := dbl a, cursor := 0, detail := 0, pid := 0 } : FaultRec)
  .next (if s.poisoned addr then s
    else if addr < 2 ^ 36 then
      if 131072 ≤ offOf addr then s
      else
        let s := s.markPoison addr
        let s := match s.partOf (homeOf addr) with
          | some p => s.post p 0 (rep (homeOf addr) addr)
          | none => s
        s.countError (s.errorUnit addr)
    else if 2 ^ 60 ≤ addr ∧ addr < 2 ^ 61 ∧ s.deviceHas (addr - 2 ^ 60) then
      ((s.markPoison addr).postAll (rep 0 (addr - 2 ^ 60))).countError (s.errorUnit addr)
    else s)

/-! ### Nightfall (R384-R388) -/

/-- A request refused (R386). -/
def State.nfRefuse (s : State) (p : Nat) : State := s.setPart p { s.part p with nfRefused := true }

/-- NIGHTFALL_STOP_REQUEST (R385, R386): T is 2 µs on. -/
def execNightfallStopRequest (part : Nat) (s : State) : Out :=
  .next (if !s.sys.hostUp then s
    else match (s.part part).run with
    | .running =>
      let t := s.sys.meridian + 2000
      s.setPart part { s.part part with run := .stopping t, nft := t, nfRefused := false }
    | _ => s.nfRefuse part)

/-- NIGHTFALL_RESUME_REQUEST (R385, R386): the second instant. -/
def execNightfallResumeRequest (part : Nat) (s : State) : Out :=
  .next (if !s.sys.hostUp then s
    else match (s.part part).run with
    | .stopped t =>
      let r := s.restartAt
      { s with free := s.free + 1 }.setPart part { s.part part with run := .resuming t r, nft := r, nfRefused := false }
    | _ => s.nfRefuse part)

/-- nfstat (R384): the codes are 0 running, 1 stopping, 2 stopped and 3 resuming; DESIGN CHOICE (log entry 20): a partition
that an Eventide holds reads 0. -/
def Partition.nfstat (x : Partition) : Nat :=
  (match x.run with | .stopping _ => 1 | .stopped _ => 2 | .resuming .. => 3 | _ => 0) + (if x.nfRefused then 4 else 0)

/-- The bits of a core's slots that meet a condition. -/
def State.slotMask (c : Nat) (f : Who → Bool) : Nat :=
  (List.range 8).foldl (fun n k => if f ⟨c, k⟩ then n + 2 ^ k else n) 0

/-- The stop record of a core that stopped for T: its stamp is that of the core's own boundary (R387). -/
def State.stopRecord (s : State) (c t : Nat) : List Byte :=
  let k := s.core c
  let sum := fun (m : SMap Nat) => m.foldl (fun n p => n + p.2) 0
  leBytes 18 0 ++ leBytes 1 (State.slotMask c (fun w => s.isParked w)) ++ leBytes 1 (State.slotMask c (fun w => (s.slot w).occ)) ++
  leBytes 4 k.trace.dropped ++ leBytes 4 (sum k.received) ++ leBytes 4 (sum k.sent) ++ leBytes 8 k.parkedCycles ++
  leBytes 8 k.bubbles ++ leBytes 8 k.issued ++ leBytes 8 (s.stoppedAt c t)

/-- The small cores of a partition. -/
def State.coresOf (s : State) (p : Nat) : List Nat :=
  ((List.range 16).filter (fun k => (s.part p).sgs.getLsbD k)).flatMap (fun k => (List.range 4096).map (fun j => 4096 * k + j))

/-- NIGHTFALL_STOP (R385, R387): at T, with every core at a frame boundary; a gang that has not committed is rolled
back, and each core writes its stop record. -/
def execNightfallStop (part : Nat) (s : State) : Out :=
  .next (match (s.part part).run with
    | .stopping t =>
      if s.sys.meridian < t || !s.atBoundary part then s
      else
        let s := { s with cached := false }.rollback part |>.setRun part (.stopped t)
        (s.coresOf part).foldl (fun s c => s.storeSpad (spadKey c 0x1FFB0) (s.stopRecord c t)) s
    | _ => s)

/-- A magnitude written by firmware as a value of the array. -/
def writtenFV (v : Bool × Nat × Int) : FV := .fin v.1 v.2.1 v.2.2

/-- A CSR of a slot as firmware writes it: the registers that hardware alone writes too (R369, R388). -/
def csrPoke (x : Slot) (n : Nat) (v : Word) : Slot :=
  match n with
  | 0x005 => { x with csr := { x.csr with sigtrap := v.truncate 29 } }
  | 0x006 => { x with csr := { x.csr with mtxerr := v } }
  | 0x010 => { x with csr := { x.csr with uinh := bit v 0 } }
  | 0x013 => { x with csr := { x.csr with ucause := v.truncate 8 } }
  | 0x014 => { x with csr := { x.csr with utval := v } }
  | _ => csrWrite x n v

/-- A plane of a tile changed. -/
def Tile.onPlane (t : Tile) (live : Bool) (f : Plane → Plane) : Tile :=
  if live then { t with live := f t.live } else { t with shadow := f t.shadow }

/-- A write of firmware applied (R388; log entry 24). -/
def State.applyWrite (s : State) (w : StateWrite) : State :=
  let slot := fun (c k : Nat) (f : Slot → Slot) => s.setSlot ⟨c, k⟩ (f (s.slot ⟨c, k⟩))
  let tile := fun (t : Nat) (f : Tile → Tile) => s.setTile t (f (s.tile t))
  match w with
  | .general c k r v => slot c k (fun x => x.setG (BitVec.ofNat 5 r) v)
  | .lane c k r l v t => slot c k (fun x => x.setLane (BitVec.ofNat 4 r) l v t)
  | .predicates c k v => slot c k (fun x => { x with pw := v ||| 1 })
  | .pc c k v => slot c k (fun x => { x with pc := wordAddr v })
  | .csr c k n v => slot c k (fun x => csrPoke x n v)
  | .mode c k m => slot c k (fun x => { x with mode := match m with | 1 => .super | 2 => .machine | _ => .user })
  | .scratch c o v t b => ((s.setBytes (spadKey c o) (leBytes 4 v.toNat)).setSideTag (spadKey c o) t).setPoison (spadKey c o) b
  | .engineReg t i v =>
    if i < 12 then s.setEngine t { s.engine t with shadow := (s.engine t).shadow.setIfInBounds i v }
    else s.setEngine t { s.engine t with liveSet := (s.engine t).liveSet.setIfInBounds (i - 12) v }
  | .coverage t i v => tile t (fun x => { x with cover := mapPut x.cover i v })
  | .plane t live win => tile t (fun x => x.onPlane live (fun p => { p with win := win }))
  | .cell t live k n v => tile t (fun x => x.onPlane live (fun p => { p with cells := mapPut p.cells (32 * k + n) (v.map writtenFV) }))
  | .column t live n key tag => tile t (fun x => x.onPlane live (fun p => { p with keys := mapPut p.keys n key, sigs := mapPut p.sigs n tag }))
  | .acc t m n v k tag => tile t (fun x => x.setAcc m n { x.acc m n with val := writtenFV v, k := k, sig := tag })

/-- The core or tile that a write names, as a core. -/
def writtenCore : StateWrite → Nat
  | .general c .. => c
  | .lane c .. => c
  | .predicates c .. => c
  | .pc c .. => c
  | .csr c .. => c
  | .mode c .. => c
  | .scratch c .. => c
  | .engineReg t .. => 16 * t
  | .coverage t .. => 16 * t
  | .plane t .. => 16 * t
  | .cell t .. => 16 * t
  | .column t .. => 16 * t
  | .acc t .. => 16 * t

/-- Whether Nightfall has stopped a partition. -/
def RunState.isStopped (r : RunState) : Bool := match r with | .stopped _ => true | _ => false

/-- STOPPED_STATE_WRITE (R388): held until the resume of the stopped partition. -/
def execStoppedStateWrite (w : StateWrite) (s : State) : Out :=
  .next (match s.partOf (writtenCore w) with
    | some p =>
      if (s.part p).run.isStopped ∧ s.leaderUp then s.setPart p { s.part p with writes := (s.part p).writes ++ [w] } else s
    | none => s)

/-- The core or tile that a whole write names, as a core. -/
def Poke.core (p : Poke) : Nat := match p with | .slot w _ => w.core | .tile t _ => 16 * t
/-- The CSRs of a trap level as they can be written (R169, R349). -/
def TrapCsrs.written (x : TrapCsrs) : TrapCsrs :=
  { x with tvec := wordAddr x.tvec, epc := wordAddr x.epc, cause := x.cause &&& 0xFF }
/-- The user CSRs as they can be written: a reserved bit reads zero, and an address is a multiple of 4 (R167, R169). -/
def UserCsrs.written (x : UserCsrs) : UserCsrs :=
  { x with utvec := wordAddr x.utvec, uepc := wordAddr x.uepc, udeleg := x.udeleg &&& 0x4380, winsig := winsigWrite (x.winsig.zeroExtend 64) }
/-- A slot's whole state as firmware may write it: g0 reads zero, p0 one, the PC is a multiple of 4, and the CSRs hold what
they can hold (R165, R169, R369). -/
def Slot.written (x : Slot) : Slot :=
  { x with
    regs := x.regs.setIfInBounds 0 0, pw := x.pw ||| 1, pc := wordAddr x.pc
    csr := x.csr.written, sup := x.sup.written, mach := x.mach.written }
/-- A whole write applied: every item of a slot's context, or of an array and engine (R345, R369, R388). -/
def State.applyPoke (s : State) (p : Poke) : State :=
  match p with
  | .slot w x => s.setSlot w { x.written with traps := (s.slot w).traps }
  | .tile t x => s.setTile t x
/-- A whole write of a stopped slot or tile, held until the resume (R388). -/
def State.poke (s : State) (w : Poke) : State :=
  match s.partOf w.core with
  | some p =>
    if (s.part p).run.isStopped ∧ s.leaderUp then s.setPart p { s.part p with pokes := (s.part p).pokes ++ [w] } else s
  | none => s

/-- NIGHTFALL_RESUME (R385, R386, R388): at the second instant the writes take effect and the cores go on; an Eventide
that waited begins its 20 µs. -/
def execNightfallResume (part : Nat) (s : State) : Out :=
  .next (match (s.part part).run with
    | .resuming t r =>
      if s.sys.meridian < r then s
      else
        let x := s.part part
        let s := (s.shiftTimers part t).setPart part { x with run := .running, writes := [], pokes := [], evWaiting := false }
        let s := x.writes.foldl (fun s w => s.applyWrite w) (x.pokes.foldl (fun s w => s.applyPoke w) s)
        if x.evWaiting then s.eventide part else s
    | _ => s)

/-! ### Trace registers (R389, R391) -/

/-- A core's trace buffer replaced. -/
def State.setTrace (s : State) (c : Nat) (t : Trace) : State := s.setCore c { s.core c with trace := t }

/-- TRCTL_WRITE (R389): a write with enable set clears frozen and empties the buffer. -/
def execTrctlWrite (core : Nat) (v : BitVec 64) (s : State) : Out :=
  let t := { (s.core core).trace with ctl := v &&& 0xFFF101 }
  .next (if !s.sys.hostUp then s else s.setTrace core (if bit v 0 then
      { t with next := 0, wrapped := false, frozen := false, full := false, events := [], lastHigh := none, post := none }
    else t))

/-! ### Partitions (R397, R398) -/

/-- Whether a partition entry write is refused (R397). -/
def State.entryRefused (s : State) (p : Nat) (sgs : BitVec 16) (valid : Bool) : Bool :=
  let old := (s.part p).sgs
  (List.range 16).any (fun k =>
    (old.getLsbD k && !sgs.getLsbD k && s.heldIn (4096 * k) 4096) ||
    (sgs.getLsbD k && !old.getLsbD k && (!s.sys.sgmask.getLsbD k ||
      (List.range 16).any (fun q => decide (q ≠ p) && (s.part q).sgs.getLsbD k)))) ||
  ((s.part p).valid && !valid && s.launches.any (fun l => decide (l.part = p)))

/-- A partition that starts: its fault ring is empty and numbered from 0, its queues are empty, its engines' counters
start and its cores' counts begin (R252, R355, R387). -/
def State.startPartition (s : State) (p : Nat) : State :=
  let s := s.setPart p { s.part p with
    fqhead := 0, fqtail := 0, fqlost := 0, queues := [], qdropped := [], placing := none, run := .running, evWaiting := false
    images := [] }
  { s with
    cores := s.cores.map (fun (c : Nat × Core) => if s.inPart p c.1 then (c.1, { c.2 with issued := 0, bubbles := 0, parkedCycles := 0 }) else c)
    tiles := s.tiles.map (fun (t : Nat × Tile) => if s.inPart p (16 * t.1) then (t.1, { t.2 with engine := .reset }) else t) }

/-- The end of a partition: the peers that hold work from its contexts are told (R382). -/
def State.endPartition (s : State) (p : Nat) : State :=
  let ws := (s.allThreads.filter (fun w => decide ((s.slot w).part = p))) ++
    s.net.filterMap (fun m => match m.body with
      | .peer .. => if s.inPart p m.src.core then some m.src else none
      | _ => none)
  s.setSys { s.sys with gone := s.sys.gone ++ ws.map (fun w => senderWord w 0) }

/-- A partition's entry written, unless the write is refused (R397). -/
def State.writeEntry (s : State) (part : Nat) (v : Word) : State :=
  let sgs := BitVec.ofNat 16 (field v 48 16)
  let x := s.part part
  if s.entryRefused part sgs (bit v 0) then s.setPart part { x with refused := true }
  else
    let s := if x.valid && !bit v 0 then s.endPartition part else s
    let t := s.setPart part { x with sgs := sgs, pid := BitVec.ofNat 16 (field v 32 16), valid := bit v 0, refused := false }
    if bit v 0 && !x.valid then t.startPartition part else t

/-- PARTITION_ENTRY_WRITE (R377, R397): a refused write changes nothing but pterr; otherwise the journal record comes
first, and the change in the next such step. -/
def execPartitionEntryWrite (part : Nat) (v : BitVec 64) (s : State) : Out :=
  .next (if 15 < part ∨ !s.sys.hostUp ∨ !s.leaderUp then s
    else if s.entryRefused part (BitVec.ofNat 16 (field v 48 16)) (bit v 0) then s.setPart part { s.part part with refused := true }
    else s.osChange (.entry part v) (fun s => s.writeEntry part v))

/-- Whether a large core holds or is admitting a context of a partition, a refused one that will be sent again among
them (R28, R398). -/
def State.largeBusy (s : State) (p n : Nat) : Bool :=
  let c := largeBase + n
  (List.range 4).any (fun k => (s.slot ⟨c, k⟩).occ && decide ((s.slot ⟨c, k⟩).part = p)) ||
  ((s.core c).arrival ++ (s.core c).spill).any (fun x => decide (x.part = p)) ||
  s.net.any (fun m => match m.body with | .packet x d _ st _ => decide (d = c ∧ x.part = p ∧ st ≠ 1) | _ => false)

/-- Whether a mask write is refused (R398). -/
def State.maskRefused (s : State) (p : Nat) (v : Word) : Bool :=
  (List.range 64).any (fun n =>
    (bit v n && (List.range 16).any (fun q => decide (q ≠ p) && bit (s.part q).largeMask n)) ||
    (bit (s.part p).largeMask n && !bit v n && s.largeBusy p n))

/-- A partition's mask of large cores written, unless the write is refused (R398). -/
def State.writeMask (s : State) (part : Nat) (v : Word) : State :=
  if s.maskRefused part v then s.setPart part { s.part part with refused := true }
  else s.setPart part { s.part part with largeMask := v, refused := false }

/-- LARGE_CORE_MASK_WRITE (R377, R398): a refused write changes nothing but pterr; otherwise the journal record comes first,
and the change in the next such step. -/
def execLargeCoreMaskWrite (part : Nat) (v : BitVec 64) (s : State) : Out :=
  .next (if 15 < part ∨ !s.sys.hostUp ∨ !s.leaderUp then s
    else if s.maskRefused part v then s.setPart part { s.part part with refused := true }
    else s.osChange (.mask part v) (fun s => s.writeMask part v))

/-! ### Islands (R399-R401) -/

/-- An island. -/
def State.island (s : State) (i : Nat) : Island := mapGet s.sys.islands (Island.reset i) i
/-- An island replaced. -/
def State.setIsland (s : State) (i : Nat) (x : Island) : State := s.setSys { s.sys with islands := mapPut s.sys.islands i x }

/-- The lowest frequency of an island, in 100 MHz (R399). -/
def islandFloor (i : Nat) : Nat := if i % 4 = 3 then 17 else 8
/-- The highest frequency of an island (R399). -/
def islandTop (i : Nat) : Nat := if i % 4 = 3 then 34 else 17
/-- Whether the frequency of an island is fixed (R399). -/
def islandFixed (i : Nat) : Bool := decide (i % 4 = 2)
/-- The islands of the super-groups. -/
def superIslands : List Nat := (List.range 32).filter (fun i => decide (i % 4 ≤ 1))

/-- Whether an island is over one of its limits (R400). -/
def Island.over (x : Island) : Bool := decide (x.powerCap < x.power) || decide (105 ≤ x.temp)
/-- Whether an island is below both of its limits (R400). -/
def Island.cool (x : Island) : Bool := decide (x.power < x.powerCap) && decide (x.temp < 105)
/-- An island's readings of power and temperature: coolSince is the last instant at which it was not below both limits,
the time at its floor and 110 °C begins again once a reading falls below, and a super-group whose sensors fall below 100 °C
takes placements again (R400, R401). -/
def State.sense (s : State) (i power temp : Nat) : State :=
  let x := { s.island i with power := power, temp := temp }
  let s := s.setIsland i { x with
    coolSince := if x.cool then x.coolSince else s.sys.meridian
    hotSince := if temp < 110 then none else x.hotSince }
  if temp < 100 ∧ i % 4 ≤ 1 then
    s.setSys { s.sys with withheld := s.sys.withheld.filter (fun k => k != i / 4 * 2 + i % 4) }
  else s
/-- What the islands draw together. -/
def State.totalPower (s : State) : Nat := (List.range 32).foldl (fun n i => n + (s.island i).power) 0

/-- One step down of 100 MHz, not below the island's range and at most every 10 µs (R400). -/
def State.stepDown (s : State) (i : Nat) : State :=
  let x := s.island i
  if s.sys.meridian < x.lastStep + 10000 then s
  else s.setIsland i { x with freq := max (islandFloor i) (x.freq - 1), throttled := true, lastStep := s.sys.meridian, coolSince := s.sys.meridian }

/-- ISLAND_STEP_DOWN (R400): an island over its limits steps, unless its frequency is fixed, and above 4,200 W every
super-group island. -/
def execIslandStepDown (island power temp : Nat) (s : State) : Out :=
  .next (if 31 < island then s
    else
      let s := s.sense island power temp
      let s := if (s.island island).over && !islandFixed island then s.stepDown island else s
      if 4200 < s.totalPower then superIslands.foldl (fun s i => s.stepDown i) s else s)

/-- ISLAND_STEP_UP (R400): 100 MHz per ms once the island has spent 1 ms below both limits; off its floor the time of
R401 begins again. -/
def execIslandStepUp (island power temp : Nat) (s : State) : Out :=
  .next (if 31 < island then s
    else
      let s := s.sense island power temp
      let x := s.island island
      let now := s.sys.meridian
      if islandFixed island ∨ !x.cool ∨ now < x.coolSince + 1000000 ∨ now < x.lastStep + 1000000 ∨ x.cap ≤ x.freq then s
      else s.setIsland island { x with freq := x.freq + 1, throttled := decide (x.freq + 1 < x.cap), lastStep := now, hotSince := none })

/-- THERMAL_WITHHOLD (R401): at its floor and at 110 °C or more for 100 ms a super-group takes no new placement until
its sensors fall below 100 °C. -/
def execThermalWithhold (sg temp : Nat) (s : State) : Out :=
  let i := sg / 2 * 4 + sg % 2
  .next (if 15 < sg then s
    else
      let s := s.sense i (s.island i).power temp
      let x := s.island i
      let now := s.sys.meridian
      if temp < 110 ∨ islandFloor i < x.freq then s.setIsland i { x with hotSince := none }
      else match x.hotSince with
        | none => s.setIsland i { x with hotSince := some now }
        | some t =>
          if t + 100000000 ≤ now ∧ !s.sys.withheld.contains sg then s.setSys { s.sys with withheld := s.sys.withheld ++ [sg] } else s)

/-- islctl as it is written: the frequency cap clamped to the island's range (R400). -/
def State.writeIslctl (s : State) (i : Nat) (v : Word) : State :=
  if 31 < i || islandFixed i then s
  else
    let x := s.island i
    let cap := max (islandFloor i) (min (islandTop i) (field v 8 8))
    s.setIsland i { x with cap := cap, powerCap := field v 16 16, freq := min x.freq cap }
/-- islstat (R400). -/
def Island.stat (x : Island) : Nat :=
  x.freq % 2 ^ 8 * 2 ^ 8 + x.power % 2 ^ 16 * 2 ^ 16 + x.temp % 2 ^ 16 * 2 ^ 32 + (if x.throttled then 2 ^ 48 else 0)

/-! ### Telemetry and attestation (R402, R403) -/

/-- A sample of 512 bytes (R402). -/
def State.sample (s : State) : List Byte :=
  leBytes 8 s.sys.meridian ++ (List.range 32).flatMap (fun i => leBytes 8 (s.island i).stat) ++
  (List.range 14).flatMap (fun k => leBytes 8 (mapGet s.sys.counters 0 (0x100 + 8 * k))) ++
  leBytes 8 s.cap0 ++ leBytes 8 s.cap1 ++ leBytes 120 0

/-- The key of a record at a host or device physical address: device where a memory of the part answers (R402; log
entry 21). -/
def State.ringKey (s : State) (pa : Nat) : Nat := if s.deviceHas pa then devKey pa else hostKey pa

/-- TELEMETRY_SAMPLE (R402): once per ms. -/
def execTelemetrySample (s : State) : Out :=
  let k := s.ringKey (s.sys.tmbase.toNat + 512 * (s.sys.tmtail % s.sys.tmsize))
  .next (if !s.leaderUp || decide (s.sys.tmbase = 0) || decide (s.sys.meridian < s.sys.tmAt + 1000000) then s
    else
      let s := s.setSys { s.sys with tmAt := s.sys.meridian }
      if s.sys.tmsize ≤ s.sys.tmtail - s.sys.tmhead ∨ (s.sys.fenced ∧ 2 ^ 61 ≤ k) then s.count 0x148 1
    else
      let s := s.physWrite k s.sample
      s.setSys { s.sys with tmtail := s.sys.tmtail + 1 })

/-- QUOTE_REQUEST (R403): refused while a quote is in progress, which goes on unchanged, and by a part without a
leader. -/
def execQuoteRequest (s : State) : Out :=
  .next (if s.sys.qstate = 1 then s
    else if s.leaderUp then s.setSys { s.sys with qstate := 1, quote := s.quoteBody (leBytes 32 s.sys.nonce.toNat) }
    else s.setSys { s.sys with qstate := 3 })

/-- QUOTE_READY (R403): the quote is signed. -/
def execQuoteReady (s : State) : Out :=
  .next (if s.sys.qstate = 1 && s.leaderUp then s.setSys { s.sys with qstate := 2, quote := s.sys.quote ++ (List.range 2420).map (Config.signature s.sys.quote) } else s)

end Sys2Proof.Machine
end

