-- ==== Sys2Proof/Machine/Held.lean ====
section
/-! DEFINITION.  Held translations walked again (R362): a thread's access and fetch, and the hardware fields of a launch
record (R343). -/

namespace Sys2Proof.Machine

/-- Held hardware fields walked again: written where the walk finds a page, waiting where it finds a hold, and left out
where it finds a cause (R343, R362; log entry 16). -/
def State.rewalkFields (s : State) (m : Msg) (ripe : Bool) : State :=
  match m.body with
  | .fields part pid launch addr bs since asked =>
    match s.vspan part pid true ripe addr bs.length with
    | .ok ps => (s.drop m.id).putPieces ps bs
    | .held ask va =>
      (s.askHeld ask (if asked then some since else none) part pid m.src launch va).rebody m.id
        (.fields part pid launch addr bs since (asked || ask))
    | _ => s.drop m.id
  | _ => s

/-- HELD_REWALK: a held translation is walked again (R362); a stopped core hears of its fetch after the restart (R344). -/
def execHeldRewalk (id : Nat) (s : State) : Out :=
  match s.msg? id with
  | some m =>
    match m.body with
    | .access a =>
      match a.stage with
      | .held since asked =>
        if s.heldBefore m since a.pid a.ea then .next s
        else .next ({ s with cached := false }.translated m a since asked false)
      | _ => .next s
    | .fetch va since asked false =>
      if !s.coreRuns m.src.core || s.heldBefore m since (s.slot m.src).pid va then .next s
      else .next ({ s with cached := false }.rewalkFetch m va since asked)
    | .fields _ pid _ addr _ since _ =>
      if s.heldBefore m since pid addr then .next s else .next ({ s with cached := false }.rewalkFields m false)
    | _ => .next s
  | none => .next s

/-- HOLD_TIMEOUT: after 10 ms a request for a page in migration takes PAGE, and one for a host-resident page
proceeds to the host (R362). -/
def execHoldTimeout (id : Nat) (s : State) : Out :=
  let due := fun (since : Nat) => decide (since + 10000000 ≤ s.sys.meridian)
  match s.msg? id with
  | some m =>
    match m.body with
    | .access a =>
      match a.stage with
      | .held since asked => .next (if due since then { s with cached := false }.translated m a since asked true else s)
      | _ => .next s
    | .fetch va since asked false => .next (if due since then s.rebody m.id (.fetch va since asked true) else s)
    | .fields _ _ _ _ _ since _ => .next (if due since then { s with cached := false }.rewalkFields m true else s)
    | _ => .next s
  | none => .next s

end Sys2Proof.Machine
end

