-- ==== Sys2Proof/Machine/Leader.lean ====
section
/-! DEFINITION.  The leader's journal and its takeover, and the adoption of a stopped pair's duties (R377-R379); and
firmware's writes of device memory (R377). -/

namespace Sys2Proof.Machine

/-- A change of the device OS made, as its journal record holds it; a kill is of the thread that the record names
(R377). -/
def State.makeChange (s : State) (c : Change) : State :=
  match c with
  | .memory a bs => s.physWrite (devKey a) bs
  | .entry p v => s.writeEntry p v
  | .mask p v => s.writeMask p v
  | .shoot .. => s
  | .eventide p => s.eventide p
  | .kill w t => if (s.slot w).thread = t then s.kill w else s

/-- Whether a change is done once it is made: a shootdown is when its 96 acknowledgements are in (R364, R377). -/
def Change.atOnce (c : Change) : Bool := match c with | .shoot .. => false | _ => true

/-- The journal replayed: every change not marked done is made again and its record marked; the shootdowns are reissued
with their acknowledgements to come (R377, R378). -/
def State.replay (s : State) : State :=
  (s.sys.journal.filter (fun r => !r.marked && r.change.atOnce)).foldl (fun s r => (s.makeChange r.change).markRecord r.change) s

/-- LEADER_TAKEOVER (R378, R403): after 3 ms without a stamp the lowest-numbered live pair replays the journal, reissues
the shootdowns, leads, and rebuilds a quote in progress; a SYSCALL parked at the stopped leader's gate returns EAGAIN, and the units that
failed without a leader are taken up (R395). -/
def execLeaderTakeover (s : State) : Out :=
  .next (match s.lowestPair with
    | some k =>
      if s.sys.meridian < s.sys.stamp + 3000000 then s
      else
        let old := s.sys.leader
        let down := !s.leaderUp
        let s := s.replay
        let s := s.setSys { s.sys with
          shoots := s.sys.shoots.map (fun x => { x with acked := [] })
          leader := k, takeovers := s.sys.takeovers + 1, stamp := s.sys.meridian }
        let s := if s.sys.qstate = 1 then s.setSys { s.sys with quote := s.quoteBody (s.sys.quote.drop 16) } else s
        let s := if bit s.sys.annvec 15 then s.msix (field s.sys.annvec 0 11) else s
        if down then (((List.range 8).filter (fun d => decide (s.gateOf d = old))).foldl (fun s d => s.gateBusy d) s).takeUpAll else s
    | none => s)

/-- DUTY_ADOPTION (R379): the leader assigns a stopped pair's die to the lowest-numbered live pair of another die. -/
def execDutyAdoption (die pair : Nat) (s : State) : Out :=
  .next (if !s.leaderUp || s.pairUp (s.gateOf die) || decide (7 < die) ||
      decide ((List.range 8).find? (fun k => s.pairUp k && decide (k ≠ die)) ≠ some pair) then s
    else
      let s := s.gateBusy die
      s.setSys { s.sys with gatemap := mapPut s.sys.gatemap die pair })

/-- FIRMWARE_MEMORY_WRITE (R377, R378): the journal first holds the change; applied, it is made and its record marked
done, and a change that the journal does not hold is not made. -/
def execFirmwareMemoryWrite (addr : Nat) (data : List (BitVec 8)) (applied : Bool) (s : State) : Out :=
  if !s.leaderUp then .next s
  else if data ≠ [] ∧ !s.deviceHas (addr + data.length - 1) then .fault (.noSuchMemory (addr + data.length - 1))
  else .next (if applied then
      (if s.openRecord (.memory addr data) then (s.makeChange (.memory addr data)).markRecord (.memory addr data) else s)
    else s.journaled (.memory addr data))

end Sys2Proof.Machine
end

