-- ==== Sys2Proof/Machine/Registers.lean ====
section
/-! DEFINITION.  The registers of BAR0: the writes that are no step of their own, and what each register reads (R336,
R354, R358, R372, R373, R379, R384, R387, R389, R391, R393, R396-R403). -/

namespace Sys2Proof.Machine

/-! ### Writes -/

/-- Whether a value is a power of two in a range. -/
def powerIn (v lo hi : Nat) : Bool := decide (lo ≤ v ∧ v ≤ hi) && decide (2 ^ Nat.log2 v = v)

/-- A register of a partition's fault ring or its process table address (R354, R359). -/
def State.writeFq (s : State) (p off : Nat) (v : Word) : State :=
  let x := s.part p
  match off with
  | 0x00 => s.setPart p { x with fqbase := v &&& ~~~(0xFFFF : Word) }
  | 0x08 => if powerIn v.toNat 64 65536 then s.setPart p { x with fqsize := v.toNat } else s
  | 0x10 => s.setPart p { x with fqhead := v.toNat }
  | 0x28 => s.setPart p { x with fqsig := v }
  | 0x30 => s.setPart p { x with ptab := v }
  | _ => s

/-- A trace register of a core (R389, R391). -/
def State.writeTrace (s : State) (c off : Nat) (v : Word) : State :=
  let t := (s.core c).trace
  match off with
  | 0x08 => s.setTrace c { t with trig := v &&& 0xF3FFFF0000000FFF, post := none }
  | 0x10 => s.setTrace c { t with lo := v }
  | 0x18 => s.setTrace c { t with hi := v }
  | 0x28 => s.setTrace c { t with win := v.truncate 10 }
  | _ => s

/-- REGISTER_WRITE: an offset of BAR0 and a value; a register that is read-only, or whose write is a step of its own,
ignores it; without a host port BAR0 does not answer (R336, R354, R359, R372, R383, R389, R391, R400, R402, R403). -/
def execRegisterWrite (off : Nat) (v : BitVec 64) (s : State) : Out :=
  let q := (off - 0x20000) % 0x100 / 8
  .next (if off % 8 ≠ 0 ∨ !s.sys.hostUp then s
    else if 0x20000 ≤ off ∧ off < 0x21000 then
      if 23 < q ∨ v.toNat < 1 ∨ 1000000 < v.toNat then s
      else
        let p := (off - 0x20000) / 0x100
        s.setPart p { s.part p with patience := mapPut (s.part p).patience q v.toNat }
    else if 0x40000 ≤ off ∧ off < 0x41000 then s.writeFq ((off - 0x40000) / 0x100) (off % 0x100) v
    else if 0x1C00000 ≤ off ∧ off < 0x2000000 then s.writeTrace ((off - 0x1C00000) / 0x40) (off % 0x40) v
    else if 0x400 ≤ off ∧ off < 0x600 ∧ off % 16 = 0 then s.writeIslctl ((off - 0x400) / 16) v
    else if 0x1000 ≤ off ∧ off < 0x1020 then
      let sh := 8 * (off - 0x1000)
      let old := s.sys.nonce.toNat
      s.setSys { s.sys with nonce := BitVec.ofNat 256 (old - old / 2 ^ sh % 2 ^ 64 * 2 ^ sh + v.toNat * 2 ^ sh) }
    else match off with
      | 0x18 => s.setSys { s.sys with hbmirror := v &&& ~~~(7 : Word) }
      | 0x30 => s.setSys { s.sys with annvec := v &&& 0x87FF }
      | 0x600 => s.setSys { s.sys with tmbase := v &&& ~~~(0xFFF : Word) }
      | 0x608 => if powerIn v.toNat 16 65536 then s.setSys { s.sys with tmsize := v.toNat } else s
      | 0x610 => s.setSys { s.sys with tmhead := v.toNat }
      | _ => s)

/-! ### Reads -/

/-- gatemap: bits [4d + 2 : 4d] name the pair that serves die d (R379). -/
def State.gatemapReg (s : State) : Nat := (List.range 8).foldl (fun n d => n + s.gateOf d % 8 * 2 ^ (4 * d)) 0
/-- pterr: bit p after a refused write of partition p's entry or mask (R397, R398). -/
def State.pterr (s : State) : Nat := (List.range 16).foldl (fun n p => n + (if (s.part p).refused then 2 ^ p else 0)) 0
/-- islctl (R400). -/
def Island.ctl (x : Island) : Nat := x.cap % 2 ^ 8 * 2 ^ 8 + x.powerCap % 2 ^ 16 * 2 ^ 16
/-- qstat of a launch queue: records queued, and doorbell writes dropped (R336). -/
def State.queueReg336 (s : State) (p prio : Nat) : Nat :=
  (s.queueOf p prio).length % 2 ^ 32 + mapGet (s.part p).qdropped 0 prio % 2 ^ 16 * 2 ^ 32
/-- trstat (R389). -/
def Trace.stat (t : Trace) : Nat :=
  t.next % 1024 + (if t.wrapped then 2 ^ 10 else 0) + (if t.frozen then 2 ^ 11 else 0) + (if t.full then 2 ^ 12 else 0) +
    t.dropped % 2 ^ 32 * 2 ^ 32
/-- The event that trwin selects, whose halves trlow and trhigh read (R389). -/
def Trace.shown (t : Trace) : BitVec 128 := mapGet t.events 0 t.win.toNat

/-- A register of a partition's fault ring, or its process table address (R354, R359). -/
def Partition.fqReg (x : Partition) (off : Nat) : Option Nat :=
  match off with
  | 0x00 => some x.fqbase.toNat
  | 0x08 => some x.fqsize
  | 0x10 => some x.fqhead
  | 0x18 => some x.fqtail
  | 0x20 => some x.fqlost
  | 0x28 => some x.fqsig.toNat
  | 0x30 => some x.ptab.toNat
  | _ => none
/-- A trace register (R389). -/
def Trace.reg (t : Trace) (off : Nat) : Option Nat :=
  match off with
  | 0x00 => some t.ctl.toNat
  | 0x08 => some t.trig.toNat
  | 0x10 => some t.lo.toNat
  | 0x18 => some t.hi.toNat
  | 0x20 => some t.stat
  | 0x28 => some t.win.toNat
  | 0x30 => some (t.shown.toNat % 2 ^ 64)
  | 0x38 => some (t.shown.toNat / 2 ^ 64)
  | _ => none

/-- Eight bytes of a table at an offset, as a register reads them. -/
def wordAt (bs : List Byte) (off : Nat) : Nat := leNat ((bs.drop off).take 8)

/-- The public key of the module's identity (R403; log entry 10). -/
def publicKey : List Byte := (List.range 1312).map Config.publicKey

/-- A register of the part below 0x1000 (R372, R373, R379, R393, R396-R398, R400, R402). -/
def State.lowReg (s : State) (off : Nat) : Option Nat :=
  if off = 0x00 then some s.devstat
  else if off = 0x08 then some s.sys.hbhost.toNat
  else if off = 0x10 then some s.sys.hbdev.toNat
  else if off = 0x18 then some s.sys.hbmirror.toNat
  else if off = 0x28 then some s.sys.epoch
  else if off = 0x30 then some s.sys.annvec.toNat
  else if off = 0x38 then some s.gatemapReg
  else if 0x100 ≤ off ∧ off ≤ 0x168 then some (mapGet s.sys.counters 0 off)
  else if off = 0x200 then some s.cap0
  else if off = 0x208 then some s.cap1
  else if 0x300 ≤ off ∧ off < 0x380 then some (s.part ((off - 0x300) / 8)).entry.toNat
  else if off = 0x380 then some s.pterr
  else if 0x400 ≤ off ∧ off < 0x600 then
    some (if off % 16 = 0 then (s.island ((off - 0x400) / 16)).ctl else (s.island ((off - 0x400) / 16)).stat)
  else if off = 0x600 then some s.sys.tmbase.toNat
  else if off = 0x608 then some s.sys.tmsize
  else if off = 0x610 then some s.sys.tmhead
  else if off = 0x618 then some s.sys.tmtail
  else if 0x700 ≤ off ∧ off < 0x780 then some (s.part ((off - 0x700) / 8)).largeMask.toNat
  else none

/-- What a register of BAR0 reads at an 8-aligned offset, or none where the manual names no register that is read.  The
quote is readable once qstat reads 2 (R403).  A read changes nothing. -/
def State.registerRead (s : State) (off : Nat) : Option Nat :=
  if off % 8 ≠ 0 ∨ !s.sys.hostUp then none
  else if off < 0x1000 then s.lowReg off
  else if off = 0x1028 then some s.sys.qstate
  else if 0x2000 ≤ off ∧ off < 0x2000 + 3008 then (if s.sys.qstate = 2 then some (wordAt s.sys.quote (off - 0x2000)) else none)
  else if 0x4000 ≤ off ∧ off < 0x4000 + 1312 then some (wordAt publicKey (off - 0x4000))
  else if 0x20000 ≤ off ∧ off < 0x21000 then
    (if off % 0x100 / 8 < 24 then some (mapGet (s.part ((off - 0x20000) / 0x100)).patience 2000 (off % 0x100 / 8)) else none)
  else if 0x30000 ≤ off ∧ off < 0x31000 then
    (if off % 0x100 / 8 < 24 then some (s.queueReg336 ((off - 0x30000) / 0x100) (off % 0x100 / 8)) else none)
  else if 0x40000 ≤ off ∧ off < 0x41000 then (s.part ((off - 0x40000) / 0x100)).fqReg (off % 0x100)
  else if 0x1000000 ≤ off ∧ off < 0x1040000 then
    (if off % 0x40 = 0x10 then some ((s.engine ((off - 0x1000000) / 0x40)).suspended.filter (fun j => !j.resumed)).length else none)
  else if 0x1800000 ≤ off ∧ off < 0x1801000 then
    (match off % 0x100 with
      | 0x08 => some (s.part ((off - 0x1800000) / 0x100)).nfstat
      | 0x10 => some (s.part ((off - 0x1800000) / 0x100)).nft
      | _ => none)
  else if 0x1C00000 ≤ off ∧ off < 0x2000000 then (s.core ((off - 0x1C00000) / 0x40)).trace.reg (off % 0x40)
  else none

end Sys2Proof.Machine
end

