-- ==== Sys2Proof/Machine/Issue.lean ====
section
/-! DEFINITION.  A core's cycle around the instruction it issues: frames and the pipe table (R10-R13, R242), the stop
at a frame boundary (R344, R385), fetching and decoding (R171, R176, R352), and the waits for relaxed results (R128,
R201). -/

namespace Sys2Proof.Machine

/-! ### Fetching (R352, R362) -/

/-- What a fetch finds: a word and the state with the leaf kept at its station, a slot that trapped or parked, or no
memory behind the address. -/
inductive Fetch where
  | word (n : Nat) (s : State)
  | over (s : State)
  | missing (pa : Nat)

/-- Whether a slot's held fetch has waited out its hold (R362). -/
def State.fetchRipe (s : State) (x : Slot) : Bool :=
  match x.park with
  | .fetch id => (match s.msg? id with
    | some m => (match m.body with | .fetch _ _ _ ripe => ripe | _ => false)
    | none => false)
  | _ => false

/-- The slot freed of its park, and of its held fetch. -/
def State.unparked (s : State) (w : Who) : State :=
  let s := match (s.slot w).park with
    | .fetch id => s.drop id
    | _ => s
  s.setPark w .ready

/-- A fetch held at its station (R362). -/
def State.holdFetch (s : State) (w : Who) (va : Nat) (ask : Bool) : State :=
  let x := s.slot w
  let s := if ask then s.askMigration x.part x.pid w x.launch va else s
  (s.send w 0 (.fetch va s.sys.meridian ask false)).setPark w (.fetch s.nextId)

/-- Instructions are fetched from V-space only: the word at a slot's PC, little-endian, or the cause of R352 with the
fetch address as its value. -/
def State.fetch (s : State) (w : Who) (ripe : Bool) : Fetch :=
  let x := s.slot w
  let va := x.pc.toNat
  if va < 2 ^ 39 ∨ 2 ^ 56 ≤ va then .over (s.trapAt w .access x.pc)
  else match s.translate x.part x.pid (fetchNeed ripe) va with
    | .fault c => .over (s.trapAt w c x.pc)
    | .held ask => .over (s.holdFetch w va ask)
    | .ok k _ =>
      if !s.keyExists k then .missing (k - 2 ^ 60)
      else if blocksLoad (s.vMeets x.pid va (va + 4)) then .over (s.trapAt w .rangeLocked x.pc)
      else if s.anyPoison k 4 then .over (s.trapAt w .poison x.pc)
      else .word (s.nat k 4) (s.keepWalk x.part x.pid va)

/-! ### The cycle -/

/-- A slot that waits for entry 0 of a frame is ready there (R242). -/
def State.wakeFrame (s : State) (w : Who) : State :=
  match (s.slot w).park with
  | .wait .frame _ => s.setPark w .ready
  | _ => s

/-- Entry 0 of a frame: the staged table goes live where it is due, and the slots that wait for the frame are ready
(R13, R242). -/
def State.frameStart (s : State) (core : Nat) : State :=
  if (s.core core).pos = 0 then (List.range (slotCount core)).foldl (fun s k => s.wakeFrame ⟨core, k⟩) (s.goLive core) else s

/-- What a cycle comes to: an instruction to run, nothing more to do, or a fetch from no memory. -/
inductive Ready where
  | run (w : Who) (i : Instr) (s : State)
  | over (s : State)
  | missing (pa : Nat)

/-- A decoded instruction of a slot: it first waits for a relaxed result that it reads or writes, and takes the cause
of one that faulted (R128, R201). -/
def State.interlock (s : State) (w : Who) (i : Instr) : Ready :=
  match (s.slot w).hazard i with
  | none => .run w i s
  | some r => match r.fault with
    | none => .over (s.parkOn (.result r.id))
    | some (c, v) => .over (s.trapAt w c v)

/-- The slot of a core that issues: it takes the trap that waited, or fetches and decodes; a word that is no
instruction takes ILLEGAL (R176, R350, R352). -/
def State.issueSlot (s : State) (w : Who) : Ready :=
  if (s.slot w).pend.isSome then .over (s.lateEntry w)
  else
    let ripe := s.fetchRipe (s.slot w)
    match (s.unparked w).fetch w ripe with
    | .missing pa => .missing pa
    | .over t => .over t
    | .word n t => match decodeWord n with
      | .error _ => .over (t.trapAt w .illegal (dbl n))
      | .ok i => t.interlock w i

/-- A cycle of a core up to the instruction it runs (R10). -/
def State.cycle (s : State) (core : Nat) (cached : Bool) : Ready :=
  let s := s.frameStart core
  let p := s.pickSlot core
  let s := s.setCore core ((s.core core).counted (s.parkedSlots core) (s.clock core))
  match p with
  | none => .over s
  | some k => ({ s with cur := ⟨core, k⟩, cached := cached } : State).issueSlot ⟨core, k⟩

/-- The state after a step of another agent: the trap entries it made are traced (R390). -/
def State.settleEvent (s before : State) : State := s.traceEntries before

/-! ### The environment (log entries 1, 15) -/

/-- Whether a message that its core's buffer gives back must stand outside: work shipped to an owner that does not take
it yet, or a lock request that waits for an overflow block (R109, R110, R346). -/
def State.standsAside (s : State) (m : Msg) : Bool :=
  match m.body with
  | .work a o _ => decide ((s.slot o).park ≠ .serve a) || decide ((s.slot o).serving ≠ some a)
  | .sync a .acq => s.pressed m a none
  | .sync a (.lockRun pc args) => s.pressed m a (some (pc, args))
  | _ => false

/-- A message comes on its way: into the window of its edge core, the holding buffer of a stopped core, the queue of a
service slot, or among the packets that have reached their core; and an answer takes effect at its slot (R50, R54, R321,
R344-R346). -/
def State.comeIn (s : State) (id : Nat) : State :=
  match s.msg? id with
  | none => s
  | some m =>
    match m.edgeKey, m.body, m.boundFor with
    | some k, _, _ => s.enterWindow m k
    | none, .release _ _ _ todo _, _ => todo.foldl (fun s c => if s.coreRuns c then s else s.hold c m) s
    | none, _, none => s
    | none, b, some c =>
      if !s.coreRuns c then s.hold c m
      else if !s.mayAct c id then s
      else if m.isService then s.enterService c m
      else if s.packetAt id then s.enterReached c m
      else if s.standsAside m then s.unhold c id
      else match b with
        | .answer w a => (s.drop id).hear w a
        | _ => s

/-- The host enables an MSI-X vector, which raises it if it is pending, or masks it (R371). -/
def State.maskVector (s : State) (v : Nat) (on : Bool) : State :=
  if on then
    let n := if s.sys.msixPending.contains v then [v] else []
    s.setSys { s.sys with msixOn := v :: s.sys.msixOn.filter (fun k => k != v), msixPending := s.sys.msixPending.filter (fun k => k != v),
                          msixSent := s.sys.msixSent ++ n }
  else s.setSys { s.sys with msixOn := s.sys.msixOn.filter (fun k => k != v) }

/-- The device OS fills an entry of the peer table: one of the sixteen ports, under a live leader (R377, R381). -/
def State.fillPeer (s : State) (id port part : Nat) : State :=
  if port < 16 ∧ s.leaderUp then s.setSys { s.sys with peers := mapPut s.sys.peers id (port, part) } else s

/-- An entry of the environment's schedule that is neither a cycle nor a step of the opcode table. -/
def State.environment (s : State) : Sched → State
  | .tick ns => s.setSys { s.sys with meridian := s.sys.meridian + ns }
  | .evict core addr =>
    s.setCore core { s.core core with cache := (s.core core).cache.filter (fun l => decide (l.addr ≠ addr / 64 * 64)) }
  | .attach core slot on => s.setSlot ⟨core, slot⟩ { s.slot ⟨core, slot⟩ with debug := on }
  | .msix v on => s.maskVector v on
  | .peer id port part => s.fillPeer id port part
  | .peerMail sender core box payload try_ => s.peerMail sender core box payload try_
  | .peerAppend sender ring payload try_ => s.peerAppend sender ring payload try_
  | .image core off data records => s.loadImage core off data records
  | .arrive id => s.comeIn id
  | .merge ids => s.mergeServe ids
  | .drain k => s.drainPosted k
  | .hostWrite addr data => s.hostWrites addr data
  | .row tile load => s.opRowPast tile load
  | .context part k => s.switchContext part k
  | .traceRead core on => s.setCore core { s.core core with trace := { (s.core core).trace with reading := on } }
  | .supervisor core pc => s.placeSupervisor core pc
  | .serial launch core => s.placeSerial launch core
  | .poke p => s.poke p
  | .corrected k => if k < 3 then s.count (0x100 + 8 * k) 1 else s
  | .zero part n => s.zeroMore part n
  | .cycle .. => s
  | .event .. => s

end Sys2Proof.Machine
end

