-- ==== Sys2Proof/Machine/Sparse.lean ====
section
/-! DEFINITION.  Certified sparse feed-forward: ANORM, ACERT and the tile's check stage (R155-R158, R298, R299,
R329). -/

namespace Sys2Proof.Machine

/-! ### ANORM (R155, R298) -/

/-- The first of n words from an address that a predicate on keys names, as an address. -/
def firstWord (p n : Nat) (bad : Nat → Bool) : Option Word :=
  ((List.range n).find? (fun i => bad (rawKey p + 4 * i))).map (fun i => dbl (p + 4 * i))

/-- The first of n words that meets a WRITE range (R63). -/
def State.lockedWord (s : State) (p n : Nat) : Option Word := firstWord p n (fun k => blocksLoad (s.spadMeets k (k + 4)))
/-- The first of n words that is poisoned (R203). -/
def State.poisonWord (s : State) (p n : Nat) : Option Word := firstWord p n (fun k => s.anyPoison k 4)

/-- ANORM's checks at issue. -/
def State.normCause (s : State) (a n : Word) : Option (Cause × Word) :=
  let p := a.toNat
  if p % 4 ≠ 0 then some (.align, a)
  else if 2 ^ 36 ≤ p ∨ !s.inPart s.me.part (homeOf p) ∨ reservedBase ≤ offOf p then some (.access, a)
  else if n = 0 ∨ 4096 < n.toNat then some (.bounds, 0)
  else if reservedBase < offOf p + 4 * n.toNat then some (.access, dbl (p / 2 ^ 20 * 2 ^ 20 + reservedBase))
  else (s.lockedWord p n.toNat).map (fun v => (.rangeLocked, v))

/-- ANORM: it parks like a special function. -/
def execAnorm (a b : BitVec 5) (s : State) : Out :=
  .next (s.smallOnly (.anorm a b) (fun s => s.waitBoth (fun s =>
    match s.normCause (s.g a) (s.g b) with
    | some (c, v) => s.raise c v
    | none => s.setPark s.cur (.norm a b))))

/-- The norm of FP32 words: the exact sum of the exact squares, its root rounded once toward +∞. -/
def normOf (xs : List Nat) : Nat :=
  if xs.any (fun x => f32.isInf x) then f32.inf false
  else if xs.any (fun x => f32.isNaN x) then f32.nan
  else
    let sum := xs.foldl (fun n x => match f32.value x with
      | .fin _ m e => n + (m * 2 ^ (e + 149).toNat) ^ 2
      | _ => n) 0
    if sum = 0 then 0 else (sqrtFin f32 .rup sum (-298)).1

/-- ANORM_RESULT (R298): the words are read as thread loads and the norm goes to g4. -/
def execAnormResult (core slot : Nat) (s : State) : Out :=
  let w : Who := ⟨core, slot⟩
  let x := s.slot w
  .next (match x.park with
    | .norm a b =>
      let p := (x.g a).toNat
      let n := (x.g b).toNat
      if !s.coreRuns core then s
      else match s.lockedWord p n, s.poisonWord p n with
        | some v, _ => s.trapAt w .rangeLocked v
        | none, some v => s.trapAt w .poison v
        | none, none =>
          let xs := (List.range n).map (fun k => s.nat (rawKey p + 4 * k) 4)
          s.setSlot w (x.setG 4 (dbl (normOf xs))).next
    | _ => s)

/-! ### ACERT (R156, R299) -/

/-- A certification record as a number of 512 bits. -/
def State.certRec (s : State) (a : Nat) : Nat := s.nat (rawKey a) 64

/-- n of a record. -/
def certN (x : Nat) : Nat := nfield x 400 13

/-- The input arrays: address and bytes. -/
def certIns (x : Nat) : List (Nat × Nat) := (List.range 3).map (fun k => (nfield x (64 * k) 64, 4 * certN x))
/-- The bitmap and the list: address and bytes. -/
def certOuts (x : Nat) : List (Nat × Nat) := [(nfield x 192 64, 8 * ceilDiv (certN x) 64), (nfield x 256 64, 2 * certN x)]

/-- Whether two arrays share a byte. -/
def arraysMeet (p q : Nat × Nat) : Bool := overlaps p.1 (p.1 + p.2) q.1 (q.1 + q.2)

/-- ACERT's checks past its waits, up to the ranges. -/
def State.certPlan (s : State) (ra : Word) : Except (Cause × Word) (List RangeReq) :=
  let a := ra.toNat
  let tile := tileOf s.cur.core
  let own := fun (p : Nat × Nat) => s.userArea s.me.part p.1 p.2 && decide (tileOf (homeOf p.1) = tile)
  if a % 64 ≠ 0 then .error (.align, ra)
  else if !own (a, 64) then .error (.access, ra)
  else
    let x := s.certRec a
    let n := certN x
    let outs := certOuts x
    if n = 0 ∨ 4096 < n ∨ nfield x 413 3 ≠ 0 ∨ nfield x 385 15 ≠ 0 then .error (.bounds, ra)
    else match (certIns x ++ outs).find? (fun p => !own p) with
      | some p => .error (.access, dbl p.1)
      | none =>
        let rec_ := (a, 64)
        let bm := (nfield x 192 64, 8 * ceilDiv n 64)
        let ls := (nfield x 256 64, 2 * n)
        if (certIns x).any (fun p => decide (p.1 % 4 ≠ 0)) ∨ ls.1 % 2 ≠ 0 ∨ bm.1 % 8 ≠ 0 ∨
            (certIns x).any (fun p => arraysMeet p bm || arraysMeet p ls) ∨ arraysMeet rec_ bm ∨ arraysMeet rec_ ls ∨ arraysMeet bm ls then
          .error (.bounds, ra)
        else .ok ((certIns x).map (fun p => spanReq false (p.1, p.1 + p.2)) ++
          [rec_, bm, ls].map (fun p => spanReq true (p.1, p.1 + p.2)))

/-- ACERT (R299): its slot parks until the check stage has served it. -/
def execAcert (a : BitVec 5) (s : State) : Out :=
  .next (s.smallOnly (.acert a) (fun s => s.waitBoth (fun s =>
    match s.certPlan (s.g a) with
    | .error (c, v) => s.raise c v
    | .ok qs =>
      let c : Cert := { who := s.cur, record := (s.g a).toNat, thread := s.me.thread, launch := s.me.launch, pid := s.me.pid }
      s.issueRanges (fun _ => false) qs qs (.cert c) (fun s => s) (fun s => s.queueCert c qs))))

/-! ### The procedure of R157 -/

/-- A NaN formed inside the procedure as +∞. -/
def upTo (r : Nat × Flags) : Nat := if f32.isNaN r.1 then f32.inf false else r.1

/-- The classes of R157; an uncertain neuron carries its bound. -/
inductive Neuron where
  | inactive
  | active
  | uncertain (b : Nat)
  deriving DecidableEq, Repr

/-- Whether a value is at most another, neither being a NaN. -/
def leqF (x y : Nat) : Bool := !f32.isNaN x && !f32.isNaN y && decide (cmpFV (f32.value x) (f32.value y) ≤ 0)

/-- One neuron classified. -/
def classify (act : Bool) (norm theta p e c : Nat) : Neuron :=
  let bad := f32.isNaN p || f32.isNaN e || f32.isNaN c || f32.isNaN norm
  let t := if bad then f32.inf false else upTo (fpAdd f32 .rup p (upTo (fpMul f32 .rup e norm)))
  if leqF t 0 then .inactive
  else if !f32.isNaN p && !f32.isNaN theta && decide (cmpFV (f32.value theta) (f32.value p) < 0) then .active
  else if bad then .uncertain (f32.inf false)
  else
    let a := if act then upTo (fpMul f32 .rup t t) else t
    .uncertain (upTo (fpMul f32 .rup a c))

/-- A neuron put among those ordered by bound descending, ties to the lower index. -/
def insertNeuron (i b : Nat) : List (Nat × Nat) → List (Nat × Nat)
  | [] => [(i, b)]
  | (j, c) :: r => if cmpFV (f32.value c) (f32.value b) < 0 then (i, b) :: (j, c) :: r else (j, c) :: insertNeuron i b r

/-- T[k], T[k+1], … T[u] for the ordered bounds from k on. -/
def tailSums : List (Nat × Nat) → List Nat
  | [] => [0]
  | (_, b) :: r =>
    let t := tailSums r
    upTo (fpAdd f32 .rup b (t.headD 0)) :: t

/-- The outcome: the counts, the fetched neurons in ascending order, and B (R157, R158). -/
structure CertOut where
  ninact : Nat
  nact : Nat
  nunc : Nat
  nrep : Nat
  fetched : List Nat
  bound : Nat

/-- The procedure over the neurons' classes. -/
def certify (eps : Nat) (cs : List Neuron) : CertOut :=
  let ix := cs.zipIdx
  let unc := ix.foldl (fun l p => match p.1 with | .uncertain b => insertNeuron p.2 b l | _ => l) []
  let ts := tailSums unc
  let kr := (ts.findIdx? (fun t => leqF t eps)).getD unc.length
  let replay := (unc.take kr).map (fun p => p.1)
  let act := (ix.filter (fun p => decide (p.1 = .active))).length
  { ninact := (ix.filter (fun p => decide (p.1 = .inactive))).length, nact := act, nunc := unc.length, nrep := kr
    fetched := (ix.filter (fun p => decide (p.1 = .active) || replay.contains p.2)).map (fun p => p.2)
    bound := ts.getD kr 0 }

/-- The procedure on a record's arrays. -/
def State.certRun (s : State) (x : Nat) : CertOut :=
  let f := fun (k i : Nat) => s.nat (rawKey (nfield x (64 * k) 64) + 4 * i) 4
  certify (nfield x 416 32) ((List.range (certN x)).map (fun i =>
    classify (nbit x 384) (nfield x 320 32) (nfield x 352 32) (f 0 i) (f 1 i) (f 2 i)))

/-- The outputs written (R158). -/
def State.certWrite (s : State) (a x : Nat) (o : CertOut) (part launch : Nat) (pid : BitVec 16) : State :=
  let bm := o.fetched.foldl (fun n i => n + 2 ^ i) 0
  let s := s.arrayPut part launch pid (a + 56) (leBytes 8 (o.nrep + o.nunc * 2 ^ 16 + o.nact * 2 ^ 32 + o.ninact * 2 ^ 48))
  let s := s.arrayPut part launch pid (nfield x 192 64) (leBytes (8 * ceilDiv (certN x) 64) bm)
  if o.fetched = [] then s
  else s.arrayPut part launch pid (nfield x 256 64) (o.fetched.flatMap (fun i => leBytes 2 i))

/-- The first poisoned word of a record and its inputs, if any. -/
def State.certPoison (s : State) (a x : Nat) : Option Word :=
  ((a, 64) :: certIns x).findSome? (fun p => s.poisonWord p.1 (p.2 / 4))

/-- CERTIFICATION (R157, R158, R299, R329): the check stage serves the ACERT at the head; the ranges are removed
before the slot wakes, and a poisoned input makes it take POISON with nothing written.  That of a killed thread is served
and wakes no one (R370). -/
def execCertification (tile : Nat) (s : State) : Out :=
  .next (match (s.tile tile).certs with
    | c :: rest =>
      if !s.tileRuns tile then s
      else
        let x := s.certRec c.record
        let k := s.slot c.who
        let waits := decide (k.park = .certify ∧ k.thread = c.thread)
        let bad := s.certPoison c.record x
        let o := s.certRun x
        let s := if bad.isSome then s else s.certWrite c.record x o ((s.partOf (16 * tile)).getD 0) c.launch c.pid
        let s := s.setTile tile { s.tile tile with certs := rest }
        let s := s.unregister (fun r => decide (r = .certify tile c.who c.thread))
        if !waits then s
        else match bad with
          | some p => s.trapAt c.who .poison p
          | none => s.setSlot c.who ((s.slot c.who).setG 4 (dbl o.bound)).next
    | [] => s)

end Sys2Proof.Machine
end

