-- ==== Sys2Proof/Machine/Dispatch.lean ====
section
/-! DEFINITION.  One arm for every constructor of Instr: its meaning. -/

namespace Sys2Proof.Machine

/-- The meaning of an instruction of the running slot, or of a step of another agent. -/
def exec (i : Instr) (s : State) : Host.Outcome State Fault Refusal :=
  match i with
  | .add d a b => Sys2Proof.Machine.execAdd d a b s
  | .sub d a b => Sys2Proof.Machine.execSub d a b s
  | .and d a b => Sys2Proof.Machine.execAnd d a b s
  | .or d a b => Sys2Proof.Machine.execOr d a b s
  | .xor d a b => Sys2Proof.Machine.execXor d a b s
  | .andn d a b => Sys2Proof.Machine.execAndn d a b s
  | .sll d a b => Sys2Proof.Machine.execSll d a b s
  | .srl d a b => Sys2Proof.Machine.execSrl d a b s
  | .sra d a b => Sys2Proof.Machine.execSra d a b s
  | .slt d a b => Sys2Proof.Machine.execSlt d a b s
  | .sltu d a b => Sys2Proof.Machine.execSltu d a b s
  | .min d a b => Sys2Proof.Machine.execMin d a b s
  | .max d a b => Sys2Proof.Machine.execMax d a b s
  | .minu d a b => Sys2Proof.Machine.execMinu d a b s
  | .maxu d a b => Sys2Proof.Machine.execMaxu d a b s
  | .clz d a => Sys2Proof.Machine.execClz d a s
  | .ctz d a => Sys2Proof.Machine.execCtz d a s
  | .popc d a => Sys2Proof.Machine.execPopc d a s
  | .sextb d a => Sys2Proof.Machine.execSextb d a s
  | .sexth d a => Sys2Proof.Machine.execSexth d a s
  | .sextw d a => Sys2Proof.Machine.execSextw d a s
  | .zextw d a => Sys2Proof.Machine.execZextw d a s
  | .addw d a b => Sys2Proof.Machine.execAddw d a b s
  | .subw d a b => Sys2Proof.Machine.execSubw d a b s
  | .sllw d a b => Sys2Proof.Machine.execSllw d a b s
  | .srlw d a b => Sys2Proof.Machine.execSrlw d a b s
  | .sraw d a b => Sys2Proof.Machine.execSraw d a b s
  | .addi d a imm => Sys2Proof.Machine.execAddi d a imm s
  | .andi d a imm => Sys2Proof.Machine.execAndi d a imm s
  | .ori d a imm => Sys2Proof.Machine.execOri d a imm s
  | .xori d a imm => Sys2Proof.Machine.execXori d a imm s
  | .slti d a imm => Sys2Proof.Machine.execSlti d a imm s
  | .sltiu d a imm => Sys2Proof.Machine.execSltiu d a imm s
  | .slli d a amt => Sys2Proof.Machine.execSlli d a amt s
  | .srli d a amt => Sys2Proof.Machine.execSrli d a amt s
  | .srai d a amt => Sys2Proof.Machine.execSrai d a amt s
  | .lui d imm => Sys2Proof.Machine.execLui d imm s
  | .addpc d imm => Sys2Proof.Machine.execAddpc d imm s
  | .mul d a b => Sys2Proof.Machine.execMul d a b s
  | .mulh d a b => Sys2Proof.Machine.execMulh d a b s
  | .mulhu d a b => Sys2Proof.Machine.execMulhu d a b s
  | .mulw d a b => Sys2Proof.Machine.execMulw d a b s
  | .div d a b => Sys2Proof.Machine.execDiv d a b s
  | .divu d a b => Sys2Proof.Machine.execDivu d a b s
  | .rem d a b => Sys2Proof.Machine.execRem d a b s
  | .remu d a b => Sys2Proof.Machine.execRemu d a b s
  | .beq a b d => Sys2Proof.Machine.execBeq a b d s
  | .bne a b d => Sys2Proof.Machine.execBne a b d s
  | .blt a b d => Sys2Proof.Machine.execBlt a b d s
  | .bge a b d => Sys2Proof.Machine.execBge a b d s
  | .bltu a b d => Sys2Proof.Machine.execBltu a b d s
  | .bgeu a b d => Sys2Proof.Machine.execBgeu a b d s
  | .j d => Sys2Proof.Machine.execJ d s
  | .jl r d => Sys2Proof.Machine.execJl r d s
  | .jlr d a imm => Sys2Proof.Machine.execJlr d a imm s
  | .cmp p a b c => Sys2Proof.Machine.execCmp p a b c s
  | .pand p q r => Sys2Proof.Machine.execPand p q r s
  | .por p q r => Sys2Proof.Machine.execPor p q r s
  | .pxor p q r => Sys2Proof.Machine.execPxor p q r s
  | .bp p d => Sys2Proof.Machine.execBp p d s
  | .bpF p d => Sys2Proof.Machine.execBpF p d s
  | .lb d a r o => Sys2Proof.Machine.execLb d a r o s
  | .lbu d a r o => Sys2Proof.Machine.execLbu d a r o s
  | .lh d a r o => Sys2Proof.Machine.execLh d a r o s
  | .lhu d a r o => Sys2Proof.Machine.execLhu d a r o s
  | .lw d a r o => Sys2Proof.Machine.execLw d a r o s
  | .lwu d a r o => Sys2Proof.Machine.execLwu d a r o s
  | .ld d a r o => Sys2Proof.Machine.execLd d a r o s
  | .sb src a r o => Sys2Proof.Machine.execSb src a r o s
  | .sh src a r o => Sys2Proof.Machine.execSh src a r o s
  | .sw src a r o => Sys2Proof.Machine.execSw src a r o s
  | .sd src a r o => Sys2Proof.Machine.execSd src a r o s
  | .aadd d a b r z => Sys2Proof.Machine.execAadd d a b r z s
  | .aand d a b r z => Sys2Proof.Machine.execAand d a b r z s
  | .aor d a b r z => Sys2Proof.Machine.execAor d a b r z s
  | .axor d a b r z => Sys2Proof.Machine.execAxor d a b r z s
  | .amin d a b r z => Sys2Proof.Machine.execAmin d a b r z s
  | .amax d a b r z => Sys2Proof.Machine.execAmax d a b r z s
  | .aminu d a b r z => Sys2Proof.Machine.execAminu d a b r z s
  | .amaxu d a b r z => Sys2Proof.Machine.execAmaxu d a b r z s
  | .aswap d a b r z => Sys2Proof.Machine.execAswap d a b r z s
  | .acas d a b r z => Sys2Proof.Machine.execAcas d a b r z s
  | .redadd a b z => Sys2Proof.Machine.execRedadd a b z s
  | .redand a b z => Sys2Proof.Machine.execRedand a b z s
  | .redor a b z => Sys2Proof.Machine.execRedor a b z s
  | .redmin a b z => Sys2Proof.Machine.execRedmin a b z s
  | .redmax a b z => Sys2Proof.Machine.execRedmax a b z s
  | .xcaddV a v => Sys2Proof.Machine.execXcaddV a v s
  | .xcaddG a b => Sys2Proof.Machine.execXcaddG a b s
  | .xcread d a => Sys2Proof.Machine.execXcread d a s
  | .xcclr a => Sys2Proof.Machine.execXcclr a s
  | .fence => Sys2Proof.Machine.execFence s
  | .fenceRed => Sys2Proof.Machine.execFenceRed s
  | .fenceAcq => Sys2Proof.Machine.execFenceAcq s
  | .fenceSys => Sys2Proof.Machine.execFenceSys s
  | .migrate a b => Sys2Proof.Machine.execMigrate a b s
  | .migto a b => Sys2Proof.Machine.execMigto a b s
  | .spawn d a b => Sys2Proof.Machine.execSpawn d a b s
  | .send d a => Sys2Proof.Machine.execSend d a s
  | .sendt d a => Sys2Proof.Machine.execSendt d a s
  | .recv d a => Sys2Proof.Machine.execRecv d a s
  | .recvt d a => Sys2Proof.Machine.execRecvt d a s
  | .append d a b => Sys2Proof.Machine.execAppend d a b s
  | .appendt d a b => Sys2Proof.Machine.execAppendt d a b s
  | .mbstat d => Sys2Proof.Machine.execMbstat d s
  | .qbind q a => Sys2Proof.Machine.execQbind q a s
  | .qwr q a => Sys2Proof.Machine.execQwr q a s
  | .qrd d q => Sys2Proof.Machine.execQrd d q s
  | .vqwr q v => Sys2Proof.Machine.execVqwr q v s
  | .vqrd v q => Sys2Proof.Machine.execVqrd v q s
  | .qstat d q => Sys2Proof.Machine.execQstat d q s
  | .qclose q => Sys2Proof.Machine.execQclose q s
  | .syncinit d a b => Sys2Proof.Machine.execSyncinit d a b s
  | .acq a => Sys2Proof.Machine.execAcq a s
  | .tryacq d a => Sys2Proof.Machine.execTryacq d a s
  | .rel a => Sys2Proof.Machine.execRel a s
  | .lockrun d a b => Sys2Proof.Machine.execLockrun d a b s
  | .arrive a b => Sys2Proof.Machine.execArrive a b s
  | .await d a => Sys2Proof.Machine.execAwait d a s
  | .syncserve a => Sys2Proof.Machine.execSyncserve a s
  | .syncdone a => Sys2Proof.Machine.execSyncdone a s
  | .syncmode d a b => Sys2Proof.Machine.execSyncmode d a b s
  | .syncpol d a b => Sys2Proof.Machine.execSyncpol d a b s
  | .syncfree a => Sys2Proof.Machine.execSyncfree a s
  | .tcinit a b => Sys2Proof.Machine.execTcinit a b s
  | .tcdec a b => Sys2Proof.Machine.execTcdec a b s
  | .yield b => Sys2Proof.Machine.execYield b s
  | .exit => Sys2Proof.Machine.execExit s
  | .quiesce => Sys2Proof.Machine.execQuiesce s
  | .dqpush d a b => Sys2Proof.Machine.execDqpush d a b s
  | .dqpop d => Sys2Proof.Machine.execDqpop d s
  | .dqsplit d => Sys2Proof.Machine.execDqsplit d s
  | .dqsteal d a => Sys2Proof.Machine.execDqsteal d a s
  | .dqlen d => Sys2Proof.Machine.execDqlen d s
  | .alloc d a => Sys2Proof.Machine.execAlloc d a s
  | .free a => Sys2Proof.Machine.execFree a s
  | .vldF32 d a r o => Sys2Proof.Machine.execVldF32 d a r o s
  | .vldF64 d a r o => Sys2Proof.Machine.execVldF64 d a r o s
  | .vldbF32 d a r o => Sys2Proof.Machine.execVldbF32 d a r o s
  | .vldbF64 d a r o => Sys2Proof.Machine.execVldbF64 d a r o s
  | .vstF32 src a r o => Sys2Proof.Machine.execVstF32 src a r o s
  | .vstF64 src a r o => Sys2Proof.Machine.execVstF64 src a r o s
  | .vadd d a b f sat => Sys2Proof.Machine.execVadd d a b f sat s
  | .vsub d a b f sat => Sys2Proof.Machine.execVsub d a b f sat s
  | .vmul d a b f sat => Sys2Proof.Machine.execVmul d a b f sat s
  | .vmin d a b f => Sys2Proof.Machine.execVmin d a b f s
  | .vmax d a b f => Sys2Proof.Machine.execVmax d a b f s
  | .vminu d a b f => Sys2Proof.Machine.execVminu d a b f s
  | .vmaxu d a b f => Sys2Proof.Machine.execVmaxu d a b f s
  | .vand d a b f => Sys2Proof.Machine.execVand d a b f s
  | .vor d a b f => Sys2Proof.Machine.execVor d a b f s
  | .vxor d a b f => Sys2Proof.Machine.execVxor d a b f s
  | .vsll d a b f => Sys2Proof.Machine.execVsll d a b f s
  | .vsrl d a b f => Sys2Proof.Machine.execVsrl d a b f s
  | .vsra d a b f => Sys2Proof.Machine.execVsra d a b f s
  | .vcmpeq d a b f => Sys2Proof.Machine.execVcmpeq d a b f s
  | .vcmplt d a b f => Sys2Proof.Machine.execVcmplt d a b f s
  | .vcmpltu d a b f => Sys2Proof.Machine.execVcmpltu d a b f s
  | .vsel d a b f => Sys2Proof.Machine.execVsel d a b f s
  | .vpsum d a f sat => Sys2Proof.Machine.execVpsum d a f sat s
  | .vwacc d a b f sat => Sys2Proof.Machine.execVwacc d a b f sat s
  | .vdot4 d a b f sat => Sys2Proof.Machine.execVdot4 d a b f sat s
  | .vpsumF32 d a => Sys2Proof.Machine.execVpsumF32 d a s
  | .vfadd d a b f => Sys2Proof.Machine.execVfadd d a b f s
  | .vfsub d a b f => Sys2Proof.Machine.execVfsub d a b f s
  | .vfmul d a b f => Sys2Proof.Machine.execVfmul d a b f s
  | .vfdiv d a b f => Sys2Proof.Machine.execVfdiv d a b f s
  | .vfsqrt d a f => Sys2Proof.Machine.execVfsqrt d a f s
  | .vfmin d a b f => Sys2Proof.Machine.execVfmin d a b f s
  | .vfmax d a b f => Sys2Proof.Machine.execVfmax d a b f s
  | .vfabs d a f => Sys2Proof.Machine.execVfabs d a f s
  | .vfneg d a f => Sys2Proof.Machine.execVfneg d a f s
  | .vfcmpeq p a b f => Sys2Proof.Machine.execVfcmpeq p a b f s
  | .vfcmplt p a b f => Sys2Proof.Machine.execVfcmplt p a b f s
  | .vfcmple p a b f => Sys2Proof.Machine.execVfcmple p a b f s
  | .vfclass d a f => Sys2Proof.Machine.execVfclass d a f s
  | .vfma d a b c f => Sys2Proof.Machine.execVfma d a b c f s
  | .vfms d a b c f => Sys2Proof.Machine.execVfms d a b c f s
  | .vfnma d a b c f => Sys2Proof.Machine.execVfnma d a b c f s
  | .vfnms d a b c f => Sys2Proof.Machine.execVfnms d a b c f s
  | .vexp2 d a f => Sys2Proof.Machine.execVexp2 d a f s
  | .vlog2 d a f => Sys2Proof.Machine.execVlog2 d a f s
  | .vrcp d a f => Sys2Proof.Machine.execVrcp d a f s
  | .vrsq d a f => Sys2Proof.Machine.execVrsq d a f s
  | .sigget d a f => Sys2Proof.Machine.execSigget d a f s
  | .sigset d b f => Sys2Proof.Machine.execSigset d b f s
  | .sigmin d a f => Sys2Proof.Machine.execSigmin d a f s
  | .bsig v b d => Sys2Proof.Machine.execBsig v b d s
  | .vsplat d a k f => Sys2Proof.Machine.execVsplat d a k f s
  | .vins d a k f => Sys2Proof.Machine.execVins d a k f s
  | .vext d a k f => Sys2Proof.Machine.execVext d a k f s
  | .vperm d a b f => Sys2Proof.Machine.execVperm d a b f s
  | .vhadd d a f => Sys2Proof.Machine.execVhadd d a f s
  | .vcvt d a b f t src => Sys2Proof.Machine.execVcvt d a b f t src s
  | .vcvti d a b f t src => Sys2Proof.Machine.execVcvti d a b f t src s
  | .mgang => Sys2Proof.Machine.execMgang s
  | .mldw a => Sys2Proof.Machine.execMldw a s
  | .mtld a => Sys2Proof.Machine.execMtld a s
  | .mswap => Sys2Proof.Machine.execMswap s
  | .mzero => Sys2Proof.Machine.execMzero s
  | .mstrm a => Sys2Proof.Machine.execMstrm a s
  | .mgrp a b g => Sys2Proof.Machine.execMgrp a b g s
  | .mdrain b => Sys2Proof.Machine.execMdrain b s
  | .mstat => Sys2Proof.Machine.execMstat s
  | .anorm a b => Sys2Proof.Machine.execAnorm a b s
  | .acert a => Sys2Proof.Machine.execAcert a s
  | .afetch a => Sys2Proof.Machine.execAfetch a s
  | .mcovi b => Sys2Proof.Machine.execMcovi b s
  | .mcovp a b r => Sys2Proof.Machine.execMcovp a b r s
  | .mcovc a b => Sys2Proof.Machine.execMcovc a b s
  | .mcovr a b => Sys2Proof.Machine.execMcovr a b s
  | .ecw b imm => Sys2Proof.Machine.execEcw b imm s
  | .ecr imm => Sys2Proof.Machine.execEcr imm s
  | .ego => Sys2Proof.Machine.execEgo s
  | .ewait b => Sys2Proof.Machine.execEwait b s
  | .cbinit a n => Sys2Proof.Machine.execCbinit a n s
  | .cbacq n => Sys2Proof.Machine.execCbacq n s
  | .cbrel n => Sys2Proof.Machine.execCbrel n s
  | .cbstat n => Sys2Proof.Machine.execCbstat n s
  | .syscall c => Sys2Proof.Machine.execSyscall c s
  | .trap c => Sys2Proof.Machine.execTrap c s
  | .eret => Sys2Proof.Machine.execEret s
  | .brk c => Sys2Proof.Machine.execBrk c s
  | .nop => Sys2Proof.Machine.execNop s
  | .tstamp d => Sys2Proof.Machine.execTstamp d s
  | .trig d a c => Sys2Proof.Machine.execTrig d a c s
  | .ptblw h l => Sys2Proof.Machine.execPtblw h l s
  | .csrr d c => Sys2Proof.Machine.execCsrr d c s
  | .csrw d a c => Sys2Proof.Machine.execCsrw d a c s
  | .csrs d a c => Sys2Proof.Machine.execCsrs d a c s
  | .csrc d a c => Sys2Proof.Machine.execCsrc d a c s
  | .launch d a => Sys2Proof.Machine.execLaunch d a s
  | .lwait d a => Sys2Proof.Machine.execLwait d a s
  | .stagedTableGoesLive core => Sys2Proof.Machine.execStagedTableGoesLive core s
  | .trapEntry core slot => Sys2Proof.Machine.execTrapEntry core slot s
  | .slotTakesWork core => Sys2Proof.Machine.execSlotTakesWork core s
  | .contextPacketAdmission id => Sys2Proof.Machine.execContextPacketAdmission id s
  | .migrationReply id => Sys2Proof.Machine.execMigrationReply id s
  | .refusalBackoffExpiry id => Sys2Proof.Machine.execRefusalBackoffExpiry id s
  | .forwardingEntryExpiry core slot => Sys2Proof.Machine.execForwardingEntryExpiry core slot s
  | .lateReplyAtOrigin core slot => Sys2Proof.Machine.execLateReplyAtOrigin core slot s
  | .tcdecArrival id => Sys2Proof.Machine.execTcdecArrival id s
  | .quiesceSweep launch => Sys2Proof.Machine.execQuiesceSweep launch s
  | .activeMessage id => Sys2Proof.Machine.execActiveMessage id s
  | .dequeStealServed id => Sys2Proof.Machine.execDequeStealServed id s
  | .accessReply id => Sys2Proof.Machine.execAccessReply id s
  | .fireAndForgetAck id => Sys2Proof.Machine.execFireAndForgetAck id s
  | .edgeCoreServe id => Sys2Proof.Machine.execEdgeCoreServe id s
  | .specialFunctionResult core slot => Sys2Proof.Machine.execSpecialFunctionResult core slot s
  | .anormResult core slot => Sys2Proof.Machine.execAnormResult core slot s
  | .allocatorEngineStep id => Sys2Proof.Machine.execAllocatorEngineStep id s
  | .acqAtHome id => Sys2Proof.Machine.execAcqAtHome id s
  | .tryacqAtHome id => Sys2Proof.Machine.execTryacqAtHome id s
  | .relAtHome id => Sys2Proof.Machine.execRelAtHome id s
  | .lockrunAtHome id => Sys2Proof.Machine.execLockrunAtHome id s
  | .syncserveAtHome id => Sys2Proof.Machine.execSyncserveAtHome id s
  | .directArrival id => Sys2Proof.Machine.execDirectArrival id s
  | .combinedArrival id => Sys2Proof.Machine.execCombinedArrival id s
  | .engineArrival id => Sys2Proof.Machine.execEngineArrival id s
  | .syncdoneAtHome id => Sys2Proof.Machine.execSyncdoneAtHome id s
  | .syncpolAtHome id => Sys2Proof.Machine.execSyncpolAtHome id s
  | .syncfreeAtHome id => Sys2Proof.Machine.execSyncfreeAtHome id s
  | .ownerDeparture id => Sys2Proof.Machine.execOwnerDeparture id s
  | .killMark id => Sys2Proof.Machine.execKillMark id s
  | .releaseReachesCore id core => Sys2Proof.Machine.execReleaseReachesCore id core s
  | .nodeArming id => Sys2Proof.Machine.execNodeArming id s
  | .nodeForward desc level unit => Sys2Proof.Machine.execNodeForward desc level unit s
  | .delegatedWorkAtOwner id => Sys2Proof.Machine.execDelegatedWorkAtOwner id s
  | .lockrunResult id => Sys2Proof.Machine.execLockrunResult id s
  | .mailboxDelivery id => Sys2Proof.Machine.execMailboxDelivery id s
  | .appendAtRing id => Sys2Proof.Machine.execAppendAtRing id s
  | .appendRetry ring => Sys2Proof.Machine.execAppendRetry ring s
  | .contextGone sender => Sys2Proof.Machine.execContextGone sender s
  | .jobStart tile => Sys2Proof.Machine.execJobStart tile s
  | .cbSlotStart tile => Sys2Proof.Machine.execCbSlotStart tile s
  | .cbSlotFilled tile => Sys2Proof.Machine.execCbSlotFilled tile s
  | .jobCompletion tile => Sys2Proof.Machine.execJobCompletion tile s
  | .jobSuspension tile => Sys2Proof.Machine.execJobSuspension tile s
  | .rangeTableRoom core slot => Sys2Proof.Machine.execRangeTableRoom core slot s
  | .gangJoin tile => Sys2Proof.Machine.execGangJoin tile s
  | .mgangRelease tile => Sys2Proof.Machine.execMgangRelease tile s
  | .gangLeave core => Sys2Proof.Machine.execGangLeave core s
  | .shadowLoad tile => Sys2Proof.Machine.execShadowLoad tile s
  | .planeSwap tile => Sys2Proof.Machine.execPlaneSwap tile s
  | .accumulatorZero tile => Sys2Proof.Machine.execAccumulatorZero tile s
  | .streamPass tile => Sys2Proof.Machine.execStreamPass tile s
  | .drain tile => Sys2Proof.Machine.execDrain tile s
  | .groupedProduct tile => Sys2Proof.Machine.execGroupedProduct tile s
  | .coverageInit tile => Sys2Proof.Machine.execCoverageInit tile s
  | .coverageProbe tile => Sys2Proof.Machine.execCoverageProbe tile s
  | .spanJoin tile => Sys2Proof.Machine.execSpanJoin tile s
  | .coverageCommit tile => Sys2Proof.Machine.execCoverageCommit tile s
  | .coverageReadback tile => Sys2Proof.Machine.execCoverageReadback tile s
  | .matrixRerun tile good => Sys2Proof.Machine.execMatrixRerun tile good s
  | .certification tile => Sys2Proof.Machine.execCertification tile s
  | .syscallGateReply core slot call => Sys2Proof.Machine.execSyscallGateReply core slot call s
  | .qdb part prio addr => Sys2Proof.Machine.execQdb part prio addr s
  | .launchRecordSent id => Sys2Proof.Machine.execLaunchRecordSent id s
  | .dependenceReread launch => Sys2Proof.Machine.execDependenceReread launch s
  | .queueAging launch => Sys2Proof.Machine.execQueueAging launch s
  | .launchHeadCheck part => Sys2Proof.Machine.execLaunchHeadCheck part s
  | .selectAndReserve part first => Sys2Proof.Machine.execSelectAndReserve part first s
  | .prepare part => Sys2Proof.Machine.execPrepare part s
  | .commit part picks => Sys2Proof.Machine.execCommit part picks s
  | .launchCompletion launch => Sys2Proof.Machine.execLaunchCompletion launch s
  | .eventideRequest part => Sys2Proof.Machine.execEventideRequest part s
  | .eventideStop part => Sys2Proof.Machine.execEventideStop part s
  | .eventideResume part => Sys2Proof.Machine.execEventideResume part s
  | .kill core slot => Sys2Proof.Machine.execKill core slot s
  | .heldRewalk id => Sys2Proof.Machine.execHeldRewalk id s
  | .holdTimeout id => Sys2Proof.Machine.execHoldTimeout id s
  | .translationWalk id cached => Sys2Proof.Machine.execTranslationWalk id cached s
  | .shootdown agent all pid lo hi => Sys2Proof.Machine.execShootdown agent all pid lo hi s
  | .jobResume tile job => Sys2Proof.Machine.execJobResume tile job s
  | .jobAbort tile job => Sys2Proof.Machine.execJobAbort tile job s
  | .hostAccess addr n data => Sys2Proof.Machine.execHostAccess addr n data s
  | .hbhostWrite v => Sys2Proof.Machine.execHbhostWrite v s
  | .heartbeatCheck => Sys2Proof.Machine.execHeartbeatCheck s
  | .unfence v => Sys2Proof.Machine.execUnfence v s
  | .hbdevTick => Sys2Proof.Machine.execHbdevTick s
  | .pairStop pair => Sys2Proof.Machine.execPairStop pair s
  | .livenessStamp => Sys2Proof.Machine.execLivenessStamp s
  | .leaderTakeover => Sys2Proof.Machine.execLeaderTakeover s
  | .dutyAdoption die pair => Sys2Proof.Machine.execDutyAdoption die pair s
  | .dusk link => Sys2Proof.Machine.execDusk link s
  | .duskResume link lost => Sys2Proof.Machine.execDuskResume link lost s
  | .daybreak boot => Sys2Proof.Machine.execDaybreak boot s
  | .unitFailure unit => Sys2Proof.Machine.execUnitFailure unit s
  | .scrubError addr => Sys2Proof.Machine.execScrubError addr s
  | .nightfallStopRequest part => Sys2Proof.Machine.execNightfallStopRequest part s
  | .nightfallResumeRequest part => Sys2Proof.Machine.execNightfallResumeRequest part s
  | .nightfallStop part => Sys2Proof.Machine.execNightfallStop part s
  | .nightfallResume part => Sys2Proof.Machine.execNightfallResume part s
  | .trctlWrite core v => Sys2Proof.Machine.execTrctlWrite core v s
  | .partitionEntryWrite part v => Sys2Proof.Machine.execPartitionEntryWrite part v s
  | .largeCoreMaskWrite part v => Sys2Proof.Machine.execLargeCoreMaskWrite part v s
  | .islandStepDown island power temp => Sys2Proof.Machine.execIslandStepDown island power temp s
  | .islandStepUp island power temp => Sys2Proof.Machine.execIslandStepUp island power temp s
  | .thermalWithhold sg temp => Sys2Proof.Machine.execThermalWithhold sg temp s
  | .telemetrySample => Sys2Proof.Machine.execTelemetrySample s
  | .quoteRequest => Sys2Proof.Machine.execQuoteRequest s
  | .quoteReady => Sys2Proof.Machine.execQuoteReady s
  | .registerWrite off v => Sys2Proof.Machine.execRegisterWrite off v s
  | .debuggerRelease core slot => Sys2Proof.Machine.execDebuggerRelease core slot s
  | .stoppedStateWrite w => Sys2Proof.Machine.execStoppedStateWrite w s
  | .firmwareMemoryWrite addr data applied => Sys2Proof.Machine.execFirmwareMemoryWrite addr data applied s
  | .rangeEntryRemoval id => Sys2Proof.Machine.execRangeEntryRemoval id s
  | .linkRetry link => Sys2Proof.Machine.execLinkRetry link s

end Sys2Proof.Machine
end

