-- ==== Sys2Proof/Machine/Step.lean ====
section
/-! DEFINITION.  One step of the part: the next entry of the environment's schedule, or a cycle of the core in focus
(log entry 1); and the state in which the next step runs a given word (log entry 6). -/

namespace Sys2Proof.Machine

/-- A cycle of a core: the instruction that its slot issues, if any, and its trace event; a trap taken ahead of the issue
has its entry traced; then the cycle's admission work and its count (R10, R321, R387, R390).  A core that has stopped has no
cycle (R344, R385). -/
def stepCycle (core : Nat) (cached : Bool) (s : State) : Out :=
  if !s.coreRuns core then .next s
  else match s.cycle core cached with
  | .over t => .next ((t.traceEntries s).endCycle core none)
  | .missing pa => .fault (.noSuchMemory pa)
  | .run w i t =>
    match exec i t with
    | .next u => .next ((u.traceIssue w i (t.slot w)).endCycle core (u.issuedIn w))
    | .fault e => .fault e
    | .refused r => .refused r

/-- A step of another agent, and the trap entries it made; an encoded instruction is no such step (log entry 4). -/
def stepEvent (i : Instr) (cached : Bool) (s : State) : Out :=
  if i.encoded then .next s
  else
    match exec i { s with cached := cached } with
    | .next u => .next (u.settleEvent s)
    | .fault e => .fault e
    | .refused r => .refused r

/-- One step of the part; an answer that comes in may make a slot enter a handler, whose entry is traced (R390). -/
def step (s : State) : Host.Outcome State Fault Refusal :=
  match s.agenda with
  | [] => stepCycle s.focus false s
  | .cycle core cached :: rest => stepCycle core cached { s with agenda := rest }
  | .event i cached :: rest => stepEvent i cached { s with agenda := rest }
  | e :: rest => .next (({ s with agenda := rest }.environment e).settleEvent s)

/-! ### Placing a program (log entry 6) -/

/-- The physical address of the placed word: the start of a 1 GiB page. -/
def placedAt : Nat := 0x40000000
/-- Page tables that map the first 1 GiB of V-space at placedAt, R, W and X: process 1 of the table at address 0, its
root at 0x100000, and the table below it at 0x1000000 (R359, R360). -/
def placedTables : List (Nat × Nat) :=
  [(0x20, 1 + 0x100000), (0x100008, 1 + 0x10000 * 2 ^ 12), (0x1000000, 3 + 8 + 16 + 32 + placedAt / 2 ^ 16 * 2 ^ 13)]

/-- A user thread of process 1 in slot 0 of core 0, at the start of V-space. -/
def placedThread : Slot := { Slot.reset with occ := true, pc := dbl (2 ^ 39), pid := 1 }

/-- A state in which the next step runs a word: core 0 of partition 0 is in focus at entry 0 of a frame, its slot 0
holds a thread, and the word stands at the thread's PC (log entry 6). -/
def State.withFetchWord (s : State) (nbits w : Nat) : State :=
  let s := placedTables.foldl (fun s p => s.setNat (devKey p.1) 8 p.2) s
  let s := s.setNat (devKey placedAt) 4 (w % 2 ^ nbits)
  let s := s.setPart 0 { Partition.reset with valid := true, sgs := 1, pid := 1 }
  let s := s.setCore 0 { s.core 0 with pos := 0, live := resetTable, staged := none }
  { s with agenda := [], focus := 0 }.setSlot ⟨0, 0⟩ placedThread

end Sys2Proof.Machine
end

