-- ==== Sys2Proof/Safety.lean ====
section
/-! DEFINITION.  What the claims call safe: a run that no fault and no refusal ends, and the invariants that every step
keeps. -/

namespace Sys2Proof.Machine

/-- Whether a step of a state ends the run. -/
def State.stops (s : State) : Bool :=
  match step s with
  | .next _ => false
  | .fault _ => true
  | .refused _ => true

/-- Whether a run of n steps from a state ends in no fault and no refusal. -/
def State.safeFor : Nat → State → Bool
  | 0, _ => true
  | n + 1, s => match step s with
    | .next t => t.safeFor n
    | .fault _ => false
    | .refused _ => false

/-- Memory, side tags and poison marks in their canonical forms: keys strictly rising, no entry equal to what an
unlisted key reads as (log entry 2). -/
def State.MemForm (s : State) : Prop :=
  Memory.wf s.mem = true ∧ mapWf s.stags Tag.none = true ∧ mapWf s.poison false = true

/-- The live and the staged pipe table of every core, and of every core in an image, hold only codes 0-8, name the service slot at entries 7, 15, 23
and 31, and meet the spacing of R11 (R10, R11, R13). -/
def State.PipesOk (s : State) : Prop :=
  let ok := fun (k : Core) => pipeOk k.live = true ∧ ∀ t, k.staged = some t → pipeOk t = true
  (∀ x ∈ s.cores, ok x.2) ∧ ∀ p ∈ s.parts, ∀ i ∈ p.2.images, ∀ x ∈ i.cores, ok x.2

/-- What an instruction of a slot below the system leaves of a slot: its handlers' addresses and scratch words, and a
mode that changed only by a start in USER or an entry at one of its handlers (R347). -/
structure Slot.Guarded (x y : Slot) : Prop where
  stvec : y.sup.tvec = x.sup.tvec
  sscratch : y.sup.scratch = x.sup.scratch
  mtvec : y.mach.tvec = x.mach.tvec
  mscratch : y.mach.scratch = x.mach.scratch
  mode : y.mode = x.mode ∨ y.mode = .user ∨ (y.mode = .super ∧ y.pc = x.sup.tvec) ∨ (y.mode = .machine ∧ y.pc = x.mach.tvec)

/-! ### Issue -/

/-- The next step is a cycle of a core in a state: the schedule's head, or with an empty schedule the core in focus. -/
def State.NextCycle (s s1 : State) (core : Nat) (cached : Bool) : Prop :=
  (∃ rest, s.agenda = .cycle core cached :: rest ∧ s1 = { s with agenda := rest }) ∨
    (s.agenda = [] ∧ core = s.focus ∧ cached = false ∧ s1 = s)

/-- The state in which a core's slot issues: the frame begun where entry 0 begins one, and the cycle counted (R10,
R13). -/
def State.issuing (s : State) (core k : Nat) (cached : Bool) : State :=
  let f := s.frameStart core
  { f.setCore core ((f.core core).counted (f.parkedSlots core) (f.clock core)) with cur := ⟨core, k⟩, cached := cached }

/-- In a state in which slot w issues, its fetch finds a word at its PC: V-space, an executable page of a memory of the
part, no WRITE range and no poison (R171, R352, R362). -/
structure State.FetchesWord (s : State) (w : Who) (n : Nat) : Prop where
  calm : (s.slot w).pend = none
  low : 2 ^ 39 ≤ (s.slot w).pc.toNat
  high : (s.slot w).pc.toNat < 2 ^ 56
  word : ∃ key sh, (s.unparked w).translate (s.slot w).part (s.slot w).pid (fetchNeed (s.fetchRipe (s.slot w))) (s.slot w).pc.toNat = .ok key sh ∧
    s.keyExists key = true ∧ s.anyPoison key 4 = false ∧ s.nat key 4 = n
  unlocked : blocksLoad ((s.unparked w).vMeets (s.slot w).pid (s.slot w).pc.toNat ((s.slot w).pc.toNat + 4)) = false

/-- The state in which the fetched word of slot w runs: its fetch's hold ended and its leaf kept at the station
(R362, R363). -/
def State.fetched (s : State) (w : Who) : State :=
  (s.unparked w).keepWalk (s.slot w).part (s.slot w).pid (s.slot w).pc.toNat

/-! ### Frames -/

/-- Nothing outside the running slot differs: every byte, side tag and poison mark, every other slot, every core and
tile, and everything in flight reads as before. -/
structure State.OnlySlot (s t : State) : Prop where
  cur : t.cur = s.cur
  focus : t.focus = s.focus
  agenda : t.agenda = s.agenda
  byte : ∀ a, t.byte a = s.byte a
  sideTag : ∀ a, t.sideTag a = s.sideTag a
  poison : ∀ a, t.poisoned a = s.poisoned a
  slot : ∀ w, slotKey w ≠ slotKey s.cur → t.slot w = s.slot w
  core : ∀ c, t.core c = s.core c
  tile : ∀ k, t.tile k = s.tile k
  part : ∀ p, t.part p = s.part p
  net : t.net = s.net
  nodes : t.nodes = s.nodes
  edges : t.edges = s.edges
  posted : t.posted = s.posted
  ranges : t.ranges = s.ranges
  tlb : t.tlb = s.tlb
  launches : t.launches = s.launches
  chunks : t.chunks = s.chunks
  sys : t.sys = s.sys
  ticket : t.ticket = s.ticket
  nextId : t.nextId = s.nextId
  cached : t.cached = s.cached
  free : t.free = s.free

/-- What no computation of a slot touches: its thread, mode, trap registers, locks, watch and accesses in flight. -/
structure Slot.Kept (x y : Slot) : Prop where
  occ : y.occ = x.occ
  mode : y.mode = x.mode
  sup : y.sup = x.sup
  mach : y.mach = x.mach
  locks : y.locks = x.locks
  watch : y.watch = x.watch
  pend : y.pend = x.pend
  relaxed : y.relaxed = x.relaxed
  unacked : y.unacked = x.unacked
  lastJob : y.lastJob = x.lastJob
  pid : y.pid = x.pid
  part : y.part = x.part
  launch : y.launch = x.launch
  kind : y.kind = x.kind
  routines : y.routines = x.routines
  serving : y.serving = x.serving
  lastStamp : y.lastStamp = x.lastStamp
  code : y.code = x.code
  debug : y.debug = x.debug
  thread : y.thread = x.thread

/-- No general register differs. -/
def Slot.SameG (x y : Slot) : Prop := ∀ r, y.g r = x.g r
/-- No vector lane and no tag differs. -/
def Slot.SameV (x y : Slot) : Prop := ∀ v l, y.lane v l = x.lane v l ∧ y.tag v l = x.tag v l

/-- The general registers hold v in g[d], unless d is g0, and are otherwise unchanged. -/
def Slot.WroteG (x y : Slot) (d : BitVec 5) (v : Word) : Prop :=
  ∀ r, y.g r = if r = 0 then 0 else if r = d then v else x.g r

/-- The predicates hold b in p[k], unless k is p0, and are otherwise unchanged. -/
def Slot.WroteP (x y : Slot) (k : BitVec 4) (b : Bool) : Prop :=
  ∀ j, y.p j = if j = 0 then true else if j = k then b else x.p j

/-- An instruction completes in a state of which only the running slot differs, at the next PC, its slot's registers
as a relation says. -/
def State.Computes (s : State) (i : Instr) (R : Slot → Slot → Prop) : Prop :=
  ∃ t, exec i s = .next t ∧ s.OnlySlot t ∧ s.me.Kept t.me ∧ t.me.park = .ready ∧ t.me.turn = none ∧
    t.me.pc = s.me.pc + 4 ∧ R s.me t.me

/-- An instruction completes with g[d] alone written (R188). -/
def State.ComputesG (s : State) (i : Instr) (d : BitVec 5) (v : Word) : Prop :=
  s.Computes i (fun x y => x.WroteG y d v ∧ x.SameV y ∧ y.pw = x.pw ∧ y.csr = x.csr)

/-- An instruction completes with a PC that need not be the next, and otherwise only g[d] written. -/
def State.JumpsTo (s : State) (i : Instr) (d : BitVec 5) (v pc : Word) : Prop :=
  ∃ t, exec i s = .next t ∧ s.OnlySlot t ∧ s.me.Kept t.me ∧ t.me.park = .ready ∧ t.me.turn = none ∧
    t.me.pc = pc ∧ s.me.WroteG t.me d v ∧ s.me.SameV t.me ∧ t.me.pw = s.me.pw ∧ t.me.csr = s.me.csr

/-! ### Memory forms and the images of the windows -/

/-- A memory instruction as its checks at issue see it: its address, its size in bytes, the windows that the table of
R200 allows it, and the model's test of a window. -/
structure MemAccess where
  instr : Instr
  ea : Word
  size : Nat
  windows : List Nat
  allow : Nat → Bool

/-- The memory instructions with registers d, a and b, a vector register v and an offset (R199, R200, R209, R212, R217,
R263): every load, store, atomic, reduction and exact-cell form of majors 0x17-0x1B, and every vector load and store. -/
def State.memoryForms (s : State) (d a b : BitVec 5) (v : BitVec 4) (r z : BitVec 1) (o : BitVec 12) : List MemAccess :=
  let at_ := fun (i : Instr) (n : Nat) (ws : List Nat) (allow : Nat → Bool) =>
    ({ instr := i, ea := s.g a + o.signExtend 64 * BitVec.ofNat 64 n, size := n, windows := ws, allow := allow } : MemAccess)
  let here := fun (i : Instr) (n : Nat) =>
    ({ instr := i, ea := s.g a, size := n, windows := [0, 1], allow := winTwo } : MemAccess)
  let m := if z = 1 then 8 else 4
  [at_ (.lb d a r o) 1 [0] winRaw, at_ (.lbu d a r o) 1 [0] winRaw, at_ (.lh d a r o) 2 [0] winRaw,
    at_ (.lhu d a r o) 2 [0] winRaw, at_ (.sb d a r o) 1 [0] winRaw, at_ (.sh d a r o) 2 [0] winRaw,
    at_ (.lw d a r o) 4 [0, 1, 2, 3, 4, 5, 6, 7] winAny, at_ (.lwu d a r o) 4 [0, 1, 2, 3, 4, 5, 6, 7] winAny,
    at_ (.ld d a r o) 8 [0, 1, 2, 3, 4, 5, 6, 7] winAny, at_ (.sw d a r o) 4 [0, 1, 2, 3, 4, 6, 7] winStore,
    at_ (.sd d a r o) 8 [0, 1, 2, 3, 4, 6, 7] winStore] ++
  [at_ (.vldF32 v a r o) 16 [0, 1, 2, 3, 4, 5, 6, 7] winAny, at_ (.vldbF32 v a r o) 4 [0, 1, 2, 3, 4, 5, 6, 7] winAny,
    at_ (.vldF64 v a r o) 16 [0, 1] winTwo, at_ (.vldbF64 v a r o) 8 [0, 1] winTwo,
    at_ (.vstF32 v a r o) 16 [0, 1, 2, 3, 4, 6, 7] winStore, at_ (.vstF64 v a r o) 16 [0, 1] winTwo] ++
  [here (.aadd d a b r z) m, here (.aand d a b r z) m, here (.aor d a b r z) m, here (.axor d a b r z) m,
    here (.amin d a b r z) m, here (.amax d a b r z) m, here (.aminu d a b r z) m, here (.amaxu d a b r z) m,
    here (.aswap d a b r z) m, here (.acas d a b r z) m] ++
  [here (.redadd a b z) m, here (.redand a b z) m, here (.redor a b z) m, here (.redmin a b z) m, here (.redmax a b z) m,
    here (.xcaddV a b) 64, here (.xcaddG a b) 64, here (.xcread d a) 64, here (.xcclr a) 64]

/-- The first offset past the populated span of a window (R38). -/
def spanEnd (w : Nat) : Nat := if w ≤ 1 then 0x20000 else if w = 2 then 0x40000 else if w = 5 then 0xE0000 else 0x80000

/-- Whether an access of n bytes of S-space, or n / 4 elements of a window, reaches the reserved area at 0x1C000 (R38,
R44). -/
def meetsReserved (ea n : Nat) : Prop :=
  if winOf ea ≤ 1 then 0x1C000 < offOf ea + n
  else if winOf ea = 5 then False
  else 0x1C000 < (offOf ea / 4 + n / 4) * (if winOf ea = 2 then 2 else 1)

/-- The FP32 lane of a stored E4M3 byte, field by field (R68, R73). -/
def e4m3Lane (b : Nat) : Nat :=
  let m := b % 8
  let e := b / 8 % 16
  b / 128 % 2 * 2 ^ 31 + (if b % 128 = 127 then 0x7FC00000 else if e ≠ 0 then (e + 120) * 2 ^ 23 + m * 2 ^ 20
    else if m = 0 then 0 else if m = 1 then 118 * 2 ^ 23 else if m < 4 then 119 * 2 ^ 23 + (m - 2) * 2 ^ 22
    else 120 * 2 ^ 23 + (m - 4) * 2 ^ 21)

/-- The FP32 lane of a stored E5M2 byte, field by field (R68, R73). -/
def e5m2Lane (b : Nat) : Nat :=
  let m := b % 4
  let e := b / 4 % 32
  b / 128 % 2 * 2 ^ 31 + (if e = 31 then (if m = 0 then 0x7F800000 else 0x7FC00000) else if e ≠ 0 then (e + 112) * 2 ^ 23 + m * 2 ^ 21
    else if m = 0 then 0 else if m = 1 then 111 * 2 ^ 23 else 112 * 2 ^ 23 + (m - 2) * 2 ^ 22)

/-- A value in units of 2^q. -/
def FV.units (q : Int) : FV → Int
  | .fin n m e => (if n then -1 else 1) * ((m * 2 ^ (e - q).toNat : Nat) : Int)
  | _ => 0

/-- The element of an OL4 nibble byte in units of 2^(s - 6), s its block's scale (R78). -/
def ol4Num (b : Nat) (odd : Bool) : Int :=
  let code := fun (n : Nat) => 64 * (if 8 ≤ n then (n : Int) - 16 else n)
  let out := fun (hi lo : Nat) => (if 8 ≤ hi then -1 else 1) * ((2 ^ (2 * (hi % 8)) : Nat) : Int) * (if lo = 8 then 1 else 0)
  let lo := b % 16
  let hi := b / 16 % 16
  if lo = 8 then (if odd then 0 else out hi lo) else if hi = 8 then (if odd then out lo hi else 0)
  else code (if odd then hi else lo)

/-- The register images of windows 2 to 7 (R38, R39, R73, R77, R78): two bytes above sixteen zero bits; the exact value of
an E4M3 or E5M2 byte; the exact value of an OL4 element, +0 in a zero block and infinite beyond FP32's range; a byte
sign-extended, and zero-extended. -/
def State.WindowImages (s : State) : Prop := ∀ core ol i : Nat,
  let b := fun k => s.byte (spadKey core k)
  let sc := (b (ol + i / 32)).toInt
  let num := ol4Num (b (i / 2)).toNat (i % 2 == 1)
  let v := s.elemImage core 5 ol i
  s.elemImage core 2 ol i = b (2 * i + 1) ++ b (2 * i) ++ 0#16 ∧
  s.elemImage core 3 ol i = BitVec.ofNat 32 (e4m3Lane (b i).toNat) ∧
  s.elemImage core 4 ol i = BitVec.ofNat 32 (e5m2Lane (b i).toNat) ∧
  (sc = -128 ∨ num = 0 → v = 0) ∧
  (sc ≠ -128 → num ≠ 0 → num.natAbs * 2 ^ (sc - 6).toNat < 2 ^ 128 →
    f32.isFinite v.toNat = true ∧ (f32.value v.toNat).units (-149) = num * 2 ^ (sc + 143).toNat) ∧
  (sc ≠ -128 → 2 ^ 128 ≤ num.natAbs * 2 ^ (sc - 6).toNat → v = if num < 0 then 0xFF800000 else 0x7F800000) ∧
  s.elemImage core 6 ol i = (b i).signExtend 32 ∧
  s.elemImage core 7 ol i = (b i).zeroExtend 32

/-- The bytes and flags of a lane stored through windows 2 to 4, 6 and 7 (R43, R74): a NaN keeps its sign, an infinity
saturates through E4M3 alone, a finite value is rounded once to nearest even (obligation RoundedOnce says what that is), a
value above 448 saturates through E4M3 and an overflow through E5M2 with the saturate bit, and an integer is clamped. -/
def WindowCodes : Prop := ∀ (sat : Bool) (v : W32),
  let neg := v.getLsbD 31
  let sg := if neg then 128 else 0
  let mag := v.toNat % 2 ^ 31
  let nv : Flags := if mag < 0x7FC00000 then 16 else 0
  let byte := fun (n : Nat) => [BitVec.ofNat 8 n]
  let two := fun (n : Nat) => [BitVec.ofNat 8 n, BitVec.ofNat 8 (n / 256)]
  (0x7F800000 < mag → encodeElem 2 sat v = (two (256 * sg + 0x7FC0), nv) ∧ encodeElem 3 sat v = (byte (sg + 0x7F), nv) ∧
    encodeElem 4 sat v = (byte (sg + 0x7E), nv)) ∧
  (mag = 0x7F800000 → encodeElem 2 sat v = (two (256 * sg + 0x7F80), 0) ∧ encodeElem 3 sat v = (byte (sg + 0x7E), 4) ∧
    encodeElem 4 sat v = (byte (sg + 0x7C), 0)) ∧
  (∀ m e, f32.value v.toNat = .fin neg m e →
    let r2 := roundFin ⟨8, 7, 127⟩ .rne neg m e false
    let r3 := roundFin ⟨5, 3, 7⟩ .rne neg m e false
    let r4 := roundFin ⟨5, 2, 15⟩ .rne neg m e false
    let high := 448 * 2 ^ 149 < m * 2 ^ (e + 149).toNat
    encodeElem 2 sat v = (two r2.1, r2.2) ∧
    (high → encodeElem 3 sat v = (byte (sg + 0x7E), 5)) ∧ (¬ high → encodeElem 3 sat v = (byte (sg + r3.1 % 128), r3.2)) ∧
    encodeElem 4 sat v = (if sat = true ∧ r4.2.getLsbD 2 = true then (byte (sg + 0x7B), 5) else (byte r4.1, r4.2))) ∧
  encodeElem 6 sat v = ([BitVec.ofInt 8 (max (-128) (min 127 v.toInt))], if -128 ≤ v.toInt ∧ v.toInt ≤ 127 then 0 else 4) ∧
  encodeElem 7 sat v = ([BitVec.ofInt 8 (max 0 (min 255 v.toInt))], if 0 ≤ v.toInt ∧ v.toInt ≤ 255 then 0 else 4)

/-! ### Accesses in the thread's own super-group -/

/-- A non-relaxed access of n bytes that the thread's own super-group performs at once: it passes the checks at
issue, lies in S-space near a small core whose bank runs, and no relaxed access is in flight (R200, R202, R344). -/
structure State.InBank (s : State) (ea : Word) (n : Nat) (allow : Nat → Bool) : Prop where
  passes : s.accessCause s.me ea n allow = none
  space : ea.toNat < 2 ^ 39
  near : nearBank s.cur.core ea.toNat = true
  runs : s.coreRuns (homeOf ea.toNat) = true
  relaxed : s.me.relaxed = []

/-- No WRITE range and no poisoned word meets n bytes of a core (R63, R203). -/
def State.Readable (s : State) (core off n : Nat) : Prop :=
  blocksLoad (s.spadMeets (spadKey core off) (spadKey core off + n)) = false ∧ s.anyPoison (spadKey core off) n = false

/-- No live descriptor, queued task record or range meets n bytes of a core (R63, R106, R240). -/
def State.Unlocked (s : State) (core off n : Nat) : Prop :=
  s.liveTouch core off n = false ∧ s.queuedTouch core off n = false ∧
  blocksStore (s.spadMeets (spadKey core off) (spadKey core off + n)) = false

/-- Nothing outside the running slot differs but the bytes from key k up, which are now bs, the side tags of the words
they touch, which are now those that tg gives, and the poison marks of the words they fill, which are clear; the
parked APPENDs to a ring whose head word was written are marked for their retry (R40, R203, R232). -/
structure State.Stored (s t : State) (k : Nat) (bs : List Byte) (tg : Nat → Tag) : Prop where
  cur : t.cur = s.cur
  focus : t.focus = s.focus
  agenda : t.agenda = s.agenda
  byte : ∀ a, t.byte a = if k ≤ a ∧ a < k + bs.length then bs.getD (a - k) 0 else s.byte a
  sideTag : ∀ a, t.sideTag a = if k / 4 ≤ a / 4 ∧ a / 4 ≤ (k + bs.length - 1) / 4 then tg (a / 4 - k / 4) else s.sideTag a
  poison : ∀ a, t.poisoned a =
    if a < 2 ^ 60 ∧ k ≤ a / 4 * 4 ∧ a / 4 * 4 + 4 ≤ k + bs.length then false else s.poisoned a
  slot : ∀ w, slotKey w ≠ slotKey s.cur → t.slot w = s.slot w
  core : ∀ c, t.core c = s.core c
  tile : ∀ c, t.tile c = s.tile c
  part : ∀ p, t.part p = s.part p
  net : t.net = (s.noteHeads k bs.length).net
  nodes : t.nodes = s.nodes
  edges : t.edges = s.edges
  posted : t.posted = s.posted
  ranges : t.ranges = s.ranges
  tlb : t.tlb = s.tlb
  launches : t.launches = s.launches
  chunks : t.chunks = s.chunks
  sys : t.sys = s.sys
  ticket : t.ticket = s.ticket
  nextId : t.nextId = s.nextId
  cached : t.cached = s.cached
  free : t.free = s.free

/-- An instruction completes having stored bytes, its slot's registers as a relation says. -/
def State.Stores (s : State) (i : Instr) (k : Nat) (bs : List Byte) (tg : Nat → Tag) (R : Slot → Slot → Prop) : Prop :=
  ∃ t, exec i s = .next t ∧ s.Stored t k bs tg ∧ s.me.Kept t.me ∧ t.me.park = .ready ∧ t.me.turn = none ∧
    t.me.pc = s.me.pc + 4 ∧ R s.me t.me

/-- No register, lane, predicate or CSR differs. -/
def Slot.SameRegs (x y : Slot) : Prop := x.SameG y ∧ x.SameV y ∧ y.pw = x.pw ∧ y.csr = x.csr

/-- Flags accrue in csr.fpctl, and no other register differs (R71). -/
def Slot.OnlyFlags (x y : Slot) (f : Flags) : Prop :=
  x.SameG y ∧ x.SameV y ∧ y.pw = x.pw ∧ y.csr = { x.csr with fpctl := x.csr.fpctl ||| (f.zeroExtend 13 <<< 2) }

/-- The lanes and tags of v[d] are as given, and every other lane, general register, predicate and CSR is as before. -/
def Slot.WroteV (x y : Slot) (d : BitVec 4) (val : Nat → W32) (tag : Nat → Tag) : Prop :=
  (∀ v l, y.lane v l = if v = d then val (l % 4) else x.lane v l) ∧
  (∀ v l, y.tag v l = if v = d then tag (l % 4) else x.tag v l) ∧ x.SameG y ∧ y.pw = x.pw ∧ y.csr = x.csr

/-- The value of n bytes at a key, little-endian, as a word of 64 bits. -/
def State.le (s : State) (k n : Nat) : Word := dbl (s.nat k n)

/-- A fire-and-forget access as its instruction sends it (R213, R217). -/
def State.Sends (s : State) (i : Instr) (op : AccOp) (ea : Word) (n : Nat) : Prop :=
  ∃ t m, exec i s = .next t ∧ t.net = s.net ++ [m] ∧ m.id = s.nextId ∧ m.src = s.cur ∧
    (∃ x, m.body = .access x ∧ x.op = op ∧ x.ea = ea.toNat ∧ x.size = n ∧ x.ff = true ∧ x.relaxed = false ∧
      x.pid = s.me.pid ∧ x.part = s.me.part ∧ x.launch = s.me.launch) ∧
    t.me.unacked = s.me.unacked ++ [{ id := s.nextId, addr := ea.toNat, fault := none, arrive := false }] ∧
    t.me.pc = s.me.pc + 4 ∧ t.me.park = .ready ∧ t.me.relaxed = s.me.relaxed ∧ s.me.SameRegs t.me ∧
    (∀ k, t.byte k = s.byte k) ∧ (∀ k, t.sideTag k = s.sideTag k) ∧ (∀ w, slotKey w ≠ slotKey s.cur → t.slot w = s.slot w) ∧
    (∀ c, t.core c = s.core c) ∧ (∀ c, t.tile c = s.tile c)

/-- An access as its instruction sends it: parked at the instruction until the reply, or, relaxed, completed with the
access in flight (R201, R202). -/
def State.SendsAccess (s : State) (i : Instr) (op : AccOp) (ea : Word) (n : Nat) (dest : Dest) (rlx : Bool) : Prop :=
  ∃ t m x, exec i s = .next t ∧ t.net = s.net ++ [m] ∧ m.id = s.nextId ∧ m.src = s.cur ∧ m.body = .access x ∧
    x.op = op ∧ x.ea = ea.toNat ∧ x.size = n ∧ x.dest = dest ∧ x.relaxed = rlx ∧ x.ff = false ∧
    x.stage = (if 2 ^ 39 ≤ ea.toNat then .walk else if nearBank s.cur.core ea.toNat then .bank else .owner) ∧
    x.pid = s.me.pid ∧ x.part = s.me.part ∧ s.me.SameRegs t.me ∧ t.me.unacked = s.me.unacked ∧
    (∀ k, t.byte k = s.byte k) ∧ (∀ k, t.sideTag k = s.sideTag k) ∧ (∀ w, slotKey w ≠ slotKey s.cur → t.slot w = s.slot w) ∧
    (rlx = false → t.me.park = .reply s.nextId ∧ t.me.pc = s.me.pc ∧ t.me.relaxed = []) ∧
    (rlx = true → t.me.park = .ready ∧ t.me.pc = s.me.pc + 4 ∧
      t.me.relaxed = [{ id := s.nextId, dest := dest, fault := none }])

/-! ### Frames of the steps of other agents -/

/-- Every byte, side tag and poison mark reads as before. -/
def State.SameMemory (s t : State) : Prop :=
  (∀ k, t.byte k = s.byte k) ∧ (∀ k, t.sideTag k = s.sideTag k) ∧ (∀ k, t.poisoned k = s.poisoned k)

/-- The slots other than w read as before. -/
def State.OtherSlots (s t : State) (w : Who) : Prop := ∀ v, slotKey v ≠ slotKey w → t.slot v = s.slot v
/-- Every slot reads as before. -/
def State.SameSlots (s t : State) : Prop := ∀ v, t.slot v = s.slot v
/-- Every core reads as before. -/
def State.SameCores (s t : State) : Prop := ∀ c, t.core c = s.core c
/-- Every core but c reads as before. -/
def State.OtherCores (s t : State) (c : Nat) : Prop := ∀ d, d ≠ c → t.core d = s.core d
/-- Every tile reads as before. -/
def State.SameTiles (s t : State) : Prop := ∀ k, t.tile k = s.tile k
/-- Every tile but k reads as before. -/
def State.OtherTiles (s t : State) (k : Nat) : Prop := ∀ j, j ≠ k → t.tile j = s.tile j
/-- Nothing but messages in flight, and the stations' caches, differs. -/
def State.OnlyNet (s t : State) : Prop :=
  s.SameMemory t ∧ s.SameSlots t ∧ s.SameCores t ∧ s.SameTiles t ∧ t.launches = s.launches ∧ t.sys = s.sys ∧ t.ranges = s.ranges

/-- A slot runs a context (R25, R224): the named registers and g3 as it carries them, every other general register
zero, the vector registers zero and EXACT, the mode USER, and the other user CSRs at reset. -/
structure Slot.HoldsContext (x : Slot) (c : Ctx) : Prop where
  occ : x.occ = true
  pc : x.pc = c.pc
  regs : ∀ r, x.g r = if r = 3 then c.g3 else if r ≠ 0 ∧ c.mask.getLsbD r.toNat then c.regs.get r.toFin else 0
  lanes : ∀ v l, x.lane v l = 0 ∧ x.tag v l = Tag.exact
  pw : x.pw = c.pw ||| 1
  mode : x.mode = .user
  pid : x.pid = c.pid
  part : x.part = c.part
  launch : x.launch = c.launch
  stamp : x.lastStamp = c.stamp
  csr : x.csr = { UserCsrs.reset with fpctl := c.fpctl, winsig := c.winsig, olscale := c.olscale, sigfloor := c.sigfloor }

/-- How many messages a core has sent and received for a launch (R31). -/
def Core.sentFor (c : Core) (launch : Nat) : Nat := mapGet c.sent 0 launch
/-- How many it has received. -/
def Core.receivedFor (c : Core) (launch : Nat) : Nat := mapGet c.received 0 launch

/-- A thread's context leaves as a packet for a core (R25, R225): its slot stays reserved, parked until the reply. -/
def State.Departs (s : State) (i : Instr) (dest : Nat) (mask : BitVec 32) : Prop :=
  ∃ t m c, exec i s = .next t ∧ t.net = (s.departOwner s.cur).net ++ [m] ∧ m.src = s.cur ∧ m.body = .packet c dest 0 0 0 ∧
    c.pc = s.me.pc + 4 ∧ c.pw = s.me.pw ∧ c.g3 = s.me.g 3 ∧ c.mask = mask ∧ c.regs = s.me.regs ∧ c.pid = s.me.pid ∧
    c.launch = s.me.launch ∧ c.fpctl = s.me.csr.fpctl ∧ c.winsig = s.me.csr.winsig ∧ c.olscale = s.me.csr.olscale ∧
    c.sigfloor = s.me.csr.sigfloor ∧ c.stamp = s.me.lastStamp ∧
    t.me.park = .migrating m.id ∧ t.me.occ = s.me.occ ∧ t.me.watch = none ∧
    (t.core s.cur.core).sentFor s.me.launch = (s.core s.cur.core).sentFor s.me.launch + 1 ∧
    s.SameMemory t ∧ s.OtherSlots t s.cur ∧ s.OtherCores t s.cur.core

/-- An instruction completes having changed nothing but its slot, as a relation says, and one core, which is now k. -/
def State.ComputesCore (s : State) (i : Instr) (c : Nat) (k : Core) (R : Slot → Slot → Prop) : Prop :=
  ∃ t, exec i s = .next t ∧ s.me.Kept t.me ∧ t.me.park = .ready ∧ t.me.turn = none ∧ t.me.pc = s.me.pc + 4 ∧ R s.me t.me ∧
    t.core c = k ∧ s.OtherCores t c ∧ s.SameMemory t ∧ s.OtherSlots t s.cur ∧ s.SameTiles t ∧ t.net = s.net ∧
    t.launches = s.launches ∧ t.sys = s.sys

/-- An instruction parks its slot at its own PC, with its registers and all else but the ticket count as they were. -/
def State.ParksOn (s : State) (i : Instr) (c : Cond) : Prop :=
  ∃ t k, exec i s = .next t ∧ t.me.park = .wait c k ∧ t.me.pc = s.me.pc ∧ s.me.Kept t.me ∧ s.me.SameRegs t.me ∧ s.SameMemory t ∧
    s.OtherSlots t s.cur ∧ s.SameCores t ∧ s.SameTiles t ∧ t.net = s.net ∧ t.launches = s.launches ∧ t.sys = s.sys

/-- g[rd] alone is written. -/
def Slot.OnlyG (d : BitVec 5) (v : Word) (x y : Slot) : Prop := x.WroteG y d v ∧ x.SameV y ∧ y.pw = x.pw ∧ y.csr = x.csr

/-- The registers after a message is taken (R229): the payload in g4-g11, zero beyond it, the sender in g12, the
length in g13, and the status, which overwrites them in g[rd]. -/
def Slot.TookMail (x y : Slot) (d : BitVec 5) (m : Mail) : Prop :=
  ∀ r, y.g r = if r = 0 then 0 else if r = d then (if m.gone then 3 else 0)
    else if 4 ≤ r.toNat ∧ r.toNat < 12 then m.payload.getD (r.toNat - 4) 0
    else if r = 12 then m.sender else if r = 13 then dbl (8 * m.payload.length) else x.g r

/-! ### Floating-point results -/

/-- An outcome that leaves a state of which only the running slot differs, complete at the next PC, its slot's
registers as a relation says. -/
def State.Ends (s : State) (o : Host.Outcome State Fault Refusal) (R : Slot → Slot → Prop) : Prop :=
  ∃ t, o = .next t ∧ s.OnlySlot t ∧ s.me.Kept t.me ∧ t.me.park = .ready ∧ t.me.turn = none ∧ t.me.pc = s.me.pc + 4 ∧ R s.me t.me

/-- Lane l of the elements v of a format (R258). -/
def fmtLane (f : BitVec 3) (v : Nat → Nat) (l : Nat) : W32 :=
  BitVec.ofNat 32 (if fmtDouble f then v (l / 2) / 2 ^ (32 * (l % 2)) else v l)

/-- The uncertainty exponent of an element with its tag (R89); none is -∞, that of an EXACT value. -/
def Fmt.unc (f : Fmt) (x : Nat) (t : Tag) : Option Int := if t = 63 then none else some (f.lead x - t.toNat + 1)

/-- The exponent of an unrounded product (R89, R91): for a zero product the exponent of ±0. -/
def Fmt.prodLead (f : Fmt) (x y : Nat) : Int :=
  match leadFV (mulFV (f.value x) (f.value y)) with
  | some e => e
  | none => -(f.bias : Int) - f.mb

/-- The product tag of a fused form by the multiply row of R91: the smaller of two tags, less 1 when they are equal and
not EXACT, within 0 and the full count; none when both are EXACT. -/
def Fmt.prodUnc (f : Fmt) (x y : Nat) (s t : Tag) : Option Int :=
  if s = 63 ∧ t = 63 then none
  else some (f.prodLead x y - max 0 (min ((f.mb : Int) + 1) (min (s.toNat : Int) t.toNat - if s = t then 1 else 0)) + 1)

/-- The tag of a rounded sum, row by row of R91 and R92: with every input EXACT, EXACT for an exact result and else the
available count of a finite one; 0 for an infinity, a NaN or a zero; and otherwise the add row, within 0 and the available
count. -/
def Fmt.sumTag (f : Fmt) (exact : Bool) (r : Nat × Flags) (ua ub : Option Int) : Tag :=
  if exact = true ∧ r.2 &&& 0x15 = 0 then 63
  else if f.isFinite r.1 = false then 0
  else if exact = true then BitVec.ofNat 6 (f.avail r.1)
  else if f.isZero r.1 = true then 0
  else
    let e := f.lead r.1
    let n : Int := match ua, ub with
      | some u, some v => e - max u v - (if u = v then 1 else 0) + 1
      | some u, none => e - u + 1
      | none, some v => e - v + 1
      | none, none => e + 1
    BitVec.ofNat 6 (min (f.avail r.1) (max 0 n).toNat)

/-- The tag of one FP32 sum of two tagged lanes (R87, R91). -/
def stepTag (rm : Rm) (u : Nat) (s : Tag) (v : Nat) (t : Tag) : Tag :=
  f32.sumTag (readTag 24 s == 63 && readTag 24 t == 63) (fpAdd f32 rm u v) (f32.unc u (readTag 24 s)) (f32.unc v (readTag 24 t))

/-- A magnitude m * 2^e, or where more is said a number strictly above it and below the next, with at least two bits more than
a format holds. -/
structure Fmt.Brackets (F : Fmt) (m : Nat) (e : Int) (more : Bool) (below : FV → Prop) (same : FV → Prop) : Prop where
  bits : 2 ^ (F.mb + 2) ≤ m
  exact : more = false → same (.fin false m e)
  above : more = true → below (.fin false m e) ∧ ¬ below (.fin false (m + 1) e) ∧ ¬ same (.fin false (m + 1) e)

/-- The arithmetic of R270 to R273 on finite operands: the exact sum, difference, product, fused result, quotient and root,
rounded once (obligation RoundedOnce says what that is), with the sign of an exact zero sum by R70; VFMIN and VFMAX deliver
the lesser and the greater operand, -0 below +0, with no flag; and the relations of the compares. -/
def Fmt.Arithmetic (F : Fmt) (rm : Rm) (u v w : Nat) : Prop :=
  ∀ (n1 n2 n3 : Bool) (m1 m2 m3 : Nat) (e1 e2 e3 : Int),
  F.value u = .fin n1 m1 e1 → F.value v = .fin n2 m2 e2 → F.value w = .fin n3 m3 e3 →
  let total := fun (p c : FV) (np nc : Bool) (q : Int) =>
    let z := p.units q + c.units q
    if z = 0 then (F.signBit (if np = nc then np else rm == .rdn), (0 : Flags)) else roundFin F rm (decide (z < 0)) z.natAbs q false
  let fused := fun (nP nC : Bool) =>
    total (.fin ((n1 != n2) != nP) (m1 * m2) (e1 + e2)) (.fin (n3 != nC) m3 e3) ((n1 != n2) != nP) (n3 != nC) (min (e1 + e2) e3)
  let le := fun (x y : Nat) => cmpFV (F.value x) (F.value y) ≤ 0
  fpAdd F rm u v = total (.fin n1 m1 e1) (.fin n2 m2 e2) n1 n2 (min e1 e2) ∧
  fpSub F rm u v = total (.fin n1 m1 e1) (.fin (!n2) m2 e2) n1 (!n2) (min e1 e2) ∧
  fpMul F rm u v = roundFin F rm (n1 != n2) (m1 * m2) (e1 + e2) false ∧
  (∀ nP nC, fpFma F rm nP nC u v w = fused nP nC) ∧
  (m2 = 0 → fpDiv F rm u v = if m1 = 0 then (F.nan, 16) else (F.inf (n1 != n2), 8)) ∧
  (m2 ≠ 0 → m1 = 0 → fpDiv F rm u v = (F.signBit (n1 != n2), 0)) ∧
  (m2 ≠ 0 → m1 ≠ 0 → ∃ m e more, fpDiv F rm u v = roundFin F rm (n1 != n2) m e more ∧
    F.Brackets m e more (fun x => cmpFV (mulFV x (.fin false m2 e2)) (.fin false m1 e1) < 0)
      (fun x => cmpFV (mulFV x (.fin false m2 e2)) (.fin false m1 e1) = 0)) ∧
  (m1 = 0 → fpSqrt F rm u = (F.signBit n1, 0)) ∧ (m1 ≠ 0 → n1 = true → fpSqrt F rm u = (F.nan, 16)) ∧
  (m1 ≠ 0 → n1 = false → ∃ m e more, fpSqrt F rm u = roundFin F rm false m e more ∧
    F.Brackets m e more (fun x => cmpFV (mulFV x x) (.fin false m1 e1) < 0) (fun x => cmpFV (mulFV x x) (.fin false m1 e1) = 0)) ∧
  (∀ g, (fpMinMax F g u v).2 = 0 ∧ ((fpMinMax F g u v).1 = u ∨ (fpMinMax F g u v).1 = v)) ∧
  le (fpMinMax F false u v).1 u ∧ le (fpMinMax F false u v).1 v ∧ le u (fpMinMax F true u v).1 ∧ le v (fpMinMax F true u v).1 ∧
  (m1 = 0 → m2 = 0 → F.sign (fpMinMax F false u v).1 = (n1 || n2) ∧ F.sign (fpMinMax F true u v).1 = (n1 && n2)) ∧
  fpCompare F 0 u v = (decide (cmpFV (F.value u) (F.value v) = 0), 0) ∧
  fpCompare F 1 u v = (decide (cmpFV (F.value u) (F.value v) < 0), 0) ∧ fpCompare F 2 u v = (decide (le u v), 0)

/-- The full count of a floating-point conversion code (R88). -/
def codeFull (c : BitVec 4) : Nat := if c = 0 then 24 else if c = 1 then 53 else if c = 2 then 8 else if c = 3 then 4 else 3

/-- The tag of a floating-point conversion result, row by row of R286 and R91: of an EXACT source, EXACT where none of NX, OF
and NV is raised and else the available count of a finite result; and of another, 0 for ±∞, a NaN and ±0, the smaller of the
source's tag and the full count of a narrower target, and else the source's tag. -/
def convTag (t src : BitVec 4) (st : Tag) (r : Nat × Flags) : Tag :=
  if st = 63 then (if r.2 &&& 0x15 = 0 then 63 else if cvtFinite t r.1 then BitVec.ofNat 6 (cvtAvail t r.1) else 0)
  else if cvtFinite t r.1 = false ∨ cvtZero t r.1 = true then 0
  else if codeFull t < codeFull src then BitVec.ofNat 6 (min st.toNat (codeFull t)) else st

/-- A slot whose csr.fpctl has accrued flags (R71). -/
def Slot.flagged (x : Slot) (f : Flags) : Slot := { x with csr := { x.csr with fpctl := x.csr.fpctl ||| (f.zeroExtend 13 <<< 2) } }

/-- The last steps of R259 for n elements with their flags and tags: FPEXC where a raised flag is enabled, with the
flags accrued and nothing else written; SIGFLOOR for the lowest finite element below the floor, whose entry names it in csr.sigtrap; and
otherwise the elements in v[d] with their tags, every other lane kept. -/
def State.Finishes (s : State) (o : Host.Outcome State Fault Refusal) (f : BitVec 3) (d : BitVec 4) (n : Nat)
    (r : Nat → Nat × Flags) (tg : Nat → Tag) : Prop :=
  let x := s.me
  let fl := (List.range n).foldl (fun g k => g ||| (r k).2) (0 : Flags)
  let low := fun k => (fmtOf f).isFinite (r k).1 && belowFloor x.csr.sigfloor (tg k)
  (trapsOn x.csr.fpctl fl = true → o = .next ((s.setMe (x.flagged fl)).trapAt s.cur .fpexc (fl.zeroExtend 64))) ∧
  (trapsOn x.csr.fpctl fl = false → (∀ k, k < n → low k = false) → s.Ends o (fun x y =>
    x.WroteV { y with csr := x.csr } d (fun l => if l / fmtStep f < n then fmtLane f (fun k => (r k).1) l else x.lane d l)
      (fun l => if l / fmtStep f < n then tg (l / fmtStep f) else x.tag d l) ∧ y.csr = (x.flagged fl).csr)) ∧
  (trapsOn x.csr.fpctl fl = false → ∀ k, k < n → low k = true → (∀ j, j < k → low j = false) → ∃ w : BitVec 29,
    o = .next ((s.setMe (x.flagged fl)).trapWith s.cur { cause := .sigfloor, value := 0, sigtrap := some w }) ∧
    w.toNat % 4 = fmtStep f * k ∧ w.toNat / 4 % 8 = f.toNat ∧ w.toNat / 32 % 64 = (tg k).toNat)

/-- A slot at the start of a handler of its own mode level (R170, R349, R350): the saved PC, cause and value written,
the status holding the mode at entry and inh, and the rest as before. -/
def Slot.Enters (x y : Slot) (c : Cause) (v : Word) : Prop :=
  x.SameG y ∧ x.SameV y ∧ y.pw = x.pw ∧ y.occ = x.occ ∧ y.locks = x.locks ∧ y.watch = x.watch ∧ y.pend = none ∧
  if x.userTrap c then
    y.pc = x.csr.utvec ∧ y.mode = .user ∧ y.sup = x.sup ∧ y.mach = x.mach ∧
    y.csr = { x.csr with uepc := x.pc, ucause := BitVec.ofNat 8 c.code, utval := v, uinh := true }
  else if x.toMachine c v then
    y.pc = x.mach.tvec ∧ y.mode = .machine ∧ y.csr = x.csr ∧ y.sup = x.sup ∧
    y.mach = { x.mach with epc := x.pc, cause := dbl c.code, tval := v, status := entryStatus x.mode }
  else
    y.pc = x.sup.tvec ∧ y.mode = .super ∧ y.csr = x.csr ∧ y.mach = x.mach ∧
    y.sup = { x.sup with epc := x.pc, cause := dbl c.code, tval := v, status := entryStatus x.mode }

/-- Whether a handler is free to take a cause (R350). -/
def Slot.canEnter (x : Slot) (c : Cause) (v : Word) : Bool :=
  x.userTrap c || !x.toMachine c v || (!x.mach.status.getLsbD 0 && decide (x.mach.tvec ≠ 0))

/-! ### Exact cells -/

/-- A cell's fields (R84). -/
def cellIs (c umax count : Nat) (v : Int) : Prop := c / 2 ^ 496 % 2 ^ 16 = umax ∧ c / 2 ^ 480 % 2 ^ 16 = count ∧ cellValue c = v

/-- XCADD of an FP32 addend on a cell, row by row (R85, R98): a NaN; a cell that is NaN; an infinity; a cell that is infinite;
a sum outside the value's range; and a finite sum, whose umax takes in the addend's uncertainty unless it is EXACT. -/
def CellAdds : Prop := ∀ (c u n x : Nat) (v : Int) (g : Tag), cellIs c u n v → x < 2 ^ 32 →
  let mag := x % 2 ^ 31
  let neg := 2 ^ 31 ≤ x
  let up := min 65535 (n + 1)
  let s := if neg then 0x7FFD else 0x7FFE
  let w := v + (f32.value x).units (-149)
  let inf := u = 0x7FFD ∨ u = 0x7FFE
  (0x7F800000 < mag → cellIs (cellAdd c x g) 0x7FFF up v) ∧
  (mag ≤ 0x7F800000 → u = 0x7FFF → cellIs (cellAdd c x g) u up v) ∧
  (mag = 0x7F800000 → u ≠ 0x7FFF → ¬ inf ∨ u = s → cellIs (cellAdd c x g) s up v) ∧
  (mag = 0x7F800000 → inf → u ≠ s → cellIs (cellAdd c x g) 0x7FFF n v) ∧
  (mag < 0x7F800000 → inf → cellIs (cellAdd c x g) u up v) ∧
  (mag < 0x7F800000 → u ≠ 0x7FFF → ¬ inf → w < -(2 ^ 479) → cellIs (cellAdd c x g) 0x7FFD up v) ∧
  (mag < 0x7F800000 → u ≠ 0x7FFF → ¬ inf → 2 ^ 479 ≤ w → cellIs (cellAdd c x g) 0x7FFE up v) ∧
  (mag < 0x7F800000 → u ≠ 0x7FFF → ¬ inf → -(2 ^ 479) ≤ w → w < 2 ^ 479 →
    ∃ k, cellIs (cellAdd c x g) k up w ∧ (f32.unc x (readTag 24 g) = none → k = u) ∧
      ∀ y, f32.unc x (readTag 24 g) = some y → asInt 16 k = max (asInt 16 u) y)

/-- What XCREAD makes of a cell (R86, R98): the value rounded once, with its flags, and its tag; a count of 0 beside a finite
umax and an inexact read is left out, since R98 gives it no tag (log entry 29). -/
def CellReads : Prop := ∀ (c u n : Nat) (v : Int) (rm : Rm), cellIs c u n v →
  let e := cellElem rm c
  let r := roundFin f32 rm (decide (v < 0)) v.natAbs (-149) false
  let open_ := u ≠ 0x7FFD ∧ u ≠ 0x7FFE ∧ u ≠ 0x7FFF
  let exact := e.fl.getLsbD 0 = false
  (u = 0x7FFF → e.val = 0x7FC00000 ∧ e.fl = 0 ∧ e.tag = 0) ∧ (u = 0x7FFE → e.val = 0x7F800000 ∧ e.fl = 0 ∧ e.tag = 0) ∧
  (u = 0x7FFD → e.val = 0xFF800000 ∧ e.fl = 0 ∧ e.tag = 0) ∧
  (open_ → v = 0 → e.val = 0 ∧ e.fl = 0) ∧ (open_ → v ≠ 0 → e.val = r.1 ∧ e.fl = r.2) ∧
  (open_ → f32.isFinite e.val = false → e.tag = 0) ∧
  (open_ → f32.isFinite e.val = true →
    (n = 0 ∨ u = 0x8000 → exact → e.tag = 63) ∧ (u = 0x8000 → ¬ exact → e.tag = 24) ∧
    (u ≠ 0x8000 → n ≠ 0 → v = 0 → e.tag = 0) ∧
    (u ≠ 0x8000 → n ≠ 0 → v ≠ 0 → ∀ k : Nat, n ≤ 2 ^ k → (k = 0 ∨ 2 ^ (k - 1) < n) →
      e.tag.toNat = min (f32.avail e.val) (max 0 (f32.lead e.val - asInt 16 u - k)).toNat))

/-! ### Gangs and the array -/

/-- A slot may issue a gang instruction: it is its core's matrix slot, no departure is due, no MTXERR is pending on its
core, and no earlier access of its thread is in flight (R143, R287). -/
structure State.GangReady (s : State) : Prop where
  small : isLarge s.cur.core = false
  leaving : (s.tile (tileOf s.cur.core)).leaving = []
  matrix : (s.tile (tileOf s.cur.core)).mslot (s.cur.core % 16) = s.cur.slot
  noError : (s.tile (tileOf s.cur.core)).pendErr.find? (fun p => p.1 == s.cur.core % 16) = none
  relaxed : s.me.relaxed = []
  unacked : s.me.unacked = []

/-- The member that a gang instruction makes of its slot, with its csr.fpctl.sat at the issue (R153; log entry 33). -/
def State.asMember (s : State) (i : Instr) (fn : GangFn) (ra rb : Word) (imm : Nat) (p : Plan) : Member :=
  { who := s.cur, thread := s.me.thread, fn := fn, word := wordOf i, ra := ra, rb := rb, imm := imm, record := p.record, words := p.words,
    sat := fpSat s.me.csr.fpctl }

/-- The ranges that a member registers: READ ranges of the bytes that its record and the operands of it take, and on core 0 of
the tile the ranges that the members share (R62, R148). -/
def State.memberRanges (s : State) (p : Plan) : List RangeReq :=
  p.own.map (spanReq false) ++ (if s.cur.core % 16 = 0 then p.shared else [])

/-- A gang instruction past its checks: with no range in its way and room in the tables it joins, its ranges registered
and its slot parked; with a range in its way it takes RANGE_LOCKED; and without room it parks with nothing registered
(R144, R148). -/
def State.Joins (s : State) (i : Instr) (fn : GangFn) (ra rb : Word) (imm : Nat) (p : Plan) : Prop :=
  let k := tileOf s.cur.core
  let all := (p.reads ++ p.own).map (spanReq false) ++ p.shared
  let m := s.asMember i fn ra rb imm p
  (s.lockedRange s.me.pid (s.sameJoin k) all = none → s.rangesFit s.me.part s.me.pid (s.memberRanges p) = true →
    ∃ t, exec i s = .next t ∧ t.tile k = { s.tile k with joining := (s.tile k).joining ++ [m] } ∧
      t.me = { s.me with park := .member } ∧ t.ranges = (s.register (.member s.cur) s.me.part s.me.pid (s.memberRanges p)).ranges ∧
      s.SameMemory t ∧ s.OtherSlots t s.cur ∧ s.SameCores t ∧ s.OtherTiles t k ∧ t.net = s.net) ∧
  (∀ v, s.lockedRange s.me.pid (s.sameJoin k) all = some v → exec i s = .next (s.trapAt s.cur .rangeLocked v)) ∧
  (s.lockedRange s.me.pid (s.sameJoin k) all = none → s.rangesFit s.me.part s.me.pid (s.memberRanges p) = false →
    ∃ t n, exec i s = .next t ∧ t.me = { s.me with park := .room (.member m) all (s.memberRanges p) n } ∧ t.tile k = s.tile k ∧
      t.ranges = s.ranges ∧ s.SameMemory t ∧ s.OtherSlots t s.cur)

/-- The operation at the head of a tile's queue runs and its operands read well (R145, R151). -/
structure State.RunsNext (s : State) (k : Nat) (o : GangOp) (rest : List GangOp) : Prop where
  runs : s.tileRuns k = true
  head : (s.tile k).queue = o :: rest
  started : o.started = true
  fresh : o.probed = false
  clean : s.opPoison o = false
  number : ∀ p ∈ rest, p.num ≠ o.num
  members : o.members.map (fun m => m.who.core) = (List.range 16).map (fun c => 16 * k + c)

/-- An operation of the array ends: it leaves the queue, its ranges are removed, and of its tile only what the new tile
state says differs. -/
def State.ArrayStep (s : State) (i : Instr) (k : Nat) (o : GangOp) (T : Tile → Prop) : Prop :=
  ∃ t, exec i s = .next t ∧ T (t.tile k) ∧ t.ranges = s.ranges.filter (fun r => decide (r.owner ≠ .op k o.num)) ∧
    s.SameMemory t ∧ s.SameSlots t ∧ s.SameCores t ∧ s.OtherTiles t k ∧ t.net = s.net

/-- A drain of rows of elements under a drain word (R153, R154): each element, the zero masks where they are asked for,
and the tags of the words, with every other byte and tag as before. -/
def State.DrainedTo (s t : State) (v : Word) (rows : Nat) (out : Nat → Nat → Nat × Tag × Flags) : Prop :=
  let d := rawKey (dwDest v)
  let size := dwSize v
  (∀ j n, j < rows → n < 32 → t.nat (d + (32 * j + n) * size) size = (out j n).1 % 2 ^ (8 * size)) ∧
  (dwMask v = true → ∀ j, j < rows → t.nat (d + 32 * rows * size + 4 * j) 4 =
    ((List.range 32).map (fun n => if (out j n).1 % (if dwFmt v = 4 then 2 ^ 32 else 2 ^ (8 * size - 1)) ≠ 0 then 2 ^ n else 0)).sum) ∧
  (∀ a, a < d ∨ d + dwExtent v rows ≤ a → t.byte a = s.byte a ∧ t.sideTag a = s.sideTag a) ∧
  (∀ i, i < dwExtent v rows → t.sideTag (d + i) = if dwFmt v = 0 ∧ i < 128 * rows then (out (i / 128) (i / 4 % 32)).2.1 else Tag.none)

/-- Where a drain word may write without meeting a live descriptor or a poison mark, within its core's user area. -/
structure State.DrainOpen (s : State) (v : Word) (rows : Nat) : Prop where
  aligned : field v 16 17 % 64 = 0
  area : field v 16 17 + dwExtent v rows ≤ reservedBase
  objects : ∀ p ∈ (s.core (field v 0 16)).objects, p.1 + 64 ≤ field v 16 17 ∨ field v 16 17 + dwExtent v rows ≤ p.1
  poison : s.poison = []

/-! ### Launches -/

/-- A slot as a launch starts it (R17, R340): the registers of R17 with the slot's stack in g2, the record in g3, g4 and
g5 as given and the gang's number in g6, every other register, lane and tag at its start, in USER mode. -/
structure Slot.Begins (x : Slot) (w : Who) (l : Launch) (g4 g5 gang : Word) : Prop where
  occ : x.occ = true
  pc : x.pc = l.entry
  regs : ∀ r, x.g r = if r = 2 then stackTop w.core w.slot else if r = 3 then BitVec.ofNat 64 l.addr else if r = 4 then g4
    else if r = 5 then g5 else if r = 6 then gang else 0
  lanes : ∀ v k, x.lane v k = 0 ∧ x.tag v k = Tag.exact
  preds : x.pw = 1
  mode : x.mode = .user
  csr : x.csr = UserCsrs.reset
  pid : x.pid = l.pid
  part : x.part = l.part
  launch : x.launch = l.id
  park : x.park = .ready

/-- A launch ends where it stands in its queue (R337, R339): its state and status are written and it leaves the queue. -/
def State.EndsLaunch (s : State) (i : Instr) (l : Launch) (status detail : Nat) : Prop :=
  ∃ t k, exec i s = .next t ∧ t.launch? l.id = some k ∧ k.state = .ended ∧ k.status = status ∧ k.detail = detail ∧
    k.held = l.held ∧ mapGet (t.part l.part).queues [] l.eprio = (mapGet (s.part l.part).queues [] l.eprio).filter (fun j => decide (j ≠ l.id)) ∧
    s.SameSlots t ∧ s.SameCores t ∧ s.SameTiles t

/-! ### Firmware and the fleet -/

/-- A record is posted in a partition's ring, or dropped and counted when the ring is full (R354). -/
def Partition.posted (x y : Partition) : Prop :=
  if x.fqtail - x.fqhead < x.fqsize then y = { x with fqtail := x.fqtail + 1 } else y = { x with fqlost := min (2 ^ 64 - 1) (x.fqlost + 1) }

/-- The record that a partition's ring with room takes (R354, R355): its number and instant, and its cause, agent, unit,
slot, address and cursor. -/
def State.Records (s t : State) (p cause agent id slot addr cursor : Nat) : Prop :=
  let q := s.part p
  let k := devKey (q.fqbase.toNat + 64 * (q.fqtail % q.fqsize))
  q.fqtail - q.fqhead < q.fqsize → (t.part p).fqtail = q.fqtail + 1 ∧ t.nat k 8 = q.fqtail % 2 ^ 64 ∧
    t.nat (k + 8) 8 = s.sys.meridian % 2 ^ 64 ∧ t.nat (k + 18) 1 = cause ∧ t.nat (k + 19) 1 = agent ∧ t.nat (k + 20) 2 = id % 2 ^ 16 ∧
    t.nat (k + 22) 1 = slot % 8 ∧ t.nat (k + 24) 8 = addr ∧ t.nat (k + 32) 8 = cursor

/-- An error counter of R393 rises by n, saturating. -/
def Sys.counted (x y : Sys) (off n : Nat) : Prop := mapGet y.counters 0 off = min (2 ^ 64 - 1) (mapGet x.counters 0 off + n)

/-- A SYSCALL parked at a gate returns EAGAIN (R378, R379). -/
def Slot.Again (x y : Slot) : Prop :=
  x.WroteG y 4 (BitVec.ofInt 64 (-4)) ∧ y.pc = x.sup.epc + 4 ∧ y.park = .ready ∧ x.SameV y ∧ y.csr = x.csr

end Sys2Proof.Machine
end

