-- ==== Sys2Proof/Certificates/Slice0/Obligations.lean ====
section
/-! DEFINITION.  The statements about the part, for the provers: what its instructions and steps do, taken from the
numbered rules of the manual. -/

open Sys2Proof Sys2Proof.Machine

/-! ### Registers: majors 0x01-0x16 -/

/-- R189, the two-source forms on 64 bits: each writes g[rd] alone and completes at the next PC (R188).  R190 to R192:
immediates, shifts by an amount, and the two upper immediates. -/
def Obligations.IntegerSources : Prop :=
  (∀ (s : State) (d a b : BitVec 5),
    s.ComputesG (.add d a b) d (s.g a + s.g b) ∧
    s.ComputesG (.sub d a b) d (s.g a - s.g b) ∧
    s.ComputesG (.and d a b) d (s.g a &&& s.g b) ∧
    s.ComputesG (.or d a b) d (s.g a ||| s.g b) ∧
    s.ComputesG (.xor d a b) d (s.g a ^^^ s.g b) ∧
    s.ComputesG (.andn d a b) d (s.g a &&& ~~~(s.g b)) ∧
    s.ComputesG (.sll d a b) d (s.g a <<< ((s.g b).toNat % 64)) ∧
    s.ComputesG (.srl d a b) d (s.g a >>> ((s.g b).toNat % 64)) ∧
    s.ComputesG (.sra d a b) d ((s.g a).sshiftRight ((s.g b).toNat % 64)) ∧
    s.ComputesG (.slt d a b) d (if (s.g a).toInt < (s.g b).toInt then 1 else 0) ∧
    s.ComputesG (.sltu d a b) d (if (s.g a).toNat < (s.g b).toNat then 1 else 0) ∧
    s.ComputesG (.min d a b) d (BitVec.ofInt 64 (min (s.g a).toInt (s.g b).toInt)) ∧
    s.ComputesG (.max d a b) d (BitVec.ofInt 64 (max (s.g a).toInt (s.g b).toInt)) ∧
    s.ComputesG (.minu d a b) d (BitVec.ofNat 64 (min (s.g a).toNat (s.g b).toNat)) ∧
    s.ComputesG (.maxu d a b) d (BitVec.ofNat 64 (max (s.g a).toNat (s.g b).toNat))) ∧
  (∀ (s : State) (d a : BitVec 5) (i : BitVec 16) (k : BitVec 6),
    s.ComputesG (.addi d a i) d (s.g a + i.signExtend 64) ∧
    s.ComputesG (.andi d a i) d (s.g a &&& i.signExtend 64) ∧
    s.ComputesG (.ori d a i) d (s.g a ||| i.zeroExtend 64) ∧
    s.ComputesG (.xori d a i) d (s.g a ^^^ i.zeroExtend 64) ∧
    s.ComputesG (.slti d a i) d (if (s.g a).toInt < (i.signExtend 64).toInt then 1 else 0) ∧
    s.ComputesG (.sltiu d a i) d (if (s.g a).toNat < (i.signExtend 64).toNat then 1 else 0) ∧
    s.ComputesG (.slli d a k) d (s.g a <<< k.toNat) ∧
    s.ComputesG (.srli d a k) d (s.g a >>> k.toNat) ∧
    s.ComputesG (.srai d a k) d ((s.g a).sshiftRight k.toNat) ∧
    s.ComputesG (.lui d i) d ((BitVec.ofNat 32 (i.toNat * 65536)).signExtend 64) ∧
    s.ComputesG (.addpc d i) d (s.me.pc + i.signExtend 64 * 65536))

/-- R189, the word forms: the 32-bit result of the low words, sign-extended.  R189, CLZ, CTZ and POPC: the counts are
given by the bits of the source.  R193 and R67: products and quotients; no divisor traps. -/
def Obligations.IntegerSingleForms : Prop :=
  (∀ (s : State) (d a b : BitVec 5),
    s.ComputesG (.addw d a b) d (((s.g a).setWidth 32 + (s.g b).setWidth 32).signExtend 64) ∧
    s.ComputesG (.subw d a b) d (((s.g a).setWidth 32 - (s.g b).setWidth 32).signExtend 64) ∧
    s.ComputesG (.sllw d a b) d (((s.g a).setWidth 32 <<< ((s.g b).toNat % 32)).signExtend 64) ∧
    s.ComputesG (.srlw d a b) d (((s.g a).setWidth 32 >>> ((s.g b).toNat % 32)).signExtend 64) ∧
    s.ComputesG (.sraw d a b) d ((((s.g a).setWidth 32).sshiftRight ((s.g b).toNat % 32)).signExtend 64) ∧
    s.ComputesG (.sextb d a) d (((s.g a).setWidth 8).signExtend 64) ∧
    s.ComputesG (.sexth d a) d (((s.g a).setWidth 16).signExtend 64) ∧
    s.ComputesG (.sextw d a) d (((s.g a).setWidth 32).signExtend 64) ∧
    s.ComputesG (.zextw d a) d (((s.g a).setWidth 32).zeroExtend 64)) ∧
  (∀ (s : State) (d a : BitVec 5),
    (∃ n, n ≤ 64 ∧ (∀ k, 64 - n ≤ k → (s.g a).getLsbD k = false) ∧ (n < 64 → (s.g a).getLsbD (63 - n) = true) ∧
      s.ComputesG (.clz d a) d (BitVec.ofNat 64 n)) ∧
    (∃ n, n ≤ 64 ∧ (∀ k, k < n → (s.g a).getLsbD k = false) ∧ (n < 64 → (s.g a).getLsbD n = true) ∧
      s.ComputesG (.ctz d a) d (BitVec.ofNat 64 n)) ∧
    s.ComputesG (.popc d a) d (BitVec.ofNat 64 ((List.range 64).filter (fun k => (s.g a).getLsbD k)).length)) ∧
  (∀ (s : State) (d a b : BitVec 5),
    s.ComputesG (.mul d a b) d (s.g a * s.g b) ∧
    s.ComputesG (.mulh d a b) d ((((s.g a).signExtend 128 * (s.g b).signExtend 128) >>> 64).setWidth 64) ∧
    s.ComputesG (.mulhu d a b) d ((((s.g a).zeroExtend 128 * (s.g b).zeroExtend 128) >>> 64).setWidth 64) ∧
    s.ComputesG (.mulw d a b) d (((s.g a).setWidth 32 * (s.g b).setWidth 32).signExtend 64) ∧
    s.ComputesG (.div d a b) d (if s.g b = 0 then BitVec.allOnes 64 else (s.g a).sdiv (s.g b)) ∧
    s.ComputesG (.divu d a b) d (if s.g b = 0 then BitVec.allOnes 64 else (s.g a).udiv (s.g b)) ∧
    s.ComputesG (.rem d a b) d (if s.g b = 0 then s.g a else (s.g a).srem (s.g b)) ∧
    s.ComputesG (.remu d a b) d (if s.g b = 0 then s.g a else (s.g a).umod (s.g b)))

/-- R194, R195 and R198: branches and jumps write nothing but the PC, and JL its link.  R196: JLR to a word-aligned target
jumps and links; another target takes ALIGN, whose value is the target, with the link register unchanged.  R197: CMP
and the predicate operations write p[rd] alone; a write of p0 is discarded (R165). -/
def Obligations.BranchesAndPredicates : Prop :=
  (∀ (s : State) (a b r : BitVec 5) (p : BitVec 4) (d : BitVec 16) (e : BitVec 21),
    let to_ := fun (c : Prop) [Decidable c] => if c then s.me.pc + 4 * d.signExtend 64 else s.me.pc + 4
    s.JumpsTo (.beq a b d) 0 0 (to_ (s.g a = s.g b)) ∧
    s.JumpsTo (.bne a b d) 0 0 (to_ (s.g a ≠ s.g b)) ∧
    s.JumpsTo (.blt a b d) 0 0 (to_ ((s.g a).toInt < (s.g b).toInt)) ∧
    s.JumpsTo (.bge a b d) 0 0 (to_ ((s.g b).toInt ≤ (s.g a).toInt)) ∧
    s.JumpsTo (.bltu a b d) 0 0 (to_ ((s.g a).toNat < (s.g b).toNat)) ∧
    s.JumpsTo (.bgeu a b d) 0 0 (to_ ((s.g b).toNat ≤ (s.g a).toNat)) ∧
    s.JumpsTo (.bp p d) 0 0 (to_ (s.me.p p = true)) ∧
    s.JumpsTo (.bpF p d) 0 0 (to_ (s.me.p p = false)) ∧
    s.JumpsTo (.j e) 0 0 (s.me.pc + 4 * e.signExtend 64) ∧
    s.JumpsTo (.jl r e) r (s.me.pc + 4) (s.me.pc + 4 * e.signExtend 64)) ∧
  (∀ (s : State) (d a : BitVec 5) (i : BitVec 16),
    let t := s.g a + i.signExtend 64
    (t.toNat % 4 = 0 → s.JumpsTo (.jlr d a i) d (s.me.pc + 4) t) ∧
    (t.toNat % 4 ≠ 0 → exec (.jlr d a i) s = .next (s.trapAt s.cur .align t))) ∧
  (∀ (s : State) (p q r : BitVec 4) (a b : BitVec 5),
    let writes := fun (i : Instr) (v : Bool) => s.Computes i (fun x y => x.WroteP y p v ∧ x.SameG y ∧ x.SameV y ∧ y.csr = x.csr)
    writes (.cmp p a b 0) (decide (s.g a = s.g b)) ∧
    writes (.cmp p a b 1) (decide (s.g a ≠ s.g b)) ∧
    writes (.cmp p a b 2) (decide ((s.g a).toInt < (s.g b).toInt)) ∧
    writes (.cmp p a b 3) (decide ((s.g b).toInt ≤ (s.g a).toInt)) ∧
    writes (.cmp p a b 4) (decide ((s.g a).toNat < (s.g b).toNat)) ∧
    writes (.cmp p a b 5) (decide ((s.g b).toNat ≤ (s.g a).toNat)) ∧
    writes (.pand p q r) (s.me.p q && s.me.p r) ∧
    writes (.por p q r) (s.me.p q || s.me.p r) ∧
    writes (.pxor p q r) (s.me.p q != s.me.p r))

/-! ### Memory: majors 0x17-0x1B, 0x23 and 0x24 -/

/-- R199 and R204: a scalar load from a readable place in the thread's own super-group, through RAW or TAGGED, writes the
little-endian bytes at its address, extended, in g[rd] alone; memory is unchanged.  R38 and R205: a word load through
windows 2 to 7 writes one element's image, extended as for RAW, and LD puts element i in the low word and element i +
1 in the high word. R39, R73, R77 and R78: the image of each window, by its stored bytes. -/
def Obligations.Loads : Prop :=
  (∀ (s : State) (d a : BitVec 5) (o : BitVec 12),
    let ea := fun (n : Nat) => s.g a + o.signExtend 64 * BitVec.ofNat 64 n
    let key := fun (n : Nat) => spadKey (homeOf (ea n).toNat) (offOf (ea n).toNat)
    let ok := fun (n : Nat) (allow : Nat → Bool) =>
      s.InBank (ea n) n allow ∧ winOf (ea n).toNat ≤ 1 ∧ s.Readable (homeOf (ea n).toNat) (offOf (ea n).toNat) n
    (ok 1 winRaw → s.ComputesG (.lb d a 0 o) d ((s.byte (key 1)).signExtend 64)) ∧
    (ok 1 winRaw → s.ComputesG (.lbu d a 0 o) d ((s.byte (key 1)).zeroExtend 64)) ∧
    (ok 2 winRaw → s.ComputesG (.lh d a 0 o) d (((s.le (key 2) 2).setWidth 16).signExtend 64)) ∧
    (ok 2 winRaw → s.ComputesG (.lhu d a 0 o) d (s.le (key 2) 2)) ∧
    (ok 4 winAny → s.ComputesG (.lw d a 0 o) d (((s.le (key 4) 4).setWidth 32).signExtend 64)) ∧
    (ok 4 winAny → s.ComputesG (.lwu d a 0 o) d (s.le (key 4) 4)) ∧
    (ok 8 winAny → s.ComputesG (.ld d a 0 o) d (s.le (key 8) 8))) ∧
  (∀ (s : State) (d a : BitVec 5) (o : BitVec 12),
    let ea := fun (n : Nat) => s.g a + o.signExtend 64 * BitVec.ofNat 64 n
    let image := fun (n k : Nat) =>
      s.elemImage (homeOf (ea n).toNat) (winOf (ea n).toNat) s.me.csr.olscale.toNat (offOf (ea n).toNat / 4 + k)
    let ok := fun (n : Nat) => s.InBank (ea n) n winAny ∧ 2 ≤ winOf (ea n).toNat ∧
      ∀ p ∈ s.spans (s.mkAccess (.load true) (ea n) n .none false false .bank), s.Readable (homeOf (ea n).toNat) p.1 p.2
    (ok 4 → s.ComputesG (.lw d a 0 o) d ((image 4 0).signExtend 64)) ∧
    (ok 4 → s.ComputesG (.lwu d a 0 o) d ((image 4 0).zeroExtend 64)) ∧
    (ok 8 → s.ComputesG (.ld d a 0 o) d (image 8 1 ++ image 8 0)) ∧
    s.WindowImages)

/-- R199, R206 and R208: a scalar store through RAW or TAGGED to an unlocked place in the thread's own super-group writes
the low bytes of g[rs], little-endian, and tag 62 to every word it touches; every other byte, and every register, is
as before.  R206 and R207: SW and SD through windows 2 to 4, 6 and 7 encode one and two elements, and their flags
accrue; with an enabled flag they write neither element and take FPEXC. R43 and R74: what each window encodes, with
its flags. -/
def Obligations.Stores : Prop :=
  (∀ (s : State) (v a : BitVec 5) (o : BitVec 12),
    let ea := fun (n : Nat) => s.g a + o.signExtend 64 * BitVec.ofNat 64 n
    let key := fun (n : Nat) => spadKey (homeOf (ea n).toNat) (offOf (ea n).toNat)
    let ok := fun (n : Nat) (allow : Nat → Bool) => s.InBank (ea n) n allow ∧ winOf (ea n).toNat ≤ 1 ∧
      s.Unlocked (homeOf (ea n).toNat) (offOf (ea n).toNat) n ∧ s.partialPoison (key n) n = false
    let bytes := fun (n : Nat) => (List.range n).map (fun j => ((s.g v) >>> (8 * j)).setWidth 8)
    (ok 1 winRaw → s.Stores (.sb v a 0 o) (key 1) (bytes 1) (fun _ => 62) Slot.SameRegs) ∧
    (ok 2 winRaw → s.Stores (.sh v a 0 o) (key 2) (bytes 2) (fun _ => 62) Slot.SameRegs) ∧
    (ok 4 winStore → s.Stores (.sw v a 0 o) (key 4) (bytes 4) (fun _ => 62) Slot.SameRegs) ∧
    (ok 8 winStore → s.Stores (.sd v a 0 o) (key 8) (bytes 8) (fun _ => 62) Slot.SameRegs)) ∧
  (∀ (s : State) (v a : BitVec 5) (o : BitVec 12),
    let ea := fun (n : Nat) => s.g a + o.signExtend 64 * BitVec.ofNat 64 n
    let w := fun (n : Nat) => winOf (ea n).toNat
    let off := fun (n : Nat) => offOf (ea n).toNat / 4 * elemBytes (w n)
    let es := fun (n : Nat) => ((if n = 4 then [lowW (s.g v)] else [lowW (s.g v), highW (s.g v)]).map
      (encodeElem (w n) (s.me.csr.fpctl.getLsbD 12)))
    let fl := fun (n : Nat) => (es n).foldl (fun f e => f ||| e.2) (0 : Flags)
    let ok := fun (n : Nat) => s.InBank (ea n) n winStore ∧ 2 ≤ w n ∧
      s.Unlocked (homeOf (ea n).toNat) (off n) (n / 4 * elemBytes (w n)) ∧
      s.partialPoison (spadKey (homeOf (ea n).toNat) (off n)) (n / 4 * elemBytes (w n)) = false
    let traps := fun (n : Nat) => (fl n &&& ((s.me.csr.fpctl >>> 7).setWidth 5)) ≠ 0
    let stores := fun (i : Instr) (n : Nat) => s.Stores i (spadKey (homeOf (ea n).toNat) (off n)) ((es n).flatMap (fun e => e.1))
      (fun _ => 62) (fun x y => x.OnlyFlags y (fl n))
    let takes := fun (i : Instr) (n : Nat) => exec i s = .next ((s.setMe (s.me.accrue (fl n))).trapAt s.cur .fpexc ((fl n).zeroExtend 64))
    (ok 4 → ¬ traps 4 → stores (.sw v a 0 o) 4) ∧ (ok 8 → ¬ traps 8 → stores (.sd v a 0 o) 8) ∧
    (ok 4 → traps 4 → takes (.sw v a 0 o) 4) ∧ (ok 8 → traps 8 → takes (.sd v a 0 o) 8) ∧
    WindowCodes)

/-- R209: an atomic in the thread's own super-group returns the old value, sign-extended, and stores the new one, with
tag 62; a failed ACAS stores nothing. -/
def Obligations.AtomicsInBank : Prop := ∀ (s : State) (d a b : BitVec 5) (z : BitVec 1),
  let n := if z = 1 then 8 else 4
  let ea := s.g a
  let key := spadKey (homeOf ea.toNat) (offOf ea.toNat)
  let old : BitVec (8 * n) := BitVec.ofNat (8 * n) (s.nat key n)
  let x : BitVec (8 * n) := (s.g b).setWidth (8 * n)
  let bytes := fun (v : BitVec (8 * n)) => (List.range n).map (fun j => (v >>> (8 * j)).setWidth 8)
  let swaps := fun (i : Instr) (new : BitVec (8 * n)) => s.Stores i key (bytes new) (fun _ => 62)
    (fun p q => p.WroteG q d (old.signExtend 64) ∧ p.SameV q ∧ q.pw = p.pw ∧ q.csr = p.csr)
  s.InBank ea n winTwo → s.Unlocked (homeOf ea.toNat) (offOf ea.toNat) n → s.anyPoison key n = false →
  swaps (.aadd d a b 0 z) (old + x) ∧
  swaps (.aand d a b 0 z) (old &&& x) ∧
  swaps (.aor d a b 0 z) (old ||| x) ∧
  swaps (.axor d a b 0 z) (old ^^^ x) ∧
  swaps (.amin d a b 0 z) (if x.toInt < old.toInt then x else old) ∧
  swaps (.amax d a b 0 z) (if old.toInt < x.toInt then x else old) ∧
  swaps (.aminu d a b 0 z) (if x.toNat < old.toNat then x else old) ∧
  swaps (.amaxu d a b 0 z) (if old.toNat < x.toNat then x else old) ∧
  swaps (.aswap d a b 0 z) x ∧
  (old = (s.g d).setWidth (8 * n) → swaps (.acas d a b 0 z) x) ∧
  (old ≠ (s.g d).setWidth (8 * n) → s.ComputesG (.acas d a b 0 z) d (old.signExtend 64))

/-- R212 to R214 and R217: with fewer than 64 unacknowledged operations, a reduction or XCADD that passes its checks sends
its operation, counts it as unacknowledged and completes at issue, with memory and registers as they were.  R128,
R201, R202 and R344: an access of a small core that is relaxed, or that its super-group cannot perform or does not
while the bank's core has stopped, is sent: a non-relaxed one parks its slot at the instruction until the reply, and a
relaxed one completes with its registers as they were and the access in flight. -/
def Obligations.IssuedAccesses : Prop :=
  (∀ (s : State) (a b v : BitVec 5) (z : BitVec 1),
    let n := if z = 1 then 8 else 4
    (s.me.unacked.filter (fun u => u.fault.isNone)).length < 64 →
    (s.accessCause s.me (s.g a) n winTwo = none →
      s.Sends (.redadd a b z) (.reduce 0 (s.g b)) (s.g a) n ∧ s.Sends (.redand a b z) (.reduce 1 (s.g b)) (s.g a) n ∧
      s.Sends (.redor a b z) (.reduce 2 (s.g b)) (s.g a) n ∧ s.Sends (.redmin a b z) (.reduce 3 (s.g b)) (s.g a) n ∧
      s.Sends (.redmax a b z) (.reduce 4 (s.g b)) (s.g a) n) ∧
    (s.accessCause s.me (s.g a) 64 winTwo = none →
      s.Sends (.xcaddV a v) (.xcadd (s.me.lane (v.setWidth 4) 0) (s.me.tag (v.setWidth 4) 0)) (s.g a) 64 ∧
      s.Sends (.xcaddG a b) (.xcadd ((s.g b).setWidth 32) (s.me.csr.winsig.setWidth 6)) (s.g a) 64)) ∧
  (∀ (s : State) (d a b : BitVec 5) (v : BitVec 4) (r z : BitVec 1) (o : BitVec 12),
    let ea := fun (n : Nat) => s.g a + o.signExtend 64 * BitVec.ofNat 64 n
    let m := if z = 1 then 8 else 4
    let sends := fun (i : Instr) (op : AccOp) (p : Word) (n : Nat) (dest : Dest) (allow : Nat → Bool) =>
      s.accessCause s.me p n allow = none → (r = 1 ∨ 2 ^ 39 ≤ p.toNat ∨ nearBank s.cur.core p.toNat = false ∨ s.coreRuns (homeOf p.toNat) = false) →
      s.SendsAccess i op p n dest (r == 1)
    let atom := fun (i : Instr) (op : BitVec 4) => sends i (.atomic op (s.g b) (s.g d)) (s.g a) m (.general d) winTwo
    let store := fun (i : Instr) (n : Nat) (allow : Nat → Bool) =>
      sends i (.store ((s.g d).setWidth 32) ((s.g d >>> 32).setWidth 32)) (ea n) n .none allow
    let lanes := (List.range 4).map (fun l => s.me.lane v l)
    isLarge s.cur.core = false → s.me.relaxed = [] →
    sends (.lb d a r o) (.load true) (ea 1) 1 (.general d) winRaw ∧ sends (.lbu d a r o) (.load false) (ea 1) 1 (.general d) winRaw ∧
    sends (.lh d a r o) (.load true) (ea 2) 2 (.general d) winRaw ∧ sends (.lhu d a r o) (.load false) (ea 2) 2 (.general d) winRaw ∧
    sends (.lw d a r o) (.load true) (ea 4) 4 (.general d) winAny ∧ sends (.lwu d a r o) (.load false) (ea 4) 4 (.general d) winAny ∧
    sends (.ld d a r o) (.load true) (ea 8) 8 (.general d) winAny ∧
    store (.sb d a r o) 1 winRaw ∧ store (.sh d a r o) 2 winRaw ∧ store (.sw d a r o) 4 winStore ∧ store (.sd d a r o) 8 winStore ∧
    atom (.aadd d a b r z) 0 ∧ atom (.aand d a b r z) 1 ∧ atom (.aor d a b r z) 2 ∧ atom (.axor d a b r z) 3 ∧
    atom (.amin d a b r z) 4 ∧ atom (.amax d a b r z) 5 ∧ atom (.aminu d a b r z) 6 ∧ atom (.amaxu d a b r z) 7 ∧
    atom (.aswap d a b r z) 8 ∧ atom (.acas d a b r z) 9 ∧
    sends (.vldF32 v a r o) (.vload false false) (ea 16) 16 (.vector v) winAny ∧
    sends (.vldF64 v a r o) (.vload true false) (ea 16) 16 (.vector v) winTwo ∧
    sends (.vldbF32 v a r o) (.vload false true) (ea 4) 4 (.vector v) winAny ∧
    sends (.vldbF64 v a r o) (.vload true true) (ea 8) 8 (.vector v) winTwo ∧
    sends (.vstF32 v a r o) (.vstore false lanes ((List.range 4).map (fun l => s.me.tag v l))) (ea 16) 16 .none winStore ∧
    sends (.vstF64 v a r o) (.vstore true lanes ((List.range 4).map (fun l => s.me.tag v (l / 2 * 2)))) (ea 16) 16 .none winTwo)

/-- R84, R86 and R219: XCCLR in the thread's own super-group writes the reset image to the whole line: umax 0x8000, count
0 and value 0, tag 62 to its sixteen words.  R218: XCREAD in the thread's own super-group rounds the cell once and
writes lane 0 of v[vd] with its tag, lanes 1 to 3 as they were; with an enabled flag it takes FPEXC, and with a tag
below an enabled floor SIGFLOOR, which names the lane in csr.sigtrap (R102). R86 and R98: the value, flags and tag of
the read, from the cell's umax, count and value.  R51, R85, R98 and R217: XCADD applied at its serving point writes
the cell with the addend taken in, row by row of R85, with tag 62 on its words and every other byte as before: by the
owner core's service slot, or in the thread's own super-group ahead of its acknowledgement. -/
def Obligations.ExactCells : Prop :=
  (∀ (s : State) (a : BitVec 5),
    let ea := s.g a
    let key := spadKey (homeOf ea.toNat) (offOf ea.toNat)
    s.InBank ea 64 winTwo → s.Unlocked (homeOf ea.toNat) (offOf ea.toNat) 64 → s.anyPoison key 64 = false →
    s.Stores (.xcclr a) key (List.replicate 62 0 ++ [0x00, 0x80]) (fun _ => 62) Slot.SameRegs) ∧
  (∀ (s : State) (d a : BitVec 5),
    let ea := s.g a
    let key := spadKey (homeOf ea.toNat) (offOf ea.toNat)
    let e := cellElem s.me.rm (s.nat key 64)
    let traps := (e.fl &&& ((s.me.csr.fpctl >>> 7).setWidth 5)) ≠ 0
    let low := (e.finite && s.me.csr.sigfloor.getLsbD 6 && decide (e.tag.toNat < s.me.csr.sigfloor.toNat % 64)) = true
    s.InBank ea 64 winTwo → s.Readable (homeOf ea.toNat) (offOf ea.toNat) 64 →
    (¬ traps → ¬ low → s.Computes (.xcread d a) (fun x y =>
      (∀ v l, y.lane v l = if v = d.setWidth 4 ∧ l % 4 = 0 then BitVec.ofNat 32 e.val else x.lane v l) ∧
      (∀ v l, y.tag v l = if v = d.setWidth 4 ∧ l % 4 = 0 then e.tag else x.tag v l) ∧ x.SameG y ∧ y.pw = x.pw ∧
      y.csr = { x.csr with fpctl := x.csr.fpctl ||| (e.fl.zeroExtend 13 <<< 2) })) ∧
    (traps → exec (.xcread d a) s = .next ((s.setMe (s.me.accrue e.fl)).trapAt s.cur .fpexc (e.fl.zeroExtend 64))) ∧
    (¬ traps → low → ∃ w : BitVec 29,
      exec (.xcread d a) s = .next ((s.setMe (s.me.accrue e.fl)).trapWith s.cur { cause := .sigfloor, value := 0, sigtrap := some w }) ∧
      w.toNat % 4 = 0 ∧ w.toNat / 4 % 8 = 2 ∧ w.toNat / 32 % 64 = e.tag.toNat) ∧
    CellReads) ∧
  (∀ (s : State) (id : Nat) (m : Msg) (a : Access) (x : W32) (g : Tag),
    s.msg? id = some m → m.body = .access a → a.op = .xcadd x g → a.size = 64 → winOf a.ea ≤ 1 → s.inOrder m = true →
    s.Unlocked (homeOf a.ea) (offOf a.ea) 64 → s.anyPoison (spadKey (homeOf a.ea) (offOf a.ea)) 64 = false →
    let key := spadKey (homeOf a.ea) (offOf a.ea)
    let bs := leBytes 64 (cellAdd (s.nat key 64) x.toNat g)
    let adds := fun (t : State) =>
      (∀ k, t.byte k = if key ≤ k ∧ k < key + 64 then bs.getD (k - key) 0 else s.byte k) ∧
      (∀ k, t.sideTag k = if key / 4 ≤ k / 4 ∧ k / 4 ≤ (key + 63) / 4 then 62 else s.sideTag k) ∧
      (∀ k, t.poisoned k = s.poisoned k) ∧ s.SameCores t ∧ s.SameTiles t
    (a.stage = .owner → s.servesNext (homeOf a.ea) id = true → ∃ t, exec (.activeMessage id) s = .next t ∧ adds t ∧ s.SameSlots t ∧
      t.msg? id = some { m with body := .access { a with stage := .answered (.data [] 0) } }) ∧
    (a.stage = .bank → a.ff = true → s.coreRuns (homeOf a.ea) = true → s.mayAct m.src.core id = true →
      ∃ t, exec (.fireAndForgetAck id) s = .next t ∧ adds t ∧ s.OtherSlots t m.src ∧ (s.slot m.src).SameRegs (t.slot m.src) ∧
        (t.slot m.src).unacked = (s.slot m.src).unacked.filter (fun u => u.id != id)) ∧
    CellAdds)

/-- R263 to R265: vector loads and stores in the thread's own super-group, through RAW and TAGGED: a load fills its lanes
from the words at its address with the tags of R264, and a store writes its lanes, through TAGGED with their tags.
R264 and R265: VLD and VLDB of .f32 through windows 2 to 7 fill their lanes with element images, tagged with the
window's field of csr.winsig or EXACT; VST.F32 encodes its lanes, and with an enabled flag writes none and takes
FPEXC. -/
def Obligations.VectorMemory : Prop :=
  (∀ (s : State) (d : BitVec 4) (a : BitVec 5) (o : BitVec 12),
    let ea := fun (n : Nat) => s.g a + o.signExtend 64 * BitVec.ofNat 64 n
    let key := fun (n : Nat) => spadKey (homeOf (ea n).toNat) (offOf (ea n).toNat)
    let raw := fun (n : Nat) => winOf (ea n).toNat = 0
    let word := fun (n j : Nat) => BitVec.ofNat 32 (s.nat (key n + 4 * j) 4)
    let w0 : Tag := s.me.csr.winsig.setWidth 6
    let w1 : Tag := (s.me.csr.winsig >>> 6).setWidth 6
    let tag := fun (n : Nat) (double : Bool) (j : Nat) =>
      let plain := fun (t : Tag) => if double ∧ t = 24 then (53 : Tag) else t
      if raw n then plain w0 else
        let st := s.sideTag (key n + 4 * (if double then j / 2 * 2 else j))
        if st = 62 then plain w1 else st
    let loads := fun (n : Nat) => s.InBank (ea n) n winTwo ∧ s.Readable (homeOf (ea n).toNat) (offOf (ea n).toNat) n
    let stores := s.InBank (ea 16) 16 winTwo ∧ s.Unlocked (homeOf (ea 16).toNat) (offOf (ea 16).toNat) 16 ∧
      s.partialPoison (key 16) 16 = false
    let fills := fun (i : Instr) (v : Nat → W32) (t : Nat → Tag) => s.Computes i (fun x y => x.WroteV y d v t)
    let lanes := (List.range 4).flatMap (fun l => (List.range 4).map (fun j => ((s.me.lane d l) >>> (8 * j)).setWidth 8))
    (loads 16 → fills (.vldF32 d a 0 o) (word 16) (tag 16 false)) ∧
    (loads 16 → fills (.vldF64 d a 0 o) (word 16) (tag 16 true)) ∧
    (loads 4 → fills (.vldbF32 d a 0 o) (fun _ => word 4 0) (fun _ => tag 4 false 0)) ∧
    (loads 8 → fills (.vldbF64 d a 0 o) (fun l => word 8 (l % 2)) (fun _ => tag 8 true 0)) ∧
    (stores → s.Stores (.vstF32 d a 0 o) (key 16) lanes (fun l => if raw 16 then 62 else s.me.tag d l) Slot.SameRegs) ∧
    (stores → s.Stores (.vstF64 d a 0 o) (key 16) lanes (fun l => if raw 16 then 62 else s.me.tag d (l / 2 * 2)) Slot.SameRegs)) ∧
  (∀ (s : State) (d : BitVec 4) (a : BitVec 5) (o : BitVec 12),
    let ea := fun (n : Nat) => s.g a + o.signExtend 64 * BitVec.ofNat 64 n
    let w := fun (n : Nat) => winOf (ea n).toNat
    let i := fun (n : Nat) => offOf (ea n).toNat / 4
    let image := fun (n k : Nat) => s.elemImage (homeOf (ea n).toNat) (w n) s.me.csr.olscale.toNat (i n + k)
    let tag := fun (n : Nat) => if 6 ≤ w n then (63 : Tag) else (s.me.csr.winsig >>> (6 * w n)).setWidth 6
    let loads := fun (n : Nat) => s.InBank (ea n) n winAny ∧ 2 ≤ w n ∧
      ∀ p ∈ s.spans (s.mkAccess (.vload false false) (ea n) n .none false false .bank), s.Readable (homeOf (ea n).toNat) p.1 p.2
    let es := (List.range 4).map (fun l => encodeElem (w 16) (s.me.csr.fpctl.getLsbD 12) (s.me.lane d l))
    let fl := es.foldl (fun f e => f ||| e.2) (0 : Flags)
    let key := spadKey (homeOf (ea 16).toNat) (i 16 * elemBytes (w 16))
    let traps := (fl &&& ((s.me.csr.fpctl >>> 7).setWidth 5)) ≠ 0
    let stores := s.InBank (ea 16) 16 winStore ∧ 2 ≤ w 16 ∧
      s.Unlocked (homeOf (ea 16).toNat) (i 16 * elemBytes (w 16)) (4 * elemBytes (w 16)) ∧
      s.partialPoison key (4 * elemBytes (w 16)) = false
    (loads 16 → s.Computes (.vldF32 d a 0 o) (fun x y => x.WroteV y d (image 16) (fun _ => tag 16))) ∧
    (loads 4 → s.Computes (.vldbF32 d a 0 o) (fun x y => x.WroteV y d (fun _ => image 4 0) (fun _ => tag 4))) ∧
    (stores → ¬ traps → s.Stores (.vstF32 d a 0 o) key (es.flatMap (fun e => e.1)) (fun _ => 62) (fun x y => x.OnlyFlags y fl)) ∧
    (stores → traps → exec (.vstF32 d a 0 o) s = .next ((s.setMe (s.me.accrue fl)).trapAt s.cur .fpexc (fl.zeroExtend 64))))

/-- R37 to R39, R44 and R200: the causes that every load, store, atomic, reduction, exact-cell and vector memory form
finds at issue, in their order: ALIGN for an address that is no multiple of its size; ACCESS at 2^56 and above, through a
window that the form is not allowed, past the window's populated span, outside the thread's partition, in the reserved
area in USER mode, and for an OL4X element whose scale byte lies at or above 0x1C000; it takes the first precisely, with
its address as the value, and with none of them it finds no cause at issue. -/
def Obligations.AccessChecks : Prop := ∀ (s : State) (d a b : BitVec 5) (v : BitVec 4) (r z : BitVec 1) (o : BitVec 12),
  ∀ p ∈ s.memoryForms d a b v r z o,
  let ea := p.ea.toNat
  let takes := fun (c : Cause) => exec p.instr s = .next (s.trapAt s.cur c p.ea)
  let stops := p.windows.contains (winOf ea) = false ∨ spanEnd (winOf ea) ≤ offOf ea ∨
    s.inPart s.me.part (homeOf ea) = false ∨ (s.me.mode = .user ∧ meetsReserved ea p.size) ∨
    (winOf ea = 5 ∧ 0x1C000 ≤ s.me.csr.olscale.toNat + offOf ea / 4 / 32)
  (ea % p.size ≠ 0 → takes .align) ∧
  (ea % p.size = 0 → 2 ^ 56 ≤ ea → takes .access) ∧
  (ea % p.size = 0 → ea < 2 ^ 39 → stops → takes .access) ∧
  (ea % p.size = 0 → ea < 2 ^ 56 → (ea < 2 ^ 39 → ¬ stops) → s.accessCause s.me p.ea p.size p.allow = none)

/-! ### The steps that carry an access on -/

/-- R45, R50, R54, R127, R200 and R362: a waiting access is translated at its station, a held one is walked again in
arrival order and after 10 ms times out, and the edge core, from its window, or the owner's service slot, from the
head of its queue, performs it, its answer on the way back; a large core's cache may take the line with the key of the
shadow byte (R134). R374: at the host while it is fenced the access takes FENCED.  R85, R95, R127, R135, R209, R212
and R217: a store, atomic, reduction or XCADD performed at the edge core, or at the host, writes its bytes and no
other, an ACAS that fails writes none, and on a TAGS page the shadow bytes follow as a second write; a store to host
memory is not yet in the bytes that the host reads, since it has not passed the ordering point. -/
def Obligations.AccessesAtMemory : Prop :=
  (∀ (s : State) (id : Nat) (m : Msg) (a : Access) (cached : Bool),
    s.msg? id = some m → m.body = .access a →
    let becomes := fun (i : Instr) (st : Stage) => ∃ t, exec i s = .next t ∧ s.OnlyNet t ∧
      t.msg? id = some { m with body := .access { a with stage := st } }
    let goes := fun (i : Instr) (k : Nat) (sh : Option Nat) => ∃ t j b, exec i s = .next t ∧ s.OnlyNet t ∧
      t.msg? id = some { m with body := .access { a with fill := b, stage := .edge k j } } ∧
      (isLarge m.src.core = false ∨ a.op.shadows = true → j = sh ∧ b = true)
    let u := { s with cached := false }
    (a.stage = .walk → ∀ k sh, ({ s with cached := cached } : State).translate a.part a.pid (a.op.need false) a.ea = .ok k sh →
      goes (.translationWalk id cached) k sh) ∧
    (a.stage = .walk → ∀ c, ({ s with cached := cached } : State).translate a.part a.pid (a.op.need false) a.ea = .fault c →
      becomes (.translationWalk id cached) (.answered (.fault c (dbl a.ea)))) ∧
    (∀ since asked, a.stage = .held since asked → s.heldBefore m since a.pid a.ea = false →
      ∀ k sh, u.translate a.part a.pid (a.op.need false) a.ea = .ok k sh → goes (.heldRewalk id) k sh) ∧
    (∀ since asked, a.stage = .held since asked → s.sys.meridian ≥ since + 10000000 →
      u.leafOf a.part a.pid a.ea = .moving →
      becomes (.holdTimeout id) (.answered (.fault .page (dbl a.ea)))) ∧
    (∀ k, a.stage = .edge k none → s.keyExists k = true → s.inOrder m = true → s.edgeServes m k = true → ∀ sg, a.op = .load sg → isLarge m.src.core = false →
      (s.sys.fenced = true → k < 2 ^ 61) → blocksLoad (s.vMeets a.pid a.ea (a.ea + a.size)) = false → s.anyPoison k a.size = false →
      becomes (.edgeCoreServe id) (.answered (.data ((s.words k a.size).map (fun v => (v, 0))) 0))) ∧
    (∀ k sh, a.stage = .edge k sh → 2 ^ 61 ≤ k → s.sys.fenced = true → s.inOrder m = true → s.edgeServes m k = true →
      (a.op.atHost = true → s.postedMeets k a.size = false) → becomes (.edgeCoreServe id) (.answered (.fault .fenced (dbl a.ea)))) ∧
    (a.stage = .owner → s.servesNext (homeOf a.ea) id = true → s.inOrder m = true → ∀ sg, a.op = .load sg → winOf a.ea = 0 →
      s.Readable (homeOf a.ea) (offOf a.ea) a.size →
      becomes (.activeMessage id) (.answered (.data ((s.words (rawKey a.ea) a.size).map (fun v => (v, 0))) 0)))) ∧
  (∀ (s : State) (id : Nat) (m : Msg) (a : Access) (k : Nat) (shadow : Option Nat),
    s.msg? id = some m → m.body = .access a → a.stage = .edge k shadow → s.keyExists k = true → s.inOrder m = true →
    s.edgeServes m k = true → isLarge m.src.core = false → 2 ^ 60 ≤ k → blocksStore (s.vMeets a.pid a.ea (a.ea + a.size)) = false →
    s.anyPoison k a.size = false → (∀ j, shadow = some j → s.anyPoison j ((a.size + 3) / 4) = false) →
    (s.sys.fenced = true → k < 2 ^ 61 ∧ ∀ j, shadow = some j → j < 2 ^ 61) →
    let next := fun (r : Reply) => match shadow with | some j => Stage.shadow j r | none => .answered r
    let writes := fun (bs : List Byte) (r : Reply) (P : State → Prop) => ∃ t, exec (.edgeCoreServe id) s = .next t ∧
      (∀ j, t.byte j = if k ≤ j ∧ j < k + bs.length then bs.getD (j - k) 0 else s.byte j) ∧ s.SameSlots t ∧ s.SameTiles t ∧
      t.msg? id = some { m with body := .access { a with stage := next r } } ∧ P t
    let free := k < 2 ^ 61 ∨ s.postedMeets k a.size = false
    let old := Reply.data ((s.words k a.size).map (fun w => (w, 0))) 0
    let v : BitVec (8 * a.size) := BitVec.ofNat (8 * a.size) (s.nat k a.size)
    let changes := fun (y : BitVec (8 * a.size)) => ([(0, v + y), (1, v &&& y), (2, v ||| y), (3, v ^^^ y),
      (4, if y.toInt < v.toInt then y else v), (5, if v.toInt < y.toInt then y else v), (6, if y.toNat < v.toNat then y else v),
      (7, if v.toNat < y.toNat then y else v), (8, y)] : List (BitVec 4 × BitVec (8 * a.size)))
    let reduces := fun (y : BitVec (8 * a.size)) => ([(0, v + y), (1, v &&& y), (2, v ||| y),
      (3, if y.toInt < v.toInt then y else v), (4, if v.toInt < y.toInt then y else v)] : List (BitVec 3 × BitVec (8 * a.size)))
    (∀ lo hi, a.op = .store lo hi → writes (leBytes a.size (lo.toNat + hi.toNat * 2 ^ 32)) (.data [] 0)
      (fun t => 2 ^ 61 ≤ k → ∀ j, t.hostByte j = s.hostByte j)) ∧
    (∀ b x (p : BitVec 4 × BitVec (8 * a.size)), a.op = .atomic p.1 b x → free → a.size = 4 ∨ a.size = 8 →
      p ∈ changes (b.setWidth (8 * a.size)) → writes (leBytes a.size p.2.toNat) old (fun t => t.posted = s.posted)) ∧
    (∀ b x, a.op = .atomic 9 b x → free → a.size = 4 ∨ a.size = 8 →
      (v = x.setWidth (8 * a.size) → writes (leBytes a.size (b.toNat % 2 ^ (8 * a.size))) old (fun t => t.posted = s.posted)) ∧
      (v ≠ x.setWidth (8 * a.size) → writes [] old (fun t => t.posted = s.posted))) ∧
    (∀ b (p : BitVec 3 × BitVec (8 * a.size)), a.op = .reduce p.1 b → free → a.size = 4 ∨ a.size = 8 →
      p ∈ reduces (b.setWidth (8 * a.size)) → writes (leBytes a.size p.2.toNat) (.data [] 0) (fun t => t.posted = s.posted)) ∧
    (∀ x g, a.op = .xcadd x g → free → a.size = 64 → writes (leBytes 64 (cellAdd (s.nat k 64) x.toNat g)) (.data [] 0)
      (fun t => t.posted = s.posted)))

/-- R128, R132, R134, R201, R215 and R264: a reply writes its destination, of a vector load its lanes with their tags, and
lets its slot go on, at the next PC, and a load of a ring's tail, scalar or vector, empties a large core's cache; a relaxed reply writes its destination while the slot runs, and a cause is kept
for the first reader; an acknowledgement is taken off the slot's count, or keeps its cause for the first instruction that
waits for it.  Where a stop has filled the core's holding buffer, the reply acts in its turn (R344-R346, R385). -/
def Obligations.RepliesArrive : Prop := ∀ (s : State) (id : Nat) (m : Msg) (a : Access) (ws : List (W32 × Tag)) (c : Cause) (v : Word),
  s.msg? id = some m → m.body = .access a → s.mayAct m.src.core id = true →
  let x := s.slot m.src
  let frame := fun (t : State) => s.SameMemory t ∧ s.OtherSlots t m.src ∧ s.SameTiles t ∧ t.net = s.net.filter (fun q => q.id != id)
  let gives := fun (i : Instr) (P : Slot → Prop) => ∃ t, exec i s = .next t ∧ P (t.slot m.src) ∧ frame t ∧ s.SameCores t
  let loaded := fun (d : BitVec 5) (sg : Bool) (y : Slot) => x.WroteG y d (loadValue a.size sg ws) ∧ x.SameV y ∧ y.pw = x.pw ∧
    y.csr = x.csr ∧ y.pc = x.pc + 4 ∧ y.park = .ready
  let filled := fun (d : BitVec 4) (db br : Bool) (y : Slot) =>
    let j := fun (l : Nat) => if br then (if db then l % 2 else 0) else l
    x.WroteV y d (fun l => (ws.getD (j l) (0, 0)).1) (fun l => (ws.getD (j l) (0, 0)).2)
  let flag := isLarge m.src.core && s.readsTail a
  (∀ d sg, a.op = .load sg → a.dest = .general d → a.ff = false → a.relaxed = false → x.park = .reply id →
    a.stage = .answered (.data ws 0) →
    (flag = false → gives (.accessReply id) (loaded d sg)) ∧
    (flag = true → ∃ t, exec (.accessReply id) s = .next t ∧ loaded d sg (t.slot m.src) ∧ frame t ∧
      t.core m.src.core = { s.core m.src.core with cache := [] } ∧ s.OtherCores t m.src.core)) ∧
  (∀ d db br, a.op = .vload db br → a.dest = .vector d → a.ff = false → a.relaxed = false → x.park = .reply id →
    a.stage = .answered (.data ws 0) →
    (flag = false → gives (.accessReply id) (fun y => filled d db br y ∧ y.pc = x.pc + 4 ∧ y.park = .ready)) ∧
    (flag = true → ∃ t, exec (.accessReply id) s = .next t ∧ filled d db br (t.slot m.src) ∧ (t.slot m.src).pc = x.pc + 4 ∧
      (t.slot m.src).park = .ready ∧ frame t ∧ t.core m.src.core = { s.core m.src.core with cache := [] } ∧
      s.OtherCores t m.src.core)) ∧
  (∀ d db br, a.op = .vload db br → a.dest = .vector d → a.ff = false → a.relaxed = true →
    x.relaxed.any (fun q => q.id == id) = true → a.stage = .answered (.data ws 0) →
    gives (.accessReply id) (fun y => filled d db br y ∧ y.pc = x.pc ∧ y.park = x.park ∧
      y.relaxed = x.relaxed.filter (fun q => q.id != id))) ∧
  (∀ d sg, a.op = .load sg → a.dest = .general d → a.ff = false → a.relaxed = true → x.relaxed.any (fun q => q.id == id) = true →
    a.stage = .answered (.data ws 0) →
    gives (.accessReply id) (fun y => x.WroteG y d (loadValue a.size sg ws) ∧ y.pc = x.pc ∧ y.park = x.park ∧
      y.relaxed = x.relaxed.filter (fun q => q.id != id))) ∧
  (a.ff = false → a.relaxed = true → x.relaxed.any (fun q => q.id == id) = true → c ≠ .fpexc → a.stage = .answered (.fault c v) →
    gives (.accessReply id) (fun y => x.SameRegs y ∧ y.pc = x.pc ∧ y.park = x.park ∧
      y.relaxed = x.relaxed.map (fun q => if q.id == id then { q with fault := some (c, v) } else q))) ∧
  (a.ff = true → a.stage = .answered (.data ws 0) →
    gives (.fireAndForgetAck id) (fun y => x.SameRegs y ∧ y.pc = x.pc ∧ y.park = x.park ∧
      y.unacked = x.unacked.filter (fun u => u.id != id))) ∧
  (a.ff = true → a.stage = .answered (.fault c v) →
    gives (.fireAndForgetAck id) (fun y => x.SameRegs y ∧ y.pc = x.pc ∧ y.park = x.park ∧
      y.unacked = x.unacked.map (fun u => if u.id == id then { u with fault := some (c, v) } else u)))

/-! ### Fences, migration and spawning -/

/-- R129, R131 and R223: with nothing in flight a fence completes, and on a large core FENCE.acq and FENCE.sys empty its
V-space cache; a relaxed access in flight parks it at its own PC, and an unacknowledged operation parks the last three
forms.  R135: FENCE.sys also waits for the thread's writes to host memory that have not passed the ordering point, and
takes FENCED while the host is fenced. -/
def Obligations.Fences : Prop := ∀ (s : State),
  let parks := fun (i : Instr) (c : Cond) => ∃ t k, exec i s = .next t ∧ t.me.park = .wait c k ∧ t.me.pc = s.me.pc ∧
    s.me.SameRegs t.me ∧ s.SameMemory t ∧ s.OtherSlots t s.cur ∧ s.SameCores t
  let empties := fun (i : Instr) => ∃ t, exec i s = .next t ∧ t.me.pc = s.me.pc + 4 ∧ t.me.park = .ready ∧ s.me.SameRegs t.me ∧
    (t.core s.cur.core).cache = [] ∧ s.OtherCores t s.cur.core ∧ s.SameMemory t ∧ s.OtherSlots t s.cur
  let drained := ∀ p ∈ s.posted, p.thread ≠ s.me.thread
  (s.me.relaxed = [] → s.Computes .fence Slot.SameRegs) ∧
  (s.me.relaxed = [] → s.me.unacked = [] → s.Computes .fenceRed Slot.SameRegs ∧
    (isLarge s.cur.core = false → s.Computes .fenceAcq Slot.SameRegs) ∧ (isLarge s.cur.core = true → empties .fenceAcq) ∧
    (s.sys.fenced = false → drained → isLarge s.cur.core = false → s.Computes .fenceSys Slot.SameRegs) ∧
    (s.sys.fenced = false → drained → isLarge s.cur.core = true → empties .fenceSys) ∧
    (s.sys.fenced = false → ¬ drained → parks .fenceSys .hostDrain) ∧
    (s.sys.fenced = true → ∃ v, exec .fenceSys s = .next (({ s with free := s.free + 1 } : State).trapAt s.cur .fenced v))) ∧
  (s.me.outstanding ≠ [] → ∀ i ∈ [Instr.fence, .fenceRed, .fenceAcq, .fenceSys], parks i .relaxed) ∧
  (s.me.relaxed = [] → s.me.unackedNow ≠ [] → ∀ i ∈ [Instr.fenceRed, .fenceAcq, .fenceSys], parks i .acks)

/-- R26, R123, R224, R225 and R289: a migration whose checks pass, with no lock held and nothing in flight, completes in
place on its own core, and otherwise leaves as a packet for the core that its operand names; either way a serving
owner departs, and a matrix slot leaves its gang.  R222, R224 and R225: the causes of a migration, before any packet
leaves: more than ten carried registers take MIGRATE, an address of V-space or outside the partition ACCESS, and a
destination word with a bit that must be zero BOUNDS. -/
def Obligations.Migration : Prop :=
  (∀ (s : State) (a b : BitVec 5),
    let mask := (if b = 0 then (0x3FF0 : BitVec 32) else (s.g b).setWidth 32) &&& 0xFFFFFFF6
    let v := s.g a
    let owner := v.toNat / 2 ^ 20 % 2 ^ 16
    let tile := tileOf s.cur.core
    let member := isLarge s.cur.core = false ∧ (s.tile tile).mslot (s.cur.core % 16) = s.cur.slot
    let stays := fun (i : Instr) => (s.me.serving = none → ¬ member → s.Computes i Slot.SameRegs) ∧
      ∃ t, exec i s = .next t ∧ t.me.pc = s.me.pc + 4 ∧ t.me.park = .ready ∧ s.me.SameRegs t.me ∧ t.me.serving = none ∧
        t.net = (s.departOwner s.cur).net ∧ s.SameMemory t ∧ s.OtherSlots t s.cur ∧ s.SameCores t ∧ s.OtherTiles t tile ∧
        (isLarge s.cur.core = false → s.cur.slot < 8 → (t.tile tile).mslot (s.cur.core % 16) ≠ s.cur.slot) ∧
        (member → (t.tile tile).leaving = (s.tile tile).leaving ++ [s.cur.core % 16])
    ((List.range 32).filter (fun k => mask.getLsbD k)).length ≤ 10 → s.me.locks = [] → s.me.relaxed = [] → s.me.unacked = [] →
    (v.toNat < 2 ^ 39 → s.inPart s.me.part owner = true → owner = s.cur.core → stays (.migrate a b)) ∧
    (v.toNat < 2 ^ 39 → s.inPart s.me.part owner = true → owner ≠ s.cur.core → s.Departs (.migrate a b) owner mask) ∧
    (migtoOk v = true → destPeer v = 0 → s.inPart s.me.part (destCore v) = true → destCore v = s.cur.core →
      stays (.migto a b)) ∧
    (migtoOk v = true → destPeer v = 0 → s.inPart s.me.part (destCore v) = true → destCore v ≠ s.cur.core →
      s.Departs (.migto a b) (destCore v) mask)) ∧
  (∀ (s : State) (a b : BitVec 5),
    let mask := (if b = 0 then (0x3FF0 : BitVec 32) else (s.g b).setWidth 32) &&& 0xFFFFFFF6
    let v := s.g a
    let many := 10 < ((List.range 32).filter (fun k => mask.getLsbD k)).length
    (many → ∀ i ∈ [Instr.migrate a b, .migto a b], exec i s = .next (s.trapAt s.cur .migrate (mask.zeroExtend 64))) ∧
    (¬ many → 2 ^ 39 ≤ v.toNat ∨ s.inPart s.me.part (v.toNat / 2 ^ 20 % 2 ^ 16) = false →
      exec (.migrate a b) s = .next (s.trapAt s.cur .access v)) ∧
    (¬ many → (v >>> 48 ≠ 0 ∨ (v >>> 17).setWidth 11 ≠ 0#11 ∨ (v >>> 28).setWidth 4 ≠ 0#4) →
      exec (.migto a b) s = .next (s.trapAt s.cur .bounds 0)))

/-- R226: a SPAWN whose checks pass, with room on its core, reserves a spill entry and sends a packet for the owner of its
address that starts at g[rd]; the spawner goes on at the next PC.  R27, R321 and R398: a packet that no waiting work
goes before, and that stands first among those that reached the core, is admitted by the table of R27: to the lowest
free user slot, to the arrival queue, behind a full queue or a spilled context to the spill area, or refused, as a
large core that does not serve its partition does; it is counted as received in each case (R31). The image of a
spilled context lies somewhere in the reserved area (log entry 37). -/
def Obligations.Spawning : Prop :=
  (∀ (s : State) (d a b : BitVec 5),
    let mask := (if b = 0 then (0x3FF0 : BitVec 32) else (s.g b).setWidth 32) &&& 0xFFFFFFF6
    let owner := (s.g a).toNat / 2 ^ 20 % 2 ^ 16
    let k := s.core s.cur.core
    ((List.range 32).filter (fun k => mask.getLsbD k)).length ≤ 10 →
    ((s.g d).toNat % 4 ≠ 0 → exec (.spawn d a b) s = .next (s.trapAt s.cur .align (s.g d))) ∧
    ((s.g d).toNat % 4 = 0 → (s.g a).toNat < 2 ^ 39 → s.inPart s.me.part owner = true → s.me.relaxed = [] →
      k.spawned < 64 → k.spill.length + k.reserved.length < 64 →
      ∃ t m c, exec (.spawn d a b) s = .next t ∧ t.net = s.net ++ [m] ∧ m.src = s.cur ∧ m.body = .packet c owner 0 0 0 ∧
        c.pc = s.g d ∧ c.pw = s.me.pw ∧ c.g3 = s.me.g 3 ∧ c.mask = mask ∧ c.regs = s.me.regs ∧ c.pid = s.me.pid ∧
        (t.core s.cur.core).spawned = k.spawned + 1 ∧ (t.core s.cur.core).reserved = k.reserved ++ [m.id] ∧
        (t.core s.cur.core).sentFor s.me.launch = k.sentFor s.me.launch + 1 ∧
        s.me.SameRegs t.me ∧ t.me.pc = s.me.pc + 4 ∧ t.me.park = .ready ∧ s.SameMemory t ∧ s.OtherSlots t s.cur ∧ s.OtherCores t s.cur.core)) ∧
  (∀ (s : State) (id dest n : Nat) (m : Msg) (c : Ctx) (due : Nat),
    s.msg? id = some m → m.body = .packet c dest n 0 due → s.admitsNext dest id = true → s.workWaits dest = false →
    (s.core m.src.core).reserved.contains id = false →
    let k := s.core dest
    let serves := isLarge dest = false ∨ s.inPart c.part dest = true
    let full := 8 ≤ k.arrival.length ∨ k.spill ≠ []
    let ends := fun (stage : Nat) (P : State → Prop) => ∃ t, exec (.contextPacketAdmission id) s = .next t ∧ P t ∧
      t.msg? id = some { m with body := .packet c dest n stage 0 } ∧ (t.core dest).receivedFor c.launch = k.receivedFor c.launch + 1
    let area := spadKey dest 0x1C000
    (∀ j, serves → k.spill = [] → k.arrival = [] → s.freeUser dest = some j →
      ends 1 (fun t => (t.slot ⟨dest, j⟩).HoldsContext c ∧ s.OtherSlots t ⟨dest, j⟩ ∧ s.SameMemory t)) ∧
    (serves → k.spill = [] → s.freeUser dest = none → k.arrival.length < 8 →
      ends 1 (fun t => (t.core dest).arrival = k.arrival ++ [c] ∧ s.SameSlots t ∧ s.SameMemory t)) ∧
    (serves → full → k.spill.length + k.reserved.length < 64 →
      ends 1 (fun t => (t.core dest).spill = k.spill ++ [c] ∧ s.SameSlots t ∧ (isLarge dest = true → s.SameMemory t) ∧
        ∀ j, j < area ∨ area + 64 * 128 ≤ j → t.byte j = s.byte j ∧ t.sideTag j = s.sideTag j ∧ t.poisoned j = s.poisoned j)) ∧
    (full → 64 ≤ k.spill.length + k.reserved.length →
      ends 2 (fun t => (t.core dest).spill = k.spill ∧ (t.core dest).arrival = k.arrival ∧ s.SameSlots t ∧ s.SameMemory t)) ∧
    (¬ serves →
      ends 2 (fun t => (t.core dest).spill = k.spill ∧ (t.core dest).arrival = k.arrival ∧ s.SameSlots t ∧ s.SameMemory t)))

/-- R27 and R28: an acceptance frees the origin slot and leaves a forwarding entry; a refusal parks the context for 64 ns
times a power of two, at most 64, after which the packet is sent and counted again; a forwarding entry lapses after
4,096 cycles (1.7 cycles a ns is the model's own clock, log entry 7), and a later reply is dropped and counted.  R18,
R20, R25 and R321: the lowest free user slot takes the head of the arrival queue, else of the run list, else of the
spill area, and no slot that holds a thread changes. At the end of a cycle, with no free slot left, one context moves
from the head of the spill area to the tail of an arrival queue with room. A task starts at its entry with g4 its
argument and g5 its record's address, and its record's count word becomes 0; g3, the launch pointer, is read as the
record's address (the model's reading, log entry 17). -/
def Obligations.RepliesAndSlots : Prop :=
  (∀ (s : State) (id dest n due core slot : Nat) (m : Msg) (c : Ctx),
    let k := s.core core
    (s.msg? id = some m → m.body = .packet c dest n 1 due → s.mayAct m.src.core id = true → (s.slot m.src).park = .migrating id →
      ∃ t, exec (.migrationReply id) s = .next t ∧ (t.slot m.src).occ = false ∧ s.OtherSlots t m.src ∧ s.SameMemory t ∧
        t.net = s.net.filter (fun q => q.id != id) ∧
        (t.core m.src.core).forwards = (s.core m.src.core).forwards ++ [{ slot := m.src.slot, target := dest, since := s.sys.meridian }]) ∧
    (s.msg? id = some m → m.body = .packet c dest n 2 due → s.mayAct m.src.core id = true →
      ∃ t, exec (.migrationReply id) s = .next t ∧ s.OnlyNet t ∧
        t.msg? id = some { m with body := .packet c dest (n + 1) 3 (s.sys.meridian + 64 * 2 ^ min n 6) }) ∧
    (s.msg? id = some m → m.body = .packet c dest n 3 due → s.coreRuns m.src.core = true → due ≤ s.sys.meridian →
      ∃ t, exec (.refusalBackoffExpiry id) s = .next t ∧ t.msg? id = some { m with body := .packet c dest n 0 0 } ∧
        s.SameMemory t ∧ s.SameSlots t ∧
        (t.core m.src.core).sentFor c.launch = (s.core m.src.core).sentFor c.launch + 1) ∧
    (∀ f, k.forwards.find? (fun f => f.slot == slot) = some f → 40960 ≤ (s.sys.meridian - f.since) * 17 → s.coreRuns core = true →
      ∃ t, exec (.forwardingEntryExpiry core slot) s = .next t ∧ (t.core core).forwards = k.forwards.erase f ∧
        s.SameMemory t ∧ s.SameSlots t ∧ s.OtherCores t core) ∧
    (k.forwards.any (fun f => f.slot == slot) = false →
      ∃ t, exec (.lateReplyAtOrigin core slot) s = .next t ∧ (t.core core).lateDropped = k.lateDropped + 1 ∧
        s.SameMemory t ∧ s.SameSlots t ∧ s.OtherCores t core)) ∧
  (∀ (s : State) (core n : Nat),
    let k := s.core core
    let alone := ∀ j ∈ userSlots core, j ≠ n → (s.slot ⟨core, j⟩).occ = true
    let keeps := fun (t : State) => ∀ w, slotKey w / 8 ≠ core ∨ (s.slot w).occ = true → t.slot w = s.slot w
    let kept := fun (t : State) => s.OtherSlots t ⟨core, n⟩ ∧ s.SameMemory t ∧ s.OtherCores t core
    (s.coreRuns core = true → s.freeUser core = some n →
      (∀ x r, k.arrival = x :: r →
        (∃ t, exec (.slotTakesWork core) s = .next t ∧ (t.slot ⟨core, n⟩).HoldsContext x ∧ keeps t) ∧
        (alone → ∃ t, exec (.slotTakesWork core) s = .next t ∧ (t.core core).arrival = r ∧ (t.core core).spill = k.spill ∧
          (t.core core).runList = k.runList ∧ kept t)) ∧
      (∀ off launch l r, k.arrival = [] → k.runList = .task off launch :: r → s.launch? launch = some l →
        (∃ t, exec (.slotTakesWork core) s = .next t ∧ (t.slot ⟨core, n⟩).occ = true ∧ (t.slot ⟨core, n⟩).mode = .user ∧
          (t.slot ⟨core, n⟩).pc = l.entry + 4 * (BitVec.ofNat 32 (s.nat (spadKey core off + 4) 4)).signExtend 64 ∧
          (t.slot ⟨core, n⟩).g 3 = dbl l.addr ∧ (t.slot ⟨core, n⟩).g 4 = dbl (s.nat (spadKey core off + 8) 8) ∧
          (t.slot ⟨core, n⟩).g 5 = dbl (core * 2 ^ 20 + off) ∧ keeps t) ∧
        (alone → s.liveTouch core off 4 = false → ∃ t, exec (.slotTakesWork core) s = .next t ∧ (t.core core).runList = r ∧
          t.nat (spadKey core off) 4 = 0 ∧ (t.core core).arrival = [] ∧ (t.core core).spill = k.spill ∧
          (∀ j, j < spadKey core off ∨ spadKey core off + 4 ≤ j → t.byte j = s.byte j) ∧ s.OtherSlots t ⟨core, n⟩)) ∧
      (∀ x r, k.arrival = [] → k.runList = [] → k.spill = x :: r →
        (∃ t, exec (.slotTakesWork core) s = .next t ∧ (t.slot ⟨core, n⟩).HoldsContext x ∧ keeps t) ∧
        (alone → ∃ t, exec (.slotTakesWork core) s = .next t ∧ (t.core core).spill = r ∧ (t.core core).arrival = [] ∧ kept t))) ∧
    (∀ x r, s.coreRuns core = true → s.focus = core → s.agenda = [] → k.pos ≠ 0 → s.pickSlot core = none → s.freeUser core = none →
      k.spill = x :: r → k.arrival.length < 8 →
      ∃ t, step s = .next t ∧ (t.core core).spill = r ∧ (t.core core).arrival = k.arrival ++ [x] ∧ s.SameMemory t ∧ s.SameSlots t ∧
        s.OtherCores t core))

/-! ### Mailboxes and inbox rings: major 0x1D -/

/-- R222, R227 and R228: a SEND or SENDT in the super-group to a mailbox with room, no receiver parked there, puts the
message at its tail and returns 0; a full mailbox makes SENDT return 1 and leaves SEND parked; beyond the super-group,
or toward a core that a stop has reached, the message travels while the slot is parked. R344: a status is heard at
once by a core whose holding buffer holds nothing.  R222: a destination word with a bit that must be zero, or with n
above 8, takes BOUNDS, and a core outside the issuer's partition ACCESS; no message is sent. -/
def Obligations.Sending : Prop :=
  (∀ (s : State) (d a : BitVec 5),
    let dw := s.g a
    let n := dw.toNat / 2 ^ 24 % 16
    let b := dw.toNat / 2 ^ 20 % 16
    let c := dw.toNat % 2 ^ 16
    let k := s.cur.core
    let mail : Mail := { payload := (List.range n).map (fun i => s.g (BitVec.ofNat 5 (4 + i))), sender := senderWord s.cur b, gone := false }
    let counts := fun (t : State) => (t.core k).sentFor s.me.launch = (s.core k).sentFor s.me.launch + 1
    let others := s.net.filter (fun q => q.id != s.nextId)
    destOk dw = true → n ≤ 8 → dw.toNat / 2 ^ 32 = 0 → dw.toNat / 2 ^ 16 % 2 = 0 → s.inPart s.me.part c = true → s.me.relaxed = [] →
    isLarge k = false →
    (sgOf c = sgOf k → s.coreRuns c = true → (s.box c b).length < 4 → s.parkedMail c b = none → s.receiver c b = none →
      (s.drop s.nextId).hears k = true → ∀ i ∈ [Instr.send d a, .sendt d a], ∃ t, exec i s = .next t ∧ t.box c b = s.box c b ++ [mail] ∧ t.me.pc = s.me.pc + 4 ∧
        t.me.park = .ready ∧ s.me.WroteG t.me d 0 ∧ counts t ∧ s.SameMemory t ∧ s.OtherSlots t s.cur ∧ t.net = others ∧
        (t.core c).receivedFor s.me.launch = (s.core c).receivedFor s.me.launch + 1) ∧
    (sgOf c = sgOf k → s.coreRuns c = true → 4 ≤ (s.box c b).length →
      ((s.drop s.nextId).hears k = true → ∃ t, exec (.sendt d a) s = .next t ∧ t.box c b = s.box c b ∧ t.me.pc = s.me.pc + 4 ∧ s.me.WroteG t.me d 1 ∧ s.SameMemory t) ∧
      (∃ t m, exec (.send d a) s = .next t ∧ t.box c b = s.box c b ∧ t.me.pc = s.me.pc ∧ t.me.park = .reply m.id ∧
        t.net = others ++ [m] ∧ m.body = .mail c b mail false false true s.me.launch ∧ s.SameMemory t)) ∧
    (sgOf c ≠ sgOf k ∨ s.coreRuns c = false → ∀ i ∈ [(Instr.send d a, false), (.sendt d a, true)], ∃ t m, exec i.1 s = .next t ∧ t.me.pc = s.me.pc ∧
      t.me.park = .reply m.id ∧ t.net = s.net ++ [m] ∧ m.src = s.cur ∧ m.rd = d ∧ m.body = .mail c b mail i.2 false false s.me.launch ∧
      counts t ∧ s.SameMemory t ∧ s.OtherSlots t s.cur)) ∧
  (∀ (s : State) (d a : BitVec 5),
    let dw := s.g a
    ∀ i ∈ [Instr.send d a, .sendt d a],
    ((dw >>> 48 ≠ 0 ∨ (dw >>> 28).setWidth 4 ≠ 0#4 ∨ (dw >>> 17).setWidth 3 ≠ 0#3 ∨ 8 < ((dw >>> 24).setWidth 4).toNat) →
      exec i s = .next (s.trapAt s.cur .bounds 0)) ∧
    (destOk dw = true → ((dw >>> 24).setWidth 4).toNat ≤ 8 → (dw >>> 32) = 0 → s.inPart s.me.part (destCore dw) = false →
      exec i s = .next (s.trapAt s.cur .access dw)))

/-- R229 and R230: RECV and RECVT take the head of the lowest non-empty mailbox that their mask names; with none RECVT
returns 1 and RECV parks; a mask of zero takes QUEUE; MBSTAT gives the occupancy of each box.  R227 and R228: a
message that reaches its mailbox goes to the slot parked earliest in a RECV that names the box, else to the tail of
the box, and its sender wakes with status 0; at a full box a SENDT's is refused with status 1, counted as received,
and a SEND's is held; a held message enters once the box has room. R344 and R385: a sender whose core is stopped, or
whose holding buffer holds a message, hears the status later. -/
def Obligations.Mailboxes : Prop :=
  (∀ (s : State) (d a : BitVec 5),
    let k := s.cur.core
    let mask : BitVec 16 := (s.g a).setWidth 16
    (∀ b m r, mask.getLsbD b = true → b < 16 → s.box k b = m :: r → (∀ j, j < b → mask.getLsbD j = true → s.box k j = []) →
      s.parkedMail k b = none → isLarge k = false → ∀ i ∈ [Instr.recv d a, .recvt d a],
      s.ComputesCore i k { s.core k with boxes := mapPut (s.core k).boxes b r }
        (fun x y => x.TookMail y d m ∧ x.SameV y ∧ y.pw = x.pw ∧ y.csr = x.csr)) ∧
    (mask ≠ 0 → (∀ j, j < 16 → mask.getLsbD j = true → s.box k j = []) →
      s.ComputesG (.recvt d a) d 1 ∧
      (∃ t tk, exec (.recv d a) s = .next t ∧ t.me.park = .recv mask d tk ∧ t.me.pc = s.me.pc ∧ s.me.SameRegs t.me ∧ s.SameMemory t ∧
        s.OtherSlots t s.cur ∧ s.SameCores t)) ∧
    (mask = 0 → ∀ i ∈ [Instr.recv d a, .recvt d a], ∃ v, exec i s = .next (({ s with free := s.free + 1 } : State).trapAt s.cur .queue v)) ∧
    (∃ v, s.ComputesG (.mbstat d) d v ∧ v.toNat < 2 ^ 48 ∧ ∀ j, j < 16 → v.toNat / 2 ^ (3 * j) % 8 = min 4 (s.box k j).length)) ∧
  (∀ (s : State) (id c b : Nat) (m : Msg) (x : Mail) (try_ : Bool) (launch : Nat),
    s.msg? id = some m → (s.slot m.src).park = .reply id →
    let hears := (s.drop id).hears m.src.core = true
    let y := s.slot m.src
    let ends := fun (v : Word) (P : State → Prop) => ∃ t, exec (.mailboxDelivery id) s = .next t ∧ P t ∧ s.SameMemory t ∧
      y.WroteG (t.slot m.src) m.rd v ∧ (t.slot m.src).pc = y.pc + 4 ∧ (t.slot m.src).park = .ready ∧
      (t.core c).receivedFor launch = (s.core c).receivedFor launch + 1 ∧ t.net = s.net.filter (fun q => q.id != id)
    (m.body = .mail c b x try_ false false launch → s.mayAct c id = true → s.inOrder m = true →
      (hears → (s.box c b).length < 4 → s.parkedMail c b = none → s.receiver c b = none →
        ends 0 (fun t => t.box c b = s.box c b ++ [x] ∧ s.OtherSlots t m.src)) ∧
      (¬ hears → (s.box c b).length < 4 → s.parkedMail c b = none → s.receiver c b = none →
        ∃ t q, exec (.mailboxDelivery id) s = .next t ∧ t.box c b = s.box c b ++ [x] ∧ s.SameSlots t ∧ s.SameMemory t ∧
          t.net = s.net.filter (fun q => q.id != id) ++ [q] ∧ q.body = .answer m.src (.status (.reply id) m.rd 0)) ∧
      (∀ w rd, hears → (s.box c b).length < 4 → s.parkedMail c b = none → s.receiver c b = some (w, rd) → slotKey w ≠ slotKey m.src →
        ends 0 (fun t => t.box c b = s.box c b ∧ (s.slot w).TookMail (t.slot w) rd x ∧ (t.slot w).pc = (s.slot w).pc + 4 ∧
          (t.slot w).park = .ready)) ∧
      (hears → 4 ≤ (s.box c b).length → try_ = true → ends 1 (fun t => t.box c b = s.box c b ∧ s.OtherSlots t m.src)) ∧
      (4 ≤ (s.box c b).length → try_ = false → ∃ t, exec (.mailboxDelivery id) s = .next t ∧ s.SameMemory t ∧ s.SameSlots t ∧
        s.SameCores t ∧ t.net = s.net.filter (fun q => q.id != id) ++ [{ m with body := .mail c b x try_ false true launch }])) ∧
    (m.body = .mail c b x false false true launch → s.coreRuns c = true → hears → s.parkedMail c b = some (m, x, false, launch) → (s.box c b).length = 3 →
      s.receiver c b = none → ends 0 (fun t => t.box c b = s.box c b ++ [x] ∧ s.OtherSlots t m.src)))

/-- R57 to R59 and R231: an APPEND in the super-group to a valid ring with room for its record before the end of its data
area writes the header and payload, then advances tail, and returns 0; a ring that is not valid gives 2, a full one
makes APPENDT return 1 and parks APPEND, and a bad operand gives 4. R344: the status is heard at once by a core whose
holding buffer holds nothing.  R59, R232 and R382: an APPEND that reaches its ring's core is one step there, and its
thread wakes with the status; a parked APPEND is retried when the ring's head word is written; a peer's context that
is gone leaves one notice right behind its last message in each mailbox that holds one, wakes a RECV parked on such a
box with status 3, and its parked SENDs and APPENDs are discarded. R344 and R385: a stopped core learns it later. -/
def Obligations.Appending : Prop :=
  (∀ (s : State) (d a b : BitVec 5),
    let ring := (s.g a).toNat
    let o := ring % 2 ^ 20
    let c := ring / 2 ^ 20
    let key := spadKey c o
    let n := (s.g b).toNat
    let rec_ := 8 + 8 * n
    let head := s.nat key 4
    let tail := s.nat (key + 4) 4
    let size := s.nat (key + 8) 4
    let pos := tail % size
    let used := (tail + 2 ^ 32 - head) % 2 ^ 32
    let hears := (s.drop s.nextId).hears s.cur.core = true
    ring % 64 = 0 → ring < 2 ^ 36 → o < 0x1C000 → s.inPart s.me.part c = true → s.me.relaxed = [] → isLarge s.cur.core = false →
    (n = 0 ∨ 8 < n ∧ n < 16 → ∀ i ∈ [Instr.append d a b, .appendt d a b], s.ComputesG i d 4) ∧
    (1 ≤ n → n ≤ 8 → sgOf c = sgOf s.cur.core → s.coreRuns c = true → s.anyPoison key 16 = false →
      let valid := s.nat (key + 12) 4 % 2 = 1 ∧ 256 ≤ size ∧ size ≤ 65536 ∧ 2 ^ Nat.log2 size = size ∧ used ≤ size
      (valid → s.ringParked ring = false → pos + rec_ ≤ size → rec_ ≤ size - used → s.ringCause c (o + 64 + pos) rec_ = none →
        s.ringCause c (o + 4) 4 = none → hears →
        ∀ i ∈ [Instr.append d a b, .appendt d a b], ∃ t, exec i s = .next t ∧ t.me.pc = s.me.pc + 4 ∧ s.me.WroteG t.me d 0 ∧
          t.nat (key + 4) 4 = (tail + rec_) % 2 ^ 32 ∧
          t.nat (key + 64 + pos) 8 = rec_ + s.cur.core * 2 ^ 32 + s.cur.slot % 2 ^ 16 * 2 ^ 48 ∧
          (∀ j, j < n → t.nat (key + 64 + pos + 8 + 8 * j) 8 = (s.g (BitVec.ofNat 5 (4 + j))).toNat) ∧
          (∀ j, (j < key + 4 ∨ key + 8 ≤ j) → (j < key + 64 + pos ∨ key + 64 + pos + rec_ ≤ j) → t.byte j = s.byte j) ∧
          s.OtherSlots t s.cur) ∧
      (¬ valid → hears → ∀ i ∈ [Instr.append d a b, .appendt d a b], ∃ t, exec i s = .next t ∧ t.me.pc = s.me.pc + 4 ∧ s.me.WroteG t.me d 2 ∧
        s.SameMemory t ∧ s.OtherSlots t s.cur) ∧
      (valid → pos + rec_ ≤ size → size - used < rec_ →
        (hears → ∃ t, exec (.appendt d a b) s = .next t ∧ t.me.pc = s.me.pc + 4 ∧ s.me.WroteG t.me d 1 ∧ s.SameMemory t ∧ s.OtherSlots t s.cur) ∧
        (∃ t m, exec (.append d a b) s = .next t ∧ t.me.pc = s.me.pc ∧ t.me.park = .reply m.id ∧
          t.net = s.net.filter (fun q => q.id != s.nextId) ++ [m] ∧ m.body = .append ring ((List.range n).map (fun j => s.g (BitVec.ofNat 5 (4 + j)))) false true false s.me.launch ∧
          s.SameMemory t ∧ s.OtherSlots t s.cur)))) ∧
  (∀ (s : State) (id ring launch : Nat) (m : Msg) (p : List Word) (try_ : Bool) (sender : Word),
    let from_ := fun (l : List Mail) => l.any (fun x => !x.gone && sameContext x.sender sender)
    let step_ := fun (t : State) (r : State × RingAnswer) (v : Nat) => r.2 = .status v →
      (∀ k, t.byte k = r.1.byte k) ∧ (s.slot m.src).WroteG (t.slot m.src) m.rd (dbl v) ∧ (t.slot m.src).pc = (s.slot m.src).pc + 4 ∧
      (t.slot m.src).park = .ready ∧ s.OtherSlots t m.src
    (s.msg? id = some m → s.mayAct (homeOf ring) id = true → s.inOrder m = true → (s.slot m.src).park = .reply id →
      (s.drop id).hears m.src.core = true → m.body = .append ring p try_ false false launch →
      ∃ t, exec (.appendAtRing id) s = .next t ∧ (∀ v, (v ≠ 1 ∨ try_ = true) → step_ t (s.ringStep m.src ring p (s.ringParked ring)) v) ∧
        ((s.ringStep m.src ring p (s.ringParked ring)).2 = .status 1 → try_ = false →
          s.SameSlots t ∧ t.net = s.net.filter (fun q => q.id != id) ++ [{ m with body := .append ring p false true false launch }])) ∧
    (s.net = [m] → s.coreRuns (homeOf ring) = true → (s.drop m.id).hears m.src.core = true → (s.slot m.src).park = .reply m.id → m.body = .append ring p try_ true true launch →
      ∃ t, exec (.appendRetry ring) s = .next t ∧ (∀ v, v ≠ 1 → step_ t (s.ringStep m.src ring p false) v ∧
        ((s.ringStep m.src ring p false).2 = .status v → t.net = []))) ∧
    (destPeer sender ≠ 0 → ∀ c, s.coreRuns c = false → c ∈ s.cores.map (fun q => q.1) →
      ∃ t q, exec (.contextGone sender) s = .next t ∧ q ∈ t.net ∧ q.body = .answer ⟨c, 0⟩ (.gone sender) ∧ t.core c = s.core c) ∧
    (destPeer sender ≠ 0 → (s.cores.flatMap (fun p => p.2.boxes.map (fun q => (p.1, q.1)))).Nodup →
      (s.net.map (fun q => q.id)).Nodup → (∀ c, s.hears c = true) →
      ∃ t, exec (.contextGone sender) s = .next t ∧ t.sys.gone = s.sys.gone ++ [sender] ∧ s.SameMemory t ∧
      t.net = s.net.filter (fun q => !q.parkedOf sender) ∧
      (∀ w, (∀ mask rd k, (s.slot w).park ≠ .recv mask rd k) → t.slot w = s.slot w) ∧
      (∀ c b, b < 16 → (from_ (s.box c b) = true → ∃ l x r, s.box c b = l ++ r ∧ t.box c b = l ++ [x] ++ r ∧
          (l.getLast?.map (fun y => from_ [y])) = some true ∧ from_ r = false ∧
          x.gone = true ∧ x.payload = [] ∧ sameContext x.sender sender = true) ∧
        (from_ (s.box c b) = false → t.box c b = s.box c b)) ∧
      (∀ c b k mask rd tk, b < 16 → k < slotCount c → (s.slot ⟨c, k⟩).occ = true → (s.slot ⟨c, k⟩).park = .recv mask rd tk →
        mask.getLsbD b = true → from_ (s.box c b) = true → (∀ j, j ≠ b → mask.getLsbD j = true → from_ (s.box c j) = false) →
        (s.slot ⟨c, k⟩).TookMail (t.slot ⟨c, k⟩) rd (noticeIn sender b) ∧ (t.slot ⟨c, k⟩).park = .ready)))

/-! ### Queue registers and the deque: majors 0x1E and 0x21 -/

/-- R233 to R235: QBIND binds a queue, empty, on both cores; the producer appends and the consumer takes entries in
order, or each parks while there is no room or too few; QSTAT reads the binding; QCLOSE unbinds. -/
def Obligations.QueueRegisters : Prop := ∀ (s : State) (d q a v : BitVec 5),
  let c := s.cur.core
  let n := q.toNat
  let r := s.queueReg c n
  let h := r.consCore
  let es := s.queueEntries c n
  let holds := fun (l : List QEntry) => { s.core h with queues := mapPut (s.core h).queues n { s.queueReg h n with entries := l } }
  let lane := fun (l : Nat) => s.me.lane (v.setWidth 4) l
  let tag := fun (l : Nat) => s.me.tag (v.setWidth 4) l
  isLarge c = false →
  (∀ ps cs pc, ps < 7 → cs < 7 → pc < 16 → s.g a = BitVec.ofNat 64 (ps + cs * 2 ^ 4 + pc * 2 ^ 16) → r.bound = false →
    (s.queueReg (c / 16 * 16 + pc) n).bound = false →
    ∃ t, exec (.qbind q a) s = .next t ∧ t.me.pc = s.me.pc + 4 ∧ s.me.SameRegs t.me ∧ s.SameMemory t ∧ s.OtherSlots t s.cur ∧
      (∀ e, e ≠ c → e ≠ c / 16 * 16 + pc → t.core e = s.core e) ∧ t.queueReg (c / 16 * 16 + pc) n = t.queueReg c n ∧
      t.queueReg c n = { bound := true, prodCore := c / 16 * 16 + pc, prodSlot := ps, consCore := c, consSlot := cs, entries := [] }) ∧
  (r.isProducer s.cur = true →
    (es.length ≤ 7 → s.ComputesCore (.qwr q a) h (holds (es ++ [{ data := s.g a, tag0 := 63, tag1 := 63 }])) Slot.SameRegs) ∧
    (8 ≤ es.length → s.ParksOn (.qwr q a) (.queueRoom n 1)) ∧
    (es.length ≤ 6 → s.ComputesCore (.vqwr q v) h (holds (es ++
      [{ data := lane 1 ++ lane 0, tag0 := tag 0, tag1 := tag 1 }, { data := lane 3 ++ lane 2, tag0 := tag 2, tag1 := tag 3 }])) Slot.SameRegs) ∧
    (7 ≤ es.length → s.ParksOn (.vqwr q v) (.queueRoom n 2))) ∧
  (r.isConsumer s.cur = true →
    (∀ e l, es = e :: l → s.ComputesCore (.qrd d q) h (holds l) (Slot.OnlyG d e.data)) ∧
    (es = [] → s.ParksOn (.qrd d q) (.queueEntry n 1)) ∧
    (∀ e f l, es = e :: f :: l → s.ComputesCore (.vqrd v q) h (holds l) (fun x y => x.WroteV y (v.setWidth 4)
      (fun j => match j with | 0 => lowW e.data | 1 => highW e.data | 2 => lowW f.data | _ => highW f.data)
      (fun j => match j with | 0 => e.tag0 | 1 => e.tag1 | 2 => f.tag0 | _ => f.tag1))) ∧
    (es.length < 2 → s.ParksOn (.vqrd v q) (.queueEntry n 2))) ∧
  (r.bound = true → s.ComputesG (.qstat d q) d
    (dbl (es.length + 16 + r.prodSlot * 2 ^ 8 + r.consSlot * 2 ^ 12 + r.prodCore % 16 * 2 ^ 16))) ∧
  (r.bound = false → s.ComputesG (.qstat d q) d 0) ∧
  ((r.isProducer s.cur || r.isConsumer s.cur) = true → (s.slot ⟨r.prodCore, r.prodSlot⟩).park = .ready →
    (s.slot ⟨r.consCore, r.consSlot⟩).park = .ready →
    ∃ t, exec (.qclose q) s = .next t ∧ t.queueReg r.prodCore n = .reset ∧ t.queueReg r.consCore n = .reset ∧
      t.me.pc = s.me.pc + 4 ∧ s.me.SameRegs t.me ∧ s.SameMemory t ∧ s.OtherSlots t s.cur) ∧
  (r.isProducer s.cur = false → exec (.qwr q a) s = .next (s.trapAt s.cur .queue (q.zeroExtend 64)) ∧
    exec (.vqwr q v) s = .next (s.trapAt s.cur .queue (q.zeroExtend 64))) ∧
  (r.isConsumer s.cur = false → exec (.qrd d q) s = .next (s.trapAt s.cur .queue (q.zeroExtend 64)) ∧
    exec (.vqrd v q) s = .next (s.trapAt s.cur .queue (q.zeroExtend 64)))

/-- R22, R23 and R245: pushes, pops and splits of a core's deque, whose top is the head of its list. The image of an entry
beyond the sixteen that the core itself holds lies somewhere in the overflow part of the reserved area (R44; log entry
37).  R23: a steal takes the upper half of the victim's bottom range, or the whole of a range of one; in the super-
group it completes at once, and beyond it, or from a core that a stop has reached, the victim's service slot serves it
in its turn and the thief, on a core that hears it (R344), wakes with the pair. -/
def Obligations.DequesAndStealing : Prop :=
  (∀ (s : State) (d a b : BitVec 5),
    let c := s.cur.core
    let l := (s.core c).deque
    let now := fun (l : List (Word × Word)) => { s.core c with deque := l }
    let pair := fun (p : Word × Word) (x y : Slot) => (∀ r, y.g r = if r = 0 then 0 else if r = d + 1 then p.2 else if r = d then p.1 else x.g r) ∧
      x.SameV y ∧ y.pw = x.pw ∧ y.csr = x.csr
    let area := spadKey c 0x1E000
    let grows := fun (i : Instr) (n : List (Word × Word)) => (l.length < 16 ∨ isLarge c = true → s.ComputesCore i c (now n) (Slot.OnlyG d 0)) ∧
      ∃ t, exec i s = .next t ∧ s.me.Kept t.me ∧ t.me.park = .ready ∧ t.me.pc = s.me.pc + 4 ∧ Slot.OnlyG d 0 s.me t.me ∧
        t.core c = now n ∧ s.OtherCores t c ∧ s.OtherSlots t s.cur ∧ s.SameTiles t ∧ t.net = s.net ∧
        ∀ j, j < area ∨ area + 128 * 16 ≤ j → t.byte j = s.byte j ∧ t.sideTag j = s.sideTag j ∧ t.poisoned j = s.poisoned j
    ((s.g a).toNat < (s.g b).toNat → l.length < 144 → grows (.dqpush d a b) ((s.g a, s.g b) :: l)) ∧
    ((s.g b).toNat ≤ (s.g a).toNat → s.ComputesCore (.dqpush d a b) c (now l) (Slot.OnlyG d 1)) ∧
    ((s.g a).toNat < (s.g b).toNat → 144 ≤ l.length → s.ComputesCore (.dqpush d a b) c (now l) (Slot.OnlyG d 2)) ∧
    (∀ p r, l = p :: r → s.ComputesCore (.dqpop d) c (now r) (pair p)) ∧
    (l = [] → s.ComputesCore (.dqpop d) c (now []) (pair (0, 0))) ∧
    (∀ lo hi r, l = (lo, hi) :: r → hi - lo ≠ 1 → l.length < 144 →
      grows (.dqsplit d) ((lo + (hi - lo) / 2, hi) :: (lo, lo + (hi - lo) / 2) :: r)) ∧
    (l = [] → s.ComputesCore (.dqsplit d) c (now []) (Slot.OnlyG d 1)) ∧
    (∀ lo hi r, l = (lo, hi) :: r → hi - lo = 1 → s.ComputesCore (.dqsplit d) c (now l) (Slot.OnlyG d 2)) ∧
    (∀ lo hi r, l = (lo, hi) :: r → hi - lo ≠ 1 → 144 ≤ l.length → s.ComputesCore (.dqsplit d) c (now l) (Slot.OnlyG d 3)) ∧
    s.ComputesG (.dqlen d) d (dbl l.length)) ∧
  (∀ (s : State) (d a : BitVec 5) (id : Nat) (m : Msg),
    let v := (s.g a).toNat
    let pair := fun (rd : BitVec 5) (p : Word × Word) (x y : Slot) => y.pc = x.pc + 4 ∧ y.park = .ready ∧
      ∀ r, y.g r = if r = 0 then 0 else if r = rd + 1 then p.2 else if r = rd then p.1 else x.g r
    let takes := fun (i : Instr) (w : Who) (rd : BitVec 5) (c : Nat) => ∃ t, exec i s = .next t ∧ s.SameMemory t ∧ s.OtherSlots t w ∧ s.OtherCores t c ∧
      (∀ l lo hi, (s.core c).deque = l ++ [(lo, hi)] → lo.toNat < hi.toNat →
        let n := hi.toNat - lo.toNat
        (n = 1 → (t.core c).deque = l ∧ pair rd (lo, hi) (s.slot w) (t.slot w)) ∧
        (n ≠ 1 → (t.core c).deque = l ++ [(lo, hi - dbl ((n + 1) / 2))] ∧ pair rd (hi - dbl ((n + 1) / 2), hi) (s.slot w) (t.slot w))) ∧
      ((s.core c).deque = [] → (t.core c).deque = [] ∧ pair rd (0, 0) (s.slot w) (t.slot w))
    (2 ^ 16 ≤ v → exec (.dqsteal d a) s = .next (s.trapAt s.cur .bounds 0)) ∧
    (v < 2 ^ 16 → s.inPart s.me.part v = false → exec (.dqsteal d a) s = .next (s.trapAt s.cur .access (s.g a))) ∧
    (v < 2 ^ 16 → s.inPart s.me.part v = true → s.me.relaxed = [] → isLarge s.cur.core = false → sgOf v = sgOf s.cur.core →
      s.coreRuns v = true → takes (.dqsteal d a) s.cur d v) ∧
    (v < 2 ^ 16 → s.inPart s.me.part v = true → s.me.relaxed = [] →
      (isLarge s.cur.core = true ∨ sgOf v ≠ sgOf s.cur.core ∨ s.coreRuns v = false) →
      ∃ t q, exec (.dqsteal d a) s = .next t ∧ t.net = s.net ++ [q] ∧ q.body = .steal v ∧ q.rd = d ∧ q.src = s.cur ∧
        t.me.park = .reply q.id ∧ t.me.pc = s.me.pc ∧ s.me.SameRegs t.me) ∧
    (∀ c, s.msg? id = some m → m.body = .steal c → s.servesNext c id = true → (s.slot m.src).park = .reply id →
      (s.drop id).hears m.src.core = true → takes (.dequeStealServed id) m.src m.rd c))

/-! ### Tasks and termination: major 0x20 -/

/-- R19, R240 and R241: TCINIT in the super-group writes the count word of a record that is not queued, and a count of
zero queues its task; TCDEC sends a counted decrement; at the home a decrement below the count lowers it, and one that
reaches zero queues the task once; one of a queued record, of a count of zero, or below zero posts a record of cause
SYNC. The record's count word lies in no object of its home.  R32, R242 to R244 and R289: with nothing in flight YIELD
with no waiting work goes on at the next frame, a serving owner and a matrix slot having left; EXIT ends a thread of
any kind, whose slot is free for work, with its owner's or phase task's leave sent to the home, its spawner's count
lowered, its gang left and its engine claim released; QUIESCE parks; two sweeps that find equal and unchanged sums
wake the launch's parked threads with the sweep count in g4, which the model counts from the launch's first sweep (the
model's reading, log entry 34). -/
def Obligations.CountersAndEnds : Prop :=
  (∀ (s : State) (a b : BitVec 5) (id d launch : Nat) (m : Msg),
    let r := (s.g a).toNat
    let v := (s.g b).toNat
    let o := r % 2 ^ 20
    let c := r / 2 ^ 20
    let key := spadKey c o
    r % 16 = 0 → r < 2 ^ 36 → o < 0x1C000 → s.inPart s.me.part c = true → v < 2 ^ 31 →
    (∀ p ∈ (s.core c).objects, p.1 + 64 ≤ o ∨ o + 4 ≤ p.1) →
    (s.me.relaxed = [] → isLarge s.cur.core = false → sgOf c = sgOf s.cur.core → s.coreRuns c = true → s.nat key 4 < 2 ^ 31 →
      blocksStore (s.spadMeets key (key + 4)) = false →
      ∃ t, exec (.tcinit a b) s = .next t ∧ t.me.pc = s.me.pc + 4 ∧ t.me.park = .ready ∧ s.me.SameRegs t.me ∧ s.OtherSlots t s.cur ∧
        (v ≠ 0 → t.nat key 4 = v ∧ (∀ j, j < key ∨ key + 4 ≤ j → t.byte j = s.byte j) ∧ s.SameCores t) ∧
        (v = 0 → t.nat key 4 = 2 ^ 31 + 0x1FFF0 ∧ ∃ l, (t.core c).runList = (s.core c).runList ++ [.task o l])) ∧
    ((s.me.unacked.filter (fun u => u.fault.isNone)).length < 64 →
      ∃ t q, exec (.tcdec a b) s = .next t ∧ t.net = s.net ++ [q] ∧ q.body = .decrement r v s.me.launch true ∧ t.me.pc = s.me.pc + 4 ∧
        s.me.SameRegs t.me ∧ t.me.unacked = s.me.unacked ++ [{ id := q.id, addr := r, fault := none, arrive := false }] ∧
        (t.core s.cur.core).sentFor s.me.launch = (s.core s.cur.core).sentFor s.me.launch + 1 ∧ s.SameMemory t ∧ s.OtherSlots t s.cur) ∧
    (s.msg? id = some m → m.body = .decrement r d launch true → s.mayAct c id = true → s.inOrder m = true →
      (s.nat key 4 < 2 ^ 31 → 0 < d → d < s.nat key 4 → ∃ t, exec (.tcdecArrival id) s = .next t ∧ t.nat key 4 = s.nat key 4 - d ∧
        (∀ j, j < key ∨ key + 4 ≤ j → t.byte j = s.byte j) ∧ s.SameSlots t ∧
        (t.core c).receivedFor launch = (s.core c).receivedFor launch + 1 ∧ t.msg? id = some { m with body := .ack r none false }) ∧
      (s.nat key 4 < 2 ^ 31 → 0 < d → d = s.nat key 4 → ∃ t, exec (.tcdecArrival id) s = .next t ∧ t.nat key 4 = 2 ^ 31 + 0x1FFF0 ∧
        (∃ l, (t.core c).runList = (s.core c).runList ++ [.task o l]) ∧ s.SameSlots t) ∧
      (∀ p, s.partOf c = some p → 0 < d → (2 ^ 31 ≤ s.nat key 4 ∨ s.nat key 4 = 0) → ∃ t, exec (.tcdecArrival id) s = .next t ∧
        t.nat key 4 = s.nat key 4 ∧ (t.core c).runList = (s.core c).runList ∧ s.Records t p 16 4 c m.src.slot r 0 ∧ s.SameSlots t) ∧
      (∀ p, s.partOf c = some p → 0 < s.nat key 4 → s.nat key 4 < d → s.nat key 4 < 2 ^ 31 → ∃ t, exec (.tcdecArrival id) s = .next t ∧
        t.nat key 4 = 2 ^ 31 + 0x1FFF0 ∧ (∃ l, (t.core c).runList = (s.core c).runList ++ [.task o l]) ∧
        s.Records t p 16 4 c m.src.slot r 0 ∧ s.SameSlots t) ∧
      (d = 0 → ∃ t, exec (.tcdecArrival id) s = .next t ∧ s.SameMemory t ∧ s.SameSlots t ∧ (t.core c).runList = (s.core c).runList ∧
        (t.core c).receivedFor launch = (s.core c).receivedFor launch + 1))) ∧
  (∀ (s : State) (b : BitVec 5) (launch : Nat) (l : Launch),
    let k := s.core s.cur.core
    let tile := tileOf s.cur.core
    s.me.relaxed = [] → s.me.unacked = [] → s.me.locks = [] →
    (10 ≥ popCount (s.carryMask b) → k.arrival = [] → k.runList = [] →
      ∃ t tk, exec (.yield b) s = .next t ∧ t.me.pc = s.me.pc + 4 ∧ t.me.park = .wait .frame tk ∧ s.me.SameRegs t.me ∧ s.SameMemory t ∧
        s.OtherSlots t s.cur ∧ s.SameCores t ∧ t.me.serving = none ∧ t.net = (s.departOwner s.cur).net ∧ s.OtherTiles t tile ∧
        (isLarge s.cur.core = false → (s.tile tile).mslot (s.cur.core % 16) = s.cur.slot →
          (t.tile tile).leaving = (s.tile tile).leaving ++ [s.cur.core % 16])) ∧
    (k.arrival = [] → k.runList = [] → k.spill = [] →
      ∃ t, exec .exit s = .next t ∧ t.me.occ = false ∧ t.me.watch = none ∧ t.me.sup.tvec = s.me.sup.tvec ∧ t.me.mach.tvec = s.me.mach.tvec ∧
        s.SameMemory t ∧ s.OtherSlots t s.cur ∧ s.OtherTiles t tile ∧
        ((∀ p, s.me.kind ≠ .spawned p) → s.SameCores t) ∧
        (∀ p, s.me.kind = .spawned p → t.core p = { s.core p with spawned := (s.core p).spawned - 1 } ∧ s.OtherCores t p) ∧
        ((∀ e, s.me.kind ≠ .phaseTask e) → t.net = (s.departOwner s.cur).net) ∧
        (∀ e f r, s.me.serving = none → s.me.kind = .phaseTask e → s.me.routines = .action f :: r →
          ∃ q, t.net = s.net ++ [q] ∧ q.src = s.cur ∧ q.body = .sync f (.abandon s.cur)) ∧
        (isLarge s.cur.core = false → (s.tile tile).mslot (s.cur.core % 16) = s.cur.slot →
          (t.tile tile).leaving = (s.tile tile).leaving ++ [s.cur.core % 16]) ∧
        (isLarge s.cur.core = false → (s.tile tile).engine.claim = some s.cur → s.claimWaiter tile = none →
          (t.tile tile).engine.claim = none)) ∧
    (∃ t, exec .quiesce s = .next t ∧ t.me.park = .quiesce ∧ t.me.pc = s.me.pc ∧ s.me.SameRegs t.me ∧ s.SameMemory t ∧ s.OtherSlots t s.cur) ∧
    (s.launch? launch = some l → s.quiescing launch = [s.cur] → s.coreRuns s.cur.core = true → s.sentSum launch = s.receivedSum launch →
      (l.lastSums = some (s.sentSum launch) →
        ∃ t, exec (.quiesceSweep launch) s = .next t ∧ s.me.WroteG t.me 4 (dbl (l.sweeps + 1)) ∧ t.me.pc = s.me.pc + 4 ∧ t.me.park = .ready ∧
          s.SameMemory t ∧ s.OtherSlots t s.cur) ∧
      (l.lastSums ≠ some (s.sentSum launch) →
        ∃ t, exec (.quiesceSweep launch) s = .next t ∧ s.SameSlots t ∧ s.SameMemory t ∧
          t.launch? launch = some { l with sweeps := l.sweeps + 1, lastSums := some (s.sentSum launch) })))

/-! ### Synchronisation objects: major 0x1F -/

/-- R108, R113, R236, R237 and R239: with their checks passed and nothing in flight, the requests of major 0x1F go to the
home: ACQ, TRYACQ, LOCKRUN, SYNCSERVE, SYNCPOL and SYNCFREE park until its answer, REL and ARRIVE complete with their
acknowledgement outstanding, and ARRIVE sets the watch.  R108, R110, R113, R122 and R237: SYNCINIT in the super-group
copies its image's fields and resets the others; SYNCMODE reads its word; AWAIT returns the phase result of a release
that has reached the core, and else parks; SYNCDONE in a routine on its caller sends g4, gives up the lock, writes 0
to the LOCKRUN's rd and goes on at g1, on an owner sends g4 and parks it in its SYNCSERVE again, and in a phase task
waits for its acknowledgement, with SYNC and the descriptor's address for a held lock (R115, R243, R352). That the
owner parks again without another request at the home, and that g1 is taken as a word address, is the model's reading
(log entry 34). -/
def Obligations.SyncRequestsAndReplies : Prop :=
  (∀ (s : State) (d a b : BitVec 5) (img : Nat),
    let o := (s.g a).toNat
    let asks := fun (i : Instr) (rd : BitVec 5) (r : SyncReq) (p : Nat → Park) => ∃ t m, exec i s = .next t ∧ t.net = s.net ++ [m] ∧
      m.src = s.cur ∧ m.rd = rd ∧ m.body = .sync o r ∧ t.me.park = p m.id ∧ t.me.pc = s.me.pc ∧ s.me.SameRegs t.me ∧
      t.me.locks = s.me.locks ∧ s.SameMemory t ∧ s.OtherSlots t s.cur ∧ s.SameCores t ∧ s.SameTiles t
    let signals := fun (i : Instr) (r : SyncReq) (arrive : Bool) (P : Slot → Prop) => ∃ t m, exec i s = .next t ∧ t.net = s.net ++ [m] ∧
      m.src = s.cur ∧ m.body = .sync o r ∧ t.me.pc = s.me.pc + 4 ∧ t.me.park = .ready ∧ s.me.SameRegs t.me ∧ P t.me ∧
      t.me.unacked = [{ id := m.id, addr := o, fault := none, arrive := arrive }] ∧ s.SameMemory t ∧ s.OtherSlots t s.cur ∧
      s.SameCores t ∧ s.SameTiles t
    s.objectCause (s.g a) = none → s.me.relaxed = [] → s.me.unacked = [] →
    (s.me.locks.length < 255 →
      asks (.acq a) 0 .acq (.lock o) ∧ asks (.tryacq d a) d .tryAcq (.lock o) ∧
      asks (.lockrun d a b) d (.lockRun (s.g b) ((List.range 6).map (fun i => s.g (BitVec.ofNat 5 (4 + i))))) (.lock o)) ∧
    (255 ≤ s.me.locks.length → ∀ i ∈ [Instr.acq a, .tryacq d a, .lockrun d a b], exec i s = .next (s.trapAt s.cur .sync (s.g a))) ∧
    (s.me.routines.any (fun r => match r with | .caller e _ => e == o | _ => false) = false → signals (.rel a) .rel false (fun y => y.locks = s.me.locks.erase o)) ∧
    (s.nodes.any (fun n => n.isTile s.cur.core o) = false →
      signals (.arrive a b) (.arrive (s.g b) (s.me.csr.winsig.setWidth 6) s.sys.meridian) true
        (fun y => y.watch = some ⟨o, none⟩ ∧ y.locks = s.me.locks)) ∧
    (s.me.serving = none → asks (.syncserve a) 0 .serve (fun _ => .serve o)) ∧
    asks (.syncfree a) 0 .syncFree .reply ∧
    (s.objectCause (s.g b) = none → s.Readable (homeOf (s.g b).toNat) (offOf (s.g b).toNat) 64 → img = s.nat (rawKey (s.g b).toNat) 64 →
      asks (.syncpol d a b) d (.pol (leBytes 64 img)) .reply)) ∧
  (∀ (s : State) (d a b : BitVec 5) (img : Nat),
    let o := (s.g a).toNat
    let k := rawKey o
    let back := s.g 1 &&& ~~~(3 : Word)
    let near := s.me.relaxed = [] ∧ isLarge s.cur.core = false ∧ sgOf (o / 2 ^ 20) = sgOf s.cur.core ∧ s.coreRuns (homeOf o) = true ∧ s.homeBusy s.cur o = false
    s.objectCause (s.g a) = none →
    (near → s.objectCause (s.g b) = none → s.Readable (homeOf (s.g b).toNat) (offOf (s.g b).toNat) 64 →
      img = s.nat (rawKey (s.g b).toNat) 64 → s.fld o dKind = 0 → badImage (homeOf o) img = false → dRedop.get img = 0 →
      s.rangeStops o 64 = false →
      ∃ t, exec (.syncinit d a b) s = .next t ∧ t.me.pc = s.me.pc + 4 ∧ s.me.WroteG t.me d 0 ∧ s.OtherSlots t s.cur ∧
        (∀ f ∈ [dKind, dPin, dParts, dScope, dOslot, dOcore, dWindow, dTskew, dTcont, dRedcell, dAction], f.get (t.desc o) = f.get img) ∧
        (∀ f ∈ [dArmed, dMode, dMulti, dServing, dSkew, dCont, dCalm, dWaiting, dPhase, dSeq], f.get (t.desc o) = 0) ∧
        (∀ j, j < k ∨ k + 64 ≤ j → t.byte j = s.byte j)) ∧
    (near → s.fld o dKind ≠ 0 → inScope (s.fld o dScope) (homeOf o) s.cur.core = true →
      (s.g b = 0 → s.ComputesG (.syncmode d a b) d (dbl (s.fld o dMode + s.fld o dPin * 2 ^ 2 + s.fld o dArmed * 2 ^ 3 +
        s.fld o dWaiting * 2 ^ 4 + s.fld o dCont * 2 ^ 24 + s.fld o dServing * 2 ^ 40))) ∧
      (s.g b = 1 → s.ComputesG (.syncmode d a b) d (dbl (if s.fld o dKind = 1 then s.fld o dHolder else s.fld o dPhase))) ∧
      (s.g b = 2 → s.ComputesG (.syncmode d a b) d (dbl (s.fld o dSkew)))) ∧
    (s.me.relaxed = [] → isLarge s.cur.core = false → ∀ r, s.me.watch = some ⟨o, some r⟩ →
      ∃ t, exec (.await d a) s = .next t ∧ t.me.pc = s.me.pc + 4 ∧ s.me.WroteG t.me d r ∧ t.me.watch = none ∧ s.SameMemory t ∧
        s.OtherSlots t s.cur ∧ s.SameCores t) ∧
    (s.me.relaxed = [] → s.me.watch = some ⟨o, none⟩ →
      ∃ t, exec (.await d a) s = .next t ∧ t.me.pc = s.me.pc ∧ t.me.park = .await o d ∧ s.me.SameRegs t.me ∧ s.SameMemory t) ∧
    (s.me.watch = none → (∀ u ∈ s.me.unacked, u.fault = none) → exec (.await d a) s = .next (s.trapAt s.cur .sync (s.g a))) ∧
    (s.me.watch = none → ∀ u, s.me.unacked = [u] → u.arrive = true → u.addr = o → u.fault.isSome = true →
      exec (.await d a) s = .next ((s.setMe { s.me with unacked := [] }).trapAt s.cur .sync (s.g a))) ∧
    (s.me.relaxed = [] → s.me.unacked = [] → ∀ rd, s.me.routines = [.caller o rd] →
      ∃ t m, exec (.syncdone a) s = .next t ∧ t.net = s.net ++ [m] ∧ m.body = .sync o (.done (s.g 4)) ∧ t.me.pc = back ∧
        t.me.routines = [] ∧ t.me.locks = s.me.locks.erase o ∧ s.me.WroteG t.me rd 0 ∧ s.SameMemory t ∧ s.OtherSlots t s.cur) ∧
    (s.me.relaxed = [] → s.me.unacked = [] → ∀ r, (∃ w, r = Routine.delegated o w) ∨ (r = .action o ∧ s.me.kind ≠ .phaseTask o) →
      s.me.routines = [r] →
      ∃ t m, exec (.syncdone a) s = .next t ∧ t.net = s.net ++ [m] ∧ m.body = .sync o (.done (s.g 4)) ∧ t.me.pc = back ∧
        t.me.park = .serve o ∧ t.me.routines = [] ∧ t.me.locks = s.me.locks ∧ s.me.SameRegs t.me ∧ s.SameMemory t ∧ s.OtherSlots t s.cur) ∧
    (s.me.relaxed = [] → s.me.unacked = [] → s.me.routines = [.action o] → s.me.kind = .phaseTask o →
      (s.me.locks = [] → ∃ t m, exec (.syncdone a) s = .next t ∧ t.net = s.net ++ [m] ∧ m.body = .sync o (.done (s.g 4)) ∧
        t.me.park = .reply m.id ∧ s.SameMemory t ∧ s.OtherSlots t s.cur) ∧
      (s.me.locks ≠ [] → exec (.syncdone a) s = .next (s.trapAt s.cur .sync (s.g a)))) ∧
    (s.me.routines = [] → exec (.syncdone a) s = .next (s.trapAt s.cur .sync (s.g a))))

/-- R107 to R111, R119 and R237: at the home a free lock is granted, which completes the ACQ or TRYACQ and counts one
more held lock, or starts the LOCKRUN's routine on its caller; a held lock queues the request, and the third waiter
switches an unpinned FLAG lock to QUEUE, while TRYACQ returns 0; a REL frees the lock, or passes it to the front
waiter.  That the granted slot goes on in the home's own step, its reply's travel being latency alone, is the model's
reading (log entry 19); one whose core is stopped, or whose holding buffer holds a message, hears the grant later (R344). -/
def Obligations.LocksAtHome : Prop := ∀ (s : State) (id a : Nat) (m : Msg) (r : SyncReq),
  let x := s.slot m.src
  let k := rawKey a
  let w := m.src
  s.msg? id = some m → m.body = .sync a r → s.mayAct (homeOf a) id = true → s.inOrder m = true →
  s.wrongUse a w.core [1] = false → w.core < 65536 → w.slot < 8 → s.waitingMsg w a = none →
  let hears := (s.drop id).hears w.core = true
  let only := fun (t : State) => (∀ j, j < k ∨ k + 64 ≤ j → t.byte j = s.byte j) ∧ t.fld a dSeq = (s.fld a dSeq + 1) % 2 ^ 32
  let free := handleOk (s.fld a dHolder) = false ∧ ownedBy (s.desc a) w = false ∧ x.park = .lock a id
  let taken := handleOk (s.fld a dHolder) = true ∧ s.heldBy a w = false ∧ ownedBy (s.desc a) w = false ∧ x.park = .lock a id
  let gets := fun (i : Instr) (P : Slot → Prop) (req : Nat) => ∃ t, exec i s = .next t ∧ only t ∧ s.OtherSlots t w ∧
    t.fld a dHolder = handleOf w req ∧ (t.slot w).locks = x.locks ++ [a] ∧ (t.slot w).park = .ready ∧ P (t.slot w)
  let waits := fun (i : Instr) (req : Nat) => ∃ t, exec i s = .next t ∧ only t ∧ s.SameSlots t ∧
    t.fld a dHolder = s.fld a dHolder ∧ t.fld a dWaiting = (s.fld a dWaiting + 1) % 2 ^ 20 ∧
    t.fld a (dInline (inlineCount (s.desc a))) = handleOf w req ∧
    t.fld a dMode = (if s.fld a dMode = 0 ∧ s.fld a dPin = 0 ∧ 2 ≤ s.fld a dWaiting then 1 else s.fld a dMode)
  (r = .acq → hears → free → gets (.acqAtHome id) (fun y => y.pc = x.pc + 4 ∧ x.SameG y) 0) ∧
  (r = .tryAcq → hears → free → gets (.tryacqAtHome id) (fun y => y.pc = x.pc + 4 ∧ x.WroteG y m.rd 1) 0) ∧
  (∀ pc args, r = .lockRun pc args → pc.toNat % 4 = 0 → s.fld a dMode ≠ 2 → hears → free → gets (.lockrunAtHome id)
    (fun y => y.pc = pc ∧ y.g 1 = x.pc + 4 ∧ y.g 10 = dbl a ∧ (∀ i, i < 6 → y.g (BitVec.ofNat 5 (4 + i)) = args.getD i 0) ∧
      y.routines = .caller a m.rd :: x.routines ∧
      (∀ q : BitVec 5, q ≠ 1 → q.toNat < 4 ∨ 10 < q.toNat → y.g q = x.g q)) 1) ∧
  (r = .acq → taken → inlineCount (s.desc a) < 4 → waits (.acqAtHome id) 0) ∧
  (∀ pc args, r = .lockRun pc args → pc.toNat % 4 = 0 → taken → inlineCount (s.desc a) < 4 → waits (.lockrunAtHome id) 1) ∧
  (r = .tryAcq → hears → taken → ∃ t, exec (.tryacqAtHome id) s = .next t ∧ only t ∧ s.OtherSlots t w ∧ x.WroteG (t.slot w) m.rd 0 ∧
    (t.slot w).pc = x.pc + 4 ∧ (t.slot w).locks = x.locks ∧ t.fld a dHolder = s.fld a dHolder) ∧
  (r = .rel → s.heldBy a w = true →
    (handleOk (s.fld a (dInline 0)) = false → ∃ t, exec (.relAtHome id) s = .next t ∧ only t ∧ s.SameSlots t ∧ t.fld a dHolder = 0 ∧
      t.msg? id = some { m with body := .ack a none false }) ∧
    (∀ v q, v.core < 65536 → v.slot < 8 → s.fld a (dInline 0) = handleOf v 0 →
      linkBlock (s.fld a dHead) = none → (s.obj a).marked = [] → (s.obj a).big.headD false = false → s.waitingMsg v a = some (q, none) → q.id ≠ id → (s.slot v).park = .lock a q.id →
      ∃ t, exec (.relAtHome id) s = .next t ∧ only t ∧ t.fld a dHolder = handleOf v 0 ∧ t.msg? id = some { m with body := .ack a none false } ∧
        ((s.drop q.id).hears v.core = true → s.OtherSlots t v ∧ (t.slot v).locks = (s.slot v).locks ++ [a] ∧
          (t.slot v).pc = (s.slot v).pc + 4 ∧ (t.slot v).park = .ready) ∧
        ((s.drop q.id).hears v.core = false → s.SameSlots t ∧ ∃ p ∈ t.net, p.body = .answer v (.granted a q.id 0 false))))

/-- R107, R112, R114 and R118: a direct, combined or engine arrival is counted at the home of a barrier whose phase has
more to come; the last one of a phase with no action starts the counts again, advances the phase and sends the release
to every core that took part. That waiting starts again at parts is the model's choice (log entry 38).  R112, R113 and
R117: a release that reaches a core gives the phase result to every slot that watches the object, and completes an
AWAIT parked there; arming binds a node to the object's current phase and disarming removes it; a node forwards its
pending arrivals as one combined arrival, the 8 cycles being of the model's own clock (log entry 7). -/
def Obligations.Barriers : Prop :=
  (∀ (s : State) (id a : Nat) (m : Msg) (r : SyncReq),
    let k := rawKey a
    let n := s.fld a dDirect + s.fld a dCombined
    s.msg? id = some m → m.body = .sync a r → s.mayAct (homeOf a) id = true → s.inOrder m = true →
    s.wrongUse a m.src.core [2] = false → s.fld a dRedop = 0 → id < s.nextId →
    let only := fun (t : State) => (∀ j, j < k ∨ k + 64 ≤ j → t.byte j = s.byte j) ∧ s.SameSlots t
    let more := fun (i : Instr) (x : Nat) (f : Fld) => n + x < s.fld a dParts → f.get (s.desc a) + x < 2 ^ 20 →
      ∃ t, exec i s = .next t ∧ only t ∧ t.fld a f = s.fld a f + x ∧ t.fld a dPhase = s.fld a dPhase ∧
        t.fld a dWaiting = s.fld a dParts - (n + x)
    let last := fun (i : Instr) (x : Nat) => (s.obj a).work = none → s.fld a dAction = 0 → n + x = s.fld a dParts → 0 < x → ∃ t, exec i s = .next t ∧ only t ∧
      t.fld a dDirect = 0 ∧ t.fld a dCombined = 0 ∧ t.fld a dPhase = (s.fld a dPhase + 1) % 2 ^ 32 ∧
      t.fld a dWaiting = s.fld a dParts
    let released := fun (t : State) (c : Nat) => ∃ q todo cores, q ∈ t.net ∧ q.body = .release a (s.fld a dPhase) 0 todo cores ∧ c ∈ todo
    (∀ v tag stamp, r = .arrive v tag stamp →
      more (.directArrival id) 1 dDirect ∧ last (.directArrival id) 1 ∧
      ((s.obj a).work = none → s.fld a dAction = 0 → n + 1 = s.fld a dParts → ∃ t, exec (.directArrival id) s = .next t ∧ released t m.src.core ∧
        t.msg? id = some { m with body := .ack a none true })) ∧
    (∀ level unit phase xs first end_ ms, r = .combined level unit phase xs first end_ ms → phase % 2 ^ 32 = s.fld a dPhase →
      more (.combinedArrival id) xs.length dCombined ∧ last (.combinedArrival id) xs.length) ∧
    (∀ bytes stamp launch, r = .engine bytes stamp launch →
      more (.engineArrival id) 1 dDirect ∧ last (.engineArrival id) 1)) ∧
  (∀ (s : State) (id a phase core slot level unit : Nat) (m : Msg) (r : Word) (todo cores : List Nat) (n : Node),
    let x := s.slot ⟨core, slot⟩
    (s.msg? id = some m → m.body = .release a phase r todo cores → core ∈ todo → s.mayAct core id = true → slot < slotCount core →
      x.occ = true → x.watch = some ⟨a, none⟩ →
      ∃ t, exec (.releaseReachesCore id core) s = .next t ∧ s.SameMemory t ∧
        (∀ rd, x.park = .await a rd → x.WroteG (t.slot ⟨core, slot⟩) rd r ∧ (t.slot ⟨core, slot⟩).watch = none ∧
          (t.slot ⟨core, slot⟩).pc = x.pc + 4 ∧ (t.slot ⟨core, slot⟩).park = .ready) ∧
        (x.park = .ready → (t.slot ⟨core, slot⟩).watch = some ⟨a, some r⟩ ∧ x.SameRegs (t.slot ⟨core, slot⟩) ∧ (t.slot ⟨core, slot⟩).pc = x.pc) ∧
        (cores.contains core = true → (s.core core).staged.isSome = true → (t.core core).goLive = true)) ∧
    (s.msg? id = some m → m.body = .arming a phase level unit true → s.coreRuns (unit * domainCores level) = true → (∀ q ∈ s.net, id ≤ q.id) → s.nodes.find? (fun n => n.named a level unit) = none →
      ∃ t, exec (.nodeArming id) s = .next t ∧ s.SameMemory t ∧ s.SameSlots t ∧ ∃ k, t.nodes = s.nodes ++ [k] ∧ k.desc = a ∧ k.level = level ∧
        k.unit = unit ∧ k.phase = s.fld a dPhase ∧ k.contribs = []) ∧
    (s.msg? id = some m → m.body = .arming a phase level unit false → s.coreRuns (unit * domainCores level) = true → (∀ q ∈ s.net, id ≤ q.id) →
      s.nodes.find? (fun n => n.named a level unit) = some n → n.contribs = [] →
      ∃ t, exec (.nodeArming id) s = .next t ∧ s.SameMemory t ∧ s.SameSlots t ∧ t.nodes = s.nodes.filter (fun k => !k.named a level unit)) ∧
    (s.nodes.find? (fun n => n.named a level unit) = some n → n.contribs ≠ [] → 80 ≤ (s.sys.meridian - n.since) * 17 →
      s.coreRuns n.firstCore = true →
      s.nodes.any (fun k => k.named a (level + 1) (n.firstCore / domainCores (level + 1)) && decide (k.phase = n.phase)) = false →
      ∃ t q, exec (.nodeForward a level unit) s = .next t ∧ s.SameMemory t ∧ s.SameSlots t ∧ t.net = s.net ++ [q] ∧
        q.body = .sync a (.combined level unit n.phase n.contribs n.first n.last n.members) ∧
        t.nodes.find? (fun k => k.named a level unit) = some { n with contribs := [], members := [] }))

/-- R110, R115 and R237: a routine or action shipped to an owner parked in SYNCSERVE wakes it with the work in its
registers; its SYNCDONE at the home ends the work, and with no waiter frees the lock; the result completes the
requester's LOCKRUN with g4, or with 1 when the owner departed. With rd = g4 the status stays, the model's choice (log
entry 38).  R104, R110, R121 and R123: at the home an owner's SYNCSERVE makes it the serving owner; SYNCPOL rewrites
the policy fields and returns 0, or leaves them and returns 1; SYNCFREE frees an idle object; a departure clears
serving and takes an unpinned DELEGATE lock back to QUEUE; a killed thread that waits is marked (R370). The requesting
slot goes on in the home's own step (the model's reading, log entry 19), where its core hears it (R344). -/
def Obligations.ObjectsAndDelegation : Prop :=
  (∀ (s : State) (id a q : Nat) (m : Msg) (owner w : Who) (pc v phase : Word) (args : List Word) (lock : Nat),
    let x := s.slot owner
    let y := s.slot w
    (s.msg? id = some m → m.body = .work a owner (.routine w pc args) → x.park = .serve a → x.serving = some a → s.mayAct owner.core id = true →
      ∃ t, exec (.delegatedWorkAtOwner id) s = .next t ∧ s.SameMemory t ∧ s.OtherSlots t owner ∧ (t.slot owner).pc = pc ∧
        (t.slot owner).park = .ready ∧ (t.slot owner).g 1 = x.pc ∧ (t.slot owner).g 10 = dbl a ∧ (t.slot owner).g 11 = dbl (handleOf w 1) ∧
        (∀ i, i < 6 → (t.slot owner).g (BitVec.ofNat 5 (4 + i)) = args.getD i 0) ∧ (t.slot owner).routines = .delegated a w :: x.routines) ∧
    (s.msg? id = some m → m.body = .work a owner (.action pc v phase) → x.park = .serve a → x.serving = some a → s.mayAct owner.core id = true →
      ∃ t, exec (.delegatedWorkAtOwner id) s = .next t ∧ s.SameMemory t ∧ s.OtherSlots t owner ∧ (t.slot owner).pc = pc ∧
        (t.slot owner).g 4 = v ∧ (t.slot owner).g 5 = phase ∧ (t.slot owner).g 10 = dbl a ∧ (t.slot owner).routines = .action a :: x.routines) ∧
    (s.msg? id = some m → m.body = .sync a (.done v) → s.mayAct (homeOf a) id = true → s.inOrder m = true →
      s.wrongUse a m.src.core [1, 2] = false → s.fld a dKind = 1 → (s.obj a).work = some (.caller m.src) → handleOk (s.fld a (dInline 0)) = false →
      ∃ t, exec (.syncdoneAtHome id) s = .next t ∧ s.SameSlots t ∧ t.fld a dHolder = 0 ∧ (t.obj a).work = none ∧
        t.msg? id = some { m with body := .ack a none false }) ∧
    (s.msg? id = some m → m.body = .runResult w q (some v) → s.mayAct w.core id = true → y.park = .lock lock q →
      ∃ t, exec (.lockrunResult id) s = .next t ∧ s.SameMemory t ∧ s.OtherSlots t w ∧ (t.slot w).pc = y.pc + 4 ∧ (t.slot w).park = .ready ∧
        (∀ r, (t.slot w).g r = if r = 0 then 0 else if r = m.rd then 0 else if r = 4 then v else y.g r)) ∧
    (s.msg? id = some m → m.body = .runResult w q none → s.mayAct w.core id = true → y.park = .lock lock q →
      ∃ t, exec (.lockrunResult id) s = .next t ∧ s.SameMemory t ∧ s.OtherSlots t w ∧ (t.slot w).pc = y.pc + 4 ∧ y.WroteG (t.slot w) m.rd 1)) ∧
  (∀ (s : State) (id a : Nat) (m : Msg) (r : SyncReq),
    let x := s.slot m.src
    let k := rawKey a
    s.msg? id = some m → m.body = .sync a r → s.mayAct (homeOf a) id = true → s.inOrder m = true →
    let only := fun (t : State) => (∀ j, j < k ∨ k + 64 ≤ j → t.byte j = s.byte j)
    let used := s.wrongUse a m.src.core [1, 2]
    let hears := (s.drop id).hears m.src.core = true
    (r = .serve → used = false → dOwner (s.desc a) = m.src → x.park = .serve a →
      ∃ t, exec (.syncserveAtHome id) s = .next t ∧ only t ∧ s.OtherSlots t m.src ∧ t.fld a dServing = 1 ∧
        (t.slot m.src).serving = some a ∧ (t.slot m.src).park = .serve a) ∧
    (∀ img, r = .pol (leBytes 64 img) → used = false → dPin.get img = 0 → dOwner img = dOwner (s.desc a) → img < 2 ^ 512 → x.park = .reply id → hears →
      ∃ t, exec (.syncpolAtHome id) s = .next t ∧ only t ∧ s.OtherSlots t m.src ∧ x.WroteG (t.slot m.src) m.rd 0 ∧ (t.slot m.src).pc = x.pc + 4 ∧
        (∀ f ∈ [dTcont, dTskew, dWindow, dOcore, dOslot, dPin], t.fld a f = f.get img) ∧ t.fld a dMode = s.fld a dMode) ∧
    (∀ img, r = .pol (leBytes 64 img) → used = false → dPin.get img = 1 → dMode.get img = 3 → img < 2 ^ 512 → x.park = .reply id → hears →
      ∃ t, exec (.syncpolAtHome id) s = .next t ∧ only t ∧ s.OtherSlots t m.src ∧ x.WroteG (t.slot m.src) m.rd 1 ∧
        (∀ f ∈ [dTcont, dTskew, dWindow, dOcore, dOslot, dPin, dMode, dMulti], t.fld a f = s.fld a f) ∧ t.obj a = s.obj a) ∧
    (r = .syncFree → used = false → s.inUse a = false → x.park = .reply id → hears →
      ∃ t, exec (.syncfreeAtHome id) s = .next t ∧ only t ∧ s.OtherSlots t m.src ∧ t.fld a dKind = 0 ∧ (t.slot m.src).pc = x.pc + 4 ∧
        x.SameG (t.slot m.src) ∧ (t.slot m.src).park = .ready) ∧
    (∀ w, r = .depart w → s.fld a dKind = 1 → ownedBy (s.desc a) w = true → (s.obj a).work = none → s.fld a dPin = 0 → s.fld a dMode = 2 →
      ∃ t, exec (.ownerDeparture id) s = .next t ∧ only t ∧ s.SameSlots t ∧ t.fld a dServing = 0 ∧ t.fld a dMode = 1 ∧ t.fld a dCalm = 0) ∧
    (∀ w, r = .killMark w → s.fld a dKind = 1 → (s.waitingThreads a).contains w = true →
      ∃ t, exec (.killMark id) s = .next t ∧ only t ∧ s.SameSlots t ∧ (t.obj a).marked = (s.obj a).marked ++ [w]))

/-! ### Traps and system instructions: majors 0x32 and 0x33 -/

/-- R170, R350 and R352: a cause enters the user handler where it is delegated, the machine handler in the cases that
R350 names, and the supervisor handler otherwise; it waits for outstanding relaxed accesses, one of which displaces it
when it carries a cause; only a SIGFLOOR that is taken writes csr.sigtrap (R102); and with no handler free the thread is killed
and a record posted (R355). -/
def Obligations.TrapEntry : Prop := ∀ (s : State) (c : Cause) (v : Word) (code : BitVec 12),
  let x := s.me
  let value := code.zeroExtend 64
  (x.userTrap c = true ↔ x.mode = .user ∧ x.csr.utvec ≠ 0 ∧ x.csr.uinh = false ∧
    ((c = .rangeLocked ∧ x.csr.udeleg.getLsbD 7 = true) ∨ (c = .sigfloor ∧ x.csr.udeleg.getLsbD 8 = true) ∨
      (c = .fpexc ∧ x.csr.udeleg.getLsbD 9 = true) ∨ (c = .trap ∧ x.csr.udeleg.getLsbD 14 = true))) ∧
  (x.toMachine c v = true ↔ x.mode = .machine ∨ x.sup.status.getLsbD 0 = true ∨ x.sup.tvec = 0 ∨
    (c = .syscall ∧ x.mode = .super) ∨ (c = .priv ∧ x.mode = .super ∧ v = 0xC8000002)) ∧
  (x.outstanding = [] → x.relaxedFault = none → x.canEnter .trap value = true →
    ∃ t, exec (.trap code) s = .next t ∧ s.OnlySlot t ∧ x.Enters t.me .trap value ∧ t.me.park = .ready) ∧
  (x.outstanding ≠ [] → ∃ t k, exec (.trap code) s = .next t ∧ s.OnlySlot t ∧ x.SameRegs t.me ∧ t.me.pc = x.pc ∧ t.me.mode = x.mode ∧
    t.me.pend = some ⟨.trap, value, none⟩ ∧ t.me.park = .wait .relaxed k) ∧
  (∀ r w, x.outstanding = [] → x.relaxedFault = some (r, c, w) → x.canEnter c w = true →
    ∃ t, exec (.trap code) s = .next t ∧ s.OnlySlot t ∧ x.Enters t.me c w ∧ t.me.relaxed = x.relaxed.filter (fun q => q.id != r.id)) ∧
  (x.outstanding = [] → x.relaxedFault = none → x.canEnter .trap value = false → x.occ = true → x.park = .ready →
    ∃ t, exec (.trap code) s = .next t ∧ t.me.occ = false ∧
      (if (s.part x.part).fqtail - (s.part x.part).fqhead < (s.part x.part).fqsize
        then (t.part x.part).fqtail = (s.part x.part).fqtail + 1
        else (t.part x.part).fqlost = min (2 ^ 64 - 1) ((s.part x.part).fqlost + 1)) ∧
      s.Records t x.part 14 0 s.cur.core s.cur.slot value.toNat x.pc.toNat) ∧
  (∀ core slot sg, s.coreRuns core = true → (s.slot ⟨core, slot⟩).pend = some ⟨c, v, sg⟩ → (s.slot ⟨core, slot⟩).outstanding = [] → c ≠ .brk →
    let y := s.slot ⟨core, slot⟩
    let goes := fun (z : Slot) (e : Cause) (n : Word) => z.canEnter e n = true → ∃ t, exec (.trapEntry core slot) s = .next t ∧
      z.Enters (t.slot ⟨core, slot⟩) e n ∧ (t.slot ⟨core, slot⟩).park = .ready ∧ s.OtherSlots t ⟨core, slot⟩ ∧ s.SameMemory t ∧
      s.SameCores t ∧ s.SameTiles t
    (y.relaxedFault = none → goes { y with csr := { y.csr with sigtrap := sg.getD y.csr.sigtrap } } c v) ∧
    (∀ r e w, y.relaxedFault = some (r, e, w) → goes y e w))

/-- R170, R305 to R308, R351 and R388: NOP only moves the PC; TSTAMP reads Meridian and never goes back; SYSCALL and
BRK enter their handler, BRK to wait for the debugger that holds the slot; ERET
returns through the registers of its mode, and without inh takes PRIV; and the debugger lets a slot go on.  The 2 ns by which
a core's reading may lie ahead of the package's Meridian (log entry 8) and the form of the debugger's hold (log entry 24)
are the model's choices. -/
def Obligations.SystemInstructions : Prop := ∀ (s : State) (d : BitVec 5) (code : BitVec 12) (core slot : Nat),
  let x := s.me
  let value := code.zeroExtend 64
  let returns := fun (pc : Word) (m : Mode) (f : Slot → Slot) => ∃ t, exec .eret s = .next t ∧ s.OnlySlot t ∧ t.me.pc = pc ∧
    t.me.mode = m ∧ t.me.park = .ready ∧ x.SameG t.me ∧ x.SameV t.me ∧ t.me.pw = x.pw ∧ t.me.csr = (f x).csr ∧ t.me.sup = (f x).sup ∧
    t.me.mach = (f x).mach ∧ t.me.relaxed = x.relaxed ∧ t.me.locks = x.locks
  let mode := fun (st : BitVec 3) => if st.toNat / 2 = 1 then Mode.super else if st.toNat / 2 = 2 then .machine else .user
  s.Computes .nop Slot.SameRegs ∧
  (∃ t v, exec (.tstamp d) s = .next t ∧ s.OnlySlot t ∧ x.WroteG t.me d (BitVec.ofNat 64 v) ∧ x.SameV t.me ∧ t.me.pw = x.pw ∧
    t.me.csr = x.csr ∧ t.me.pc = x.pc + 4 ∧ t.me.lastStamp = v ∧ x.lastStamp ≤ v ∧ s.sys.meridian ≤ v ∧
    (x.lastStamp ≤ s.sys.meridian → v ≤ s.sys.meridian + 2)) ∧
  (x.relaxed = [] → x.unacked = [] → x.canEnter .syscall value = true →
    ∃ t, exec (.syscall code) s = .next t ∧ s.OnlySlot t ∧ x.Enters t.me .syscall value ∧ t.me.park = .ready) ∧
  (x.relaxed = [] → x.canEnter .brk value = true →
    ∃ t, exec (.brk code) s = .next t ∧ s.OnlySlot t ∧ x.Enters t.me .brk value ∧
      t.me.park = (if x.debug = true ∧ t.me.mode = .super then .debugger else .ready)) ∧
  (x.mode = .user → x.csr.uinh = true → returns x.csr.uepc .user (fun y => { y with csr := { y.csr with uinh := false } })) ∧
  (x.mode = .super → x.sup.status.getLsbD 0 = true → returns x.sup.epc (mode x.sup.status)
    (fun y => { y with sup := { y.sup with status := y.sup.status &&& 6 } })) ∧
  (x.mode = .machine → x.mach.status.getLsbD 0 = true → returns x.mach.epc (mode x.mach.status)
    (fun y => { y with mach := { y.mach with status := y.mach.status &&& 6 } })) ∧
  ((x.mode = .user ∧ x.csr.uinh = false) ∨ (x.mode = .super ∧ x.sup.status.getLsbD 0 = false) ∨
      (x.mode = .machine ∧ x.mach.status.getLsbD 0 = false) →
    exec .eret s = .next (s.trapAt s.cur .priv 0xC8000002)) ∧
  (s.coreRuns core = true → (s.slot ⟨core, slot⟩).park = .debugger → ∃ t, exec (.debuggerRelease core slot) s = .next t ∧ (t.slot ⟨core, slot⟩).park = .ready ∧
    (t.slot ⟨core, slot⟩).mode = (s.slot ⟨core, slot⟩).mode ∧ (t.slot ⟨core, slot⟩).pc = (s.slot ⟨core, slot⟩).pc ∧
    (s.slot ⟨core, slot⟩).SameRegs (t.slot ⟨core, slot⟩) ∧ s.OtherSlots t ⟨core, slot⟩ ∧ s.SameMemory t ∧ s.SameCores t)

/-- R10, R11, R13, R309, R310 and R390: PTBLW stages a table of codes 0-8 that names the service slot at its four
entries and spaces a slot's entries by 8, and any other, or a large core, takes ILLEGAL with the staged table as it was; a
staged table
goes live at entry 0 of the frame after its release; and TRIG records its event, or reads 0 where none is wanted. -/
def Obligations.TablesAndTraces : Prop := ∀ (s : State) (h l d a : BitVec 5) (code : BitVec 12) (core : Nat) (t : Vector (BitVec 4) 32),
  let e := fun (k : Nat) => (if k < 16 then (s.g l).toNat / 2 ^ (4 * k) else (s.g h).toNat / 2 ^ (4 * (k - 16))) % 16
  let dist := fun (i j : Nat) => min (max i j - min i j) (32 - (max i j - min i j))
  let good := (∀ k, k < 32 → e k ≤ 8) ∧ (∀ k, k < 32 → k % 8 = 7 → e k = 7) ∧
    (∀ i j, i < 32 → j < 32 → i ≠ j → e i = e j → e i ≠ 8 → 8 ≤ dist i j)
  let ev : Event := { kind := 3, slot := s.cur.slot, sub := 0, code := code.toNat, payload := s.g a }
  let k := s.core s.cur.core
  (good → isLarge s.cur.core = false → ∃ u, (∀ n, n < 32 → (u.toList.getD n 0).toNat = e n) ∧
    s.ComputesCore (.ptblw h l) s.cur.core { k with staged := some u } Slot.SameRegs) ∧
  (¬ good ∨ isLarge s.cur.core = true → exec (.ptblw h l) s = .next (s.trapAt s.cur .illegal (BitVec.ofNat 64 (0xC8000007 + h.toNat * 2 ^ 21 + l.toNat * 2 ^ 16)))) ∧
  (s.coreRuns core = true → (s.core core).staged = some t → (s.core core).goLive = true → (s.core core).pos = 0 →
    ∃ u, exec (.stagedTableGoesLive core) s = .next u ∧ u.core core = { s.core core with live := t, staged := none, goLive := false } ∧
      s.OtherCores u core ∧ s.SameSlots u ∧ s.SameMemory u ∧ s.SameTiles u) ∧
  (k.trace.wants ev = false → s.ComputesG (.trig d a code) d 0) ∧
  (k.trace.wants ev = true → k.trace.full = false → k.trace.reading = false → k.trace.lastHigh = some (s.clock s.cur.core / 2 ^ 44) →
    ∃ u, exec (.trig d a code) s = .next u ∧ s.me.WroteG u.me d 1 ∧ s.me.SameV u.me ∧ u.me.pc = s.me.pc + 4 ∧
      mapGet (u.core s.cur.core).trace.events 0 k.trace.next = ev.bits (s.clock s.cur.core) ∧
      (u.core s.cur.core).trace.next = (k.trace.next + 1) % 1024 ∧ s.OtherSlots u s.cur ∧ s.OtherCores u s.cur.core ∧ s.SameMemory u)

/-- R167 to R169, R311, R348 and R349: each CSR reads as its field and is written through its map; CSRS and CSRC with
g0 only read; a number above the mode takes PRIV, and an unassigned number or a write of a read-only CSR ILLEGAL. -/
def Obligations.CsrInstructions : Prop := ∀ (s : State) (d a : BitVec 5) (n : BitVec 12),
  let x := s.me
  let word := fun (v : Word) => v &&& ~~~(3 : Word)
  let user : List (BitVec 12 × Word × (Word → Slot)) :=
    [(0x001, x.csr.fpctl.zeroExtend 64, fun v => { x with csr := { x.csr with fpctl := v.truncate 13 } }),
     (0x002, x.csr.winsig.zeroExtend 64, fun v => { x with csr := { x.csr with winsig := winsigWrite v } }),
     (0x003, x.csr.olscale.zeroExtend 64, fun v => { x with csr := { x.csr with olscale := v.truncate 17 } }),
     (0x004, x.csr.sigfloor.zeroExtend 64, fun v => { x with csr := { x.csr with sigfloor := v.truncate 7 } }),
     (0x007, (x.pw ||| 1).zeroExtend 64, fun v => { x with pw := v.truncate 16 ||| 1 }),
     (0x011, x.csr.utvec, fun v => { x with csr := { x.csr with utvec := word v } }),
     (0x012, x.csr.uepc, fun v => { x with csr := { x.csr with uepc := word v } })]
  let above : List (BitVec 12 × Word × (Word → Slot)) :=
    [(0x015, x.csr.udeleg.zeroExtend 64, fun v => { x with csr := { x.csr with udeleg := v.truncate 15 &&& 0x4380 } }),
     (0x100, x.sup.status.zeroExtend 64, fun v => { x with sup := { x.sup with status := v.truncate 3 } }),
     (0x101, x.sup.tvec, fun v => { x with sup := { x.sup with tvec := word v } }),
     (0x102, x.sup.epc, fun v => { x with sup := { x.sup with epc := word v } }),
     (0x105, x.sup.scratch, fun v => { x with sup := { x.sup with scratch := v } })]
  let machine : List (BitVec 12 × Word × (Word → Slot)) :=
    [(0x103, x.sup.cause, fun v => { x with sup := { x.sup with cause := v &&& 0xFF } }),
     (0x104, x.sup.tval, fun v => { x with sup := { x.sup with tval := v } }),
     (0x400, x.mach.status.zeroExtend 64, fun v => { x with mach := { x.mach with status := v.truncate 3 } }),
     (0x401, x.mach.tvec, fun v => { x with mach := { x.mach with tvec := word v } }),
     (0x402, x.mach.epc, fun v => { x with mach := { x.mach with epc := word v } }),
     (0x403, x.mach.cause, fun v => { x with mach := { x.mach with cause := v &&& 0xFF } }),
     (0x404, x.mach.tval, fun v => { x with mach := { x.mach with tval := v } }),
     (0x405, x.mach.scratch, fun v => { x with mach := { x.mach with scratch := v } })]
  let readOnly : List (BitVec 12 × Word) :=
    [(0x005, x.csr.sigtrap.zeroExtend 64), (0x006, x.csr.mtxerr), (0x010, if x.csr.uinh then 1 else 0),
     (0x013, x.csr.ucause.zeroExtend 64), (0x014, x.csr.utval), (0x021, x.pid.zeroExtend 64), (0x020, coreidValue s.cur)]
  let writes := fun (p : BitVec 12 × Word × (Word → Slot)) (i : Instr) (v : Word) =>
    exec i s = .next (s.setMe (((p.2.2 v).setG d p.2.1).next))
  let full := fun (p : BitVec 12 × Word × (Word → Slot)) =>
    s.ComputesG (.csrr d p.1) d p.2.1 ∧ writes p (.csrw d a p.1) (s.g a) ∧
    (a ≠ 0 → writes p (.csrs d a p.1) (p.2.1 ||| s.g a) ∧ writes p (.csrc d a p.1) (p.2.1 &&& ~~~(s.g a))) ∧
    s.ComputesG (.csrs d 0 p.1) d p.2.1 ∧ s.ComputesG (.csrc d 0 p.1) d p.2.1
  let reads := fun (p : BitVec 12 × Word) =>
    s.ComputesG (.csrr d p.1) d p.2 ∧ s.ComputesG (.csrs d 0 p.1) d p.2 ∧ s.ComputesG (.csrc d 0 p.1) d p.2 ∧
    (∀ i ∈ [Instr.csrw d a p.1] ++ (if a = 0 then [] else [.csrs d a p.1, .csrc d a p.1]), exec i s = .next (s.trapAt s.cur .illegal (wordOf i)))
  (∀ p ∈ user, full p) ∧ (∀ p ∈ readOnly, reads p) ∧
  (x.mode = .user → reads (0x015, x.csr.udeleg.zeroExtend 64)) ∧
  (x.mode ≠ .user → (∀ p ∈ above, full p) ∧ reads (0x106, sctxValue x)) ∧
  (x.mode = .super → reads (0x103, x.sup.cause) ∧ reads (0x104, x.sup.tval)) ∧
  (x.mode = .machine → ∀ p ∈ machine, full p) ∧
  (s.cur.core < 65536 → s.cur.slot < 8 → coreidValue s.cur = BitVec.ofNat 64 (s.cur.slot * 2 ^ 16 + s.cur.core)) ∧
  (∀ v : Word, (∀ k, k < 6 → (winsigWrite v).toNat / 2 ^ (6 * k) % 64 =
      (if 25 ≤ v.toNat / 2 ^ (6 * k) % 64 ∧ v.toNat / 2 ^ (6 * k) % 64 ≤ 62 then 24 else v.toNat / 2 ^ (6 * k) % 64)) ∧
    (winsigWrite v).toNat / 2 ^ 36 = 0xFFF) ∧
  (∀ i ∈ [Instr.csrr d n, .csrw d a n, .csrs d a n, .csrc d a n],
    ((x.mode = .user ∧ 0x100 ≤ n.toNat ∧ n.toNat < 0x800) ∨ (x.mode = .super ∧ 0x400 ≤ n.toNat ∧ n.toNat < 0x800) →
      exec i s = .next (s.trapAt s.cur .priv (wordOf i))) ∧
    (0x800 ≤ n.toNat ∨ n = 0 ∨ n = 0x008 ∨ n = 0x022 ∨ (x.mode ≠ .user ∧ n = 0x107) ∨ (x.mode = .machine ∧ n = 0x406) →
      exec i s = .next (s.trapAt s.cur .illegal (wordOf i))))

/-! ### Vector operations: majors 0x25-0x2C -/

/-- R66, R262, R267 and R268: the integer vector operations on elements of w bits: wrapped, or clamped to the format's
range under .sat; every lane of v[d] is EXACT, but a VSEL of 32 or 64 bits moves tags with its data; and nothing else is
written. -/
def Obligations.VectorIntegers : Prop := ∀ (s : State) (d a b : BitVec 5) (f : BitVec 3) (sat : BitVec 1),
  let w := 8 * 2 ^ (f.toNat % 4)
  let elem := fun (x : Slot) (r : BitVec 5) (k : Nat) => x.vnat (vnum r) / 2 ^ (w * k) % 2 ^ w
  let u := elem s.me a
  let v := elem s.me b
  let sgn := fun (n w : Nat) => if n < 2 ^ (w - 1) then (n : Int) else n - 2 ^ w
  let own := fun (n : Nat) => if 4 ≤ f.toNat then (n : Int) else sgn n w
  let lo : Int := if 4 ≤ f.toNat then 0 else -(2 ^ (w - 1))
  let hi : Int := if 4 ≤ f.toNat then 2 ^ w - 1 else 2 ^ (w - 1) - 1
  let narrow := fun (x : Int) => ((if sat = 1 then max lo (min hi x) else x) % 2 ^ w).toNat
  let ones := fun (b : Bool) => if b then 2 ^ w - 1 else 0
  let lanes := fun (i : Instr) (R : Slot → Prop) (tag : Nat → Tag) => s.Computes i (fun x y => R y ∧ (∀ l, l < 4 → y.tag (vnum d) l = tag l) ∧
    (∀ r l, r ≠ vnum d → y.lane r l = x.lane r l ∧ y.tag r l = x.tag r l) ∧ x.SameG y ∧ y.pw = x.pw ∧ y.csr = x.csr)
  let gives := fun (i : Instr) (op : Nat → Nat) => lanes i (fun y => ∀ k, k * w < 128 → elem y d k = op k) (fun _ => Tag.exact)
  let picks := fun (k : Nat) => decide (2 ^ (w - 1) ≤ elem s.me d k)
  let clamp32 := fun (x : Int) => BitVec.ofInt 32 (if sat = 1 then max (-2147483648) (min 2147483647 x) else x)
  gives (.vadd d a b f sat) (fun k => narrow (own (u k) + own (v k))) ∧
  gives (.vsub d a b f sat) (fun k => narrow (own (u k) - own (v k))) ∧
  gives (.vmul d a b f sat) (fun k => narrow (own (u k) * own (v k))) ∧
  (sat = 0 → gives (.vadd d a b f sat) (fun k => (u k + v k) % 2 ^ w) ∧ gives (.vmul d a b f sat) (fun k => u k * v k % 2 ^ w) ∧
    gives (.vsub d a b f sat) (fun k => (u k + 2 ^ w - v k) % 2 ^ w)) ∧
  gives (.vmin d a b f) (fun k => if sgn (u k) w ≤ sgn (v k) w then u k else v k) ∧
  gives (.vmax d a b f) (fun k => if sgn (v k) w ≤ sgn (u k) w then u k else v k) ∧
  gives (.vminu d a b f) (fun k => min (u k) (v k)) ∧
  gives (.vmaxu d a b f) (fun k => max (u k) (v k)) ∧
  gives (.vand d a b f) (fun k => u k &&& v k) ∧
  gives (.vor d a b f) (fun k => u k ||| v k) ∧
  gives (.vxor d a b f) (fun k => u k ^^^ v k) ∧
  gives (.vsll d a b f) (fun k => u k * 2 ^ (v k % w) % 2 ^ w) ∧
  gives (.vsrl d a b f) (fun k => u k / 2 ^ (v k % w)) ∧
  gives (.vsra d a b f) (fun k => (sgn (u k) w / 2 ^ (v k % w) % 2 ^ w).toNat) ∧
  gives (.vcmpeq d a b f) (fun k => ones (decide (u k = v k))) ∧
  gives (.vcmplt d a b f) (fun k => ones (decide (sgn (u k) w < sgn (v k) w))) ∧
  gives (.vcmpltu d a b f) (fun k => ones (decide (u k < v k))) ∧
  lanes (.vsel d a b f) (fun y => ∀ k, k * w < 128 → elem y d k = if picks k then u k else v k)
    (fun l => if w < 32 then Tag.exact else if picks (32 * l / w) then s.me.tag (vnum a) l else s.me.tag (vnum b) l) ∧
  (sat = 0 → gives (.vpsum d a f sat) (fun k => ((List.range (k + 1)).map u).sum % 2 ^ w)) ∧
  lanes (.vpsum d a f sat) (fun y => elem y d 0 = u 0 ∧ ∀ k, (k + 1) * w < 128 → elem y d (k + 1) = narrow (own (elem y d k) + own (u (k + 1))))
    (fun _ => Tag.exact) ∧
  (f.toNat % 4 < 2 → lanes (.vwacc d a b f sat) (fun y => ∀ i, i < 4 →
    y.lane (vnum d) i = clamp32 ((s.me.lane (vnum b) i).toInt + own (u i))) (fun _ => Tag.exact)) ∧
  (f = 0 ∨ f = 4 → lanes (.vdot4 d a b f sat) (fun y => ∀ i, i < 4 → y.lane (vnum d) i =
    clamp32 ((s.me.lane (vnum d) i).toInt + own (u (4 * i)) * own (v (4 * i)) + own (u (4 * i + 1)) * own (v (4 * i + 1)) +
      own (u (4 * i + 2)) * own (v (4 * i + 2)) + own (u (4 * i + 3)) * own (v (4 * i + 3)))) (fun _ => Tag.exact))

/-- R70: a finite value rounded to a format without overflow is the format's nearest value in the direction of the mode,
ties to the even
fraction under RNE; no flag says that it is the value itself, and a difference raises NX.  A number said to lie above m * 2^e,
which holds two bits more than the format, rounds as any number does between that and the next. -/
def Obligations.RoundedOnce : Prop := ∀ (f : Fmt) (rm : Rm) (neg : Bool) (m : Nat) (e : Int), f ∈ [f64, f32, bf16, e5m2, ⟨5, 3, 7⟩] →
  let v := FV.fin neg m e
  let r := (roundFin f rm neg m e false).1
  let fl := (roundFin f rm neg m e false).2
  let le := fun (x y : FV) => cmpFV x y ≤ 0
  (∀ (k : Nat) (d : Int), 2 ^ (f.mb + 2) ≤ m → d ≤ e → m * 2 ^ (e - d).toNat < k → k < (m + 1) * 2 ^ (e - d).toNat →
    roundFin f rm neg m e true = roundFin f rm neg k d false) ∧
  (fl.getLsbD 2 = false →
  r < 2 ^ f.width ∧ f.isFinite r = true ∧ (m ≠ 0 → f.sign r = neg) ∧
  (fl.getLsbD 0 = false ↔ cmpFV (f.value r) v = 0) ∧
  (∀ x, x < 2 ^ f.width → f.isFinite x = true →
    (rm = .rdn → le (f.value r) v ∧ (le (f.value x) v → le (f.value x) (f.value r))) ∧
    (rm = .rup → le v (f.value r) ∧ (le v (f.value x) → le (f.value r) (f.value x))) ∧
    (rm = .rtz → le (absFV (f.value r)) (absFV v) ∧ (le (absFV (f.value x)) (absFV v) → le (absFV (f.value x)) (absFV (f.value r)))) ∧
    (rm = .rne → le (distFV (f.value r) v) (distFV (f.value x) v) ∧
      (cmpFV (distFV (f.value r) v) (distFV (f.value x) v) = 0 → cmpFV (f.value x) (f.value r) ≠ 0 → f.frac r % 2 = 0))))

/-- R71, R87, R91, R101, R259, R260 and R269 to R274: the floating-point operations on the elements of a format: one
rounded result each with its tag, flags that accrue or trap, and the floor; a special function parks with the results of
its sources as they stand at its issue, and leaves them when its latency ends, from any state in which it is still parked; a
compare writes predicates, and VFCLASS a class code that is EXACT; and of finite operands each operation is the exact result
rounded once. -/
def Obligations.VectorFloats : Prop := ∀ (s q : State) (pc : Word) (d4 p : BitVec 4) (d a b c : BitVec 5) (f : BitVec 3),
  let x := s.me
  let F := fmtOf f
  let n := if f = 0 then 4 else if f = 1 then 2 else 1
  let u := x.elem f (vnum a)
  let v := x.elem f (vnum b)
  let w := x.elem f (vnum c)
  let su := x.elemSig f (vnum a)
  let sv := x.elemSig f (vnum b)
  let sw := x.elemSig f (vnum c)
  let two := fun (z : State) (o : Host.Outcome State Fault Refusal) (r : Nat → Nat × Flags) (row : Fmt → Nat → Nat → Tag → Tag → Nat → Tag) =>
    z.Finishes o f d4 n r (fun k => F.tagOf (su k == 63 && sv k == 63) (r k).1 (r k).2 (row F (u k) (v k) (su k) (sv k) (r k).1))
  let one := fun (z : State) (o : Host.Outcome State Fault Refusal) (d : BitVec 4) (r : Nat → Nat × Flags) (tag : Nat → Tag) =>
    z.Finishes o f d n r (fun k => F.tagOf (su k == 63) (r k).1 (r k).2 (tag k))
  let fused := fun (i : Instr) (nP nC : Bool) =>
    let r := fun k => fpFma F x.rm nP nC (u k) (v k) (w k)
    s.Finishes (exec i s) f (vnum d) n r (fun k => F.sumTag (su k == 63 && sv k == 63 && sw k == 63) (r k)
      (F.prodUnc (u k) (v k) (su k) (sv k)) (F.unc (w k) (sw k)))
  let parks := fun (i : Instr) => ∃ t, exec i s = .next t ∧ s.OnlySlot t ∧ t.me = { x with park := .special i x.pc (s.specialElems i) }
  let z := ({ q with cur := s.cur } : State).setMe { q.slot s.cur with pc := pc }
  let parked := fun (i : Instr) => (q.slot s.cur).park = .special i pc (s.specialElems i)
  let ends := exec (.specialFunctionResult s.cur.core s.cur.slot) q
  let compares := fun (i : Instr) (op : Nat) =>
    let r := fun k => fpCompare F op (u k) (v k)
    let fl := (List.range n).foldl (fun g k => g ||| (r k).2) (0 : Flags)
    (trapsOn x.csr.fpctl fl = true → exec i s = .next ((s.setMe (x.flagged fl)).trapAt s.cur .fpexc (fl.zeroExtend 64))) ∧
    (trapsOn x.csr.fpctl fl = false → s.Computes i (fun x y => x.SameG y ∧ x.SameV y ∧ y.csr = (x.flagged fl).csr ∧
      ∀ j, y.p j = if j = 0 then true else if p.toNat ≤ j.toNat ∧ j.toNat < p.toNat + n then (r (j.toNat - p.toNat)).1 else x.p j))
  f.toNat < 4 →
  two s (exec (.vfadd d4 a b f) s) (fun k => fpAdd F x.rm (u k) (v k)) addRow ∧
  two s (exec (.vfsub d4 a b f) s) (fun k => fpSub F x.rm (u k) (v k)) addRow ∧
  two s (exec (.vfmul d4 a b f) s) (fun k => fpMul F x.rm (u k) (v k)) mulRow ∧
  two s (exec (.vfmin d4 a b f) s) (fun k => fpMinMax F false (u k) (v k)) minMaxRow ∧
  two s (exec (.vfmax d4 a b f) s) (fun k => fpMinMax F true (u k) (v k)) minMaxRow ∧
  one s (exec (.vfabs d4 a f) s) d4 (fun k => (u k % 2 ^ (F.width - 1), 0)) su ∧
  one s (exec (.vfneg d4 a f) s) d4 (fun k => ((u k + 2 ^ (F.width - 1)) % 2 ^ F.width, 0)) su ∧
  fused (.vfma d a b c f) false false ∧ fused (.vfms d a b c f) false true ∧ fused (.vfnma d a b c f) true false ∧
  fused (.vfnms d a b c f) true true ∧
  parks (.vfdiv d4 a b f) ∧ parks (.vfsqrt d4 a f) ∧ parks (.vexp2 d a f) ∧ parks (.vlog2 d a f) ∧ parks (.vrcp d a f) ∧ parks (.vrsq d a f) ∧
  (q.coreRuns s.cur.core = true →
    (parked (.vfdiv d4 a b f) → two z ends (fun k => fpDiv F x.rm (u k) (v k)) mulRow) ∧
    (parked (.vfsqrt d4 a f) → one z ends d4 (fun k => fpSqrt F x.rm (u k))
      (fun k => F.clampTag (fpSqrt F x.rm (u k)).1 ((su k).toNat + 1))) ∧
    (f = 0 ∨ f = 2 →
      (parked (.vexp2 d a f) → one z ends (vnum d) (fun k => fpExp2 x.rm (u k))
        (fun k => F.clampTag (fpExp2 x.rm (u k)).1 ((su k).toNat - F.lead (u k) - 2))) ∧
      (parked (.vlog2 d a f) → one z ends (vnum d) (fun k => fpLog2 x.rm (u k))
        (fun k => F.clampTag (fpLog2 x.rm (u k)).1 (F.lead (fpLog2 x.rm (u k)).1 - (2 - (su k).toNat) + 1))) ∧
      (parked (.vrcp d a f) → one z ends (vnum d) (fun k => fpRcp x.rm (u k))
        (fun k => F.clampTag (fpRcp x.rm (u k)).1 (su k).toNat)) ∧
      (parked (.vrsq d a f) → one z ends (vnum d) (fun k => fpRsq x.rm (u k))
        (fun k => F.clampTag (fpRsq x.rm (u k)).1 ((su k).toNat + 1))))) ∧
  (p.toNat + n ≤ 16 → compares (.vfcmpeq p a b f) 0 ∧ compares (.vfcmplt p a b f) 1 ∧ compares (.vfcmple p a b f) 2) ∧
  s.Computes (.vfclass d4 a f) (fun x y => x.WroteV y d4
    (fun l => if l / fmtStep f < n then fmtLane f (fun k => fpClass F (u k)) l else x.lane d4 l)
    (fun l => if l / fmtStep f < n then Tag.exact else x.tag d4 l)) ∧
  (∀ g, fpClass F g ∈ [1, 2, 4, 8, 16, 32, 64, 128, 256, 512]) ∧ (∀ rm e1 e2 e3, F.Arithmetic rm e1 e2 e3) ∧
  (f = 0 →
    let t := x.tag (vnum a)
    let r1 := fpAdd F x.rm (u 0) (u 1)
    let r2 := fpAdd F x.rm r1.1 (u 2)
    let t1 := stepTag x.rm (u 0) (t 0) (u 1) (t 1)
    let t2 := stepTag x.rm r1.1 t1 (u 2) (t 2)
    s.Finishes (exec (.vpsumF32 d a) s) 0 (vnum d) 4 (fun k => [(u 0, 0), r1, r2, fpAdd F x.rm r2.1 (u 3)].getD k (0, 0))
      (fun k => [t 0, t1, t2, stepTag x.rm r2.1 t2 (u 3) (t 3)].getD k 0))

/-- R90, R93, R99 and R275 to R281: SIGGET, SIGSET and SIGMIN read, write and reduce tags with the data untouched; BSIG
branches on a tag below its threshold; and the permutes move elements with their tags, or reduce across lanes, each sum with the tag of R91. -/
def Obligations.TagsAndPermutes : Prop := ∀ (s : State) (d a b k : BitVec 5) (v : BitVec 4) (disp : BitVec 16) (f : BitVec 3),
  let x := s.me
  let st := if f = 1 ∨ f = 3 then 2 else 1
  let n := if f = 0 then 4 else if f = 1 then 2 else 1
  let full := if st = 2 then 53 else 24
  let store := fun (t : Nat) => if t = 63 then (63 : Tag) else BitVec.ofNat 6 (min t full)
  let va := vnum a
  let vd := vnum d
  let w0 := x.csr.winsig.setWidth 6
  let tg := if f = 3 ∧ w0 = 24 then (53 : Tag) else w0
  let thr := (s.g b).toNat % 64
  let lane := if (s.g b).getLsbD 8 then (s.g b).toNat / 128 % 2 * 2 else (s.g b).toNat / 64 % 4
  let seen := readTag (if (s.g b).getLsbD 8 then 53 else 24) (x.tag v lane)
  let moved := fun (i : Instr) (from_ : Nat → Option Nat) => s.Computes i (fun x y => x.WroteV y vd
    (fun l => match from_ l with | some j => x.lane va j | none => x.lane vd l)
    (fun l => match from_ l with | some j => x.tag va j | none => x.tag vd l))
  f.toNat < 4 →
  s.ComputesG (.sigget d a f) d (BitVec.ofNat 64 (((List.range n).map (fun j => (x.tag va (st * j)).toNat * 256 ^ j)).sum)) ∧
  s.Computes (.sigset d b f) (fun x y => x.WroteV y vd (fun l => x.lane vd l)
    (fun l => if l / st < n then store ((s.g b).toNat / 2 ^ (8 * (l / st)) % 64) else x.tag vd l)) ∧
  (∃ m, s.ComputesG (.sigmin d a f) d (BitVec.ofNat 64 m) ∧ (∀ j, j < n → m ≤ (readTag full (x.tag va (st * j))).toNat) ∧
    ∃ j, j < n ∧ m = (readTag full (x.tag va (st * j))).toNat) ∧
  s.JumpsTo (.bsig v b disp) 0 0 (if seen.toNat < thr then x.pc + 4 * disp.signExtend 64 else x.pc + 4) ∧
  (f.toNat < 2 → k.toNat < 4 / st →
    moved (.vsplat d a k f) (fun l => some (st * k.toNat + l % st)) ∧
    moved (.vins d a k f) (fun l => if l / st = k.toNat then some (l % st) else none) ∧
    moved (.vext d a k f) (fun l => if l < st then some (st * k.toNat + l) else none) ∧
    moved (.vperm d a b f) (fun l => some (st * ((x.lane (vnum b) (st * (l / st))).toNat % (4 / st)) + l % st))) ∧
  (2 ≤ f.toNat → k.toNat < 4 / st →
    s.Computes (.vsplat d a 0 f) (fun x y => x.WroteV y vd (fun l => fmtLane f (fun _ => (x.g a).toNat) l) (fun _ => tg)) ∧
    s.Computes (.vins d a k f) (fun x y => x.WroteV y vd
      (fun l => if l / st = k.toNat then fmtLane f (fun _ => (x.g a).toNat) l else x.lane vd l)
      (fun l => if l / st = k.toNat then tg else x.tag vd l)) ∧
    s.ComputesG (.vext d a k f) d (if f = 3 then x.lane va (2 * k.toNat + 1) ++ x.lane va (2 * k.toNat) else (x.lane va k.toNat).signExtend 64)) ∧
  (f = 0 →
    let l := fun j => (x.lane va j).toNat
    let p := fpAdd f32 x.rm (l 0) (l 1)
    let q := fpAdd f32 x.rm (l 2) (l 3)
    let r := fpAdd f32 x.rm p.1 q.1
    let t := x.tag va
    s.Finishes (exec (.vhadd d a f) s) 0 vd 1 (fun _ => (r.1, p.2 ||| q.2 ||| r.2))
      (fun _ => stepTag x.rm p.1 (stepTag x.rm (l 0) (t 0) (l 1) (t 1)) q.1 (stepTag x.rm (l 2) (t 2) (l 3) (t 3))))

/-- R101, R102 and R282 to R286: a conversion reads its source elements, rounds each once under the mode that its fmt names, and
writes them from the lowest bit of v[d] with every other bit zero, each lane with the smallest tag of its results; integer
results are EXACT; an enabled flag takes FPEXC, and a lane with a finite floating-point result below the floor SIGFLOOR, named
with its tag and the source's in csr.sigtrap; and an OL4 block of 32 elements is encoded with its scale in g[b], or decoded a quad at a time.
The available count of a subnormal BF16 or FP8 value and the tag 3 of an inexact OL4 result are the model's choices (log entry 35), as
is the tag of a pair coded 0x88 (log entry 26). -/
def Obligations.Conversions : Prop := ∀ (s : State) (d a b : BitVec 5) (f : BitVec 3) (t src : BitVec 4),
  let x := s.me
  let rm := if f = 0 then x.rm else if f = 1 then .rne else if f = 2 then .rtz else if f = 3 then .rdn else .rup
  let n := if cvtWidth src = 64 ∨ cvtWidth t = 64 then 2 else 4
  let from_ := fun (i : Nat) => x.vnat (vnum a) / 2 ^ (cvtWidth src * i) % 2 ^ cvtWidth src
  let sgn := fun (n w : Nat) => if n < 2 ^ (w - 1) then (n : Int) else n - 2 ^ w
  let st := fun (k : Nat) => if 6 ≤ src.toNat then (63 : Tag) else readTag (codeFull src) (x.tag (vnum a) (cvtWidth src * k / 32))
  let ends := fun (i : Instr) (fl : Flags) (fin : Nat → Bool) (tg sg : Nat → Tag) (in_ : Nat → List Nat) (R : Slot → Slot → Prop) =>
    let low := fun (l : Nat) => (in_ l).any (fun k => fin k && belowFloor x.csr.sigfloor (tg k))
    (trapsOn x.csr.fpctl fl = true → exec i s = .next ((s.setMe (x.flagged fl)).trapAt s.cur .fpexc (fl.zeroExtend 64))) ∧
    (trapsOn x.csr.fpctl fl = false → (∀ l, l < 4 → low l = false) → s.Computes i (fun x y => R x y ∧
      y.csr = (x.flagged fl).csr ∧ y.pw = x.pw ∧ ∀ r l, r ≠ vnum d → y.lane r l = x.lane r l ∧ y.tag r l = x.tag r l)) ∧
    (trapsOn x.csr.fpctl fl = false → ∀ l, l < 4 → low l = true → (∀ j, j < l → low j = false) → ∃ (w : BitVec 29) (k : Nat),
      exec i s = .next ((s.setMe (x.flagged fl)).trapWith s.cur { cause := .sigfloor, value := 0, sigtrap := some w }) ∧
      k ∈ in_ l ∧ fin k = true ∧ (∀ j ∈ in_ l, fin j = true → (tg k).toNat < (tg j).toNat ∨ (tg k = tg j ∧ k ≤ j)) ∧
      w.toNat % 4 = l ∧ w.toNat / 4 % 8 = f.toNat ∧ w.toNat / 32 % 64 = (tg k).toNat ∧ w.toNat / 2048 % 64 = (sg k).toNat)
  let smallest := fun (l : List Nat) (tg : Nat → Tag) => l.foldl (fun m k => min m (tg k).toNat) 63
  let converts := fun (i : Instr) (r : Nat → Nat × Flags) (fin : Nat → Bool) (tg : Nat → Tag) =>
    let in_ := fun (l : Nat) => (List.range n).filter (fun k => decide (cvtWidth t * k / 32 = l))
    ends i ((List.range n).foldl (fun g k => g ||| (r k).2) 0) fin tg st in_ (fun x y => x.SameG y ∧
      (∀ k, k < n → y.vnat (vnum d) / 2 ^ (cvtWidth t * k) % 2 ^ cvtWidth t = (r k).1) ∧ y.vnat (vnum d) < 2 ^ (cvtWidth t * n) ∧
      (∀ l, l < 4 → (y.tag (vnum d) l).toNat = smallest (in_ (if cvtWidth t = 64 then l / 2 * 2 else l)) tg))
  let floats := fun (i : Instr) (r : Nat → Nat × Flags) =>
    converts i r (fun k => cvtFinite t (r k).1) (fun k => convTag t src (st k) (r k))
  let ints := fun (i : Instr) (r : Nat → Nat × Flags) => converts i r (fun _ => false) (fun _ => 63)
  let lanes := (List.range 32).map (fun k => (x.lane (vnum a + BitVec.ofNat 4 (k / 4)) (k % 4)).toNat)
  let block := ol4Encode lanes
  let coded := fun (k : Nat) => (ol4Lanes lanes).getD k (.nan, 0)
  let st8 := fun (k : Nat) => readTag 24 (x.tag (vnum a + BitVec.ofNat 4 (k / 4)) (k % 4))
  let tg8 := fun (k : Nat) => if st8 k = 63 then (if (coded k).2 &&& 0x15 = 0 then (63 : Tag) else 3)
    else if cmpFV (coded k).1 (.fin false 0 0) = 0 then 0 else BitVec.ofNat 6 (min (st8 k).toNat 3)
  let in8 := fun (l : Nat) => (List.range 8).map (fun j => 8 * l + j)
  let q := (s.g b).toNat / 256 % 8
  let quad := fun (i : Nat) =>
    BitVec.ofNat 32 (ol4Image (ol4Elem (x.vnat (vnum a) / 2 ^ (8 * ((4 * q + i) / 2)) % 256) (i % 2 == 1) (sgn ((s.g b).toNat % 256) 8)))
  let stq := readTag 3 (x.tag (vnum a) (q / 2))
  let tgq := fun (i : Nat) => if f32.isFinite (quad i).toNat = true ∨ stq = 63 then stq else 0
  f.toNat ≤ 4 →
  (isCvtPair t src = true → t ≠ 5 → src ≠ 5 → floats (.vcvt d a b f t src) (fun k => cvtFp rm (fpSat x.csr.fpctl) t src (from_ k))) ∧
  (isCvtPair t src = true → t = 5 → ends (.vcvt d a b f t src) block.2.2 (fun _ => true) tg8 st8 in8 (fun x y =>
    x.WroteG y b (BitVec.ofInt 64 block.2.1) ∧ (∀ k, k < 16 → y.vnat (vnum d) / 2 ^ (8 * k) % 256 = block.1.getD k 0 % 256) ∧
    ∀ l, l < 4 → (y.tag (vnum d) l).toNat = smallest (in8 l) tg8)) ∧
  (isCvtPair t src = true → src = 5 → ends (.vcvt d a b f t src) 0 (fun i => f32.isFinite (quad i).toNat) tgq (fun _ => stq) (fun l => [l])
    (fun x y => x.SameG y ∧ ∀ i, i < 4 → y.lane (vnum d) i = quad i ∧ y.tag (vnum d) i = tgq i)) ∧
  (isCvtiPair t src = true → src.toNat ≤ 1 → ints (.vcvti d a b f t src) (fun k => cvtToInt rm t src (from_ k))) ∧
  (isCvtiPair t src = true → 6 ≤ src.toNat → t.toNat ≤ 1 → floats (.vcvti d a b f t src) (fun k =>
    let v : Int := if src.toNat % 2 = 0 then sgn (from_ k) (cvtWidth src) else from_ k
    roundFin (if t = 1 then f64 else f32) rm (decide (v < 0)) v.natAbs 0 false)) ∧
  (isCvtiPair t src = true → 6 ≤ src.toNat → 6 ≤ t.toNat → ints (.vcvti d a b f t src) (fun k =>
    let v := sgn (from_ k) 32
    let y := if t.toNat % 2 = 0 then max (-128) (min 127 v) else max 0 (min 255 v)
    ((y % 256).toNat, if v = y then 0 else Flags.of)))

/-! ### The heap, the copy engine and the circular buffers: majors 0x22, 0x30, 0x31 and AFETCH -/

/-- R60, R61 and R246: ALLOC and FREE park until the engine of their die answers; ALLOC of 0 or of more than 65,536 bytes
and of an arena that is spent returns zero; a chunk of the class with a free block gives one that is not taken, aligned
to its size, and with none a chunk of 2 MiB is taken from the arena, by which its mark moves; FREE of zero does nothing, of a
pointer outside the arena takes ACCESS, and of a live block writes its first 16 bytes, the link and then the marker, and gives
the block back to its chunk; and a write of the engine waits while it meets a registered range (R63).  Which free block is given,
the header's bytes and what the link and the marker hold are free values (log entry 9).  R344: the answer is heard at once by a
core whose holding buffer holds nothing. -/
def Obligations.HeapBlocks : Prop := ∀ (s : State) (d a : BitVec 5) (id : Nat) (m : Msg) (n : Word) (since : Option Nat) (c : Chunk),
  let x := s.slot m.src
  let s0 : State := { s with cached := false }
  let size := 2 ^ max 4 (clog2 n.toNat)
  let asks := fun (i : Instr) (rd : BitVec 5) (b : Body) => ∃ t q, exec i s = .next t ∧ t.net = s.net ++ [q] ∧ q.src = s.cur ∧ q.rd = rd ∧
    q.body = b ∧ t.me.park = .reply q.id ∧ t.me.pc = s.me.pc ∧ s.me.SameRegs t.me ∧ s.SameMemory t ∧ s.OtherSlots t s.cur ∧ s.SameCores t
  let answers := fun (v : Word) (P : State → Prop) => ∃ t, exec (.allocatorEngineStep id) s = .next t ∧ x.WroteG (t.slot m.src) m.rd v ∧
    (t.slot m.src).pc = x.pc + 4 ∧ (t.slot m.src).park = .ready ∧ x.SameV (t.slot m.src) ∧ s.OtherSlots t m.src ∧ s.SameCores t ∧
    t.msg? id = none ∧ P t
  let has := fun (c : Chunk) => decide (c.part = x.part ∧ c.pid = x.pid ∧ c.die = dieOf m.src.core ∧ c.block = size ∧
    c.taken.length < (2097152 - max 64 size) / size)
  (s.me.relaxed = [] → asks (.alloc d a) d (.alloc (s.g a) none) ∧ asks (.free a) 0 (.free (s.g a) none)) ∧
  (s.msg? id = some m → s.coreRuns m.src.core = true → (s.drop id).hears m.src.core = true → x.park = .reply id →
    (m.body = .alloc n since →
      ((n = 0 ∨ 65536 < n.toNat) → answers 0 (fun t => s.SameMemory t ∧ t.chunks = s.chunks)) ∧
      (n ≠ 0 → n.toNat ≤ 65536 → s.chunks.find? has = none → s0.arenaLeft x.part x.pid = false →
        answers 0 (fun t => s.SameMemory t ∧ t.chunks = s.chunks)) ∧
      (n ≠ 0 → n.toNat ≤ 65536 → s.chunks.find? has = some c → 
        let meets := fun (i : Nat) => s.engineWaits x.pid true (c.base + max 64 size + i * size) 16
        ((∀ i, i < (2097152 - max 64 size) / size → i ∉ c.taken → meets i = true) → exec (.allocatorEngineStep id) s = .next s0) ∧
        ((∀ i, i < (2097152 - max 64 size) / size → i ∉ c.taken → meets i = false) → ∃ i, i < (2097152 - max 64 size) / size ∧ i ∉ c.taken ∧
          answers (BitVec.ofNat 64 (c.base + max 64 size + i * size)) (fun t => { c with taken := i :: c.taken } ∈ t.chunks))) ∧
      (n ≠ 0 → n.toNat ≤ 65536 → s.chunks.find? has = none → s0.arenaLeft x.part x.pid = true →
        ∀ ps, s0.vspan x.part x.pid true (s0.ripe since) ((s0.arena x.part x.pid).1 + (s0.arena x.part x.pid).2.2 * 2097152) 64 = .ok ps →
        let base := (s0.arena x.part x.pid).1 + (s0.arena x.part x.pid).2.2 * 2097152
        let mark := devKey (s0.procEntry x.part x.pid + 28)
        (s.engineWaits x.pid true base 64 = true → exec (.allocatorEngineStep id) s = .next s0) ∧
        (s.engineWaits x.pid true base 64 = false → s0.poisonPieces ps = false → ∃ i, i < (2097152 - max 64 size) / size ∧
        answers (BitVec.ofNat 64 (base + max 64 size + i * size))
          (fun t => (∃ k ∈ t.chunks, k.block = size ∧ k.pid = x.pid ∧ k.taken = [i] ∧ k.base = base) ∧
            ((∀ p ∈ ps, p.shadow = none ∧ (p.key + p.len ≤ mark ∨ mark + 4 ≤ p.key)) →
              t.nat mark 4 = ((s0.arena x.part x.pid).2.2 + 1) % 2 ^ 32))))) ∧
    (m.body = .free n since →
      (n = 0 → m.rd = 0 → answers 0 (fun t => s.SameMemory t ∧ t.chunks = s.chunks)) ∧
      (n ≠ 0 → ((s0.arena x.part x.pid).1 = 0 ∨ n.toNat < (s0.arena x.part x.pid).1 ∨
          (s0.arena x.part x.pid).1 + (s0.arena x.part x.pid).2.1 * 2097152 ≤ n.toNat) →
        exec (.allocatorEngineStep id) s = .next ((s0.drop id).trapAt m.src .access n)) ∧
      (∀ c hs p i, m.rd = 0 → (s0.arena x.part x.pid).1 ≠ 0 → (s0.arena x.part x.pid).1 ≤ n.toNat →
        n.toNat < (s0.arena x.part x.pid).1 + (s0.arena x.part x.pid).2.1 * 2097152 →
        let base := (s0.arena x.part x.pid).1 + (n.toNat - (s0.arena x.part x.pid).1) / 2097152 * 2097152
        s0.vspan x.part x.pid false (s0.ripe since) base 64 = .ok hs → s0.vspan x.part x.pid true (s0.ripe since) n.toNat 16 = .ok [p] →
        s.engineWaits x.pid false base 64 = false → s.engineWaits x.pid true n.toNat 16 = false →
        s.chunks.find? (fun c => decide (c.part = x.part ∧ c.pid = x.pid ∧ c.base = base)) = some c → 0 < c.block →
        s.getPieces hs = headerBytes base x.pid c.block → n.toNat = base + max 64 c.block + i * c.block →
        i < (2097152 - max 64 c.block) / c.block → p.shadow = none → BitVec.ofNat 64 (s.nat (p.key + 8) 8) ≠ Config.freeMarker n.toNat →
        answers 0 (fun t => { c with taken := c.taken.filter (fun j => j != i) } ∈ t.chunks ∧
          t.nat p.key 8 = (Config.heapLink n.toNat c.taken).toNat ∧ t.nat (p.key + 8) 8 = (Config.freeMarker n.toNat).toNat ∧
          ∀ a, a < p.key ∨ p.key + 16 ≤ a → t.byte a = s.byte a))))

/-- R55, R56, R254 and R255: CBINIT sets up a buffer from its image, which lies RAW in the partition; CBACQ takes the slot at head, parks on a buffer with
none filled, and takes QUEUE on one that is unset; CBREL gives the oldest acquired slot back, or takes QUEUE where none
is; and CBSTAT reads the counters. -/
def Obligations.CircularBuffers : Prop := ∀ (s : State) (a : BitVec 5) (n : BitVec 4),
  let t0 := tileOf s.cur.core
  let b := s.buf t0 n.toNat
  let ra := s.g a
  let k := rawKey ra.toNat
  let base := s.nat k 8
  let size := s.nat (k + 8) 4
  let count := s.nat (k + 14) 2
  let queue := BitVec.ofNat 64 (256 + n.toNat)
  let sets := fun (i : Instr) (c : CircBuf) (R : Slot → Slot → Prop) => ∃ t, exec i s = .next t ∧ t.buf t0 n.toNat = c ∧
    (∀ j, j ≠ n.toNat → t.buf t0 j = s.buf t0 j) ∧ s.OtherTiles t t0 ∧ (t.tile t0).engine = (s.tile t0).engine ∧
    t.me.pc = s.me.pc + 4 ∧ t.me.park = .ready ∧ R s.me t.me ∧ s.SameMemory t ∧ s.OtherSlots t s.cur ∧ s.SameCores t ∧ t.net = s.net
  isLarge s.cur.core = false →
  (s.me.relaxed = [] → ra.toNat % 16 = 0 → ra.toNat < 2 ^ 36 → s.inPart s.me.part (homeOf ra.toNat) = true →
    (s.me.mode = .user → offOf ra.toNat < reservedBase) → s.Readable (homeOf ra.toNat) (offOf ra.toNat) 16 →
    base % 64 = 0 → size % 64 = 0 → 64 ≤ size → size ≤ 65536 → 1 ≤ count → count ≤ 256 → base < 2 ^ 36 →
    offOf base + size * count ≤ reservedBase → tileOf (homeOf base) = t0 →
    (b.filling = 0 → b.acquired = 0 → sets (.cbinit a n)
      { base := base, size := size, count := count, free := count, filled := 0, head := 0, tail := 0, acquired := 0, filling := 0 } Slot.SameRegs) ∧
    (b.filling ≠ 0 ∨ b.acquired ≠ 0 → exec (.cbinit a n) s = .next (s.trapAt s.cur .queue queue))) ∧
  (ra.toNat % 16 ≠ 0 → exec (.cbinit a n) s = .next (s.trapAt s.cur .align ra)) ∧
  (ra.toNat % 16 = 0 → (2 ^ 36 ≤ ra.toNat ∨ s.inPart s.me.part (homeOf ra.toNat) = false ∨ (s.me.mode = .user ∧ reservedBase ≤ offOf ra.toNat)) →
    exec (.cbinit a n) s = .next (s.trapAt s.cur .access ra)) ∧
  (b.count = 0 → exec (.cbacq n) s = .next (s.trapAt s.cur .queue queue)) ∧
  (b.count ≠ 0 → s.ahead (.bufferFilled n.toNat) s.me.turn (fun c => tileOf c == t0) < b.filled →
    sets (.cbacq n) { b with filled := b.filled - 1, acquired := b.acquired + 1, head := (b.head + 1) % b.count }
      (Slot.OnlyG 4 (BitVec.ofNat 64 (b.base + b.head * b.size)))) ∧
  (b.count ≠ 0 → b.filled = 0 → s.ParksOn (.cbacq n) (.bufferFilled n.toNat)) ∧
  (s.me.relaxed = [] → b.count ≠ 0 → b.acquired ≠ 0 →
    sets (.cbrel n) { b with acquired := b.acquired - 1, free := b.free + 1 } Slot.SameRegs) ∧
  (s.me.relaxed = [] → b.count = 0 ∨ b.acquired = 0 → exec (.cbrel n) s = .next (s.trapAt s.cur .queue queue)) ∧
  s.Computes (.cbstat n) (fun x y => (∀ r, y.g r =
      if r = 4 then BitVec.ofNat 64 (b.free + b.filled * 2 ^ 16 + b.acquired * 2 ^ 32 + b.filling * 2 ^ 48)
      else if r = 5 then BitVec.ofNat 64 (b.head + b.tail * 2 ^ 16 + b.count * 2 ^ 32) else x.g r) ∧
    x.SameV y ∧ y.pw = x.pw ∧ y.csr = x.csr)

/-- R129, R159, R247, R250 to R252 and R300: ECW claims the shadow set and writes a register; ECR reads one; EGO and
AFETCH whose checks pass commit a job under the next number, which starts in an idle live set and else waits in the
shadow; an ECW of a claimed set parks; and EWAIT returns the counter once it has reached its target. -/
def Obligations.EngineInstructions : Prop := ∀ (s : State) (a b : BitVec 5) (i : BitVec 8) (p : JobPlan) (v : Word),
  let t0 := tileOf s.cur.core
  let e := s.engine t0
  let mine := e.committed = none ∧ (e.claim = none ∨ e.claim = some s.cur)
  let target := if b = 0 then s.me.lastJob else (s.g b).toNat
  let reads := fun (k : Nat) (v : Word) => i.toNat = k → s.ComputesG (.ecr i) 4 v
  let commits := fun (i : Instr) => ∃ t j, exec i s = .next t ∧ j = { p.job with num := e.nextNum } ∧ t.me.pc = s.me.pc + 4 ∧ t.me.park = .ready ∧
    s.me.WroteG t.me 4 (BitVec.ofNat 64 e.nextNum) ∧ s.me.SameV t.me ∧ t.me.lastJob = e.nextNum ∧ (t.engine t0).nextNum = e.nextNum + 1 ∧
    (t.engine t0).shadow = p.job.regs ∧ t.ranges = (s.register (.job t0 e.nextNum) p.job.part p.job.pid p.ranges).ranges ∧
    (e.live = none → e.resumedJob = none → (t.engine t0).live = some j ∧ (t.engine t0).liveSet = p.job.regs) ∧
    (e.live ≠ none ∨ e.resumedJob ≠ none → (t.engine t0).live = e.live ∧ (t.engine t0).committed = some j ∧ (t.engine t0).claim = none) ∧
    s.SameMemory t ∧ s.OtherSlots t s.cur ∧ s.OtherTiles t t0 ∧ s.SameCores t ∧ t.net = s.net
  let issues := fun (i : Instr) => mine → s.me.relaxed = [] → s.me.unacked = [] → p.job.who = s.cur →
    (s.lockedRange s.me.pid (fun _ => false) p.checks = none → s.rangesFit s.me.part s.me.pid p.ranges = true → commits i) ∧
    (s.lockedRange s.me.pid (fun _ => false) p.checks = some v → s.me.canEnter .rangeLocked v = true →
      ∃ t, exec i s = .next t ∧ s.me.Enters t.me .rangeLocked v ∧ (t.engine t0).nextNum = e.nextNum ∧ t.ranges = s.ranges ∧
        s.SameMemory t ∧ s.OtherSlots t s.cur)
  isLarge s.cur.core = false →
  (i.toNat < 12 → mine → ∃ t, exec (.ecw b i) s = .next t ∧ t.me.pc = s.me.pc + 4 ∧ t.me.park = .ready ∧ s.me.SameRegs t.me ∧
    (t.engine t0).claim = some s.cur ∧ (∀ k, (t.engine t0).shadow.toList.getD k 0 = if k = i.toNat then s.g b else e.shadow.toList.getD k 0) ∧
    (t.engine t0).live = e.live ∧ (t.engine t0).liveSet = e.liveSet ∧ (t.engine t0).counter = e.counter ∧ s.OtherTiles t t0 ∧
    s.SameMemory t ∧ s.OtherSlots t s.cur ∧ s.SameCores t) ∧
  (i.toNat < 12 → ¬ mine → s.ParksOn (.ecw b i) .claim) ∧
  (12 ≤ i.toNat → exec (.ecw b i) s = .next (s.trapAt s.cur .bounds 0)) ∧
  (∀ k, k < 12 → reads k (e.shadow.toList.getD k 0) ∧ reads (16 + k) (e.liveSet.toList.getD k 0)) ∧
  reads 32 (BitVec.ofNat 64 e.counter) ∧ reads 34 (BitVec.ofNat 64 e.nextNum) ∧
  reads 33 (BitVec.ofNat 64 ((if e.live.isSome then 1 else 0) + (if e.committed.isSome then 2 else 0) +
    (match e.claim with | some w => 4 + w.slot * 2 ^ 4 + w.core * 2 ^ 32 | none => 0) +
    (e.suspended.filter (fun j => !j.resumed)).length * 2 ^ 8 + e.qflags.toNat * 2 ^ 16)) ∧
  ((12 ≤ i.toNat ∧ i.toNat < 16) ∨ (28 ≤ i.toNat ∧ i.toNat < 32) ∨ 35 ≤ i.toNat → exec (.ecr i) s = .next (s.trapAt s.cur .bounds 0)) ∧
  (s.egoPlan e.shadow = .ok p → issues .ego) ∧
  (s.fetchPlan (s.g a) = .ok p → issues (.afetch a)) ∧
  (target ≤ e.counter → s.ComputesG (.ewait b) 4 (BitVec.ofNat 64 e.counter)) ∧
  (e.counter < target → s.ParksOn (.ewait b) (.counter target))

/-- R62, R159, R249, R251, R252, R253 and R356 to R358: a committed job starts in an idle live set, behind a resumed one; a COPY
of one row performs its bytes, with their words tagged 62, and its end removes its ranges and counts it in its turn; COPY and
GATHER move every row to its place, QUANT encodes each block of 32 and leaves its flags, and a row fetch fills its slot with the nibbles, those of
a zero block read as zero, and scales of both matrices; a job with a barrier arrives on it at its end, with the bytes it moved; a
job that meets a fault is suspended, its record in scratchpad written, and frees the live set; a suspended job is resumed
from its record or aborted; a write of a job record waits while it meets a registered range; and a buffer job takes the
free slot at tail and fills it, waiting in its place where the table has no room.  The bytes that a job moves and its
ranges are seen to move and go at one step each, which is the model's choice (log entry 14). -/
def Obligations.EngineJobs : Prop := ∀ (s : State) (k n id : Nat) (j : Job) (r : RangeEntry),
  let e := s.engine k
  let src := (j.regs.get 1).toNat
  let dst := (j.regs.get 2).toNat
  let len := (j.regs.get 3).toNat
  let plain := e.live = some j ∧ (j.regs.get 0) = 0 ∧ (j.regs.get 4) = 1 ∧ j.arrays = [] ∧ j.cb = none ∧ j.cursor = 0 ∧ j.valid = 0 ∧
    1 ≤ len ∧ src < 2 ^ 36 ∧ dst < 2 ^ 36 ∧ offOf src + len ≤ 2 ^ 20 ∧ offOf dst + len ≤ 2 ^ 20 ∧ (src + len ≤ dst ∨ dst + len ≤ src) ∧
    (∀ p ∈ (s.core (homeOf dst)).objects, p.1 + 64 ≤ offOf dst ∨ offOf dst + len ≤ p.1) ∧ s.poison = [] ∧ j.jrec = 0
  let ctl := (j.regs.get 0).toNat
  let rows := (j.regs.get 4).toNat
  let scale := (j.regs.get 8).toNat
  let from_ := fun (i : Nat) => src + (if ctl = 1 then j.idx.getD i 0 else i) * (j.regs.get 5).toNat
  let to_ := fun (i : Nat) => dst + i * (j.regs.get 6).toNat
  let quiet := e.live = some j ∧ j.arrays = [] ∧ j.cb = none ∧ j.cursor = 0 ∧ j.valid = 0 ∧ j.jrec = 0 ∧ s.poison = []
  let open_ := fun (a n : Nat) => a < 2 ^ 36 ∧ offOf a + n ≤ 2 ^ 20 ∧
    ∀ p ∈ (s.core (homeOf a)).objects, p.1 + 64 ≤ offOf a ∨ offOf a + n ≤ p.1
  let apart := fun (a n b m : Nat) => a + n ≤ b ∨ b + m ≤ a
  let arrives := fun (t : State) (n : Nat) => j.barrier ≠ 0 →
    ∃ q ∈ t.net, q.body = .sync j.barrier (.engine n (s.sys.meridian % 2 ^ 32) j.launch)
  let copied := fun (t : State) => (∀ i, i < len → t.byte (rawKey dst + i) = s.byte (rawKey src + i)) ∧
    (∀ i, i < rawKey dst ∨ rawKey dst + len ≤ i → t.byte i = s.byte i) ∧
    (∀ i, i < len → t.sideTag (rawKey dst + i) = Tag.none)
  let z := rawKey j.jrec
  let recorded := j.jrec ≠ 0 ∧ j.jrec < 2 ^ 36 ∧ offOf j.jrec + 64 ≤ reservedBase ∧
    ∀ p ∈ (s.core (homeOf j.jrec)).objects, p.1 + 64 ≤ offOf j.jrec ∨ offOf j.jrec + 64 ≤ p.1
  let state := fun (t : State) (v : Nat) => t.nat (z + 20) 1 = v ∧ ∀ a, a < z + 20 ∨ z + 21 ≤ a → t.byte a = s.byte a
  let waits := fun (j : Job) (off n : Nat) => decide (j.jrec ≠ 0) && s.reqMeets j.pid (fun o => decide (o = .job k j.num))
    (if j.jrec < 2 ^ 39 then spanReq true (j.jrec + off, j.jrec + off + n)
      else { vspace := true, lo := j.jrec + off, hi := j.jrec + off + n, write := true })
  s.coreRuns (16 * k) = true →
  (e.live = some j → waits j 0 64 = true ∨ 4 ≤ e.suspended.length → exec (.jobSuspension k) s = .next s) ∧
  (e.live = some j → waits j 0 64 = true → exec (.jobCompletion k) s = .next s) ∧
  (e.live = none → e.resumedJob = none → e.committed = some j → ∃ t, exec (.jobStart k) s = .next t ∧ (t.engine k).live = some j ∧
    (t.engine k).liveSet = j.regs ∧ (t.engine k).committed = none ∧ s.SameMemory t ∧ s.SameSlots t ∧ s.OtherTiles t k) ∧
  (e.live = none → e.resumedJob = some j → ∃ t, exec (.jobStart k) s = .next t ∧ (t.engine k).live = some j ∧
    (t.engine k).committed = e.committed ∧ (t.engine k).suspended = e.suspended.erase j ∧ s.SameMemory t ∧ s.SameSlots t) ∧
  (plain → j.barrier = 0 → ∃ t, exec (.jobCompletion k) s = .next t ∧ copied t ∧ (t.engine k).live = none ∧
    t.ranges = s.ranges.filter (fun r => decide (r.owner ≠ .job k j.num)) ∧
    (j.num = e.counter + 1 → e.held = [] → (t.engine k).counter = j.num) ∧
    (e.counter + 1 < j.num → e.held = [] → (t.engine k).counter = e.counter ∧ (t.engine k).held = [j.num]) ∧
    s.SameSlots t ∧ s.SameCores t ∧ s.OtherTiles t k) ∧
  (quiet → (ctl = 0 ∨ ctl = 1) → 1 ≤ len →
    (∀ i, i < rows → from_ i < 2 ^ 36 ∧ offOf (from_ i) + len ≤ 2 ^ 20 ∧ open_ (to_ i) len) →
    (∀ i l, i < rows → l < rows → apart (from_ i) len (to_ l) len ∧ (i ≠ l → apart (to_ i) len (to_ l) len)) →
    ∃ t, exec (.jobCompletion k) s = .next t ∧ (t.engine k).live = none ∧ arrives t (j.moved + rows * len) ∧
      (∀ i x, i < rows → x < len → t.byte (rawKey (to_ i) + x) = s.byte (rawKey (from_ i) + x)) ∧
      (∀ a, (∀ i, i < rows → a < rawKey (to_ i) ∨ rawKey (to_ i) + len ≤ a) → t.byte a = s.byte a)) ∧
  (quiet → ctl = 2 → rows = 1 → len % 32 = 0 → 32 ≤ len → j.flags = 0 → src < 2 ^ 36 → offOf src + 4 * len ≤ 2 ^ 20 →
    open_ dst (len / 2) → open_ scale (len / 32) → apart src (4 * len) dst (len / 2) → apart src (4 * len) scale (len / 32) →
    apart dst (len / 2) scale (len / 32) →
    let code := fun (b : Nat) => ol4Encode ((List.range 32).map (fun i => s.nat (rawKey src + 128 * b + 4 * i) 4))
    ∃ t, exec (.jobCompletion k) s = .next t ∧ (t.engine k).live = none ∧ arrives t (j.moved + 4 * len) ∧
      (∀ b, b < len / 32 → (∀ i, i < 16 → t.byte (rawKey dst + 16 * b + i) = BitVec.ofNat 8 ((code b).1.getD i 0)) ∧
        t.byte (rawKey scale + b) = BitVec.ofInt 8 (code b).2.1) ∧
      (t.engine k).qflags = (List.range (len / 32)).foldl (fun g b => g ||| (code b).2.2) 0) ∧
  (∀ c f, e.live = some j → j.cb = some c → j.filling = some f → j.arrays.length = 4 → (∀ a ∈ j.arrays, 2 ^ 39 ≤ a) → 1 ≤ j.dblk → j.dblk ≤ 256 →
    j.cursor ≤ j.filled * (34 * j.dblk) → j.valid = 0 → s.poison = [] → (s.runJob k j).missing = none → (s.runJob k j).held = none →
    (s.runJob k j).bad = none →
    let d := j.dblk
    let half := (17 * d + 63) / 64 * 64
    let slot := (s.buf k c).base + f * (s.buf k c).size
    let row := j.idx.getD j.filled 0
    let arr := fun (h : Nat) => j.arrays.getD h 0
    let reads := fun (va : Nat) (v : Byte) => ∃ key sh, s.translate j.part j.pid (agentNeed false false) va = .ok key sh ∧ s.byte key = v
    slot < 2 ^ 36 → open_ slot (half + 17 * d) →
    ∃ t, exec (.cbSlotFilled k) s = .next t ∧ ∀ h, h < 2 →
      (∀ x v, x < d → reads (arr (2 * h + 1) + row * d + x) v → t.byte (rawKey slot + h * half + 16 * d + x) = v) ∧
      (∀ x v z, x < 16 * d → reads (arr (2 * h + 1) + row * d + x / 16) z → reads (arr (2 * h) + row * 16 * d + x) v →
        t.byte (rawKey slot + h * half + x) = if z = 0x80 then 0 else v)) ∧
  (plain → s.ranges.find? (fun r => r.id == id) = some r → r.owner = .job k j.num → ∃ t, exec (.rangeEntryRemoval id) s = .next t ∧
    copied t ∧ t.ranges = s.ranges.filter (fun q => q.id ≠ id) ∧ (∃ q, (t.engine k).live = some q ∧ q.num = j.num ∧ q.cursor = len) ∧
    s.SameSlots t ∧ s.SameCores t ∧ s.OtherTiles t k) ∧
  (e.live = some j → j.cb = none → e.suspended.length < 4 → waits j 0 64 = false → s.recordHold j true 0 64 = none →
    ∀ off c va, (s.runJob k j).missing = none → (s.runJob k j).held = none → (s.runJob k j).bad = some (off, c, va) →
    ∃ t q, exec (.jobSuspension k) s = .next t ∧ (t.engine k).live = none ∧
      (t.engine k).suspended = ((s.runJob k j).s.engine k).suspended ++ [q] ∧ q.num = j.num ∧ q.cursor = off ∧ q.faddr = va ∧
      q.cause = c.code ∧ q.resumed = false ∧ (recorded → t.nat (z + 20) 1 = 1 ∧ t.nat (z + 21) 1 = c.code ∧ t.nat (z + 22) 2 = j.pid.toNat ∧
        t.nat (z + 24) 8 = j.num % 2 ^ 64 ∧ t.nat (z + 40) 8 = off % 2 ^ 64 ∧ t.nat (z + 56) 8 = va % 2 ^ 64)) ∧
  (e.suspendedJob n = some j → waits j 0 64 = true → exec (.jobResume k n) s = .next s) ∧
  (e.suspendedJob n = some j → waits j 20 1 = true → exec (.jobAbort k n) s = .next s) ∧
  (e.suspendedJob n = some j →
    (j.jrec = 0 → ∃ t, exec (.jobResume k n) s = .next t ∧ (t.engine k).suspended = e.suspended.erase j ++ [{ j with resumed := true }] ∧
      (t.engine k).live = e.live ∧ s.SameMemory t ∧ s.SameSlots t ∧ s.OtherTiles t k) ∧
    (recorded → waits j 0 64 = false → ∃ t, exec (.jobResume k n) s = .next t ∧ (t.engine k).suspended = e.suspended.erase j ++
        [{ j with cursor := s.nat (z + 40) 8, valid := BitVec.ofNat 64 (s.nat (z + 48) 8), moved := s.nat (z + 32) 8, resumed := true }] ∧
      (t.engine k).live = e.live ∧ state t 2 ∧ s.SameSlots t ∧ s.OtherTiles t k) ∧
    (j.barrier = 0 → j.jrec = 0 ∨ recorded → waits j 20 1 = false → ∃ t, exec (.jobAbort k n) s = .next t ∧ (t.engine k).suspended = e.suspended.erase j ∧
      (t.engine k).live = e.live ∧ t.ranges = s.ranges.filter (fun r => decide (r.owner ≠ .job k j.num)) ∧
      (j.num = e.counter + 1 → e.held = [] → (t.engine k).counter = j.num) ∧ (j.jrec = 0 → s.SameMemory t) ∧ (recorded → state t 3) ∧
      s.SameSlots t)) ∧
  (∀ c, e.live = some j → j.cb = some c →
    let b := s.buf k c
    let q := spanReq true (b.base + b.tail * b.size, b.base + b.tail * b.size + b.size)
    (j.filling = none → j.filled < j.rows → 1 ≤ b.free → s.reqMeets j.pid (fun o => decide (o = .job k j.num)) q = false →
      ((s.roomBehind j.part j.pid [q] (j.place.getD s.ticket) = true ∨ s.rangesFit j.part j.pid [q] = false) → ∃ t,
        exec (.cbSlotStart k) s = .next t ∧ (t.engine k).live = some { j with place := some (j.place.getD s.ticket) } ∧
        t.buf k c = b ∧ t.ranges = s.ranges ∧ s.SameMemory t ∧ s.SameSlots t ∧ s.OtherTiles t k) ∧
      (s.roomBehind j.part j.pid [q] (j.place.getD s.ticket) = false → s.rangesFit j.part j.pid [q] = true →
        ∃ t, exec (.cbSlotStart k) s = .next t ∧
        t.buf k c = { b with free := b.free - 1, filling := b.filling + 1, tail := (b.tail + 1) % b.count } ∧
        (t.engine k).live = some { j with filling := some b.tail, place := none } ∧
        t.ranges = (s.register (.job k j.num) j.part j.pid [q]).ranges ∧ s.SameMemory t ∧ s.SameSlots t ∧ s.OtherTiles t k)) ∧
    (∀ f, j.filling = some f → (s.runJob k j).missing = none → (s.runJob k j).held = none → (s.runJob k j).bad = none →
      ∃ t q, exec (.cbSlotFilled k) s = .next t ∧ t.buf k c = { b with filling := b.filling - 1, filled := b.filled + 1 } ∧
        (t.engine k).live = some q ∧ q.num = j.num ∧ q.filled = j.filled + 1 ∧ q.filling = none))

/-! ### The gang and the tile array: majors 0x2D-0x2F -/

/-- R143, R144, R147, R148, R150, R287, R288, R292 to R296 and R301 to R304: a gang instruction of a matrix slot whose own
checks pass joins its gang's operation; a slot that is not its core's matrix slot takes ILLEGAL, a pending error is taken
as MTXERR and cleared, and a record that fails its checks gives its cause.  The record's own bytes register with the
operands; those of a group table are checked with them and are not registered, since the issue has read them (log entry
13). -/
def Obligations.GangIssue : Prop := ∀ (s : State) (a b : BitVec 5) (n : BitVec 8) (r : OpRec) (q : Plan) (v : Word),
  let k := tileOf s.cur.core
  let p := (s.tile k).proj
  let ra := s.g a
  let rb := s.g b
  let sp := coverSpan rb
  let here := k % 16
  let plain : Plan := { record := none, words := [], own := [], reads := [], shared := [] }
  let only := fun (r : OpRec) => ({ record := some r, words := [], own := (ra.toNat, ra.toNat + 32) :: r.extents, reads := [], shared := [] } : Plan)
  let fits := field rb 29 2 = 0 ∧ field rb 12 4 = 0 ∧ field rb 16 13 ≠ 0 ∧ field rb 0 12 + field rb 16 13 ≤ 4096
  let stream := fun (w : Nat) => decide (2 ≤ w) && decide (pairMode p.live w ≠ .unset) &&
    (decide (p.mode = .unset) || decide (p.mode = pairMode p.live w))
  let rowOf := s.checkRecord ra stream (fun _ => ⟨2, 1, if p.live = 5 then 64 else 32⟩)
  let element := fun (w : Nat) => if bit rb 6 then decide (2 ≤ w) && decide (pairMode p.live w ≠ .unset)
    else if p.covFp then [0, 2, 3, 4].contains w else [0, 6, 7].contains w
  let elementRow := s.checkRecord ra element (fun _ => ⟨32, if bit rb 6 then 1 else 32, 32⟩)
  let cover := field rb 8 8 = 0 ∧ field rb 28 4 = 0 ∧ field rb 36 4 = 0 ∧ field rb 44 20 = 0 ∧ (field rb 0 6 < 32 ∨ field rb 0 6 = 63)
  let gang : List Instr := [.mldw a, .mtld a, .mswap, .mzero, .mstrm a, .mgrp a b n, .mdrain b, .mcovi b, .mcovp a b n, .mcovc a b, .mcovr a b]
  (s.GangReady →
    (s.checkRecord ra (fun w => decide (2 ≤ w) && decide (w ≠ 5)) (fun _ => ⟨32, 0, 2⟩) = .ok r → s.Joins (.mldw a) .mldw ra 0 0 (only r)) ∧
    (s.checkRecord ra (fun w => decide (2 ≤ w)) (fun r => ⟨2, 0, if r.window = 5 then 64 else 32⟩) = .ok r →
      s.Joins (.mtld a) .mtld ra 0 0 (only r)) ∧
    s.Joins .mswap .mswap 0 0 0 plain ∧ s.Joins .mzero .mzero 0 0 0 plain ∧
    (rowOf = .ok r → s.Joins (.mstrm a) .mstrm ra 0 0 (only r)) ∧
    (rowOf = .ok r → s.groupPlan ra r rb n.toNat (pairMode p.live r.window) = .ok q → s.Joins (.mgrp a b n) .mgrp ra rb n.toNat q) ∧
    (s.drainCause rb p.mode 32 0 = none → s.Joins (.mdrain b) .mdrain 0 rb 0
      { record := none, words := [rb], own := [], reads := [], shared := [spanReq true (dwDest rb, dwDest rb + dwExtent rb 32)] }) ∧
    (fits → s.Joins (.mcovi b) .mcovi 0 rb 0 plain) ∧
    (elementRow = .ok r → n.toNat ≤ 31 → cover → sp.1 + sp.2 ≤ 15 → sp.1 ≤ here → here ≤ sp.1 + sp.2 → (bit rb 6 = true → p.covFp = true) →
      (p.mode = .unset ∨ p.mode = covMode p.covFp) → s.Joins (.mcovp a b n) .mcovp ra rb n.toNat (only r)) ∧
    (elementRow = .ok r → cover → sp = (0, 0) → bit rb 7 = false → bit rb 6 = false → s.Joins (.mcovc a b) .mcovc ra rb 0 (only r)) ∧
    (fits → field rb 29 35 = 0 → ra.toNat % 4 = 0 → s.userArea s.me.part ra.toNat (4 * field rb 16 13) = true →
      s.Joins (.mcovr a b) .mcovr ra rb 0
        { record := none, words := [], own := [], reads := [], shared := [spanReq true (ra.toNat, ra.toNat + 4 * field rb 16 13)] }) ∧
    (∀ c w, rowOf = .error (c, w) → exec (.mstrm a) s = .next (s.trapAt s.cur c w) ∧ exec (.mgrp a b n) s = .next (s.trapAt s.cur c w)) ∧
    (∀ c w, s.drainCause rb p.mode 32 0 = some (c, w) → exec (.mdrain b) s = .next (s.trapAt s.cur c w)) ∧
    (¬ fits → exec (.mcovi b) s = .next (s.trapAt s.cur .bounds 0))) ∧
  (∀ i ∈ gang,
    (isLarge s.cur.core = true ∨ ((s.tile k).leaving = [] ∧ (s.tile k).mslot (s.cur.core % 16) ≠ s.cur.slot) →
      exec i s = .next (s.trapAt s.cur .illegal (wordOf i))) ∧
    (isLarge s.cur.core = false → (s.tile k).leaving = [] → (s.tile k).mslot (s.cur.core % 16) = s.cur.slot → s.me.relaxed = [] →
      (s.tile k).pendErr.find? (fun e => e.1 == s.cur.core % 16) = some (s.cur.core % 16, v) → s.me.canEnter .mtxerr v = true →
      ∃ t, exec i s = .next t ∧ Slot.Enters { s.me with csr := { s.me.csr with mtxerr := v } } t.me .mtxerr v ∧
        (t.tile k).pendErr = mapErase (s.tile k).pendErr (s.cur.core % 16) ∧ (t.tile k).joining = (s.tile k).joining ∧
        s.SameMemory t ∧ s.OtherSlots t s.cur ∧ s.SameCores t)) ∧
  (∀ (allow : Nat → Bool) (lim : OpRec → RecLimits),
    (ra.toNat % 32 ≠ 0 → s.checkRecord ra allow lim = .error (.align, ra)) ∧
    (ra.toNat % 32 = 0 → (2 ^ 36 ≤ ra.toNat ∨ homeOf ra.toNat ≠ s.cur.core ∨ reservedBase ≤ offOf ra.toNat) →
      s.checkRecord ra allow lim = .error (.access, ra)) ∧
    (s.checkRecord ra allow lim = .ok r → let z := rawKey ra.toNat
      ra.toNat % 32 = 0 ∧ homeOf ra.toNat = s.cur.core ∧ offOf ra.toNat < reservedBase ∧ allow r.window = true ∧
      r.base = s.nat (z + 24) 8 ∧ r.bitmap = s.nat (z + 16) 8 ∧ r.scale = s.nat (z + 11) 5 ∧ r.key1.toNat = s.nat (z + 9) 2 ∧
      r.key0.toNat = s.nat (z + 7) 2 ∧ r.rows ≤ (lim r).rowsMax ∧ (lim r).colsMin ≤ r.cols ∧ r.cols ≤ (lim r).colsMax ∧
      r.window = r.base / 2 ^ 36 % 8 ∧ homeOf r.base = s.cur.core ∧ r.bitmap % 8 = 0 ∧
      (r.window = 5 → r.stride % 32 = 0) ∧ (r.window ≠ 5 → r.scale = 0)))

/-- R13, R65, R143, R144, R154, R161, R289, R291 and R302: MGANG parks, the sixteenth arrival releases every core's slot
as its matrix slot; a joined operation enters the queue in the order of its members' cores and they go on, those of
MCOVP and MCOVR to wait for its end; members that disagree take ILLEGAL and a joint bound that is passed BOUNDS, with
nothing queued; a departure wakes those parked with ILLEGAL; and an issue without room goes on once its ranges fit.  That
the value of such a BOUNDS is each member's own g[ra] is the model's choice (log entry 33), and so is that an event whose
condition is not met leaves the state as it was (log entry 4). -/
def Obligations.GangSteps : Prop := ∀ (s : State) (k core slot : Nat) (l : Launch),
  let x := s.tile k
  let js := x.joining
  let w : Who := ⟨core, slot⟩
  let y := s.slot w
  let windows := fun (m : Member) => m.record.map (fun r => r.window)
  let agree := ∀ m ∈ js, ∀ n ∈ js, n.fn = m.fn ∧ n.rb = m.rb ∧ n.imm = m.imm ∧ windows n = windows m ∧ (m.fn = .mcovr → n.ra = m.ra)
  let total := (js.map (fun m => (m.record.map (fun r => r.rows)).getD 0)).sum
  let bad := ∃ m rest, js = m :: rest ∧ ((m.fn = .mgrp ∧ total < (m.words.map dwRows).sum) ∨
    ((m.fn = .mcovp ∨ m.fn = .mcovc) ∧ 4096 < field m.rb 16 12 + total))
  let whole := js.length = 16 ∧ (∀ c, c < 16 → ∃ m ∈ js, m.who.core = 16 * k + c) ∧ ∀ m ∈ js, m.who.slot < 8
  let parked := fun (m : Member) => (s.slot m.who).park = .member
  let takes := fun (c : Cause) (v : Member → Word) => ∀ m ∈ js, (s.slot m.who).outstanding = [] ∧ (s.slot m.who).relaxedFault = none ∧
    (s.slot m.who).canEnter c (v m) = true
  let fails := fun (c : Cause) (v : Member → Word) => ∃ t, exec (.gangJoin k) s = .next t ∧ (t.tile k).joining = [] ∧ (t.tile k).queue = x.queue ∧
    (∀ m ∈ js, (s.slot m.who).Enters (t.slot m.who) c (v m)) ∧
    t.ranges = s.ranges.filter (fun r => decide (∀ m ∈ js, r.owner ≠ .member m.who)) ∧ s.SameMemory t ∧ s.SameCores t ∧ s.OtherTiles t k
  let mine := (s.inGang (tileOf s.cur.core)).any (fun w => decide (w.core = s.cur.core))
  let ms := s.inGang k
  (isLarge s.cur.core = false → (s.tile (tileOf s.cur.core)).leaving = [] → s.me.relaxed = [] →
    (∀ v, (s.tile (tileOf s.cur.core)).pendErr.find? (fun e => e.1 == s.cur.core % 16) = some (s.cur.core % 16, v) →
      s.me.canEnter .mtxerr v = true → ∃ t, exec .mgang s = .next t ∧
        Slot.Enters { s.me with csr := { s.me.csr with mtxerr := v } } t.me .mtxerr v ∧ s.SameMemory t ∧ s.OtherSlots t s.cur) ∧
    (s.me.unacked = [] → (s.tile (tileOf s.cur.core)).pendErr.find? (fun e => e.1 == s.cur.core % 16) = none →
      mine = true ∨ s.launch? s.me.launch = none ∨ (s.launch? s.me.launch = some l ∧ l.holdsTile (tileOf s.cur.core) = false) →
      exec .mgang s = .next (s.trapAt s.cur .illegal 0xB4000000)) ∧
    (mine = false → s.launch? s.me.launch = some l → l.holdsTile (tileOf s.cur.core) = true → s.me.unacked = [] →
      (s.tile (tileOf s.cur.core)).pendErr.find? (fun e => e.1 == s.cur.core % 16) = none →
      ∃ t, exec .mgang s = .next t ∧ s.OnlySlot t ∧ t.me = { s.me with park := .gang })) ∧
  (l.holdsTile k = true ↔ ∀ c, c < 16 → l.holds (16 * k + c) = true) ∧
  (s.tileRuns k = true → x.leaving = [] → js = [] → s.roomMembers k = [] → ms.length = 16 →
    (∀ c, c < 16 → ∃ w ∈ ms, w.core = 16 * k + c) → ∃ t, exec (.mgangRelease k) s = .next t ∧
      (∀ w ∈ ms, t.slot w = (s.slot w).next ∧ (t.tile k).mslot (w.core % 16) = w.slot ∧
        (t.core w.core).goLive = ((s.core w.core).goLive || (s.core w.core).staged.isSome)) ∧
      (t.tile k).gops = 0 ∧ (t.tile k).queue = x.queue ∧ (t.tile k).live = x.live ∧ (t.tile k).accs = x.accs ∧
      s.SameMemory t ∧ s.OtherTiles t k ∧ t.ranges = s.ranges) ∧
  (s.tileRuns k = true → x.leaving = [] → ms.length ≠ 16 → exec (.mgangRelease k) s = .next s) ∧
  (s.tileRuns k = true → x.leaving = [] → whole →
    ((x.queue.filter (fun o => !o.started)).length < 4 →
      (agree → ¬ bad → ∃ t o, exec (.gangJoin k) s = .next t ∧ (t.tile k).queue = x.queue ++ [o] ∧ (t.tile k).joining = [] ∧
        (t.tile k).gops = x.gops + 1 ∧ o.seq = x.gops + 1 ∧ o.num = x.opNum ∧ o.started = false ∧ o.probed = false ∧
        o.members.map (fun m => m.who.core) = (List.range 16).map (fun c => 16 * k + c) ∧ (∀ m ∈ o.members, m ∈ js) ∧
        (∀ m ∈ js, o.fn = m.fn ∧ o.rb = m.rb ∧ o.imm = m.imm ∧ (m.fn = .mcovr → o.ra = m.ra)) ∧
        (∀ m ∈ js, parked m → (m.fn = .mcovp ∨ m.fn = .mcovr → t.slot m.who = { s.slot m.who with park := .arrayDone x.opNum }) ∧
          (m.fn ≠ .mcovp → m.fn ≠ .mcovr → t.slot m.who = (s.slot m.who).next)) ∧
        (∀ r ∈ t.ranges, ∀ m ∈ js, r.owner ≠ .member m.who) ∧
        t.ranges.map (fun r => (r.id, r.table, r.lo, r.hi, r.write)) = s.ranges.map (fun r => (r.id, r.table, r.lo, r.hi, r.write)) ∧
        s.SameMemory t ∧ s.SameCores t ∧ s.OtherTiles t k) ∧
      (¬ agree → (∀ m ∈ js, parked m) → takes .illegal (fun m => m.word) → fails .illegal (fun m => m.word)) ∧
      (agree → bad → (∀ m ∈ js, parked m) → takes .bounds (fun m => m.ra) → fails .bounds (fun m => m.ra))) ∧
    (4 ≤ (x.queue.filter (fun o => !o.started)).length → exec (.gangJoin k) s = .next s)) ∧
  (tileOf core = k → s.tileRuns k = true → x.leaving = [core % 16] → (∀ m ∈ js, tileOf m.who.core = k ∧ m.who.core % 16 ≠ core % 16 ∧ m.who.slot < 8 ∧ parked m) →
    s.roomMembers k = [] → (ms ++ js.map (fun m => m.who)).Nodup → takes .illegal (fun m => m.word) →
    (∀ w ∈ ms, (s.slot w).outstanding = [] ∧ (s.slot w).relaxedFault = none ∧ (s.slot w).canEnter .illegal 0xB4000000 = true) →
    ∃ t, exec (.gangLeave core) s = .next t ∧ (t.tile k).leaving = [] ∧ (t.tile k).joining = [] ∧ (t.tile k).queue = x.queue ∧
      (∀ w ∈ ms, (s.slot w).Enters (t.slot w) .illegal 0xB4000000) ∧
      (∀ m ∈ js, (s.slot m.who).Enters (t.slot m.who) .illegal m.word) ∧ s.SameMemory t ∧ s.SameCores t ∧ s.OtherTiles t k) ∧
  (∀ i cs qs n, y.park = .room i cs qs n → s.coreRuns core = true → s.roomBehind y.part y.pid qs n = false →
    (s.rangesFit y.part y.pid qs = false → exec (.rangeTableRoom core slot) s = .next s) ∧
    (s.rangesFit y.part y.pid qs = true →
      (∀ m, i = .member m → m.who = w → s.lockedRange y.pid (s.sameJoin (tileOf core)) cs = none →
        ∃ t, exec (.rangeTableRoom core slot) s = .next t ∧ (t.tile (tileOf core)).joining = (s.tile (tileOf core)).joining ++ [m] ∧
          t.slot w = { y with park := .member } ∧ t.ranges = (s.register (.member w) y.part y.pid qs).ranges ∧ s.SameMemory t ∧ s.OtherSlots t w) ∧
      (∀ c, i = .cert c → c.who = w → s.lockedRange y.pid (fun _ => false) cs = none →
        ∃ t, exec (.rangeTableRoom core slot) s = .next t ∧ (t.tile (tileOf core)).certs = (s.tile (tileOf core)).certs ++ [c] ∧
          t.slot w = { y with park := .certify } ∧ t.ranges = (s.register (.certify (tileOf core) w c.thread) y.part y.pid qs).ranges ∧
          s.SameMemory t ∧ s.OtherSlots t w) ∧
      (∀ j, i = .job j → j.who = w → s.lockedRange y.pid (fun _ => false) cs = none → let e := s.engine (tileOf core)
        ∃ t, exec (.rangeTableRoom core slot) s = .next t ∧ y.WroteG (t.slot w) 4 (BitVec.ofNat 64 e.nextNum) ∧ (t.slot w).pc = y.pc + 4 ∧
          (t.slot w).park = .ready ∧ (t.engine (tileOf core)).nextNum = e.nextNum + 1 ∧
          t.ranges = (s.register (.job (tileOf core) e.nextNum) j.part j.pid qs).ranges ∧ s.SameMemory t ∧ s.OtherSlots t w)))

/-- R73, R80 to R83, R97, R145, R147, R149, R150 and R292 to R294: a load writes the shadow plane, with its format, keys
and assumed tags, and leaves +0 where no record reaches; a swap exchanges the planes; MZERO clears the accumulators and
the mode; a stream adds one exact K-block of each row that is not skipped, rounded once, accrues the flags of its K-blocks
and roundings in the slots that issued it, and leaves every other accumulator as it was; and a row that the array has passed
before the rest changes nothing of what the step leaves.  An OL4 weight enters with its scale, exactly.  That the flags of
an accumulation accrue as a drain's do is read from R71 by inference, and that a product of ±0 is left out of M is the
model's choice (log entry 33). -/
def Obligations.ArrayLoadsAndStreams : Prop := ∀ (s : State) (k : Nat) (o : GangOp) (rest : List GangOp),
  let x := s.tile k
  let takesPart := fun (r : OpRec) (i j : Nat) => r.bitmap = 0 ∨ nbit (s.nat (rawKey r.bitmap + 8 * i) 8) j = true
  let elem := fun (r : OpRec) (i j : Nat) (v : Option FV) => (takesPart r i j → v = s.opElem r i j) ∧ (¬ takesPart r i j → v = none)
  let cell := fun (p : Plane) (n : Nat) => mapGet p.cells (some zeroFV) n
  let place := fun (c i j : Nat) => if o.fn = .mtld then 32 * j + 2 * c + i else 32 * i + 2 * c + j
  let loaded := fun (p : Plane) => p.win = o.window ∧
    (∀ m ∈ o.members, ∀ r, m.record = some r → let c := m.who.core % 16
      (∀ i j, i < r.rows → j < r.cols → elem r i j (cell p (place c i j))) ∧
      mapGet p.keys 0 (2 * c) = r.key0 ∧ mapGet p.keys 0 (2 * c + 1) = r.key1 ∧
      mapGet p.sigs Tag.exact (2 * c) = r.asig ∧ mapGet p.sigs Tag.exact (2 * c + 1) = r.asig) ∧
    (∀ n, (∀ m ∈ o.members, ∀ r, m.record = some r → ∀ i j, i < r.rows → j < r.cols → place (m.who.core % 16) i j ≠ n) →
      cell p n = some zeroFV)
  let mode := if x.amode = .unset then pairMode x.live.win o.window else x.amode
  let tag := fun (r : OpRec) (n : Nat) => pairSig (readTag (winFull r.window) r.asig) (readTag (winFull x.live.win) (mapGet x.live.sigs Tag.exact n))
  let streamed := fun (t : Tile) => ∃ as, t = { x with accs := as, amode := mode, queue := rest } ∧
    (∀ m ∈ o.members, ∀ r, m.record = some r → ∀ i n, i < r.rows → n < 32 → let row := 2 * (m.who.core % 16) + i
      let a := x.acc row n
      (s.opRow r i = none → t.acc row n = { a with k := a.k + r.cols }) ∧
      (∀ vs, s.opRow r i = some vs → let b := x.live.kblock vs n
        t.acc row n = { val := (accSum mode a.val b.1).1, m := maxE a.m b.2, k := a.k + r.cols, sig := pairSig a.sig (tag r n),
                        rounded := a.rounded || (accSum mode a.val b.1).2.getLsbD 0 })) ∧
    (∀ row n, n < 32 → (∀ m ∈ o.members, ∀ r, m.record = some r → ∀ i, i < r.rows → 2 * (m.who.core % 16) + i ≠ row) → t.acc row n = x.acc row n)
  let fresh := o.row = 0 ∧ o.fl = []
  let rowFlags := fun (q : Nat × OpRec × Nat) (n : Nat) => match s.opRow q.2.1 q.2.2 with
    | none => (0 : Flags)
    | some vs => if mode = .int then 0 else x.live.kblockFlags vs n ||| (accSum mode (x.acc (2 * q.1 + q.2.2) n).val (x.live.kblock vs n).1).2
  let flags := fun (c : Nat) => o.opRows.foldl (fun f q => f ||| rowFlags q (2 * c) ||| rowFlags q (2 * c + 1)) (0 : Flags)
  (s.RunsNext k o rest →
    (fresh → ((o.fn = .mldw ∧ ∀ m ∈ o.members, ∀ r, m.record = some r → r.rows ≤ 32 ∧ r.cols ≤ 2) ∨
      (o.fn = .mtld ∧ ∀ m ∈ o.members, ∀ r, m.record = some r → r.rows ≤ 2 ∧ r.cols ≤ 64)) →
      s.ArrayStep (.shadowLoad k) k o (fun t => ∃ p, t = { x with shadow := p, queue := rest } ∧ loaded p)) ∧
    (o.fn = .mswap → s.ArrayStep (.planeSwap k) k o (fun t => t = { x with live := x.shadow, shadow := x.live, queue := rest })) ∧
    (o.fn = .mzero → s.ArrayStep (.accumulatorZero k) k o (fun t => t = { x with accs := [], amode := .unset, queue := rest })) ∧
    (fresh → o.fn = .mstrm → (∀ m ∈ o.members, m.who.slot < 8 ∧ ∀ r, m.record = some r → r.rows ≤ 2) →
      ∃ t, exec (.streamPass k) s = .next t ∧ streamed (t.tile k) ∧ t.ranges = s.ranges.filter (fun r => decide (r.owner ≠ .op k o.num)) ∧
        (∀ c w, c < 16 → s.flagSlot k o c = some w → (s.slot w).OnlyFlags (t.slot w) (flags c)) ∧
        (∀ w, (∀ c, c < 16 → s.flagSlot k o c ≠ some w) → w.slot < 8 → t.slot w = s.slot w) ∧
        s.SameMemory t ∧ s.SameCores t ∧ s.OtherTiles t k ∧ t.net = s.net) ∧
    (o.fn.isLoad = true → exec (.shadowLoad k) (s.opRowPast k true) = exec (.shadowLoad k) s) ∧
    (o.fn = .mstrm → exec (.streamPass k) (s.opRowPast k false) = exec (.streamPass k) s)) ∧
  (∀ c w, s.flagSlot k o c = some w ↔ ∃ m, o.members.find? (fun m => decide (m.who.core % 16 = c)) = some m ∧ w = m.who ∧
    (s.slot w).occ = true ∧ (s.slot w).thread = m.thread ∧ x.mslot c = w.slot) ∧
  (∀ (r : OpRec) (i j : Nat), r.window = 5 → let q := r.first + i * r.stride + j
    let sc := (s.byte (rawKey (r.scale + (i * r.stride + j) / 32))).toInt
    (sc = -128 → s.opElem r i j = none) ∧
    (sc ≠ -128 → ∃ n m e, s.opElem r i j = some (.fin n m e) ∧ sc - 6 ≤ e ∧
      FV.units (sc - 6) (.fin n m e) = ol4Num (s.byte (spadKey (homeOf r.base) (q / 2))).toNat (q % 2 == 1))) ∧
  (∀ (p : Plane) (vs : List (Option FV)) (n : Nat) (q : Int), q ≤ 0 →
    (∀ j a w, vs[j]? = some (some a) → cell p (32 * j + n) = some w →
      ∃ na ma ea nw mw ew, a = FV.fin na ma ea ∧ w = FV.fin nw mw ew ∧ q ≤ ea + ew) →
    p.kblockFlags vs n = 0 ∧ ∃ g m e, (p.kblock vs n).1 = .fin g m e ∧ q ≤ e ∧ FV.units q (.fin g m e) = ((List.range vs.length).map (fun j =>
      match vs.getD j none, cell p (32 * j + n) with
      | some a, some w => FV.units q (mulFV a w)
      | _, _ => 0)).sum) ∧
  (∀ a b : FV, (accSum .fp a b).1 = (if a = .nan then .nan else plusZero (accFmt.value (roundFV accFmt .rne (addFV .rne a b)).1)) ∧
    (accSum .fp a b).2 = (if a = .nan then 0 else (roundFV accFmt .rne (addFV .rne a b)).2 |||
      (if b ≠ .nan ∧ addFV .rne a b = .nan then 16 else 0)) ∧
    fvInt (accSum .int a b).1 = max (-(2 ^ 47)) (min (2 ^ 47 - 1) (fvInt a + fvInt b)) ∧ (accSum .int a b).2 = 0) ∧
  (∀ (p : Plane) (vs : List (Option FV)) (n j : Nat) (g : Bool) (a w : FV), vs[j]? = some (some a) → cell p (32 * j + n) = some w →
    (a = .inf g ∧ w = zeroFV) ∨ (a = zeroFV ∧ w = .inf g) → (p.kblock vs n).1 = .nan ∧ (p.kblockFlags vs n).getLsbD 4 = true)

/-- R82, R83, R97, R152 to R154, R295, R296 and R323: a drain writes every accumulator in its format with its tag, the
zero masks behind them, accrues the flags in the slots that issued it, by the columns of their cores, and only then sends
the wake-up; a grouped product streams into cleared rows, drains each group so, accrues the flags of both, and leaves the
accumulators as after MZERO; a row that the array has passed before the rest changes nothing of what the step leaves; and
the values of each format.  The sat of a column is the one that its slot had when it issued the operation, and that the
flags of a grouped product's accumulation accrue is read from R71 by inference (log entry 33). -/
def Obligations.ArrayDrains : Prop := ∀ (s : State) (k : Nat) (o : GangOp) (rest : List GangOp) (v : Word),
  let x := s.tile k
  let ors := fun (rows : Nat) (fl : Nat → Nat → Flags) (c : Nat) =>
    (List.range rows).foldl (fun f j => f ||| fl j (2 * c) ||| fl j (2 * c + 1)) (0 : Flags)
  let wakes := fun (t : State) (d : Nat) => if dwWake v then ∃ m, t.net.getLast? = some m ∧ m.body = .decrement (dwRecord v) d o.launch false ∧
      t.net.length = s.net.length + 1 else t.net.length = s.net.length
  let drains := fun (i : Instr) (rows : Nat) (out : Nat → Nat → Nat × Tag × Flags) (fl : Nat → Nat → Flags) (T : Tile) => ∃ t, exec i s = .next t ∧ s.DrainedTo t v rows out ∧
    t.tile k = T ∧ t.ranges = s.ranges.filter (fun r => decide (r.owner ≠ .op k o.num)) ∧ wakes t (if rows = 0 then 0 else 1) ∧
    (∀ c w, c < 16 → s.flagSlot k o c = some w → (s.slot w).OnlyFlags (t.slot w) (ors rows fl c)) ∧
    (∀ w, (∀ c, c < 16 → s.flagSlot k o c ≠ some w) → w.slot < 8 → t.slot w = s.slot w) ∧ s.SameCores t ∧ s.OtherTiles t k
  let mode := pairMode x.live.win o.window
  let tag := fun (r : OpRec) (n : Nat) => pairSig (readTag (winFull r.window) r.asig) (readTag (winFull x.live.win) (mapGet x.live.sigs Tag.exact n))
  let once := fun (r : OpRec) (i n : Nat) => match s.opRow r i with
    | none => { Accum.reset with k := r.cols }
    | some vs => let b := x.live.kblock vs n
      ({ val := (accSum mode zeroFV b.1).1, m := b.2, k := r.cols, sig := tag r n, rounded := (accSum mode zeroFV b.1).2.getLsbD 0 } : Accum)
  let group := fun (j n : Nat) => ((o.opRows[j]?).map (fun q => (once q.2.1 q.2.2 n).drain mode (dwFmt v) (o.colSat (n / 2)))).getD (0, 0, 0)
  let added := fun (j n : Nat) => ((o.opRows[j]?).map (fun q => match s.opRow q.2.1 q.2.2 with
    | none => (0 : Flags)
    | some vs => if mode = .int then 0 else x.live.kblockFlags vs n ||| (accSum mode zeroFV (x.live.kblock vs n).1).2)).getD 0
  let out := fun (j n : Nat) => (x.acc j n).drain x.amode (dwFmt v) (o.colSat (n / 2))
  (s.RunsNext k o rest → (∀ m ∈ o.members, m.who.slot < 8 ∧ ∀ r, m.record = some r → r.rows ≤ 2) →
    (o.fn = .mdrain → o.rb = v → s.DrainOpen v 32 →
      (o.row = 0 → o.fl = [] → drains (.drain k) 32 out (fun j n => (out j n).2.2) { x with queue := rest }) ∧
      exec (.drain k) (s.opRowPast k false) = exec (.drain k) s) ∧
    (o.fn = .mgrp → o.members.head?.map (fun m => m.words) = some [v] → dwRows v ≤ o.opRows.length → s.DrainOpen v (dwRows v) →
      (o.row = 0 → o.fl = [] → drains (.groupedProduct k) (dwRows v) group (fun j n => added j n ||| (group j n).2.2)
        { x with accs := [], amode := .unset, queue := rest }) ∧
      exec (.groupedProduct k) (s.opRowPast k false) = exec (.groupedProduct k) s)) ∧
  (∀ c, o.colSat c = true ↔ ∃ m ∈ o.members, m.who.core % 16 = c ∧ m.sat = true) ∧
  (∀ (a : Accum) (sat : Bool) (f : Nat),
    (∀ m : AccMode, m = .unset ∨ a.k = 0 → a.drain m f sat = (0, if f = 0 then Tag.exact else Tag.none, 0)) ∧
    (a.k ≠ 0 → (a.drain .fp 0 sat).1 = (roundFV f32 .rne a.val).1 ∧ (a.drain .fp 0 sat).2.2 = (roundFV f32 .rne a.val).2 ∧
      ((a.drain .int 4 sat).1 : Int) = max (-(2 ^ 31)) (min (2 ^ 31 - 1) (fvInt a.val)) % 2 ^ 32 ∧
      (f ≠ 0 → (a.drain .fp f sat).2.1 = Tag.none ∧ (a.drain .int f sat).2.1 = Tag.none) ∧
      (∀ n m e, a.val = .fin n m e → let out := (a.drain .fp 0 sat).1
        f32.isFinite out = true →
        (a.sig = Tag.exact → (a.drain .fp 0 sat).2.1 = if a.rounded = false ∧ (roundFV f32 .rne a.val).2.getLsbD 0 = false then Tag.exact else 24) ∧
        (a.sig ≠ Tag.exact → f32.isZero out = true → (a.drain .fp 0 sat).2.1 = 0) ∧
        (∀ M E, a.sig ≠ Tag.exact → f32.isZero out = false → a.m = some M → leadFV (f32.value out) = some E →
          ((a.drain .fp 0 sat).2.1.toNat : Int) = min (max 0 (E - (M + 2 - a.sig.toNat) - clog2 a.k + 1)) (f32.avail out))) ∧
      ((∀ n m e, a.val ≠ .fin n m e) → (a.drain .fp 0 sat).2.1 = 0) ∧
      (a.val = .nan → (a.drain .fp 1 sat).1 = 0x7FC0 ∧ (a.drain .fp 2 sat).1 = 0x7F ∧ (a.drain .fp 3 sat).1 = 0x7E) ∧
      (∀ n, a.val = .inf n → let sg := if n then 128 else 0
        (a.drain .fp 1 sat).1 = 256 * sg + 0x7F80 ∧ (a.drain .fp 2 sat).1 = sg + 0x7E ∧ (a.drain .fp 3 sat).1 = sg + 0x7C) ∧
      (∀ n m e, a.val = .fin n m e → let sg := if n then 128 else 0
        let r := fun (F : Fmt) => roundFin F .rne n m e false
        let high := cmpFV (.fin false 448 0) (.fin false m e) < 0
        ((a.drain .fp 1 sat).1, (a.drain .fp 1 sat).2.2) = r ⟨8, 7, 127⟩ ∧
        (high → (a.drain .fp 2 sat).1 = sg + 0x7E ∧ (a.drain .fp 2 sat).2.2 = 5) ∧
        (¬ high → (a.drain .fp 2 sat).1 = sg + (r ⟨5, 3, 7⟩).1 % 128 ∧ (a.drain .fp 2 sat).2.2 = (r ⟨5, 3, 7⟩).2) ∧
        ((a.drain .fp 3 sat).1, (a.drain .fp 3 sat).2.2) =
          if sat = true ∧ (r ⟨5, 2, 15⟩).2.getLsbD 2 = true then (sg + 0x7B, 5) else r ⟨5, 2, 15⟩)))

/-- R160 to R163, R301 to R304 and R331: the coverage store is initialised over a range, read back as words without tags,
and raised by commits; a probe clears its gains row unless cont is set, commits each row before it probes it, and its
members wake with the winner; PRODUCT mode, whose values are the K-blocks of the live plane rounded once to FP32; a span
joins once every tile of it has applied its own pass; and a row that the array has passed before the rest changes nothing
of what the step leaves.  A step whose condition is not met leaves the state as it was, which is the model's choice (log
entry 4), and so is the FP32 image of a total in g5 (log entry 33). -/
def Obligations.CoverageSteps : Prop := ∀ (s : State) (k : Nat) (o : GangOp) (rest : List GangOp) (r : OpRec),
  let x := s.tile k
  let first := field o.rb 0 12
  let count := field o.rb 16 13
  let best := fun (t : Tile) (e : Nat) => mapGet t.cover (0 : W32) e
  let woken := fun (s t : State) (o : GangOp) (R : Slot → Slot → Prop) => ∀ m ∈ o.members, (s.slot m.who).park = .arrayDone o.num →
    R (s.slot m.who) (t.slot m.who) ∧ (t.slot m.who).pc = (s.slot m.who).pc + 4 ∧ (t.slot m.who).park = .ready
  let wins := fun (keys : SMap (BitVec 16)) (tot : Nat → FV) (w : Nat) => w < 32 ∧ ∀ c, c < 32 → cmpFV (tot c) (tot w) ≤ 0 ∧
    (cmpFV (tot c) (tot w) = 0 → (mapGet keys 0 w).toNat < (mapGet keys 0 c).toNat ∨ ((mapGet keys 0 w).toNat = (mapGet keys 0 c).toNat ∧ w ≤ c))
  let told := fun (fp : Bool) (keys : SMap (BitVec 16)) (tot : Nat → FV) (w : Nat) (y z : Slot) => ∀ q, z.g q =
    if q = 4 then BitVec.ofNat 64 ((if cmpFV (tot w) zeroFV ≤ 0 then 2 ^ 63 else 0) + (mapGet keys 0 w).toNat * 2 ^ 32 + w)
    else if q = 5 then (if fp then BitVec.ofNat 64 (roundFV f32 .rne (tot w)).1 else BitVec.ofInt 64 (fvInt (tot w))) else y.g q
  let whole := fun (v : FV) => ∃ g m, v = .fin g m 0
  let fresh := o.row = 0 ∧ o.fl = []
  let gone := fun (t : State) => t.ranges = s.ranges.filter (fun r => decide (r.owner ≠ .op k o.num))
  let one := (o.members.filterMap (fun m => m.record)).filter (fun r => decide (r.rows ≠ 0)) = [r]
  let ints := x.covFp = false ∧ bit o.rb 6 = false ∧ r.window = 0 ∧ r.cols = 32
  let v := fun (i c : Nat) => if r.bitmap = 0 ∨ nbit (s.nat (rawKey r.bitmap + 8 * i) 8) c = true
    then (BitVec.ofNat 32 (s.nat (spadKey (homeOf r.base) (4 * (r.first + i * r.stride + c))) 4)).toInt else 0
  let skipped := fun (i : Nat) => r.bitmap ≠ 0 ∧ s.nat (rawKey r.bitmap + 8 * i) 8 = 0
  let ebase := field o.rb 16 12
  let commit := field o.rb 0 6
  let raised := fun (i : Nat) => if commit < 32 ∧ ¬ skipped i then max (best x (ebase + i)).toInt (v i commit) else (best x (ebase + i)).toInt
  let gain := fun (c : Nat) => ((List.range r.rows).filter (fun i => decide (¬ skipped i))).foldl
    (fun a i => max (-(2 ^ 47)) (min (2 ^ 47 - 1) (a + max 0 (v i c - raised i))))
    (if bit o.rb 7 then fvInt (x.acc o.imm c).val else 0)
  let product := x.covFp = true ∧ bit o.rb 6 = true
  let pv := fun (i c : Nat) => (s.opRow r i).map (fun vs => (roundFV f32 .rne (x.live.kblock vs c).1).1)
  let pbest := fun (i : Nat) => match if commit < 32 then pv i commit else none with
    | some a => if f32.isNaN a = true then (best x (ebase + i)).toNat else (fpMinMax f32 true (best x (ebase + i)).toNat a).1
    | none => (best x (ebase + i)).toNat
  let pgain := fun (c : Nat) => (List.range r.rows).foldl (fun (a : FV) i => match pv i c with
    | some b => let d := (fpSub f32 .rne b (pbest i)).1
      if f32.isNaN b = true then a else (accSum .fp a (if f32.isNaN d = true ∨ f32.sign d = true then zeroFV else plusZero (f32.value d))).1
    | none => a) (if bit o.rb 7 then (x.acc o.imm c).val else zeroFV)
  let kept := fun (t : Tile) => ∀ e, e < ebase ∨ ebase + r.rows ≤ e → best t e = best x e
  let stored := fun (t : Tile) => (∀ i, i < r.rows → (best t (ebase + i)).toInt = raised i) ∧
    ∀ e, e < ebase ∨ ebase + r.rows ≤ e → best t e = best x e
  let probed := fun (t : State) => (t.tile k).amode = .int ∧ (t.tile k).live = x.live ∧ stored (t.tile k) ∧
    (∀ c, c < 32 → fvInt ((t.tile k).acc o.imm c).val = gain c ∧ ((t.tile k).acc o.imm c).k =
      (if bit o.rb 7 then (x.acc o.imm c).k else 0) + ((List.range r.rows).filter (fun i => decide (¬ skipped i))).length) ∧
    (∀ row c, row ≠ o.imm → c < 32 → (t.tile k).acc row c = x.acc row c) ∧ s.SameMemory t ∧ s.SameCores t ∧ s.OtherTiles t k
  let pprobed := fun (t : State) => (t.tile k).amode = .fp ∧ (t.tile k).live = x.live ∧ kept (t.tile k) ∧
    (∀ i, i < r.rows → (best (t.tile k) (ebase + i)).toNat = pbest i) ∧
    (∀ c, c < 32 → ((t.tile k).acc o.imm c).val = pgain c ∧ ((t.tile k).acc o.imm c).k =
      (if bit o.rb 7 then (x.acc o.imm c).k else 0) + ((List.range r.rows).filter (fun i => decide (¬ skipped i))).length) ∧
    (∀ row c, row ≠ o.imm → c < 32 → (t.tile k).acc row c = x.acc row c) ∧ s.SameMemory t ∧ s.SameCores t ∧ s.OtherTiles t k
  (s.RunsNext k o rest →
    (o.fn = .mcovi → s.ArrayStep (.coverageInit k) k o (fun t => (∃ cs, t = { x with covFp := bit o.rb 31, cover := cs, queue := rest }) ∧
      ∀ e, best t e = if first ≤ e ∧ e < first + count then BitVec.ofNat 32 (o.rb.toNat / 2 ^ 32) else best x e)) ∧
    (o.fn = .mcovc → fresh → one → ints → (commit < 32 ∨ commit = 63) →
      s.ArrayStep (.coverageCommit k) k o (fun t => (∃ cs, t = { x with cover := cs, queue := rest }) ∧ stored t)) ∧
    (o.fn = .mcovr → let d := rawKey o.ra.toNat
      o.ra.toNat % 4 = 0 → offOf o.ra.toNat + 4 * count ≤ reservedBase → s.poison = [] →
      (∀ p ∈ (s.core (homeOf o.ra.toNat)).objects, p.1 + 64 ≤ offOf o.ra.toNat ∨ offOf o.ra.toNat + 4 * count ≤ p.1) →
      (∀ m ∈ o.members, m.who.slot < 8) →
      ∃ t, exec (.coverageReadback k) s = .next t ∧ (∀ e, e < count → t.nat (d + 4 * e) 4 = (best x (first + e)).toNat ∧ t.sideTag (d + 4 * e) = Tag.none) ∧
        (∀ a, a < d ∨ d + 4 * count ≤ a → t.byte a = s.byte a ∧ t.sideTag a = s.sideTag a) ∧ t.tile k = { x with queue := rest } ∧ gone t ∧
        woken s t o Slot.SameRegs ∧ s.SameCores t ∧ s.OtherTiles t k) ∧
    (o.fn = .mcovp → fresh → one → ints → (commit < 32 ∨ commit = 63) → (∀ m ∈ o.members, m.who.slot < 8) →
      (x.amode = .unset ∨ x.amode = .int) → (∀ c, c < 32 → whole (x.acc o.imm c).val) →
      (field o.rb 32 4 = 0 → ∃ t, exec (.coverageProbe k) s = .next t ∧ (t.tile k).queue = rest ∧ probed t ∧
        (∃ w, wins x.live.keys (fun c => intFV (gain c) 0) w ∧ woken s t o (told false x.live.keys (fun c => intFV (gain c) 0) w)) ∧ gone t) ∧
      (field o.rb 32 4 ≠ 0 → (∀ j ∈ spanTiles k o.rb, ∃ p, (s.tile j).spanOp x.spans = some p ∧ p.rb = o.rb) →
        ∃ t, exec (.coverageProbe k) s = .next t ∧ (t.tile k).queue = { o with probed := true } :: rest ∧ probed t ∧ s.SameSlots t)) ∧
    (o.fn = .mcovp → fresh → one → product → (commit < 32 ∨ commit = 63) → (∀ m ∈ o.members, m.who.slot < 8) →
      (x.amode = .unset ∨ x.amode = .fp) → field o.rb 32 4 = 0 → (∀ c, c < 32 → pgain c ≠ .nan) →
      ∃ t, exec (.coverageProbe k) s = .next t ∧ (t.tile k).queue = rest ∧ pprobed t ∧
        (∃ w, wins x.live.keys pgain w ∧ woken s t o (told true x.live.keys pgain w)) ∧ gone t) ∧
    (o.fn = .mcovc → exec (.coverageCommit k) (s.opRowPast k false) = exec (.coverageCommit k) s) ∧
    (o.fn = .mcovp → field o.rb 32 4 = 0 → exec (.coverageProbe k) (s.opRowPast k false) = exec (.coverageProbe k) s) ∧
    (o.fn = .mcovp → field o.rb 32 4 ≠ 0 → (∃ j ∈ spanTiles k o.rb, (s.tile j).spanOp x.spans = none) →
      exec (.coverageProbe k) s = .next s)) ∧
  ((∀ j ∈ spanTiles k o.rb, s.tileRuns j = true) → (x.queue = o :: rest → x.waitingSpan x.spans = some o →
    ((∃ j ∈ spanTiles k o.rb, (s.tile j).waitingSpan x.spans = none) → exec (.spanJoin k) s = .next s) ∧
    (∀ f : Nat → GangOp, (∀ j ∈ spanTiles k o.rb, (s.tile j).waitingSpan x.spans = some (f j) ∧ (s.tile j).covFp = x.covFp ∧
        (f j).members.map (fun m => m.who.core) = (List.range 16).map (fun c => 16 * j + c) ∧ (∀ m ∈ (f j).members, m.who.slot < 8) ∧
        (x.covFp = false → ∀ c, c < 32 → whole ((s.tile j).acc (f j).imm c).val)) →
      let part := fun (c j : Nat) => ((s.tile j).acc (f j).imm c).val
      let total := fun (c : Nat) => (spanTiles k o.rb).tail.foldl (fun a j => (accSum (covMode x.covFp) a (part c j)).1)
        (part c ((spanTiles k o.rb).headD 0))
      (∀ c, c < 32 → total c ≠ .nan) →
      ∃ t, exec (.spanJoin k) s = .next t ∧ s.SameMemory t ∧ ∀ j ∈ spanTiles k o.rb, (t.tile j).spans = x.spans + 1 ∧
        (t.tile j).queue = (s.tile j).queue.filter (fun p => decide (p.num ≠ (f j).num)) ∧
        (∃ w, wins (s.tile j).live.keys total w ∧ woken s t (f j) (told x.covFp (s.tile j).live.keys total w)))))

/-- R145, R151, R287 and R297: the array starts the operation at the head of its queue, a shadow load runs beside an
operation on the live plane and MSWAP waits for what runs before it, each with a snapshot of what it writes; a rerun with
a good read restores the snapshot, performs the operation and is counted; one that fails restores it, discards the
operation and those behind it and is counted, and the error is pending on every member, or is taken by a member that is
parked in it; and MSTAT writes the status.  That a step whose condition is not met leaves the state as it was (log entry
4), that members parked in a failed MCOVP or MCOVR take the MTXERR themselves, that an operation which waits on its span
counts as running in MSTAT, and which code names the array read that failed (log entry 33) are the model's choices. -/
def Obligations.ArrayErrorsAndStatus : Prop := ∀ (s : State) (k : Nat) (o : GangOp) (rest : List GangOp),
  let x := s.tile k
  let y := s.tile (tileOf s.cur.core)
  let m := y.mslot (s.cur.core % 16)
  let run := fun (f : GangFn) => match f with
    | .mldw => Instr.shadowLoad k | .mtld => .shadowLoad k | .mswap => .planeSwap k | .mzero => .accumulatorZero k | .mstrm => .streamPass k
    | .mgrp => .groupedProduct k | .mdrain => .drain k | .mcovi => .coverageInit k | .mcovp => .coverageProbe k
    | .mcovc => .coverageCommit k | .mcovr => .coverageReadback k
  let names := fun (f : GangFn) => match f with
    | .mldw => (0x2D, 1, 1) | .mtld => (0x2D, 2, 1) | .mswap => (0x2D, 3, 0) | .mzero => (0x2D, 4, 0) | .mstrm => (0x2D, 5, 0)
    | .mgrp => (0x2D, 6, 0) | .mdrain => (0x2D, 7, 3) | .mcovi => (0x2F, 0, 2) | .mcovp => (0x2F, 1, 2) | .mcovc => (0x2F, 2, 2)
    | .mcovr => (0x2F, 3, 2)
  let v := BitVec.ofNat 64 ((names o.fn).2.2 + (names o.fn).2.1 * 2 ^ 18 + (names o.fn).1 * 2 ^ 26 + o.seq % 2 ^ 32 * 2 ^ 32)
  let sums := fun (f : GangFn) => decide (f = .mzero ∨ f = .mstrm ∨ f = .mgrp ∨ f = .mcovp)
  let loads := fun (f : GangFn) => decide (f = .mldw ∨ f = .mtld)
  let covers := fun (f : GangFn) => decide (f = .mcovi ∨ f = .mcovp ∨ f = .mcovc)
  let back := fun (q : GangOp) (y : Tile) => match q.snap with
    | none => y
    | some p => { y with accs := if sums q.fn then p.accs else y.accs, amode := if sums q.fn then p.amode else y.amode,
                         shadow := if loads q.fn then p.shadow else y.shadow, cover := if covers q.fn then p.cover else y.cover,
                         covFp := if q.fn = .mcovi then p.covFp else y.covFp }
  let snap : Snap := { accs := x.accs, amode := x.amode, shadow := x.shadow, covFp := x.covFp, cover := x.cover }
  let errs := s.opPoison o = true ∨ o.fn = .mdrain ∨ o.fn = .mcovp ∨ o.fn = .mcovc ∨ o.fn = .mcovr
  let old := back o (rest.foldr back x)
  let cut := fun (t : State) => (t.tile k).queue = [] ∧ (t.tile k).live = x.live ∧ (t.tile k).shadow = old.shadow ∧ (t.tile k).accs = old.accs ∧
    (t.tile k).cover = old.cover ∧ (t.tile k).covFp = old.covFp ∧ (t.tile k).amode = old.amode ∧ s.sys.counted t.sys 0x140 1 ∧ s.SameMemory t ∧ s.SameCores t ∧ s.OtherTiles t k ∧ t.net = s.net ∧
    t.ranges = s.ranges.filter (fun r => match r.owner with | .op j n => decide (j ≠ k ∨ n < o.num) | _ => true)
  (s.tileRuns k = true → x.queue = o :: rest → (∀ p ∈ rest, p.started = false ∧ p.num ≠ o.num) →
    (o.started = false → ∃ t, exec (run o.fn) s = .next t ∧ t.tile k = { x with queue := { o with started := true, snap := some snap } :: rest } ∧
      t.ranges = s.ranges ∧ s.SameMemory t ∧ s.SameSlots t ∧ s.SameCores t ∧ s.OtherTiles t k ∧ t.net = s.net) ∧
    (o.started = true → o.fn ≠ .mswap →
      (∀ p more, rest = p :: more → o.fn ≠ .mldw → o.fn ≠ .mtld → p.fn = .mldw ∨ p.fn = .mtld → (∀ q ∈ more, q.num ≠ p.num) →
        ∃ t, exec (.shadowLoad k) s = .next t ∧ t.tile k = { x with queue := o :: { p with started := true, snap := some snap } :: more } ∧ s.SameMemory t ∧ s.SameSlots t) ∧
      exec (.planeSwap k) s = .next s)) ∧
  (s.tileRuns k = true → x.queue = o :: rest → o.started = true → o.probed = false → (∀ p ∈ rest, p.started = false) →
    (s.opPoison { o with row := 0 } = true → exec (.matrixRerun k true) s = .next s) ∧
    (s.opPoison { o with row := 0 } = false → (∀ p ∈ rest, p.num ≠ o.num) → ∃ u, exec (.matrixRerun k true) s = exec (run o.fn) u ∧
      u.tile k = { back o x with queue := { o with row := 0, fl := [] } :: rest } ∧ s.sys.counted u.sys 0x130 1 ∧ u.ranges = s.ranges ∧
      s.SameMemory u ∧ s.SameSlots u ∧ s.SameCores u ∧ s.OtherTiles u k ∧ u.net = s.net) ∧
    (¬ errs → exec (.matrixRerun k false) s = .next s) ∧
    (errs → (s.opPoison o = true ∨ (mapGet s.sys.scrubs [] (errorKey (.tile k))).length < 3) → (∀ p ∈ rest, o.num < p.num) →
      ((∀ p ∈ x.queue, ∀ m ∈ p.members, (s.slot m.who).park ≠ .arrayDone p.num) →
        ∃ t, exec (.matrixRerun k false) s = .next t ∧ cut t ∧ s.SameSlots t ∧
          ∀ m ∈ o.members, mapGet (t.tile k).pendErr 0 (m.who.core % 16) = v) ∧
      (rest = [] → o.members.map (fun m => m.who.core) = (List.range 16).map (fun c => 16 * k + c) →
        (∀ m ∈ o.members, m.who.slot < 8 ∧ (s.slot m.who).park = .arrayDone o.num ∧ (s.slot m.who).outstanding = [] ∧
          (s.slot m.who).relaxedFault = none ∧ (s.slot m.who).canEnter .mtxerr v = true) →
        ∃ t, exec (.matrixRerun k false) s = .next t ∧ cut t ∧ (t.tile k).pendErr = x.pendErr ∧
          ∀ m ∈ o.members, Slot.Enters { s.slot m.who with csr := { (s.slot m.who).csr with mtxerr := v } } (t.slot m.who) .mtxerr v))) ∧
  (isLarge s.cur.core = false → y.pendErr.find? (fun e => e.1 == s.cur.core % 16) = none → s.me.relaxed = [] → s.me.unacked = [] →
    s.ComputesG .mstat 4 (BitVec.ofNat 64 ((y.queue.filter (fun o => !o.started)).length + (match y.amode with | .unset => 0 | .fp => 1 | .int => 2) * 2 ^ 8 +
      y.live.win * 2 ^ 10 + y.shadow.win * 2 ^ 13 + 
      (if y.queue.any (fun o => o.started && decide (o.fn ≠ .mldw ∧ o.fn ≠ .mtld)) then 2 ^ 17 else 0) +
      (if y.queue.any (fun o => o.started && decide (o.fn = .mldw ∨ o.fn = .mtld)) then 2 ^ 18 else 0) +
      (if y.certs = [] then 0 else 2 ^ 19) + (s.inGang (tileOf s.cur.core)).length * 2 ^ 20 + (if m = 8 then 0 else 2 ^ 25 + m * 2 ^ 26) +
      min y.gops 65535 * 2 ^ 32)))

/-- R155 to R158, R298, R299 and R329: ANORM parks past its checks and leaves in g4 the least FP32 number that is no less
than the norm; ACERT joins its tile's check stage, which classifies each neuron with every operation rounded up, replays
the fewest that bring the rest under the budget, writes the counts, the bitmap and the list, and wakes it with the
bound, unless its thread has been killed since.  The neurons are those of the record's arrays p, e and c; the replay count
is the smallest whose tail sum is at most eps, and the bound is that sum. -/
def Obligations.CertifiedSparse : Prop := ∀ (s : State) (a b : BitVec 5) (core slot k : Nat) (c : Cert) (rest : List Cert) (qs : List RangeReq),
  let p := (s.g a).toNat
  let n := (s.g b).toNat
  let w : Who := ⟨core, slot⟩
  let y := s.slot w
  let words := fun (p n : Nat) => (List.range n).map (fun i => s.nat (rawKey p + 4 * i) 4)
  let z := fun (i : Instr) (c : Cause) (v : Word) => exec i s = .next (s.trapAt s.cur c v)
  (isLarge s.cur.core = false → s.me.relaxed = [] → s.me.unacked = [] →
    (p % 4 = 0 → p < 2 ^ 36 → s.inPart s.me.part (homeOf p) = true → 1 ≤ n → n ≤ 4096 → offOf p + 4 * n ≤ reservedBase →
      (∀ i, i < n → blocksLoad (s.spadMeets (rawKey p + 4 * i) (rawKey p + 4 * i + 4)) = false) →
      ∃ t, exec (.anorm a b) s = .next t ∧ s.OnlySlot t ∧ t.me = { s.me with park := .norm a b }) ∧
    (p % 4 ≠ 0 → z (.anorm a b) .align (s.g a)) ∧
    (p % 4 = 0 → (2 ^ 36 ≤ p ∨ s.inPart s.me.part (homeOf p) = false ∨ reservedBase ≤ offOf p) → z (.anorm a b) .access (s.g a)) ∧
    (p % 4 = 0 → p < 2 ^ 36 → s.inPart s.me.part (homeOf p) = true → offOf p < reservedBase → (n = 0 ∨ 4096 < n) → z (.anorm a b) .bounds 0) ∧
    (s.certPlan (s.g a) = .ok qs → s.lockedRange s.me.pid (fun _ => false) qs = none → s.rangesFit s.me.part s.me.pid qs = true →
      ∃ t, exec (.acert a) s = .next t ∧ (t.tile (tileOf s.cur.core)).certs = (s.tile (tileOf s.cur.core)).certs ++
          [{ who := s.cur, record := p, thread := s.me.thread, launch := s.me.launch, pid := s.me.pid }] ∧
        t.me = { s.me with park := .certify } ∧
        t.ranges = (s.register (.certify (tileOf s.cur.core) s.cur s.me.thread) s.me.part s.me.pid qs).ranges ∧ s.SameMemory t ∧ s.OtherSlots t s.cur) ∧
    (p % 64 ≠ 0 → z (.acert a) .align (s.g a)) ∧
    (p % 64 = 0 → (s.userArea s.me.part p 64 = false ∨ tileOf (homeOf p) ≠ tileOf s.cur.core) → z (.acert a) .access (s.g a))) ∧
  (s.coreRuns core = true → y.park = .norm a b → let q := (y.g a).toNat
    let m := (y.g b).toNat
    (∀ i, i < m → blocksLoad (s.spadMeets (rawKey q + 4 * i) (rawKey q + 4 * i + 4)) = false ∧ s.anyPoison (rawKey q + 4 * i) 4 = false) →
    ∃ t, exec (.anormResult core slot) s = .next t ∧ y.WroteG (t.slot w) 4 (BitVec.ofNat 64 (normOf (words q m))) ∧ y.SameV (t.slot w) ∧
      (t.slot w).pc = y.pc + 4 ∧ (t.slot w).park = .ready ∧ (t.slot w).csr = y.csr ∧ s.SameMemory t ∧ s.OtherSlots t w ∧ s.SameCores t) ∧
  (∀ xs : List Nat, (∀ x ∈ xs, x < 2 ^ 32) →
    ((∃ x ∈ xs, f32.isInf x = true) → normOf xs = 0x7F800000) ∧
    ((∀ x ∈ xs, f32.isInf x = false) → (∃ x ∈ xs, f32.isNaN x = true) → normOf xs = 0x7FC00000) ∧
    ((∀ x ∈ xs, f32.isFinite x = true) → normOf xs ≤ 0x7F800000 ∧ ∀ u, u < 0x7F800000 →
      (normOf xs ≤ u ↔ (xs.map (fun x => FV.units (-149) (f32.value x) ^ 2)).sum ≤ FV.units (-149) (f32.value u) ^ 2))) ∧
  (s.tileRuns k = true → (s.tile k).certs = c :: rest → let x := s.certRec c.record
    let o := s.certRun x
    let n := certN x
    let bm := nfield x 192 64
    let ls := nfield x 256 64
    let inArea := fun (p : Nat × Nat) => p.1 < 2 ^ 36 ∧ offOf p.1 + p.2 ≤ reservedBase
    s.poison = [] → (∀ j, (s.core j).objects = []) → inArea (c.record, 64) → inArea (bm, 8 * ceilDiv n 64) → inArea (ls, 2 * n) →
    arraysMeet (c.record, 64) (bm, 8 * ceilDiv n 64) = false → arraysMeet (c.record, 64) (ls, 2 * n) = false →
    arraysMeet (bm, 8 * ceilDiv n 64) (ls, 2 * n) = false →
    let waits := (s.slot c.who).park = .certify ∧ (s.slot c.who).thread = c.thread
    ∃ t, exec (.certification k) s = .next t ∧
      t.nat (rawKey c.record + 56) 8 = (o.nrep + o.nunc * 2 ^ 16 + o.nact * 2 ^ 32 + o.ninact * 2 ^ 48) % 2 ^ 64 ∧
      t.nat (rawKey bm) (8 * ceilDiv n 64) = (o.fetched.map (fun i => 2 ^ i)).sum ∧
      (∀ j i, o.fetched[j]? = some i → t.nat (rawKey ls + 2 * j) 2 = i) ∧
      (∀ q, (q < rawKey c.record + 56 ∨ rawKey c.record + 64 ≤ q) → (q < rawKey bm ∨ rawKey bm + 8 * ceilDiv n 64 ≤ q) →
        (q < rawKey ls ∨ rawKey ls + 2 * o.fetched.length ≤ q) → t.byte q = s.byte q) ∧
      (waits → (s.slot c.who).WroteG (t.slot c.who) 4 (BitVec.ofNat 64 o.bound) ∧ (t.slot c.who).pc = (s.slot c.who).pc + 4 ∧
        (t.slot c.who).park = .ready) ∧ (¬ waits → s.SameSlots t) ∧ (t.tile k).certs = rest ∧
      t.ranges = s.ranges.filter (fun r => decide (r.owner ≠ .certify k c.who c.thread)) ∧ s.OtherSlots t c.who ∧ s.SameCores t ∧ s.OtherTiles t k) ∧
  (∀ (act : Bool) (norm theta p e d : Nat), let up := fun (r : Nat × Flags) => if f32.isNaN r.1 then 0x7F800000 else r.1
    let t := up (fpAdd f32 .rup p (up (fpMul f32 .rup e norm)))
    let nan := f32.isNaN p = true ∨ f32.isNaN e = true ∨ f32.isNaN d = true ∨ f32.isNaN norm = true
    let above := f32.isNaN p = false ∧ f32.isNaN theta = false ∧ cmpFV (f32.value theta) (f32.value p) < 0
    (¬ nan → cmpFV (f32.value t) zeroFV ≤ 0 → classify act norm theta p e d = .inactive) ∧
    ((nan ∨ 0 < cmpFV (f32.value t) zeroFV) → above → classify act norm theta p e d = .active) ∧
    (nan → ¬ above → classify act norm theta p e d = .uncertain 0x7F800000) ∧
    (¬ nan → 0 < cmpFV (f32.value t) zeroFV → ¬ above →
      classify act norm theta p e d = .uncertain (up (fpMul f32 .rup (if act then up (fpMul f32 .rup t t) else t) d)))) ∧
  (∀ (eps : Nat) (cs : List Neuron), let o := certify eps cs
    o.ninact + o.nact + o.nunc = cs.length ∧ o.nrep ≤ o.nunc ∧ o.fetched.length = o.nact + o.nrep ∧
    (o.nrep = o.nunc ∨ leqF o.bound eps = true) ∧ o.fetched.Pairwise (fun i j => i < j) ∧
    (∀ i, cs[i]? = some .active → i ∈ o.fetched) ∧ (∀ i, i ∈ o.fetched → ∃ d, cs[i]? = some d ∧ d ≠ .inactive) ∧
    ((∀ i b : Nat, cs[i]? = some (Neuron.uncertain b) → f32.isNaN b = false) → ∃ l : List (Nat × Nat),
      let total := fun (j : Nat) => (l.drop j).foldr (fun p t => let r := fpAdd f32 .rup p.2 t
        if f32.isNaN r.1 then 0x7F800000 else r.1) 0
      l.length = o.nunc ∧ (∀ i b : Nat, (i, b) ∈ l ↔ cs[i]? = some (Neuron.uncertain b)) ∧
      l.Pairwise (fun p q => cmpFV (f32.value q.2) (f32.value p.2) < 0 ∨ (cmpFV (f32.value q.2) (f32.value p.2) = 0 ∧ p.1 < q.1)) ∧
      o.bound = total o.nrep ∧ (∀ j, j < o.nrep → leqF (total j) eps = false) ∧
      ∀ i, i ∈ o.fetched ↔ cs[i]? = some .active ∨ ∃ b, (i, b) ∈ l.take o.nrep)) ∧
  (∀ a : Nat, let z := rawKey a
    let f := fun (j i : Nat) => s.nat (rawKey (s.nat (z + 8 * j) 8) + 4 * i) 4
    s.certRun (s.certRec a) = certify (s.nat (z + 52) 4) ((List.range (s.nat (z + 50) 2 % 2 ^ 13)).map (fun i =>
      classify (nbit (s.nat (z + 48) 1) 0) (s.nat (z + 40) 4) (s.nat (z + 44) 4) (f 0 i) (f 1 i) (f 2 i))))

/-! ### Launches: major 0x34 and the distributor -/

/-- R256, R257, R336, R337 and R343: LAUNCH checks its record, waits, and reads the record's done field; a thread with 16
unfinished launches parks; LWAIT reads the status word; the distributor queues a record that it can read, at the lower of
its priority and the issuer's, with g[rd] := 0, and otherwise reports it with g[rd] := 1; and a doorbell queues a record in
its own queue, or drops and counts the write.  The priority that the issuer gives and what is reported are the model's
reading (log entry 16), and so is that a write which cannot be taken leaves the state as it was (log entry 4). -/
def Obligations.LaunchSubmission : Prop := ∀ (s : State) (d a : BitVec 5) (id addr prio part n : Nat) (since : Option Nat) (m : Msg) (v : Word),
  let r := s.g a
  let inV := fun (a : Word) => 2 ^ 39 ≤ a.toNat ∧ a.toNat < 2 ^ 56
  let trap := fun (i : Instr) (c : Cause) => exec i s = .next (s.trapAt s.cur c r)
  let s0 : State := { s with cached := false }
  let field := fun (lo k : Nat) => n / 2 ^ lo % 2 ^ k
  let queued := fun (t : State) (q : Nat) (p : Nat) (pid : BitVec 16) => ∃ l, t.launches = s.launches ++ [l] ∧ l.id = s.nextId ∧ l.addr = addr ∧
    l.part = p ∧ l.pid = pid ∧ l.eprio = q ∧ l.enq = s.sys.meridian ∧ l.entry = BitVec.ofNat 64 (field 0 64) ∧
    l.args = BitVec.ofNat 64 (field 64 64) ∧ l.done = BitVec.ofNat 64 (field 128 64) ∧ l.signal = BitVec.ofNat 64 (field 192 64) ∧
    l.dep = BitVec.ofNat 64 (field 256 64) ∧ l.zero = decide (field 336 1 = 1) ∧ l.det = decide (field 337 1 = 1) ∧ l.gangs = 0 ∧ l.held = [] ∧
    (l.state = if l.dep ≠ 0 ∧ l.dep.toNat % 8 = 0 ∧ inV l.dep then .waitDep else .queued) ∧
    mapGet (t.part p).queues [] q = mapGet (s.part p).queues [] q ++ [s.nextId]
  let dropped := fun (t : State) => mapGet (t.part part).qdropped 0 prio = min 65535 (mapGet (s.part part).qdropped 0 prio + 1) ∧
    t.launches = s.launches ∧ s.SameSlots t ∧ s.SameMemory t ∧ s.SameCores t
  let x := s.slot m.src
  (r.toNat % 256 ≠ 0 → trap (.launch d a) .align) ∧ (r.toNat % 64 ≠ 0 → trap (.lwait d a) .align) ∧
  (r.toNat % 256 = 0 → ¬ inV r → trap (.launch d a) .access) ∧ (r.toNat % 64 = 0 → ¬ inV r → trap (.lwait d a) .access) ∧
  (r.toNat % 256 = 0 → inV r → s.me.relaxed = [] → s.me.unacked = [] → let mine := (s.launches.filter (fun l => decide (l.issuer = some s.me.thread))).length
    (16 ≤ mine → s.ParksOn (.launch d a) .launchRoom) ∧
    (mine < 16 → s.SendsAccess (.launch d a) .launchRead (r + 16) 32 (.general d) false)) ∧
  (r.toNat % 64 = 0 → inV r → s.me.relaxed = [] → s.SendsAccess (.lwait d a) .status r 4 (.general d) false) ∧
  (s.msg? id = some m → m.id = id → m.body = .record addr prio since → m.src.core < 2 ^ 20 → (s.drop id).hears m.src.core = true → x.park = .reply id →
    (s0.distRead x.part x.pid since addr 256 = .ok n → (s.part x.part).placing = none →
      ∃ t, exec (.launchRecordSent id) s = .next t ∧ queued t (min prio (field 320 8)) x.part x.pid ∧ x.WroteG (t.slot m.src) m.rd 0 ∧
        (t.slot m.src).pc = x.pc + 4 ∧ (t.slot m.src).park = .ready ∧ s.OtherSlots t m.src ∧ t.msg? id = none ∧ s.SameCores t) ∧
    (∀ c, s0.distRead x.part x.pid since addr 256 = .fault c →
      ∃ t, exec (.launchRecordSent id) s = .next t ∧ t.launches.map (fun l => l.id) = s.launches.map (fun l => l.id) ∧
        x.WroteG (t.slot m.src) m.rd 1 ∧ (t.slot m.src).pc = x.pc + 4 ∧ (t.slot m.src).park = .ready ∧ s.OtherSlots t m.src ∧
        (if (s.part x.part).fqtail - (s.part x.part).fqhead < (s.part x.part).fqsize
          then (t.part x.part).fqtail = (s.part x.part).fqtail + 1 else t.part x.part = { s.part x.part with fqlost := min (2 ^ 64 - 1) ((s.part x.part).fqlost + 1) })) ∧
    (s0.distRead x.part x.pid since addr 256 = .held false → ∃ t, exec (.launchRecordSent id) s = .next t ∧ t.launches = s.launches ∧
      s.SameSlots t ∧ ∃ q, t.msg? id = some q ∧ q.body = .record addr prio (some (since.getD s.sys.meridian)))) ∧
  ((23 < prio ∨ 15 < part ∨ (s.part part).valid = false ∨ s.sys.hostUp = false) → exec (.qdb part prio v) s = .next s) ∧
  (prio ≤ 23 → part ≤ 15 → (s.part part).valid = true → s.sys.hostUp = true →
    ((v.toNat % 256 ≠ 0 ∨ ¬ inV v ∨ (s.part part).pid = 0) → ∃ t, exec (.qdb part prio v) s = .next t ∧ dropped t) ∧
    (v.toNat % 256 = 0 → inV v → (s.part part).pid ≠ 0 → v.toNat = addr → (∀ q ∈ s.net, q.id ≠ s.nextId) →
      (s.slot ⟨2 ^ 20, part⟩).park ≠ .reply s.nextId → (s.part part).placing = none →
      ({ s0 with net := s.net ++ [{ id := s.nextId, src := ⟨2 ^ 20, part⟩, rd := 0, body := .record addr prio none }], nextId := s.nextId + 1 }
        : State).distRead part (s.part part).pid none addr 256 = .ok n →
      ∃ t l, exec (.qdb part prio v) s = .next t ∧ t.launches = s.launches ++ [l] ∧ l.addr = addr ∧ l.part = part ∧ l.pid = (s.part part).pid ∧
        l.eprio = prio ∧ l.issuer = none ∧ l.entry = BitVec.ofNat 64 (field 0 64) ∧
        mapGet (t.part part).queues [] prio = mapGet (s.part part).queues [] prio ++ [l.id] ∧ s.SameSlots t ∧ s.SameCores t))

/-- R332, R334, R337 to R339 and R343: the distributor serves the oldest eligible launch of the highest queue that holds one;
a counter that reads 0 makes a launch eligible, a negative one or one that cannot be read ends it DEPFAULT; a launch that
outstays its queue's patience moves to the tail of the next, the older ones first, and one that has a gang placed holds the
head there too; a completion has the waiting counters read again before the next launch is served; and a launch at the head
ends BADREC, REJECTED or NOPART, or passes its check.  A step whose condition is not met leaves the state as it was (log
entry 4), and the details of the queue are those of log entry 16: the model's choices. -/
def Obligations.LaunchQueues : Prop := ∀ (s : State) (id p n : Nat) (l : Launch),
  let s0 : State := { s with cached := false }
  let q := fun (t : State) (prio : Nat) => mapGet (t.part l.part).queues [] prio
  let still := fun (t : State) => s.SameSlots t ∧ s.SameCores t ∧ s.SameTiles t
  let overdue := fun (k : Launch) => k.id ∈ mapGet (s.part k.part).queues [] k.eprio ∧ k.eprio < 23 ∧
    1000 * mapGet (s.part k.part).patience 2000 k.eprio < s.sys.meridian - k.enq
  let older := ((q s l.eprio).takeWhile (fun i => decide (i ≠ id))).any (fun i => match s.launch? i with
    | some k => decide (overdue k)
    | none => false)
  let serves := fun (j : Launch) => j.state ≠ .waitDep ∧ j.state ≠ .ended
  let reread := ∀ k ∈ s.launches, k.part = p → k.state = .waitDep → k.due = false
  let fitting := (s.unitsOf l.part l.outer.1).length
  (s.launch? id = some l → l.id = id → (s.part l.part).placing = none →
    (l.state = .waitDep →
      (s0.distRead l.part l.pid l.since l.dep.toNat 8 = .ok n →
        (n = 0 → ∃ t, exec (.dependenceReread id) s = .next t ∧ t.launch? id = some { l with state := .queued, since := none, due := false } ∧
          (∀ i, q t i = q s i) ∧ still t) ∧
        (1 ≤ n → n < 2 ^ 63 → ∃ t, exec (.dependenceReread id) s = .next t ∧ t.launch? id = some { l with since := none, due := false } ∧
          (∀ i, q t i = q s i) ∧ still t) ∧
        (2 ^ 63 ≤ n → s.EndsLaunch (.dependenceReread id) l 5 0)) ∧
      (∀ c, s0.distRead l.part l.pid l.since l.dep.toNat 8 = .fault c → s.EndsLaunch (.dependenceReread id) l 5 c.code)) ∧
    (l.state ≠ .waitDep → exec (.dependenceReread id) s = .next s) ∧
    (overdue l → older = false →
      ∃ t, exec (.queueAging id) s = .next t ∧ t.launch? id = some { l with eprio := l.eprio + 1, enq := s.sys.meridian } ∧
        q t l.eprio = (q s l.eprio).filter (fun j => decide (j ≠ id)) ∧ q t (l.eprio + 1) = q s (l.eprio + 1) ++ [id] ∧
        (∀ i, i ≠ l.eprio → i ≠ l.eprio + 1 → q t i = q s i) ∧ still t) ∧
    (¬ overdue l ∨ older = true → exec (.queueAging id) s = .next s)) ∧
  (s.launch? id = none → exec (.dependenceReread id) s = .next s ∧ exec (.queueAging id) s = .next s) ∧
  (s.pick p = some l → ∃ prio, prio < 24 ∧ l.id ∈ mapGet (s.part p).queues [] prio ∧ serves l ∧
    (∀ i k, prio < i → i < 24 → k ∈ mapGet (s.part p).queues [] i → ∀ j, s.launch? k = some j → ¬ serves j) ∧
    ∃ before after, mapGet (s.part p).queues [] prio = before ++ l.id :: after ∧
      ((l.head = true ∧ ∀ k ∈ before, ∀ j, s.launch? k = some j → serves j → j.head = false) ∨
       (l.head = false ∧ (∀ k ∈ before ++ after, ∀ j, s.launch? k = some j → serves j → j.head = false) ∧
        ∀ k ∈ before, ∀ j, s.launch? k = some j → ¬ serves j))) ∧
  ((∃ prio i j, prio < 24 ∧ i ∈ mapGet (s.part p).queues [] prio ∧ s.launch? i = some j ∧ serves j) → s.pick p ≠ none) ∧
  (¬ reread → exec (.launchHeadCheck p) s = .next s) ∧
  (s.pick p = some l → s.launch? l.id = some l → l.checked = false → reread → let levels := l.levels.takeWhile (fun e => !(e.kind == 0 || (e.kind == 1 && e.count == 0)))
    (∀ b, l.badField = some b → s.EndsLaunch (.launchHeadCheck p) l 2 b) ∧
    (∀ b, l.badField = none → badLevel [] levels = some b → s.EndsLaunch (.launchHeadCheck p) l 3 b) ∧
    (l.badField = none → badLevel [] levels = none → fitting < l.outer.2 → s.EndsLaunch (.launchHeadCheck p) l 4 0) ∧
    (l.badField = none → badLevel [] levels = none → l.outer.2 ≤ fitting →
      ∃ t, exec (.launchHeadCheck p) s = .next t ∧ t.launch? l.id = some { l with checked := true } ∧ (∀ i, q t i = q s i) ∧ still t ∧ s.SameMemory t)) ∧
  (s.pick p = none → exec (.launchHeadCheck p) s = .next s)

/-- R14 to R17, R33, R40, R330, R335, R338, R340 to R343: a gang's unit is reserved for the launch at the head, the lowest free one
under DET; ZERO clears the user areas of its cores; at the commit every member starts with the state of R17, and the array of a tile of which no other gang holds a core is
empty; and a launch
that has finished writes its completion record, releases its units and sends its signal; the zero-fill passes lines of
64 bytes, and what it has passed stays zero; and firmware places supervisor code in a service slot, and the serial part of
a launch on a large core that serves its partition.  Which unit a launch without DET takes (log entry 25), the address in
g3 and the state of firmware's threads (log entries 17, 32), the details of the completion (log entry 16) and that a step
whose condition is not met changes nothing (log entry 4) are the model's choices. -/
def Obligations.LaunchPlacement : Prop := ∀ (s : State) (p first lines : Nat) (picks : List (List Nat)) (l : Launch) (x : Placing) (ps : List Piece),
  let n := domainCores l.outer.1
  let s0 : State := { s with cached := false }
  let inner := innerLevels (spatialOf (tableLevels l.levels))
  let ms := placeLevels l.det inner picks [(x.first, 0)]
  let hit := fun (a : Nat) => x.first ≤ a / 2 ^ 20 ∧ a / 2 ^ 20 < x.first + x.cores ∧ x.zeroed ≤ a % 2 ^ 20 ∧ a % 2 ^ 20 < 0x1C000
  let reread := ∀ k ∈ s.launches, k.part = p → k.state = .waitDep → k.due = false
  let seeds := (seedsOf (tableLevels l.levels)).flatMap (fun c => (List.range c).map (fun k => RunEntry.seed k l.id))
  let status := if l.status = 0 then 1 else l.status
  let image := leBytes 4 status ++ leBytes 4 l.faults ++ leBytes 8 l.start ++ leBytes 8 s.sys.meridian ++ leBytes 4 l.started ++ leBytes 4 l.gangs ++
    leBytes 4 l.sweeps ++ leBytes 4 l.detail ++ leBytes 24 0
  let kind := l.signal.toNat / 2 ^ 62
  let calm := fun (u : State) => (∀ b va, u.vspan l.part l.pid true false (l.addr + 128) 24 ≠ .held b va) ∧
    ∀ m ∈ s.net, m.holdsFields l.pid (l.addr + 128) = false
  let closed := fun (t : State) => t.launches = (s.launches.filter (fun k => decide (k.id ≠ l.id))).map (fun (k : Launch) =>
      if k.part = l.part ∧ k.state = .waitDep then { k with due := true } else k) ∧ s.SameSlots t ∧ s.SameCores t ∧ s.SameTiles t ∧
    (kind = 0 → t.net = s.net ∧ t.sys.msixSent = s.sys.msixSent) ∧
    (kind = 1 → ∃ m, t.net = s.net ++ [m] ∧ m.body = .mail (l.signal.toNat % 2 ^ 16) (l.signal.toNat / 2 ^ 16 % 16)
      { payload := [l.done, BitVec.ofNat 64 status], sender := BitVec.ofNat 64 (l.signal.toNat / 2 ^ 16 % 16 * 2 ^ 20 + 0xEFFFF), gone := false }
      false true false l.id) ∧
    (kind = 2 → l.signal.toNat % 2 ^ 11 ∈ s.sys.msixOn → t.sys.msixSent = s.sys.msixSent ++ [l.signal.toNat % 2 ^ 11]) ∧
    (kind = 2 → l.signal.toNat % 2 ^ 11 ∉ s.sys.msixOn → t.sys.msixSent = s.sys.msixSent ∧ l.signal.toNat % 2 ^ 11 ∈ t.sys.msixPending)
  ((s.part p).placing = none → s.pick p = some l → s.launch? l.id = some l →
    (l.checked = true → reread → (s.part p).valid = true → (s.part p).run = .running → l.part = p →
      s.unitIn p l.outer.1 first = true →
      (∀ k ∈ s.launches, ∀ h ∈ k.held, h.1 + h.2 ≤ first ∨ first + n ≤ h.1) → (∀ g ∈ s.sys.withheld, 4096 * g + 4096 ≤ first ∨ first + n ≤ 4096 * g) →
      (l.det = true → (s.unitsOf p l.outer.1).find? (fun b => s.unitFree b n) = some first) →
      ∃ t, exec (.selectAndReserve p first) s = .next t ∧ (t.part p).placing = some { launch := l.id, first := first, cores := n, prepared := false } ∧
        t.launch? l.id = some { l with state := .placing, head := true, held := l.held ++ [(first, n)] } ∧ s.SameSlots t ∧ s.SameCores t ∧ s.SameTiles t) ∧
    ((l.checked = false ∨ ¬ reread ∨ (s.part p).run ≠ .running ∨ (∃ k ∈ s.launches, ∃ h ∈ k.held, h.1 < first + n ∧ first < h.1 + h.2)) →
      exec (.selectAndReserve p first) s = .next s)) ∧
  ((s.part p).placing = some x → x.prepared = false → (s.part p).valid = true → (s.part p).run = .running →
    ∃ t, exec (.prepare p) s = .next t ∧ (t.part p).placing = some { x with prepared := true } ∧ s.SameSlots t ∧ s.SameTiles t ∧
      ((∃ k, s.launch? x.launch = some k ∧ k.zero = true) →
        (∀ a, (hit a → t.byte a = 0 ∧ t.sideTag a = Tag.none) ∧ (¬ hit a → t.byte a = s.byte a ∧ t.sideTag a = s.sideTag a)) ∧
        (∀ c, x.first ≤ c → c < x.first + x.cores → (t.core c).objects =
          (s.core c).objects.filter (fun o => decide (o.1 < x.zeroed ∨ 0x1C000 ≤ o.1))) ∧
        (∀ c, (c < x.first ∨ x.first + x.cores ≤ c) → t.core c = s.core c)) ∧
      ((∀ k, s.launch? x.launch = some k → k.zero = false) → s.SameMemory t ∧ s.SameCores t)) ∧
  ((s.part p).placing = some x → x.prepared = false → (s.part p).valid = true → (s.part p).run = .running → s.launch? x.launch = some l →
    l.zero = true → let stop := min 0x1C000 (x.zeroed + 64 * lines)
    let passed := fun (a : Nat) => hit a ∧ a % 2 ^ 20 < stop
    ((s.zeroMore p lines).part p).placing = some { x with zeroed := stop } ∧ s.SameSlots (s.zeroMore p lines) ∧
    ∀ a, (passed a → (s.zeroMore p lines).byte a = 0) ∧ (¬ passed a → (s.zeroMore p lines).byte a = s.byte a)) ∧
  (∀ core pc q, isLarge core = false → s.leaderUp = true → (s.slot ⟨core, 7⟩).occ = false → s.partOf core = some q →
    let t := s.placeSupervisor core pc
    (t.slot ⟨core, 7⟩).occ = true ∧ (t.slot ⟨core, 7⟩).mode = .super ∧ (t.slot ⟨core, 7⟩).pc = pc / 4 * 4 ∧
    (t.slot ⟨core, 7⟩).part = q ∧ (t.slot ⟨core, 7⟩).pid = (s.part q).pid ∧ (t.slot ⟨core, 7⟩).park = .ready ∧
    s.OtherSlots t ⟨core, 7⟩ ∧ s.SameMemory t) ∧
  (∀ core c, s.launch? l.id = some l → isLarge core = true → s.leaderUp = true → s.inPart l.part core = true → s.coreRuns core = true →
    l.checked = true → l.state ≠ .ended → s.freeUser core = some c → let t := s.placeSerial l.id core
    (t.slot ⟨core, c⟩).occ = true ∧ (t.slot ⟨core, c⟩).mode = .user ∧ (t.slot ⟨core, c⟩).pc = l.entry ∧ (t.slot ⟨core, c⟩).launch = l.id ∧
    (∀ r, (t.slot ⟨core, c⟩).g r = if r = 3 then BitVec.ofNat 64 l.addr else if r = 4 then l.args else 0) ∧
    (t.slot ⟨core, c⟩).part = l.part ∧ (t.slot ⟨core, c⟩).pid = l.pid ∧ s.OtherSlots t ⟨core, c⟩ ∧ s.SameMemory t) ∧
  ((s.part p).placing = some x → s.launch? x.launch = some l → (s.part p).valid = true → (s.part p).run = .running →
    (x.prepared = false → exec (.commit p picks) s = .next s) ∧
    (x.prepared = true → (l.det = true ∨ picksOk (max 1 l.outer.1) inner picks 1 = true) → (∀ m ∈ ms, (s.slot ⟨m.1, m.2⟩).occ = false) →
      (ms.map (fun m => slotKey ⟨m.1, m.2⟩)).Nodup →
      ∃ t k, exec (.commit p picks) s = .next t ∧ (t.part p).placing = none ∧ t.launch? l.id = some k ∧ k.gangs = l.gangs + 1 ∧ k.state = .running ∧
        k.start = (if l.gangs = 0 then s.sys.meridian else l.start) ∧ k.held = l.held ∧
        (∀ j m, ms[j]? = some m → Slot.Begins (t.slot ⟨m.1, m.2⟩) ⟨m.1, m.2⟩ l l.args (BitVec.ofNat 64 (l.gangs * ms.length + j)) (BitVec.ofNat 64 l.gangs)) ∧
        (∀ w, (∀ m ∈ ms, slotKey w ≠ slotKey ⟨m.1, m.2⟩) → t.slot w = s.slot w) ∧
        (∀ j, x.first < 16 * j + 16 → 16 * j < x.first + x.cores →
          (∀ k ∈ s.launches, ∀ h ∈ k.held, h.1 ≠ x.first → h.1 + h.2 ≤ 16 * j ∨ 16 * j + 16 ≤ h.1) → let y := t.tile j
          y.live = .reset ∧ y.shadow = .reset ∧ (∀ m n, y.acc m n = .reset) ∧ y.amode = .unset ∧ y.queue = [] ∧ y.covFp = false ∧
          ∀ e, mapGet y.cover (0 : W32) e = 0) ∧
        (∀ c, x.first ≤ c → c < x.first + x.cores → (t.core c).runList = (s.core c).runList ++ seeds))) ∧
  (mapGet Plane.reset.cells (some zeroFV) p = some zeroFV ∧ Plane.reset.win = 0 ∧ mapGet Plane.reset.keys 0 p = 0 ∧
    Accum.reset.val = zeroFV ∧ Accum.reset.m = none ∧ Accum.reset.k = 0) ∧
  (s.launch? l.id = some l →
    (s.finished l = false → exec (.launchCompletion l.id) s = .next s) ∧
    (s.finished l = true →
      (doneOk l.done.toNat = false → calm s0 → ∃ t, exec (.launchCompletion l.id) s = .next t ∧ closed t) ∧
      (doneOk l.done.toNat = true → s0.vspan l.part l.pid true (s.ripe l.since) l.done.toNat 64 = .ok ps →
        blocksStore (s.vMeets l.pid l.done.toNat (l.done.toNat + 64)) = false → s.poison = [] → calm (s0.putPieces ps image) →
        ∃ t, exec (.launchCompletion l.id) s = .next t ∧ closed t ∧
          ((∀ qs, (s0.putPieces ps image).vspan l.part l.pid true false (l.addr + 128) 24 ≠ .ok qs) → ∀ a, t.byte a = (s0.putPieces ps image).byte a)))) ∧
  (∀ k d b, ps = [⟨k, 64, d, b⟩] → (∀ e, b = some e → e + 17 ≤ d ∨ d + 64 ≤ e) → (s.putPieces ps image).bytes d 64 = image) ∧
  (s.finished l = true ↔ l.state = .ended ∨ (l.state = .running ∧ l.id ∉ mapGet (s.part l.part).queues [] l.eprio ∧
    (∀ y ∈ s.slots, y.2.occ = true → y.2.launch ≠ l.id) ∧ (∀ c ∈ s.cores, c.2.works l.id = false) ∧ (∀ m ∈ s.net, m.body.works l.id = false) ∧ (∀ q ∈ s.posted, q.launch ≠ l.id) ∧
    (∀ t ∈ s.tiles, t.2.works l.id = false) ∧ ∀ i ∈ (s.part l.part).images, i.works l.id = false))

/-! ### The gate, the device OS at a slot, and the fleet -/

/-- R305, R326, R364, R367, R368, R370, R377 to R379: the handler of a SYSCALL passes its call to the gate, the bytes marked in
are staged, and the slot parks in it; the gate answers with a status or the result, the bytes marked out copied back, past
the SYSCALL and in the mode it came from, once no page of a pointer is held; a killed thread leaves its slot free, its locks pass on, a waiting request is
marked and its launch ends KILLED; and a shootdown drops what each agent holds and ends when all 96 have acknowledged it.
Kills and shootdowns are journaled first and marked done.  The order of the gate's causes and the place of its staging
area (log entry 12), the journal's two steps (log entry 10), when an agent acknowledges (log entry 27), and that a step
whose condition is not met changes nothing (log entry 4) are the model's choices. -/
def Obligations.GateKillAndShootdown : Prop := ∀ (s : State) (core slot agent pid lo hi : Nat) (all : Bool) (call : GateCall) (p : PtrDecl) (bs : List Byte)
    (since : Option Nat),
  let w : Who := ⟨core, slot⟩
  let x := s.slot w
  let up := s.sys.alive.getLsbD (mapGet s.sys.gatemap (dieOf core) (dieOf core)) = true
  let returns := fun (R : State → Slot → Prop) => ∃ t, exec (.syscallGateReply core slot call) s = .next t ∧ R t (t.slot w) ∧
    (t.slot w).pc = x.sup.epc + 4 ∧ (t.slot w).mode = (if x.sup.status.toNat / 2 = 1 then .super else if x.sup.status.toNat / 2 = 2 then .machine else .user) ∧
    (t.slot w).sup = { x.sup with status := x.sup.status &&& 6 } ∧ (t.slot w).park = .ready ∧ x.SameV (t.slot w) ∧ (t.slot w).pw = x.pw ∧
    s.OtherSlots t w ∧ s.SameCores t ∧ s.SameTiles t
  let status := fun (v : Int) => returns (fun t y => x.WroteG y 4 (BitVec.ofInt 64 v) ∧ y.csr = x.csr ∧ s.SameMemory t)
  let short := fun (p : PtrDecl) => (x.pointer p).1 < 2 ^ 39
  let bad := fun (p : PtrDecl) => let q := x.pointer p
    2 ^ 56 ≤ q.1 ∨ (q.1 < 2 ^ 39 ∧ (2 ^ 36 ≤ q.1 ∨ s.inPart x.part (homeOf q.1) = false ∨ 0x1C000 < offOf q.1 + q.2 ∨ 65536 < q.2))
  let s0 : State := { s with cached := false }
  let code : BitVec 12 := x.sup.tval.truncate 12
  let turned := ¬ up ∨ call.busy = true ∨ code = 16 ∨ call.declared = false ∨ 4 < (call.ptrs.filter (fun p => decide (short p))).length ∨
    (∃ p ∈ call.ptrs, bad p ∨ s0.unmapped x p = true) ∨ call.refused = true
  let leader := s.sys.alive.getLsbD s.sys.leader = true
  let opened := fun (c : Change) => ∃ r ∈ s.sys.journal, r.change = c ∧ r.marked = false
  let records := fun (i : Instr) (c : Change) => exec i s = .next { s with sys := { s.sys with journal := s.sys.journal ++ [⟨c, false⟩] } }
  let marks := fun (c : Change) (t : State) => t.sys.journal = s.sys.journal.map (fun r => if r.change = c then { r with marked := true } else r)
  let dead := Change.kill w x.thread
  let range := Change.shoot all pid lo hi
  let covers := fun (p : BitVec 16) (base size : Nat) => (all = true ∨ p.toNat = pid) ∧ base < hi ∧ lo < base + size
  let same := fun (y : Shoot) => y.all = all ∧ y.pid = pid ∧ y.lo = lo ∧ y.hi = hi
  let before := s.shoot { all := all, pid := pid, lo := lo, hi := hi }
  let span : Range := { all := all, pid := pid, lo := lo, hi := hi }
  let acked := if (s.dropPages agent span).inFlight agent span = true ∨ agent ∈ before.acked then before.acked else before.acked ++ [agent]
  (s.coreRuns core = true → call.take = true →
    (x.occ = true → x.mode = .super → x.park = .ready → x.sup.cause = 12 → ∃ t, exec (.syscallGateReply core slot call) s = .next t ∧
      t.slot w = { x with park := .gate none, code := code } ∧ s.OtherSlots t w ∧ s.SameCores t ∧ s.SameTiles t ∧
      (turned ∨ (∀ p ∈ call.ptrs, p.isIn = false ∨ ¬ short p) → s.SameMemory t) ∧
      (¬ turned → call.ptrs = [p] → p.isIn = true → short p → ∀ d, s0.vspan x.part x.pid true false call.area (x.pointer p).2 =
        .ok [⟨call.area, (x.pointer p).2, d, none⟩] → t.bytes d (x.pointer p).2 = s.bytes (rawKey (x.pointer p).1) (x.pointer p).2)) ∧
    (x.occ = false ∨ x.mode ≠ .super ∨ x.park ≠ .ready ∨ x.sup.cause ≠ 12 → exec (.syscallGateReply core slot call) s = .next s)) ∧
  (s.coreRuns core = true → x.park = .gate since → call.take = false →
    (¬ up ∨ call.busy = true → status (-4)) ∧
    (up → call.busy = false →
      (x.code = 16 → ((x.g 4) &&& ~~~(0x4380 : Word) ≠ 0 → status (-1)) ∧
        ((x.g 4) &&& ~~~(0x4380 : Word) = 0 → returns (fun t y => x.WroteG y 4 0 ∧ y.csr = { x.csr with udeleg := (x.g 4).truncate 15 } ∧ s.SameMemory t))) ∧
      (x.code ≠ 16 → call.declared = false → status (-2)) ∧
      (x.code ≠ 16 → call.declared = true →
        ((4 < (call.ptrs.filter (fun p => decide (short p))).length ∨ ∃ p ∈ call.ptrs, bad p) → status (-1)) ∧
        ((call.ptrs.filter (fun p => decide (short p))).length ≤ 4 → (∀ p ∈ call.ptrs, ¬ bad p) →
          ((∃ p ∈ call.ptrs, s0.unmapped x p = true) → status (-5)) ∧
          ((∀ p ∈ call.ptrs, s0.unmapped x p = false) →
            (call.refused = true → status (-3)) ∧
            (∀ ask va, s0.gateHold x call = some (ask, va) → ∃ t, exec (.syscallGateReply core slot call) s = .next t ∧
              t.slot w = { x with park := .gate (some (since.getD s.sys.meridian)) } ∧ s.OtherSlots t w) ∧
            (call.refused = false → s0.gateHold x call = none →
              ((∀ p ∈ call.ptrs, p.isOut = false) → returns (fun t y => (y.g 4 = call.result &&& 0x7FFFFFFFFFFFFFFF) ∧
                (∀ r, r ≠ 4 → (∀ q ∈ call.regs, q.1 ≠ r.toNat ∨ q.1 < 5 ∨ 13 < q.1) → y.g r = x.g r) ∧
                (∀ r v, call.regs = [(r, v)] → 5 ≤ r → r ≤ 13 → y.g (BitVec.ofNat 5 r) = v) ∧ y.csr = x.csr ∧ s.SameMemory t)) ∧
              (call.ptrs = [p] → p.isOut = true → short p → call.outs = [bs] → bs.length ≤ (x.pointer p).2 →
                (∀ o ∈ (s.core (homeOf (x.pointer p).1)).objects, o.1 + 64 ≤ offOf (x.pointer p).1 ∨ offOf (x.pointer p).1 + bs.length ≤ o.1) →
                let k := rawKey (x.pointer p).1
                returns (fun t y => y.g 4 = call.result &&& 0x7FFFFFFFFFFFFFFF ∧ y.csr = x.csr ∧
                  (∀ a, k ≤ a → a < k + bs.length → t.byte a = bs.getD (a - k) 0 ∧ t.sideTag a = Tag.none) ∧
                  (∀ a, a < 2 ^ 60 → a < k ∨ k + bs.length ≤ a → t.byte a = s.byte a) ∧
                  ∀ a, 2 ^ 60 ≤ a → (∀ sp, s0.vspan x.part x.pid true false call.area bs.length = .ok sp → ∀ q ∈ sp,
                    (a < q.key ∨ q.key + q.len ≤ a) ∧ ∀ h, q.shadow = some h → a < h ∨ h + 65 ≤ a) → t.byte a = s.byte a)))))))) ∧
  (x.atGate = false → call.take = false → exec (.syscallGateReply core slot call) s = .next s) ∧
  (¬ leader ∨ x.occ = false → exec (.kill core slot) s = .next s) ∧
  (leader → x.occ = true → ¬ opened dead → records (.kill core slot) dead) ∧
  (leader → x.occ = true → opened dead → (∀ id, x.park ≠ .migrating id) →
    ∃ t, exec (.kill core slot) s = .next t ∧ (t.slot w).occ = false ∧ (t.slot w).park = .ready ∧ (t.slot w).locks = [] ∧ (t.slot w).watch = none ∧
      (∀ d ∈ x.locks, ∃ m ∈ t.net, m.src = w ∧ m.body = .sync d (.releaseOf w)) ∧
      (∀ d id, x.park = .lock d id → ∃ m ∈ t.net, m.src = w ∧ m.body = .sync d (.killMark w)) ∧
      (∀ d, x.serving = some d → ∃ m ∈ t.net, m.src = w ∧ m.body = .sync d (.depart w)) ∧
      (∀ l, s.launch? x.launch = some l → t.launch? x.launch = some { l with status := 6 }) ∧
      t.sys.gone = s.sys.gone ++ [senderWord w 0] ∧ marks dead t ∧ s.OtherSlots t w ∧ s.SameMemory t) ∧
  (96 ≤ agent ∨ ¬ leader → exec (.shootdown agent all pid lo hi) s = .next s) ∧
  (agent < 96 → leader → ¬ opened range → records (.shootdown agent all pid lo hi) range) ∧
  (agent < 96 → leader → opened range → ∃ t, exec (.shootdown agent all pid lo hi) s = .next t ∧
    (32 ≤ agent → (t.core (65536 + (agent - 32))).cache = (s.core (65536 + (agent - 32))).cache.filter (fun l => decide (¬ covers l.pid l.addr 64)) ∧
      s.OtherCores t (65536 + (agent - 32))) ∧
    (agent < 32 → s.SameCores t ∧ t.tlb = s.tlb.filter (fun e => decide (e.station ≠ agent ∨ ¬ covers e.pid e.base e.size))) ∧
    (32 ≤ agent → t.tlb = s.tlb) ∧
    (96 ≤ acked.length → marks range t ∧ ∀ y ∈ t.sys.shoots, ¬ same y) ∧
    (acked.length < 96 → t.sys.journal = s.sys.journal ∧ ∃ y ∈ t.sys.shoots, same y ∧ y.acked = acked) ∧
    (∀ y, ¬ same y → (y ∈ t.sys.shoots ↔ y ∈ s.sys.shoots)) ∧ s.SameSlots t ∧ s.SameTiles t ∧ s.SameMemory t)

/-- R340, R344 to R346, R377 and R384 to R388: an Eventide, journaled first, stops a partition 20 µs on, a Nightfall 2 µs on, each
with every core at a frame boundary and an uncommitted gang rolled back; a request that cannot be met is refused or waits;
a saved partition's context gives place to another and comes back as it was; a Nightfall stop writes the stop records; both
go on at a second agreed instant, with timers at their remaining time; and the writes made while it is stopped take effect
then.  How far off the second instant is (log entry 30), the journal's two
steps (log entry 10), the debugger's writes (log entry 24) and that a step whose condition is not met changes nothing (log
entry 4) are the model's choices. -/
def Obligations.StopsAndResumes : Prop := ∀ (s : State) (p t0 r0 : Nat) (x : Placing) (w : StateWrite) (u : Poke),
  let P := s.part p
  let S := s.sys
  let leader := S.alive.getLsbD S.leader = true
  let change := Change.eventide p
  let opened := ∃ r ∈ S.journal, r.change = change ∧ r.marked = false
  let marked := fun (t : State) => t.sys.journal = S.journal.map (fun r => if r.change = change then { r with marked := true } else r)
  let still := fun (t : State) (Q : Partition) => t.part p = Q ∧ (∀ q, q ≠ p → t.part q = s.part q) ∧ s.SameSlots t ∧
    s.SameCores t ∧ s.SameTiles t ∧ s.SameMemory t ∧ t.net = s.net ∧ t.launches = s.launches
  let sets := fun (i : Instr) (Q : Partition) => ∃ t, exec i s = .next t ∧ still t Q
  let requests := fun (Q : Partition) => ∃ t, exec (.eventideRequest p) s = .next t ∧ still t Q ∧ marked t
  let rolled := fun (t : State) => (t.part p).placing = none ∧ s.SameSlots t ∧ ∀ l, s.launch? x.launch = some l →
    t.launch? x.launch = some { l with held := l.held.filter (fun h => decide (h.1 ≠ x.first)), state := if l.gangs = 0 then .queued else .running }
  let inside := fun (c : Nat) => c < 65536 ∧ P.sgs.getLsbD (c / 4096) = true
  let at_ := fun (c : Nat) => c * 2 ^ 20 + 0x1FFB0
  let mask := fun (c : Nat) (f : Slot → Bool) => ((List.range 8).map (fun k => if f (s.slot ⟨c, k⟩) then 2 ^ k else 0)).sum
  let later := fun (c due : Nat) => due + (S.meridian - max t0 (s.core c).boundary)
  let shifted := fun (t : State) => t.net = s.net.map (fun m => match m.body with
      | .packet c d n st due => if s.inPart p m.src.core then { m with body := .packet c d n st (later m.src.core due) } else m
      | _ => m) ∧
    t.nodes = s.nodes.map (fun n => if s.inPart p n.firstCore then { n with since := later n.firstCore n.since } else n) ∧
    (∀ c, t.core c = if s.inPart p c then { s.core c with forwards := (s.core c).forwards.map (fun f => { f with since := later c f.since }) }
      else s.core c)
  let goes := fun (i : Instr) (R : State → Prop) => ∃ t, exec i s = .next t ∧ shifted t ∧ (∀ q, q ≠ p → t.part q = s.part q) ∧ R t
  (¬ leader → exec (.eventideRequest p) s = .next s) ∧
  (leader → ¬ opened → exec (.eventideRequest p) s = .next { s with sys := { S with journal := S.journal ++ [⟨change, false⟩] } }) ∧
  (P.valid = true → leader → opened →
    (P.run = .running → P.placing = none → requests { P with run := .eventide (S.meridian + 20000) }) ∧
    (P.run = .running → P.placing = some x → ∃ t, exec (.eventideRequest p) s = .next t ∧ rolled t ∧ marked t ∧
      (t.part p).run = .eventide (S.meridian + 20000)) ∧
    (P.run = .eventide t0 ∨ P.run = .saved t0 → requests P) ∧
    (P.run = .restoring t0 r0 ∨ P.run = .stopped t0 ∨ P.run = .stopping t0 ∨ P.run = .resuming t0 r0 → requests { P with evWaiting := true })) ∧
  (P.run = .eventide t0 →
    (t0 ≤ S.meridian → s.atBoundary p = true → sets (.eventideStop p) { P with run := .saved t0 }) ∧
    (S.meridian < t0 ∨ s.atBoundary p = false → exec (.eventideStop p) s = .next s)) ∧
  (P.run = .saved t0 → (leader → s.waitingUnits p = [] → ∃ d, sets (.eventideResume p) { P with run := .restoring t0 (S.meridian + d) }) ∧
    (¬ leader → exec (.eventideResume p) s = .next s) ∧
    (leader → s.MemForm → (s.slots.map (fun e => e.1)).Nodup → (∀ m ∈ s.net, s.netOf p m = true → m.underWay = false) →
      let n := P.images.length
      let fresh := s.switchContext p n
      let back := fresh.switchContext p n
      let mine := fun (a : Nat) => a < 2 ^ 36 ∧ s.inPart p (homeOf a) = true
      (∃ i, fresh.part p = { P with images := P.images ++ [i] }) ∧ (∃ i, back.part p = { P with images := P.images ++ [i] }) ∧
      (∀ w, w.slot < 8 → (s.inPart p w.core = true → fresh.slot w = Slot.reset ∧ ∃ k, back.slot w = { s.slot w with traps := k }) ∧
        (s.inPart p w.core = false → fresh.slot w = s.slot w ∧ back.slot w = s.slot w)) ∧
      (∀ a, back.byte a = s.byte a ∧ back.sideTag a = s.sideTag a ∧ back.poisoned a = s.poisoned a) ∧
      ∀ a, (mine a → fresh.byte a = 0 ∧ fresh.poisoned a = false) ∧
        (¬ mine a → fresh.byte a = s.byte a ∧ fresh.poisoned a = s.poisoned a))) ∧
  (P.run = .restoring t0 r0 → (S.meridian < r0 → exec (.eventideResume p) s = .next s) ∧
    (r0 ≤ S.meridian →
      (P.evWaiting = false → goes (.eventideResume p) (fun t => t.part p = { P with run := .running } ∧ s.SameSlots t ∧ s.SameTiles t ∧ s.SameMemory t)) ∧
      (P.evWaiting = true → P.valid = true → P.placing = none → goes (.eventideResume p) (fun t =>
        t.part p = { P with run := .eventide (S.meridian + 20000), evWaiting := false } ∧ s.SameSlots t ∧ s.SameTiles t ∧ s.SameMemory t)))) ∧
  (S.hostUp = false → exec (.nightfallStopRequest p) s = .next s ∧ exec (.nightfallResumeRequest p) s = .next s) ∧
  (S.hostUp = true →
    (P.run = .running → sets (.nightfallStopRequest p)
      { P with run := .stopping (S.meridian + 2000), nft := S.meridian + 2000, nfRefused := false }) ∧
    (P.run ≠ .running → sets (.nightfallStopRequest p) { P with nfRefused := true }) ∧
    (P.run = .stopped t0 → ∃ d, sets (.nightfallResumeRequest p)
      { P with run := .resuming t0 (S.meridian + d), nft := S.meridian + d, nfRefused := false }) ∧
    ((∀ T, P.run ≠ .stopped T) → sets (.nightfallResumeRequest p) { P with nfRefused := true })) ∧
  (P.run = .stopping t0 →
    (S.meridian < t0 ∨ s.atBoundary p = false → exec (.nightfallStop p) s = .next s) ∧
    (t0 ≤ S.meridian → s.atBoundary p = true →
      (P.placing = some x → ∃ t, exec (.nightfallStop p) s = .next t ∧ rolled t ∧ (t.part p).run = .stopped t0) ∧
      (P.placing = none → ∃ t, exec (.nightfallStop p) s = .next t ∧ t.part p = { P with run := .stopped t0 } ∧ s.SameSlots t ∧ s.SameCores t ∧ s.SameTiles t ∧
        (∀ a, (∀ c, inside c → a < at_ c ∨ at_ c + 64 ≤ a) → t.byte a = s.byte a) ∧
        ∀ c, inside c → let k := s.core c
          t.nat (at_ c + 56) 8 = max t0 k.boundary % 2 ^ 64 ∧ t.nat (at_ c + 48) 8 = k.issued % 2 ^ 64 ∧ t.nat (at_ c + 40) 8 = k.bubbles % 2 ^ 64 ∧
          t.nat (at_ c + 32) 8 = k.parkedCycles % 2 ^ 64 ∧ t.nat (at_ c + 28) 4 = (k.sent.map (fun e => e.2)).sum % 2 ^ 32 ∧
          t.nat (at_ c + 24) 4 = (k.received.map (fun e => e.2)).sum % 2 ^ 32 ∧ t.nat (at_ c + 20) 4 = k.trace.dropped % 2 ^ 32 ∧
          t.nat (at_ c + 19) 1 = mask c (fun y => y.occ) ∧ t.nat (at_ c) 18 = 0 ∧
          ∀ j, j < 8 → let y := s.slot ⟨c, j⟩
            let parked := nbit (t.nat (at_ c + 18) 1) j
            (y.occ = false → parked = false) ∧ (y.pend = none → y.park = .ready → parked = false) ∧
            (y.occ = true → y.pend = none → y.park = .quiesce ∨ y.park = .gang ∨ y.park = .member ∨ y.park = .certify ∨ (∃ g, y.park = .gate g) → parked = true) ∧
            ∀ n q, y.occ = true → y.pend = none → y.park = .wait (.counter n) q → (parked = true ↔ (s.engine (c / 16)).counter < n)))) ∧
  (∀ k, s.partOf (writtenCore w) = some k →
    ((∃ T, (s.part k).run = .stopped T) → leader → ∃ t, exec (.stoppedStateWrite w) s = .next t ∧
      t.part k = { s.part k with writes := (s.part k).writes ++ [w] } ∧
      (∀ q, q ≠ k → t.part q = s.part q) ∧ s.SameSlots t ∧ s.SameCores t ∧ s.SameTiles t ∧ s.SameMemory t) ∧
    ((∀ T, (s.part k).run ≠ .stopped T) ∨ ¬ leader → exec (.stoppedStateWrite w) s = .next s)) ∧
  (∀ k T, s.partOf u.core = some k → (s.part k).run = .stopped T → leader → ((s.poke u).part k).pokes = (s.part k).pokes ++ [u] ∧
    s.SameSlots (s.poke u) ∧ s.SameTiles (s.poke u)) ∧
  (P.run = .resuming t0 r0 →
    (S.meridian < r0 → exec (.nightfallResume p) s = .next s) ∧
    (r0 ≤ S.meridian → let Q := { P with run := .running, writes := [], pokes := [], evWaiting := false }
      (P.writes = [] → P.pokes = [] → P.evWaiting = false →
        goes (.nightfallResume p) (fun t => t.part p = Q ∧ s.SameSlots t ∧ s.SameTiles t ∧ s.SameMemory t)) ∧
      (P.writes = [] → P.pokes = [] → P.evWaiting = true → P.valid = true → P.placing = none →
        goes (.nightfallResume p) (fun t => t.part p = { Q with run := .eventide (S.meridian + 20000) } ∧ s.SameSlots t ∧ s.SameMemory t)) ∧
      (∀ y z, P.writes = [] → P.pokes = [.slot y z] → P.evWaiting = false →
        goes (.nightfallResume p) (fun t => t.part p = Q ∧ t.slot y = { z.written with traps := (s.slot y).traps } ∧ s.OtherSlots t y ∧ s.SameMemory t)) ∧
      (∀ j z, P.writes = [] → P.pokes = [.tile j z] → P.evWaiting = false →
        goes (.nightfallResume p) (fun t => t.part p = Q ∧ t.tile j = z ∧ s.OtherTiles t j ∧ s.SameSlots t ∧ s.SameMemory t)) ∧
      (∀ c k r v, P.writes = [.general c k r v] → P.pokes = [] → P.evWaiting = false → r < 32 → goes (.nightfallResume p) (fun t => t.part p = Q ∧
        (s.slot ⟨c, k⟩).WroteG (t.slot ⟨c, k⟩) (BitVec.ofNat 5 r) v ∧ (s.slot ⟨c, k⟩).Kept (t.slot ⟨c, k⟩) ∧ s.OtherSlots t ⟨c, k⟩ ∧ s.SameMemory t)) ∧
      (∀ z : Slot, let y := z.written
        y.g 0 = 0 ∧ y.p 0 = true ∧ y.pc.toNat % 4 = 0 ∧ y.csr.utvec.toNat % 4 = 0 ∧ y.csr.uepc.toNat % 4 = 0 ∧ y.csr.udeleg &&& ~~~0x4380 = 0 ∧
        y.sup.tvec.toNat % 4 = 0 ∧ y.sup.epc.toNat % 4 = 0 ∧ y.mach.tvec.toNat % 4 = 0 ∧ y.mach.epc.toNat % 4 = 0) ∧
      (∀ c o v tag bad, P.writes = [.scratch c o v tag bad] → P.pokes = [] → P.evWaiting = false → (c * 2 ^ 20 + o) % 4 = 0 → c < 65536 → o < 2 ^ 20 →
        goes (.nightfallResume p) (fun t =>
        t.part p = Q ∧ t.nat (c * 2 ^ 20 + o) 4 = v.toNat ∧ t.sideTag (c * 2 ^ 20 + o) = tag ∧ t.poisoned (c * 2 ^ 20 + o) = bad ∧
        (∀ a, a < c * 2 ^ 20 + o ∨ c * 2 ^ 20 + o + 4 ≤ a → t.byte a = s.byte a ∧ t.sideTag a = s.sideTag a) ∧ s.SameSlots t))))

/-- R366, R371 to R383, R393 and R394: the host's accesses and its heartbeat, the fence at the third unchanged check and its
lifting by the epoch; the service pairs' heartbeat, stops, takeover and adoption; firmware's writes of memory behind the
journal; the links; and Daybreak, whose channels, spares and super-groups the verified repair maps give.  What a takeover
and a change of the journal do in one step (log entry 10), what a record of the host holds (log entry 21), poison by word
and codeword (log entry 22), writes that a fence loses (log entry 15), that after Daybreak memory, tags and poison list
nothing and every core, slot and tile is at the value the model resets it to (log entries 2, 3 and 20) and that a step whose condition is not met changes
nothing (log entry 4) are the model's choices. -/
def Obligations.HostAndServicePairs : Prop := ∀ (s : State) (v : BitVec 64) (a n die pair link : Nat) (bs : List Byte) (b : BootReport),
  let S := s.sys
  let leader := S.alive.getLsbD S.leader = true
  let sysIs := fun (i : Instr) (x : Sys) => exec i s = .next { s with sys := x }
  let lowest := fun (k : Nat) => k < 8 ∧ S.alive.getLsbD k = true ∧ ∀ j, j < k → S.alive.getLsbD j = false
  let wrote := fun (t : State) (k : Nat) (bs : List Byte) => ∀ x, t.byte x = if k ≤ x ∧ x < k + bs.length then bs.getD (x - k) 0 else s.byte x
  let gate := fun (d : Nat) => mapGet S.gatemap d d
  let atGate := fun (w : Who) => w.slot < 8 ∧ (s.slot w).occ = true ∧ (s.slot w).atGate = true
  let dies := b.pairs &&& b.dies
  let down := ∀ k, k < 8 → dies.getLsbD k = false
  (S.hostUp = true → sysIs (.hbhostWrite v) { S with hbhost := v, hbArmed := true }) ∧
  (S.hostUp = false → exec (.hbhostWrite v) s = .next s ∧ exec (.unfence v) s = .next s) ∧
  (S.hbArmed = false ∨ ¬ leader ∨ S.meridian < S.hbAt + 1000000 → exec .heartbeatCheck s = .next s) ∧
  (S.hbArmed = true → leader → S.hbAt + 1000000 ≤ S.meridian →
    (S.hbhost ≠ S.hbSeen → sysIs .heartbeatCheck { S with hbAt := S.meridian, hbSeen := S.hbhost, hbMisses := 0 }) ∧
    (S.hbhost = S.hbSeen → S.fenced = true → sysIs .heartbeatCheck { S with hbAt := S.meridian }) ∧
    (S.hbhost = S.hbSeen → S.fenced = false → S.hbMisses < 2 → sysIs .heartbeatCheck { S with hbAt := S.meridian, hbMisses := S.hbMisses + 1 }) ∧
    (S.hbhost = S.hbSeen → S.fenced = false → 2 ≤ S.hbMisses → ∃ t, exec .heartbeatCheck s = .next t ∧ t.sys.fenced = true ∧ t.sys.epoch = S.epoch + 1 ∧
      t.posted = [] ∧ (∀ p, p < 16 → (s.part p).valid = true → (s.part p).posted (t.part p)) ∧ (s.posted = [] → s.SameSlots t) ∧ s.SameCores t ∧ s.SameTiles t)) ∧
  (∀ q, s.posted = [q] → (∀ i, i < q.old.length → s.losePosted.byte (q.key + i) = q.old.getD i 0) ∧
    (∀ a, a < q.key ∨ q.key + q.old.length ≤ a → s.losePosted.byte a = s.byte a) ∧
    ∀ w, w.slot < 8 → (s.slot w).occ = true → (s.slot w).thread = q.thread →
      ∃ n ∈ (s.losePosted.slot w).unacked, n.fault = some (.fenced, BitVec.ofNat 64 q.ea)) ∧
  (S.hostUp = true → S.fenced = true → v.toNat = S.epoch → sysIs (.unfence v) { S with fenced := false, hbSeen := S.hbhost, hbMisses := 0 }) ∧
  (S.fenced = false ∨ v.toNat ≠ S.epoch → exec (.unfence v) s = .next s) ∧
  (S.alive = 0 ∨ S.meridian < S.hbdevAt + 1000000 → exec .hbdevTick s = .next s) ∧
  (S.alive ≠ 0 → S.hbdevAt + 1000000 ≤ S.meridian → (S.hbmirror = 0 ∨ S.fenced = true) →
    sysIs .hbdevTick { S with hbdev := S.hbdev + 1, hbdevAt := S.meridian }) ∧
  (S.alive ≠ 0 → S.hbdevAt + 1000000 ≤ S.meridian → S.hbmirror ≠ 0 → S.fenced = false →
    ∃ t, exec .hbdevTick s = .next t ∧ t.sys = { S with hbdev := S.hbdev + 1, hbdevAt := S.meridian } ∧
    wrote t (S.hbmirror.toNat + 2 ^ 61) (leBytes 8 (S.hbdev + 1).toNat) ∧ s.SameSlots t) ∧
  (pair < 8 → ∃ x, sysIs (.pairStop pair) { S with alive := x } ∧ ∀ k, x.getLsbD k = (S.alive.getLsbD k && decide (k ≠ pair))) ∧
  (leader → sysIs .livenessStamp { S with stamp := S.meridian }) ∧ (¬ leader → exec .livenessStamp s = .next s) ∧
  ((S.meridian < S.stamp + 3000000 ∨ S.alive = 0) → exec .leaderTakeover s = .next s) ∧
  (∀ k, lowest k → S.stamp + 3000000 ≤ S.meridian → (∀ u ∈ S.mapout, ∃ c, u = .channel c) → ∃ t, exec .leaderTakeover s = .next t ∧ t.sys.leader = k ∧ t.sys.takeovers = S.takeovers + 1 ∧
    t.sys.stamp = S.meridian ∧ (∀ x ∈ t.sys.shoots, x.acked = []) ∧
    (∀ r ∈ t.sys.journal, r.marked = false → ∃ all pid lo hi, r.change = .shoot all pid lo hi) ∧
    ((∀ r ∈ S.journal, r.marked = true) → ∀ x, t.byte x = s.byte x) ∧
    (∀ a bs, S.journal = [⟨.memory a bs, false⟩] → wrote t (a + 2 ^ 60) bs) ∧
    (S.annvec.getLsbD 15 = true → S.annvec.toNat % 2 ^ 11 ∈ S.msixOn → t.sys.msixSent = S.msixSent ++ [S.annvec.toNat % 2 ^ 11]) ∧
    ((∀ r ∈ S.journal, r.marked = true ∨ ∃ a bs, r.change = .memory a bs) → s.SameCores t ∧ s.SameTiles t ∧
      (¬ leader → (∀ w, atGate w → s.hears w.core = true) → ∀ w, atGate w → dieOf w.core < 8 → gate (dieOf w.core) = S.leader → (s.slot w).Again (t.slot w)))) ∧
  (die < 8 → leader → S.alive.getLsbD (gate die) = false →
    pair < 8 → S.alive.getLsbD pair = true → pair ≠ die → (∀ j, j < pair → S.alive.getLsbD j = true → j = die) →
    ∃ t, exec (.dutyAdoption die pair) s = .next t ∧ mapGet t.sys.gatemap die die = pair ∧ (∀ d, d ≠ die → mapGet t.sys.gatemap d d = gate d) ∧
      ((∀ w, atGate w → s.hears w.core = true) → ∀ w, atGate w → dieOf w.core = die → (s.slot w).Again (t.slot w)) ∧ s.SameCores t ∧ s.SameTiles t ∧ s.SameMemory t) ∧
  (die < 8 → leader → S.alive.getLsbD (gate die) = true → exec (.dutyAdoption die pair) s = .next s) ∧
  (leader → (bs = [] ∨ s.deviceHas (a + bs.length - 1) = true) →
    let c := Change.memory a bs
    ((∃ r ∈ S.journal, r.change = c ∧ r.marked = false) → ∃ t, exec (.firmwareMemoryWrite a bs true) s = .next t ∧ wrote t (a + 2 ^ 60) bs ∧
      t.sys = { S with journal := S.journal.map (fun r => if r.change = c then { r with marked := true } else r) } ∧
      s.SameSlots t ∧ s.SameCores t ∧ s.SameTiles t) ∧
    ((∀ r ∈ S.journal, r.change = c → r.marked = true) → exec (.firmwareMemoryWrite a bs true) s = .next s) ∧
    sysIs (.firmwareMemoryWrite a bs false) { S with journal := S.journal ++ [⟨c, false⟩] }) ∧
  (¬ leader → exec (.firmwareMemoryWrite a bs true) s = .next s ∧ exec (.firmwareMemoryWrite a bs false) s = .next s) ∧
  (leader → bs ≠ [] → s.deviceHas (a + bs.length - 1) = false →
    exec (.firmwareMemoryWrite a bs true) s = .fault (.noSuchMemory (a + bs.length - 1))) ∧
  (link ∉ S.dead → (∃ x, sysIs (.linkRetry link) x ∧ S.counted x 0x118 1 ∧ x.dead = S.dead) ∧
    (∃ x, sysIs (.dusk link) x ∧ S.counted x 0x120 1 ∧ x.dead = S.dead ++ [link]) ∧ exec (.duskResume link n) s = .next s) ∧
  (link ∈ S.dead → exec (.linkRetry link) s = .next s ∧ exec (.dusk link) s = .next s ∧
    ∃ x, sysIs (.duskResume link n) x ∧ S.counted x 0x128 n ∧ x.dead = S.dead.filter (fun k => decide (k ≠ link))) ∧
  (∃ t, exec (.daybreak b) s = .next t ∧ t.slots = [] ∧ t.cores = [] ∧ t.tiles = [] ∧ t.mem = [] ∧ t.stags = [] ∧ t.poison = [] ∧ t.net = [] ∧ t.ranges = [] ∧
    t.launches = [] ∧ t.parts = [] ∧ t.sys.meridian = 0 ∧ t.sys.epoch = 0 ∧ t.sys.takeovers = 0 ∧ t.sys.counters = [] ∧ t.sys.fenced = false ∧
    t.sys.hbArmed = false ∧ t.sys.alive = dies ∧ t.sys.dies = dies ∧ (∀ k, k < 16 → t.sys.sgmask.getLsbD k = (dies.getLsbD (k / 2) && !b.withdrawn.getLsbD k)) ∧
    (∀ j, j ∈ t.sys.spareCores ↔ j ∈ b.spareCores ∧ j < 4096 ∧ dies.getLsbD (j / 512) = true) ∧ t.sys.spareCores.Nodup ∧
    (∀ j, j ∈ t.sys.spareTiles ↔ j ∈ b.spareTiles ∧ j < 16 ∧ dies.getLsbD (j / 2) = true) ∧ t.sys.spareTiles.Nodup ∧ t.sys.maps = b.maps ∧
    (∀ j, j < b.measures.length → t.sys.measures.getD j 0 = if dies.getLsbD j = true then b.measures.getD j 0 else 0) ∧
    (down → t.sys.hostUp = false) ∧ (¬ down → t.sys.hostUp = true ∧ dies.getLsbD t.sys.leader = true ∧ ∀ j, j < t.sys.leader → dies.getLsbD j = false) ∧
    (b.depths = [] → ∀ c, t.depthOf c = 4194304) ∧ (∀ c n, b.depths = [(c, n)] → t.depthOf c = min 4194304 n ∧ ∀ j, j ≠ c → t.depthOf j = 4194304) ∧
    (∀ c, c ∈ t.sys.retired ↔ c < 2048 ∧ (c ∈ b.retired ∨ .channel c ∈ S.mapout ∨ dies.getLsbD (c / 256) = false)) ∧
    t.channels = 2048 - t.sys.retired.length) ∧
  (S.hostUp = false → exec (.hostAccess a n none) s = .next s ∧ exec (.hostAccess a n (some bs)) s = .next s) ∧
  (S.hostUp = true → S.fenced = true →
    sysIs (.hostAccess a n none) { S with hostDropped := S.hostDropped + 1, hostError := false, hostRead := none } ∧
    sysIs (.hostAccess a n (some bs)) { S with hostDropped := S.hostDropped + 1, hostError := false }) ∧
  (S.hostUp = true → S.fenced = false →
    (a + n ≤ s.interleaveEnd → s.hostWaits (devKey a) n false = false → s.anyPoison (devKey a) n = false →
      sysIs (.hostAccess a n none) { S with hostError := false, hostRead := some (s.bytes (a + 2 ^ 60) n) }) ∧
    (a + n ≤ s.interleaveEnd → s.hostWaits (devKey a) n false = false → s.anyPoison (devKey a) n = true → ∃ t, exec (.hostAccess a n none) s = .next t ∧ t.sys.hostRead = none ∧ t.sys.hostError = true ∧
      (∀ p, p < 16 → (s.part p).valid = true → (s.part p).posted (t.part p)) ∧ s.SameSlots t ∧ s.SameCores t ∧ s.SameTiles t) ∧
    (a + bs.length ≤ s.interleaveEnd → s.hostWaits (devKey a) bs.length true = false → s.poison = [] → ∃ t, exec (.hostAccess a n (some bs)) s = .next t ∧
      wrote t (a + 2 ^ 60) bs ∧ (∀ k, t.sideTag k = s.sideTag k) ∧ t.sys = { S with hostError := false } ∧ s.SameSlots t ∧ s.SameCores t ∧ s.SameTiles t) ∧
    (a + bs.length ≤ s.interleaveEnd → s.hostWaits (devKey a) bs.length true = false → s.partlyPoisoned (devKey a) bs.length = true →
      ∃ t, exec (.hostAccess a n (some bs)) s = .next t ∧ t.sys.hostError = true ∧ t.sys.hostRead = S.hostRead ∧
        (∀ p, p < 16 → (s.part p).valid = true → (s.part p).posted (t.part p)) ∧ s.SameSlots t ∧ s.SameCores t ∧ s.SameTiles t) ∧
    (s.hostWaits (devKey a) bs.length true = true → exec (.hostAccess a n (some bs)) s = .next s))

/-- R366, R389, R391, R393, R395, R397 to R403, and the registers of R336, R354, R359 and R372: an uncorrectable error poisons its word and is
reported; a failed unit is counted, reported and mapped out; a partition entry or large-core mask that would take what
another holds is refused; an island steps down over its limits and up below them, and a hot one withholds placements; and
the leader writes telemetry samples and quotes; the fourth uncorrectable error of a unit within 24 hours fails it; and the
registers read as the state has them.  The codes of a unit's record (log entry 30), where records go (log entry 21),
poison by word (log entry 22), the two steps of a journaled change and the signature's bytes (log entry 10), the
placements a failed unit ends (log entry 25) and that a step whose condition is not met changes nothing (log entry 4) are
the model's choices. -/
def Obligations.FleetHealth : Prop := ∀ (s : State) (v : BitVec 64) (a p core i power temp off : Nat),
  let S := s.sys
  let leader := S.alive.getLsbD S.leader = true
  let sysIs := fun (i : Instr) (x : Sys) => exec i s = .next { s with sys := x }
  let posts := fun (t : State) => ∀ q, q < 16 → (s.part q).valid = true → (s.part q).posted (t.part q)
  let free := fun (first n : Nat) => ∀ l ∈ s.launches, ∀ h ∈ l.held, h.1 + h.2 ≤ first ∨ first + n ≤ h.1
  let P := s.part p
  let only := fun (i : Instr) (Q : Partition) => ∃ t, exec i s = .next t ∧ t.part p = Q ∧ (∀ q, q ≠ p → t.part q = s.part q) ∧ t.sys = s.sys ∧
    s.SameSlots t ∧ s.SameCores t ∧ s.SameTiles t ∧ s.SameMemory t
  let sgs : BitVec 16 := BitVec.ofNat 16 (v.toNat / 2 ^ 48)
  let heldSg := fun (k : Nat) => ¬ free (4096 * k) 4096
  let refused := (∃ k, k < 16 ∧ P.sgs.getLsbD k = true ∧ sgs.getLsbD k = false ∧ heldSg k) ∨
    (∃ k, k < 16 ∧ sgs.getLsbD k = true ∧ P.sgs.getLsbD k = false ∧ (S.sgmask.getLsbD k = false ∨ ∃ q, q < 16 ∧ q ≠ p ∧ (s.part q).sgs.getLsbD k = true)) ∨
    (P.valid = true ∧ v.getLsbD 0 = false ∧ ∃ l ∈ s.launches, l.part = p)
  let maskRefused := (∃ n q, n < 64 ∧ q < 16 ∧ q ≠ p ∧ v.getLsbD n = true ∧ (s.part q).largeMask.getLsbD n = true) ∨
    (∃ n, n < 64 ∧ P.largeMask.getLsbD n = true ∧ v.getLsbD n = false ∧ s.largeBusy p n = true)
  let isle := fun (s : State) (i : Nat) => mapGet s.sys.islands (Island.reset i) i
  let floor := if i % 4 = 3 then 17 else 8
  let top := if i % 4 = 3 then 34 else 17
  let x := isle s i
  let cool := power < x.powerCap ∧ temp < 105
  let W := if temp < 100 ∧ i % 4 ≤ 1 then S.withheld.filter (fun k => decide (k ≠ i / 4 * 2 + i % 4)) else S.withheld
  let y : Island := { x with power := power, temp := temp, coolSince := if cool then x.coolSince else S.meridian,
                             hotSince := if temp < 110 then none else x.hotSince }
  let total := ((List.range 32).map (fun j => if j = i then power else (isle s j).power)).sum
  let hot := y.powerCap < power ∨ 105 ≤ temp
  let recent := fun (k : Nat) => (mapGet S.scrubs [] k).filter (fun t => decide (S.meridian < t + 86400 * 1000000000))
  let scrubbed := fun (t : State) (k : Nat) => mapGet t.sys.scrubs [] k = recent k ++ [S.meridian] ∧ t.sys.mapout = S.mapout ∧ t.sys.spareCores = S.spareCores
  let entry := Change.entry p v
  let opened := ∃ r ∈ S.journal, r.change = entry ∧ r.marked = false
  let changed := fun (Q : Partition) => ∃ t, exec (.partitionEntryWrite p v) s = .next t ∧ t.part p = Q ∧ (∀ q, q ≠ p → t.part q = s.part q) ∧
    t.sys.journal = S.journal.map (fun r => if r.change = entry then { r with marked := true } else r) ∧ s.SameSlots t ∧ s.SameMemory t ∧
    (P.valid = true → v.getLsbD 0 = false → ∀ w, w.slot < 8 → (s.slot w).occ = true → (s.slot w).part = p → senderWord w 0 ∈ t.sys.gone)
  let isles := fun (e : Instr) (W : List Nat) (f : Nat → Island) => ∃ t, exec e s = .next t ∧ (∀ j, isle t j = f j) ∧
    t = { s with sys := { S with islands := t.sys.islands, withheld := W } }
  let waits := fun (u : FailedUnit) => u ∈ S.mapout
  let unlisted := ¬ waits (.core core) ∧ ¬ waits (.tile (core / 16))
  let mask := Change.mask p v
  let openMask := ∃ r ∈ S.journal, r.change = mask ∧ r.marked = false
  let T := (s.core core).trace
  (∀ o, o < 131072 → core < 65536 → let a := core * 2 ^ 20 + o
    (s.poisoned a = true → exec (.scrubError a) s = .next s) ∧
    (s.poisoned a = false → 3 ≤ (recent core).length → core / 16 ∉ S.spareCores → unlisted → leader → free core 1 → ∃ t, exec (.scrubError a) s = .next t ∧
      t.poisoned a = true ∧ t.sys.spareCores = S.spareCores ++ [core / 16] ∧ S.counted t.sys 0x160 1 ∧ S.counted t.sys 0x168 1 ∧ s.SameSlots t) ∧
    (s.poisoned a = false → (recent core).length < 3 → ∀ q, s.partOf core = some q → ∃ t, exec (.scrubError a) s = .next t ∧ t.poisoned a = true ∧
      (∀ b, b < 2 ^ 60 → b / 4 ≠ a / 4 → t.poisoned b = s.poisoned b) ∧ (s.part q).posted (t.part q) ∧ scrubbed t core ∧ s.SameSlots t ∧ s.SameCores t ∧ s.SameTiles t)) ∧
  (s.deviceHas a = true → a < 2 ^ 60 → s.poisoned (a + 2 ^ 60) = false → (recent (2 ^ 21 + s.channelAt a)).length < 3 →
    (∀ q, q < 16 → (s.part q).valid = true → (s.part q).fqbase.toNat + 64 * ((s.part q).fqtail % (s.part q).fqsize) ≠ a / 64 * 64) →
    ∃ t, exec (.scrubError (a + 2 ^ 60)) s = .next t ∧ t.poisoned (a + 2 ^ 60) = true ∧
    posts t ∧ scrubbed t (2 ^ 21 + s.channelAt a) ∧ s.SameSlots t ∧ s.SameCores t ∧ s.SameTiles t) ∧
  (¬ waits (.channel a) → ∃ t, exec (.unitFailure (.channel a)) s = .next t ∧ posts t ∧ t.sys.mapout = S.mapout ++ [.channel a] ∧ S.counted t.sys 0x160 1 ∧
    s.SameSlots t ∧ s.SameCores t ∧ s.SameTiles t) ∧
  (core / 16 ∉ S.spareCores → unlisted → ¬ leader → ∃ t, exec (.unitFailure (.core core)) s = .next t ∧ posts t ∧
    t.sys.mapout = S.mapout ++ [.core core] ∧ t.sys.spareCores = S.spareCores ∧ S.counted t.sys 0x160 1 ∧ s.SameSlots t ∧ s.SameCores t ∧ s.SameTiles t) ∧
  (core / 16 ∉ S.spareCores → ¬ unlisted → exec (.unitFailure (.core core)) s = .next s) ∧
  (waits (.spareCore a) ∨ a ∈ S.spareCores → exec (.unitFailure (.spareCore a)) s = .next s) ∧
  (a ∉ S.spareCores → ¬ waits (.spareCore a) → leader → ∃ t, exec (.unitFailure (.spareCore a)) s = .next t ∧ posts t ∧
    t.sys.spareCores = S.spareCores ++ [a] ∧ S.counted t.sys 0x160 1 ∧ s.SameSlots t ∧ s.SameCores t ∧ s.SameTiles t) ∧
  (a ∉ S.spareTiles → ¬ waits (.spareTile a) → leader → ∃ t, exec (.unitFailure (.spareTile a)) s = .next t ∧ posts t ∧
    t.sys.spareTiles = S.spareTiles ++ [a] ∧ S.counted t.sys 0x160 1 ∧ s.SameSlots t ∧ s.SameCores t ∧ s.SameTiles t) ∧
  (core / 16 ∉ S.spareCores → unlisted → leader → free core 1 → isLarge core = false → ∃ t, exec (.unitFailure (.core core)) s = .next t ∧ posts t ∧
    t.sys.spareCores = S.spareCores ++ [core / 16] ∧ S.counted t.sys 0x160 1 ∧ S.counted t.sys 0x168 1 ∧ t.sys.mapout = S.mapout ∧
    s.SameSlots t ∧ s.SameCores t ∧ s.SameTiles t) ∧
  (a / 256 ∉ S.spareTiles → ¬ waits (.tile a) → leader → free (16 * a) 16 → ∃ t, exec (.unitFailure (.tile a)) s = .next t ∧ posts t ∧
    t.sys.spareTiles = S.spareTiles ++ [a / 256] ∧ t.sys.spareCores = S.spareCores.filter (fun k => decide (k ≠ a)) ∧ S.counted t.sys 0x160 1 ∧ S.counted t.sys 0x168 1 ∧ s.SameSlots t ∧ s.SameCores t ∧ s.SameTiles t) ∧
  (a / 256 ∈ S.spareTiles → ¬ waits (.tile a) → leader → free (a / 256 * 4096) 4096 → ∃ t, exec (.unitFailure (.tile a)) s = .next t ∧ S.counted t.sys 0x168 1 ∧
    (∀ k, t.sys.sgmask.getLsbD k = (S.sgmask.getLsbD k && decide (k ≠ a / 256))) ∧
    (∀ q k, q < 16 → (t.part q).sgs.getLsbD k = ((s.part q).sgs.getLsbD k && decide (k ≠ a / 256))) ∧ s.SameSlots t ∧ s.SameCores t ∧ s.SameTiles t) ∧
  (p ≤ 15 → S.hostUp = true →
    (leader → refused → only (.partitionEntryWrite p v) { P with refused := true }) ∧
    (leader → ¬ refused → ¬ opened → sysIs (.partitionEntryWrite p v) { S with journal := S.journal ++ [⟨entry, false⟩] }) ∧
    (leader → ¬ refused → opened → let Q : Partition := { P with sgs := sgs, pid := BitVec.ofNat 16 (v.toNat / 2 ^ 32), valid := v.getLsbD 0, refused := false }
      (v.getLsbD 0 = false ∨ P.valid = true → changed Q) ∧
      (v.getLsbD 0 = true → P.valid = false → changed { Q with fqhead := 0, fqtail := 0, fqlost := 0, queues := [], qdropped := [],
                                                               placing := none, run := .running, evWaiting := false, images := [] })) ∧
    (¬ leader → exec (.partitionEntryWrite p v) s = .next s ∧ exec (.largeCoreMaskWrite p v) s = .next s) ∧
    (leader → maskRefused → only (.largeCoreMaskWrite p v) { P with refused := true }) ∧
    (leader → ¬ maskRefused → ¬ openMask → sysIs (.largeCoreMaskWrite p v) { S with journal := S.journal ++ [⟨mask, false⟩] }) ∧
    (leader → ¬ maskRefused → openMask → ∃ t, exec (.largeCoreMaskWrite p v) s = .next t ∧ t.part p = { P with largeMask := v, refused := false } ∧
      (∀ q, q ≠ p → t.part q = s.part q) ∧
      t.sys = { S with journal := S.journal.map (fun r => if r.change = mask then { r with marked := true } else r) } ∧
      s.SameSlots t ∧ s.SameCores t ∧ s.SameTiles t ∧ s.SameMemory t)) ∧
  (15 < p ∨ S.hostUp = false → exec (.partitionEntryWrite p v) s = .next s ∧ exec (.largeCoreMaskWrite p v) s = .next s) ∧
  (31 < i → exec (.islandStepDown i power temp) s = .next s ∧ exec (.islandStepUp i power temp) s = .next s) ∧
  (i < 32 →
    isles (.islandStepDown i power temp) W (fun j => let z := if j = i then y else isle s j
      if z.lastStep + 10000 ≤ S.meridian ∧ ((j = i ∧ hot ∧ i % 4 ≠ 2) ∨ (4200 < total ∧ j < 32 ∧ j % 4 ≤ 1)) then
        { z with freq := max (if j % 4 = 3 then 17 else 8) (z.freq - 1), throttled := true, lastStep := S.meridian, coolSince := S.meridian }
      else z) ∧
    (i % 4 = 2 ∨ ¬ cool ∨ S.meridian < x.coolSince + 1000000 ∨ S.meridian < x.lastStep + 1000000 ∨ x.cap ≤ x.freq →
      isles (.islandStepUp i power temp) W (fun j => if j = i then y else isle s j)) ∧
    (i % 4 ≠ 2 → cool → x.coolSince + 1000000 ≤ S.meridian → x.lastStep + 1000000 ≤ S.meridian → x.freq < x.cap → isles (.islandStepUp i power temp) W
      (fun j => if j = i then { y with freq := x.freq + 1, throttled := decide (x.freq + 1 < x.cap), lastStep := S.meridian, hotSince := none }
        else isle s j)) ∧
    (S.hostUp = true → i % 4 ≠ 2 → isles (.registerWrite (0x400 + 16 * i) v) S.withheld (fun j => if j = i then { x with
      cap := max floor (min top (v.toNat / 2 ^ 8 % 2 ^ 8)), powerCap := v.toNat / 2 ^ 16 % 2 ^ 16,
      freq := min x.freq (max floor (min top (v.toNat / 2 ^ 8 % 2 ^ 8))) } else isle s j))) ∧
  (p < 16 → let k := p / 2 * 4 + p % 2
    let z := { isle s k with temp := temp, coolSince := if (isle s k).power < (isle s k).powerCap ∧ temp < 105 then (isle s k).coolSince else S.meridian }
    (temp < 100 → ∃ t, exec (.thermalWithhold p temp) s = .next t ∧ t.sys.withheld = S.withheld.filter (fun q => decide (q ≠ p)) ∧
      isle t k = { z with hotSince := none }) ∧
    (100 ≤ temp → temp < 110 ∨ 8 < z.freq → ∃ t, exec (.thermalWithhold p temp) s = .next t ∧ t.sys.withheld = S.withheld ∧
      isle t k = { z with hotSince := none }) ∧
    (∀ since, 110 ≤ temp → z.freq ≤ 8 → z.hotSince = some since → since + 100000000 ≤ S.meridian → p ∉ S.withheld →
      ∃ t, exec (.thermalWithhold p temp) s = .next t ∧ t.sys.withheld = S.withheld ++ [p]) ∧
    (110 ≤ temp → z.freq ≤ 8 → z.hotSince = none → ∃ t, exec (.thermalWithhold p temp) s = .next t ∧ t.sys.withheld = S.withheld ∧
      isle t k = { z with hotSince := some S.meridian })) ∧
  (leader → S.tmbase ≠ 0 → S.tmAt + 1000000 ≤ S.meridian → S.tmsize ≤ S.tmtail - S.tmhead →
    ∃ x, sysIs .telemetrySample x ∧ S.counted x 0x148 1 ∧ x.tmtail = S.tmtail ∧ x.tmAt = S.meridian) ∧
  (leader → S.tmbase ≠ 0 → S.tmAt + 1000000 ≤ S.meridian → S.tmtail - S.tmhead < S.tmsize → S.fenced = false →
    ∃ t k, exec .telemetrySample s = .next t ∧ t.sys = { S with tmAt := S.meridian, tmtail := S.tmtail + 1 } ∧
    (k = S.tmbase.toNat + 512 * (S.tmtail % S.tmsize) + 2 ^ 60 ∨ k = S.tmbase.toNat + 512 * (S.tmtail % S.tmsize) + 2 ^ 61) ∧
    t.nat k 8 = S.meridian % 2 ^ 64 ∧ (∀ j, j < 32 → t.nat (k + 8 + 8 * j + 1) 1 = (isle s j).freq % 2 ^ 8) ∧
    (∀ j, j < 14 → t.nat (k + 264 + 8 * j) 8 = mapGet S.counters 0 (0x100 + 8 * j) % 2 ^ 64) ∧
    (∀ a, a < k ∨ k + 512 ≤ a → t.byte a = s.byte a) ∧ s.SameSlots t) ∧
  (S.tmbase = 0 ∨ ¬ leader ∨ S.meridian < S.tmAt + 1000000 → exec .telemetrySample s = .next s) ∧
  (S.qstate = 1 → exec .quoteRequest s = .next s) ∧
  (S.qstate ≠ 1 → leader → ∃ q, sysIs .quoteRequest { S with qstate := 1, quote := q } ∧ q.take 48 = leBytes 8 1 ++ leBytes 8 S.meridian ++ leBytes 32 S.nonce.toNat) ∧
  (S.qstate ≠ 1 → ¬ leader → sysIs .quoteRequest { S with qstate := 3 }) ∧
  (S.qstate = 1 → leader → ∃ g, sysIs .quoteReady { S with qstate := 2, quote := S.quote ++ g } ∧ g.length = 2420) ∧
  (S.qstate ≠ 1 → exec .quoteReady s = .next s) ∧
  (S.hostUp = false → exec (.registerWrite off v) s = .next s ∧ exec (.trctlWrite core v) s = .next s ∧ s.registerRead off = none) ∧
  (S.hostUp = true → ∃ t, exec (.trctlWrite core v) s = .next t ∧ (t.core core).trace.ctl = v &&& 0xFFF101 ∧ s.OtherCores t core ∧ s.SameSlots t ∧ s.SameMemory t ∧
    (v.getLsbD 0 = true → (t.core core).trace.events = [] ∧ (t.core core).trace.next = 0 ∧ (t.core core).trace.frozen = false ∧
      (t.core core).trace.full = false ∧ (t.core core).trace.wrapped = false) ∧
    (v.getLsbD 0 = false → (t.core core).trace = { T with ctl := v &&& 0xFFF101 })) ∧
  (S.hostUp = true → core < 65536 → ∃ t, exec (.registerWrite (0x1C00000 + 0x40 * core + 8) v) s = .next t ∧
    (t.core core).trace = { T with trig := v &&& 0xF3FFFF0000000FFF, post := none } ∧ s.OtherCores t core ∧ s.SameSlots t ∧ s.SameMemory t) ∧
  (S.hostUp = true → p < 16 → off < 24 →
    (1 ≤ v.toNat → v.toNat ≤ 1000000 → only (.registerWrite (0x20000 + 0x100 * p + 8 * off) v) { P with patience := mapPut P.patience off v.toNat }) ∧
    (v = 0 ∨ 1000000 < v.toNat → exec (.registerWrite (0x20000 + 0x100 * p + 8 * off) v) s = .next s) ∧
    only (.registerWrite (0x40000 + 0x100 * p) v) { P with fqbase := v &&& ~~~(0xFFFF : Word) } ∧
    only (.registerWrite (0x40010 + 0x100 * p) v) { P with fqhead := v.toNat } ∧
    only (.registerWrite (0x40028 + 0x100 * p) v) { P with fqsig := v } ∧ only (.registerWrite (0x40030 + 0x100 * p) v) { P with ptab := v }) ∧
  (S.hostUp = true →
    sysIs (.registerWrite 0x18 v) { S with hbmirror := v &&& ~~~(7 : Word) } ∧ sysIs (.registerWrite 0x30 v) { S with annvec := v &&& 0x87FF } ∧
    sysIs (.registerWrite 0x600 v) { S with tmbase := v &&& ~~~(0xFFF : Word) } ∧ sysIs (.registerWrite 0x610 v) { S with tmhead := v.toNat } ∧
    s.registerRead 0x08 = some S.hbhost.toNat ∧ s.registerRead 0x10 = some S.hbdev.toNat ∧ s.registerRead 0x28 = some S.epoch ∧
    s.registerRead 0x38 = some (((List.range 8).map (fun d => mapGet S.gatemap d d % 8 * 2 ^ (4 * d))).sum) ∧
    (∀ j, j < 14 → s.registerRead (0x100 + 8 * j) = some (mapGet S.counters 0 (0x100 + 8 * j))) ∧
    (p < 16 → s.registerRead (0x1800008 + 0x100 * p) = some ((match P.run with
        | .stopping _ => 1 | .stopped _ => 2 | .resuming _ _ => 3 | _ => 0) + (if P.nfRefused then 4 else 0)) ∧
      s.registerRead (0x1800010 + 0x100 * p) = some P.nft ∧ s.registerRead (0x700 + 8 * p) = some P.largeMask.toNat ∧
      s.registerRead (0x300 + 8 * p) = some (P.sgs.toNat * 2 ^ 48 + P.pid.toNat * 2 ^ 32 + if P.valid then 1 else 0)) ∧
    (core < 65536 → let k := 0x1C00000 + 0x40 * core
      let e : BitVec 128 := mapGet T.events 0 T.win.toNat
      s.registerRead k = some T.ctl.toNat ∧ s.registerRead (k + 0x30) = some (e.toNat % 2 ^ 64) ∧ s.registerRead (k + 0x38) = some (e.toNat / 2 ^ 64) ∧
      s.registerRead (k + 0x20) = some (T.next % 1024 + (if T.wrapped then 2 ^ 10 else 0) + (if T.frozen then 2 ^ 11 else 0) +
        (if T.full then 2 ^ 12 else 0) + T.dropped % 2 ^ 32 * 2 ^ 32)) ∧
    (∀ j, j < 4096 → s.registerRead (0x1000010 + 0x40 * j) = some ((s.engine j).suspended.filter (fun q => !q.resumed)).length) ∧
    (∀ j, j < 164 → s.registerRead (0x4000 + 8 * j) = some (leNat ((List.range 8).map (fun q => Config.publicKey (8 * j + q))))) ∧
    (∀ j, j < 376 → s.registerRead (0x2000 + 8 * j) = if S.qstate = 2 then some (leNat ((S.quote.drop (8 * j)).take 8)) else none))

/-! ### The machine -/

/-- R10 and R171: a cycle of a core issues the slot that its pipe table names, if that slot may issue, or under ANY the
lowest slot that may; the word at the slot's PC, decoded, runs, and the state it leaves is the step's but for its trace
event and the end of the cycle (obligation RepliesAndSlots says what that does); a word that is no instruction takes ILLEGAL with the word as its value (R176); a slot with a trap that waited takes it;
an instruction that reads or writes the destination of a relaxed access parks on it in flight and takes its cause once it
has faulted (R201); those trap entries are traced (R390); a stopped
core, or one that no slot fills, runs nothing; and a step of another agent is exec of it, while a word's instruction is no
such step.  The order of the steps is the environment's (log entries 1 and 4). -/
def Obligations.StepRunsDecoded : Prop := ∀ (s s1 : State) (core k n : Nat) (cached : Bool) (i : Instr) (rest : List Sched),
  let w : Who := ⟨core, k⟩
  let t := s1.issuing core k cached
  let u := t.fetched w
  let f := s1.frameStart core
  (s.NextCycle s1 core cached → s1.coreRuns core = false → step s = .next s1) ∧
  (s.NextCycle s1 core cached → s1.coreRuns core = true → f.pickSlot core = none →
    step s = .next ((f.setCore core ((f.core core).counted (f.parkedSlots core) (f.clock core))).endCycle core none)) ∧
  (s.NextCycle s1 core cached → s1.coreRuns core = true → f.pickSlot core = some k → (t.slot w).pend.isSome = true →
    step s = .next (((t.lateEntry w).traceEntries s1).endCycle core none)) ∧
  (s.NextCycle s1 core cached → s1.coreRuns core = true → f.pickSlot core = some k → t.FetchesWord w n →
    (decodeWord n = .ok i → (u.slot w).hazard i = none → step s = match exec i u with
      | .next v => .next ((v.traceIssue w i (u.slot w)).endCycle core (v.issuedIn w))
      | .fault e => .fault e
      | .refused r => .refused r) ∧
    (∀ r, decodeWord n = .ok i → (u.slot w).hazard i = some r → r.fault = none →
      step s = .next ((u.parkOn (.result r.id)).endCycle core none)) ∧
    (∀ r c v, decodeWord n = .ok i → (u.slot w).hazard i = some r → r.fault = some (c, v) →
      step s = .next (((u.trapAt w c v).traceEntries s1).endCycle core none)) ∧
    (∀ e, decodeWord n = .error e → 
      step s = .next (((u.trapAt w .illegal (BitVec.ofNat 64 n)).traceEntries s1).endCycle core none))) ∧
  (isLarge core = false → ∀ e : Nat, e = ((s1.core core).live.toList.getD ((s1.core core).pos % 32) 0).toNat →
    (e ≠ 8 → s1.pickSlot core = if s1.slotReady ⟨core, e⟩ then some e else none) ∧
    (e = 8 → ∀ j, s1.pickSlot core = some j ↔ j < 8 ∧ s1.anyMay core j = true ∧ ∀ l, l < j → s1.anyMay core l = false)) ∧
  (s.agenda = .event i cached :: rest → i.encoded = false →
    step s = match exec i { s with agenda := rest, cached := cached } with
      | .next v => .next (v.traceEntries { s with agenda := rest })
      | .fault e => .fault e
      | .refused r => .refused r) ∧
  (s.agenda = .event i cached :: rest → i.encoded = true → step s = .next { s with agenda := rest }) ∧
  (∀ e, s.agenda = e :: rest → (∀ c b, e ≠ .cycle c b) → (∀ j b, e ≠ .event j b) →
    step s = .next (({ s with agenda := rest }.environment e).traceEntries { s with agenda := rest }))

/-- Words of several families, written out from the encodings of R171-R175, decode to the instructions they stand for,
and words of R176 to none. -/
def Obligations.DecodeWords : Prop :=
  (∀ p ∈ ([(0x04A63800, .add 5 6 7), (0x05095008, .sra 8 9 10), (0x0C85FFF0, .andi 4 5 0xFFF0), (0x20A68003, .srai 5 6 3),
      (0x2C853004, .div 4 5 6), (0x34A0FFFD, .bne 5 0 0xFFFD), (0x48000010, .j 0x10), (0x54642820, .cmp 3 4 5 2),
      (0x5D259003, .lw 9 5 1 3), (0x60E28FFE, .sw 7 2 0 0xFFE), (0x64853010, .aadd 4 5 6 0 1), (0x6C450202, .xcread 2 5),
      (0x70063811, .migto 6 7), (0x76950000, .send 20 21), (0x78650000, .qbind 3 5), (0x80053000, .tcinit 5 6),
      (0x88850000, .alloc 4 5), (0x90820FFF, .vstF32 4 2 0 0xFFF), (0x94221C80, .vadd 1 2 3 4 1), (0x98A63800, .vfadd 5 6 7 0),
      (0x9C611100, .vfma 3 1 2 4 0), (0xA4890000, .sigget 4 9 0), (0xAC411800, .vsplat 2 1 3 0), (0xB0410130, .vcvt 2 1 0 1 3 0),
      (0xB5000200, .mtld 8), (0xB8A60000, .anorm 5 6), (0xBD090102, .mcovp 8 9 2), (0xC0060002, .ecw 6 2), (0xC4A00003, .cbinit 5 3),
      (0xC8000121, .trap 0x12), (0xC9280007, .ptblw 9 8), (0xD0850000, .launch 4 5)] : List (Nat × Instr)), decodeWord p.1 = .ok p.2) ∧
  (∀ w ∈ [0x00000000, 0xFFFFFFFF, 0x0400001B, 0xD4000000, 0x60002000, 0x70000004], ∃ e, decodeWord w = .error e)

/-- R171: every well-formed encoded instruction decodes from its own four bytes, whatever follows them, to itself; and
every word that decodes is the word of the instruction it decodes to, so no word has two readings and no bit is
dropped. -/
def Obligations.DecodeEncode : Prop :=
  (∀ (i : Instr) (rest : List Byte), i.encoded = true → i.wf = true →
    (encode i).length = 4 ∧ decodeBytes (encode i ++ rest) = .ok (i, rest)) ∧
  (∀ (w : Nat) (i : Instr), w < 2 ^ 32 → decodeWord w = .ok i → i.wf = true ∧ encodeWord i = some w)

/-- What reset leaves: the user CSRs of R169 and the trap registers of R349 in every slot, no thread in any slot, p0
alone true and every register lane EXACT; the pipe table of R10 with none staged in every core and no cycle counted; and the memories in their canonical form.  Registers to which the manual gives no value, and the part as
Daybreak leaves it, are the model's choices (log entries 2, 3 and 20). -/
def Obligations.ResetState : Prop :=
  let r := State.reset
  r.MemForm ∧ r.PipesOk ∧
  (∀ w, (r.slot w).occ = false ∧ (r.slot w).mode = .user ∧ (r.slot w).sup.status = 0 ∧ (r.slot w).mach.status = 0 ∧
    (r.slot w).csr.fpctl = 0 ∧ (r.slot w).csr.winsig = 0xFFF0C3108618#48 ∧ (r.slot w).csr.olscale = 0x1B000#17 ∧
    (r.slot w).csr.sigfloor = 0 ∧ (r.slot w).csr.uinh = false ∧ (r.slot w).csr.utvec = 0 ∧ (r.slot w).csr.udeleg = 0 ∧
    (∀ j, (r.slot w).p j = decide (j = 0)) ∧ ∀ v l, (r.slot w).tag v l = Tag.exact) ∧
  (∀ c k, k < 32 → ((r.core c).live.toList.getD k 0).toNat = k % 8 ∧ (r.core c).staged = none ∧ (r.core c).issued = 0 ∧ (r.core c).bubbles = 0) ∧
  (∀ a, r.byte a = 0) ∧ r.threads 0 = []

/-- Memory, side tags and poison marks stay in their canonical forms over every step of every agent from any state, so
that equal memories are equal data (log entry 2). -/
def Obligations.MemFormKept : Prop := ∀ s t : State, s.MemForm → step s = .next t → t.MemForm

/-- R10, R11 and R13: over every step of every agent from any state, a live or staged pipe table keeps only codes 0-8, the
service slot at its four entries and the spacing of named entries. -/
def Obligations.PipesKept : Prop := ∀ s t : State, s.PipesOk → step s = .next t → t.PipesOk

/-- R347: an instruction that a slot issues in USER mode changes no slot's handler addresses and scratch words, and
takes no slot out of its mode except into USER or into an entry at one of that slot's own handlers. -/
def Obligations.UserModeConfined : Prop := ∀ (s t : State) (i : Instr),
  i.encoded = true → s.me.mode = .user → exec i s = .next t → ∀ w, (s.slot w).Guarded (t.slot w)
end

