-- ==== Sys2Proof/Laws/Maps.lean ====
section
/-! SUPPORT.  The laws of the sparse maps: a read after a write, and that every operation keeps the canonical form. -/

namespace Sys2Proof.Machine

variable {α : Type}

/-- A key above every key of a map. -/
def mapAbove (k : Nat) (m : SMap α) : Prop := ∀ p ∈ m, k < p.1

theorem mapGet_mapErase (m : SMap α) (d : α) (k j : Nat) :
    mapGet (mapErase m k) d j = if j = k then d else mapGet m d j := by
  induction m with
  | nil => simp [mapErase, mapGet]
  | cons p r ih =>
    obtain ⟨i, v⟩ := p
    by_cases h : i = k
    · subst h
      by_cases hj : j = i
      · subst hj; simp [mapErase, ih]
      · simp [mapErase, mapGet, ih, hj, Ne.symm hj]
    · by_cases hj : j = k
      · subst hj
        simp [mapErase, h, mapGet, ih]
      · simp [mapErase, h, mapGet, ih, hj]

theorem mapErase_absent (m : SMap α) (k : Nat) (p : Nat × α) (h : p ∈ mapErase m k) : p.1 ≠ k := by
  induction m with
  | nil => simp [mapErase] at h
  | cons q r ih =>
    obtain ⟨i, v⟩ := q
    by_cases hi : i = k
    · simp only [mapErase, if_pos hi] at h; exact ih h
    · simp only [mapErase, if_neg hi, List.mem_cons] at h
      rcases h with rfl | h
      · exact hi
      · exact ih h

theorem mapErase_subset (m : SMap α) (k : Nat) (p : Nat × α) (h : p ∈ mapErase m k) : p ∈ m := by
  induction m with
  | nil => simp [mapErase] at h
  | cons q r ih =>
    obtain ⟨i, v⟩ := q
    by_cases hi : i = k
    · simp only [mapErase, if_pos hi] at h; exact List.mem_cons_of_mem _ (ih h)
    · simp only [mapErase, if_neg hi, List.mem_cons] at h
      rcases h with rfl | h
      · simp
      · exact List.mem_cons_of_mem _ (ih h)

theorem mapGet_mapInsert (m : SMap α) (d : α) (k j : Nat) (v : α) (h : ∀ p ∈ m, p.1 ≠ k) :
    mapGet (mapInsert m k v) d j = if j = k then v else mapGet m d j := by
  induction m with
  | nil =>
    by_cases hj : j = k
    · simp [mapInsert, mapGet, hj]
    · simp [mapInsert, mapGet, hj, Ne.symm hj]
  | cons p r ih =>
    obtain ⟨i, w⟩ := p
    have hi : i ≠ k := h (i, w) (by simp)
    have hr := ih (fun p hp => h p (List.mem_cons_of_mem _ hp))
    by_cases hk : k < i
    · by_cases hj : j = k
      · simp [mapInsert, hk, mapGet, hj]
      · simp [mapInsert, hk, mapGet, hj, Ne.symm hj]
    · by_cases hj : j = k
      · subst hj
        simp [mapInsert, hk, mapGet, hr, hi]
      · simp [mapInsert, hk, mapGet, hr, hj]

/-- A read after a write (every entry is listed). -/
@[simp] theorem mapGet_mapPut (m : SMap α) (d : α) (k j : Nat) (v : α) :
    mapGet (mapPut m k v) d j = if j = k then v else mapGet m d j := by
  rw [mapPut, mapGet_mapInsert _ _ _ _ _ (fun p hp => mapErase_absent m k p hp), mapGet_mapErase]
  by_cases h : j = k <;> simp [h]

/-- A read after a write of a canonical map. -/
@[simp] theorem mapGet_mapSet [DecidableEq α] (m : SMap α) (d : α) (k j : Nat) (v : α) :
    mapGet (mapSet m d k v) d j = if j = k then v else mapGet m d j := by
  unfold mapSet
  by_cases hv : v = d
  · rw [if_pos hv, mapGet_mapErase]
    by_cases h : j = k <;> simp [h, hv]
  · rw [if_neg hv, mapGet_mapInsert _ _ _ _ _ (fun p hp => mapErase_absent m k p hp), mapGet_mapErase]
    by_cases h : j = k <;> simp [h]

theorem mapSorted_cons (p : Nat × α) (m : SMap α) : mapSorted (p :: m) = true ↔ mapAbove p.1 m ∧ mapSorted m = true := by
  induction m generalizing p with
  | nil => simp [mapSorted, mapAbove]
  | cons q r ih =>
    obtain ⟨j, v⟩ := p
    obtain ⟨k, w⟩ := q
    have h := ih (k, w)
    simp only [mapSorted, Bool.and_eq_true, decide_eq_true_eq, mapAbove, List.mem_cons, forall_eq_or_imp]
    constructor
    · intro ⟨h1, h2⟩
      exact ⟨⟨h1, fun p hp => lt_trans h1 ((h.mp h2).1 p hp)⟩, h2⟩
    · intro ⟨h1, h2⟩
      exact ⟨h1.1, h2⟩

theorem mapSorted_erase (m : SMap α) (k : Nat) (h : mapSorted m = true) : mapSorted (mapErase m k) = true := by
  induction m with
  | nil => rfl
  | cons p r ih =>
    obtain ⟨i, v⟩ := p
    rw [mapSorted_cons] at h
    by_cases hi : i = k
    · simp only [mapErase, if_pos hi]; exact ih h.2
    · simp only [mapErase, if_neg hi]
      rw [mapSorted_cons]
      exact ⟨fun p hp => h.1 p (mapErase_subset r k p hp), ih h.2⟩

theorem mem_mapInsert (m : SMap α) (k : Nat) (v : α) (p : Nat × α) (h : p ∈ mapInsert m k v) : p = (k, v) ∨ p ∈ m := by
  induction m with
  | nil => simpa [mapInsert] using h
  | cons q r ih =>
    obtain ⟨i, w⟩ := q
    by_cases hk : k < i
    · simpa [mapInsert, hk] using h
    · simp only [mapInsert, if_neg hk, List.mem_cons] at h
      rcases h with h | h
      · exact .inr (by simp [h])
      · rcases ih h with h | h
        · exact .inl h
        · exact .inr (List.mem_cons_of_mem _ h)

theorem mapSorted_insert (m : SMap α) (k : Nat) (v : α) (h : mapSorted m = true) (hk : ∀ p ∈ m, p.1 ≠ k) :
    mapSorted (mapInsert m k v) = true := by
  induction m with
  | nil => rfl
  | cons q r ih =>
    obtain ⟨i, w⟩ := q
    rw [mapSorted_cons] at h
    by_cases hi : k < i
    · simp only [mapInsert, if_pos hi]
      rw [mapSorted_cons, mapSorted_cons]
      exact ⟨fun p hp => by
        rcases List.mem_cons.mp hp with rfl | hp
        · exact hi
        · exact lt_trans hi (h.1 p hp), h⟩
    · simp only [mapInsert, if_neg hi]
      rw [mapSorted_cons]
      refine ⟨fun p hp => ?_, ih h.2 (fun p hp => hk p (List.mem_cons_of_mem _ hp))⟩
      rcases mem_mapInsert r k v p hp with rfl | hp
      · have := hk (i, w) (by simp)
        exact lt_of_le_of_ne (not_lt.mp hi) this
      · exact h.1 p hp

/-- A write keeps the canonical form. -/
theorem mapWf_mapSet [DecidableEq α] (m : SMap α) (d : α) (k : Nat) (v : α) (h : mapWf m d = true) :
    mapWf (mapSet m d k v) d = true := by
  simp only [mapWf, Bool.and_eq_true, List.all_eq_true, decide_eq_true_eq] at h ⊢
  unfold mapSet
  by_cases hv : v = d
  · rw [if_pos hv]
    exact ⟨mapSorted_erase m k h.1, fun p hp => h.2 p (mapErase_subset m k p hp)⟩
  · rw [if_neg hv]
    refine ⟨mapSorted_insert _ k v (mapSorted_erase m k h.1) (fun p hp => mapErase_absent m k p hp), fun p hp => ?_⟩
    rcases mem_mapInsert _ k v p hp with rfl | hp
    · exact hv
    · exact h.2 p (mapErase_subset m k p hp)

theorem mapSorted_filter (m : SMap α) (f : Nat × α → Bool) (h : mapSorted m = true) : mapSorted (m.filter f) = true := by
  induction m with
  | nil => rfl
  | cons p r ih =>
    rw [mapSorted_cons] at h
    by_cases hf : f p = true
    · rw [List.filter_cons_of_pos hf, mapSorted_cons]
      exact ⟨fun q hq => h.1 q (List.mem_filter.mp hq).1, ih h.2⟩
    · rw [List.filter_cons_of_neg hf]; exact ih h.2

/-- Dropping entries keeps the canonical form. -/
theorem mapWf_filter [DecidableEq α] (m : SMap α) (d : α) (f : Nat × α → Bool) (h : mapWf m d = true) :
    mapWf (m.filter f) d = true := by
  simp only [mapWf, Bool.and_eq_true, List.all_eq_true, decide_eq_true_eq] at h ⊢
  exact ⟨mapSorted_filter m f h.1, fun p hp => h.2 p (List.mem_filter.mp hp).1⟩

end Sys2Proof.Machine
end

