-- ==== Sys2Proof/Laws/State.lean ====
section
/-! SUPPORT.  What the named updates of the state leave alone and what they write, one lemma per field. -/

namespace Sys2Proof.Machine

/-! ### The updates of State, field by field -/

@[simp] theorem State.setSlot_cur (s : State) (w : Who) (x : Slot) : (s.setSlot w x).cur = s.cur := rfl
@[simp] theorem State.setSlot_focus (s : State) (w : Who) (x : Slot) : (s.setSlot w x).focus = s.focus := rfl
@[simp] theorem State.setSlot_cached (s : State) (w : Who) (x : Slot) : (s.setSlot w x).cached = s.cached := rfl
@[simp] theorem State.setSlot_agenda (s : State) (w : Who) (x : Slot) : (s.setSlot w x).agenda = s.agenda := rfl
@[simp] theorem State.setSlot_mem (s : State) (w : Who) (x : Slot) : (s.setSlot w x).mem = s.mem := rfl
@[simp] theorem State.setSlot_stags (s : State) (w : Who) (x : Slot) : (s.setSlot w x).stags = s.stags := rfl
@[simp] theorem State.setSlot_poison (s : State) (w : Who) (x : Slot) : (s.setSlot w x).poison = s.poison := rfl
@[simp] theorem State.setSlot_cores (s : State) (w : Who) (x : Slot) : (s.setSlot w x).cores = s.cores := rfl
@[simp] theorem State.setSlot_tiles (s : State) (w : Who) (x : Slot) : (s.setSlot w x).tiles = s.tiles := rfl
@[simp] theorem State.setSlot_net (s : State) (w : Who) (x : Slot) : (s.setSlot w x).net = s.net := rfl
@[simp] theorem State.setSlot_nodes (s : State) (w : Who) (x : Slot) : (s.setSlot w x).nodes = s.nodes := rfl
@[simp] theorem State.setSlot_edges (s : State) (w : Who) (x : Slot) : (s.setSlot w x).edges = s.edges := rfl
@[simp] theorem State.setSlot_posted (s : State) (w : Who) (x : Slot) : (s.setSlot w x).posted = s.posted := rfl
@[simp] theorem State.setSlot_ranges (s : State) (w : Who) (x : Slot) : (s.setSlot w x).ranges = s.ranges := rfl
@[simp] theorem State.setSlot_tlb (s : State) (w : Who) (x : Slot) : (s.setSlot w x).tlb = s.tlb := rfl
@[simp] theorem State.setSlot_nextId (s : State) (w : Who) (x : Slot) : (s.setSlot w x).nextId = s.nextId := rfl
@[simp] theorem State.setSlot_ticket (s : State) (w : Who) (x : Slot) : (s.setSlot w x).ticket = s.ticket := rfl
@[simp] theorem State.setSlot_launches (s : State) (w : Who) (x : Slot) : (s.setSlot w x).launches = s.launches := rfl
@[simp] theorem State.setSlot_chunks (s : State) (w : Who) (x : Slot) : (s.setSlot w x).chunks = s.chunks := rfl
@[simp] theorem State.setSlot_parts (s : State) (w : Who) (x : Slot) : (s.setSlot w x).parts = s.parts := rfl
@[simp] theorem State.setSlot_sys (s : State) (w : Who) (x : Slot) : (s.setSlot w x).sys = s.sys := rfl
@[simp] theorem State.setSlot_free (s : State) (w : Who) (x : Slot) : (s.setSlot w x).free = s.free := rfl
@[simp] theorem State.setCore_cur (s : State) (c : Nat) (x : Core) : (s.setCore c x).cur = s.cur := rfl
@[simp] theorem State.setCore_focus (s : State) (c : Nat) (x : Core) : (s.setCore c x).focus = s.focus := rfl
@[simp] theorem State.setCore_cached (s : State) (c : Nat) (x : Core) : (s.setCore c x).cached = s.cached := rfl
@[simp] theorem State.setCore_agenda (s : State) (c : Nat) (x : Core) : (s.setCore c x).agenda = s.agenda := rfl
@[simp] theorem State.setCore_mem (s : State) (c : Nat) (x : Core) : (s.setCore c x).mem = s.mem := rfl
@[simp] theorem State.setCore_stags (s : State) (c : Nat) (x : Core) : (s.setCore c x).stags = s.stags := rfl
@[simp] theorem State.setCore_poison (s : State) (c : Nat) (x : Core) : (s.setCore c x).poison = s.poison := rfl
@[simp] theorem State.setCore_slots (s : State) (c : Nat) (x : Core) : (s.setCore c x).slots = s.slots := rfl
@[simp] theorem State.setCore_tiles (s : State) (c : Nat) (x : Core) : (s.setCore c x).tiles = s.tiles := rfl
@[simp] theorem State.setCore_net (s : State) (c : Nat) (x : Core) : (s.setCore c x).net = s.net := rfl
@[simp] theorem State.setCore_nodes (s : State) (c : Nat) (x : Core) : (s.setCore c x).nodes = s.nodes := rfl
@[simp] theorem State.setCore_edges (s : State) (c : Nat) (x : Core) : (s.setCore c x).edges = s.edges := rfl
@[simp] theorem State.setCore_posted (s : State) (c : Nat) (x : Core) : (s.setCore c x).posted = s.posted := rfl
@[simp] theorem State.setCore_ranges (s : State) (c : Nat) (x : Core) : (s.setCore c x).ranges = s.ranges := rfl
@[simp] theorem State.setCore_tlb (s : State) (c : Nat) (x : Core) : (s.setCore c x).tlb = s.tlb := rfl
@[simp] theorem State.setCore_nextId (s : State) (c : Nat) (x : Core) : (s.setCore c x).nextId = s.nextId := rfl
@[simp] theorem State.setCore_ticket (s : State) (c : Nat) (x : Core) : (s.setCore c x).ticket = s.ticket := rfl
@[simp] theorem State.setCore_launches (s : State) (c : Nat) (x : Core) : (s.setCore c x).launches = s.launches := rfl
@[simp] theorem State.setCore_chunks (s : State) (c : Nat) (x : Core) : (s.setCore c x).chunks = s.chunks := rfl
@[simp] theorem State.setCore_parts (s : State) (c : Nat) (x : Core) : (s.setCore c x).parts = s.parts := rfl
@[simp] theorem State.setCore_sys (s : State) (c : Nat) (x : Core) : (s.setCore c x).sys = s.sys := rfl
@[simp] theorem State.setCore_free (s : State) (c : Nat) (x : Core) : (s.setCore c x).free = s.free := rfl
@[simp] theorem State.setTile_cur (s : State) (t : Nat) (x : Tile) : (s.setTile t x).cur = s.cur := rfl
@[simp] theorem State.setTile_focus (s : State) (t : Nat) (x : Tile) : (s.setTile t x).focus = s.focus := rfl
@[simp] theorem State.setTile_cached (s : State) (t : Nat) (x : Tile) : (s.setTile t x).cached = s.cached := rfl
@[simp] theorem State.setTile_agenda (s : State) (t : Nat) (x : Tile) : (s.setTile t x).agenda = s.agenda := rfl
@[simp] theorem State.setTile_mem (s : State) (t : Nat) (x : Tile) : (s.setTile t x).mem = s.mem := rfl
@[simp] theorem State.setTile_stags (s : State) (t : Nat) (x : Tile) : (s.setTile t x).stags = s.stags := rfl
@[simp] theorem State.setTile_poison (s : State) (t : Nat) (x : Tile) : (s.setTile t x).poison = s.poison := rfl
@[simp] theorem State.setTile_slots (s : State) (t : Nat) (x : Tile) : (s.setTile t x).slots = s.slots := rfl
@[simp] theorem State.setTile_cores (s : State) (t : Nat) (x : Tile) : (s.setTile t x).cores = s.cores := rfl
@[simp] theorem State.setTile_net (s : State) (t : Nat) (x : Tile) : (s.setTile t x).net = s.net := rfl
@[simp] theorem State.setTile_nodes (s : State) (t : Nat) (x : Tile) : (s.setTile t x).nodes = s.nodes := rfl
@[simp] theorem State.setTile_edges (s : State) (t : Nat) (x : Tile) : (s.setTile t x).edges = s.edges := rfl
@[simp] theorem State.setTile_posted (s : State) (t : Nat) (x : Tile) : (s.setTile t x).posted = s.posted := rfl
@[simp] theorem State.setTile_ranges (s : State) (t : Nat) (x : Tile) : (s.setTile t x).ranges = s.ranges := rfl
@[simp] theorem State.setTile_tlb (s : State) (t : Nat) (x : Tile) : (s.setTile t x).tlb = s.tlb := rfl
@[simp] theorem State.setTile_nextId (s : State) (t : Nat) (x : Tile) : (s.setTile t x).nextId = s.nextId := rfl
@[simp] theorem State.setTile_ticket (s : State) (t : Nat) (x : Tile) : (s.setTile t x).ticket = s.ticket := rfl
@[simp] theorem State.setTile_launches (s : State) (t : Nat) (x : Tile) : (s.setTile t x).launches = s.launches := rfl
@[simp] theorem State.setTile_chunks (s : State) (t : Nat) (x : Tile) : (s.setTile t x).chunks = s.chunks := rfl
@[simp] theorem State.setTile_parts (s : State) (t : Nat) (x : Tile) : (s.setTile t x).parts = s.parts := rfl
@[simp] theorem State.setTile_sys (s : State) (t : Nat) (x : Tile) : (s.setTile t x).sys = s.sys := rfl
@[simp] theorem State.setTile_free (s : State) (t : Nat) (x : Tile) : (s.setTile t x).free = s.free := rfl
@[simp] theorem State.setPart_cur (s : State) (p : Nat) (x : Partition) : (s.setPart p x).cur = s.cur := rfl
@[simp] theorem State.setPart_focus (s : State) (p : Nat) (x : Partition) : (s.setPart p x).focus = s.focus := rfl
@[simp] theorem State.setPart_cached (s : State) (p : Nat) (x : Partition) : (s.setPart p x).cached = s.cached := rfl
@[simp] theorem State.setPart_agenda (s : State) (p : Nat) (x : Partition) : (s.setPart p x).agenda = s.agenda := rfl
@[simp] theorem State.setPart_mem (s : State) (p : Nat) (x : Partition) : (s.setPart p x).mem = s.mem := rfl
@[simp] theorem State.setPart_stags (s : State) (p : Nat) (x : Partition) : (s.setPart p x).stags = s.stags := rfl
@[simp] theorem State.setPart_poison (s : State) (p : Nat) (x : Partition) : (s.setPart p x).poison = s.poison := rfl
@[simp] theorem State.setPart_slots (s : State) (p : Nat) (x : Partition) : (s.setPart p x).slots = s.slots := rfl
@[simp] theorem State.setPart_cores (s : State) (p : Nat) (x : Partition) : (s.setPart p x).cores = s.cores := rfl
@[simp] theorem State.setPart_tiles (s : State) (p : Nat) (x : Partition) : (s.setPart p x).tiles = s.tiles := rfl
@[simp] theorem State.setPart_net (s : State) (p : Nat) (x : Partition) : (s.setPart p x).net = s.net := rfl
@[simp] theorem State.setPart_nodes (s : State) (p : Nat) (x : Partition) : (s.setPart p x).nodes = s.nodes := rfl
@[simp] theorem State.setPart_edges (s : State) (p : Nat) (x : Partition) : (s.setPart p x).edges = s.edges := rfl
@[simp] theorem State.setPart_posted (s : State) (p : Nat) (x : Partition) : (s.setPart p x).posted = s.posted := rfl
@[simp] theorem State.setPart_ranges (s : State) (p : Nat) (x : Partition) : (s.setPart p x).ranges = s.ranges := rfl
@[simp] theorem State.setPart_tlb (s : State) (p : Nat) (x : Partition) : (s.setPart p x).tlb = s.tlb := rfl
@[simp] theorem State.setPart_nextId (s : State) (p : Nat) (x : Partition) : (s.setPart p x).nextId = s.nextId := rfl
@[simp] theorem State.setPart_ticket (s : State) (p : Nat) (x : Partition) : (s.setPart p x).ticket = s.ticket := rfl
@[simp] theorem State.setPart_launches (s : State) (p : Nat) (x : Partition) : (s.setPart p x).launches = s.launches := rfl
@[simp] theorem State.setPart_chunks (s : State) (p : Nat) (x : Partition) : (s.setPart p x).chunks = s.chunks := rfl
@[simp] theorem State.setPart_sys (s : State) (p : Nat) (x : Partition) : (s.setPart p x).sys = s.sys := rfl
@[simp] theorem State.setPart_free (s : State) (p : Nat) (x : Partition) : (s.setPart p x).free = s.free := rfl
@[simp] theorem State.setSys_cur (s : State) (x : Sys) : (s.setSys x).cur = s.cur := rfl
@[simp] theorem State.setSys_focus (s : State) (x : Sys) : (s.setSys x).focus = s.focus := rfl
@[simp] theorem State.setSys_cached (s : State) (x : Sys) : (s.setSys x).cached = s.cached := rfl
@[simp] theorem State.setSys_agenda (s : State) (x : Sys) : (s.setSys x).agenda = s.agenda := rfl
@[simp] theorem State.setSys_mem (s : State) (x : Sys) : (s.setSys x).mem = s.mem := rfl
@[simp] theorem State.setSys_stags (s : State) (x : Sys) : (s.setSys x).stags = s.stags := rfl
@[simp] theorem State.setSys_poison (s : State) (x : Sys) : (s.setSys x).poison = s.poison := rfl
@[simp] theorem State.setSys_slots (s : State) (x : Sys) : (s.setSys x).slots = s.slots := rfl
@[simp] theorem State.setSys_cores (s : State) (x : Sys) : (s.setSys x).cores = s.cores := rfl
@[simp] theorem State.setSys_tiles (s : State) (x : Sys) : (s.setSys x).tiles = s.tiles := rfl
@[simp] theorem State.setSys_net (s : State) (x : Sys) : (s.setSys x).net = s.net := rfl
@[simp] theorem State.setSys_nodes (s : State) (x : Sys) : (s.setSys x).nodes = s.nodes := rfl
@[simp] theorem State.setSys_edges (s : State) (x : Sys) : (s.setSys x).edges = s.edges := rfl
@[simp] theorem State.setSys_posted (s : State) (x : Sys) : (s.setSys x).posted = s.posted := rfl
@[simp] theorem State.setSys_ranges (s : State) (x : Sys) : (s.setSys x).ranges = s.ranges := rfl
@[simp] theorem State.setSys_tlb (s : State) (x : Sys) : (s.setSys x).tlb = s.tlb := rfl
@[simp] theorem State.setSys_nextId (s : State) (x : Sys) : (s.setSys x).nextId = s.nextId := rfl
@[simp] theorem State.setSys_ticket (s : State) (x : Sys) : (s.setSys x).ticket = s.ticket := rfl
@[simp] theorem State.setSys_launches (s : State) (x : Sys) : (s.setSys x).launches = s.launches := rfl
@[simp] theorem State.setSys_chunks (s : State) (x : Sys) : (s.setSys x).chunks = s.chunks := rfl
@[simp] theorem State.setSys_parts (s : State) (x : Sys) : (s.setSys x).parts = s.parts := rfl
@[simp] theorem State.setSys_free (s : State) (x : Sys) : (s.setSys x).free = s.free := rfl
@[simp] theorem State.setByte_cur (s : State) (k : Nat) (b : Byte) : (s.setByte k b).cur = s.cur := rfl
@[simp] theorem State.setByte_focus (s : State) (k : Nat) (b : Byte) : (s.setByte k b).focus = s.focus := rfl
@[simp] theorem State.setByte_cached (s : State) (k : Nat) (b : Byte) : (s.setByte k b).cached = s.cached := rfl
@[simp] theorem State.setByte_agenda (s : State) (k : Nat) (b : Byte) : (s.setByte k b).agenda = s.agenda := rfl
@[simp] theorem State.setByte_stags (s : State) (k : Nat) (b : Byte) : (s.setByte k b).stags = s.stags := rfl
@[simp] theorem State.setByte_poison (s : State) (k : Nat) (b : Byte) : (s.setByte k b).poison = s.poison := rfl
@[simp] theorem State.setByte_slots (s : State) (k : Nat) (b : Byte) : (s.setByte k b).slots = s.slots := rfl
@[simp] theorem State.setByte_cores (s : State) (k : Nat) (b : Byte) : (s.setByte k b).cores = s.cores := rfl
@[simp] theorem State.setByte_tiles (s : State) (k : Nat) (b : Byte) : (s.setByte k b).tiles = s.tiles := rfl
@[simp] theorem State.setByte_net (s : State) (k : Nat) (b : Byte) : (s.setByte k b).net = s.net := rfl
@[simp] theorem State.setByte_nodes (s : State) (k : Nat) (b : Byte) : (s.setByte k b).nodes = s.nodes := rfl
@[simp] theorem State.setByte_edges (s : State) (k : Nat) (b : Byte) : (s.setByte k b).edges = s.edges := rfl
@[simp] theorem State.setByte_posted (s : State) (k : Nat) (b : Byte) : (s.setByte k b).posted = s.posted := rfl
@[simp] theorem State.setByte_ranges (s : State) (k : Nat) (b : Byte) : (s.setByte k b).ranges = s.ranges := rfl
@[simp] theorem State.setByte_tlb (s : State) (k : Nat) (b : Byte) : (s.setByte k b).tlb = s.tlb := rfl
@[simp] theorem State.setByte_nextId (s : State) (k : Nat) (b : Byte) : (s.setByte k b).nextId = s.nextId := rfl
@[simp] theorem State.setByte_ticket (s : State) (k : Nat) (b : Byte) : (s.setByte k b).ticket = s.ticket := rfl
@[simp] theorem State.setByte_launches (s : State) (k : Nat) (b : Byte) : (s.setByte k b).launches = s.launches := rfl
@[simp] theorem State.setByte_chunks (s : State) (k : Nat) (b : Byte) : (s.setByte k b).chunks = s.chunks := rfl
@[simp] theorem State.setByte_parts (s : State) (k : Nat) (b : Byte) : (s.setByte k b).parts = s.parts := rfl
@[simp] theorem State.setByte_sys (s : State) (k : Nat) (b : Byte) : (s.setByte k b).sys = s.sys := rfl
@[simp] theorem State.setByte_free (s : State) (k : Nat) (b : Byte) : (s.setByte k b).free = s.free := rfl
@[simp] theorem State.setSideTag_cur (s : State) (k : Nat) (t : Tag) : (s.setSideTag k t).cur = s.cur := rfl
@[simp] theorem State.setSideTag_focus (s : State) (k : Nat) (t : Tag) : (s.setSideTag k t).focus = s.focus := rfl
@[simp] theorem State.setSideTag_cached (s : State) (k : Nat) (t : Tag) : (s.setSideTag k t).cached = s.cached := rfl
@[simp] theorem State.setSideTag_agenda (s : State) (k : Nat) (t : Tag) : (s.setSideTag k t).agenda = s.agenda := rfl
@[simp] theorem State.setSideTag_mem (s : State) (k : Nat) (t : Tag) : (s.setSideTag k t).mem = s.mem := rfl
@[simp] theorem State.setSideTag_poison (s : State) (k : Nat) (t : Tag) : (s.setSideTag k t).poison = s.poison := rfl
@[simp] theorem State.setSideTag_slots (s : State) (k : Nat) (t : Tag) : (s.setSideTag k t).slots = s.slots := rfl
@[simp] theorem State.setSideTag_cores (s : State) (k : Nat) (t : Tag) : (s.setSideTag k t).cores = s.cores := rfl
@[simp] theorem State.setSideTag_tiles (s : State) (k : Nat) (t : Tag) : (s.setSideTag k t).tiles = s.tiles := rfl
@[simp] theorem State.setSideTag_net (s : State) (k : Nat) (t : Tag) : (s.setSideTag k t).net = s.net := rfl
@[simp] theorem State.setSideTag_nodes (s : State) (k : Nat) (t : Tag) : (s.setSideTag k t).nodes = s.nodes := rfl
@[simp] theorem State.setSideTag_edges (s : State) (k : Nat) (t : Tag) : (s.setSideTag k t).edges = s.edges := rfl
@[simp] theorem State.setSideTag_posted (s : State) (k : Nat) (t : Tag) : (s.setSideTag k t).posted = s.posted := rfl
@[simp] theorem State.setSideTag_ranges (s : State) (k : Nat) (t : Tag) : (s.setSideTag k t).ranges = s.ranges := rfl
@[simp] theorem State.setSideTag_tlb (s : State) (k : Nat) (t : Tag) : (s.setSideTag k t).tlb = s.tlb := rfl
@[simp] theorem State.setSideTag_nextId (s : State) (k : Nat) (t : Tag) : (s.setSideTag k t).nextId = s.nextId := rfl
@[simp] theorem State.setSideTag_ticket (s : State) (k : Nat) (t : Tag) : (s.setSideTag k t).ticket = s.ticket := rfl
@[simp] theorem State.setSideTag_launches (s : State) (k : Nat) (t : Tag) : (s.setSideTag k t).launches = s.launches := rfl
@[simp] theorem State.setSideTag_chunks (s : State) (k : Nat) (t : Tag) : (s.setSideTag k t).chunks = s.chunks := rfl
@[simp] theorem State.setSideTag_parts (s : State) (k : Nat) (t : Tag) : (s.setSideTag k t).parts = s.parts := rfl
@[simp] theorem State.setSideTag_sys (s : State) (k : Nat) (t : Tag) : (s.setSideTag k t).sys = s.sys := rfl
@[simp] theorem State.setSideTag_free (s : State) (k : Nat) (t : Tag) : (s.setSideTag k t).free = s.free := rfl
@[simp] theorem State.setPoison_cur (s : State) (k : Nat) (b : Bool) : (s.setPoison k b).cur = s.cur := rfl
@[simp] theorem State.setPoison_focus (s : State) (k : Nat) (b : Bool) : (s.setPoison k b).focus = s.focus := rfl
@[simp] theorem State.setPoison_cached (s : State) (k : Nat) (b : Bool) : (s.setPoison k b).cached = s.cached := rfl
@[simp] theorem State.setPoison_agenda (s : State) (k : Nat) (b : Bool) : (s.setPoison k b).agenda = s.agenda := rfl
@[simp] theorem State.setPoison_mem (s : State) (k : Nat) (b : Bool) : (s.setPoison k b).mem = s.mem := rfl
@[simp] theorem State.setPoison_stags (s : State) (k : Nat) (b : Bool) : (s.setPoison k b).stags = s.stags := rfl
@[simp] theorem State.setPoison_slots (s : State) (k : Nat) (b : Bool) : (s.setPoison k b).slots = s.slots := rfl
@[simp] theorem State.setPoison_cores (s : State) (k : Nat) (b : Bool) : (s.setPoison k b).cores = s.cores := rfl
@[simp] theorem State.setPoison_tiles (s : State) (k : Nat) (b : Bool) : (s.setPoison k b).tiles = s.tiles := rfl
@[simp] theorem State.setPoison_net (s : State) (k : Nat) (b : Bool) : (s.setPoison k b).net = s.net := rfl
@[simp] theorem State.setPoison_nodes (s : State) (k : Nat) (b : Bool) : (s.setPoison k b).nodes = s.nodes := rfl
@[simp] theorem State.setPoison_edges (s : State) (k : Nat) (b : Bool) : (s.setPoison k b).edges = s.edges := rfl
@[simp] theorem State.setPoison_posted (s : State) (k : Nat) (b : Bool) : (s.setPoison k b).posted = s.posted := rfl
@[simp] theorem State.setPoison_ranges (s : State) (k : Nat) (b : Bool) : (s.setPoison k b).ranges = s.ranges := rfl
@[simp] theorem State.setPoison_tlb (s : State) (k : Nat) (b : Bool) : (s.setPoison k b).tlb = s.tlb := rfl
@[simp] theorem State.setPoison_nextId (s : State) (k : Nat) (b : Bool) : (s.setPoison k b).nextId = s.nextId := rfl
@[simp] theorem State.setPoison_ticket (s : State) (k : Nat) (b : Bool) : (s.setPoison k b).ticket = s.ticket := rfl
@[simp] theorem State.setPoison_launches (s : State) (k : Nat) (b : Bool) : (s.setPoison k b).launches = s.launches := rfl
@[simp] theorem State.setPoison_chunks (s : State) (k : Nat) (b : Bool) : (s.setPoison k b).chunks = s.chunks := rfl
@[simp] theorem State.setPoison_parts (s : State) (k : Nat) (b : Bool) : (s.setPoison k b).parts = s.parts := rfl
@[simp] theorem State.setPoison_sys (s : State) (k : Nat) (b : Bool) : (s.setPoison k b).sys = s.sys := rfl
@[simp] theorem State.setPoison_free (s : State) (k : Nat) (b : Bool) : (s.setPoison k b).free = s.free := rfl
@[simp] theorem State.setSys_sys (s : State) (x : Sys) : (s.setSys x).sys = x := rfl
@[simp] theorem State.send_cur (s : State) (w : Who) (r : BitVec 5) (b : Body) : (s.send w r b).cur = s.cur := rfl
@[simp] theorem State.send_focus (s : State) (w : Who) (r : BitVec 5) (b : Body) : (s.send w r b).focus = s.focus := rfl
@[simp] theorem State.send_cached (s : State) (w : Who) (r : BitVec 5) (b : Body) : (s.send w r b).cached = s.cached := rfl
@[simp] theorem State.send_agenda (s : State) (w : Who) (r : BitVec 5) (b : Body) : (s.send w r b).agenda = s.agenda := rfl
@[simp] theorem State.send_mem (s : State) (w : Who) (r : BitVec 5) (b : Body) : (s.send w r b).mem = s.mem := rfl
@[simp] theorem State.send_stags (s : State) (w : Who) (r : BitVec 5) (b : Body) : (s.send w r b).stags = s.stags := rfl
@[simp] theorem State.send_poison (s : State) (w : Who) (r : BitVec 5) (b : Body) : (s.send w r b).poison = s.poison := rfl
@[simp] theorem State.send_slots (s : State) (w : Who) (r : BitVec 5) (b : Body) : (s.send w r b).slots = s.slots := rfl
@[simp] theorem State.send_cores (s : State) (w : Who) (r : BitVec 5) (b : Body) : (s.send w r b).cores = s.cores := rfl
@[simp] theorem State.send_tiles (s : State) (w : Who) (r : BitVec 5) (b : Body) : (s.send w r b).tiles = s.tiles := rfl
@[simp] theorem State.send_nodes (s : State) (w : Who) (r : BitVec 5) (b : Body) : (s.send w r b).nodes = s.nodes := rfl
@[simp] theorem State.send_edges (s : State) (w : Who) (r : BitVec 5) (b : Body) : (s.send w r b).edges = s.edges := rfl
@[simp] theorem State.send_posted (s : State) (w : Who) (r : BitVec 5) (b : Body) : (s.send w r b).posted = s.posted := rfl
@[simp] theorem State.send_ranges (s : State) (w : Who) (r : BitVec 5) (b : Body) : (s.send w r b).ranges = s.ranges := rfl
@[simp] theorem State.send_tlb (s : State) (w : Who) (r : BitVec 5) (b : Body) : (s.send w r b).tlb = s.tlb := rfl
@[simp] theorem State.send_ticket (s : State) (w : Who) (r : BitVec 5) (b : Body) : (s.send w r b).ticket = s.ticket := rfl
@[simp] theorem State.send_launches (s : State) (w : Who) (r : BitVec 5) (b : Body) : (s.send w r b).launches = s.launches := rfl
@[simp] theorem State.send_chunks (s : State) (w : Who) (r : BitVec 5) (b : Body) : (s.send w r b).chunks = s.chunks := rfl
@[simp] theorem State.send_parts (s : State) (w : Who) (r : BitVec 5) (b : Body) : (s.send w r b).parts = s.parts := rfl
@[simp] theorem State.send_sys (s : State) (w : Who) (r : BitVec 5) (b : Body) : (s.send w r b).sys = s.sys := rfl
@[simp] theorem State.send_free (s : State) (w : Who) (r : BitVec 5) (b : Body) : (s.send w r b).free = s.free := rfl
@[simp] theorem State.send_nextId (s : State) (w : Who) (r : BitVec 5) (b : Body) : (s.send w r b).nextId = s.nextId + 1 := rfl
@[simp] theorem State.send_net (s : State) (w : Who) (r : BitVec 5) (b : Body) :
    (s.send w r b).net = s.net ++ [{ id := s.nextId, src := w, rd := r, body := b }] := rfl

/-! ### A read after an update -/

theorem slotKey_inj (v w : Who) (hv : v.slot < 8) (hw : w.slot < 8) : slotKey v = slotKey w ↔ v = w := by
  obtain ⟨c, k⟩ := v
  obtain ⟨d, j⟩ := w
  simp only [slotKey, Who.mk.injEq] at hv hw ⊢
  omega

@[simp] theorem State.slot_setSlot (s : State) (v w : Who) (x : Slot) :
    (s.setSlot w x).slot v = if slotKey v = slotKey w then x else s.slot v := by simp [State.slot, State.setSlot]
theorem State.slot_setSlot_same (s : State) (w : Who) (x : Slot) : (s.setSlot w x).slot w = x := by simp
@[simp] theorem State.core_setCore (s : State) (c d : Nat) (x : Core) :
    (s.setCore c x).core d = if d = c then x else s.core d := by simp [State.core, State.setCore]
@[simp] theorem State.tile_setTile (s : State) (c d : Nat) (x : Tile) :
    (s.setTile c x).tile d = if d = c then x else s.tile d := by simp [State.tile, State.setTile]
@[simp] theorem State.part_setPart (s : State) (c d : Nat) (x : Partition) :
    (s.setPart c x).part d = if d = c then x else s.part d := by simp [State.part, State.setPart]
@[simp] theorem State.byte_setByte (s : State) (k j : Nat) (b : Byte) :
    (s.setByte k b).byte j = if j = k then b else s.byte j := by simp [State.byte, State.setByte]
@[simp] theorem State.sideTag_setSideTag (s : State) (k j : Nat) (t : Tag) :
    (s.setSideTag k t).sideTag j = if j / 4 = k / 4 then t else s.sideTag j := by simp [State.sideTag, State.setSideTag]
@[simp] theorem State.poisoned_setPoison (s : State) (k j : Nat) (b : Bool) :
    (s.setPoison k b).poisoned j = if poisonKey j = poisonKey k then b else s.poisoned j := by simp [State.poisoned, State.setPoison]

@[simp] theorem State.core_setSlot (s : State) (w : Who) (x : Slot) (c : Nat) : (s.setSlot w x).core c = s.core c := rfl
@[simp] theorem State.tile_setSlot (s : State) (w : Who) (x : Slot) (c : Nat) : (s.setSlot w x).tile c = s.tile c := rfl
@[simp] theorem State.part_setSlot (s : State) (w : Who) (x : Slot) (c : Nat) : (s.setSlot w x).part c = s.part c := rfl
@[simp] theorem State.byte_setSlot (s : State) (w : Who) (x : Slot) (k : Nat) : (s.setSlot w x).byte k = s.byte k := rfl
@[simp] theorem State.slot_setCore (s : State) (c : Nat) (x : Core) (w : Who) : (s.setCore c x).slot w = s.slot w := rfl
@[simp] theorem State.tile_setCore (s : State) (c : Nat) (x : Core) (t : Nat) : (s.setCore c x).tile t = s.tile t := rfl
@[simp] theorem State.part_setCore (s : State) (c : Nat) (x : Core) (p : Nat) : (s.setCore c x).part p = s.part p := rfl
@[simp] theorem State.byte_setCore (s : State) (c : Nat) (x : Core) (k : Nat) : (s.setCore c x).byte k = s.byte k := rfl
@[simp] theorem State.slot_setTile (s : State) (t : Nat) (x : Tile) (w : Who) : (s.setTile t x).slot w = s.slot w := rfl
@[simp] theorem State.core_setTile (s : State) (t : Nat) (x : Tile) (c : Nat) : (s.setTile t x).core c = s.core c := rfl
@[simp] theorem State.byte_setTile (s : State) (t : Nat) (x : Tile) (k : Nat) : (s.setTile t x).byte k = s.byte k := rfl
@[simp] theorem State.slot_setPart (s : State) (p : Nat) (x : Partition) (w : Who) : (s.setPart p x).slot w = s.slot w := rfl
@[simp] theorem State.core_setPart (s : State) (p : Nat) (x : Partition) (c : Nat) : (s.setPart p x).core c = s.core c := rfl
@[simp] theorem State.slot_setSys (s : State) (x : Sys) (w : Who) : (s.setSys x).slot w = s.slot w := rfl
@[simp] theorem State.core_setSys (s : State) (x : Sys) (c : Nat) : (s.setSys x).core c = s.core c := rfl
@[simp] theorem State.part_setSys (s : State) (x : Sys) (p : Nat) : (s.setSys x).part p = s.part p := rfl
@[simp] theorem State.slot_setByte (s : State) (k : Nat) (b : Byte) (w : Who) : (s.setByte k b).slot w = s.slot w := rfl
@[simp] theorem State.slot_send (s : State) (v w : Who) (r : BitVec 5) (b : Body) : (s.send v r b).slot w = s.slot w := rfl

/-! ### The running slot -/

@[simp] theorem State.setMe_me (s : State) (x : Slot) : (s.setMe x).me = x := by simp [State.me, State.setMe]
@[simp] theorem State.setMe_cur (s : State) (x : Slot) : (s.setMe x).cur = s.cur := rfl
@[simp] theorem State.setMe_mem (s : State) (x : Slot) : (s.setMe x).mem = s.mem := rfl
@[simp] theorem State.setMe_byte (s : State) (x : Slot) (k : Nat) : (s.setMe x).byte k = s.byte k := rfl
@[simp] theorem State.setMe_core (s : State) (x : Slot) (c : Nat) : (s.setMe x).core c = s.core c := rfl
@[simp] theorem State.send_me (s : State) (v : Who) (r : BitVec 5) (b : Body) : (s.send v r b).me = s.me := rfl

/-! ### The updates of Slot, field by field -/

@[simp] theorem Slot.next_occ (x : Slot) : x.next.occ = x.occ := rfl
@[simp] theorem Slot.jump_occ (x : Slot) (t : Word) : (x.jump t).occ = x.occ := rfl
@[simp] theorem Slot.next_regs (x : Slot) : x.next.regs = x.regs := rfl
@[simp] theorem Slot.jump_regs (x : Slot) (t : Word) : (x.jump t).regs = x.regs := rfl
@[simp] theorem Slot.next_lanes (x : Slot) : x.next.lanes = x.lanes := rfl
@[simp] theorem Slot.jump_lanes (x : Slot) (t : Word) : (x.jump t).lanes = x.lanes := rfl
@[simp] theorem Slot.next_tags (x : Slot) : x.next.tags = x.tags := rfl
@[simp] theorem Slot.jump_tags (x : Slot) (t : Word) : (x.jump t).tags = x.tags := rfl
@[simp] theorem Slot.next_pw (x : Slot) : x.next.pw = x.pw := rfl
@[simp] theorem Slot.jump_pw (x : Slot) (t : Word) : (x.jump t).pw = x.pw := rfl
@[simp] theorem Slot.next_mode (x : Slot) : x.next.mode = x.mode := rfl
@[simp] theorem Slot.jump_mode (x : Slot) (t : Word) : (x.jump t).mode = x.mode := rfl
@[simp] theorem Slot.next_csr (x : Slot) : x.next.csr = x.csr := rfl
@[simp] theorem Slot.jump_csr (x : Slot) (t : Word) : (x.jump t).csr = x.csr := rfl
@[simp] theorem Slot.next_sup (x : Slot) : x.next.sup = x.sup := rfl
@[simp] theorem Slot.jump_sup (x : Slot) (t : Word) : (x.jump t).sup = x.sup := rfl
@[simp] theorem Slot.next_mach (x : Slot) : x.next.mach = x.mach := rfl
@[simp] theorem Slot.jump_mach (x : Slot) (t : Word) : (x.jump t).mach = x.mach := rfl
@[simp] theorem Slot.next_locks (x : Slot) : x.next.locks = x.locks := rfl
@[simp] theorem Slot.jump_locks (x : Slot) (t : Word) : (x.jump t).locks = x.locks := rfl
@[simp] theorem Slot.next_watch (x : Slot) : x.next.watch = x.watch := rfl
@[simp] theorem Slot.jump_watch (x : Slot) (t : Word) : (x.jump t).watch = x.watch := rfl
@[simp] theorem Slot.next_pend (x : Slot) : x.next.pend = x.pend := rfl
@[simp] theorem Slot.jump_pend (x : Slot) (t : Word) : (x.jump t).pend = x.pend := rfl
@[simp] theorem Slot.next_relaxed (x : Slot) : x.next.relaxed = x.relaxed := rfl
@[simp] theorem Slot.jump_relaxed (x : Slot) (t : Word) : (x.jump t).relaxed = x.relaxed := rfl
@[simp] theorem Slot.next_unacked (x : Slot) : x.next.unacked = x.unacked := rfl
@[simp] theorem Slot.jump_unacked (x : Slot) (t : Word) : (x.jump t).unacked = x.unacked := rfl
@[simp] theorem Slot.next_lastJob (x : Slot) : x.next.lastJob = x.lastJob := rfl
@[simp] theorem Slot.jump_lastJob (x : Slot) (t : Word) : (x.jump t).lastJob = x.lastJob := rfl
@[simp] theorem Slot.next_pid (x : Slot) : x.next.pid = x.pid := rfl
@[simp] theorem Slot.jump_pid (x : Slot) (t : Word) : (x.jump t).pid = x.pid := rfl
@[simp] theorem Slot.next_part (x : Slot) : x.next.part = x.part := rfl
@[simp] theorem Slot.jump_part (x : Slot) (t : Word) : (x.jump t).part = x.part := rfl
@[simp] theorem Slot.next_launch (x : Slot) : x.next.launch = x.launch := rfl
@[simp] theorem Slot.jump_launch (x : Slot) (t : Word) : (x.jump t).launch = x.launch := rfl
@[simp] theorem Slot.next_kind (x : Slot) : x.next.kind = x.kind := rfl
@[simp] theorem Slot.jump_kind (x : Slot) (t : Word) : (x.jump t).kind = x.kind := rfl
@[simp] theorem Slot.next_routines (x : Slot) : x.next.routines = x.routines := rfl
@[simp] theorem Slot.jump_routines (x : Slot) (t : Word) : (x.jump t).routines = x.routines := rfl
@[simp] theorem Slot.next_serving (x : Slot) : x.next.serving = x.serving := rfl
@[simp] theorem Slot.jump_serving (x : Slot) (t : Word) : (x.jump t).serving = x.serving := rfl
@[simp] theorem Slot.next_lastStamp (x : Slot) : x.next.lastStamp = x.lastStamp := rfl
@[simp] theorem Slot.jump_lastStamp (x : Slot) (t : Word) : (x.jump t).lastStamp = x.lastStamp := rfl
@[simp] theorem Slot.next_code (x : Slot) : x.next.code = x.code := rfl
@[simp] theorem Slot.jump_code (x : Slot) (t : Word) : (x.jump t).code = x.code := rfl
@[simp] theorem Slot.next_debug (x : Slot) : x.next.debug = x.debug := rfl
@[simp] theorem Slot.jump_debug (x : Slot) (t : Word) : (x.jump t).debug = x.debug := rfl
@[simp] theorem Slot.next_thread (x : Slot) : x.next.thread = x.thread := rfl
@[simp] theorem Slot.jump_thread (x : Slot) (t : Word) : (x.jump t).thread = x.thread := rfl
@[simp] theorem Slot.next_pc (x : Slot) : x.next.pc = x.pc + 4 := rfl
@[simp] theorem Slot.next_park (x : Slot) : x.next.park = .ready := rfl
@[simp] theorem Slot.next_turn (x : Slot) : x.next.turn = none := rfl
@[simp] theorem Slot.jump_pc (x : Slot) (t : Word) : (x.jump t).pc = t := rfl
@[simp] theorem Slot.jump_park (x : Slot) (t : Word) : (x.jump t).park = .ready := rfl
@[simp] theorem Slot.jump_turn (x : Slot) (t : Word) : (x.jump t).turn = none := rfl
@[simp] theorem Slot.setG_occ (x : Slot) (r : BitVec 5) (v : Word) : (x.setG r v).occ = x.occ := by unfold Slot.setG; split <;> rfl
@[simp] theorem Slot.setG_lanes (x : Slot) (r : BitVec 5) (v : Word) : (x.setG r v).lanes = x.lanes := by unfold Slot.setG; split <;> rfl
@[simp] theorem Slot.setG_tags (x : Slot) (r : BitVec 5) (v : Word) : (x.setG r v).tags = x.tags := by unfold Slot.setG; split <;> rfl
@[simp] theorem Slot.setG_pw (x : Slot) (r : BitVec 5) (v : Word) : (x.setG r v).pw = x.pw := by unfold Slot.setG; split <;> rfl
@[simp] theorem Slot.setG_pc (x : Slot) (r : BitVec 5) (v : Word) : (x.setG r v).pc = x.pc := by unfold Slot.setG; split <;> rfl
@[simp] theorem Slot.setG_mode (x : Slot) (r : BitVec 5) (v : Word) : (x.setG r v).mode = x.mode := by unfold Slot.setG; split <;> rfl
@[simp] theorem Slot.setG_csr (x : Slot) (r : BitVec 5) (v : Word) : (x.setG r v).csr = x.csr := by unfold Slot.setG; split <;> rfl
@[simp] theorem Slot.setG_sup (x : Slot) (r : BitVec 5) (v : Word) : (x.setG r v).sup = x.sup := by unfold Slot.setG; split <;> rfl
@[simp] theorem Slot.setG_mach (x : Slot) (r : BitVec 5) (v : Word) : (x.setG r v).mach = x.mach := by unfold Slot.setG; split <;> rfl
@[simp] theorem Slot.setG_locks (x : Slot) (r : BitVec 5) (v : Word) : (x.setG r v).locks = x.locks := by unfold Slot.setG; split <;> rfl
@[simp] theorem Slot.setG_watch (x : Slot) (r : BitVec 5) (v : Word) : (x.setG r v).watch = x.watch := by unfold Slot.setG; split <;> rfl
@[simp] theorem Slot.setG_park (x : Slot) (r : BitVec 5) (v : Word) : (x.setG r v).park = x.park := by unfold Slot.setG; split <;> rfl
@[simp] theorem Slot.setG_turn (x : Slot) (r : BitVec 5) (v : Word) : (x.setG r v).turn = x.turn := by unfold Slot.setG; split <;> rfl
@[simp] theorem Slot.setG_pend (x : Slot) (r : BitVec 5) (v : Word) : (x.setG r v).pend = x.pend := by unfold Slot.setG; split <;> rfl
@[simp] theorem Slot.setG_relaxed (x : Slot) (r : BitVec 5) (v : Word) : (x.setG r v).relaxed = x.relaxed := by unfold Slot.setG; split <;> rfl
@[simp] theorem Slot.setG_unacked (x : Slot) (r : BitVec 5) (v : Word) : (x.setG r v).unacked = x.unacked := by unfold Slot.setG; split <;> rfl
@[simp] theorem Slot.setG_lastJob (x : Slot) (r : BitVec 5) (v : Word) : (x.setG r v).lastJob = x.lastJob := by unfold Slot.setG; split <;> rfl
@[simp] theorem Slot.setG_pid (x : Slot) (r : BitVec 5) (v : Word) : (x.setG r v).pid = x.pid := by unfold Slot.setG; split <;> rfl
@[simp] theorem Slot.setG_part (x : Slot) (r : BitVec 5) (v : Word) : (x.setG r v).part = x.part := by unfold Slot.setG; split <;> rfl
@[simp] theorem Slot.setG_launch (x : Slot) (r : BitVec 5) (v : Word) : (x.setG r v).launch = x.launch := by unfold Slot.setG; split <;> rfl
@[simp] theorem Slot.setG_kind (x : Slot) (r : BitVec 5) (v : Word) : (x.setG r v).kind = x.kind := by unfold Slot.setG; split <;> rfl
@[simp] theorem Slot.setG_routines (x : Slot) (r : BitVec 5) (v : Word) : (x.setG r v).routines = x.routines := by unfold Slot.setG; split <;> rfl
@[simp] theorem Slot.setG_serving (x : Slot) (r : BitVec 5) (v : Word) : (x.setG r v).serving = x.serving := by unfold Slot.setG; split <;> rfl
@[simp] theorem Slot.setG_lastStamp (x : Slot) (r : BitVec 5) (v : Word) : (x.setG r v).lastStamp = x.lastStamp := by unfold Slot.setG; split <;> rfl
@[simp] theorem Slot.setG_code (x : Slot) (r : BitVec 5) (v : Word) : (x.setG r v).code = x.code := by unfold Slot.setG; split <;> rfl
@[simp] theorem Slot.setG_debug (x : Slot) (r : BitVec 5) (v : Word) : (x.setG r v).debug = x.debug := by unfold Slot.setG; split <;> rfl
@[simp] theorem Slot.setG_thread (x : Slot) (r : BitVec 5) (v : Word) : (x.setG r v).thread = x.thread := by unfold Slot.setG; split <;> rfl
@[simp] theorem Slot.setP_occ (x : Slot) (k : BitVec 4) (b : Bool) : (x.setP k b).occ = x.occ := by unfold Slot.setP; split <;> rfl
@[simp] theorem Slot.setP_regs (x : Slot) (k : BitVec 4) (b : Bool) : (x.setP k b).regs = x.regs := by unfold Slot.setP; split <;> rfl
@[simp] theorem Slot.setP_lanes (x : Slot) (k : BitVec 4) (b : Bool) : (x.setP k b).lanes = x.lanes := by unfold Slot.setP; split <;> rfl
@[simp] theorem Slot.setP_tags (x : Slot) (k : BitVec 4) (b : Bool) : (x.setP k b).tags = x.tags := by unfold Slot.setP; split <;> rfl
@[simp] theorem Slot.setP_pc (x : Slot) (k : BitVec 4) (b : Bool) : (x.setP k b).pc = x.pc := by unfold Slot.setP; split <;> rfl
@[simp] theorem Slot.setP_mode (x : Slot) (k : BitVec 4) (b : Bool) : (x.setP k b).mode = x.mode := by unfold Slot.setP; split <;> rfl
@[simp] theorem Slot.setP_csr (x : Slot) (k : BitVec 4) (b : Bool) : (x.setP k b).csr = x.csr := by unfold Slot.setP; split <;> rfl
@[simp] theorem Slot.setP_sup (x : Slot) (k : BitVec 4) (b : Bool) : (x.setP k b).sup = x.sup := by unfold Slot.setP; split <;> rfl
@[simp] theorem Slot.setP_mach (x : Slot) (k : BitVec 4) (b : Bool) : (x.setP k b).mach = x.mach := by unfold Slot.setP; split <;> rfl
@[simp] theorem Slot.setP_locks (x : Slot) (k : BitVec 4) (b : Bool) : (x.setP k b).locks = x.locks := by unfold Slot.setP; split <;> rfl
@[simp] theorem Slot.setP_watch (x : Slot) (k : BitVec 4) (b : Bool) : (x.setP k b).watch = x.watch := by unfold Slot.setP; split <;> rfl
@[simp] theorem Slot.setP_park (x : Slot) (k : BitVec 4) (b : Bool) : (x.setP k b).park = x.park := by unfold Slot.setP; split <;> rfl
@[simp] theorem Slot.setP_turn (x : Slot) (k : BitVec 4) (b : Bool) : (x.setP k b).turn = x.turn := by unfold Slot.setP; split <;> rfl
@[simp] theorem Slot.setP_pend (x : Slot) (k : BitVec 4) (b : Bool) : (x.setP k b).pend = x.pend := by unfold Slot.setP; split <;> rfl
@[simp] theorem Slot.setP_relaxed (x : Slot) (k : BitVec 4) (b : Bool) : (x.setP k b).relaxed = x.relaxed := by unfold Slot.setP; split <;> rfl
@[simp] theorem Slot.setP_unacked (x : Slot) (k : BitVec 4) (b : Bool) : (x.setP k b).unacked = x.unacked := by unfold Slot.setP; split <;> rfl
@[simp] theorem Slot.setP_lastJob (x : Slot) (k : BitVec 4) (b : Bool) : (x.setP k b).lastJob = x.lastJob := by unfold Slot.setP; split <;> rfl
@[simp] theorem Slot.setP_pid (x : Slot) (k : BitVec 4) (b : Bool) : (x.setP k b).pid = x.pid := by unfold Slot.setP; split <;> rfl
@[simp] theorem Slot.setP_part (x : Slot) (k : BitVec 4) (b : Bool) : (x.setP k b).part = x.part := by unfold Slot.setP; split <;> rfl
@[simp] theorem Slot.setP_launch (x : Slot) (k : BitVec 4) (b : Bool) : (x.setP k b).launch = x.launch := by unfold Slot.setP; split <;> rfl
@[simp] theorem Slot.setP_kind (x : Slot) (k : BitVec 4) (b : Bool) : (x.setP k b).kind = x.kind := by unfold Slot.setP; split <;> rfl
@[simp] theorem Slot.setP_routines (x : Slot) (k : BitVec 4) (b : Bool) : (x.setP k b).routines = x.routines := by unfold Slot.setP; split <;> rfl
@[simp] theorem Slot.setP_serving (x : Slot) (k : BitVec 4) (b : Bool) : (x.setP k b).serving = x.serving := by unfold Slot.setP; split <;> rfl
@[simp] theorem Slot.setP_lastStamp (x : Slot) (k : BitVec 4) (b : Bool) : (x.setP k b).lastStamp = x.lastStamp := by unfold Slot.setP; split <;> rfl
@[simp] theorem Slot.setP_code (x : Slot) (k : BitVec 4) (b : Bool) : (x.setP k b).code = x.code := by unfold Slot.setP; split <;> rfl
@[simp] theorem Slot.setP_debug (x : Slot) (k : BitVec 4) (b : Bool) : (x.setP k b).debug = x.debug := by unfold Slot.setP; split <;> rfl
@[simp] theorem Slot.setP_thread (x : Slot) (k : BitVec 4) (b : Bool) : (x.setP k b).thread = x.thread := by unfold Slot.setP; split <;> rfl
@[simp] theorem Slot.setLane_occ (x : Slot) (r : BitVec 4) (l : Nat) (v : W32) (t : Tag) : (x.setLane r l v t).occ = x.occ := rfl
@[simp] theorem Slot.setLane_regs (x : Slot) (r : BitVec 4) (l : Nat) (v : W32) (t : Tag) : (x.setLane r l v t).regs = x.regs := rfl
@[simp] theorem Slot.setLane_pw (x : Slot) (r : BitVec 4) (l : Nat) (v : W32) (t : Tag) : (x.setLane r l v t).pw = x.pw := rfl
@[simp] theorem Slot.setLane_pc (x : Slot) (r : BitVec 4) (l : Nat) (v : W32) (t : Tag) : (x.setLane r l v t).pc = x.pc := rfl
@[simp] theorem Slot.setLane_mode (x : Slot) (r : BitVec 4) (l : Nat) (v : W32) (t : Tag) : (x.setLane r l v t).mode = x.mode := rfl
@[simp] theorem Slot.setLane_csr (x : Slot) (r : BitVec 4) (l : Nat) (v : W32) (t : Tag) : (x.setLane r l v t).csr = x.csr := rfl
@[simp] theorem Slot.setLane_sup (x : Slot) (r : BitVec 4) (l : Nat) (v : W32) (t : Tag) : (x.setLane r l v t).sup = x.sup := rfl
@[simp] theorem Slot.setLane_mach (x : Slot) (r : BitVec 4) (l : Nat) (v : W32) (t : Tag) : (x.setLane r l v t).mach = x.mach := rfl
@[simp] theorem Slot.setLane_locks (x : Slot) (r : BitVec 4) (l : Nat) (v : W32) (t : Tag) : (x.setLane r l v t).locks = x.locks := rfl
@[simp] theorem Slot.setLane_watch (x : Slot) (r : BitVec 4) (l : Nat) (v : W32) (t : Tag) : (x.setLane r l v t).watch = x.watch := rfl
@[simp] theorem Slot.setLane_park (x : Slot) (r : BitVec 4) (l : Nat) (v : W32) (t : Tag) : (x.setLane r l v t).park = x.park := rfl
@[simp] theorem Slot.setLane_turn (x : Slot) (r : BitVec 4) (l : Nat) (v : W32) (t : Tag) : (x.setLane r l v t).turn = x.turn := rfl
@[simp] theorem Slot.setLane_pend (x : Slot) (r : BitVec 4) (l : Nat) (v : W32) (t : Tag) : (x.setLane r l v t).pend = x.pend := rfl
@[simp] theorem Slot.setLane_relaxed (x : Slot) (r : BitVec 4) (l : Nat) (v : W32) (t : Tag) : (x.setLane r l v t).relaxed = x.relaxed := rfl
@[simp] theorem Slot.setLane_unacked (x : Slot) (r : BitVec 4) (l : Nat) (v : W32) (t : Tag) : (x.setLane r l v t).unacked = x.unacked := rfl
@[simp] theorem Slot.setLane_lastJob (x : Slot) (r : BitVec 4) (l : Nat) (v : W32) (t : Tag) : (x.setLane r l v t).lastJob = x.lastJob := rfl
@[simp] theorem Slot.setLane_pid (x : Slot) (r : BitVec 4) (l : Nat) (v : W32) (t : Tag) : (x.setLane r l v t).pid = x.pid := rfl
@[simp] theorem Slot.setLane_part (x : Slot) (r : BitVec 4) (l : Nat) (v : W32) (t : Tag) : (x.setLane r l v t).part = x.part := rfl
@[simp] theorem Slot.setLane_launch (x : Slot) (r : BitVec 4) (l : Nat) (v : W32) (t : Tag) : (x.setLane r l v t).launch = x.launch := rfl
@[simp] theorem Slot.setLane_kind (x : Slot) (r : BitVec 4) (l : Nat) (v : W32) (t : Tag) : (x.setLane r l v t).kind = x.kind := rfl
@[simp] theorem Slot.setLane_routines (x : Slot) (r : BitVec 4) (l : Nat) (v : W32) (t : Tag) : (x.setLane r l v t).routines = x.routines := rfl
@[simp] theorem Slot.setLane_serving (x : Slot) (r : BitVec 4) (l : Nat) (v : W32) (t : Tag) : (x.setLane r l v t).serving = x.serving := rfl
@[simp] theorem Slot.setLane_lastStamp (x : Slot) (r : BitVec 4) (l : Nat) (v : W32) (t : Tag) : (x.setLane r l v t).lastStamp = x.lastStamp := rfl
@[simp] theorem Slot.setLane_code (x : Slot) (r : BitVec 4) (l : Nat) (v : W32) (t : Tag) : (x.setLane r l v t).code = x.code := rfl
@[simp] theorem Slot.setLane_debug (x : Slot) (r : BitVec 4) (l : Nat) (v : W32) (t : Tag) : (x.setLane r l v t).debug = x.debug := rfl
@[simp] theorem Slot.setLane_thread (x : Slot) (r : BitVec 4) (l : Nat) (v : W32) (t : Tag) : (x.setLane r l v t).thread = x.thread := rfl

/-! ### Registers -/

@[simp] theorem Slot.g_zero (x : Slot) : x.g 0#5 = 0 := rfl
@[simp] theorem Slot.setG_zero (x : Slot) (v : Word) : x.setG 0#5 v = x := rfl
@[simp] theorem Slot.p_zero (x : Slot) : x.p 0#4 = true := rfl
@[simp] theorem Slot.setP_zero (x : Slot) (b : Bool) : x.setP 0#4 b = x := rfl

theorem Slot.g_of_ne (x : Slot) (r : BitVec 5) (h : r ≠ 0) : x.g r = x.regs.get r.toFin := if_neg h
theorem Slot.setG_of_ne (x : Slot) (r : BitVec 5) (v : Word) (h : r ≠ 0) :
    x.setG r v = { x with regs := x.regs.set r.toNat v r.isLt } := if_neg h
theorem Slot.p_of_ne (x : Slot) (k : BitVec 4) (h : k ≠ 0) : x.p k = x.pw.getLsbD k.toNat := if_neg h
theorem Slot.setP_of_ne (x : Slot) (k : BitVec 4) (b : Bool) (h : k ≠ 0) :
    x.setP k b = { x with pw := if b then x.pw ||| (1#16 <<< k.toNat) else x.pw &&& ~~~(1#16 <<< k.toNat) } := if_neg h

/-- A register read after a write: the written register holds the value, but g0 stays zero (R165). -/
theorem Slot.g_setG (x : Slot) (r q : BitVec 5) (v : Word) : (x.setG r v).g q = if q = r ∧ r ≠ 0 then v else x.g q := by
  by_cases hr : r = 0
  · subst hr; exact (if_neg (fun h => h.2 rfl)).symm
  · by_cases hq : q = 0
    · subst hq; exact (if_neg (fun h => hr h.1.symm)).symm
    · rw [Slot.g_of_ne _ _ hq, Slot.g_of_ne _ _ hq, Slot.setG_of_ne _ _ _ hr]
      by_cases h : q = r
      · subst h
        rw [if_pos ⟨rfl, hr⟩]
        simp [Vector.get_eq_getElem]
      · have hn : r.toNat ≠ q.toNat := fun e => h (BitVec.eq_of_toNat_eq e.symm)
        rw [if_neg (fun e => h e.1)]
        simp [Vector.get_eq_getElem, hn]

@[simp] theorem Slot.g_next (x : Slot) (q : BitVec 5) : x.next.g q = x.g q := rfl
@[simp] theorem Slot.g_jump (x : Slot) (t : Word) (q : BitVec 5) : (x.jump t).g q = x.g q := rfl

/-- A predicate read after a write: p0 stays true (R165). -/
theorem Slot.p_setP (x : Slot) (k j : BitVec 4) (b : Bool) : (x.setP k b).p j = if j = k ∧ k ≠ 0 then b else x.p j := by
  by_cases hk : k = 0
  · subst hk; exact (if_neg (fun h => h.2 rfl)).symm
  · by_cases hj : j = 0
    · subst hj; exact (if_neg (fun h => hk h.1.symm)).symm
    · have hlt := j.isLt
      rw [Slot.p_of_ne _ _ hj, Slot.p_of_ne _ _ hj, Slot.setP_of_ne _ _ _ hk]
      have hbit : (1#16 <<< k.toNat).getLsbD j.toNat = decide (j = k) := by
        have hk' := k.isLt
        simp only [BitVec.getLsbD_shiftLeft, BitVec.getLsbD_one]
        by_cases h : j = k
        · subst h
          have : j.toNat < 16 := hlt
          simp [this]
        · have hn : k.toNat ≠ j.toNat := fun e => h (BitVec.eq_of_toNat_eq e.symm)
          by_cases hl : j.toNat < k.toNat
          · simp [hl, h]
          · have : j.toNat - k.toNat ≠ 0 := by omega
            simp [this, h]
      have h16 : j.toNat < 16 := hlt
      by_cases h : j = k
      · rw [if_pos (show j = k ∧ k ≠ 0 from ⟨h, hk⟩)]
        cases b <;> simp only [if_true, if_false, Bool.false_eq_true, BitVec.getLsbD_or, BitVec.getLsbD_and, BitVec.getLsbD_not, h] <;> simp
        exact .inr k.isLt
      · rw [if_neg (show ¬(j = k ∧ k ≠ 0) from fun e => h e.1)]
        cases b <;> simp only [if_true, if_false, Bool.false_eq_true, BitVec.getLsbD_or, BitVec.getLsbD_and, BitVec.getLsbD_not, hbit, h] <;> simp [h16]

end Sys2Proof.Machine
end

