-- ==== Sys2Proof/Laws/Memory.lean ====
section
/-! SUPPORT.  Reads of memory after writes, and that every operation on memory, side tags and poison marks keeps the
canonical forms. -/

namespace Sys2Proof.Machine

/-! ### Reads after writes -/

theorem State.byte_setBytes (s : State) (k j : Nat) (bs : List Byte) :
    (s.setBytes k bs).byte j = if k ≤ j ∧ j < k + bs.length then bs.getD (j - k) 0 else s.byte j := by
  induction bs generalizing s k with
  | nil => simp [State.setBytes]
  | cons b r ih =>
    rw [State.setBytes, ih]
    by_cases h0 : j = k
    · subst h0
      simp
    · by_cases h1 : k + 1 ≤ j ∧ j < k + 1 + r.length
      · have h2 : k ≤ j ∧ j < k + (b :: r).length := by simp only [List.length_cons]; omega
        have h3 : j - k = (j - (k + 1)) + 1 := by omega
        rw [if_pos h1, if_pos h2, h3]
        simp
      · have h2 : ¬(k ≤ j ∧ j < k + (b :: r).length) := by simp only [List.length_cons]; omega
        rw [if_neg h1, if_neg h2]
        simp [h0]

/-- A byte outside a write reads as before. -/
theorem State.byte_setBytes_outside (s : State) (k j : Nat) (bs : List Byte) (h : j < k ∨ k + bs.length ≤ j) :
    (s.setBytes k bs).byte j = s.byte j := by
  rw [State.byte_setBytes, if_neg (by omega)]

theorem leBytes_length (n x : Nat) : (leBytes n x).length = n := by
  induction n generalizing x with
  | zero => rfl
  | succ n ih => simp [leBytes, ih]

theorem leNat_leBytes (n x : Nat) : leNat (leBytes n x) = x % 256 ^ n := by
  induction n generalizing x with
  | zero => simp [leBytes, leNat, Nat.mod_one]
  | succ n ih =>
    have h := Nat.mod_mul (a := 256) (b := 256 ^ n) (x := x)
    simp only [leBytes, leNat, ih, BitVec.toNat_ofNat]
    rw [show 256 ^ (n + 1) = 256 * 256 ^ n from Nat.pow_succ', h]

theorem State.bytes_of (s : State) (k : Nat) (l : List Byte) (h : ∀ j, j < l.length → s.byte (k + j) = l.getD j 0) :
    s.bytes k l.length = l := by
  induction l generalizing k with
  | nil => rfl
  | cons b r ih =>
    have h0 := h 0 (by simp)
    simp only [Nat.add_zero, List.getD_cons_zero] at h0
    simp only [List.length_cons, State.bytes, h0]
    congr 1
    exact ih (k + 1) (fun j hj => by
      have := h (j + 1) (by simp; omega)
      simp only [List.getD_cons_succ] at this
      rw [← this]; congr 1; omega)

/-- A number read back after it was written (R6). -/
theorem State.nat_setNat (s : State) (k n x : Nat) : (s.setNat k n x).nat k n = x % 256 ^ n := by
  have hb : (s.setNat k n x).bytes k n = leBytes n x := by
    have := State.bytes_of (s.setNat k n x) k (leBytes n x) (fun j hj => by
      rw [State.setNat, State.byte_setBytes, if_pos (by omega)]
      simp)
    rwa [leBytes_length] at this
  rw [State.nat, hb, leNat_leBytes]

/-! ### The canonical forms -/

/-- Any change of the fields beside memory, side tags and poison marks. -/
theorem State.MemForm.of_eq {s t : State} (h : s.MemForm) (h1 : t.mem = s.mem) (h2 : t.stags = s.stags)
    (h3 : t.poison = s.poison) : t.MemForm := by
  unfold State.MemForm at *; rw [h1, h2, h3]; exact h

theorem State.MemForm.setByte {s : State} (h : s.MemForm) (k : Nat) (b : Byte) : (s.setByte k b).MemForm :=
  ⟨mapWf_mapSet _ _ _ _ h.1, h.2⟩

theorem State.MemForm.setBytes {s : State} (h : s.MemForm) (k : Nat) (bs : List Byte) : (s.setBytes k bs).MemForm := by
  induction bs generalizing s k with
  | nil => exact h
  | cons b r ih => exact ih (h.setByte k b) (k + 1)

theorem State.MemForm.setNat {s : State} (h : s.MemForm) (k n x : Nat) : (s.setNat k n x).MemForm := h.setBytes _ _

theorem State.MemForm.setSideTag {s : State} (h : s.MemForm) (k : Nat) (t : Tag) : (s.setSideTag k t).MemForm :=
  ⟨h.1, mapWf_mapSet _ _ _ _ h.2.1, h.2.2⟩

theorem State.MemForm.setPoison {s : State} (h : s.MemForm) (k : Nat) (b : Bool) : (s.setPoison k b).MemForm :=
  ⟨h.1, h.2.1, mapWf_mapSet _ _ _ _ h.2.2⟩

/-- A fold of steps that each keep the forms. -/
theorem State.MemForm.foldl {α : Type} {f : State → α → State} (hf : ∀ s a, State.MemForm s → (f s a).MemForm) (l : List α)
    {s : State} (h : s.MemForm) : (l.foldl f s).MemForm := by
  induction l generalizing s with
  | nil => exact h
  | cons a r ih => exact ih (hf s a h)

theorem State.MemForm.clearTags {s : State} (h : s.MemForm) (k n : Nat) : (s.clearTags k n).MemForm :=
  State.MemForm.foldl (fun _ _ h => h.setSideTag _ _) _ h

theorem State.MemForm.storeSpad {s : State} (h : s.MemForm) (k : Nat) (bs : List Byte) : (s.storeSpad k bs).MemForm :=
  (h.setBytes k bs).clearTags _ _

theorem State.MemForm.clearWhole {s : State} (h : s.MemForm) (k n : Nat) : (s.clearWhole k n).MemForm := by
  unfold State.clearWhole
  split
  · exact h
  · exact State.MemForm.foldl (fun _ _ h => h.setPoison _ _) _ h

theorem State.MemForm.physWrite {s : State} (h : s.MemForm) (k : Nat) (bs : List Byte) : (s.physWrite k bs).MemForm :=
  (h.setBytes k bs).clearWhole _ _

theorem State.MemForm.setSlot {s : State} (h : s.MemForm) (w : Who) (x : Slot) : (s.setSlot w x).MemForm := h
theorem State.MemForm.setCore {s : State} (h : s.MemForm) (c : Nat) (x : Core) : (s.setCore c x).MemForm := h
theorem State.MemForm.setTile {s : State} (h : s.MemForm) (t : Nat) (x : Tile) : (s.setTile t x).MemForm := h
theorem State.MemForm.setPart {s : State} (h : s.MemForm) (p : Nat) (x : Partition) : (s.setPart p x).MemForm := h
theorem State.MemForm.setSys {s : State} (h : s.MemForm) (x : Sys) : (s.setSys x).MemForm := h
theorem State.MemForm.send {s : State} (h : s.MemForm) (w : Who) (r : BitVec 5) (b : Body) : (s.send w r b).MemForm := h
theorem State.MemForm.updLaunch {s : State} (h : s.MemForm) (id : Nat) (f : Launch → Launch) : (s.updLaunch id f).MemForm := h
theorem State.MemForm.count {s : State} (h : s.MemForm) (off n : Nat) : (s.count off n).MemForm := h

theorem State.MemForm.signal {s : State} (h : s.MemForm) (sig : Word) (p : List Word) (l : Nat) : (s.signal sig p l).MemForm := by
  unfold State.signal State.msix
  split
  · exact h
  · dsimp only
    split
    · exact h
    · split <;> exact h
  · exact h

theorem State.MemForm.post {s : State} (h : s.MemForm) (p l : Nat) (r : FaultRec) : (s.post p l r).MemForm := by
  have h1 := h.updLaunch l (fun l => { l with faults := min (2 ^ 32 - 1) (l.faults + 1) })
  unfold State.post
  dsimp only
  generalize s.updLaunch l (fun l => { l with faults := min (2 ^ 32 - 1) (l.faults + 1) }) = t at *
  split
  · exact (h1.setPart _ _).count _ _
  · split
    · exact State.MemForm.signal ((h1.physWrite _ _).setPart _ _) _ _ _
    · exact (h1.physWrite _ _).setPart _ _

end Sys2Proof.Machine
end

