-- ==== Sys2Proof/Laws/Ops.lean ====
section
/-! SUPPORT.  What the shared operations do, said once: a write of the running slot alone, a register result, a
jump. -/

namespace Sys2Proof.Machine

/-- A write of the running slot changes nothing outside it. -/
theorem State.onlySlot_setMe (s : State) (x : Slot) : s.OnlySlot (s.setMe x) where
  cur := rfl
  focus := rfl
  agenda := rfl
  byte _ := rfl
  sideTag _ := rfl
  poison _ := rfl
  slot w h := by simp [State.setMe, h]
  core _ := rfl
  tile _ := rfl
  part _ := rfl
  net := rfl
  nodes := rfl
  edges := rfl
  posted := rfl
  ranges := rfl
  tlb := rfl
  launches := rfl
  chunks := rfl
  sys := rfl
  ticket := rfl
  nextId := rfl
  cached := rfl
  free := rfl

theorem Slot.kept_refl (x : Slot) : x.Kept x := by constructor <;> rfl

/-- Writing a general register, and going on to the next PC, keeps what Slot.Kept names. -/
theorem Slot.kept_setG_next (x : Slot) (d : BitVec 5) (v : Word) : x.Kept ((x.setG d v).next) := by
  constructor <;> simp [Slot.next]

theorem Slot.kept_setG_jump (x : Slot) (d : BitVec 5) (v t : Word) : x.Kept ((x.setG d v).jump t) := by
  constructor <;> simp [Slot.jump]

theorem Slot.wroteG_setG (x : Slot) (d : BitVec 5) (v : Word) : x.WroteG (x.setG d v) d v := by
  intro r
  rw [Slot.g_setG]
  by_cases hr : r = 0
  · rw [if_pos hr]
    subst hr
    by_cases hd : (0 : BitVec 5) = d
    · rw [if_neg (fun h => h.2 hd.symm)]; rfl
    · rw [if_neg (fun h => hd h.1)]; rfl
  · rw [if_neg hr]
    by_cases hq : r = d
    · rw [if_pos hq, if_pos ⟨hq, hq ▸ hr⟩]
    · rw [if_neg hq, if_neg (fun h => hq h.1)]

/-- An instruction that writes one register result computes it (R188). -/
theorem State.computesG_of_result {s : State} {i : Instr} {d : BitVec 5} {v : Word}
    (h : exec i s = .next (s.result d v)) : s.ComputesG i d v :=
  ⟨_, h, s.onlySlot_setMe _, by simpa [State.result] using s.me.kept_setG_next d v, by simp [State.result, Slot.next],
    by simp [State.result, Slot.next], by simp [State.result, Slot.next],
    by simpa [State.result, Slot.WroteG] using s.me.wroteG_setG d v, by
      intro r l; simp [State.result, Slot.next, Slot.lane, Slot.tag], by simp [State.result, Slot.next],
    by simp [State.result, Slot.next]⟩

end Sys2Proof.Machine
end

