-- ==== Sys2Proof/Laws/PerInstr.lean ====
section
/-! SUPPORT.  Lemmas per instruction: the word that encodes an instruction is a word of 32 bits. -/

namespace Sys2Proof.Laws.WordBounded

/-- The word of an instruction, where it has one, fits in 32 bits (R171). -/
def Statement (i : Instr) : Prop := ∀ w, encodeWord i = some w → w < 2 ^ 32

theorem add (d : BitVec 5) (a : BitVec 5) (b : BitVec 5) : Statement (.add d a b) := by
  intro w h
  have e : 0x04000000 + d.toNat * 2097152 + a.toNat * 65536 + b.toNat * 2048 = w := Option.some.inj h
  have h0 := d.isLt; have h1 := a.isLt; have h2 := b.isLt; omega
theorem sub (d : BitVec 5) (a : BitVec 5) (b : BitVec 5) : Statement (.sub d a b) := by
  intro w h
  have e : 0x04000001 + d.toNat * 2097152 + a.toNat * 65536 + b.toNat * 2048 = w := Option.some.inj h
  have h0 := d.isLt; have h1 := a.isLt; have h2 := b.isLt; omega
theorem and (d : BitVec 5) (a : BitVec 5) (b : BitVec 5) : Statement (.and d a b) := by
  intro w h
  have e : 0x04000002 + d.toNat * 2097152 + a.toNat * 65536 + b.toNat * 2048 = w := Option.some.inj h
  have h0 := d.isLt; have h1 := a.isLt; have h2 := b.isLt; omega
theorem or (d : BitVec 5) (a : BitVec 5) (b : BitVec 5) : Statement (.or d a b) := by
  intro w h
  have e : 0x04000003 + d.toNat * 2097152 + a.toNat * 65536 + b.toNat * 2048 = w := Option.some.inj h
  have h0 := d.isLt; have h1 := a.isLt; have h2 := b.isLt; omega
theorem xor (d : BitVec 5) (a : BitVec 5) (b : BitVec 5) : Statement (.xor d a b) := by
  intro w h
  have e : 0x04000004 + d.toNat * 2097152 + a.toNat * 65536 + b.toNat * 2048 = w := Option.some.inj h
  have h0 := d.isLt; have h1 := a.isLt; have h2 := b.isLt; omega
theorem andn (d : BitVec 5) (a : BitVec 5) (b : BitVec 5) : Statement (.andn d a b) := by
  intro w h
  have e : 0x04000005 + d.toNat * 2097152 + a.toNat * 65536 + b.toNat * 2048 = w := Option.some.inj h
  have h0 := d.isLt; have h1 := a.isLt; have h2 := b.isLt; omega
theorem sll (d : BitVec 5) (a : BitVec 5) (b : BitVec 5) : Statement (.sll d a b) := by
  intro w h
  have e : 0x04000006 + d.toNat * 2097152 + a.toNat * 65536 + b.toNat * 2048 = w := Option.some.inj h
  have h0 := d.isLt; have h1 := a.isLt; have h2 := b.isLt; omega
theorem srl (d : BitVec 5) (a : BitVec 5) (b : BitVec 5) : Statement (.srl d a b) := by
  intro w h
  have e : 0x04000007 + d.toNat * 2097152 + a.toNat * 65536 + b.toNat * 2048 = w := Option.some.inj h
  have h0 := d.isLt; have h1 := a.isLt; have h2 := b.isLt; omega
theorem sra (d : BitVec 5) (a : BitVec 5) (b : BitVec 5) : Statement (.sra d a b) := by
  intro w h
  have e : 0x04000008 + d.toNat * 2097152 + a.toNat * 65536 + b.toNat * 2048 = w := Option.some.inj h
  have h0 := d.isLt; have h1 := a.isLt; have h2 := b.isLt; omega
theorem slt (d : BitVec 5) (a : BitVec 5) (b : BitVec 5) : Statement (.slt d a b) := by
  intro w h
  have e : 0x04000009 + d.toNat * 2097152 + a.toNat * 65536 + b.toNat * 2048 = w := Option.some.inj h
  have h0 := d.isLt; have h1 := a.isLt; have h2 := b.isLt; omega
theorem sltu (d : BitVec 5) (a : BitVec 5) (b : BitVec 5) : Statement (.sltu d a b) := by
  intro w h
  have e : 0x0400000A + d.toNat * 2097152 + a.toNat * 65536 + b.toNat * 2048 = w := Option.some.inj h
  have h0 := d.isLt; have h1 := a.isLt; have h2 := b.isLt; omega
theorem min (d : BitVec 5) (a : BitVec 5) (b : BitVec 5) : Statement (.min d a b) := by
  intro w h
  have e : 0x0400000B + d.toNat * 2097152 + a.toNat * 65536 + b.toNat * 2048 = w := Option.some.inj h
  have h0 := d.isLt; have h1 := a.isLt; have h2 := b.isLt; omega
theorem max (d : BitVec 5) (a : BitVec 5) (b : BitVec 5) : Statement (.max d a b) := by
  intro w h
  have e : 0x0400000C + d.toNat * 2097152 + a.toNat * 65536 + b.toNat * 2048 = w := Option.some.inj h
  have h0 := d.isLt; have h1 := a.isLt; have h2 := b.isLt; omega
theorem minu (d : BitVec 5) (a : BitVec 5) (b : BitVec 5) : Statement (.minu d a b) := by
  intro w h
  have e : 0x0400000D + d.toNat * 2097152 + a.toNat * 65536 + b.toNat * 2048 = w := Option.some.inj h
  have h0 := d.isLt; have h1 := a.isLt; have h2 := b.isLt; omega
theorem maxu (d : BitVec 5) (a : BitVec 5) (b : BitVec 5) : Statement (.maxu d a b) := by
  intro w h
  have e : 0x0400000E + d.toNat * 2097152 + a.toNat * 65536 + b.toNat * 2048 = w := Option.some.inj h
  have h0 := d.isLt; have h1 := a.isLt; have h2 := b.isLt; omega
theorem clz (d : BitVec 5) (a : BitVec 5) : Statement (.clz d a) := by
  intro w h
  have e : 0x0400000F + d.toNat * 2097152 + a.toNat * 65536 = w := Option.some.inj h
  have h0 := d.isLt; have h1 := a.isLt; omega
theorem ctz (d : BitVec 5) (a : BitVec 5) : Statement (.ctz d a) := by
  intro w h
  have e : 0x04000010 + d.toNat * 2097152 + a.toNat * 65536 = w := Option.some.inj h
  have h0 := d.isLt; have h1 := a.isLt; omega
theorem popc (d : BitVec 5) (a : BitVec 5) : Statement (.popc d a) := by
  intro w h
  have e : 0x04000011 + d.toNat * 2097152 + a.toNat * 65536 = w := Option.some.inj h
  have h0 := d.isLt; have h1 := a.isLt; omega
theorem sextb (d : BitVec 5) (a : BitVec 5) : Statement (.sextb d a) := by
  intro w h
  have e : 0x04000012 + d.toNat * 2097152 + a.toNat * 65536 = w := Option.some.inj h
  have h0 := d.isLt; have h1 := a.isLt; omega
theorem sexth (d : BitVec 5) (a : BitVec 5) : Statement (.sexth d a) := by
  intro w h
  have e : 0x04000013 + d.toNat * 2097152 + a.toNat * 65536 = w := Option.some.inj h
  have h0 := d.isLt; have h1 := a.isLt; omega
theorem sextw (d : BitVec 5) (a : BitVec 5) : Statement (.sextw d a) := by
  intro w h
  have e : 0x04000014 + d.toNat * 2097152 + a.toNat * 65536 = w := Option.some.inj h
  have h0 := d.isLt; have h1 := a.isLt; omega
theorem zextw (d : BitVec 5) (a : BitVec 5) : Statement (.zextw d a) := by
  intro w h
  have e : 0x04000015 + d.toNat * 2097152 + a.toNat * 65536 = w := Option.some.inj h
  have h0 := d.isLt; have h1 := a.isLt; omega
theorem addw (d : BitVec 5) (a : BitVec 5) (b : BitVec 5) : Statement (.addw d a b) := by
  intro w h
  have e : 0x04000016 + d.toNat * 2097152 + a.toNat * 65536 + b.toNat * 2048 = w := Option.some.inj h
  have h0 := d.isLt; have h1 := a.isLt; have h2 := b.isLt; omega
theorem subw (d : BitVec 5) (a : BitVec 5) (b : BitVec 5) : Statement (.subw d a b) := by
  intro w h
  have e : 0x04000017 + d.toNat * 2097152 + a.toNat * 65536 + b.toNat * 2048 = w := Option.some.inj h
  have h0 := d.isLt; have h1 := a.isLt; have h2 := b.isLt; omega
theorem sllw (d : BitVec 5) (a : BitVec 5) (b : BitVec 5) : Statement (.sllw d a b) := by
  intro w h
  have e : 0x04000018 + d.toNat * 2097152 + a.toNat * 65536 + b.toNat * 2048 = w := Option.some.inj h
  have h0 := d.isLt; have h1 := a.isLt; have h2 := b.isLt; omega
theorem srlw (d : BitVec 5) (a : BitVec 5) (b : BitVec 5) : Statement (.srlw d a b) := by
  intro w h
  have e : 0x04000019 + d.toNat * 2097152 + a.toNat * 65536 + b.toNat * 2048 = w := Option.some.inj h
  have h0 := d.isLt; have h1 := a.isLt; have h2 := b.isLt; omega
theorem sraw (d : BitVec 5) (a : BitVec 5) (b : BitVec 5) : Statement (.sraw d a b) := by
  intro w h
  have e : 0x0400001A + d.toNat * 2097152 + a.toNat * 65536 + b.toNat * 2048 = w := Option.some.inj h
  have h0 := d.isLt; have h1 := a.isLt; have h2 := b.isLt; omega
theorem addi (d : BitVec 5) (a : BitVec 5) (i : BitVec 16) : Statement (.addi d a i) := by
  intro w h
  have e : 0x08000000 + d.toNat * 2097152 + a.toNat * 65536 + i.toNat = w := Option.some.inj h
  have h0 := d.isLt; have h1 := a.isLt; have h2 := i.isLt; omega
theorem andi (d : BitVec 5) (a : BitVec 5) (i : BitVec 16) : Statement (.andi d a i) := by
  intro w h
  have e : 0x0C000000 + d.toNat * 2097152 + a.toNat * 65536 + i.toNat = w := Option.some.inj h
  have h0 := d.isLt; have h1 := a.isLt; have h2 := i.isLt; omega
theorem ori (d : BitVec 5) (a : BitVec 5) (i : BitVec 16) : Statement (.ori d a i) := by
  intro w h
  have e : 0x10000000 + d.toNat * 2097152 + a.toNat * 65536 + i.toNat = w := Option.some.inj h
  have h0 := d.isLt; have h1 := a.isLt; have h2 := i.isLt; omega
theorem xori (d : BitVec 5) (a : BitVec 5) (i : BitVec 16) : Statement (.xori d a i) := by
  intro w h
  have e : 0x14000000 + d.toNat * 2097152 + a.toNat * 65536 + i.toNat = w := Option.some.inj h
  have h0 := d.isLt; have h1 := a.isLt; have h2 := i.isLt; omega
theorem slti (d : BitVec 5) (a : BitVec 5) (i : BitVec 16) : Statement (.slti d a i) := by
  intro w h
  have e : 0x18000000 + d.toNat * 2097152 + a.toNat * 65536 + i.toNat = w := Option.some.inj h
  have h0 := d.isLt; have h1 := a.isLt; have h2 := i.isLt; omega
theorem sltiu (d : BitVec 5) (a : BitVec 5) (i : BitVec 16) : Statement (.sltiu d a i) := by
  intro w h
  have e : 0x1C000000 + d.toNat * 2097152 + a.toNat * 65536 + i.toNat = w := Option.some.inj h
  have h0 := d.isLt; have h1 := a.isLt; have h2 := i.isLt; omega
theorem slli (d : BitVec 5) (a : BitVec 5) (x_s : BitVec 6) : Statement (.slli d a x_s) := by
  intro w h
  have e : 0x20000000 + d.toNat * 2097152 + a.toNat * 65536 + x_s.toNat = w := Option.some.inj h
  have h0 := d.isLt; have h1 := a.isLt; have h2 := x_s.isLt; omega
theorem srli (d : BitVec 5) (a : BitVec 5) (x_s : BitVec 6) : Statement (.srli d a x_s) := by
  intro w h
  have e : 0x20004000 + d.toNat * 2097152 + a.toNat * 65536 + x_s.toNat = w := Option.some.inj h
  have h0 := d.isLt; have h1 := a.isLt; have h2 := x_s.isLt; omega
theorem srai (d : BitVec 5) (a : BitVec 5) (x_s : BitVec 6) : Statement (.srai d a x_s) := by
  intro w h
  have e : 0x20008000 + d.toNat * 2097152 + a.toNat * 65536 + x_s.toNat = w := Option.some.inj h
  have h0 := d.isLt; have h1 := a.isLt; have h2 := x_s.isLt; omega
theorem lui (d : BitVec 5) (i : BitVec 16) : Statement (.lui d i) := by
  intro w h
  have e : 0x24000000 + d.toNat * 2097152 + i.toNat = w := Option.some.inj h
  have h0 := d.isLt; have h1 := i.isLt; omega
theorem addpc (d : BitVec 5) (i : BitVec 16) : Statement (.addpc d i) := by
  intro w h
  have e : 0x28000000 + d.toNat * 2097152 + i.toNat = w := Option.some.inj h
  have h0 := d.isLt; have h1 := i.isLt; omega
theorem mul (d : BitVec 5) (a : BitVec 5) (b : BitVec 5) : Statement (.mul d a b) := by
  intro w h
  have e : 0x2C000000 + d.toNat * 2097152 + a.toNat * 65536 + b.toNat * 2048 = w := Option.some.inj h
  have h0 := d.isLt; have h1 := a.isLt; have h2 := b.isLt; omega
theorem mulh (d : BitVec 5) (a : BitVec 5) (b : BitVec 5) : Statement (.mulh d a b) := by
  intro w h
  have e : 0x2C000001 + d.toNat * 2097152 + a.toNat * 65536 + b.toNat * 2048 = w := Option.some.inj h
  have h0 := d.isLt; have h1 := a.isLt; have h2 := b.isLt; omega
theorem mulhu (d : BitVec 5) (a : BitVec 5) (b : BitVec 5) : Statement (.mulhu d a b) := by
  intro w h
  have e : 0x2C000002 + d.toNat * 2097152 + a.toNat * 65536 + b.toNat * 2048 = w := Option.some.inj h
  have h0 := d.isLt; have h1 := a.isLt; have h2 := b.isLt; omega
theorem mulw (d : BitVec 5) (a : BitVec 5) (b : BitVec 5) : Statement (.mulw d a b) := by
  intro w h
  have e : 0x2C000003 + d.toNat * 2097152 + a.toNat * 65536 + b.toNat * 2048 = w := Option.some.inj h
  have h0 := d.isLt; have h1 := a.isLt; have h2 := b.isLt; omega
theorem div (d : BitVec 5) (a : BitVec 5) (b : BitVec 5) : Statement (.div d a b) := by
  intro w h
  have e : 0x2C000004 + d.toNat * 2097152 + a.toNat * 65536 + b.toNat * 2048 = w := Option.some.inj h
  have h0 := d.isLt; have h1 := a.isLt; have h2 := b.isLt; omega
theorem divu (d : BitVec 5) (a : BitVec 5) (b : BitVec 5) : Statement (.divu d a b) := by
  intro w h
  have e : 0x2C000005 + d.toNat * 2097152 + a.toNat * 65536 + b.toNat * 2048 = w := Option.some.inj h
  have h0 := d.isLt; have h1 := a.isLt; have h2 := b.isLt; omega
theorem rem (d : BitVec 5) (a : BitVec 5) (b : BitVec 5) : Statement (.rem d a b) := by
  intro w h
  have e : 0x2C000006 + d.toNat * 2097152 + a.toNat * 65536 + b.toNat * 2048 = w := Option.some.inj h
  have h0 := d.isLt; have h1 := a.isLt; have h2 := b.isLt; omega
theorem remu (d : BitVec 5) (a : BitVec 5) (b : BitVec 5) : Statement (.remu d a b) := by
  intro w h
  have e : 0x2C000007 + d.toNat * 2097152 + a.toNat * 65536 + b.toNat * 2048 = w := Option.some.inj h
  have h0 := d.isLt; have h1 := a.isLt; have h2 := b.isLt; omega
theorem beq (a : BitVec 5) (b : BitVec 5) (d : BitVec 16) : Statement (.beq a b d) := by
  intro w h
  have e : 0x30000000 + a.toNat * 2097152 + b.toNat * 65536 + d.toNat = w := Option.some.inj h
  have h0 := a.isLt; have h1 := b.isLt; have h2 := d.isLt; omega
theorem bne (a : BitVec 5) (b : BitVec 5) (d : BitVec 16) : Statement (.bne a b d) := by
  intro w h
  have e : 0x34000000 + a.toNat * 2097152 + b.toNat * 65536 + d.toNat = w := Option.some.inj h
  have h0 := a.isLt; have h1 := b.isLt; have h2 := d.isLt; omega
theorem blt (a : BitVec 5) (b : BitVec 5) (d : BitVec 16) : Statement (.blt a b d) := by
  intro w h
  have e : 0x38000000 + a.toNat * 2097152 + b.toNat * 65536 + d.toNat = w := Option.some.inj h
  have h0 := a.isLt; have h1 := b.isLt; have h2 := d.isLt; omega
theorem bge (a : BitVec 5) (b : BitVec 5) (d : BitVec 16) : Statement (.bge a b d) := by
  intro w h
  have e : 0x3C000000 + a.toNat * 2097152 + b.toNat * 65536 + d.toNat = w := Option.some.inj h
  have h0 := a.isLt; have h1 := b.isLt; have h2 := d.isLt; omega
theorem bltu (a : BitVec 5) (b : BitVec 5) (d : BitVec 16) : Statement (.bltu a b d) := by
  intro w h
  have e : 0x40000000 + a.toNat * 2097152 + b.toNat * 65536 + d.toNat = w := Option.some.inj h
  have h0 := a.isLt; have h1 := b.isLt; have h2 := d.isLt; omega
theorem bgeu (a : BitVec 5) (b : BitVec 5) (d : BitVec 16) : Statement (.bgeu a b d) := by
  intro w h
  have e : 0x44000000 + a.toNat * 2097152 + b.toNat * 65536 + d.toNat = w := Option.some.inj h
  have h0 := a.isLt; have h1 := b.isLt; have h2 := d.isLt; omega
theorem j (d : BitVec 21) : Statement (.j d) := by
  intro w h
  have e : 0x48000000 + d.toNat = w := Option.some.inj h
  have h0 := d.isLt; omega
theorem jl (r : BitVec 5) (d : BitVec 21) : Statement (.jl r d) := by
  intro w h
  have e : 0x4C000000 + r.toNat * 2097152 + d.toNat = w := Option.some.inj h
  have h0 := r.isLt; have h1 := d.isLt; omega
theorem jlr (d : BitVec 5) (a : BitVec 5) (i : BitVec 16) : Statement (.jlr d a i) := by
  intro w h
  have e : 0x50000000 + d.toNat * 2097152 + a.toNat * 65536 + i.toNat = w := Option.some.inj h
  have h0 := d.isLt; have h1 := a.isLt; have h2 := i.isLt; omega
theorem cmp (p : BitVec 4) (a : BitVec 5) (b : BitVec 5) (c : BitVec 3) : Statement (.cmp p a b c) := by
  intro w h
  have e : 0x54000000 + p.toNat * 2097152 + a.toNat * 65536 + b.toNat * 2048 + c.toNat * 16 = w := Option.some.inj h
  have h0 := p.isLt; have h1 := a.isLt; have h2 := b.isLt; have h3 := c.isLt; omega
theorem pand (p : BitVec 4) (q : BitVec 4) (r : BitVec 4) : Statement (.pand p q r) := by
  intro w h
  have e : 0x54000001 + p.toNat * 2097152 + q.toNat * 65536 + r.toNat * 2048 = w := Option.some.inj h
  have h0 := p.isLt; have h1 := q.isLt; have h2 := r.isLt; omega
theorem por (p : BitVec 4) (q : BitVec 4) (r : BitVec 4) : Statement (.por p q r) := by
  intro w h
  have e : 0x54000002 + p.toNat * 2097152 + q.toNat * 65536 + r.toNat * 2048 = w := Option.some.inj h
  have h0 := p.isLt; have h1 := q.isLt; have h2 := r.isLt; omega
theorem pxor (p : BitVec 4) (q : BitVec 4) (r : BitVec 4) : Statement (.pxor p q r) := by
  intro w h
  have e : 0x54000003 + p.toNat * 2097152 + q.toNat * 65536 + r.toNat * 2048 = w := Option.some.inj h
  have h0 := p.isLt; have h1 := q.isLt; have h2 := r.isLt; omega
theorem bp (p : BitVec 4) (d : BitVec 16) : Statement (.bp p d) := by
  intro w h
  have e : 0x58000000 + p.toNat * 2097152 + d.toNat = w := Option.some.inj h
  have h0 := p.isLt; have h1 := d.isLt; omega
theorem bpF (p : BitVec 4) (d : BitVec 16) : Statement (.bpF p d) := by
  intro w h
  have e : 0x58010000 + p.toNat * 2097152 + d.toNat = w := Option.some.inj h
  have h0 := p.isLt; have h1 := d.isLt; omega
theorem lb (d : BitVec 5) (a : BitVec 5) (r : BitVec 1) (o : BitVec 12) : Statement (.lb d a r o) := by
  intro w h
  have e : 0x5C000000 + d.toNat * 2097152 + a.toNat * 65536 + r.toNat * 4096 + o.toNat = w := Option.some.inj h
  have h0 := d.isLt; have h1 := a.isLt; have h2 := r.isLt; have h3 := o.isLt; omega
theorem lbu (d : BitVec 5) (a : BitVec 5) (r : BitVec 1) (o : BitVec 12) : Statement (.lbu d a r o) := by
  intro w h
  have e : 0x5C002000 + d.toNat * 2097152 + a.toNat * 65536 + r.toNat * 4096 + o.toNat = w := Option.some.inj h
  have h0 := d.isLt; have h1 := a.isLt; have h2 := r.isLt; have h3 := o.isLt; omega
theorem lh (d : BitVec 5) (a : BitVec 5) (r : BitVec 1) (o : BitVec 12) : Statement (.lh d a r o) := by
  intro w h
  have e : 0x5C004000 + d.toNat * 2097152 + a.toNat * 65536 + r.toNat * 4096 + o.toNat = w := Option.some.inj h
  have h0 := d.isLt; have h1 := a.isLt; have h2 := r.isLt; have h3 := o.isLt; omega
theorem lhu (d : BitVec 5) (a : BitVec 5) (r : BitVec 1) (o : BitVec 12) : Statement (.lhu d a r o) := by
  intro w h
  have e : 0x5C006000 + d.toNat * 2097152 + a.toNat * 65536 + r.toNat * 4096 + o.toNat = w := Option.some.inj h
  have h0 := d.isLt; have h1 := a.isLt; have h2 := r.isLt; have h3 := o.isLt; omega
theorem lw (d : BitVec 5) (a : BitVec 5) (r : BitVec 1) (o : BitVec 12) : Statement (.lw d a r o) := by
  intro w h
  have e : 0x5C008000 + d.toNat * 2097152 + a.toNat * 65536 + r.toNat * 4096 + o.toNat = w := Option.some.inj h
  have h0 := d.isLt; have h1 := a.isLt; have h2 := r.isLt; have h3 := o.isLt; omega
theorem lwu (d : BitVec 5) (a : BitVec 5) (r : BitVec 1) (o : BitVec 12) : Statement (.lwu d a r o) := by
  intro w h
  have e : 0x5C00A000 + d.toNat * 2097152 + a.toNat * 65536 + r.toNat * 4096 + o.toNat = w := Option.some.inj h
  have h0 := d.isLt; have h1 := a.isLt; have h2 := r.isLt; have h3 := o.isLt; omega
theorem ld (d : BitVec 5) (a : BitVec 5) (r : BitVec 1) (o : BitVec 12) : Statement (.ld d a r o) := by
  intro w h
  have e : 0x5C00C000 + d.toNat * 2097152 + a.toNat * 65536 + r.toNat * 4096 + o.toNat = w := Option.some.inj h
  have h0 := d.isLt; have h1 := a.isLt; have h2 := r.isLt; have h3 := o.isLt; omega
theorem sb (x_s : BitVec 5) (a : BitVec 5) (r : BitVec 1) (o : BitVec 12) : Statement (.sb x_s a r o) := by
  intro w h
  have e : 0x60000000 + x_s.toNat * 2097152 + a.toNat * 65536 + r.toNat * 4096 + o.toNat = w := Option.some.inj h
  have h0 := x_s.isLt; have h1 := a.isLt; have h2 := r.isLt; have h3 := o.isLt; omega
theorem sh (x_s : BitVec 5) (a : BitVec 5) (r : BitVec 1) (o : BitVec 12) : Statement (.sh x_s a r o) := by
  intro w h
  have e : 0x60004000 + x_s.toNat * 2097152 + a.toNat * 65536 + r.toNat * 4096 + o.toNat = w := Option.some.inj h
  have h0 := x_s.isLt; have h1 := a.isLt; have h2 := r.isLt; have h3 := o.isLt; omega
theorem sw (x_s : BitVec 5) (a : BitVec 5) (r : BitVec 1) (o : BitVec 12) : Statement (.sw x_s a r o) := by
  intro w h
  have e : 0x60008000 + x_s.toNat * 2097152 + a.toNat * 65536 + r.toNat * 4096 + o.toNat = w := Option.some.inj h
  have h0 := x_s.isLt; have h1 := a.isLt; have h2 := r.isLt; have h3 := o.isLt; omega
theorem sd (x_s : BitVec 5) (a : BitVec 5) (r : BitVec 1) (o : BitVec 12) : Statement (.sd x_s a r o) := by
  intro w h
  have e : 0x6000C000 + x_s.toNat * 2097152 + a.toNat * 65536 + r.toNat * 4096 + o.toNat = w := Option.some.inj h
  have h0 := x_s.isLt; have h1 := a.isLt; have h2 := r.isLt; have h3 := o.isLt; omega
theorem aadd (d : BitVec 5) (a : BitVec 5) (b : BitVec 5) (r : BitVec 1) (z : BitVec 1) : Statement (.aadd d a b r z) := by
  intro w h
  have e : 0x64000000 + d.toNat * 2097152 + a.toNat * 65536 + b.toNat * 2048 + r.toNat * 32 + z.toNat * 16 = w := Option.some.inj h
  have h0 := d.isLt; have h1 := a.isLt; have h2 := b.isLt; have h3 := r.isLt; have h4 := z.isLt; omega
theorem aand (d : BitVec 5) (a : BitVec 5) (b : BitVec 5) (r : BitVec 1) (z : BitVec 1) : Statement (.aand d a b r z) := by
  intro w h
  have e : 0x64000001 + d.toNat * 2097152 + a.toNat * 65536 + b.toNat * 2048 + r.toNat * 32 + z.toNat * 16 = w := Option.some.inj h
  have h0 := d.isLt; have h1 := a.isLt; have h2 := b.isLt; have h3 := r.isLt; have h4 := z.isLt; omega
theorem aor (d : BitVec 5) (a : BitVec 5) (b : BitVec 5) (r : BitVec 1) (z : BitVec 1) : Statement (.aor d a b r z) := by
  intro w h
  have e : 0x64000002 + d.toNat * 2097152 + a.toNat * 65536 + b.toNat * 2048 + r.toNat * 32 + z.toNat * 16 = w := Option.some.inj h
  have h0 := d.isLt; have h1 := a.isLt; have h2 := b.isLt; have h3 := r.isLt; have h4 := z.isLt; omega
theorem axor (d : BitVec 5) (a : BitVec 5) (b : BitVec 5) (r : BitVec 1) (z : BitVec 1) : Statement (.axor d a b r z) := by
  intro w h
  have e : 0x64000003 + d.toNat * 2097152 + a.toNat * 65536 + b.toNat * 2048 + r.toNat * 32 + z.toNat * 16 = w := Option.some.inj h
  have h0 := d.isLt; have h1 := a.isLt; have h2 := b.isLt; have h3 := r.isLt; have h4 := z.isLt; omega
theorem amin (d : BitVec 5) (a : BitVec 5) (b : BitVec 5) (r : BitVec 1) (z : BitVec 1) : Statement (.amin d a b r z) := by
  intro w h
  have e : 0x64000004 + d.toNat * 2097152 + a.toNat * 65536 + b.toNat * 2048 + r.toNat * 32 + z.toNat * 16 = w := Option.some.inj h
  have h0 := d.isLt; have h1 := a.isLt; have h2 := b.isLt; have h3 := r.isLt; have h4 := z.isLt; omega
theorem amax (d : BitVec 5) (a : BitVec 5) (b : BitVec 5) (r : BitVec 1) (z : BitVec 1) : Statement (.amax d a b r z) := by
  intro w h
  have e : 0x64000005 + d.toNat * 2097152 + a.toNat * 65536 + b.toNat * 2048 + r.toNat * 32 + z.toNat * 16 = w := Option.some.inj h
  have h0 := d.isLt; have h1 := a.isLt; have h2 := b.isLt; have h3 := r.isLt; have h4 := z.isLt; omega
theorem aminu (d : BitVec 5) (a : BitVec 5) (b : BitVec 5) (r : BitVec 1) (z : BitVec 1) : Statement (.aminu d a b r z) := by
  intro w h
  have e : 0x64000006 + d.toNat * 2097152 + a.toNat * 65536 + b.toNat * 2048 + r.toNat * 32 + z.toNat * 16 = w := Option.some.inj h
  have h0 := d.isLt; have h1 := a.isLt; have h2 := b.isLt; have h3 := r.isLt; have h4 := z.isLt; omega
theorem amaxu (d : BitVec 5) (a : BitVec 5) (b : BitVec 5) (r : BitVec 1) (z : BitVec 1) : Statement (.amaxu d a b r z) := by
  intro w h
  have e : 0x64000007 + d.toNat * 2097152 + a.toNat * 65536 + b.toNat * 2048 + r.toNat * 32 + z.toNat * 16 = w := Option.some.inj h
  have h0 := d.isLt; have h1 := a.isLt; have h2 := b.isLt; have h3 := r.isLt; have h4 := z.isLt; omega
theorem aswap (d : BitVec 5) (a : BitVec 5) (b : BitVec 5) (r : BitVec 1) (z : BitVec 1) : Statement (.aswap d a b r z) := by
  intro w h
  have e : 0x64000008 + d.toNat * 2097152 + a.toNat * 65536 + b.toNat * 2048 + r.toNat * 32 + z.toNat * 16 = w := Option.some.inj h
  have h0 := d.isLt; have h1 := a.isLt; have h2 := b.isLt; have h3 := r.isLt; have h4 := z.isLt; omega
theorem acas (d : BitVec 5) (a : BitVec 5) (b : BitVec 5) (r : BitVec 1) (z : BitVec 1) : Statement (.acas d a b r z) := by
  intro w h
  have e : 0x64000009 + d.toNat * 2097152 + a.toNat * 65536 + b.toNat * 2048 + r.toNat * 32 + z.toNat * 16 = w := Option.some.inj h
  have h0 := d.isLt; have h1 := a.isLt; have h2 := b.isLt; have h3 := r.isLt; have h4 := z.isLt; omega
theorem redadd (a : BitVec 5) (b : BitVec 5) (z : BitVec 1) : Statement (.redadd a b z) := by
  intro w h
  have e : 0x68000000 + a.toNat * 65536 + b.toNat * 2048 + z.toNat * 16 = w := Option.some.inj h
  have h0 := a.isLt; have h1 := b.isLt; have h2 := z.isLt; omega
theorem redand (a : BitVec 5) (b : BitVec 5) (z : BitVec 1) : Statement (.redand a b z) := by
  intro w h
  have e : 0x68000001 + a.toNat * 65536 + b.toNat * 2048 + z.toNat * 16 = w := Option.some.inj h
  have h0 := a.isLt; have h1 := b.isLt; have h2 := z.isLt; omega
theorem redor (a : BitVec 5) (b : BitVec 5) (z : BitVec 1) : Statement (.redor a b z) := by
  intro w h
  have e : 0x68000002 + a.toNat * 65536 + b.toNat * 2048 + z.toNat * 16 = w := Option.some.inj h
  have h0 := a.isLt; have h1 := b.isLt; have h2 := z.isLt; omega
theorem redmin (a : BitVec 5) (b : BitVec 5) (z : BitVec 1) : Statement (.redmin a b z) := by
  intro w h
  have e : 0x68000003 + a.toNat * 65536 + b.toNat * 2048 + z.toNat * 16 = w := Option.some.inj h
  have h0 := a.isLt; have h1 := b.isLt; have h2 := z.isLt; omega
theorem redmax (a : BitVec 5) (b : BitVec 5) (z : BitVec 1) : Statement (.redmax a b z) := by
  intro w h
  have e : 0x68000004 + a.toNat * 65536 + b.toNat * 2048 + z.toNat * 16 = w := Option.some.inj h
  have h0 := a.isLt; have h1 := b.isLt; have h2 := z.isLt; omega
theorem xcaddV (a : BitVec 5) (v : BitVec 5) : Statement (.xcaddV a v) := by
  intro w h
  have e : 0x6C000200 + a.toNat * 65536 + v.toNat * 2048 = w := Option.some.inj h
  have h0 := a.isLt; have h1 := v.isLt; omega
theorem xcaddG (a : BitVec 5) (b : BitVec 5) : Statement (.xcaddG a b) := by
  intro w h
  have e : 0x6C000201 + a.toNat * 65536 + b.toNat * 2048 = w := Option.some.inj h
  have h0 := a.isLt; have h1 := b.isLt; omega
theorem xcread (d : BitVec 5) (a : BitVec 5) : Statement (.xcread d a) := by
  intro w h
  have e : 0x6C000202 + d.toNat * 2097152 + a.toNat * 65536 = w := Option.some.inj h
  have h0 := d.isLt; have h1 := a.isLt; omega
theorem xcclr (a : BitVec 5) : Statement (.xcclr a) := by
  intro w h
  have e : 0x6C000203 + a.toNat * 65536 = w := Option.some.inj h
  have h0 := a.isLt; omega
theorem fence : Statement (.fence) := by
  intro w h
  have e : 0x70000000 = w := Option.some.inj h
  omega
theorem fenceRed : Statement (.fenceRed) := by
  intro w h
  have e : 0x70000001 = w := Option.some.inj h
  omega
theorem fenceAcq : Statement (.fenceAcq) := by
  intro w h
  have e : 0x70000002 = w := Option.some.inj h
  omega
theorem fenceSys : Statement (.fenceSys) := by
  intro w h
  have e : 0x70000003 = w := Option.some.inj h
  omega
theorem migrate (a : BitVec 5) (b : BitVec 5) : Statement (.migrate a b) := by
  intro w h
  have e : 0x70000010 + a.toNat * 65536 + b.toNat * 2048 = w := Option.some.inj h
  have h0 := a.isLt; have h1 := b.isLt; omega
theorem migto (a : BitVec 5) (b : BitVec 5) : Statement (.migto a b) := by
  intro w h
  have e : 0x70000011 + a.toNat * 65536 + b.toNat * 2048 = w := Option.some.inj h
  have h0 := a.isLt; have h1 := b.isLt; omega
theorem spawn (d : BitVec 5) (a : BitVec 5) (b : BitVec 5) : Statement (.spawn d a b) := by
  intro w h
  have e : 0x70000012 + d.toNat * 2097152 + a.toNat * 65536 + b.toNat * 2048 = w := Option.some.inj h
  have h0 := d.isLt; have h1 := a.isLt; have h2 := b.isLt; omega
theorem send (d : BitVec 5) (a : BitVec 5) : Statement (.send d a) := by
  intro w h
  have e : 0x74000000 + d.toNat * 2097152 + a.toNat * 65536 = w := Option.some.inj h
  have h0 := d.isLt; have h1 := a.isLt; omega
theorem sendt (d : BitVec 5) (a : BitVec 5) : Statement (.sendt d a) := by
  intro w h
  have e : 0x74000001 + d.toNat * 2097152 + a.toNat * 65536 = w := Option.some.inj h
  have h0 := d.isLt; have h1 := a.isLt; omega
theorem recv (d : BitVec 5) (a : BitVec 5) : Statement (.recv d a) := by
  intro w h
  have e : 0x74000002 + d.toNat * 2097152 + a.toNat * 65536 = w := Option.some.inj h
  have h0 := d.isLt; have h1 := a.isLt; omega
theorem recvt (d : BitVec 5) (a : BitVec 5) : Statement (.recvt d a) := by
  intro w h
  have e : 0x74000003 + d.toNat * 2097152 + a.toNat * 65536 = w := Option.some.inj h
  have h0 := d.isLt; have h1 := a.isLt; omega
theorem append (d : BitVec 5) (a : BitVec 5) (b : BitVec 5) : Statement (.append d a b) := by
  intro w h
  have e : 0x74000004 + d.toNat * 2097152 + a.toNat * 65536 + b.toNat * 2048 = w := Option.some.inj h
  have h0 := d.isLt; have h1 := a.isLt; have h2 := b.isLt; omega
theorem appendt (d : BitVec 5) (a : BitVec 5) (b : BitVec 5) : Statement (.appendt d a b) := by
  intro w h
  have e : 0x74000005 + d.toNat * 2097152 + a.toNat * 65536 + b.toNat * 2048 = w := Option.some.inj h
  have h0 := d.isLt; have h1 := a.isLt; have h2 := b.isLt; omega
theorem mbstat (d : BitVec 5) : Statement (.mbstat d) := by
  intro w h
  have e : 0x74000006 + d.toNat * 2097152 = w := Option.some.inj h
  have h0 := d.isLt; omega
theorem qbind (q : BitVec 5) (a : BitVec 5) : Statement (.qbind q a) := by
  intro w h
  have e : 0x78000000 + q.toNat * 2097152 + a.toNat * 65536 = w := Option.some.inj h
  have h0 := q.isLt; have h1 := a.isLt; omega
theorem qwr (q : BitVec 5) (a : BitVec 5) : Statement (.qwr q a) := by
  intro w h
  have e : 0x78000001 + q.toNat * 2097152 + a.toNat * 65536 = w := Option.some.inj h
  have h0 := q.isLt; have h1 := a.isLt; omega
theorem qrd (d : BitVec 5) (q : BitVec 5) : Statement (.qrd d q) := by
  intro w h
  have e : 0x78000002 + d.toNat * 2097152 + q.toNat * 65536 = w := Option.some.inj h
  have h0 := d.isLt; have h1 := q.isLt; omega
theorem vqwr (q : BitVec 5) (v : BitVec 5) : Statement (.vqwr q v) := by
  intro w h
  have e : 0x78000003 + q.toNat * 2097152 + v.toNat * 65536 = w := Option.some.inj h
  have h0 := q.isLt; have h1 := v.isLt; omega
theorem vqrd (v : BitVec 5) (q : BitVec 5) : Statement (.vqrd v q) := by
  intro w h
  have e : 0x78000004 + v.toNat * 2097152 + q.toNat * 65536 = w := Option.some.inj h
  have h0 := v.isLt; have h1 := q.isLt; omega
theorem qstat (d : BitVec 5) (q : BitVec 5) : Statement (.qstat d q) := by
  intro w h
  have e : 0x78000005 + d.toNat * 2097152 + q.toNat * 65536 = w := Option.some.inj h
  have h0 := d.isLt; have h1 := q.isLt; omega
theorem qclose (q : BitVec 5) : Statement (.qclose q) := by
  intro w h
  have e : 0x78000006 + q.toNat * 65536 = w := Option.some.inj h
  have h0 := q.isLt; omega
theorem syncinit (d : BitVec 5) (a : BitVec 5) (b : BitVec 5) : Statement (.syncinit d a b) := by
  intro w h
  have e : 0x7C000000 + d.toNat * 2097152 + a.toNat * 65536 + b.toNat * 2048 = w := Option.some.inj h
  have h0 := d.isLt; have h1 := a.isLt; have h2 := b.isLt; omega
theorem acq (a : BitVec 5) : Statement (.acq a) := by
  intro w h
  have e : 0x7C000001 + a.toNat * 65536 = w := Option.some.inj h
  have h0 := a.isLt; omega
theorem tryacq (d : BitVec 5) (a : BitVec 5) : Statement (.tryacq d a) := by
  intro w h
  have e : 0x7C000002 + d.toNat * 2097152 + a.toNat * 65536 = w := Option.some.inj h
  have h0 := d.isLt; have h1 := a.isLt; omega
theorem rel (a : BitVec 5) : Statement (.rel a) := by
  intro w h
  have e : 0x7C000003 + a.toNat * 65536 = w := Option.some.inj h
  have h0 := a.isLt; omega
theorem lockrun (d : BitVec 5) (a : BitVec 5) (b : BitVec 5) : Statement (.lockrun d a b) := by
  intro w h
  have e : 0x7C000004 + d.toNat * 2097152 + a.toNat * 65536 + b.toNat * 2048 = w := Option.some.inj h
  have h0 := d.isLt; have h1 := a.isLt; have h2 := b.isLt; omega
theorem arrive (a : BitVec 5) (b : BitVec 5) : Statement (.arrive a b) := by
  intro w h
  have e : 0x7C000005 + a.toNat * 65536 + b.toNat * 2048 = w := Option.some.inj h
  have h0 := a.isLt; have h1 := b.isLt; omega
theorem await (d : BitVec 5) (a : BitVec 5) : Statement (.await d a) := by
  intro w h
  have e : 0x7C000006 + d.toNat * 2097152 + a.toNat * 65536 = w := Option.some.inj h
  have h0 := d.isLt; have h1 := a.isLt; omega
theorem syncserve (a : BitVec 5) : Statement (.syncserve a) := by
  intro w h
  have e : 0x7C000007 + a.toNat * 65536 = w := Option.some.inj h
  have h0 := a.isLt; omega
theorem syncdone (a : BitVec 5) : Statement (.syncdone a) := by
  intro w h
  have e : 0x7C000008 + a.toNat * 65536 = w := Option.some.inj h
  have h0 := a.isLt; omega
theorem syncmode (d : BitVec 5) (a : BitVec 5) (b : BitVec 5) : Statement (.syncmode d a b) := by
  intro w h
  have e : 0x7C000009 + d.toNat * 2097152 + a.toNat * 65536 + b.toNat * 2048 = w := Option.some.inj h
  have h0 := d.isLt; have h1 := a.isLt; have h2 := b.isLt; omega
theorem syncpol (d : BitVec 5) (a : BitVec 5) (b : BitVec 5) : Statement (.syncpol d a b) := by
  intro w h
  have e : 0x7C00000A + d.toNat * 2097152 + a.toNat * 65536 + b.toNat * 2048 = w := Option.some.inj h
  have h0 := d.isLt; have h1 := a.isLt; have h2 := b.isLt; omega
theorem syncfree (a : BitVec 5) : Statement (.syncfree a) := by
  intro w h
  have e : 0x7C00000B + a.toNat * 65536 = w := Option.some.inj h
  have h0 := a.isLt; omega
theorem tcinit (a : BitVec 5) (b : BitVec 5) : Statement (.tcinit a b) := by
  intro w h
  have e : 0x80000000 + a.toNat * 65536 + b.toNat * 2048 = w := Option.some.inj h
  have h0 := a.isLt; have h1 := b.isLt; omega
theorem tcdec (a : BitVec 5) (b : BitVec 5) : Statement (.tcdec a b) := by
  intro w h
  have e : 0x80000001 + a.toNat * 65536 + b.toNat * 2048 = w := Option.some.inj h
  have h0 := a.isLt; have h1 := b.isLt; omega
theorem yield (b : BitVec 5) : Statement (.yield b) := by
  intro w h
  have e : 0x80000002 + b.toNat * 2048 = w := Option.some.inj h
  have h0 := b.isLt; omega
theorem exit : Statement (.exit) := by
  intro w h
  have e : 0x80000003 = w := Option.some.inj h
  omega
theorem quiesce : Statement (.quiesce) := by
  intro w h
  have e : 0x80000004 = w := Option.some.inj h
  omega
theorem dqpush (d : BitVec 5) (a : BitVec 5) (b : BitVec 5) : Statement (.dqpush d a b) := by
  intro w h
  have e : 0x84000000 + d.toNat * 2097152 + a.toNat * 65536 + b.toNat * 2048 = w := Option.some.inj h
  have h0 := d.isLt; have h1 := a.isLt; have h2 := b.isLt; omega
theorem dqpop (d : BitVec 5) : Statement (.dqpop d) := by
  intro w h
  have e : 0x84000001 + d.toNat * 2097152 = w := Option.some.inj h
  have h0 := d.isLt; omega
theorem dqsplit (d : BitVec 5) : Statement (.dqsplit d) := by
  intro w h
  have e : 0x84000002 + d.toNat * 2097152 = w := Option.some.inj h
  have h0 := d.isLt; omega
theorem dqsteal (d : BitVec 5) (a : BitVec 5) : Statement (.dqsteal d a) := by
  intro w h
  have e : 0x84000003 + d.toNat * 2097152 + a.toNat * 65536 = w := Option.some.inj h
  have h0 := d.isLt; have h1 := a.isLt; omega
theorem dqlen (d : BitVec 5) : Statement (.dqlen d) := by
  intro w h
  have e : 0x84000004 + d.toNat * 2097152 = w := Option.some.inj h
  have h0 := d.isLt; omega
theorem alloc (d : BitVec 5) (a : BitVec 5) : Statement (.alloc d a) := by
  intro w h
  have e : 0x88000000 + d.toNat * 2097152 + a.toNat * 65536 = w := Option.some.inj h
  have h0 := d.isLt; have h1 := a.isLt; omega
theorem free (a : BitVec 5) : Statement (.free a) := by
  intro w h
  have e : 0x88000001 + a.toNat * 65536 = w := Option.some.inj h
  have h0 := a.isLt; omega
theorem vldF32 (d : BitVec 4) (a : BitVec 5) (r : BitVec 1) (o : BitVec 12) : Statement (.vldF32 d a r o) := by
  intro w h
  have e : 0x8C000000 + d.toNat * 2097152 + a.toNat * 65536 + r.toNat * 4096 + o.toNat = w := Option.some.inj h
  have h0 := d.isLt; have h1 := a.isLt; have h2 := r.isLt; have h3 := o.isLt; omega
theorem vldF64 (d : BitVec 4) (a : BitVec 5) (r : BitVec 1) (o : BitVec 12) : Statement (.vldF64 d a r o) := by
  intro w h
  have e : 0x8C002000 + d.toNat * 2097152 + a.toNat * 65536 + r.toNat * 4096 + o.toNat = w := Option.some.inj h
  have h0 := d.isLt; have h1 := a.isLt; have h2 := r.isLt; have h3 := o.isLt; omega
theorem vldbF32 (d : BitVec 4) (a : BitVec 5) (r : BitVec 1) (o : BitVec 12) : Statement (.vldbF32 d a r o) := by
  intro w h
  have e : 0x8C004000 + d.toNat * 2097152 + a.toNat * 65536 + r.toNat * 4096 + o.toNat = w := Option.some.inj h
  have h0 := d.isLt; have h1 := a.isLt; have h2 := r.isLt; have h3 := o.isLt; omega
theorem vldbF64 (d : BitVec 4) (a : BitVec 5) (r : BitVec 1) (o : BitVec 12) : Statement (.vldbF64 d a r o) := by
  intro w h
  have e : 0x8C006000 + d.toNat * 2097152 + a.toNat * 65536 + r.toNat * 4096 + o.toNat = w := Option.some.inj h
  have h0 := d.isLt; have h1 := a.isLt; have h2 := r.isLt; have h3 := o.isLt; omega
theorem vstF32 (x_s : BitVec 4) (a : BitVec 5) (r : BitVec 1) (o : BitVec 12) : Statement (.vstF32 x_s a r o) := by
  intro w h
  have e : 0x90000000 + x_s.toNat * 2097152 + a.toNat * 65536 + r.toNat * 4096 + o.toNat = w := Option.some.inj h
  have h0 := x_s.isLt; have h1 := a.isLt; have h2 := r.isLt; have h3 := o.isLt; omega
theorem vstF64 (x_s : BitVec 4) (a : BitVec 5) (r : BitVec 1) (o : BitVec 12) : Statement (.vstF64 x_s a r o) := by
  intro w h
  have e : 0x90002000 + x_s.toNat * 2097152 + a.toNat * 65536 + r.toNat * 4096 + o.toNat = w := Option.some.inj h
  have h0 := x_s.isLt; have h1 := a.isLt; have h2 := r.isLt; have h3 := o.isLt; omega
theorem vadd (d : BitVec 5) (a : BitVec 5) (b : BitVec 5) (f : BitVec 3) (x_s : BitVec 1) : Statement (.vadd d a b f x_s) := by
  intro w h
  have e : 0x94000000 + d.toNat * 2097152 + a.toNat * 65536 + b.toNat * 2048 + f.toNat * 256 + x_s.toNat * 128 = w := Option.some.inj h
  have h0 := d.isLt; have h1 := a.isLt; have h2 := b.isLt; have h3 := f.isLt; have h4 := x_s.isLt; omega
theorem vsub (d : BitVec 5) (a : BitVec 5) (b : BitVec 5) (f : BitVec 3) (x_s : BitVec 1) : Statement (.vsub d a b f x_s) := by
  intro w h
  have e : 0x94000001 + d.toNat * 2097152 + a.toNat * 65536 + b.toNat * 2048 + f.toNat * 256 + x_s.toNat * 128 = w := Option.some.inj h
  have h0 := d.isLt; have h1 := a.isLt; have h2 := b.isLt; have h3 := f.isLt; have h4 := x_s.isLt; omega
theorem vmul (d : BitVec 5) (a : BitVec 5) (b : BitVec 5) (f : BitVec 3) (x_s : BitVec 1) : Statement (.vmul d a b f x_s) := by
  intro w h
  have e : 0x94000002 + d.toNat * 2097152 + a.toNat * 65536 + b.toNat * 2048 + f.toNat * 256 + x_s.toNat * 128 = w := Option.some.inj h
  have h0 := d.isLt; have h1 := a.isLt; have h2 := b.isLt; have h3 := f.isLt; have h4 := x_s.isLt; omega
theorem vmin (d : BitVec 5) (a : BitVec 5) (b : BitVec 5) (f : BitVec 3) : Statement (.vmin d a b f) := by
  intro w h
  have e : 0x94000003 + d.toNat * 2097152 + a.toNat * 65536 + b.toNat * 2048 + f.toNat * 256 = w := Option.some.inj h
  have h0 := d.isLt; have h1 := a.isLt; have h2 := b.isLt; have h3 := f.isLt; omega
theorem vmax (d : BitVec 5) (a : BitVec 5) (b : BitVec 5) (f : BitVec 3) : Statement (.vmax d a b f) := by
  intro w h
  have e : 0x94000004 + d.toNat * 2097152 + a.toNat * 65536 + b.toNat * 2048 + f.toNat * 256 = w := Option.some.inj h
  have h0 := d.isLt; have h1 := a.isLt; have h2 := b.isLt; have h3 := f.isLt; omega
theorem vminu (d : BitVec 5) (a : BitVec 5) (b : BitVec 5) (f : BitVec 3) : Statement (.vminu d a b f) := by
  intro w h
  have e : 0x94000005 + d.toNat * 2097152 + a.toNat * 65536 + b.toNat * 2048 + f.toNat * 256 = w := Option.some.inj h
  have h0 := d.isLt; have h1 := a.isLt; have h2 := b.isLt; have h3 := f.isLt; omega
theorem vmaxu (d : BitVec 5) (a : BitVec 5) (b : BitVec 5) (f : BitVec 3) : Statement (.vmaxu d a b f) := by
  intro w h
  have e : 0x94000006 + d.toNat * 2097152 + a.toNat * 65536 + b.toNat * 2048 + f.toNat * 256 = w := Option.some.inj h
  have h0 := d.isLt; have h1 := a.isLt; have h2 := b.isLt; have h3 := f.isLt; omega
theorem vand (d : BitVec 5) (a : BitVec 5) (b : BitVec 5) (f : BitVec 3) : Statement (.vand d a b f) := by
  intro w h
  have e : 0x94000007 + d.toNat * 2097152 + a.toNat * 65536 + b.toNat * 2048 + f.toNat * 256 = w := Option.some.inj h
  have h0 := d.isLt; have h1 := a.isLt; have h2 := b.isLt; have h3 := f.isLt; omega
theorem vor (d : BitVec 5) (a : BitVec 5) (b : BitVec 5) (f : BitVec 3) : Statement (.vor d a b f) := by
  intro w h
  have e : 0x94000008 + d.toNat * 2097152 + a.toNat * 65536 + b.toNat * 2048 + f.toNat * 256 = w := Option.some.inj h
  have h0 := d.isLt; have h1 := a.isLt; have h2 := b.isLt; have h3 := f.isLt; omega
theorem vxor (d : BitVec 5) (a : BitVec 5) (b : BitVec 5) (f : BitVec 3) : Statement (.vxor d a b f) := by
  intro w h
  have e : 0x94000009 + d.toNat * 2097152 + a.toNat * 65536 + b.toNat * 2048 + f.toNat * 256 = w := Option.some.inj h
  have h0 := d.isLt; have h1 := a.isLt; have h2 := b.isLt; have h3 := f.isLt; omega
theorem vsll (d : BitVec 5) (a : BitVec 5) (b : BitVec 5) (f : BitVec 3) : Statement (.vsll d a b f) := by
  intro w h
  have e : 0x9400000A + d.toNat * 2097152 + a.toNat * 65536 + b.toNat * 2048 + f.toNat * 256 = w := Option.some.inj h
  have h0 := d.isLt; have h1 := a.isLt; have h2 := b.isLt; have h3 := f.isLt; omega
theorem vsrl (d : BitVec 5) (a : BitVec 5) (b : BitVec 5) (f : BitVec 3) : Statement (.vsrl d a b f) := by
  intro w h
  have e : 0x9400000B + d.toNat * 2097152 + a.toNat * 65536 + b.toNat * 2048 + f.toNat * 256 = w := Option.some.inj h
  have h0 := d.isLt; have h1 := a.isLt; have h2 := b.isLt; have h3 := f.isLt; omega
theorem vsra (d : BitVec 5) (a : BitVec 5) (b : BitVec 5) (f : BitVec 3) : Statement (.vsra d a b f) := by
  intro w h
  have e : 0x9400000C + d.toNat * 2097152 + a.toNat * 65536 + b.toNat * 2048 + f.toNat * 256 = w := Option.some.inj h
  have h0 := d.isLt; have h1 := a.isLt; have h2 := b.isLt; have h3 := f.isLt; omega
theorem vcmpeq (d : BitVec 5) (a : BitVec 5) (b : BitVec 5) (f : BitVec 3) : Statement (.vcmpeq d a b f) := by
  intro w h
  have e : 0x9400000D + d.toNat * 2097152 + a.toNat * 65536 + b.toNat * 2048 + f.toNat * 256 = w := Option.some.inj h
  have h0 := d.isLt; have h1 := a.isLt; have h2 := b.isLt; have h3 := f.isLt; omega
theorem vcmplt (d : BitVec 5) (a : BitVec 5) (b : BitVec 5) (f : BitVec 3) : Statement (.vcmplt d a b f) := by
  intro w h
  have e : 0x9400000E + d.toNat * 2097152 + a.toNat * 65536 + b.toNat * 2048 + f.toNat * 256 = w := Option.some.inj h
  have h0 := d.isLt; have h1 := a.isLt; have h2 := b.isLt; have h3 := f.isLt; omega
theorem vcmpltu (d : BitVec 5) (a : BitVec 5) (b : BitVec 5) (f : BitVec 3) : Statement (.vcmpltu d a b f) := by
  intro w h
  have e : 0x9400000F + d.toNat * 2097152 + a.toNat * 65536 + b.toNat * 2048 + f.toNat * 256 = w := Option.some.inj h
  have h0 := d.isLt; have h1 := a.isLt; have h2 := b.isLt; have h3 := f.isLt; omega
theorem vsel (d : BitVec 5) (a : BitVec 5) (b : BitVec 5) (f : BitVec 3) : Statement (.vsel d a b f) := by
  intro w h
  have e : 0x94000010 + d.toNat * 2097152 + a.toNat * 65536 + b.toNat * 2048 + f.toNat * 256 = w := Option.some.inj h
  have h0 := d.isLt; have h1 := a.isLt; have h2 := b.isLt; have h3 := f.isLt; omega
theorem vpsum (d : BitVec 5) (a : BitVec 5) (f : BitVec 3) (x_s : BitVec 1) : Statement (.vpsum d a f x_s) := by
  intro w h
  have e : 0x94000011 + d.toNat * 2097152 + a.toNat * 65536 + f.toNat * 256 + x_s.toNat * 128 = w := Option.some.inj h
  have h0 := d.isLt; have h1 := a.isLt; have h2 := f.isLt; have h3 := x_s.isLt; omega
theorem vwacc (d : BitVec 5) (a : BitVec 5) (b : BitVec 5) (f : BitVec 3) (x_s : BitVec 1) : Statement (.vwacc d a b f x_s) := by
  intro w h
  have e : 0x94000012 + d.toNat * 2097152 + a.toNat * 65536 + b.toNat * 2048 + f.toNat * 256 + x_s.toNat * 128 = w := Option.some.inj h
  have h0 := d.isLt; have h1 := a.isLt; have h2 := b.isLt; have h3 := f.isLt; have h4 := x_s.isLt; omega
theorem vdot4 (d : BitVec 5) (a : BitVec 5) (b : BitVec 5) (f : BitVec 3) (x_s : BitVec 1) : Statement (.vdot4 d a b f x_s) := by
  intro w h
  have e : 0x94000013 + d.toNat * 2097152 + a.toNat * 65536 + b.toNat * 2048 + f.toNat * 256 + x_s.toNat * 128 = w := Option.some.inj h
  have h0 := d.isLt; have h1 := a.isLt; have h2 := b.isLt; have h3 := f.isLt; have h4 := x_s.isLt; omega
theorem vpsumF32 (d : BitVec 5) (a : BitVec 5) : Statement (.vpsumF32 d a) := by
  intro w h
  have e : 0x94000031 + d.toNat * 2097152 + a.toNat * 65536 = w := Option.some.inj h
  have h0 := d.isLt; have h1 := a.isLt; omega
theorem vfadd (d : BitVec 4) (a : BitVec 5) (b : BitVec 5) (f : BitVec 3) : Statement (.vfadd d a b f) := by
  intro w h
  have e : 0x98000000 + d.toNat * 2097152 + a.toNat * 65536 + b.toNat * 2048 + f.toNat * 256 = w := Option.some.inj h
  have h0 := d.isLt; have h1 := a.isLt; have h2 := b.isLt; have h3 := f.isLt; omega
theorem vfsub (d : BitVec 4) (a : BitVec 5) (b : BitVec 5) (f : BitVec 3) : Statement (.vfsub d a b f) := by
  intro w h
  have e : 0x98000001 + d.toNat * 2097152 + a.toNat * 65536 + b.toNat * 2048 + f.toNat * 256 = w := Option.some.inj h
  have h0 := d.isLt; have h1 := a.isLt; have h2 := b.isLt; have h3 := f.isLt; omega
theorem vfmul (d : BitVec 4) (a : BitVec 5) (b : BitVec 5) (f : BitVec 3) : Statement (.vfmul d a b f) := by
  intro w h
  have e : 0x98000002 + d.toNat * 2097152 + a.toNat * 65536 + b.toNat * 2048 + f.toNat * 256 = w := Option.some.inj h
  have h0 := d.isLt; have h1 := a.isLt; have h2 := b.isLt; have h3 := f.isLt; omega
theorem vfdiv (d : BitVec 4) (a : BitVec 5) (b : BitVec 5) (f : BitVec 3) : Statement (.vfdiv d a b f) := by
  intro w h
  have e : 0x98000003 + d.toNat * 2097152 + a.toNat * 65536 + b.toNat * 2048 + f.toNat * 256 = w := Option.some.inj h
  have h0 := d.isLt; have h1 := a.isLt; have h2 := b.isLt; have h3 := f.isLt; omega
theorem vfsqrt (d : BitVec 4) (a : BitVec 5) (f : BitVec 3) : Statement (.vfsqrt d a f) := by
  intro w h
  have e : 0x98000004 + d.toNat * 2097152 + a.toNat * 65536 + f.toNat * 256 = w := Option.some.inj h
  have h0 := d.isLt; have h1 := a.isLt; have h2 := f.isLt; omega
theorem vfmin (d : BitVec 4) (a : BitVec 5) (b : BitVec 5) (f : BitVec 3) : Statement (.vfmin d a b f) := by
  intro w h
  have e : 0x98000005 + d.toNat * 2097152 + a.toNat * 65536 + b.toNat * 2048 + f.toNat * 256 = w := Option.some.inj h
  have h0 := d.isLt; have h1 := a.isLt; have h2 := b.isLt; have h3 := f.isLt; omega
theorem vfmax (d : BitVec 4) (a : BitVec 5) (b : BitVec 5) (f : BitVec 3) : Statement (.vfmax d a b f) := by
  intro w h
  have e : 0x98000006 + d.toNat * 2097152 + a.toNat * 65536 + b.toNat * 2048 + f.toNat * 256 = w := Option.some.inj h
  have h0 := d.isLt; have h1 := a.isLt; have h2 := b.isLt; have h3 := f.isLt; omega
theorem vfabs (d : BitVec 4) (a : BitVec 5) (f : BitVec 3) : Statement (.vfabs d a f) := by
  intro w h
  have e : 0x98000007 + d.toNat * 2097152 + a.toNat * 65536 + f.toNat * 256 = w := Option.some.inj h
  have h0 := d.isLt; have h1 := a.isLt; have h2 := f.isLt; omega
theorem vfneg (d : BitVec 4) (a : BitVec 5) (f : BitVec 3) : Statement (.vfneg d a f) := by
  intro w h
  have e : 0x98000008 + d.toNat * 2097152 + a.toNat * 65536 + f.toNat * 256 = w := Option.some.inj h
  have h0 := d.isLt; have h1 := a.isLt; have h2 := f.isLt; omega
theorem vfcmpeq (p : BitVec 4) (a : BitVec 5) (b : BitVec 5) (f : BitVec 3) : Statement (.vfcmpeq p a b f) := by
  intro w h
  have e : 0x98000009 + p.toNat * 2097152 + a.toNat * 65536 + b.toNat * 2048 + f.toNat * 256 = w := Option.some.inj h
  have h0 := p.isLt; have h1 := a.isLt; have h2 := b.isLt; have h3 := f.isLt; omega
theorem vfcmplt (p : BitVec 4) (a : BitVec 5) (b : BitVec 5) (f : BitVec 3) : Statement (.vfcmplt p a b f) := by
  intro w h
  have e : 0x9800000A + p.toNat * 2097152 + a.toNat * 65536 + b.toNat * 2048 + f.toNat * 256 = w := Option.some.inj h
  have h0 := p.isLt; have h1 := a.isLt; have h2 := b.isLt; have h3 := f.isLt; omega
theorem vfcmple (p : BitVec 4) (a : BitVec 5) (b : BitVec 5) (f : BitVec 3) : Statement (.vfcmple p a b f) := by
  intro w h
  have e : 0x9800000B + p.toNat * 2097152 + a.toNat * 65536 + b.toNat * 2048 + f.toNat * 256 = w := Option.some.inj h
  have h0 := p.isLt; have h1 := a.isLt; have h2 := b.isLt; have h3 := f.isLt; omega
theorem vfclass (d : BitVec 4) (a : BitVec 5) (f : BitVec 3) : Statement (.vfclass d a f) := by
  intro w h
  have e : 0x9800000C + d.toNat * 2097152 + a.toNat * 65536 + f.toNat * 256 = w := Option.some.inj h
  have h0 := d.isLt; have h1 := a.isLt; have h2 := f.isLt; omega
theorem vfma (d : BitVec 5) (a : BitVec 5) (b : BitVec 5) (c : BitVec 5) (f : BitVec 3) : Statement (.vfma d a b c f) := by
  intro w h
  have e : 0x9C000000 + d.toNat * 2097152 + a.toNat * 65536 + b.toNat * 2048 + c.toNat * 64 + f.toNat * 8 = w := Option.some.inj h
  have h0 := d.isLt; have h1 := a.isLt; have h2 := b.isLt; have h3 := c.isLt; have h4 := f.isLt; omega
theorem vfms (d : BitVec 5) (a : BitVec 5) (b : BitVec 5) (c : BitVec 5) (f : BitVec 3) : Statement (.vfms d a b c f) := by
  intro w h
  have e : 0x9C000001 + d.toNat * 2097152 + a.toNat * 65536 + b.toNat * 2048 + c.toNat * 64 + f.toNat * 8 = w := Option.some.inj h
  have h0 := d.isLt; have h1 := a.isLt; have h2 := b.isLt; have h3 := c.isLt; have h4 := f.isLt; omega
theorem vfnma (d : BitVec 5) (a : BitVec 5) (b : BitVec 5) (c : BitVec 5) (f : BitVec 3) : Statement (.vfnma d a b c f) := by
  intro w h
  have e : 0x9C000002 + d.toNat * 2097152 + a.toNat * 65536 + b.toNat * 2048 + c.toNat * 64 + f.toNat * 8 = w := Option.some.inj h
  have h0 := d.isLt; have h1 := a.isLt; have h2 := b.isLt; have h3 := c.isLt; have h4 := f.isLt; omega
theorem vfnms (d : BitVec 5) (a : BitVec 5) (b : BitVec 5) (c : BitVec 5) (f : BitVec 3) : Statement (.vfnms d a b c f) := by
  intro w h
  have e : 0x9C000003 + d.toNat * 2097152 + a.toNat * 65536 + b.toNat * 2048 + c.toNat * 64 + f.toNat * 8 = w := Option.some.inj h
  have h0 := d.isLt; have h1 := a.isLt; have h2 := b.isLt; have h3 := c.isLt; have h4 := f.isLt; omega
theorem vexp2 (d : BitVec 5) (a : BitVec 5) (f : BitVec 3) : Statement (.vexp2 d a f) := by
  intro w h
  have e : 0xA0000000 + d.toNat * 2097152 + a.toNat * 65536 + f.toNat * 256 = w := Option.some.inj h
  have h0 := d.isLt; have h1 := a.isLt; have h2 := f.isLt; omega
theorem vlog2 (d : BitVec 5) (a : BitVec 5) (f : BitVec 3) : Statement (.vlog2 d a f) := by
  intro w h
  have e : 0xA0000001 + d.toNat * 2097152 + a.toNat * 65536 + f.toNat * 256 = w := Option.some.inj h
  have h0 := d.isLt; have h1 := a.isLt; have h2 := f.isLt; omega
theorem vrcp (d : BitVec 5) (a : BitVec 5) (f : BitVec 3) : Statement (.vrcp d a f) := by
  intro w h
  have e : 0xA0000002 + d.toNat * 2097152 + a.toNat * 65536 + f.toNat * 256 = w := Option.some.inj h
  have h0 := d.isLt; have h1 := a.isLt; have h2 := f.isLt; omega
theorem vrsq (d : BitVec 5) (a : BitVec 5) (f : BitVec 3) : Statement (.vrsq d a f) := by
  intro w h
  have e : 0xA0000003 + d.toNat * 2097152 + a.toNat * 65536 + f.toNat * 256 = w := Option.some.inj h
  have h0 := d.isLt; have h1 := a.isLt; have h2 := f.isLt; omega
theorem sigget (d : BitVec 5) (a : BitVec 5) (f : BitVec 3) : Statement (.sigget d a f) := by
  intro w h
  have e : 0xA4000000 + d.toNat * 2097152 + a.toNat * 65536 + f.toNat * 256 = w := Option.some.inj h
  have h0 := d.isLt; have h1 := a.isLt; have h2 := f.isLt; omega
theorem sigset (d : BitVec 5) (b : BitVec 5) (f : BitVec 3) : Statement (.sigset d b f) := by
  intro w h
  have e : 0xA4000001 + d.toNat * 2097152 + b.toNat * 2048 + f.toNat * 256 = w := Option.some.inj h
  have h0 := d.isLt; have h1 := b.isLt; have h2 := f.isLt; omega
theorem sigmin (d : BitVec 5) (a : BitVec 5) (f : BitVec 3) : Statement (.sigmin d a f) := by
  intro w h
  have e : 0xA4000002 + d.toNat * 2097152 + a.toNat * 65536 + f.toNat * 256 = w := Option.some.inj h
  have h0 := d.isLt; have h1 := a.isLt; have h2 := f.isLt; omega
theorem bsig (v : BitVec 4) (b : BitVec 5) (d : BitVec 16) : Statement (.bsig v b d) := by
  intro w h
  have e : 0xA8000000 + v.toNat * 2097152 + b.toNat * 65536 + d.toNat = w := Option.some.inj h
  have h0 := v.isLt; have h1 := b.isLt; have h2 := d.isLt; omega
theorem vsplat (d : BitVec 5) (a : BitVec 5) (k : BitVec 5) (f : BitVec 3) : Statement (.vsplat d a k f) := by
  intro w h
  have e : 0xAC000000 + d.toNat * 2097152 + a.toNat * 65536 + k.toNat * 2048 + f.toNat * 256 = w := Option.some.inj h
  have h0 := d.isLt; have h1 := a.isLt; have h2 := k.isLt; have h3 := f.isLt; omega
theorem vins (d : BitVec 5) (a : BitVec 5) (k : BitVec 5) (f : BitVec 3) : Statement (.vins d a k f) := by
  intro w h
  have e : 0xAC000001 + d.toNat * 2097152 + a.toNat * 65536 + k.toNat * 2048 + f.toNat * 256 = w := Option.some.inj h
  have h0 := d.isLt; have h1 := a.isLt; have h2 := k.isLt; have h3 := f.isLt; omega
theorem vext (d : BitVec 5) (a : BitVec 5) (k : BitVec 5) (f : BitVec 3) : Statement (.vext d a k f) := by
  intro w h
  have e : 0xAC000002 + d.toNat * 2097152 + a.toNat * 65536 + k.toNat * 2048 + f.toNat * 256 = w := Option.some.inj h
  have h0 := d.isLt; have h1 := a.isLt; have h2 := k.isLt; have h3 := f.isLt; omega
theorem vperm (d : BitVec 5) (a : BitVec 5) (b : BitVec 5) (f : BitVec 3) : Statement (.vperm d a b f) := by
  intro w h
  have e : 0xAC000003 + d.toNat * 2097152 + a.toNat * 65536 + b.toNat * 2048 + f.toNat * 256 = w := Option.some.inj h
  have h0 := d.isLt; have h1 := a.isLt; have h2 := b.isLt; have h3 := f.isLt; omega
theorem vhadd (d : BitVec 5) (a : BitVec 5) (f : BitVec 3) : Statement (.vhadd d a f) := by
  intro w h
  have e : 0xAC000004 + d.toNat * 2097152 + a.toNat * 65536 + f.toNat * 256 = w := Option.some.inj h
  have h0 := d.isLt; have h1 := a.isLt; have h2 := f.isLt; omega
theorem vcvt (d : BitVec 5) (a : BitVec 5) (b : BitVec 5) (f : BitVec 3) (t : BitVec 4) (x_s : BitVec 4) : Statement (.vcvt d a b f t x_s) := by
  intro w h
  have e : 0xB0000000 + d.toNat * 2097152 + a.toNat * 65536 + b.toNat * 2048 + f.toNat * 256 + t.toNat * 16 + x_s.toNat = w := Option.some.inj h
  have h0 := d.isLt; have h1 := a.isLt; have h2 := b.isLt; have h3 := f.isLt; have h4 := t.isLt; have h5 := x_s.isLt; omega
theorem vcvti (d : BitVec 5) (a : BitVec 5) (b : BitVec 5) (f : BitVec 3) (t : BitVec 4) (x_s : BitVec 4) : Statement (.vcvti d a b f t x_s) := by
  intro w h
  have e : 0xB0000000 + d.toNat * 2097152 + a.toNat * 65536 + b.toNat * 2048 + f.toNat * 256 + t.toNat * 16 + x_s.toNat = w := Option.some.inj h
  have h0 := d.isLt; have h1 := a.isLt; have h2 := b.isLt; have h3 := f.isLt; have h4 := t.isLt; have h5 := x_s.isLt; omega
theorem mgang : Statement (.mgang) := by
  intro w h
  have e : 0xB4000000 = w := Option.some.inj h
  omega
theorem mldw (a : BitVec 5) : Statement (.mldw a) := by
  intro w h
  have e : 0xB4000100 + a.toNat * 2097152 = w := Option.some.inj h
  have h0 := a.isLt; omega
theorem mtld (a : BitVec 5) : Statement (.mtld a) := by
  intro w h
  have e : 0xB4000200 + a.toNat * 2097152 = w := Option.some.inj h
  have h0 := a.isLt; omega
theorem mswap : Statement (.mswap) := by
  intro w h
  have e : 0xB4000300 = w := Option.some.inj h
  omega
theorem mzero : Statement (.mzero) := by
  intro w h
  have e : 0xB4000400 = w := Option.some.inj h
  omega
theorem mstrm (a : BitVec 5) : Statement (.mstrm a) := by
  intro w h
  have e : 0xB4000500 + a.toNat * 2097152 = w := Option.some.inj h
  have h0 := a.isLt; omega
theorem mgrp (a : BitVec 5) (b : BitVec 5) (g : BitVec 8) : Statement (.mgrp a b g) := by
  intro w h
  have e : 0xB4000600 + a.toNat * 2097152 + b.toNat * 65536 + g.toNat = w := Option.some.inj h
  have h0 := a.isLt; have h1 := b.isLt; have h2 := g.isLt; omega
theorem mdrain (b : BitVec 5) : Statement (.mdrain b) := by
  intro w h
  have e : 0xB4000700 + b.toNat * 65536 = w := Option.some.inj h
  have h0 := b.isLt; omega
theorem mstat : Statement (.mstat) := by
  intro w h
  have e : 0xB4000800 = w := Option.some.inj h
  omega
theorem anorm (a : BitVec 5) (b : BitVec 5) : Statement (.anorm a b) := by
  intro w h
  have e : 0xB8000000 + a.toNat * 2097152 + b.toNat * 65536 = w := Option.some.inj h
  have h0 := a.isLt; have h1 := b.isLt; omega
theorem acert (a : BitVec 5) : Statement (.acert a) := by
  intro w h
  have e : 0xB8000100 + a.toNat * 2097152 = w := Option.some.inj h
  have h0 := a.isLt; omega
theorem afetch (a : BitVec 5) : Statement (.afetch a) := by
  intro w h
  have e : 0xB8000200 + a.toNat * 2097152 = w := Option.some.inj h
  have h0 := a.isLt; omega
theorem mcovi (b : BitVec 5) : Statement (.mcovi b) := by
  intro w h
  have e : 0xBC000000 + b.toNat * 65536 = w := Option.some.inj h
  have h0 := b.isLt; omega
theorem mcovp (a : BitVec 5) (b : BitVec 5) (r : BitVec 8) : Statement (.mcovp a b r) := by
  intro w h
  have e : 0xBC000100 + a.toNat * 2097152 + b.toNat * 65536 + r.toNat = w := Option.some.inj h
  have h0 := a.isLt; have h1 := b.isLt; have h2 := r.isLt; omega
theorem mcovc (a : BitVec 5) (b : BitVec 5) : Statement (.mcovc a b) := by
  intro w h
  have e : 0xBC000200 + a.toNat * 2097152 + b.toNat * 65536 = w := Option.some.inj h
  have h0 := a.isLt; have h1 := b.isLt; omega
theorem mcovr (a : BitVec 5) (b : BitVec 5) : Statement (.mcovr a b) := by
  intro w h
  have e : 0xBC000300 + a.toNat * 2097152 + b.toNat * 65536 = w := Option.some.inj h
  have h0 := a.isLt; have h1 := b.isLt; omega
theorem ecw (b : BitVec 5) (i : BitVec 8) : Statement (.ecw b i) := by
  intro w h
  have e : 0xC0000000 + b.toNat * 65536 + i.toNat = w := Option.some.inj h
  have h0 := b.isLt; have h1 := i.isLt; omega
theorem ecr (i : BitVec 8) : Statement (.ecr i) := by
  intro w h
  have e : 0xC0000100 + i.toNat = w := Option.some.inj h
  have h0 := i.isLt; omega
theorem ego : Statement (.ego) := by
  intro w h
  have e : 0xC0000200 = w := Option.some.inj h
  omega
theorem ewait (b : BitVec 5) : Statement (.ewait b) := by
  intro w h
  have e : 0xC0000300 + b.toNat * 65536 = w := Option.some.inj h
  have h0 := b.isLt; omega
theorem cbinit (a : BitVec 5) (n : BitVec 4) : Statement (.cbinit a n) := by
  intro w h
  have e : 0xC4000000 + a.toNat * 2097152 + n.toNat = w := Option.some.inj h
  have h0 := a.isLt; have h1 := n.isLt; omega
theorem cbacq (n : BitVec 4) : Statement (.cbacq n) := by
  intro w h
  have e : 0xC4000100 + n.toNat = w := Option.some.inj h
  have h0 := n.isLt; omega
theorem cbrel (n : BitVec 4) : Statement (.cbrel n) := by
  intro w h
  have e : 0xC4000200 + n.toNat = w := Option.some.inj h
  have h0 := n.isLt; omega
theorem cbstat (n : BitVec 4) : Statement (.cbstat n) := by
  intro w h
  have e : 0xC4000300 + n.toNat = w := Option.some.inj h
  have h0 := n.isLt; omega
theorem syscall (c : BitVec 12) : Statement (.syscall c) := by
  intro w h
  have e : 0xC8000000 + c.toNat * 16 = w := Option.some.inj h
  have h0 := c.isLt; omega
theorem trap (c : BitVec 12) : Statement (.trap c) := by
  intro w h
  have e : 0xC8000001 + c.toNat * 16 = w := Option.some.inj h
  have h0 := c.isLt; omega
theorem eret : Statement (.eret) := by
  intro w h
  have e : 0xC8000002 = w := Option.some.inj h
  omega
theorem brk (c : BitVec 12) : Statement (.brk c) := by
  intro w h
  have e : 0xC8000003 + c.toNat * 16 = w := Option.some.inj h
  have h0 := c.isLt; omega
theorem nop : Statement (.nop) := by
  intro w h
  have e : 0xC8000004 = w := Option.some.inj h
  omega
theorem tstamp (d : BitVec 5) : Statement (.tstamp d) := by
  intro w h
  have e : 0xC8000005 + d.toNat * 2097152 = w := Option.some.inj h
  have h0 := d.isLt; omega
theorem trig (d : BitVec 5) (a : BitVec 5) (c : BitVec 12) : Statement (.trig d a c) := by
  intro w h
  have e : 0xC8000006 + d.toNat * 2097152 + a.toNat * 65536 + c.toNat * 16 = w := Option.some.inj h
  have h0 := d.isLt; have h1 := a.isLt; have h2 := c.isLt; omega
theorem ptblw (x_h : BitVec 5) (l : BitVec 5) : Statement (.ptblw x_h l) := by
  intro w h
  have e : 0xC8000007 + x_h.toNat * 2097152 + l.toNat * 65536 = w := Option.some.inj h
  have h0 := x_h.isLt; have h1 := l.isLt; omega
theorem csrr (d : BitVec 5) (c : BitVec 12) : Statement (.csrr d c) := by
  intro w h
  have e : 0xCC000000 + d.toNat * 2097152 + c.toNat * 16 = w := Option.some.inj h
  have h0 := d.isLt; have h1 := c.isLt; omega
theorem csrw (d : BitVec 5) (a : BitVec 5) (c : BitVec 12) : Statement (.csrw d a c) := by
  intro w h
  have e : 0xCC000001 + d.toNat * 2097152 + a.toNat * 65536 + c.toNat * 16 = w := Option.some.inj h
  have h0 := d.isLt; have h1 := a.isLt; have h2 := c.isLt; omega
theorem csrs (d : BitVec 5) (a : BitVec 5) (c : BitVec 12) : Statement (.csrs d a c) := by
  intro w h
  have e : 0xCC000002 + d.toNat * 2097152 + a.toNat * 65536 + c.toNat * 16 = w := Option.some.inj h
  have h0 := d.isLt; have h1 := a.isLt; have h2 := c.isLt; omega
theorem csrc (d : BitVec 5) (a : BitVec 5) (c : BitVec 12) : Statement (.csrc d a c) := by
  intro w h
  have e : 0xCC000003 + d.toNat * 2097152 + a.toNat * 65536 + c.toNat * 16 = w := Option.some.inj h
  have h0 := d.isLt; have h1 := a.isLt; have h2 := c.isLt; omega
theorem launch (d : BitVec 5) (a : BitVec 5) : Statement (.launch d a) := by
  intro w h
  have e : 0xD0000000 + d.toNat * 2097152 + a.toNat * 65536 = w := Option.some.inj h
  have h0 := d.isLt; have h1 := a.isLt; omega
theorem lwait (d : BitVec 5) (a : BitVec 5) : Statement (.lwait d a) := by
  intro w h
  have e : 0xD0000001 + d.toNat * 2097152 + a.toNat * 65536 = w := Option.some.inj h
  have h0 := d.isLt; have h1 := a.isLt; omega
theorem stagedTableGoesLive (core : Nat) : Statement (.stagedTableGoesLive core) := fun _ h => nomatch (h : (none : Option Nat) = some _)
theorem trapEntry (core : Nat) (slot : Nat) : Statement (.trapEntry core slot) := fun _ h => nomatch (h : (none : Option Nat) = some _)
theorem slotTakesWork (core : Nat) : Statement (.slotTakesWork core) := fun _ h => nomatch (h : (none : Option Nat) = some _)
theorem contextPacketAdmission (id : Nat) : Statement (.contextPacketAdmission id) := fun _ h => nomatch (h : (none : Option Nat) = some _)
theorem migrationReply (id : Nat) : Statement (.migrationReply id) := fun _ h => nomatch (h : (none : Option Nat) = some _)
theorem refusalBackoffExpiry (id : Nat) : Statement (.refusalBackoffExpiry id) := fun _ h => nomatch (h : (none : Option Nat) = some _)
theorem forwardingEntryExpiry (core : Nat) (slot : Nat) : Statement (.forwardingEntryExpiry core slot) := fun _ h => nomatch (h : (none : Option Nat) = some _)
theorem lateReplyAtOrigin (core : Nat) (slot : Nat) : Statement (.lateReplyAtOrigin core slot) := fun _ h => nomatch (h : (none : Option Nat) = some _)
theorem tcdecArrival (id : Nat) : Statement (.tcdecArrival id) := fun _ h => nomatch (h : (none : Option Nat) = some _)
theorem quiesceSweep (launch : Nat) : Statement (.quiesceSweep launch) := fun _ h => nomatch (h : (none : Option Nat) = some _)
theorem activeMessage (id : Nat) : Statement (.activeMessage id) := fun _ h => nomatch (h : (none : Option Nat) = some _)
theorem dequeStealServed (id : Nat) : Statement (.dequeStealServed id) := fun _ h => nomatch (h : (none : Option Nat) = some _)
theorem accessReply (id : Nat) : Statement (.accessReply id) := fun _ h => nomatch (h : (none : Option Nat) = some _)
theorem fireAndForgetAck (id : Nat) : Statement (.fireAndForgetAck id) := fun _ h => nomatch (h : (none : Option Nat) = some _)
theorem edgeCoreServe (id : Nat) : Statement (.edgeCoreServe id) := fun _ h => nomatch (h : (none : Option Nat) = some _)
theorem specialFunctionResult (core : Nat) (slot : Nat) : Statement (.specialFunctionResult core slot) := fun _ h => nomatch (h : (none : Option Nat) = some _)
theorem anormResult (core : Nat) (slot : Nat) : Statement (.anormResult core slot) := fun _ h => nomatch (h : (none : Option Nat) = some _)
theorem allocatorEngineStep (id : Nat) : Statement (.allocatorEngineStep id) := fun _ h => nomatch (h : (none : Option Nat) = some _)
theorem acqAtHome (id : Nat) : Statement (.acqAtHome id) := fun _ h => nomatch (h : (none : Option Nat) = some _)
theorem tryacqAtHome (id : Nat) : Statement (.tryacqAtHome id) := fun _ h => nomatch (h : (none : Option Nat) = some _)
theorem relAtHome (id : Nat) : Statement (.relAtHome id) := fun _ h => nomatch (h : (none : Option Nat) = some _)
theorem lockrunAtHome (id : Nat) : Statement (.lockrunAtHome id) := fun _ h => nomatch (h : (none : Option Nat) = some _)
theorem syncserveAtHome (id : Nat) : Statement (.syncserveAtHome id) := fun _ h => nomatch (h : (none : Option Nat) = some _)
theorem directArrival (id : Nat) : Statement (.directArrival id) := fun _ h => nomatch (h : (none : Option Nat) = some _)
theorem combinedArrival (id : Nat) : Statement (.combinedArrival id) := fun _ h => nomatch (h : (none : Option Nat) = some _)
theorem engineArrival (id : Nat) : Statement (.engineArrival id) := fun _ h => nomatch (h : (none : Option Nat) = some _)
theorem syncdoneAtHome (id : Nat) : Statement (.syncdoneAtHome id) := fun _ h => nomatch (h : (none : Option Nat) = some _)
theorem syncpolAtHome (id : Nat) : Statement (.syncpolAtHome id) := fun _ h => nomatch (h : (none : Option Nat) = some _)
theorem syncfreeAtHome (id : Nat) : Statement (.syncfreeAtHome id) := fun _ h => nomatch (h : (none : Option Nat) = some _)
theorem ownerDeparture (id : Nat) : Statement (.ownerDeparture id) := fun _ h => nomatch (h : (none : Option Nat) = some _)
theorem killMark (id : Nat) : Statement (.killMark id) := fun _ h => nomatch (h : (none : Option Nat) = some _)
theorem releaseReachesCore (id : Nat) (core : Nat) : Statement (.releaseReachesCore id core) := fun _ h => nomatch (h : (none : Option Nat) = some _)
theorem nodeArming (id : Nat) : Statement (.nodeArming id) := fun _ h => nomatch (h : (none : Option Nat) = some _)
theorem nodeForward (desc : Nat) (level : Nat) (unit : Nat) : Statement (.nodeForward desc level unit) := fun _ h => nomatch (h : (none : Option Nat) = some _)
theorem delegatedWorkAtOwner (id : Nat) : Statement (.delegatedWorkAtOwner id) := fun _ h => nomatch (h : (none : Option Nat) = some _)
theorem lockrunResult (id : Nat) : Statement (.lockrunResult id) := fun _ h => nomatch (h : (none : Option Nat) = some _)
theorem mailboxDelivery (id : Nat) : Statement (.mailboxDelivery id) := fun _ h => nomatch (h : (none : Option Nat) = some _)
theorem appendAtRing (id : Nat) : Statement (.appendAtRing id) := fun _ h => nomatch (h : (none : Option Nat) = some _)
theorem appendRetry (ring : Nat) : Statement (.appendRetry ring) := fun _ h => nomatch (h : (none : Option Nat) = some _)
theorem contextGone (sender : BitVec 64) : Statement (.contextGone sender) := fun _ h => nomatch (h : (none : Option Nat) = some _)
theorem jobStart (tile : Nat) : Statement (.jobStart tile) := fun _ h => nomatch (h : (none : Option Nat) = some _)
theorem cbSlotStart (tile : Nat) : Statement (.cbSlotStart tile) := fun _ h => nomatch (h : (none : Option Nat) = some _)
theorem cbSlotFilled (tile : Nat) : Statement (.cbSlotFilled tile) := fun _ h => nomatch (h : (none : Option Nat) = some _)
theorem jobCompletion (tile : Nat) : Statement (.jobCompletion tile) := fun _ h => nomatch (h : (none : Option Nat) = some _)
theorem jobSuspension (tile : Nat) : Statement (.jobSuspension tile) := fun _ h => nomatch (h : (none : Option Nat) = some _)
theorem rangeTableRoom (core : Nat) (slot : Nat) : Statement (.rangeTableRoom core slot) := fun _ h => nomatch (h : (none : Option Nat) = some _)
theorem gangJoin (tile : Nat) : Statement (.gangJoin tile) := fun _ h => nomatch (h : (none : Option Nat) = some _)
theorem mgangRelease (tile : Nat) : Statement (.mgangRelease tile) := fun _ h => nomatch (h : (none : Option Nat) = some _)
theorem gangLeave (core : Nat) : Statement (.gangLeave core) := fun _ h => nomatch (h : (none : Option Nat) = some _)
theorem shadowLoad (tile : Nat) : Statement (.shadowLoad tile) := fun _ h => nomatch (h : (none : Option Nat) = some _)
theorem planeSwap (tile : Nat) : Statement (.planeSwap tile) := fun _ h => nomatch (h : (none : Option Nat) = some _)
theorem accumulatorZero (tile : Nat) : Statement (.accumulatorZero tile) := fun _ h => nomatch (h : (none : Option Nat) = some _)
theorem streamPass (tile : Nat) : Statement (.streamPass tile) := fun _ h => nomatch (h : (none : Option Nat) = some _)
theorem drain (tile : Nat) : Statement (.drain tile) := fun _ h => nomatch (h : (none : Option Nat) = some _)
theorem groupedProduct (tile : Nat) : Statement (.groupedProduct tile) := fun _ h => nomatch (h : (none : Option Nat) = some _)
theorem coverageInit (tile : Nat) : Statement (.coverageInit tile) := fun _ h => nomatch (h : (none : Option Nat) = some _)
theorem coverageProbe (tile : Nat) : Statement (.coverageProbe tile) := fun _ h => nomatch (h : (none : Option Nat) = some _)
theorem spanJoin (tile : Nat) : Statement (.spanJoin tile) := fun _ h => nomatch (h : (none : Option Nat) = some _)
theorem coverageCommit (tile : Nat) : Statement (.coverageCommit tile) := fun _ h => nomatch (h : (none : Option Nat) = some _)
theorem coverageReadback (tile : Nat) : Statement (.coverageReadback tile) := fun _ h => nomatch (h : (none : Option Nat) = some _)
theorem matrixRerun (tile : Nat) (good : Bool) : Statement (.matrixRerun tile good) := fun _ h => nomatch (h : (none : Option Nat) = some _)
theorem certification (tile : Nat) : Statement (.certification tile) := fun _ h => nomatch (h : (none : Option Nat) = some _)
theorem syscallGateReply (core : Nat) (slot : Nat) (call : GateCall) : Statement (.syscallGateReply core slot call) := fun _ h => nomatch (h : (none : Option Nat) = some _)
theorem qdb (part : Nat) (prio : Nat) (addr : BitVec 64) : Statement (.qdb part prio addr) := fun _ h => nomatch (h : (none : Option Nat) = some _)
theorem launchRecordSent (id : Nat) : Statement (.launchRecordSent id) := fun _ h => nomatch (h : (none : Option Nat) = some _)
theorem dependenceReread (launch : Nat) : Statement (.dependenceReread launch) := fun _ h => nomatch (h : (none : Option Nat) = some _)
theorem queueAging (launch : Nat) : Statement (.queueAging launch) := fun _ h => nomatch (h : (none : Option Nat) = some _)
theorem launchHeadCheck (part : Nat) : Statement (.launchHeadCheck part) := fun _ h => nomatch (h : (none : Option Nat) = some _)
theorem selectAndReserve (part : Nat) (first : Nat) : Statement (.selectAndReserve part first) := fun _ h => nomatch (h : (none : Option Nat) = some _)
theorem prepare (part : Nat) : Statement (.prepare part) := fun _ h => nomatch (h : (none : Option Nat) = some _)
theorem commit (part : Nat) (picks : List (List Nat)) : Statement (.commit part picks) := fun _ h => nomatch (h : (none : Option Nat) = some _)
theorem launchCompletion (launch : Nat) : Statement (.launchCompletion launch) := fun _ h => nomatch (h : (none : Option Nat) = some _)
theorem eventideRequest (part : Nat) : Statement (.eventideRequest part) := fun _ h => nomatch (h : (none : Option Nat) = some _)
theorem eventideStop (part : Nat) : Statement (.eventideStop part) := fun _ h => nomatch (h : (none : Option Nat) = some _)
theorem eventideResume (part : Nat) : Statement (.eventideResume part) := fun _ h => nomatch (h : (none : Option Nat) = some _)
theorem kill (core : Nat) (slot : Nat) : Statement (.kill core slot) := fun _ h => nomatch (h : (none : Option Nat) = some _)
theorem heldRewalk (id : Nat) : Statement (.heldRewalk id) := fun _ h => nomatch (h : (none : Option Nat) = some _)
theorem holdTimeout (id : Nat) : Statement (.holdTimeout id) := fun _ h => nomatch (h : (none : Option Nat) = some _)
theorem translationWalk (id : Nat) (cached : Bool) : Statement (.translationWalk id cached) := fun _ h => nomatch (h : (none : Option Nat) = some _)
theorem shootdown (agent : Nat) (all : Bool) (pid : Nat) (lo : Nat) (hi : Nat) : Statement (.shootdown agent all pid lo hi) := fun _ h => nomatch (h : (none : Option Nat) = some _)
theorem jobResume (tile : Nat) (job : Nat) : Statement (.jobResume tile job) := fun _ h => nomatch (h : (none : Option Nat) = some _)
theorem jobAbort (tile : Nat) (job : Nat) : Statement (.jobAbort tile job) := fun _ h => nomatch (h : (none : Option Nat) = some _)
theorem hostAccess (addr : Nat) (n : Nat) (data : Option (List (BitVec 8))) : Statement (.hostAccess addr n data) := fun _ h => nomatch (h : (none : Option Nat) = some _)
theorem hbhostWrite (v : BitVec 64) : Statement (.hbhostWrite v) := fun _ h => nomatch (h : (none : Option Nat) = some _)
theorem heartbeatCheck : Statement (.heartbeatCheck) := fun _ h => nomatch (h : (none : Option Nat) = some _)
theorem unfence (v : BitVec 64) : Statement (.unfence v) := fun _ h => nomatch (h : (none : Option Nat) = some _)
theorem hbdevTick : Statement (.hbdevTick) := fun _ h => nomatch (h : (none : Option Nat) = some _)
theorem pairStop (pair : Nat) : Statement (.pairStop pair) := fun _ h => nomatch (h : (none : Option Nat) = some _)
theorem livenessStamp : Statement (.livenessStamp) := fun _ h => nomatch (h : (none : Option Nat) = some _)
theorem leaderTakeover : Statement (.leaderTakeover) := fun _ h => nomatch (h : (none : Option Nat) = some _)
theorem dutyAdoption (die : Nat) (pair : Nat) : Statement (.dutyAdoption die pair) := fun _ h => nomatch (h : (none : Option Nat) = some _)
theorem dusk (link : Nat) : Statement (.dusk link) := fun _ h => nomatch (h : (none : Option Nat) = some _)
theorem duskResume (link : Nat) (lost : Nat) : Statement (.duskResume link lost) := fun _ h => nomatch (h : (none : Option Nat) = some _)
theorem daybreak (boot : BootReport) : Statement (.daybreak boot) := fun _ h => nomatch (h : (none : Option Nat) = some _)
theorem unitFailure (unit : FailedUnit) : Statement (.unitFailure unit) := fun _ h => nomatch (h : (none : Option Nat) = some _)
theorem scrubError (addr : Nat) : Statement (.scrubError addr) := fun _ h => nomatch (h : (none : Option Nat) = some _)
theorem nightfallStopRequest (part : Nat) : Statement (.nightfallStopRequest part) := fun _ h => nomatch (h : (none : Option Nat) = some _)
theorem nightfallResumeRequest (part : Nat) : Statement (.nightfallResumeRequest part) := fun _ h => nomatch (h : (none : Option Nat) = some _)
theorem nightfallStop (part : Nat) : Statement (.nightfallStop part) := fun _ h => nomatch (h : (none : Option Nat) = some _)
theorem nightfallResume (part : Nat) : Statement (.nightfallResume part) := fun _ h => nomatch (h : (none : Option Nat) = some _)
theorem trctlWrite (core : Nat) (v : BitVec 64) : Statement (.trctlWrite core v) := fun _ h => nomatch (h : (none : Option Nat) = some _)
theorem partitionEntryWrite (part : Nat) (v : BitVec 64) : Statement (.partitionEntryWrite part v) := fun _ h => nomatch (h : (none : Option Nat) = some _)
theorem largeCoreMaskWrite (part : Nat) (v : BitVec 64) : Statement (.largeCoreMaskWrite part v) := fun _ h => nomatch (h : (none : Option Nat) = some _)
theorem islandStepDown (island : Nat) (power : Nat) (temp : Nat) : Statement (.islandStepDown island power temp) := fun _ h => nomatch (h : (none : Option Nat) = some _)
theorem islandStepUp (island : Nat) (power : Nat) (temp : Nat) : Statement (.islandStepUp island power temp) := fun _ h => nomatch (h : (none : Option Nat) = some _)
theorem thermalWithhold (sg : Nat) (temp : Nat) : Statement (.thermalWithhold sg temp) := fun _ h => nomatch (h : (none : Option Nat) = some _)
theorem telemetrySample : Statement (.telemetrySample) := fun _ h => nomatch (h : (none : Option Nat) = some _)
theorem quoteRequest : Statement (.quoteRequest) := fun _ h => nomatch (h : (none : Option Nat) = some _)
theorem quoteReady : Statement (.quoteReady) := fun _ h => nomatch (h : (none : Option Nat) = some _)
theorem registerWrite (off : Nat) (v : BitVec 64) : Statement (.registerWrite off v) := fun _ h => nomatch (h : (none : Option Nat) = some _)
theorem debuggerRelease (core : Nat) (slot : Nat) : Statement (.debuggerRelease core slot) := fun _ h => nomatch (h : (none : Option Nat) = some _)
theorem stoppedStateWrite (x_w : StateWrite) : Statement (.stoppedStateWrite x_w) := fun _ h => nomatch (h : (none : Option Nat) = some _)
theorem firmwareMemoryWrite (addr : Nat) (data : List (BitVec 8)) (applied : Bool) : Statement (.firmwareMemoryWrite addr data applied) := fun _ h => nomatch (h : (none : Option Nat) = some _)
theorem rangeEntryRemoval (id : Nat) : Statement (.rangeEntryRemoval id) := fun _ h => nomatch (h : (none : Option Nat) = some _)
theorem linkRetry (link : Nat) : Statement (.linkRetry link) := fun _ h => nomatch (h : (none : Option Nat) = some _)

end Sys2Proof.Laws.WordBounded
end

