-- ==== Sys2Proof/Tests/Slice0.lean ====
section
/-! SUPPORT.  Tests of the model: well-formedness, decoding, single steps.  The expected values are the manual's
examples and tables, or hand calculation from them. -/

namespace Sys2Proof.Tests

open Sys2Proof Sys2Proof.Machine

set_option maxRecDepth 100000
set_option Elab.async false

/-! ### Well-formedness: an ill-formed term for each check -/

theorem test_wf_vector_register : (Instr.xcaddV 5 16).wf = false ∧ (Instr.xcaddV 5 15).wf = true := by decide
theorem test_wf_queue_register : (Instr.qbind 8 5).wf = false ∧ (Instr.qbind 7 5).wf = true := by decide
theorem test_wf_pair : (Instr.dqpop 0).wf = false ∧ (Instr.dqpop 9).wf = false ∧ (Instr.dqpop 30).wf = true := by decide
theorem test_wf_format : (Instr.vfadd 1 2 3 4).wf = false ∧ (Instr.vexp2 1 2 1).wf = false ∧ (Instr.vfadd 1 2 3 3).wf = true := by decide
theorem test_wf_predicates : (Instr.vfcmplt 13 1 2 0).wf = false ∧ (Instr.vfcmplt 12 1 2 0).wf = true := by decide
theorem test_wf_element : (Instr.vsplat 2 1 4 0).wf = false ∧ (Instr.vext 5 3 2 3).wf = false ∧ (Instr.vext 5 3 1 3).wf = true := by decide
theorem test_wf_pairs_of_vcvt : (Instr.vcvt 2 1 0 0 3 3).wf = false ∧ (Instr.vcvt 2 1 0 0 5 1).wf = false ∧
    (Instr.vcvt 2 1 0 0 6 0).wf = false := by decide
theorem test_wf_pairs_of_vcvti : (Instr.vcvti 2 1 0 0 0 1).wf = false ∧ (Instr.vcvti 2 1 0 0 10 7).wf = false ∧
    (Instr.vcvti 2 1 0 0 6 10).wf = false ∧ (Instr.vcvti 2 1 0 0 10 6).wf = true := by decide
theorem test_wf_narrow_forms : (Instr.vdot4 1 2 3 2 0).wf = false ∧ (Instr.vwacc 1 2 3 2 0).wf = false ∧
    (Instr.vhadd 1 2 1).wf = false ∧ (Instr.vperm 1 2 3 2).wf = false ∧ (Instr.cmp 1 2 3 6).wf = false := by decide

/-! ### Decoding: a word of every encoded instruction, from the encodings of R171-R175 -/

/-- Whether each word decodes to the instruction beside it. -/
def decodes (l : List (Nat × Instr)) : Bool :=
  l.all (fun p => match decodeWord p.1 with | .ok i => i == p.2 | .error _ => false)

theorem test_decode_scalar_registers_1 :
    decodes [(0x04A63800, .add 5 6 7), (0x052E5801, .sub 9 14 11), (0x052E5802, .and 9 14 11), (0x052E5803, .or 9 14 11),
      (0x052E5804, .xor 9 14 11), (0x052E5805, .andn 9 14 11), (0x052E5806, .sll 9 14 11), (0x052E5807, .srl 9 14 11),
      (0x05095008, .sra 8 9 10), (0x052E5809, .slt 9 14 11), (0x052E580A, .sltu 9 14 11), (0x052E580B, .min 9 14 11),
      (0x052E580C, .max 9 14 11), (0x052E580D, .minu 9 14 11), (0x052E580E, .maxu 9 14 11), (0x048C000F, .clz 4 12),
      (0x052E0010, .ctz 9 14), (0x052E0011, .popc 9 14), (0x052E0012, .sextb 9 14), (0x052E0013, .sexth 9 14)] = true := by
  decide +kernel

theorem test_decode_scalar_registers_2 :
    decodes [(0x052E0014, .sextw 9 14), (0x052E0015, .zextw 9 14), (0x052E5816, .addw 9 14 11), (0x052E5817, .subw 9 14 11),
      (0x052E5818, .sllw 9 14 11), (0x052E5819, .srlw 9 14 11), (0x052E581A, .sraw 9 14 11),
      (0x092E8421, .addi 9 14 33825), (0x0C85FFF0, .andi 4 5 65520), (0x112E8421, .ori 9 14 33825),
      (0x152E8421, .xori 9 14 33825), (0x192E8421, .slti 9 14 33825), (0x1D2E8421, .sltiu 9 14 33825),
      (0x212E0025, .slli 9 14 37), (0x212E4025, .srli 9 14 37), (0x20A68003, .srai 5 6 3), (0x24E01234, .lui 7 4660),
      (0x28800003, .addpc 4 3), (0x2D2E5800, .mul 9 14 11), (0x2D2E5801, .mulh 9 14 11)] = true := by
  decide +kernel

theorem test_decode_scalar_registers_3 :
    decodes [(0x2C853002, .mulhu 4 5 6), (0x2D2E5803, .mulw 9 14 11), (0x2C853004, .div 4 5 6), (0x2D2E5805, .divu 9 14 11),
      (0x2D2E5806, .rem 9 14 11), (0x2D2E5807, .remu 9 14 11), (0x31CB8421, .beq 14 11 33825),
      (0x34A0FFFD, .bne 5 0 65533), (0x38850002, .blt 4 5 2), (0x3DCB8421, .bge 14 11 33825),
      (0x41CB8421, .bltu 14 11 33825), (0x45CB8421, .bgeu 14 11 33825), (0x48000010, .j 16), (0x4C200100, .jl 1 256),
      (0x50010000, .jlr 0 1 0), (0x54642820, .cmp 3 4 5 2), (0x54E50801, .pand 7 5 1), (0x54E50802, .por 7 5 1),
      (0x54830003, .pxor 4 3 0), (0x58E08421, .bp 7 33825)] = true := by
  decide +kernel

theorem test_decode_scalar_registers_4 :
    decodes [(0x58610004, .bpF 3 4)] = true := by
  decide +kernel

theorem test_decode_memory_1 :
    decodes [(0x5D2E1A5C, .lb 9 14 1 2652), (0x5C862FFF, .lbu 4 6 0 4095), (0x5D2E5A5C, .lh 9 14 1 2652),
      (0x5D2E7A5C, .lhu 9 14 1 2652), (0x5D259003, .lw 9 5 1 3), (0x5D2EBA5C, .lwu 9 14 1 2652),
      (0x5D04C000, .ld 8 4 0 0), (0x606E1A5C, .sb 3 14 1 2652), (0x606E5A5C, .sh 3 14 1 2652),
      (0x60E28FFE, .sw 7 2 0 4094), (0x6104C000, .sd 8 4 0 0), (0x64853010, .aadd 4 5 6 0 1),
      (0x652E5831, .aand 9 14 11 1 1), (0x652E5832, .aor 9 14 11 1 1), (0x652E5833, .axor 9 14 11 1 1),
      (0x652E5834, .amin 9 14 11 1 1), (0x652E5835, .amax 9 14 11 1 1), (0x652E5836, .aminu 9 14 11 1 1),
      (0x652E5837, .amaxu 9 14 11 1 1), (0x652E5838, .aswap 9 14 11 1 1)] = true := by
  decide +kernel

theorem test_decode_memory_2 :
    decodes [(0x64853009, .acas 4 5 6 0 0), (0x68053010, .redadd 5 6 1), (0x680E5811, .redand 14 11 1),
      (0x680E5812, .redor 14 11 1), (0x680E5813, .redmin 14 11 1), (0x680E5814, .redmax 14 11 1),
      (0x6C051A00, .xcaddV 5 3), (0x6C053201, .xcaddG 5 6), (0x6C450202, .xcread 2 5), (0x6C050203, .xcclr 5)] = true := by
  decide +kernel

theorem test_decode_fences_and_messages_1 :
    decodes [(0x70000000, .fence), (0x70000001, .fenceRed), (0x70000002, .fenceAcq), (0x70000003, .fenceSys),
      (0x70050010, .migrate 5 0), (0x70063811, .migto 6 7), (0x71050012, .spawn 8 5 0), (0x76950000, .send 20 21),
      (0x76950001, .sendt 20 21), (0x76950002, .recv 20 21), (0x76950003, .recvt 20 21),
      (0x7695B004, .append 20 21 22), (0x7695B005, .appendt 20 21 22), (0x76800006, .mbstat 20),
      (0x78650000, .qbind 3 5), (0x78450001, .qwr 2 5), (0x78C20002, .qrd 6 2), (0x78440003, .vqwr 2 4),
      (0x78C20004, .vqrd 6 2), (0x78820005, .qstat 4 2)] = true := by
  decide +kernel

theorem test_decode_fences_and_messages_2 :
    decodes [(0x78020006, .qclose 2)] = true := by
  decide +kernel

theorem test_decode_synchronisation_and_tasks_1 :
    decodes [(0x7D2E5800, .syncinit 9 14 11), (0x7C0E0001, .acq 14), (0x7D2E0002, .tryacq 9 14), (0x7C0E0003, .rel 14),
      (0x7D2E5804, .lockrun 9 14 11), (0x7C0E5805, .arrive 14 11), (0x7D2E0006, .await 9 14),
      (0x7C0E0007, .syncserve 14), (0x7C0E0008, .syncdone 14), (0x7D2E5809, .syncmode 9 14 11),
      (0x7D2E580A, .syncpol 9 14 11), (0x7C0E000B, .syncfree 14), (0x80053000, .tcinit 5 6), (0x80053001, .tcdec 5 6),
      (0x80000002, .yield 0), (0x80000003, .exit), (0x80000004, .quiesce), (0x84863800, .dqpush 4 6 7),
      (0x85000001, .dqpop 8), (0x84800002, .dqsplit 4)] = true := by
  decide +kernel

theorem test_decode_synchronisation_and_tasks_2 :
    decodes [(0x85090003, .dqsteal 8 9), (0x84800004, .dqlen 4), (0x88850000, .alloc 4 5), (0x88040001, .free 4)] = true := by
  decide +kernel

theorem test_decode_vector_memory_and_integers_1 :
    decodes [(0x8C850002, .vldF32 4 5 0 2), (0x8D063001, .vldF64 8 6 1 1), (0x8CC54003, .vldbF32 6 5 0 3),
      (0x8D2E7A5C, .vldbF64 9 14 1 2652), (0x90820FFF, .vstF32 4 2 0 4095), (0x906E3A5C, .vstF64 3 14 1 2652),
      (0x94221C80, .vadd 1 2 3 4 1), (0x952E5E81, .vsub 9 14 11 6 1), (0x952E5E82, .vmul 9 14 11 6 1),
      (0x952E5E03, .vmin 9 14 11 6), (0x952E5E04, .vmax 9 14 11 6), (0x952E5E05, .vminu 9 14 11 6),
      (0x952E5E06, .vmaxu 9 14 11 6), (0x952E5E07, .vand 9 14 11 6), (0x952E5E08, .vor 9 14 11 6),
      (0x952E5E09, .vxor 9 14 11 6), (0x952E5E0A, .vsll 9 14 11 6), (0x952E5E0B, .vsrl 9 14 11 6),
      (0x952E5E0C, .vsra 9 14 11 6), (0x952E5E0D, .vcmpeq 9 14 11 6)] = true := by
  decide +kernel

theorem test_decode_vector_memory_and_integers_2 :
    decodes [(0x952E5E0E, .vcmplt 9 14 11 6), (0x952E5E0F, .vcmpltu 9 14 11 6), (0x952E5E10, .vsel 9 14 11 6),
      (0x952E0691, .vpsum 9 14 6 1), (0x952E5C92, .vwacc 9 14 11 4 1), (0x94853013, .vdot4 4 5 6 0 0),
      (0x95090031, .vpsumF32 8 9)] = true := by
  decide +kernel

theorem test_decode_floating_point_1 :
    decodes [(0x98A63800, .vfadd 5 6 7 0), (0x992E5901, .vfsub 9 14 11 1), (0x992E5902, .vfmul 9 14 11 1),
      (0x992E5903, .vfdiv 9 14 11 1), (0x98430104, .vfsqrt 2 3 1), (0x992E5905, .vfmin 9 14 11 1),
      (0x992E5906, .vfmax 9 14 11 1), (0x992E0107, .vfabs 9 14 1), (0x992E0108, .vfneg 9 14 1),
      (0x98EE5909, .vfcmpeq 7 14 11 1), (0x9881100A, .vfcmplt 4 1 2 0), (0x98EE590B, .vfcmple 7 14 11 1),
      (0x992E010C, .vfclass 9 14 1), (0x9C611100, .vfma 3 1 2 4 0), (0x9D2E5B59, .vfms 9 14 11 13 3),
      (0x9D2E5B5A, .vfnma 9 14 11 13 3), (0x9C0110CB, .vfnms 0 1 2 3 1), (0xA0220000, .vexp2 1 2 0),
      (0xA12E0201, .vlog2 9 14 2), (0xA0640202, .vrcp 3 4 2)] = true := by
  decide +kernel

theorem test_decode_floating_point_2 :
    decodes [(0xA12E0203, .vrsq 9 14 2)] = true := by
  decide +kernel

theorem test_decode_tags_permutes_conversions :
    decodes [(0xA4890000, .sigget 4 9 0), (0xA5202801, .sigset 9 5 0), (0xA4C30102, .sigmin 6 3 1), (0xA8650006, .bsig 3 5 6),
      (0xAC411800, .vsplat 2 1 3 0), (0xAC290A01, .vins 1 9 1 2), (0xACA31202, .vext 5 3 2 2),
      (0xAC853003, .vperm 4 5 6 0), (0xACE80004, .vhadd 7 8 0), (0xB0410130, .vcvt 2 1 0 1 3 0),
      (0xB0410260, .vcvti 2 1 0 2 6 0)] = true := by
  decide +kernel

theorem test_decode_array_and_engine_1 :
    decodes [(0xB4000000, .mgang), (0xB5000100, .mldw 8), (0xB5000200, .mtld 8), (0xB4000300, .mswap), (0xB4000400, .mzero),
      (0xB5200500, .mstrm 9), (0xB52A0603, .mgrp 9 10 3), (0xB40B0700, .mdrain 11), (0xB4000800, .mstat),
      (0xB8A60000, .anorm 5 6), (0xB8E00100, .acert 7), (0xB9000200, .afetch 8), (0xBC090000, .mcovi 9),
      (0xBD090102, .mcovp 8 9 2), (0xBD090200, .mcovc 8 9), (0xBD490300, .mcovr 10 9), (0xC0060002, .ecw 6 2),
      (0xC0000120, .ecr 32), (0xC0000200, .ego), (0xC0050300, .ewait 5)] = true := by
  decide +kernel

theorem test_decode_array_and_engine_2 :
    decodes [(0xC4A00003, .cbinit 5 3), (0xC4000103, .cbacq 3), (0xC4000203, .cbrel 3), (0xC4000303, .cbstat 3)] = true := by
  decide +kernel

theorem test_decode_system :
    decodes [(0xC8000050, .syscall 5), (0xC8000121, .trap 18), (0xC8000002, .eret), (0xC8000003, .brk 0), (0xC8000004, .nop),
      (0xC8C00005, .tstamp 6), (0xC8870216, .trig 4 7 33), (0xC9280007, .ptblw 9 8), (0xCCA00010, .csrr 5 1),
      (0xCC060041, .csrw 0 6 4), (0xCCA60012, .csrs 5 6 1), (0xCC070013, .csrc 0 7 1), (0xD0850000, .launch 4 5),
      (0xD0850001, .lwait 4 5)] = true := by
  decide +kernel
/-- R176: words that are no instruction. -/
theorem test_decode_refuses : [0x00000000, 0xFFFFFFFF, 0xD4000000, 0x0400001B, 0x048CF80F, 0x2000C000, 0x48200000, 0x54640860,
    0x58620004, 0x5C86E000, 0x60E22000, 0x6485300A, 0x68253010, 0x70000004, 0x76950007, 0x78B00005, 0x7C05000C, 0x84800005,
    0x88040002, 0x8C858002, 0x9422001F, 0x9C0110CD, 0xA4890003, 0xAA650006, 0xB0410100, 0xB5000900, 0xC4A00403,
    0xC8000008].all (fun w => match decodeWord w with | .ok _ => false | .error _ => true) = true := by
  decide +kernel
theorem test_decode_short : decodeBytes [0, 0, 0x40] = .error .short := by decide
theorem test_decode_table_word : decodeTableWord 32 0x04A63800 = some (.add 5 6 7) := by decide
theorem test_encode : encode (.add 5 6 7) = [0x00, 0x38, 0xA6, 0x04] := by decide

/-! ### Single instructions -/

/-- A thread in slot 0 of core 0 of partition 0, with some of its registers set. -/
def thread (g : List (BitVec 5 × Word)) : Slot := g.foldl (fun x p => x.setG p.1 p.2) placedThread
/-- The part with such a thread about to run. -/
def ready (x : Slot) : State :=
  ({ State.reset with cur := ⟨0, 0⟩ }.setPart 0 { Partition.reset with valid := true, sgs := 1, pid := 1 }).setSlot ⟨0, 0⟩ x
/-- What a test reads of the state after an instruction. -/
def after {α : Type} (o : Host.Outcome State Fault Refusal) (f : State → α) : Option α :=
  match o with | .next t => some (f t) | _ => none
/-- A register after an instruction that reads g6 and g7. -/
def gives (i : Instr) (a b : Word) (d : BitVec 5) : Option Word := after (exec i (ready (thread [(6, a), (7, b)]))) (fun t => t.me.g d)

/-- The worked values of R189. -/
theorem test_word_forms : gives (.addw 5 6 7) 0x7FFFFFFF 1 5 = some 0xFFFFFFFF80000000 ∧
    gives (.sraw 5 6 7) 0x80000010 4 5 = some 0xFFFFFFFFF8000001 ∧ gives (.srlw 5 6 7) 0x80000010 4 5 = some 0x08000001 := by
  decide +kernel
theorem test_unsigned_forms : gives (.sll 5 6 7) 1 65 5 = some 2 ∧ gives (.sltu 5 6 7) 0 0xFFFFFFFFFFFFFFFF 5 = some 1 ∧
    gives (.slt 5 6 7) 0 0xFFFFFFFFFFFFFFFF 5 = some 0 ∧ gives (.clz 5 6) 1 0 5 = some 63 ∧
    gives (.sextb 5 6) 0x80 0 5 = some 0xFFFFFFFFFFFFFF80 := by decide +kernel
/-- R165: a write of g0 is discarded. -/
theorem test_g0 : gives (.add 0 6 7) 3 4 0 = some 0 := by decide +kernel
/-- R192. -/
theorem test_lui : gives (.lui 7 0x8000) 0 0 7 = some 0xFFFFFFFF80000000 := by decide +kernel
theorem test_addpc : after (exec (.addpc 4 3) (ready { placedThread with pc := 0x8000010000 })) (fun t => t.me.g 4) = some 0x8000040000 := by
  decide +kernel
/-- The worked values of R193. -/
theorem test_multiply : gives (.mulh 5 6 7) (-1) (-1) 5 = some 0 ∧ gives (.mulhu 5 6 7) (-1) (-1) 5 = some (-2) := by decide +kernel
theorem test_divide : gives (.div 5 6 7) (-7) 2 5 = some (-3) ∧ gives (.rem 5 6 7) (-7) 2 5 = some (-1) ∧
    gives (.divu 5 6 7) 7 0 5 = some (-1) ∧ gives (.remu 5 6 7) 7 0 5 = some 7 ∧
    gives (.div 5 6 7) 0x8000000000000000 (-1) 5 = some 0x8000000000000000 ∧ gives (.rem 5 6 7) 0x8000000000000000 (-1) 5 = some 0 := by
  decide +kernel
/-- R190: SLTIU compares against the extended immediate. -/
theorem test_sltiu : gives (.sltiu 5 6 0xFFFF) (-2) 0 5 = some 1 ∧ gives (.sltiu 5 6 0xFFFF) (-1) 0 5 = some 0 := by decide +kernel
/-- R196: jlr g1, g1, 0 returns through g1 and leaves the link in g1. -/
theorem test_jlr : after (exec (.jlr 1 1 0) (ready (thread [(1, 0x8000000100)]))) (fun t => (t.me.pc, t.me.g 1)) =
    some (0x8000000100, 0x8000000004) := by decide +kernel
/-- R197: pxor pd, pa, p0 writes NOT pa. -/
theorem test_pxor : after (exec (.pxor 4 3 0) (ready (thread []))) (fun t => t.me.p 4) = some true := by decide +kernel

/-- R38: the bytes 0x80, 0x3F at offset 0x4000 through RAW, BF16X, U8X and I8X (here of core 0). -/
def held : State := ((ready (thread [(6, 0x4000), (7, 0x2000008000), (8, 0x7000010000), (9, 0x6000010000)])).setNat (rawKey 0x4000) 2 0x3F80)
theorem test_load_windows : after (exec (.lw 5 7 0 0) held) (fun t => t.me.g 5) = some 0x3F800000 ∧
    after (exec (.lw 5 8 0 0) held) (fun t => t.me.g 5) = some 128 ∧ after (exec (.lw 5 9 0 0) held) (fun t => t.me.g 5) = some (-128) ∧
    after (exec (.lhu 5 6 0 0) held) (fun t => t.me.g 5) = some 0x3F80 := by decide +kernel
/-- R206: a byte store writes tag 62 to its word and nothing beside its byte. -/
theorem test_sb : after (exec (.sb 6 6 0 1) held) (fun t => (t.nat (rawKey 0x4000) 4, t.sideTag (rawKey 0x4000))) = some (0x0080, 62) := by
  decide +kernel
/-- R209: AADD.d returns the old value. -/
theorem test_aadd : after (exec (.aadd 5 6 7 0 1) held) (fun t => (t.me.g 5, t.nat (rawKey 0x4000) 8)) = some (0x3F80, 0x200000BF80) := by
  decide +kernel
/-- R200: ALIGN names the address. -/
theorem test_align : after (exec (.lw 5 6 0 0) (ready { thread [(6, 0x4002)] with sup := { TrapCsrs.reset with tvec := 0x8000001000 } }))
    (fun t => (t.me.pc, t.me.mode, t.me.sup.epc, t.me.sup.tval, t.me.sup.status)) =
    some (0x8000001000, .super, 0x8000000000, 0x4002, 1) := by decide +kernel
/-- R351: ERET returns to the saved PC and mode, with inh clear. -/
theorem test_eret : after (exec .eret (ready { placedThread with mode := .super, sup := { TrapCsrs.reset with epc := 0x8000000040, status := 1 } }))
    (fun t => (t.me.pc, t.me.mode, t.me.sup.status)) = some (0x8000000040, .user, 0) := by decide +kernel
/-- R13: slot 2 at entries 2 and 8 takes ILLEGAL; at entries 2 and 26 it is accepted. -/
theorem test_ptblw : after (exec (.ptblw 9 8) (ready (thread [(8, 0x7888888278888288), (9, 0x7888888878888888)])))
      (fun t => (t.core 0).staged.isSome) = some false ∧
    after (exec (.ptblw 9 8) (ready (thread [(8, 0x7888888878888288), (9, 0x7888828878888888)]))) (fun t => (t.core 0).staged.isSome) = some true := by
  decide +kernel
/-- R245: a deque of one entry {0, 100} after DQSPLIT. -/
def split : Option State := after (exec (.dqsplit 4) ((ready (thread [])).setCore 0 { Core.reset with deque := [(0, 100)] })) id
theorem test_dqsplit : split.map (fun t => ((t.core 0).deque, t.me.g 4)) = some ([(50, 100), (0, 50)], 0) := by decide +kernel
theorem test_dqsteal : split.bind (fun t => after (exec (.dqsteal 8 9) t) (fun u => (u.me.g 8, u.me.g 9, (u.core 0).deque))) =
    some (25, 50, [(50, 100), (0, 25)]) := by decide +kernel

/-- A thread with the low lanes of v9 and v10 set, with their tags. -/
def lanes (a b : List (W32 × Tag)) : Slot :=
  let put := fun (x : Slot) (r : BitVec 4) (l : List (W32 × Tag)) =>
    (l.zip [0, 1, 2, 3]).foldl (fun (x : Slot) p => x.setLane r p.2 p.1.1 p.1.2) x
  put (put placedThread 9 a) 10 b
/-- A lane of v11 and its tag after an instruction on v9 and v10. -/
def lane (i : Instr) (a b : W32 × Tag) : Option (W32 × Tag) := after (exec i (ready (lanes [a] [b]))) (fun t => (t.me.lane 11 0, t.me.tag 11 0))

/-- The worked example of R91. -/
theorem test_tag_of_vfmul : lane (.vfmul 11 9 10 2) (0x40400000, 24) (0x3DCCCCCD, 24) = some (0x3E99999A, 23) := by decide +kernel
theorem test_tag_of_vfsub : lane (.vfsub 11 9 10 2) (0x3FC00000, 24) (0x3FBFFC00, 24) = some (0x39000000, 10) ∧
    lane (.vfsub 11 9 10 2) (0x3F800000, 24) (0x3F800000, 24) = some (0, 0) ∧
    lane (.vfsub 11 9 10 2) (0x3F800000, 63) (0x3F800000, 63) = some (0, 63) := by decide +kernel
/-- R101 and R102: the floor of 12 stops the subtraction, and csr.sigtrap names the lane. -/
theorem test_sigfloor : after (exec (.vfsub 11 9 10 0) (ready { lanes [(0, 63), (0x3FC00000, 24)] [(0, 63), (0x3FBFFE00, 24)] with
      csr := { UserCsrs.reset with sigfloor := 0x4C }, sup := { TrapCsrs.reset with tvec := 0x8000001000 } }))
    (fun t => (t.me.pc, t.me.lane 11 1, t.me.sup.cause, t.me.csr.sigtrap.toNat % 4)) =
    some (0x8000001000, 0, dbl (Cause.code .sigfloor), 1) := by decide +kernel
/-- The values of R269. -/
theorem test_vadd_saturates : after (exec (.vadd 11 9 10 4 1) (ready (lanes [(0xC8C8C8C8, 24)] [(0x64646464, 24)])))
    (fun t => (t.me.lane 11 0, t.me.tag 11 0)) = some (0xFFFFFFFF, 63) := by decide +kernel
theorem test_vdot4_wraps : after (exec (.vdot4 11 9 10 0 0) (ready ((lanes [(0x80808080, 24)] [(0x80808080, 24)]).setLane 11 0 0x7FFF0000 24)))
    (fun t => t.me.lane 11 0) = some 0x80000000 := by decide +kernel
/-- R278: SIGGET, SIGMIN and BSIG of the tags 24, 9, EXACT and 17. -/
def tagged : Slot := (lanes [(1, 24), (2, 9), (3, 63), (4, 17)] []).setG 5 0x04C
theorem test_sigget : after (exec (.sigget 4 9 0) (ready tagged)) (fun t => t.me.g 4) = some 0x113F0918 ∧
    after (exec (.sigmin 4 9 0) (ready tagged)) (fun t => t.me.g 4) = some 9 := by decide +kernel
theorem test_bsig : after (exec (.bsig 9 5 4) (ready tagged)) (fun t => t.me.pc) = some 0x8000000010 ∧
    after (exec (.bsig 9 5 4) (ready (tagged.setG 5 0x0CC))) (fun t => t.me.pc) = some 0x8000000004 := by decide +kernel
/-- R286: 1.0, -2.5, 464.0 and a quiet NaN to E4M3. -/
theorem test_vcvt : after (exec (.vcvt 2 9 0 1 3 0) (ready (lanes [(0x3F800000, 24), (0xC0200000, 24), (0x43E80000, 24), (0x7FC00000, 24)] [])))
    (fun t => (t.me.lane 2 0, t.me.tag 2 0, t.me.lane 2 1, t.me.tag 2 1, t.me.csr.fpctl)) =
    some ((0x7F7EC238 : W32), (0 : Tag), (0 : W32), (63 : Tag), ((0b00101#5).zeroExtend 13 <<< 2 : BitVec 13)) := by decide +kernel

/-! ### Steps -/

/-- The word placed at the PC is the next instruction (log entry 6). -/
theorem test_step_runs_word : after (step (State.reset.withFetchWord 32 0x08A00007)) (fun t => (t.me.g 5, t.me.pc)) =
    some (7, 0x8000000004) := by decide +kernel
/-- R176: the all-zero word takes ILLEGAL, which with no handler kills the thread (R350). -/
theorem test_step_illegal : after (step (State.reset.withFetchWord 32 0)) (fun t => (t.me.occ, (t.part 0).fqtail)) =
    some (false, 1) := by decide +kernel

end Sys2Proof.Tests
end

