-- ==== Sys2Proof/Tests/Witness.lean ====
section
/-! SUPPORT.  For every statement that has hypotheses, states and operands that meet them, each clause at a value of its
range; where a clause has a bound, at the bound. -/

namespace Sys2Proof.Tests

open Sys2Proof Sys2Proof.Machine

set_option maxRecDepth 100000
set_option Elab.async false
set_option synthInstance.maxSize 1000

/-- State.InBank, State.Readable and State.Unlocked in forms that can be computed. -/
abbrev Banked (s : State) (ea : Word) (n : Nat) (allow : Nat → Bool) : Prop :=
  s.accessCause s.me ea n allow = none ∧ ea.toNat < 2 ^ 39 ∧ nearBank s.cur.core ea.toNat = true ∧ s.coreRuns (homeOf ea.toNat) = true ∧ s.me.relaxed = []
theorem banked_iff {s : State} {ea : Word} {n : Nat} {allow : Nat → Bool} : s.InBank ea n allow ↔ Banked s ea n allow :=
  ⟨fun h => ⟨h.passes, h.space, h.near, h.runs, h.relaxed⟩, fun h => ⟨h.1, h.2.1, h.2.2.1, h.2.2.2.1, h.2.2.2.2⟩⟩
abbrev Reads (s : State) (c o n : Nat) : Prop :=
  blocksLoad (s.spadMeets (spadKey c o) (spadKey c o + n)) = false ∧ s.anyPoison (spadKey c o) n = false
theorem reads_iff {s : State} {c o n : Nat} : s.Readable c o n ↔ Reads s c o n := Iff.rfl
abbrev Opens (s : State) (c o n : Nat) : Prop := s.liveTouch c o n = false ∧ s.queuedTouch c o n = false ∧
  blocksStore (s.spadMeets (spadKey c o) (spadKey c o + n)) = false
theorem opens_iff {s : State} {c o n : Nat} : s.Unlocked c o n ↔ Opens s c o n := Iff.rfl

/-- meetsReserved in a form that can be computed. -/
abbrev Meets (ea n : Nat) : Prop :=
  if winOf ea ≤ 1 then 0x1C000 < offOf ea + n
  else if winOf ea = 5 then False
  else 0x1C000 < (offOf ea / 4 + n / 4) * (if winOf ea = 2 then 2 else 1)
theorem meets_iff {ea n : Nat} : meetsReserved ea n ↔ Meets ea n := Iff.rfl

/-- One value in g6. -/
def one (v : Word) : State := ready (thread [(6, v)])
/-- A state with a message in flight. -/
def flying (s : State) (src : Who) (rd : BitVec 5) (b : Body) : State :=
  { s with net := s.net ++ [⟨7, src, rd, b⟩], nextId := 8 }
/-- The message of such a state. -/
def sent (src : Who) (rd : BitVec 5) (b : Body) : Msg := ⟨7, src, rd, b⟩
/-- Slot 0 of core 0. -/
def w0 : Who := ⟨0, 0⟩
/-- A state whose running slot is changed. -/
def mine (s : State) (f : Slot → Slot) : State := s.setMe (f s.me)

/-- A message in the window of the edge core of a device byte. -/
def inEdge (s : State) (key : Nat) : State := { s with edges := [(s.edgeOf key, [(7, 0)])] }
/-- A message at the head of a core's service queue. -/
def inService (s : State) (c : Nat) : State := s.setCore c { s.core c with service := [7] }
/-- A packet that has reached a core. -/
def atCore (s : State) (c : Nat) : State := s.setCore c { s.core c with reached := [7, 0] }

/-- The tests' state with the first page of V-space mapped. -/
def mapped : State := State.reset.withFetchWord 32 0
/-- An access of process 1. -/
def acc (op : AccOp) (ea n : Nat) (st : Stage) : Access :=
  { op := op, ea := ea, size := n, dest := .general 5, relaxed := false, ff := false, fpctl := 0, winsig := UserCsrs.reset.winsig,
    olscale := UserCsrs.reset.olscale, super := false, pid := 1, part := 0, launch := 0, stage := st }
/-- A thread's context on its way. -/
def ctx : Ctx :=
  { pc := 0x8000000000, pw := 1, g3 := 0, mask := 0x3FF0, regs := Vector.replicate 32 0, pid := 1, part := 0, launch := 0,
    kind := .spatial, thread := 0, fpctl := 0, winsig := UserCsrs.reset.winsig, olscale := UserCsrs.reset.olscale, sigfloor := 0, stamp := 0 }
/-- A launch that runs. -/
def job (id : Nat) : Launch :=
  { id := id, addr := 0x8000001000, part := 0, pid := 1, entry := 0x8000000000, args := 0, done := 0, signal := 0, dep := 0, prio := 0, recPart := 0,
    zero := false, det := false, levels := [], badField := none, state := .running, eprio := 0, enq := 0, own := 0, issuer := none, since := none,
    checked := true, gangs := 1, held := [(0, 1)], started := 1, start := 0, faults := 0, sweeps := 0, lastSums := none, status := 0, detail := 0 }

theorem mapGet_holds {α : Type} (P : α → Prop) (m : SMap α) (d : α) (k : Nat) (hd : P d) (h : ∀ p ∈ m, P p.2) : P (mapGet m d k) := by
  induction m with
  | nil => exact hd
  | cons x r ih =>
    unfold mapGet
    split
    · exact h x (by simp)
    · exact ih (fun p hp => h p (by simp [hp]))

/-- Where every partition runs and no core holds a message, every core hears what it is told. -/
theorem all_hear (s : State) (hp : ∀ p ∈ s.parts, p.2.run = .running) (hc : ∀ p ∈ s.cores, p.2.buffer = []) (c : Nat) : s.hears c = true := by
  have h1 : ∀ k, (s.part k).run = .running := fun k => mapGet_holds (fun x : Partition => x.run = .running) _ _ k rfl hp
  have h2 : (s.core c).buffer = [] := mapGet_holds (fun x : Core => x.buffer = []) _ _ c rfl hc
  have h3 : s.coreRuns c = true := by unfold State.coreRuns; split <;> simp_all
  simp [State.hears, h2, h3]

/-! ### Registers and memory -/

theorem witness_BranchesAndPredicates : ((one 0x8000000104).g 6 + (0xFFFC : BitVec 16).signExtend 64).toNat % 4 = 0 ∧
    ((one 0x8000000102).g 6 + (0xFFFF : BitVec 16).signExtend 64).toNat % 4 ≠ 0 := by decide +kernel

/-- The last bytes of the user area through RAW and TAGGED, and elements of BF16X, OL4X and U8X. -/
theorem witness_Loads :
    (∀ p ∈ [((1 : Nat), (0x1BFFF : Nat)), (2, 0x1BFFE), (4, 0x1BFFC), (8, 0x1BFF8)], let s := one (BitVec.ofNat 64 p.2);
      Banked s (s.g 6) p.1 winRaw ∧ winOf (s.g 6).toNat ≤ 1 ∧ Reads s (homeOf (s.g 6).toNat) (offOf (s.g 6).toNat) p.1) ∧
    (∀ p ∈ [((4 : Nat), (0x100001BFFC : Nat)), (8, 0x100001BFF8)], let s := one (BitVec.ofNat 64 p.2);
      Banked s (s.g 6) p.1 winAny ∧ winOf (s.g 6).toNat = 1 ∧ Reads s (homeOf (s.g 6).toNat) (offOf (s.g 6).toNat) p.1) ∧
    (∀ n ∈ [(4 : Nat), 8], ∀ a ∈ [(0x2000008000 : Nat), 0x5000008000, 0x7000008000], let s := one (BitVec.ofNat 64 a);
      Banked s (s.g 6) n winAny ∧ 2 ≤ winOf (s.g 6).toNat ∧
      ∀ p ∈ s.spans (s.mkAccess (.load true) (s.g 6) n .none false false .bank), Reads s (homeOf (s.g 6).toNat) p.1 p.2) := by
  decide +kernel

/-- Stores of 1.0 and 1.1, exact and inexact in BF16, with and without a trap on NX. -/
theorem witness_Stores :
    (∀ p ∈ [((1 : Nat), (0x1BFFF : Nat)), (2, 0x1BFFE), (4, 0x1BFFC), (8, 0x1BFF8)], let s := one (BitVec.ofNat 64 p.2);
      Banked s (s.g 6) p.1 winRaw ∧ winOf (s.g 6).toNat ≤ 1 ∧ Opens s (homeOf (s.g 6).toNat) (offOf (s.g 6).toNat) p.1 ∧
      s.partialPoison (spadKey (homeOf (s.g 6).toNat) (offOf (s.g 6).toNat)) p.1 = false) ∧
    (∀ n ∈ [(4 : Nat), 8], ∀ q ∈ [((0x3F800000 : Nat), false), (0x3F8CCCCD, true)], ∀ a ∈ [(0x2000008000 : Nat), 0x2000037FF0],
      let s := mine (one (BitVec.ofNat 64 a)) (fun x => { x.setG 7 (BitVec.ofNat 64 q.1) with csr := { UserCsrs.reset with fpctl := 0xF80 } })
      let w := winOf (s.g 6).toNat
      let off := offOf (s.g 6).toNat / 4 * elemBytes w
      let es := (if n = 4 then [lowW (s.g 7)] else [lowW (s.g 7), highW (s.g 7)]).map (encodeElem w (s.me.csr.fpctl.getLsbD 12))
      let fl := es.foldl (fun f e => f ||| e.2) (0 : Flags)
      Banked s (s.g 6) n winStore ∧ 2 ≤ w ∧ Opens s (homeOf (s.g 6).toNat) off (n / 4 * elemBytes w) ∧
      s.partialPoison (spadKey (homeOf (s.g 6).toNat) off) (n / 4 * elemBytes w) = false ∧
      decide ((fl &&& ((s.me.csr.fpctl >>> 7).setWidth 5)) ≠ 0) = q.2) := by
  decide +kernel

/-- A word of 5 and one of 0 in g5, for a swap and a failed one. -/
theorem witness_AtomicsInBank : ∀ p ∈ [((4 : Nat), (0x1BFFC : Nat)), (8, 0x1BFF8), (8, 0x1000000000)],
    let s := (mine (one (BitVec.ofNat 64 p.2)) (fun x => x.setG 7 5)).setNat (rawKey p.2) 1 5
    let key := spadKey (homeOf (s.g 6).toNat) (offOf (s.g 6).toNat)
    Banked s (s.g 6) p.1 winTwo ∧ Opens s (homeOf (s.g 6).toNat) (offOf (s.g 6).toNat) p.1 ∧ s.anyPoison key p.1 = false ∧
    BitVec.ofNat 64 (s.nat key p.1) = s.g 7 ∧ BitVec.ofNat 64 (s.nat key p.1) ≠ s.g 5 := by
  decide +kernel

/-- Addresses of another super-group, of V-space and, relaxed, of the core's own. -/
theorem witness_IssuedAccesses :
    (∀ n ∈ [(4 : Nat), 8, 64], let s := mine (one 0x0) (fun x => { x with unacked := (List.range 63).map (fun k => ⟨k, 0, none, false⟩) })
      (s.me.unacked.filter (fun u => u.fault.isNone)).length < 64 ∧ s.accessCause s.me (s.g 6) n winTwo = none) ∧
    (∀ n ∈ [(1 : Nat), 2, 4, 8, 16], ∀ p ∈ [((0x8000000000 : Nat), true, false), (0x100000000, true, false), (0x1B000, false, true)],
      let s0 := one (BitVec.ofNat 64 p.1)
      let s := s0.setPart 0 { s0.part 0 with sgs := 3 }
      isLarge s.cur.core = false ∧ s.me.relaxed = [] ∧ s.accessCause s.me (s.g 6) n winRaw = none ∧
      decide (2 ^ 39 ≤ (s.g 6).toNat ∨ nearBank s.cur.core (s.g 6).toNat = false) = p.2.1) ∧
    (let s0 := one 0x1B000; let s := s0.setPart 0 { s0.part 0 with run := .stopped 0 }
      isLarge s.cur.core = false ∧ s.me.relaxed = [] ∧ s.accessCause s.me (s.g 6) 8 winRaw = none ∧ nearBank s.cur.core (s.g 6).toNat = true ∧
      s.coreRuns (homeOf (s.g 6).toNat) = false) := by
  decide +kernel

/-- A cell of zero, and one whose value rounds, under enabled and disabled traps and floors. -/
theorem witness_ExactCells :
    (let s := one 0x1BFC0; Banked s (s.g 6) 64 winTwo ∧ Opens s (homeOf (s.g 6).toNat) (offOf (s.g 6).toNat) 64 ∧
      s.anyPoison (spadKey (homeOf (s.g 6).toNat) (offOf (s.g 6).toNat)) 64 = false) ∧
    (∀ q ∈ [((0 : Nat), (0 : Nat), false, false), (0x1F80, 0, true, false), (0, 0x7F, false, true)],
      let s := ((mine (one 0x1BFC0) (fun x => { x with csr := { x.csr with fpctl := BitVec.ofNat 13 q.1, sigfloor := BitVec.ofNat 7 q.2.1 } })).setNat (rawKey 0x1BFC0 + 8) 8
        0xFFFFFFFFFFFFFFF1).setNat (rawKey 0x1BFFE) 2 0x8000
      let e := cellElem s.me.rm (s.nat (spadKey (homeOf (s.g 6).toNat) (offOf (s.g 6).toNat)) 64)
      Banked s (s.g 6) 64 winTwo ∧ Reads s (homeOf (s.g 6).toNat) (offOf (s.g 6).toNat) 64 ∧
      decide ((e.fl &&& ((s.me.csr.fpctl >>> 7).setWidth 5)) ≠ 0) = q.2.2.1 ∧
      (e.finite && s.me.csr.sigfloor.getLsbD 6 && decide (e.tag.toNat < s.me.csr.sigfloor.toNat % 64)) = q.2.2.2) := by
  decide +kernel
/-- A cell with the given umax, count and value. -/
abbrev cellOf (u n : Nat) (v : Int) : Nat := u * 2 ^ 496 + n * 2 ^ 480 + (v % 2 ^ 480).toNat
/-- XCADD at its owner and in the thread's own super-group; cells of every kind, at the ends of the value's range and with a count
of 65535; addends that take them past it, of each sign, infinite, NaN and EXACT; and cells that read as each row of R98. -/
theorem witness_ExactCells_adds :
    (let a := acc (.xcadd 0x3F800000 24) 0x100004000 64 .owner; let s := inService (flying mapped w0 0 (.access a)) (homeOf a.ea)
      s.msg? 7 = some (sent w0 0 (.access a)) ∧ winOf a.ea ≤ 1 ∧ s.inOrder (sent w0 0 (.access a)) = true ∧ s.servesNext (homeOf a.ea) 7 = true ∧
      Opens s (homeOf a.ea) (offOf a.ea) 64 ∧ s.anyPoison (spadKey (homeOf a.ea) (offOf a.ea)) 64 = false) ∧
    (let a := { acc (.xcadd 0x3F800000 24) 0x1BFC0 64 .bank with ff := true }; let s := flying mapped w0 0 (.access a)
      s.msg? 7 = some (sent w0 0 (.access a)) ∧ winOf a.ea ≤ 1 ∧ s.inOrder (sent w0 0 (.access a)) = true ∧ s.coreRuns (homeOf a.ea) = true ∧ s.mayAct 0 7 = true ∧
      Opens s (homeOf a.ea) (offOf a.ea) 64 ∧ s.anyPoison (spadKey (homeOf a.ea) (offOf a.ea)) 64 = false) ∧
    (∀ p ∈ [((0x7FFF : Nat), (65535 : Nat), (0 : Int)), (0x7FFE, 1, 5), (0x7FFD, 0, -5), (0x8000, 0, 0), (0, 1, 2 ^ 479 - 1), (5, 2, -2 ^ 479)],
      let c := cellOf p.1 p.2.1 p.2.2; c / 2 ^ 496 % 2 ^ 16 = p.1 ∧ c / 2 ^ 480 % 2 ^ 16 = p.2.1 ∧ cellValue c = p.2.2) ∧
    (f32.value 1).units (-149) = 1 ∧ (f32.value 0x80000001).units (-149) = -1 ∧ (f32.value 0).units (-149) = 0 ∧
    f32.unc 0x3F800000 (readTag 24 63) = none ∧ f32.unc 0x3F800000 (readTag 24 24) = some (-23) ∧
    (∀ p ∈ [((0x8000 : Nat), (1 : Nat), (2 ^ 24 + 1 : Int), false, true), (0x8000, 0, 2, true, true), (5, 0, 3, true, true), (5, 3, 0, true, true), (5, 3, 8, true, true),
        (5, 3, 2 ^ 24 + 1, false, true), (5, 3, 2 ^ 479 - 1, false, false)],
      let e := cellElem .rne (cellOf p.1 p.2.1 p.2.2.1); (!e.fl.getLsbD 0) = p.2.2.2.1 ∧ f32.isFinite e.val = p.2.2.2.2) ∧
    (3 ≤ 2 ^ 2 ∧ 2 ^ (2 - 1) < 3) := by
  decide +kernel

/-- The end of the user area through RAW and TAGGED, BF16X and U8X elements, and a store of 1.1 in BF16. -/
theorem witness_VectorMemory :
    (∀ a ∈ [(0x1BFF0 : Nat), 0x100001BFF0], ∀ n ∈ [(4 : Nat), 8, 16], let s := one (BitVec.ofNat 64 a)
      Banked s (s.g 6) n winTwo ∧ Reads s (homeOf (s.g 6).toNat) (offOf (s.g 6).toNat) n ∧
      Opens s (homeOf (s.g 6).toNat) (offOf (s.g 6).toNat) 16 ∧ s.partialPoison (spadKey (homeOf (s.g 6).toNat) (offOf (s.g 6).toNat)) 16 = false) ∧
    (∀ a ∈ [(0x2000008000 : Nat), 0x7000008000], ∀ n ∈ [(4 : Nat), 16], let s := one (BitVec.ofNat 64 a)
      Banked s (s.g 6) n winAny ∧ 2 ≤ winOf (s.g 6).toNat ∧
      ∀ p ∈ s.spans (s.mkAccess (.vload false false) (s.g 6) n .none false false .bank), Reads s (homeOf (s.g 6).toNat) p.1 p.2) ∧
    (∀ q ∈ [((0x3F800000 : Nat), false), (0x3F8CCCCD, true)],
      let s := mine (one 0x2000008000) (fun x => { x.setLane 9 0 (BitVec.ofNat 32 q.1) 24 with csr := { UserCsrs.reset with fpctl := 0xF80 } })
      let w := winOf (s.g 6).toNat
      let off := offOf (s.g 6).toNat / 4 * elemBytes w
      let fl := ((List.range 4).map (fun l => encodeElem w (s.me.csr.fpctl.getLsbD 12) (s.me.lane 9 l))).foldl (fun f e => f ||| e.2) (0 : Flags)
      Banked s (s.g 6) 16 winStore ∧ 2 ≤ w ∧ Opens s (homeOf (s.g 6).toNat) off (4 * elemBytes w) ∧
      s.partialPoison (spadKey (homeOf (s.g 6).toNat) off) (4 * elemBytes w) = false ∧
      decide ((fl &&& ((s.me.csr.fpctl >>> 7).setWidth 5)) ≠ 0) = q.2) := by
  decide +kernel

/-- A form whose checks at issue are tried: the instruction, with the values of its state's g6 and of csr.olscale. -/
abbrev tried (i : Instr) (v ol : Nat) (P : State → MemAccess → Prop) : Prop :=
  let s := mine (one (BitVec.ofNat 64 v)) (fun x => { x with csr := { x.csr with olscale := BitVec.ofNat 17 ol } })
  ∃ p ∈ s.memoryForms 5 6 7 9 0 1 0, p.instr = i ∧ P s p

/-- Misaligned addresses, addresses past 2^56, every stop of S-space at the first address that it meets, and the last ones
that it does not. -/
theorem witness_AccessChecks :
    (∀ q ∈ [(Instr.lh 5 6 0 0, (0x4001 : Nat)), (.ld 5 6 0 0, 0x4004), (.vldF32 9 6 0 0, 0x4008), (.aadd 5 6 7 0 1, 0x4004), (.redadd 6 7 1, 0x4004),
        (.xcread 5 6, 0x4020)], tried q.1 q.2 0 (fun _ p => p.ea.toNat % p.size ≠ 0)) ∧
    (∀ q ∈ [Instr.lb 5 6 0 0, .vstF64 9 6 0 0, .xcclr 6], tried q (2 ^ 56) 0 (fun _ p => p.ea.toNat % p.size = 0 ∧ 2 ^ 56 ≤ p.ea.toNat)) ∧
    (∀ q ∈ [(Instr.lb 5 6 0 0, (0x1000000000 : Nat), (0 : Nat)), (.sw 5 6 0 0, 0x5000000000, 0), (.vldF64 9 6 0 0, 0x2000000000, 0), (.acas 5 6 7 0 1, 0x7000000000, 0)],
      tried q.1 q.2.1 q.2.2 (fun _ p => p.ea.toNat % p.size = 0 ∧ p.ea.toNat < 2 ^ 39 ∧ p.windows.contains (winOf p.ea.toNat) = false)) ∧
    (∀ q ∈ [(Instr.ld 5 6 0 0, (0x20000 : Nat)), (.lw 5 6 0 0, 0x2000040000), (.lw 5 6 0 0, 0x50000E0000), (.vldF32 9 6 0 0, 0x3000080000)],
      tried q.1 q.2 0 (fun _ p => p.ea.toNat % p.size = 0 ∧ p.ea.toNat < 2 ^ 39 ∧ spanEnd (winOf p.ea.toNat) ≤ offOf p.ea.toNat)) ∧
    (∀ q ∈ [Instr.ld 5 6 0 0, .redmax 6 7 1, .vstF32 9 6 0 0],
      tried q 0x100000000 0 (fun s p => p.ea.toNat % p.size = 0 ∧ p.ea.toNat < 2 ^ 39 ∧ s.inPart s.me.part (homeOf p.ea.toNat) = false)) ∧
    (∀ q ∈ [(Instr.sb 5 6 0 0, (0x1C000 : Nat)), (.xcread 5 6, 0x1C000), (.vldF32 9 6 0 0, 0x2000038000), (.lw 5 6 0 0, 0x3000070000)],
      tried q.1 q.2 0 (fun s p => p.ea.toNat % p.size = 0 ∧ p.ea.toNat < 2 ^ 39 ∧ s.me.mode = .user ∧ Meets p.ea.toNat p.size)) ∧
    (∀ q ∈ [((0 : Nat), (0x1C000 : Nat)), (0xDFF80, 0x1A401)],
      tried (.lw 5 6 0 0) (0x5000000000 + q.1) q.2 (fun s p => p.ea.toNat % p.size = 0 ∧ p.ea.toNat < 2 ^ 39 ∧ winOf p.ea.toNat = 5 ∧
        0x1C000 ≤ s.me.csr.olscale.toNat + offOf p.ea.toNat / 4 / 32)) ∧
    (∀ q ∈ [(Instr.sb 5 6 0 0, (0x1BFFF : Nat), (0 : Nat)), (.ld 5 6 0 0, 0x1BFF8, 0), (.xcread 5 6, 0x1BFC0, 0), (.vldF32 9 6 0 0, 0x2000037FF0, 0),
        (.lw 5 6 0 0, 0x300006FFFC, 0), (.lw 5 6 0 0, 0x50000DFFFC, 0x1A400), (.ld 5 6 0 0, 0x8000000000, 0), (.ld 5 6 0 0, 0xFFFFFFFFFFFFF8, 0)],
      tried q.1 q.2.1 q.2.2 (fun s p => p.ea.toNat % p.size = 0 ∧ p.ea.toNat < 2 ^ 56 ∧ (p.ea.toNat < 2 ^ 39 →
        ¬ (p.windows.contains (winOf p.ea.toNat) = false ∨ spanEnd (winOf p.ea.toNat) ≤ offOf p.ea.toNat ∨
          s.inPart s.me.part (homeOf p.ea.toNat) = false ∨ (s.me.mode = .user ∧ Meets p.ea.toNat p.size) ∨
          (winOf p.ea.toNat = 5 ∧ 0x1C000 ≤ s.me.csr.olscale.toNat + offOf p.ea.toNat / 4 / 32))))) := by
  decide +kernel

/-- An access at each station: translated, faulted, held and performed in device memory and at its owner. -/
theorem witness_AccessesAtMemory :
    (let a := acc (.load false) 0x803FFFFFF8 8 .walk; let s := flying mapped w0 5 (.access a)
      s.msg? 7 = some (sent w0 5 (.access a)) ∧
      ({ s with cached := false } : State).translate a.part a.pid (a.op.need false) a.ea = .ok (devKey 0x7FFFFFF8) none) ∧
    (let a := acc (.load false) 0x8040000000 8 .walk; let s := flying mapped w0 5 (.access a)
      s.msg? 7 = some (sent w0 5 (.access a)) ∧
      ({ s with cached := false } : State).translate a.part a.pid (a.op.need false) a.ea = .fault .page) ∧
    (let a := acc (.load false) 0x8000000000 8 (.held 0 false); let s := flying mapped w0 5 (.access a)
      s.msg? 7 = some (sent w0 5 (.access a)) ∧ s.heldBefore (sent w0 5 (.access a)) 0 a.pid a.ea = false ∧
      ({ s with cached := false } : State).translate a.part a.pid (a.op.need false) a.ea = .ok (devKey 0x40000000) none) ∧
    (let a := acc (.load false) 0x8000000000 8 (.held 0 false)
      let m := mapped.setNat (devKey 0x1000000) 8 (2 + 8 + 16 + 2 ^ 12)
      let s := flying { m with sys := { m.sys with meridian := 10000000 } } w0 5 (.access a)
      s.msg? 7 = some (sent w0 5 (.access a)) ∧ s.sys.meridian ≥ 0 + 10000000 ∧
      ({ s with cached := false } : State).leafOf a.part a.pid a.ea = .moving) ∧
    (let a := acc (.load false) 0x8000000000 8 (.edge (devKey 0x40000000) none)
      let s := inEdge (flying mapped w0 5 (.access a)) (devKey 0x40000000)
      let m := sent w0 5 (.access a)
      s.msg? 7 = some m ∧ s.keyExists (devKey 0x40000000) = true ∧ s.inOrder m = true ∧ s.edgeServes m (devKey 0x40000000) = true ∧
      isLarge m.src.core = false ∧ devKey 0x40000000 < 2 ^ 61 ∧
      blocksLoad (s.vMeets a.pid a.ea (a.ea + a.size)) = false ∧ s.anyPoison (devKey 0x40000000) a.size = false) ∧
    (∀ op ∈ [AccOp.load false, .atomic 0 1 0], let a := acc op 0x8000000000 8 (.edge (hostKey 0x1000) none)
      let s0 := inEdge (flying mapped w0 5 (.access a)) (hostKey 0x1000)
      let s : State := { s0 with sys := { s0.sys with fenced := true } }
      let m := sent w0 5 (.access a)
      s.msg? 7 = some m ∧ 2 ^ 61 ≤ hostKey 0x1000 ∧ s.sys.fenced = true ∧ s.inOrder m = true ∧ s.edgeServes m (hostKey 0x1000) = true ∧
      s.postedMeets (hostKey 0x1000) a.size = false) ∧
    (let a := acc (.load false) 0x100004000 8 .owner; let s := inService (flying mapped w0 5 (.access a)) (homeOf a.ea)
      s.msg? 7 = some (sent w0 5 (.access a)) ∧ s.servesNext (homeOf a.ea) 7 = true ∧ s.inOrder (sent w0 5 (.access a)) = true ∧ winOf a.ea = 0 ∧
      Reads s (homeOf a.ea) (offOf a.ea) a.size) := by
  decide +kernel

/-- A write to device memory with shadow bytes, and to host memory, beside a posted write to other bytes. -/
theorem witness_EdgeWrites :
    ∀ o ∈ [(AccOp.store 1 0, (8 : Nat)), (.atomic 0 1 0, 8), (.atomic 6 1 0, 4), (.atomic 9 1 0, 8), (.atomic 9 1 5, 4), (.reduce 0 1, 8), (.reduce 4 1, 4),
        (.xcadd 0x3F800000 24, 64)],
    ∀ p ∈ [(devKey 0x40000000, some (devKey 0x50000000), true), (devKey 0x40000000, some (devKey 0x50000000), false), (hostKey 0x1000, none, false)],
      let a := acc o.1 0x8000000000 o.2 (.edge p.1 p.2.1)
      let s0 := inEdge { flying mapped w0 5 (.access a) with posted := [{ thread := 1, launch := 0, ea := 0x8000000048, key := hostKey 0x1048, old := [0] }] } p.1
      let s : State := { s0 with sys := { s0.sys with fenced := p.2.2 } }
      let m := sent w0 5 (.access a)
      s.msg? 7 = some m ∧ s.keyExists p.1 = true ∧ s.inOrder m = true ∧ s.edgeServes m p.1 = true ∧ isLarge m.src.core = false ∧ 2 ^ 60 ≤ p.1 ∧
      blocksStore (s.vMeets a.pid a.ea (a.ea + a.size)) = false ∧ s.anyPoison p.1 a.size = false ∧
      (∀ j ∈ p.2.1.toList, s.anyPoison j ((a.size + 3) / 4) = false) ∧ s.postedMeets p.1 a.size = false ∧
      (s.sys.fenced = true → p.1 < 2 ^ 61 ∧ ∀ j ∈ p.2.1.toList, j < 2 ^ 61) ∧
      (o.1 = .atomic 9 1 0 → s.nat p.1 8 = 0) ∧ (o.1 = .atomic 9 1 5 → s.nat p.1 4 ≠ 5) := by
  decide +kernel

/-- A load's reply, plain and relaxed, a relaxed fault, and an acknowledgement with and without a cause. -/
theorem witness_RepliesArrive :
    (let a := acc (.load true) 0x8000000000 8 (.answered (.data [(1, 0), (0, 0)] 0)); let s := flying (mine mapped (fun x => { x with park := .reply 7 })) w0 5 (.access a)
      s.msg? 7 = some (sent w0 5 (.access a)) ∧ s.mayAct 0 7 = true ∧ a.ff = false ∧ a.relaxed = false ∧ (s.slot w0).park = .reply 7 ∧
      (isLarge w0.core && s.readsTail a) = false) ∧
    (let a := acc (.load true) 0x8000000004 4 (.answered (.data [(1, 0)] 0))
      let w : Who := ⟨65536, 0⟩
      let s := flying (({ mapped.setSlot w { mapped.me with park := .reply 7 } with cur := w } : State).setNat (rawKey 0x4000) 4 0) w 5 (.access { a with ea := 0x4004 })
      let s := (s.setNat (rawKey 0x4008) 4 256).setNat (rawKey 0x400C) 4 1
      s.msg? 7 = some (sent w 5 (.access { a with ea := 0x4004 })) ∧ s.mayAct 65536 7 = true ∧ a.ff = false ∧ a.relaxed = false ∧ (s.slot w).park = .reply 7 ∧
      (isLarge w.core && s.readsTail { a with ea := 0x4004 }) = true) ∧
    (∀ rlx ∈ [true, false], let a := { acc (.vload true false) 0x8000000000 16 (.answered (.data [(1, 5), (2, 5), (3, 6), (4, 6)] 0)) with dest := .vector 9, relaxed := rlx }
      let s := flying (mine mapped (fun x => { x with park := if rlx then .ready else .reply 7, relaxed := if rlx then [⟨7, .vector 9, none⟩] else [] })) w0 5 (.access a)
      s.msg? 7 = some (sent w0 5 (.access a)) ∧ s.mayAct 0 7 = true ∧ (rlx = false → (s.slot w0).park = .reply 7) ∧
      (rlx = true → (s.slot w0).relaxed.any (fun q => q.id == 7) = true) ∧ (isLarge w0.core && s.readsTail a) = false) ∧
    (let a := { acc (.vload false true) 0x4004 4 (.answered (.data [(1, 0)] 0)) with dest := .vector 9 }
      let w : Who := ⟨65536, 0⟩
      let s := flying (({ mapped.setSlot w { mapped.me with park := .reply 7 } with cur := w } : State).setNat (rawKey 0x4000) 4 0) w 5 (.access a)
      let s := (s.setNat (rawKey 0x4008) 4 256).setNat (rawKey 0x400C) 4 1
      s.msg? 7 = some (sent w 5 (.access a)) ∧ s.mayAct 65536 7 = true ∧ (s.slot w).park = .reply 7 ∧ (isLarge w.core && s.readsTail a) = true) ∧
    (∀ st ∈ [Stage.answered (.data [(1, 0), (0, 0)] 0), .answered (.fault .page 0x8000000000)],
      let a := { acc (.load true) 0x8000000000 8 st with relaxed := true }
      let s := flying (mine mapped (fun x => { x with relaxed := [⟨7, .general 5, none⟩] })) w0 5 (.access a)
      s.msg? 7 = some (sent w0 5 (.access a)) ∧ s.mayAct 0 7 = true ∧ a.ff = false ∧ a.relaxed = true ∧
      (s.slot w0).relaxed.any (fun q => q.id == 7) = true ∧ Cause.page ≠ .fpexc) ∧
    (∀ st ∈ [Stage.answered (.data [] 0), .answered (.fault .page 0x8000000000)],
      let a := { acc (.reduce 0 1) 0x8000000000 8 st with ff := true }; let s := flying mapped w0 0 (.access a)
      s.msg? 7 = some (sent w0 0 (.access a)) ∧ s.mayAct 0 7 = true ∧ a.ff = true) := by
  decide +kernel

/-! ### Fences, migration and messages -/

/-- A slot of large core 65536. -/
def large : State := { mapped with cur := ⟨65536, 0⟩ }
theorem witness_Fences :
    (∀ s ∈ [mapped, large], s.me.relaxed = [] ∧ s.me.unacked = [] ∧ s.sys.fenced = false ∧ ∀ p ∈ s.posted, p.thread ≠ s.me.thread) ∧
    (let s := { mapped with posted := [{ thread := mapped.me.thread, launch := 0, ea := 0x8000000000, key := hostKey 0x1000, old := [0] }] };
      s.me.relaxed = [] ∧ s.me.unacked = [] ∧ s.sys.fenced = false ∧ ¬ ∀ p ∈ s.posted, p.thread ≠ s.me.thread) ∧
    isLarge mapped.cur.core = false ∧ isLarge large.cur.core = true ∧
    (let s := { mapped with sys := { mapped.sys with fenced := true } }; s.me.relaxed = [] ∧ s.me.unacked = [] ∧ s.sys.fenced = true) ∧
    (let s := mine mapped (fun x => { x with relaxed := [⟨7, .general 5, none⟩] }); s.me.outstanding ≠ []) ∧
    (let s := mine mapped (fun x => { x with unacked := [⟨7, 0, none, false⟩] }); s.me.relaxed = [] ∧ s.me.unackedNow ≠ []) := by
  decide +kernel

/-- Ten and eleven registers, the core's own address, another's, of a thread, a serving owner and a matrix slot, and each
cause. -/
theorem witness_Migration :
    let n := fun (m : Nat) => ((List.range 32).filter (fun k => ((BitVec.ofNat 32 m) &&& 0xFFFFFFF6).getLsbD k)).length
    n 0x3FF0 = 10 ∧ n 0x7FF0 = 11 ∧
    (∀ p ∈ [((0x1BFFF : Nat), true), (0x7000100000, false)], let s := one (BitVec.ofNat 64 p.1); let v := s.g 6; let o := v.toNat / 2 ^ 20 % 2 ^ 16
      s.me.locks = [] ∧ s.me.relaxed = [] ∧ s.me.unacked = [] ∧ v.toNat < 2 ^ 39 ∧ s.inPart s.me.part o = true ∧ decide (o = s.cur.core) = p.2) ∧
    (∀ p ∈ [((0 : Nat), true), (4095, false)], let s := one (BitVec.ofNat 64 p.1); let v := s.g 6
      migtoOk v = true ∧ destPeer v = 0 ∧ s.inPart s.me.part (destCore v) = true ∧ decide (destCore v = s.cur.core) = p.2) ∧
    (∀ p ∈ [(none, (7 : Nat), false), (some (0x4000 : Nat), 7, false), (none, 0, true)],
      let s := (mine (one 0x1BFFF) (fun x => { x with serving := p.1 })).setTile 0 { Tile.reset with mslots := [(0, p.2.1)] }
      s.me.locks = [] ∧ s.me.relaxed = [] ∧ s.me.unacked = [] ∧ s.me.serving = p.1 ∧ isLarge s.cur.core = false ∧ s.cur.slot < 8 ∧
      decide ((s.tile (tileOf s.cur.core)).mslot (s.cur.core % 16) = s.cur.slot) = p.2.2) ∧
    (2 ^ 39 ≤ ((one 0x8000000000).g 6).toNat ∧ (let s := one 0x100000000; s.inPart s.me.part ((s.g 6).toNat / 2 ^ 20 % 2 ^ 16) = false)) ∧
    (one 0x1000000000000).g 6 >>> 48 ≠ 0 ∧ ((one 0x8000000).g 6 >>> 17).setWidth 11 ≠ 0#11 ∧ ((one 0x10000000).g 6 >>> 28).setWidth 4 ≠ 0#4 := by
  decide +kernel

/-- A full and an empty core for a packet, and a spawn at the last free spill entry. -/
theorem witness_Spawning :
    (one 2).g 6 % 4 ≠ 0 ∧
    (let s := (mine (one 0x100000) (fun x => x.setG 7 0x8000000100)).setCore 0 { Core.reset with spawned := 63, spill := List.replicate 63 ctx }
      let k := s.core s.cur.core
      (s.g 7).toNat % 4 = 0 ∧ (s.g 6).toNat < 2 ^ 39 ∧ s.inPart s.me.part ((s.g 6).toNat / 2 ^ 20 % 2 ^ 16) = true ∧ s.me.relaxed = [] ∧
      k.spawned < 64 ∧ k.spill.length + k.reserved.length < 64) ∧
    (∀ p ∈ [((0 : Nat), (0 : Nat), false), (7, 0, true), (8, 63, true), (8, 64, true)],
      let full := (List.range 8).foldl (fun (s : State) k => s.setSlot ⟨1, k⟩ placedThread) mapped
      let s := atCore (flying (({ (if p.2.2 then full else mapped) with cur := w0 } : State).setCore 1
        { Core.reset with arrival := List.replicate p.1 ctx, spill := List.replicate p.2.1 ctx }) w0 0 (.packet ctx 1 0 0 0)) 1
      s.msg? 7 = some (sent w0 0 (.packet ctx 1 0 0 0)) ∧ s.admitsNext 1 7 = true ∧ s.workWaits 1 = false ∧
      (isLarge 1 = false ∨ s.inPart ctx.part 1 = true) ∧
      (s.core w0.core).reserved.contains 7 = false ∧ s.freeUser 1 = (if p.2.2 then none else some 0)) ∧
    (let s := atCore (flying mapped w0 0 (.packet { ctx with part := 1 } 65536 0 0 0)) 65536;
      s.msg? 7 = some (sent w0 0 (.packet { ctx with part := 1 } 65536 0 0 0)) ∧ s.admitsNext 65536 7 = true ∧ s.workWaits 65536 = false ∧
      ¬ (isLarge 65536 = false ∨ s.inPart 1 65536 = true) ∧ (s.core 65536).spill = [] ∧ (s.core w0.core).reserved.contains 7 = false) := by
  decide +kernel

/-- A packet accepted, refused and due again; a forwarding entry at its age; and a slot that takes each kind of work. -/
theorem witness_RepliesAndSlots :
    (∀ st ∈ [(1 : Nat), 2, 3], let s := flying (mine mapped (fun x => { x with park := .migrating 7 })) w0 0 (.packet ctx 1 6 st 0)
      s.msg? 7 = some (sent w0 0 (.packet ctx 1 6 st 0)) ∧ s.mayAct 0 7 = true ∧ s.coreRuns 0 = true ∧ (s.slot w0).park = .migrating 7 ∧ 0 ≤ s.sys.meridian) ∧
    (let s := ({ mapped with sys := { mapped.sys with meridian := 2410 } } : State).setCore 0 { Core.reset with forwards := [⟨2, 1, 0⟩] };
      (s.core 0).forwards.find? (fun f => f.slot == 2) = some ⟨2, 1, 0⟩ ∧ 40960 ≤ (s.sys.meridian - 0) * 17 ∧
      s.coreRuns 0 = true ∧ (s.core 0).forwards.any (fun f => f.slot == 3) = false) ∧
    (∀ k ∈ [{ Core.reset with arrival := List.replicate 8 ctx, spill := [ctx] }, { Core.reset with runList := [.task 0x100 3] },
        { Core.reset with spill := [ctx, ctx] }],
      let s := { mapped.setCore 0 k with launches := [job 3] }
      let u := [2, 3, 4, 5, 6].foldl (fun (q : State) j => q.setSlot ⟨0, j⟩ { Slot.reset with occ := true }) s
      s.coreRuns 0 = true ∧ s.freeUser 0 = some 1 ∧ (s.launch? 3).isSome = true ∧ (s.liveTouch 0 0x100 4 = false) ∧
      u.coreRuns 0 = true ∧ u.freeUser 0 = some 1 ∧ (u.core 0).arrival = k.arrival ∧ (∀ j ∈ userSlots 0, j ≠ 1 → (u.slot ⟨0, j⟩).occ = true) ∧
      (k.arrival ≠ [] ∨ (k.arrival = [] ∧ k.runList ≠ []) ∨ (k.arrival = [] ∧ k.runList = [] ∧ k.spill ≠ []))) ∧
    (∀ n ∈ [(0 : Nat), 7], let k := { Core.reset with spill := [ctx, ctx], arrival := List.replicate n ctx, pos := 31 }
      let s := (List.range 7).foldl (fun (q : State) j => q.setSlot ⟨0, j⟩ { placedThread with park := .quiesce }) (mapped.setCore 0 k)
      s.coreRuns 0 = true ∧ s.focus = 0 ∧ s.agenda = [] ∧ (s.core 0).pos ≠ 0 ∧ s.pickSlot 0 = none ∧ s.freeUser 0 = none ∧ (s.core 0).spill = ctx :: [ctx] ∧
      (s.core 0).arrival.length < 8) := by
  decide +kernel

/-- Destinations at their bounds, with and without room. -/
theorem witness_Sending :
    (∀ p ∈ [((0x8F00FFF : Nat), true), (0x8F01000, false)],
      let s0 := one (BitVec.ofNat 64 p.1); let s := s0.setPart 0 { s0.part 0 with sgs := 3 }
      let dw := s.g 6; let c := dw.toNat % 2 ^ 16
      destOk dw = true ∧ dw.toNat / 2 ^ 24 % 16 ≤ 8 ∧ dw.toNat / 2 ^ 32 = 0 ∧ dw.toNat / 2 ^ 16 % 2 = 0 ∧ s.inPart s.me.part c = true ∧ s.me.relaxed = [] ∧
      isLarge s.cur.core = false ∧ decide (sgOf c = sgOf s.cur.core) = p.2 ∧ s.coreRuns c = true ∧ (s.box c 15).length < 4 ∧ s.parkedMail c 15 = none ∧ s.receiver c 15 = none ∧
      (s.drop s.nextId).hears s.cur.core = true) ∧
    (let s := (one 0x8F00FFF).setCore 0xFFF { Core.reset with boxes := [(15, List.replicate 4 ⟨[], 0, false⟩)] };
      destOk (s.g 6) = true ∧ s.inPart s.me.part 0xFFF = true ∧ s.coreRuns 0xFFF = true ∧ 4 ≤ (s.box 0xFFF 15).length ∧ (s.drop s.nextId).hears 0 = true) ∧
    (let s0 := one 0x8F00FFF;
      let s := s0.setPart 0 { s0.part 0 with run := .stopping 0 };
      destOk (s.g 6) = true ∧ s.inPart s.me.part 0xFFF = true ∧ s.coreRuns 0xFFF = false) ∧
    (∀ v ∈ [(0x1000000000000 : Nat), 0x10000000, 0x20000, 0x9000000], let dw := BitVec.ofNat 64 v
      dw >>> 48 ≠ 0 ∨ (dw >>> 28).setWidth 4 ≠ 0#4 ∨ (dw >>> 17).setWidth 3 ≠ 0#3 ∨ 8 < ((dw >>> 24).setWidth 4).toNat) ∧
    (let s := one 0x8F01000; destOk (s.g 6) = true ∧ ((s.g 6 >>> 24).setWidth 4).toNat ≤ 8 ∧ (s.g 6) >>> 32 = 0 ∧
      s.inPart s.me.part (destCore (s.g 6)) = false) := by
  decide +kernel
/-- A letter of no payload. -/
def letter : Mail := ⟨[], 0, false⟩
/-- A box of core 0 with n letters. -/
def boxed (b n : Nat) : State := mapped.setCore 0 { Core.reset with boxes := [(b, List.replicate n letter)] }

/-- Core 0 holds a message that goes before what is sent to it now. -/
def deaf (s : State) : State := { s.setCore 0 { s.core 0 with buffer := [3] } with net := ⟨3, w0, 0, .ack 0 none false⟩ :: s.net }

theorem witness_Mailboxes :
    (let s := boxed 15 1; ((0x8001 : Word).setWidth 16).getLsbD 15 = true ∧ s.box 0 15 = letter :: [] ∧ s.box 0 0 = [] ∧
      s.parkedMail 0 15 = none ∧ isLarge 0 = false) ∧
    ((∀ j, j < 16 → ((0x7FFF : Word).setWidth 16 : BitVec 16).getLsbD j = true → (boxed 15 1).box 0 j = []) ∧ (0x10000 : Word).setWidth 16 = 0#16) ∧
    (∀ p ∈ [((3 : Nat), false), (4, false), (4, true)],
      let b := Body.mail 0 15 letter p.2 false false 0; let s := flying (mine (boxed 15 p.1) (fun x => { x with park := .reply 7 })) w0 5 b
      s.msg? 7 = some (sent w0 5 b) ∧ s.mayAct 0 7 = true ∧ (s.slot w0).park = .reply 7 ∧ s.inOrder (sent w0 5 b) = true ∧
      (s.box 0 15).length = p.1 ∧ s.parkedMail 0 15 = none ∧ s.receiver 0 15 = none ∧ (s.drop 7).hears 0 = true) ∧
    (let b := Body.mail 1 15 letter false false false 0; let s0 := deaf (flying (mine mapped (fun x => { x with park := .reply 7 })) w0 5 b)
      s0.msg? 7 = some (sent w0 5 b) ∧ s0.mayAct 1 7 = true ∧ (s0.slot w0).park = .reply 7 ∧ s0.inOrder (sent w0 5 b) = true ∧
      (s0.box 1 15).length = 0 ∧ s0.parkedMail 1 15 = none ∧ s0.receiver 1 15 = none ∧ (s0.drop 7).hears 0 = false) ∧
    (let b := Body.mail 0 15 letter true false false 0
      let s := flying ((mine mapped (fun x => { x with park := .reply 7 })).setSlot ⟨0, 6⟩ { placedThread with park := .recv 0x8000 4 1 }) w0 5 b
      s.msg? 7 = some (sent w0 5 b) ∧ (s.slot w0).park = .reply 7 ∧ s.mayAct 0 7 = true ∧ s.inOrder (sent w0 5 b) = true ∧ (s.box 0 15).length < 4 ∧ s.parkedMail 0 15 = none ∧
      (s.drop 7).hears 0 = true ∧ s.receiver 0 15 = some (⟨0, 6⟩, 4) ∧ slotKey ⟨0, 6⟩ ≠ slotKey w0) ∧
    (let b := Body.mail 0 15 letter false false true 0; let s := flying (mine (boxed 15 3) (fun x => { x with park := .reply 7 })) w0 5 b
      s.msg? 7 = some (sent w0 5 b) ∧ s.coreRuns 0 = true ∧ (s.slot w0).park = .reply 7 ∧
      s.parkedMail 0 15 = some (sent w0 5 b, letter, false, 0) ∧ (s.box 0 15).length = 3 ∧ s.receiver 0 15 = none ∧ (s.drop 7).hears 0 = true) := by
  decide +kernel

/-- A ring of 256 bytes at offset 0x4000 of core 0, its head, tail and flags given. -/
def ring (s : State) (head tail flags : Nat) : State :=
  (((s.setNat (rawKey 0x4000) 4 head).setNat (rawKey 0x4004) 4 tail).setNat (rawKey 0x4008) 4 256).setNat (rawKey 0x400C) 4 flags
/-- The status that a ring answers with. -/
def statusOf (r : State × RingAnswer) : Option Nat := match r.2 with | .status v => some v | _ => none
theorem witness_Appending :
    (∀ n ∈ [(0 : Nat), 1, 8, 9, 15], (n = 0 ∨ 8 < n ∧ n < 16) ∨ (1 ≤ n ∧ n ≤ 8)) ∧
    (∀ p ∈ [((0 : Nat), (240 : Nat), (1 : Nat)), (0, 240, 0), (0, 256, 1)], let s := ring (one 0x4000) p.1 p.2.1 p.2.2
      let key := spadKey 0 0x4000; let size := s.nat (key + 8) 4; let tail := s.nat (key + 4) 4; let used := (tail + 2 ^ 32 - s.nat key 4) % 2 ^ 32
      (s.g 6).toNat % 64 = 0 ∧ (s.g 6).toNat < 2 ^ 36 ∧ (s.g 6).toNat % 2 ^ 20 < 0x1C000 ∧ s.inPart s.me.part 0 = true ∧ s.me.relaxed = [] ∧
      isLarge s.cur.core = false ∧ s.coreRuns 0 = true ∧ s.anyPoison key 16 = false ∧
      decide (s.nat (key + 12) 4 % 2 = 1 ∧ 256 ≤ size ∧ size ≤ 65536 ∧ 2 ^ Nat.log2 size = size ∧ used ≤ size) = decide (p.2.2 = 1) ∧
      s.ringParked 0x4000 = false ∧ tail % size + 16 ≤ size ∧ decide (16 ≤ size - used) = decide (p.2.1 = 240) ∧
      s.ringCause 0 (0x4000 + 64 + tail % size) 16 = none ∧ s.ringCause 0 0x4004 4 = none ∧ (s.drop s.nextId).hears 0 = true) ∧
    (∀ p ∈ [((240 : Nat), (1 : Nat), (0 : Nat)), (256, 1, 1), (240, 0, 2)], let b := Body.append 0x4000 [5] false false false 0
      let s := flying (mine (ring mapped 0 p.1 p.2.1) (fun x => { x with park := .reply 7 })) w0 5 b
      s.msg? 7 = some (sent w0 5 b) ∧ s.mayAct (homeOf 0x4000) 7 = true ∧ s.inOrder (sent w0 5 b) = true ∧ (s.slot w0).park = .reply 7 ∧
      (s.drop 7).hears 0 = true ∧ statusOf (s.ringStep w0 0x4000 [5] (s.ringParked 0x4000)) = some p.2.2) ∧
    (let b := Body.append 0x4000 [5] false true true 0; let s := flying (mine (ring mapped 0 240 1) (fun x => { x with park := .reply 7 })) w0 5 b
      s.net = [sent w0 5 b] ∧ s.coreRuns (homeOf 0x4000) = true ∧ (s.drop 7).hears 0 = true ∧ (s.slot w0).park = .reply 7 ∧ statusOf (s.ringStep w0 0x4000 [5] false) = some 0) ∧
    (destPeer (0x100000000 : Word) ≠ 0 ∧
      (let s := mapped.setCore 0 { Core.reset with boxes := [(15, [⟨[], 0x100000000, false⟩])] }; (s.box 0 15).any (fun x => !x.gone && sameContext x.sender 0x100000000) = true) ∧
      (let s := (mine mapped (fun x => { x with park := .recv 0x8001 5 1 })).setCore 0 { Core.reset with boxes := [(15, [⟨[], 0x100000000, false⟩])] };
        (s.cores.flatMap (fun p => p.2.boxes.map (fun q => (p.1, q.1)))).Nodup ∧ (s.net.map (fun q => q.id)).Nodup ∧ (∀ p ∈ s.parts, p.2.run = .running) ∧ (∀ p ∈ s.cores, p.2.buffer = []) ∧ (s.slot w0).occ = true ∧ (s.slot w0).park = .recv 0x8001 5 1 ∧
        (0x8001 : BitVec 16).getLsbD 15 = true ∧ (s.box 0 15).any (fun x => !x.gone && sameContext x.sender 0x100000000) = true ∧
        (s.box 0 0).any (fun x => !x.gone && sameContext x.sender 0x100000000) = false) ∧
      ((boxed 15 1).setPart 0 { (boxed 15 1).part 0 with run := .stopped 0 }).coreRuns 0 = false ∧ 0 ∈ (boxed 15 1).cores.map (fun q => q.1) ∧
      (boxed 15 1).box 0 15 ≠ [] ∧ ((boxed 15 1).box 0 15).any (fun x => !x.gone && sameContext x.sender 0x100000000) = false) := by
  decide +kernel

/-! ### Queues, deques and tasks -/

/-- Queue register 7 of core 0 with n entries, its ends both slot 0 of core 0. -/
def queued (n : Nat) : State :=
  mapped.setCore 0 { Core.reset with queues := [(7, { bound := true, prodCore := 0, prodSlot := 0, consCore := 0, consSlot := 0, entries := List.replicate n ⟨1, 63, 63⟩ })] }
theorem witness_QueueRegisters :
    (let s := one (BitVec.ofNat 64 (6 + 6 * 2 ^ 4 + 15 * 2 ^ 16)); isLarge s.cur.core = false ∧ s.g 6 = BitVec.ofNat 64 (6 + 6 * 2 ^ 4 + 15 * 2 ^ 16) ∧
      (s.queueReg 0 7).bound = false ∧ (s.queueReg 15 7).bound = false ∧ (s.queueReg 0 7).isProducer { s.cur with slot := 1 } = false ∧
      (s.queueReg 0 7).isConsumer { s.cur with slot := 1 } = false) ∧
    (∀ n ∈ [(0 : Nat), 1, 2, 6, 7, 8], let s := queued n
      (s.queueReg 0 7).isProducer s.cur = true ∧ (s.queueReg 0 7).isConsumer s.cur = true ∧ (s.queueEntries 0 7).length = n ∧
      (s.queueReg 0 7).bound = true ∧ (s.slot ⟨0, 0⟩).park = .ready) := by
  decide +kernel

theorem witness_DequesAndStealing :
    (∀ n ∈ [(0 : Nat), 15, 16, 143, 144], let s := (mine (one 3) (fun x => x.setG 7 4)).setCore 0 { Core.reset with deque := List.replicate n (3, 5) }
      (s.g 6).toNat < (s.g 7).toNat ∧ ¬ (s.g 7).toNat < (s.g 6).toNat ∧ (s.core 0).deque.length = n ∧ (5 : Word) - 3 ≠ 1 ∧ (5 : Word) - 4 = 1) ∧
    2 ^ 16 ≤ ((one 0x10000).g 6).toNat ∧
    (let s := one 0xFFFF; (s.g 6).toNat < 2 ^ 16 ∧ s.inPart s.me.part 0xFFFF = false) ∧
    (∀ p ∈ [((0xFFF : Nat), true), (0x1000, false)], let s0 := one (BitVec.ofNat 64 p.1); let s := s0.setPart 0 { s0.part 0 with sgs := 3 }
      (s.g 6).toNat < 2 ^ 16 ∧ s.inPart s.me.part (s.g 6).toNat = true ∧ isLarge s.cur.core = false ∧ s.me.relaxed = [] ∧
      s.coreRuns (s.g 6).toNat = true ∧ decide (sgOf (s.g 6).toNat = sgOf s.cur.core) = p.2) ∧
    (let s0 := one 1; let s := s0.setPart 0 { s0.part 0 with run := .stopping 0 }; s.inPart s.me.part 1 = true ∧ s.coreRuns 1 = false) ∧
    (∀ hi ∈ [(1 : Nat), 7], let s := flying ((mine mapped (fun x => { x with park := .reply 7 })).setCore 1
        { Core.reset with deque := [(9, 10)] ++ [(0, BitVec.ofNat 64 hi)], service := [7] }) w0 8 (.steal 1)
      s.msg? 7 = some (sent w0 8 (.steal 1)) ∧ s.servesNext 1 7 = true ∧ (s.slot w0).park = .reply 7 ∧ (s.drop 7).hears 0 = true ∧
      (s.core 1).deque = [(9, 10)] ++ [(0, BitVec.ofNat 64 hi)] ∧ (0 : Word).toNat < (BitVec.ofNat 64 hi).toNat) := by
  decide +kernel

theorem witness_CountersAndEnds :
    (∀ v ∈ [(0 : Nat), 2 ^ 31 - 1], let s := mine (one 0x1BFF0) (fun x => x.setG 7 (BitVec.ofNat 64 v)); let r := (s.g 6).toNat; let key := spadKey (r / 2 ^ 20) (r % 2 ^ 20)
      r % 16 = 0 ∧ r < 2 ^ 36 ∧ r % 2 ^ 20 < 0x1C000 ∧ s.inPart s.me.part (r / 2 ^ 20) = true ∧ (s.g 7).toNat < 2 ^ 31 ∧ s.me.relaxed = [] ∧
      isLarge s.cur.core = false ∧ sgOf (r / 2 ^ 20) = sgOf s.cur.core ∧ s.nat key 4 < 2 ^ 31 ∧ (∀ p ∈ (s.core (r / 2 ^ 20)).objects, p.1 + 64 ≤ r % 2 ^ 20 ∨ r % 2 ^ 20 + 4 ≤ p.1) ∧
      blocksStore (s.spadMeets key (key + 4)) = false ∧ (s.me.unacked.filter (fun u => u.fault.isNone)).length < 64) ∧
    (∀ d ∈ [(0 : Nat), 1, 2, 3], ∀ v ∈ [(0 : Nat), 2, 2 ^ 31 - 1, 2 ^ 31], let b := Body.decrement 0x4000 d 0 true
      let s := flying ((one 0x4000).setNat (rawKey 0x4000) 4 v) w0 0 b
      s.msg? 7 = some (sent w0 0 b) ∧ s.mayAct 0 7 = true ∧ s.inOrder (sent w0 0 b) = true ∧ s.nat (spadKey 0 0x4000) 4 = v ∧ s.partOf 0 = some 0) ∧
    (let s := mine mapped (fun x => x.setG 7 0x7FE0); s.me.relaxed = [] ∧ s.me.unacked = [] ∧ s.me.locks = [] ∧ popCount (s.carryMask 7) = 10 ∧ isLarge s.cur.core = false ∧
      (s.core s.cur.core).arrival = [] ∧ (s.core s.cur.core).runList = [] ∧ (s.core s.cur.core).spill = []) ∧
    (∀ q ∈ [ThreadKind.seed, .spawned 5, .phaseTask 3], ∀ v ∈ [none, some (0x4000 : Nat)],
      let s := (mine mapped (fun x => { x with kind := q, serving := v, routines := [.action 0x4040] })).setTile 0 { Tile.reset with
        mslots := [(0, 0)], engine := { Tile.reset.engine with claim := some w0 } }
      s.me.relaxed = [] ∧ s.me.unacked = [] ∧ s.me.locks = [] ∧ s.me.serving = v ∧ s.me.kind = q ∧ s.me.routines = .action 0x4040 :: [] ∧ isLarge s.cur.core = false ∧
      (s.tile 0).mslot (s.cur.core % 16) = s.cur.slot ∧ (s.tile 0).engine.claim = some s.cur ∧ s.claimWaiter 0 = none ∧
      (s.core s.cur.core).arrival = [] ∧ (s.core s.cur.core).runList = [] ∧ (s.core s.cur.core).spill = []) ∧
    (∀ q ∈ [none, some 5], let s := { (mine mapped (fun x => { x with launch := 3, park := .quiesce })).setCore 0 { Core.reset with sent := [(3, 5)], received := [(3, 5)] } with
        launches := [{ job 3 with lastSums := q }] }
      s.launch? 3 = some { job 3 with lastSums := q } ∧ s.quiescing 3 = [s.cur] ∧ s.coreRuns s.cur.core = true ∧ s.sentSum 3 = 5 ∧ s.receivedSum 3 = 5) := by
  decide +kernel

theorem witness_Appending_gone : ∀ c,
    ((mine mapped (fun x => { x with park := .recv 0x8001 5 1 })).setCore 0 { Core.reset with boxes := [(15, [⟨[], 0x100000000, false⟩])] }).hears c = true :=
  all_hear _ (by decide +kernel) (by decide +kernel)
/-! ### Synchronisation objects -/

/-- A descriptor at offset 0x4000 of core 0 with the given fields. -/
def object (s : State) (fs : List (Fld × Nat)) : State := s.setNat (rawKey 0x4000) 64 (fs.foldl (fun d p => p.1.set d p.2) 0)
/-- The tests' thread parked for message 7, which asks something of that object. -/
def asking (fs : List (Fld × Nat)) (r : SyncReq) (p : Park) : State := flying (mine (object mapped fs) (fun x => { x with park := p })) w0 5 (.sync 0x4000 r)

theorem witness_SyncRequestsAndReplies :
    (∀ n ∈ [(0 : Nat), 254, 255], let s := mine (one 0x1BFC0) (fun x => { x.setG 7 0x4040 with locks := List.replicate n 0x4000 });
      s.objectCause (s.g 6) = none ∧ s.objectCause (s.g 7) = none ∧ s.me.relaxed = [] ∧ s.me.unacked = [] ∧ s.me.locks.length = n ∧
      s.me.routines.any (fun r => match r with | .caller e _ => e == 0x1BFC0 | _ => false) = false ∧ s.nodes.any (fun n => n.isTile s.cur.core 0x1BFC0) = false ∧ s.me.serving = none ∧
      Reads s (homeOf (s.g 7).toNat) (offOf (s.g 7).toNat) 64) ∧
    (let s := mine (object (one 0x4040) [(dKind, 2), (dParts, 1)]) (fun x => x.setG 7 0x4000); let o := (s.g 6).toNat; let img := s.nat (rawKey (s.g 7).toNat) 64;
      s.objectCause (s.g 6) = none ∧ s.me.relaxed = [] ∧ isLarge s.cur.core = false ∧ sgOf (o / 2 ^ 20) = sgOf s.cur.core ∧ s.coreRuns (homeOf o) = true ∧ s.homeBusy s.cur o = false ∧
      s.objectCause (s.g 7) = none ∧ Reads s (homeOf (s.g 7).toNat) (offOf (s.g 7).toNat) 64 ∧ s.fld o dKind = 0 ∧ badImage (homeOf o) img = false ∧
      dRedop.get img = 0 ∧ s.rangeStops o 64 = false) ∧
    (∀ v ∈ [(0 : Nat), 1, 2], let s := mine (object (one 0x4000) [(dKind, 1)]) (fun x => x.setG 7 (BitVec.ofNat 64 v)); let o := (s.g 6).toNat;
      s.objectCause (s.g 6) = none ∧ s.me.relaxed = [] ∧ isLarge s.cur.core = false ∧ s.coreRuns (homeOf o) = true ∧ s.homeBusy s.cur o = false ∧ s.fld o dKind ≠ 0 ∧ inScope (s.fld o dScope) (homeOf o) s.cur.core = true ∧ s.g 7 = BitVec.ofNat 64 v) ∧
    (let s := fun (x : Option Watch) (u : List Unacked) (r : List Routine) => mine (one 0x4000) (fun y => { y with watch := x, unacked := u, routines := r });
      (s (some ⟨0x4000, some 5⟩) [] []).me.watch = some ⟨0x4000, some 5⟩ ∧ (s (some ⟨0x4000, none⟩) [] []).me.watch = some ⟨0x4000, none⟩ ∧
      ((s none [] []).me.watch = none ∧ ∀ u ∈ (s none [] []).me.unacked, u.fault = none) ∧
      (let u : Unacked := ⟨1, 0x4000, some (.sync, 0x4000), true⟩; (s none [u] []).me.watch = none ∧ (s none [u] []).me.unacked = [u] ∧ u.arrive = true ∧ u.fault.isSome = true) ∧
      (∀ r ∈ [[], [Routine.caller 0x4000 5], [.delegated 0x4000 ⟨1, 0⟩], [.action 0x4000]], (s none [] r).me.relaxed = [] ∧ (s none [] r).me.unacked = [] ∧ (s none [] r).me.routines = r) ∧
      (∀ l ∈ [[], [(0x4040 : Nat)]], let t := mine (one 0x4000) (fun y => { y with routines := [.action 0x4000], kind := .phaseTask 0x4000, locks := l });
        t.me.routines = [.action 0x4000] ∧ t.me.kind = .phaseTask 0x4000 ∧ t.me.relaxed = [] ∧ t.me.unacked = [] ∧ t.me.locks = l ∧
        (s none [] []).me.kind ≠ .phaseTask 0x4000)) := by
  decide +kernel

/-- A lock that is free, and one that slot 1 holds with three waiters. -/
theorem witness_LocksAtHome_requests :
    (∀ r ∈ [SyncReq.acq, .tryAcq, .lockRun 0x8000000100 []], ∀ q ∈ [true, false],
      let h := handleOf ⟨0, 1⟩ 0;
      let s := asking ([(dKind, 1)] ++ if q then [] else [(dHolder, h), (dWaiting, 3), (dInline 0, h), (dInline 1, h), (dInline 2, h)]) r (.lock 0x4000 7);
      let m := sent w0 5 (.sync 0x4000 r);
      s.msg? 7 = some m ∧ s.mayAct (homeOf 0x4000) 7 = true ∧ s.inOrder m = true ∧ s.wrongUse 0x4000 0 [1] = false ∧
      s.waitingMsg w0 0x4000 = none ∧ (s.drop 7).hears 0 = true ∧ handleOk (s.fld 0x4000 dHolder) = !q ∧ s.heldBy 0x4000 w0 = false ∧ ownedBy (s.desc 0x4000) w0 = false ∧
      (s.slot w0).park = .lock 0x4000 7 ∧ s.fld 0x4000 dMode ≠ 2 ∧ inlineCount (s.desc 0x4000) < 4 ∧ (0x8000000100 : Word).toNat % 4 = 0) := by
  decide +kernel
theorem witness_LocksAtHome_releases :
    (∀ q ∈ [true, false], ∀ h ∈ [true, false], let v : Who := ⟨1, 1⟩
      let s0 := asking ([(dKind, 1), (dHolder, handleOf w0 0)] ++ if q then [] else [(dWaiting, 1), (dInline 0, handleOf v 0)]) .rel .ready;
      let z : Msg := ⟨3, v, 0, .sync 0x4000 (.waiting none)⟩;
      let s1 : State := { s0 with net := z :: ⟨4, v, 0, .ack 0 none false⟩ :: s0.net };
      let s2 := s1.setSlot v { placedThread with park := .lock 0x4000 3 };
      let s : State := if h then s2 else s2.setCore 1 { s2.core 1 with buffer := [4] };
      s.msg? 7 = some (sent w0 5 (.sync 0x4000 .rel)) ∧ s.mayAct (homeOf 0x4000) 7 = true ∧ s.inOrder (sent w0 5 (.sync 0x4000 .rel)) = true ∧ s.wrongUse 0x4000 0 [1] = false ∧
      s.waitingMsg w0 0x4000 = none ∧ s.heldBy 0x4000 w0 = true ∧ handleOk (s.fld 0x4000 (dInline 0)) = !q ∧
      (q = false → s.fld 0x4000 (dInline 0) = handleOf v 0) ∧ linkBlock (s.fld 0x4000 dHead) = none ∧ (s.obj 0x4000).marked = [] ∧ (s.obj 0x4000).big.headD false = false ∧
      (s.slot v).park = .lock 0x4000 3 ∧ (s.drop 3).hears 1 = h ∧ s.waitingMsg v 0x4000 = some (z, none) ∧ z.id ≠ 7) := by
  decide +kernel

/-- A combining node of tile 0 with a pending arrival. -/
def node (xs : List (Word × Tag)) : Node := { desc := 0x4000, level := 2, unit := 0, phase := 0, contribs := xs, first := 0, last := 0, since := 0, members := [] }
theorem witness_Barriers :
    (∀ p ∈ [((3 : Nat), (1 : Nat)), (4, 1), (4, 2), (5, 2)], ∀ r ∈ [SyncReq.arrive 0 63 0, .combined 2 0 0 (List.replicate p.2 (0, 63)) 0 0 [], .engine 0 0 0],
      let s := asking [(dKind, 2), (dParts, p.1), (dDirect, 1), (dCombined, 1)] r .ready; let m := sent w0 5 (.sync 0x4000 r);
      s.msg? 7 = some m ∧ s.mayAct (homeOf 0x4000) 7 = true ∧ s.inOrder m = true ∧ s.wrongUse 0x4000 0 [2] = false ∧ s.fld 0x4000 dRedop = 0 ∧
      7 < s.nextId ∧ s.fld 0x4000 dDirect + s.fld 0x4000 dCombined = 2 ∧ s.fld 0x4000 dParts = p.1 ∧ 0 % 2 ^ 32 = s.fld 0x4000 dPhase ∧
      (s.obj 0x4000).work = none ∧ s.fld 0x4000 dAction = 0 ∧ s.fld 0x4000 dCombined + p.2 < 2 ^ 20) ∧
    (∀ p ∈ [Park.ready, .await 0x4000 5], let b := Body.release 0x4000 0 9 [0] [0];
      let s := flying (mine (mapped.setCore 0 { Core.reset with staged := some resetTable }) (fun x => { x with park := p, watch := some ⟨0x4000, none⟩ })) w0 0 b;
      s.msg? 7 = some (sent w0 0 b) ∧ s.mayAct 0 7 = true ∧ 0 < slotCount 0 ∧ (s.slot w0).occ = true ∧ (s.slot w0).watch = some ⟨0x4000, none⟩ ∧
      (s.slot w0).park = p ∧ (s.core 0).staged.isSome = true) ∧
    (∀ on ∈ [true, false], let b := Body.arming 0x4000 0 2 0 on; let s : State := { flying mapped w0 0 b with nodes := if on then [] else [node []] };
      s.msg? 7 = some (sent w0 0 b) ∧ s.coreRuns (0 * domainCores 2) = true ∧ (∀ q ∈ s.net, 7 ≤ q.id) ∧ s.nodes.find? (fun n => n.named 0x4000 2 0) = (if on then none else some (node []))) ∧
    (let s : State := { mapped with nodes := [node [(1, 63)]], sys := { mapped.sys with meridian := 5 } };
      s.nodes.find? (fun n => n.named 0x4000 2 0) = some (node [(1, 63)]) ∧ (node [(1, 63)]).contribs ≠ [] ∧ 80 ≤ (s.sys.meridian - (node [(1, 63)]).since) * 17 ∧
      s.coreRuns (node []).firstCore = true ∧
      s.nodes.any (fun k => k.named 0x4000 3 ((node []).firstCore / domainCores 3) && decide (k.phase = 0)) = false) := by
  decide +kernel

theorem witness_ObjectsAndDelegation :
    (∀ w ∈ [Shipped.routine ⟨1, 0⟩ 0x8000000100 [], .action 0x8000000100 5 1],
      let s := flying (mine mapped (fun x => { x with park := .serve 0x4000, serving := some 0x4000 })) ⟨1, 0⟩ 0 (.work 0x4000 w0 w);
      s.msg? 7 = some (sent ⟨1, 0⟩ 0 (.work 0x4000 w0 w)) ∧ (s.slot w0).park = .serve 0x4000 ∧ (s.slot w0).serving = some 0x4000 ∧ s.mayAct 0 7 = true) ∧
    (let s := (asking [(dKind, 1), (dHolder, handleOf w0 1)] (.done 9) .ready).setObj 0x4000 { Obj.reset with work := some (.caller w0) }; let m := sent w0 5 (.sync 0x4000 (.done 9));
      s.msg? 7 = some m ∧ s.mayAct (homeOf 0x4000) 7 = true ∧ s.inOrder m = true ∧ s.wrongUse 0x4000 0 [1, 2] = false ∧ s.fld 0x4000 dKind = 1 ∧
      (s.obj 0x4000).work = some (.caller w0) ∧ handleOk (s.fld 0x4000 (dInline 0)) = false) ∧
    (∀ n ∈ [(0 : Nat), 1], let v := if n = 0 then some (9 : Word) else none; let s := flying (mine mapped (fun x => { x with park := .lock 0x4000 3 })) ⟨1, 0⟩ 5 (.runResult w0 3 v);
      s.msg? 7 = some (sent ⟨1, 0⟩ 5 (.runResult w0 3 v)) ∧ s.mayAct 0 7 = true ∧ (s.slot w0).park = .lock 0x4000 3) ∧
    (∀ p ∈ [(SyncReq.serve, Park.serve 0x4000), (.pol (leBytes 64 1), .reply 7), (.pol (leBytes 64 0xE01), .reply 7), (.syncFree, .reply 7)],
      let s := asking [(dKind, 1)] p.1 p.2; let m := sent w0 5 (.sync 0x4000 p.1);
      s.msg? 7 = some m ∧ s.mayAct (homeOf 0x4000) 7 = true ∧ s.inOrder m = true ∧ s.wrongUse 0x4000 0 [1, 2] = false ∧ dOwner (s.desc 0x4000) = w0 ∧
      (s.slot w0).park = p.2 ∧ s.inUse 0x4000 = false ∧ (s.drop 7).hears 0 = true) ∧
    (dPin.get 1 = 0 ∧ dOwner 1 = w0 ∧ dPin.get 0xE01 = 1 ∧ dMode.get 0xE01 = 3) ∧
    (let s := asking [(dKind, 1), (dServing, 1), (dMode, 2)] (.depart w0) .ready;
      s.msg? 7 = some (sent w0 5 (.sync 0x4000 (.depart w0))) ∧ s.fld 0x4000 dKind = 1 ∧ ownedBy (s.desc 0x4000) w0 = true ∧ (s.obj 0x4000).work = none ∧
      s.fld 0x4000 dPin = 0 ∧ s.fld 0x4000 dMode = 2) ∧
    (let h := handleOf ⟨0, 1⟩ 0; let s := asking [(dKind, 1), (dHolder, handleOf ⟨0, 2⟩ 0), (dWaiting, 1), (dInline 0, h)] (.killMark ⟨0, 1⟩) .ready;
      s.msg? 7 = some (sent w0 5 (.sync 0x4000 (.killMark ⟨0, 1⟩))) ∧ s.fld 0x4000 dKind = 1 ∧ (s.waitingThreads 0x4000).contains ⟨0, 1⟩ = true) := by
  decide +kernel
/-! ### Traps and system instructions -/

/-- A thread with a supervisor handler. -/
def handled : Slot := { placedThread with sup := { TrapCsrs.reset with tvec := 0x8000001000 } }
theorem witness_TrapEntry :
    (let s := ready handled; s.me.outstanding = [] ∧ s.me.relaxedFault = none ∧ s.me.canEnter .trap 5 = true) ∧
    (let s := ready { handled with relaxed := [⟨7, .general 5, none⟩] }; s.me.outstanding ≠ []) ∧
    (let r : Relaxed := ⟨7, .general 5, some (.page, 0x8000000000)⟩; let s := ready { handled with relaxed := [r] };
      s.me.outstanding = [] ∧ s.me.relaxedFault = some (r, .page, 0x8000000000) ∧ s.me.canEnter .page 0x8000000000 = true) ∧
    (let s := ready placedThread; s.me.outstanding = [] ∧ s.me.relaxedFault = none ∧ s.me.canEnter .trap 5 = false ∧ s.me.occ = true ∧ s.me.park = .ready) ∧
    (let s := ready { handled with pend := some ⟨.page, 9, none⟩ }; s.coreRuns 0 = true ∧ (s.slot ⟨0, 0⟩).pend = some ⟨.page, 9, none⟩ ∧ (s.slot ⟨0, 0⟩).outstanding = [] ∧
      (s.slot ⟨0, 0⟩).relaxedFault = none ∧ (s.slot ⟨0, 0⟩).canEnter .page 9 = true ∧ Cause.page ≠ .brk) ∧
    (let r : Relaxed := ⟨7, .general 5, some (.page, 0x8000000000)⟩; let s := ready { handled with pend := some ⟨.sigfloor, 0, some 0x1648⟩, relaxed := [r] };
      s.coreRuns 0 = true ∧ (s.slot ⟨0, 0⟩).pend = some ⟨.sigfloor, 0, some 0x1648⟩ ∧ (s.slot ⟨0, 0⟩).outstanding = [] ∧
      (s.slot ⟨0, 0⟩).relaxedFault = some (r, .page, 0x8000000000) ∧ (s.slot ⟨0, 0⟩).canEnter .page 0x8000000000 = true ∧
      ({ s.slot ⟨0, 0⟩ with csr := { (s.slot ⟨0, 0⟩).csr with sigtrap := 0x1648 } } : Slot).canEnter .sigfloor 0 = true ∧ Cause.sigfloor ≠ .brk) := by
  decide +kernel

theorem witness_SystemInstructions :
    (let x := (ready handled).me; x.relaxed = [] ∧ x.unacked = [] ∧ x.canEnter .syscall 0xFFF = true ∧ x.canEnter .brk 0xFFF = true ∧ x.lastStamp ≤ (ready handled).sys.meridian) ∧
    (∀ h ∈ [true, false],
      let u := (ready { handled with csr := { UserCsrs.reset with uinh := h } }).me
      let v := (ready { handled with mode := .super, sup := { TrapCsrs.reset with status := if h then 1 else 6 } }).me
      let m := (ready { handled with mode := .machine, mach := { TrapCsrs.reset with status := if h then 5 else 4 } }).me;
      (u.mode = .user ∧ u.csr.uinh = h) ∧ (v.mode = .super ∧ v.sup.status.getLsbD 0 = h) ∧ (m.mode = .machine ∧ m.mach.status.getLsbD 0 = h)) ∧
    ((ready { handled with park := .debugger }).slot ⟨0, 0⟩).park = .debugger := by
  decide +kernel

/-- R13's accepted and refused tables, a staged table at a frame's start, and a wanted and an unwanted event. -/
theorem witness_TablesAndTraces :
    (∀ p ∈ [((0x7888888278888288 : Nat), false), (0x7888888878888288, true)],
      let s := ready (thread [(8, BitVec.ofNat 64 p.1), (9, if p.2 then 0x7888828878888888 else 0x7888888878888888)])
      let e := fun (k : Nat) => (if k < 16 then (s.g 8).toNat / 2 ^ (4 * k) else (s.g 9).toNat / 2 ^ (4 * (k - 16))) % 16
      let dist := fun (i j : Nat) => min (max i j - min i j) (32 - (max i j - min i j))
      (∀ k, k < 32 → e k ≤ 8) ∧ (∀ k, k < 32 → k % 8 = 7 → e k = 7) ∧
      (List.range 32).all (fun i => (List.range 32).all (fun j => i == j || e i != e j || e i == 8 || decide (8 ≤ dist i j))) = p.2) ∧
    (let s := mapped.setCore 0 { Core.reset with staged := some resetTable, goLive := true }; s.coreRuns 0 = true ∧ (s.core 0).staged = some resetTable ∧
      (s.core 0).goLive = true ∧ (s.core 0).pos = 0) := by
  decide +kernel

/-- A trace that records slot 0's software events, its last full time stamp as of now. -/
def traced (ctl : Word) : State := mapped.setCore 0 { Core.reset with trace := { Trace.reset with ctl := ctl, lastHigh := some 0 } }
theorem clock_high {s : State} (c : Nat) (h : s.sys.meridian = 0) : s.clock c / 2 ^ 44 = 0 := by
  unfold State.clock; omega
theorem witness_TablesAndTraces_events :
    let e : Event := { kind := 3, slot := 0, sub := 0, code := 0xFFF, payload := 5 };
    ((traced 0).core 0).trace.wants e = false ∧ ((traced 0x18001).core 0).trace.wants e = true ∧ ((traced 0x18001).core 0).trace.full = false ∧ ((traced 0x18001).core 0).trace.reading = false ∧
    ((traced 0x18001).core 0).trace.lastHigh = some ((traced 0x18001).clock (traced 0x18001).cur.core / 2 ^ 44) :=
  by
  have h : ((traced 0x18001).core 0).trace.lastHigh = some 0 := by decide +kernel
  exact ⟨by decide +kernel, by decide +kernel, by decide +kernel, by decide +kernel, h.trans (congrArg some (clock_high _ (by decide +kernel)).symm)⟩

theorem witness_CsrInstructions :
    (ready placedThread).me.mode = .user ∧ (ready { placedThread with mode := .super }).me.mode = .super ∧
    (ready { placedThread with mode := .machine }).me.mode = .machine ∧ (ready placedThread).cur.core < 65536 ∧ (ready placedThread).cur.slot < 8 ∧
    (0x100 ≤ (0x100#12).toNat ∧ (0x7FF#12).toNat < 0x800 ∧ 0x400 ≤ (0x400#12).toNat ∧ 0x800 ≤ (0x800#12).toNat) := by
  decide +kernel

/-! ### Vector operations -/

theorem witness_VectorIntegers : (4#3).toNat % 4 < 2 ∧ (5#3).toNat % 4 < 2 ∧ (0#3 = 0 ∨ (0#3) = 4) := by decide +kernel

/-- A value between two fractions of each format, the largest finite value, and one that is exact. -/
theorem witness_RoundedOnce :
    (∀ f ∈ [f64, f32, bf16, e5m2, ⟨5, 3, 7⟩], 2 ^ (f.mb + 2) ≤ 2 ^ (f.mb + 2) ∧ 2 ^ (f.mb + 2) * 2 ^ (0 - (-1 : Int)).toNat < 2 ^ (f.mb + 3) + 1 ∧
      2 ^ (f.mb + 3) + 1 < (2 ^ (f.mb + 2) + 1) * 2 ^ (0 - (-1 : Int)).toNat) ∧
    (∀ f ∈ [f64, f32, bf16, e5m2, ⟨5, 3, 7⟩], ∀ rm ∈ [Rm.rne, .rtz, .rdn, .rup], ∀ neg ∈ [true, false],
      (roundFin f rm neg (2 ^ 60 + 1) (-60) false).2.getLsbD 2 = false ∧ (roundFin f rm neg 3 0 false).2.getLsbD 2 = false ∧
      (roundFin f rm neg 0 0 false).2.getLsbD 2 = false) ∧
    (roundFin f32 .rne false 0xFFFFFF 104 false).2.getLsbD 2 = false := by decide +kernel

/-- A thread whose v9 and v10 hold 1.5 and a NaN, parked for a special function. -/
def special (i : Instr) : State :=
  let x := lanes [(0x3FC00000, 24), (0x3F800001, 63)] [(0x3F000000, 24)]
  ready { x with park := .special i 0x8000000000 ((ready x).specialElems i) }
theorem witness_VectorFloats :
    (3#3).toNat < 4 ∧ (12#4).toNat + 4 ≤ 16 ∧ (14#4).toNat + 2 ≤ 16 ∧ (15#4).toNat + 1 ≤ 16 ∧
    (∀ i ∈ [Instr.vfdiv 11 9 10 0, .vfsqrt 11 9 1, .vexp2 11 9 0, .vlog2 11 9 2, .vrcp 11 9 0, .vrsq 11 9 2],
      (special i).coreRuns (special i).cur.core = true ∧ (special i).me.park = .special i 0x8000000000 ((ready (lanes [(0x3FC00000, 24), (0x3F800001, 63)] [(0x3F000000, 24)])).specialElems i)) ∧
    (∀ p ∈ [((0 : Nat), (0 : Nat), false), (0x1F80, 0, true), (0, 0x7F, false)],
      let s := ready { lanes [(0x3FC00000, 24), (0x3F800001, 63)] [(0x3F400001, 24)] with csr := { UserCsrs.reset with fpctl := BitVec.ofNat 13 p.1, sigfloor := BitVec.ofNat 7 p.2.1 } }
      let r := fun k => fpMul f32 s.me.rm (s.me.elem 0 9 k) (s.me.elem 0 10 k)
      let fl := (List.range 4).foldl (fun g k => g ||| (r k).2) (0 : Flags)
      trapsOn s.me.csr.fpctl fl = p.2.2 ∧ (f32.isFinite (r 0).1 && belowFloor s.me.csr.sigfloor 23) = decide (p.2.1 = 0x7F)) ∧
    (f32.value 0x3FC00000 = .fin false 0xC00000 (-23) ∧ f32.value 0 = .fin false 0 (-149) ∧ f32.value 0x80000000 = .fin true 0 (-149) ∧
      f32.value 0xBFC00000 = .fin true 0xC00000 (-23)) := by
  decide +kernel

theorem witness_TagsAndPermutes : (3#3).toNat < 4 ∧ ((1#3).toNat < 2 ∧ (1#5).toNat < 4 / 2) ∧ ((0#3).toNat < 2 ∧ (3#5).toNat < 4 / 1) ∧
    (2 ≤ (3#3).toNat ∧ (1#5).toNat < 4 / 2) ∧ (2 ≤ (2#3).toNat ∧ (3#5).toNat < 4 / 1) := by decide +kernel

theorem witness_Conversions :
    (4#3).toNat ≤ 4 ∧ isCvtPair 3 0 = true ∧ isCvtPair 0 1 = true ∧ isCvtPair 5 0 = true ∧ isCvtPair 0 5 = true ∧
    (isCvtiPair 10 1 = true ∧ (1#4).toNat ≤ 1) ∧ (isCvtiPair 0 6 = true ∧ 6 ≤ (6#4).toNat ∧ (0#4).toNat ≤ 1) ∧
    (isCvtiPair 10 6 = true ∧ 6 ≤ (6#4).toNat ∧ 6 ≤ (10#4).toNat) ∧
    (∀ p ∈ [((0 : Nat), false), (0x1F80, true)], let s := ready { lanes [(0x3FC00001, 24)] [] with csr := { UserCsrs.reset with fpctl := BitVec.ofNat 13 p.1 } }
      trapsOn s.me.csr.fpctl (cvtFp .rne (fpSat s.me.csr.fpctl) 3 0 (s.me.vnat 9 % 2 ^ 32)).2 = p.2 ∧ s.me.csr.sigfloor.getLsbD 6 = false) ∧
    (let s := ready { lanes [(0x3FC00000, 24), (0x3FC00000, 2)] [] with csr := { UserCsrs.reset with sigfloor := 0x43 } }
      let r := fun k => cvtFp .rne (fpSat s.me.csr.fpctl) 3 0 (s.me.vnat 9 / 2 ^ (32 * k) % 2 ^ 32)
      let low := fun k => cvtFinite 3 (r k).1 && belowFloor s.me.csr.sigfloor (convTag 3 0 (readTag 24 (s.me.tag 9 k)) (r k))
      trapsOn s.me.csr.fpctl ((List.range 4).foldl (fun g k => g ||| (r k).2) 0) = false ∧ low 0 = false ∧ low 1 = true) := by
  decide +kernel
/-! ### The heap, the circular buffers and the engine -/

/-- Whether an agent's translation of a span succeeds with no poison. -/
def spanOk (s : State) (x : Span) : Bool := match x with | .ok ps => !s.poisonPieces ps | _ => false
/-- A process with an arena of one chunk. -/
def arena : State := (mapped.setNat (devKey 0x30) 8 0x8000200000).setNat (devKey 0x38) 4 1
/-- A WRITE range of V-space of process 1. -/
def vrange (lo hi : Nat) : RangeEntry := { id := 5, table := .stations 1 (List.range 32), lo := lo, hi := hi, write := true, owner := .job 0 1 }
theorem witness_HeapBlocks :
    (mapped.me.relaxed = []) ∧
    (∀ n ∈ [(0 : Nat), 1, 65536, 65537], let b := Body.alloc (BitVec.ofNat 64 n) none; let s := flying (mine arena (fun x => { x with park := .reply 7 })) w0 5 b;
      let x := s.slot w0; let s0 : State := { s with cached := false };
      s.msg? 7 = some (sent w0 5 b) ∧ s.coreRuns 0 = true ∧ (s.drop 7).hears 0 = true ∧ x.park = .reply 7 ∧ s.chunks = [] ∧ s0.arenaLeft x.part x.pid = true ∧
      spanOk s0 (s0.vspan x.part x.pid true (s0.ripe none) ((s0.arena x.part x.pid).1 + (s0.arena x.part x.pid).2.2 * 2097152) 64) = true ∧
      (match s0.vspan x.part x.pid true (s0.ripe none) ((s0.arena x.part x.pid).1 + (s0.arena x.part x.pid).2.2 * 2097152) 64 with
        | .ok ps => ps.all (fun p => decide (p.shadow = none ∧ (p.key + p.len ≤ devKey (s0.procEntry x.part x.pid + 28) ∨ devKey (s0.procEntry x.part x.pid + 28) + 4 ≤ p.key)))
        | _ => false) = true ∧
      s.engineWaits x.pid true ((s0.arena x.part x.pid).1 + (s0.arena x.part x.pid).2.2 * 2097152) 64 = false ∧
      ({ s with ranges := [vrange 0x8000200000 0x8000200040] } : State).engineWaits x.pid true ((s0.arena x.part x.pid).1 + (s0.arena x.part x.pid).2.2 * 2097152) 64 = true) ∧
    ((flying mapped w0 5 (.alloc 1 none)).arenaLeft 0 1 = false ∧ (flying mapped w0 5 (.alloc 1 none)).chunks = []) ∧
    (let c : Chunk := { part := 0, pid := 1, die := 0, block := 65536, base := 0x8000200000, taken := List.range 30 };
      (∀ i, i < (2097152 - max 64 65536) / 65536 → i ∉ c.taken → ({ mapped with chunks := [c] } : State).engineWaits 1 true (0x8000200000 + 65536 + i * 65536) 16 = false ∧
        ({ mapped with chunks := [c], ranges := [vrange 0x8000200000 0x8000400000] } : State).engineWaits 1 true (0x8000200000 + 65536 + i * 65536) 16 = true) ∧
      let s : State := { mapped with chunks := [c] };
      s.chunks.find? (fun c => decide (c.part = 0 ∧ c.pid = 1 ∧ c.die = dieOf 0 ∧ c.block = 2 ^ max 4 (clog2 65536) ∧
        c.taken.length < (2097152 - max 64 65536) / 65536)) = some c) ∧
    (∀ n ∈ [(0 : Nat), 0x80001FFFFF, 0x8000400000], let b := Body.free (BitVec.ofNat 64 n) none; let s := flying (mine arena (fun x => { x with park := .reply 7 })) w0 0 b;
      s.msg? 7 = some (sent w0 0 b) ∧ (s.slot w0).park = .reply 7 ∧ (s.drop 7).hears 0 = true ∧
      (n = 0 ∨ n < (s.arena 0 1).1 ∨ (s.arena 0 1).1 + (s.arena 0 1).2.1 * 2097152 ≤ n)) := by
  decide +kernel

theorem mapGet_skip {α : Type} (m r : SMap α) (d : α) (k : Nat) (h : ∀ p ∈ m, p.1 ≠ k) : mapGet (m ++ r) d k = mapGet r d k := by
  induction m with
  | nil => rfl
  | cons x m ih =>
    rw [List.cons_append, mapGet, if_neg (h x (by simp))]
    exact ih (fun p hp => h p (by simp [hp]))
theorem mapGet_run {α : Type} (f : Nat → α) (r : SMap α) (d : α) (K n a j : Nat) (h : a ≤ j) (h2 : j < a + n) :
    mapGet ((List.range' a n).map (fun i => (K + i, f i)) ++ r) d (K + j) = f j := by
  induction n generalizing a with
  | zero => omega
  | succ n ih =>
    rw [List.range'_succ, List.map_cons, List.cons_append, mapGet]
    by_cases e : a = j
    · simp [e]
    · rw [if_neg (by omega)]
      exact ih (a + 1) (by omega) (by omega)
/-- The arena's chunk of blocks of 16 bytes, the first of them live. -/
def chunk16 : Chunk := { part := 0, pid := 1, die := 0, block := 16, base := 0x8000200000, taken := [0] }
/-- An arena whose chunk holds its header, with a byte where the first block's marker lies, and a FREE of that block on its way. -/
def freed (v : Byte) : State := flying { mine arena (fun x => { x with park := .reply 7 }) with
  chunks := [chunk16],
  mem := arena.mem ++ ((List.range' 0 64).map (fun i => (devKey 0x40200000 + i, (headerBytes 0x8000200000 1 16).getD i 0)) ++
    [(devKey 0x40200048, v)]) } w0 0 (.free 0x8000200040 none)
/-- The pieces of a span that is translated. -/
def spanPieces (x : Span) : List Piece := match x with | .ok ps => ps | _ => []
theorem witness_HeapBlocks_header (v : Byte) : (freed v).getPieces [⟨0x8000200000, 64, devKey 0x40200000, none⟩] = headerBytes 0x8000200000 1 16 := by
  have h : (headerBytes 0x8000200000 1 16).length = 64 := by simp [headerBytes]
  have hb := State.bytes_of (freed v) (devKey 0x40200000) (headerBytes 0x8000200000 1 16) (fun j hj => by
    show mapGet (arena.mem ++ _) (0 : Byte) _ = _
    rw [mapGet_skip _ _ _ _ (by
      have : ∀ p ∈ arena.mem, p.1 < devKey 0x40200000 := by decide +kernel
      intro p hp; have := this p hp; omega)]
    exact mapGet_run _ _ _ _ _ _ _ (by omega) (by omega))
  rw [h] at hb
  simpa [State.getPieces] using hb
theorem witness_HeapBlocks_free : ∀ v ∈ [(0 : Byte), 1], let s := freed v; let x := s.slot w0; let s0 : State := { s with cached := false }
    s.msg? 7 = some (sent w0 0 (.free 0x8000200040 none)) ∧ s.coreRuns 0 = true ∧ (s.drop 7).hears 0 = true ∧ x.park = .reply 7 ∧
    (s0.arena x.part x.pid).1 = 0x8000200000 ∧ (s0.arena x.part x.pid).2.1 = 1 ∧
    spanPieces (s0.vspan x.part x.pid false (s0.ripe none) 0x8000200000 64) = [⟨0x8000200000, 64, devKey 0x40200000, none⟩] ∧
    spanPieces (s0.vspan x.part x.pid true (s0.ripe none) 0x8000200040 16) = [⟨0x8000200040, 16, devKey 0x40200040, none⟩] ∧
    s.engineWaits x.pid false 0x8000200000 64 = false ∧ s.engineWaits x.pid true 0x8000200040 16 = false ∧
    s.chunks.find? (fun c => decide (c.part = x.part ∧ c.pid = x.pid ∧ c.base = 0x8000200000)) = some chunk16 ∧
    s.nat (devKey 0x40200048) 8 = v.toNat := by
  decide +kernel
theorem witness_HeapBlocks_marker : ∃ v ∈ [(0 : Byte), 1], BitVec.ofNat 64 ((freed v).nat (devKey 0x40200048) 8) ≠ Config.freeMarker 0x8000200040 := by
  have h : ∀ v ∈ [(0 : Byte), 1], (freed v).nat (devKey 0x40200048) 8 = v.toNat := fun v hv => (witness_HeapBlocks_free v hv).2.2.2.2.2.2.2.2.2.2.2
  by_cases e : Config.freeMarker 0x8000200040 = 0
  · exact ⟨1, by simp, by rw [h 1 (by simp), e]; decide⟩
  · exact ⟨0, by simp, by rw [h 0 (by simp)]; exact fun q => e q.symm⟩

/-- A tile whose buffer 15 is as given. -/
def buffered (s : State) (b : CircBuf) : State := s.setTile 0 { s.tile 0 with bufs := [(15, b)] }
theorem witness_CircularBuffers :
    (let s := (((one 0x1BFF0).setNat (rawKey 0x1BFF0) 8 0x8000).setNat (rawKey 0x1BFF8) 4 64).setNat (rawKey 0x1BFFE) 2 256; let k := rawKey 0x1BFF0; let base := s.nat k 8;
      isLarge s.cur.core = false ∧ s.me.relaxed = [] ∧ (s.g 6).toNat % 16 = 0 ∧ (s.g 6).toNat < 2 ^ 36 ∧ s.inPart s.me.part (homeOf (s.g 6).toNat) = true ∧
      (s.me.mode = .user → offOf (s.g 6).toNat < reservedBase) ∧ Reads s (homeOf 0x1BFF0) (offOf 0x1BFF0) 16 ∧
      base % 64 = 0 ∧ s.nat (k + 8) 4 % 64 = 0 ∧ 64 ≤ s.nat (k + 8) 4 ∧ s.nat (k + 8) 4 ≤ 65536 ∧ 1 ≤ s.nat (k + 14) 2 ∧ s.nat (k + 14) 2 ≤ 256 ∧ base < 2 ^ 36 ∧
      offOf base + s.nat (k + 8) 4 * s.nat (k + 14) 2 ≤ reservedBase ∧ tileOf (homeOf base) = tileOf s.cur.core ∧
      (s.buf 0 15).filling = 0 ∧ (s.buf 0 15).acquired = 0 ∧ (s.buf 0 15).count = 0) ∧
    (one 0x4001).g 6 % 16 ≠ 0 ∧ ((one 0x1000000000).g 6).toNat % 16 = 0 ∧ 2 ^ 36 ≤ ((one 0x1000000000).g 6).toNat ∧
    (let s := one 0x100000000; s.inPart s.me.part (homeOf (s.g 6).toNat) = false) ∧ (let s := one 0x1C000; s.me.mode = .user ∧ reservedBase ≤ offOf (s.g 6).toNat) ∧
    (let s := buffered mapped { CircBuf.reset with filling := 1 }; (s.buf 0 15).filling ≠ 0) ∧
    (∀ p ∈ [((0 : Nat), (1 : Nat)), (1, 1), (1, 0)], let s := buffered mapped { CircBuf.reset with base := 0x8000, size := 64, count := 2, filled := p.1, acquired := p.2 };
      (s.buf 0 15).count ≠ 0 ∧ (s.buf 0 15).acquired = p.2 ∧ (s.buf 0 15).filled = p.1 ∧ s.ahead (.bufferFilled 15) s.me.turn (fun c => tileOf c == 0) = 0) := by
  decide +kernel

/-- The registers of a job. -/
def reg (src dst len rows : Nat) : Vector Word 12 :=
  Vector.ofFn (fun k => BitVec.ofNat 64 (if k.val = 1 then src else if k.val = 2 then dst else if k.val = 3 then len else if k.val = 4 then rows else 0))
/-- A state whose engine of tile 0 is changed. -/
def engined (f : Engine → Engine) : State := mapped.setTile 0 { Tile.reset with engine := f Engine.reset }
/-- Whether a plan is the running slot's and passes, or is turned away by, the ranges. -/
def passes (s : State) (r : Except (Cause × Word) JobPlan) (free : Bool) : Bool := match r with
  | .ok p => decide (p.job.who = s.cur) && (s.lockedRange s.me.pid (fun _ => false) p.checks).isNone == free && s.rangesFit s.me.part s.me.pid p.ranges
  | .error _ => false
/-- A range of another agent. -/
def entry (lo hi : Nat) (o : RangeOwner) : RangeEntry := { id := 5, table := .tile 0, lo := lo, hi := hi, write := true, owner := o }
/-- A prefetch record in g6, for one row of dblk 1. -/
def fetching : State := buffered ((([(0, 0x8000000000), (8, 0x8000001000), (16, 0x8000002000), (24, 0x8000003000), (32, 0x5000), (40, 1), (42, 15), (44, 1)] : List (Nat × Nat)).foldl
    (fun s p => s.setNat (rawKey 0x4000 + p.1) (if p.1 < 40 then 8 else 2) p.2) (mine mapped (fun x => x.setG 6 0x4000))))
  { CircBuf.reset with base := 0x8000, size := 128, count := 1, free := 1 }
theorem witness_EngineInstructions :
    (isLarge mapped.cur.core = false ∧ (mapped.engine 0).committed = none ∧ (mapped.engine 0).claim = none ∧ (11#8).toNat < 12 ∧ 12 ≤ (12#8).toNat ∧ 28 ≤ (31#8).toNat) ∧
    ((engined (fun e => { e with claim := some ⟨0, 0⟩ })).engine 0).claim = some mapped.cur ∧
    ((engined (fun e => { e with claim := some ⟨0, 1⟩ })).engine 0).claim ≠ some mapped.cur ∧
    (∀ live ∈ [true, false], ∀ free ∈ [true, false],
      let s0 := engined (fun e => { e with shadow := reg 0x4000 0x8000 0x4000 1, live := if live then some (mapped.newJob (reg 0 0 4 1)) else none });
      let s : State := if free then s0 else { s0 with ranges := [entry (rawKey 0x4000) (rawKey 0x4001) (.job 0 1)] };
      s.me.relaxed = [] ∧ s.me.unacked = [] ∧ (s.engine 0).resumedJob = none ∧ passes s (s.egoPlan (s.engine 0).shadow) free = true) ∧
    (fetching.me.relaxed = [] ∧ passes fetching (fetching.fetchPlan (fetching.g 6)) true = true) ∧
    (∀ p ∈ [((2 : Nat), true), (3, false)], let s := (engined (fun e => { e with counter := 2 })).setMe { mapped.me with lastJob := p.1 }
      decide (s.me.lastJob ≤ (s.engine 0).counter) = p.2) := by
  decide +kernel

/-- A job of tile 0 under a number. -/
def copy (n : Nat) : Job := { mapped.newJob (reg 0x4000 0x8000 64 1) with num := n }
/-- Whether a write of a job's record waits. -/
def jobWaits (s : State) (j : Job) (off n : Nat) : Bool :=
  decide (j.jrec ≠ 0) && s.reqMeets j.pid (fun o => decide (o = .job 0 j.num)) (spanReq true (j.jrec + off, j.jrec + off + n))
/-- A full table of tile 0. -/
def fullTable : List RangeEntry := (List.range 32).map (fun i => { entry 0 1 (.job 0 1) with id := i })
/-- A job of several rows, by its registers and indexes, and of a buffer's row. -/
def moving_ (l idx : List Nat) : Job := { mapped.newJob (Vector.ofFn (fun k => BitVec.ofNat 64 (l.getD k.val 0))) with num := 1, idx := idx, barrier := 0x6000 }
def fetched_ : Job := { copy 1 with cb := some 15, filling := some 0, arrays := [0x8000000000, 0x8000001000, 0x8000002000, 0x8000003000], dblk := 1, idx := [3], who := w0, pid := 1 }
theorem witness_EngineJobs_rows :
    (∀ p ∈ [([0, 0x4000, 0x8000, 64, 2, 64, 64], ([] : List Nat)), ([1, 0x4000, 0x8000, 64, 2, 128, 64], [1, 0])],
      let j := moving_ p.1 p.2; let s := engined (fun e => { e with live := some j }); let src := (j.regs.get 1).toNat; let dst := (j.regs.get 2).toNat
      let from_ := fun (i : Nat) => src + (if (j.regs.get 0).toNat = 1 then j.idx.getD i 0 else i) * (j.regs.get 5).toNat
      let to_ := fun (i : Nat) => dst + i * (j.regs.get 6).toNat
      s.coreRuns 0 = true ∧ (s.engine 0).live = some j ∧ j.arrays = [] ∧ j.cb = none ∧ j.cursor = 0 ∧ j.valid = 0 ∧ j.jrec = 0 ∧ s.poison = [] ∧ j.barrier ≠ 0 ∧
      ((j.regs.get 0).toNat = 0 ∨ (j.regs.get 0).toNat = 1) ∧ (j.regs.get 4).toNat = 2 ∧ (j.regs.get 3).toNat = 64 ∧
      (∀ i, i < 2 → from_ i < 2 ^ 36 ∧ offOf (from_ i) + 64 ≤ 2 ^ 20 ∧ to_ i < 2 ^ 36 ∧ offOf (to_ i) + 64 ≤ 2 ^ 20 ∧ (s.core (homeOf (to_ i))).objects = []) ∧
      (∀ i, i < 2 → ∀ l, l < 2 → (from_ i + 64 ≤ to_ l ∨ to_ l + 64 ≤ from_ i) ∧ (i ≠ l → to_ i + 64 ≤ to_ l ∨ to_ l + 64 ≤ to_ i))) ∧
    (let j := moving_ [2, 0x4000, 0x8000, 64, 1, 0, 0, 0, 0xC000] []; let s := engined (fun e => { e with live := some j });
      (s.engine 0).live = some j ∧ j.arrays = [] ∧ j.cb = none ∧ j.cursor = 0 ∧ j.valid = 0 ∧ j.jrec = 0 ∧ s.poison = [] ∧ j.flags = 0 ∧
      (j.regs.get 0).toNat = 2 ∧ (j.regs.get 1).toNat = 0x4000 ∧ (j.regs.get 2).toNat = 0x8000 ∧ (j.regs.get 3).toNat = 64 ∧ (j.regs.get 4).toNat = 1 ∧
      (j.regs.get 8).toNat = 0xC000 ∧ (s.core 0).objects = []) ∧
    (let j := fetched_; let s := buffered (engined (fun e => { e with live := some j })) { CircBuf.reset with base := 0x8000, size := 128, count := 1, filling := 1 };
      (s.engine 0).live = some j ∧ (∀ a ∈ j.arrays, 2 ^ 39 ≤ a) ∧ j.cursor ≤ j.filled * (34 * j.dblk) ∧ j.valid = 0 ∧ s.poison = [] ∧
      (s.runJob 0 j).missing = none ∧ (s.runJob 0 j).held = none ∧ (s.runJob 0 j).bad = none ∧ (s.buf 0 15).base = 0x8000 ∧ (s.buf 0 15).size = 128 ∧
      (s.core 0).objects = [] ∧ (17 * 1 + 63) / 64 * 64 + 17 ≤ 128) := by
  decide +kernel
theorem witness_EngineJobs :
    (∀ p ∈ [((1 : Nat), true), (3, false)], let j := copy p.1
      let s : State := { (engined (fun e => { e with live := some j, liveSet := j.regs })) with ranges := [entry (rawKey 0x8000) (rawKey 0x8040) (.job 0 p.1)] }
      let src := (j.regs.get 1).toNat; let dst := (j.regs.get 2).toNat; let len := (j.regs.get 3).toNat;
      s.coreRuns 0 = true ∧ (s.engine 0).live = some j ∧ j.regs.get 0 = 0 ∧ j.regs.get 4 = 1 ∧ j.arrays = [] ∧ j.cb = none ∧ j.cursor = 0 ∧ j.valid = 0 ∧ 1 ≤ len ∧
      src < 2 ^ 36 ∧ dst < 2 ^ 36 ∧ offOf src + len ≤ 2 ^ 20 ∧ offOf dst + len ≤ 2 ^ 20 ∧ src + len ≤ dst ∧ (s.core (homeOf dst)).objects = [] ∧ s.poison = [] ∧
      j.jrec = 0 ∧ j.barrier = 0 ∧ (s.engine 0).held = [] ∧ decide (j.num = (s.engine 0).counter + 1) = p.2 ∧
      s.ranges.find? (fun r => r.id == 5) = some (entry (rawKey 0x8000) (rawKey 0x8040) (.job 0 p.1))) ∧
    (let s := engined (fun e => { e with committed := some (copy 1) }); (s.engine 0).live = none ∧ (s.engine 0).resumedJob = none ∧ (s.engine 0).committed = some (copy 1)) ∧
    (let j := { copy 1 with resumed := true }; let s := engined (fun e => { e with suspended := [j] }); (s.engine 0).live = none ∧ (s.engine 0).resumedJob = some j) ∧
    (let j := { mapped.newJob (reg 0x8040000000 0x8000 64 1) with num := 1, jrec := reservedBase - 64 }
      let s := engined (fun e => { e with live := some j, suspended := [copy 5, copy 4, copy 3] }); let p := s.runJob 0 j;
      (s.engine 0).live = some j ∧ j.cb = none ∧ (s.engine 0).suspended.length < 4 ∧ jobWaits s j 0 64 = false ∧ s.recordHold j true 0 64 = none ∧
      jobWaits { s with ranges := [entry (rawKey reservedBase - 8) (rawKey reservedBase) (.job 0 9)] } j 0 64 = true ∧
      4 ≤ ((engined (fun e => { e with suspended := [copy 5, copy 4, copy 3, copy 2] })).engine 0).suspended.length ∧ p.missing = none ∧ p.held = none ∧ p.bad = some (0, .page, 0x8040000000)) ∧
    (∀ r ∈ [0, reservedBase - 64], let j := { copy 1 with jrec := r }; let s := engined (fun e => { e with suspended := [j] });
      (s.engine 0).suspendedJob 1 = some j ∧ j.barrier = 0 ∧ (s.engine 0).held = [] ∧
      (r = 0 ∨ (r ≠ 0 ∧ r < 2 ^ 36 ∧ offOf r + 64 ≤ reservedBase ∧ (s.core (homeOf r)).objects = [])) ∧ jobWaits s j 0 64 = false ∧ jobWaits s j 20 1 = false ∧
      (r = 0 ∨ jobWaits { s with ranges := [entry (rawKey r + 20) (rawKey r + 21) (.job 0 9)] } j 20 1 = true)) ∧
    (∀ f ∈ [none, some (0 : Nat)], let j := { copy 1 with cb := some 15, filling := f, who := w0, pid := 1 }
      let s := buffered (engined (fun e => { e with live := some j })) { CircBuf.reset with base := 0xC000, size := 64, count := 2, free := 1, filling := 1 }
      let q := spanReq true (0xC000, 0xC040); let p := s.runJob 0 j;
      (s.engine 0).live = some j ∧ j.filled < j.rows ∧ 1 ≤ (s.buf 0 15).free ∧ s.reqMeets j.pid (fun o => decide (o = .job 0 j.num)) q = false ∧
      s.rangesFit j.part j.pid [q] = true ∧ s.roomBehind j.part j.pid [q] (j.place.getD s.ticket) = false ∧
      ({ s with ranges := fullTable } : State).rangesFit j.part j.pid [q] = false ∧
      p.missing = none ∧ p.held = none ∧ (f.isSome = true → p.bad = none)) := by
  decide +kernel
/-! ### Gangs and the array -/

/-- An operand record as a number: window, rows, columns, stride and base. -/
def recordOf (w rows cols stride base : Nat) : Nat := w * 2 ^ 22 + 63 * 2 ^ 25 + rows * 2 ^ 31 + cols * 2 ^ 37 + stride * 2 ^ 44 + (w * 2 ^ 36 + base) * 2 ^ 192
/-- A matrix slot with a record at 0x1BFE0 in g6, another word in g7, and a live plane. -/
def matrix (w x : Nat) (g7 : Nat) : State :=
  (mine (mapped.setNat (rawKey 0x1BFE0) 32 x) (fun y => { handled with regs := ((y.setG 6 0x1BFE0).setG 7 (BitVec.ofNat 64 g7)).regs })).setTile 0
    { Tile.reset with mslots := [(0, 0)], live := { Plane.reset with win := w } }
/-- Whether a check passes with a value that satisfies a test. -/
def okIs {α : Type} (r : Except (Cause × Word) α) (p : α → Bool) : Bool := match r with | .ok x => p x | .error _ => false
/-- Whether a check gives a cause. -/
def badIs {α : Type} (r : Except (Cause × Word) α) (c : Cause) (v : Word) : Bool := match r with | .ok _ => false | .error e => decide (e = (c, v))
theorem witness_GangIssue_checks :
    (let s := matrix 0 0 0; isLarge s.cur.core = false ∧ (s.tile (tileOf s.cur.core)).leaving = [] ∧ (s.tile (tileOf s.cur.core)).mslot (s.cur.core % 16) = s.cur.slot ∧
      (s.tile (tileOf s.cur.core)).pendErr.find? (fun p => p.1 == s.cur.core % 16) = none ∧ s.me.relaxed = [] ∧ s.me.unacked = []) ∧
    okIs ((matrix 0 (recordOf 2 32 2 2 0x8000) 0).checkRecord 0x1BFE0 (fun w => decide (2 ≤ w) && decide (w ≠ 5)) (fun _ => ⟨32, 0, 2⟩)) (fun r => decide (r.rows = 32)) = true ∧
    okIs ((matrix 0 (recordOf 2 2 32 32 0x8000) 0).checkRecord 0x1BFE0 (fun w => decide (2 ≤ w)) (fun r => ⟨2, 0, if r.window = 5 then 64 else 32⟩)) (fun r => decide (r.cols = 32)) = true ∧
    (∀ p ∈ [((2 : Nat), (2 : Nat)), (3, 4), (6, 7)], let s := matrix p.1 (recordOf p.2 2 32 32 0x8000) 0; let j := (s.tile 0).proj;
      okIs (s.checkRecord 0x1BFE0 (fun w => decide (2 ≤ w) && decide (pairMode j.live w ≠ .unset) && (decide (j.mode = .unset) || decide (j.mode = pairMode j.live w)))
        (fun _ => ⟨2, 1, if j.live = 5 then 64 else 32⟩)) (fun r => decide (r.window = p.2)) = true) ∧
    (let s := (matrix 2 (recordOf 2 2 32 32 0x8000) 0x5000).setNat (rawKey 0x5000) 8 (0x6000 * 2 ^ 16 + 2 * 2 ^ 56);
      okIs (s.checkRecord 0x1BFE0 (fun w => decide (w = 2)) (fun _ => ⟨2, 1, 32⟩)) (fun r => okIs (s.groupPlan 0x1BFE0 r (s.g 7) 1 (pairMode 2 r.window)) (fun q => decide (q.words.length = 1))) = true) ∧
    (let s := matrix 0 0 (0x6000 * 2 ^ 16); s.drainCause (s.g 7) .unset 32 0 = none ∧ s.drainCause (s.g 7) .int 32 0 = some (.access, 0x6000)) ∧
    (∀ p ∈ [((0 : Nat), (4096 : Nat), true), (4095, 1, true), (4095, 2, false), (0, 0, false)], let rb := BitVec.ofNat 64 (p.1 + p.2.1 * 2 ^ 16);
      decide (field rb 29 2 = 0 ∧ field rb 12 4 = 0 ∧ field rb 16 13 ≠ 0 ∧ field rb 0 12 + field rb 16 13 ≤ 4096) = p.2.2) ∧
    (∀ w ∈ [(0 : Nat), 6, 7], okIs ((matrix 0 (recordOf w 32 32 32 0x4000) 63).checkRecord 0x1BFE0 (fun w => [0, 6, 7].contains w) (fun _ => ⟨32, 32, 32⟩)) (fun r => decide (r.cols = 32)) = true) ∧
    (let rb := BitVec.ofNat 64 (63 + 15 * 2 ^ 32); let sp := coverSpan rb;
      field rb 8 8 = 0 ∧ field rb 28 4 = 0 ∧ field rb 36 4 = 0 ∧ field rb 44 20 = 0 ∧ field rb 0 6 = 63 ∧ sp.1 + sp.2 ≤ 15 ∧ sp.1 ≤ 0 ∧ 0 ≤ sp.1 + sp.2 ∧ bit rb 6 = false ∧ bit rb 7 = false) ∧
    coverSpan (BitVec.ofNat 64 31) = (0, 0) ∧
    (let rb := BitVec.ofNat 64 (4096 * 2 ^ 16); field rb 29 35 = 0 ∧ (matrix 0 0 0).userArea 0 0x4000 (4 * field rb 16 13) = true) := by
  decide +kernel

theorem witness_GangIssue_joins :
    (∀ free ∈ [true, false], let s0 := matrix 2 (recordOf 2 2 32 32 0x8000) 0;
      let s : State := if free then s0 else { s0 with ranges := [entry (rawKey 0x4000) (rawKey 0x4001) (.job 0 1)] };
      okIs (s.checkRecord 0x1BFE0 (fun w => decide (w = 2)) (fun _ => ⟨2, 1, 32⟩)) (fun r => let p : Plan := ⟨some r, [], (0x1BFE0, 0x1C000) :: r.extents, [], []⟩;
        (s.lockedRange s.me.pid (s.sameJoin 0) ((p.reads ++ p.own).map (spanReq false) ++ p.shared)).isNone == free &&
        s.rangesFit s.me.part s.me.pid (s.memberRanges p)) = true) ∧
    (let s0 := matrix 2 (recordOf 2 2 32 32 0x8000) 0; let s : State := { s0 with ranges := fullTable };
      okIs (s.checkRecord 0x1BFE0 (fun w => decide (w = 2)) (fun _ => ⟨2, 1, 32⟩)) (fun r => let p : Plan := ⟨some r, [], (0x1BFE0, 0x1C000) :: r.extents, [], []⟩;
        (s.lockedRange s.me.pid (s.sameJoin 0) ((p.reads ++ p.own).map (spanReq false) ++ p.shared)).isNone &&
        !s.rangesFit s.me.part s.me.pid (s.memberRanges p)) = true) ∧
    isLarge large.cur.core = true ∧ (mapped.tile 0).leaving = [] ∧ (mapped.tile 0).mslot 0 ≠ 0 ∧
    (let s := (matrix 0 0 0).setTile 0 { Tile.reset with mslots := [(0, 0)], pendErr := [(0, 5)] };
      (s.tile 0).leaving = [] ∧ (s.tile 0).mslot 0 = s.cur.slot ∧ s.me.relaxed = [] ∧ (s.tile 0).pendErr.find? (fun e => e.1 == 0) = some (0, 5) ∧ s.me.canEnter .mtxerr 5 = true) ∧
    badIs ((matrix 2 (recordOf 5 2 32 32 0x8000) 0).checkRecord 0x1BFE0 (fun w => decide (w = 2)) (fun _ => ⟨2, 1, 32⟩)) .access 0x1BFE0 = true ∧
    ((0x1BFE1 : Word).toNat % 32 ≠ 0 ∧ ((0x1000000000 : Word).toNat % 32 = 0 ∧ 2 ^ 36 ≤ (0x1000000000 : Word).toNat) ∧ homeOf 0x100000 ≠ 0 ∧ reservedBase ≤ offOf 0x1C000) := by
  decide +kernel

/-- Sixteen slots of tile 0, slot 0 of each core, with a park. -/
def gang (p : Park) : State :=
  { ((List.range 16).foldl (fun (s : State) c => s.setSlot ⟨c, 0⟩ { handled with park := p, launch := 3 }) mapped) with launches := [{ job 3 with held := [(0, 16)] }] }
/-- Core c's member of an operation. -/
def member (f : GangFn) (r : Option OpRec) (c : Nat) : Member := { who := ⟨c, 0⟩, fn := f, word := 0xB4000000, ra := 0x4000, rb := 0, imm := 0, record := r, words := [] }
/-- A tile that these members have joined. -/
def joined (js : List Member) (q : List GangOp) : State := (gang .member).setTile 0 { Tile.reset with joining := js, queue := q }
/-- An operation of the array. -/
def op (f : GangFn) (ms : List Member) (n : Nat) (on : Bool) : GangOp :=
  { num := n, seq := n + 1, fn := f, ra := 0x4000, rb := 0, imm := 0, members := ms, launch := 3, started := on, probed := false }
/-- The sixteen members of an operation. -/
def all (f : GangFn) (r : Option OpRec) : List Member := (List.range 16).map (member f r)
theorem witness_GangSteps :
    (let s := { gang .ready with launches := [] }; (s.inGang 0).any (fun w => decide (w.core = 0)) = false ∧ s.launch? s.me.launch = none) ∧
    (∀ p ∈ [Park.ready, .gang], let s := gang p; isLarge s.cur.core = false ∧ (s.tile 0).leaving = [] ∧
      (s.inGang 0).any (fun w => decide (w.core = s.cur.core)) = decide (p = .gang) ∧ s.launch? s.me.launch = some { job 3 with held := [(0, 16)] } ∧
      ({ job 3 with held := [(0, 16)] } : Launch).holdsTile 0 = true ∧ s.me.relaxed = [] ∧ s.me.unacked = [] ∧
      (s.tile 0).pendErr.find? (fun e => e.1 == 0) = none ∧ s.tileRuns 0 = true ∧ (s.tile 0).joining = [] ∧ s.roomMembers 0 = [] ∧
      (s.tile 0).pendErr = [] ∧ decide ((s.inGang 0).length = 16) = decide (p = .gang) ∧ (p = .gang → ∀ c ∈ List.range 16, ∃ w ∈ s.inGang 0, w.core = c)) ∧
    (let s := (gang .ready).setTile 0 { Tile.reset with pendErr := [(0, 5)] }; isLarge s.cur.core = false ∧ (s.tile 0).leaving = [] ∧ s.me.relaxed = [] ∧
      (s.tile 0).pendErr.find? (fun e => e.1 == 0) = some (0, 5) ∧ s.me.canEnter .mtxerr 5 = true) ∧
    (∀ n ∈ [(0 : Nat), 3, 4], ∀ r ∈ [0, 1], let js := all .mswap none; let s := joined (if r = 0 then js else { member .mzero none 0 with rb := 1 } :: js.tail) (List.replicate n (op .mzero [] 0 false));
      s.tileRuns 0 = true ∧ (s.tile 0).leaving = [] ∧ (s.tile 0).joining.length = 16 ∧ (∀ c ∈ List.range 16, ∃ m ∈ (s.tile 0).joining, m.who.core = c) ∧
      (∀ m ∈ (s.tile 0).joining, m.who.slot < 8 ∧ (s.slot m.who).park = .member ∧ (s.slot m.who).outstanding = [] ∧ (s.slot m.who).relaxedFault = none ∧
        (s.slot m.who).canEnter .illegal m.word = true ∧ (s.slot m.who).canEnter .bounds m.ra = true) ∧
      ((s.tile 0).queue.filter (fun o => !o.started)).length = n ∧
      decide (∀ m ∈ (s.tile 0).joining, ∀ q ∈ (s.tile 0).joining, q.fn = m.fn ∧ q.rb = m.rb ∧ q.imm = m.imm) = decide (r = 0)) ∧
    (∀ p ∈ [((1 : Nat), false), (2, true)], let js := (all .mcovp (some (opRecAt (recordOf 0 p.1 32 32 0x4000)))).map (fun m => { m with rb := BitVec.ofNat 64 (4080 * 2 ^ 16) });
      let total := (js.map (fun m => (m.record.map (fun r => r.rows)).getD 0)).sum;
      decide (4096 < field (BitVec.ofNat 64 (4080 * 2 ^ 16)) 16 12 + total) = p.2) ∧
    (let js := (all .mswap none).tail; let s := ((joined js []).setTile 0 { (joined js []).tile 0 with leaving := [0] }).setSlot ⟨0, 1⟩ { handled with park := .gang };
      tileOf 0 = 0 ∧ s.tileRuns 0 = true ∧ (s.tile 0).leaving = [0 % 16] ∧ (∀ m ∈ js, m.who.core % 16 ≠ 0 ∧ m.who.slot < 8 ∧ (s.slot m.who).park = .member) ∧ s.roomMembers 0 = [] ∧
      s.inGang 0 = [⟨0, 1⟩] ∧ (s.inGang 0 ++ js.map (fun m => m.who)).Nodup ∧ (s.slot ⟨0, 1⟩).canEnter .illegal 0xB4000000 = true) ∧
    (∀ i ∈ [Issue.member (member .mswap none 0), .cert { who := w0, record := 0x4000 }, .job { mapped.newJob (reg 0x4000 0x8000 64 1) with who := w0 }], ∀ full ∈ [true, false],
      let qs := [spanReq true (rawKey 0x8000, rawKey 0x8040)];
      let s : State := { mine mapped (fun x => { x with park := .room i qs qs 1 }) with ranges := if full then fullTable else [] };
      (s.slot w0).park = .room i qs qs 1 ∧ s.coreRuns 0 = true ∧ s.roomBehind (s.slot w0).part (s.slot w0).pid qs 1 = false ∧
      s.rangesFit (s.slot w0).part (s.slot w0).pid qs = !full ∧ s.lockedRange (s.slot w0).pid (fun _ => false) qs = none ∧ s.lockedRange (s.slot w0).pid (s.sameJoin 0) qs = none) := by
  decide +kernel

/-- The conditions of State.RunsNext for an operation that runs alone on tile 0, which can be computed. -/
abbrev RunsAlone (s : State) (k : Nat) (o : GangOp) (rest : List GangOp) : Prop :=
  s.tileRuns k = true ∧ (s.tile k).queue = o :: rest ∧ o.started = true ∧ o.probed = false ∧ s.opPoison o = false ∧ (∀ p ∈ rest, p.num ≠ o.num) ∧
  o.members.map (fun m => m.who.core) = (List.range 16).map (fun c => 16 * k + c)
theorem runs_iff {s : State} {k : Nat} {o : GangOp} {rest : List GangOp} : s.RunsNext k o rest ↔ RunsAlone s k o rest :=
  ⟨fun h => ⟨h.runs, h.head, h.started, h.fresh, h.clean, h.number, h.members⟩, fun h => ⟨h.1, h.2.1, h.2.2.1, h.2.2.2.1, h.2.2.2.2.1, h.2.2.2.2.2.1, h.2.2.2.2.2.2⟩⟩
/-- A tile of matrix slots 0 that runs an operation ahead of one that waits. -/
def running (o : GangOp) : State := (gang (.arrayDone o.num)).setTile 0 { Tile.reset with mslots := (List.range 16).map (fun c => (c, 0)), queue := [o, op .mzero [] 9 false], live := { Plane.reset with win := 2 } }
theorem witness_ArrayLoadsAndStreams :
    (∀ p ∈ [(GangFn.mldw, (32 : Nat), (2 : Nat)), (.mtld, 2, 32), (.mswap, 0, 0), (.mzero, 0, 0), (.mstrm, 2, 32)],
      let o := op p.1 (all p.1 (if p.2.1 = 0 then none else some (opRecAt (recordOf 2 p.2.1 p.2.2 p.2.2 0x8000)))) 0 true;
      RunsAlone (running o) 0 o [op .mzero [] 9 false] ∧ (o.row = 0 ∧ o.fl = []) ∧
      (∀ c ∈ List.range 16, (running o).flagSlot 0 o c = some ⟨c, 0⟩) ∧ ∀ m ∈ o.members, m.who.slot < 8 ∧ ∀ r ∈ m.record.toList, r.rows ≤ p.2.1 ∧ r.cols ≤ p.2.2) ∧
    ((opRecAt (recordOf 5 2 32 32 0x8000)).window = 5 ∧ ((mapped.setNat (rawKey 0) 1 0x80).byte (rawKey (0 + (0 * 32 + 0) / 32))).toInt = -128 ∧
      (mapped.byte (rawKey (0 + (0 * 32 + 0) / 32))).toInt ≠ -128) ∧
    (∀ p ∈ [(FV.inf true, zeroFV), (zeroFV, FV.inf false)], let q : Plane := { Plane.reset with win := 2, cells := [(32, some p.2)] };
      ([none, some p.1] : List (Option FV))[1]? = some (some p.1) ∧ mapGet q.cells (some zeroFV) 32 = some p.2) ∧
    (let p : Plane := { Plane.reset with win := 2, cells := [(0, some (.fin false 3 (-1)))] }; (0 : Int) - 1 + -1 ≤ -2 ∧ (-2 : Int) ≤ 0 ∧
      mapGet p.cells (some zeroFV) 0 = some (.fin false 3 (-1)) ∧ mapGet p.cells (some zeroFV) 32 = some zeroFV) := by
  decide +kernel

theorem witness_ArrayDrains :
    (let v := BitVec.ofNat 64 (0x6000 * 2 ^ 16); let o := { op .mdrain (all .mdrain none) 0 true with rb := v }; let s := running o;
      RunsAlone s 0 o [op .mzero [] 9 false] ∧ field v 16 17 % 64 = 0 ∧ field v 16 17 + dwExtent v 32 ≤ reservedBase ∧ (s.core (field v 0 16)).objects = [] ∧ s.poison = [] ∧ o.row = 0 ∧ o.fl = [] ∧
      (∀ m ∈ o.members, m.who.slot < 8 ∧ m.record = none)) ∧
    (∀ n ∈ [(0 : Nat), 32], let v := BitVec.ofNat 64 (0x6000 * 2 ^ 16 + n * 2 ^ 56);
      let o := op .mgrp ((all .mgrp (some (opRecAt (recordOf 2 2 32 32 0x8000)))).map (fun m => { m with words := [v] })) 0 true; let s := running o;
      RunsAlone s 0 o [op .mzero [] 9 false] ∧ o.members.head?.map (fun m => m.words) = some [v] ∧ dwRows v = n ∧ dwRows v ≤ o.opRows.length ∧ (∀ m ∈ o.members, m.who.slot < 8 ∧ ∀ r ∈ m.record.toList, r.rows ≤ 2) ∧ o.row = 0 ∧ o.fl = [] ∧
      field v 16 17 % 64 = 0 ∧ field v 16 17 + dwExtent v (dwRows v) ≤ reservedBase ∧ s.poison = []) ∧
    (∀ e ∈ [Tag.exact, 20], let a : Accum := { val := .fin false 3 0, m := some 1, k := 4, sig := e, rounded := false };
      a.k ≠ 0 ∧ f32.isFinite (a.drain .fp 0 false).1 = true ∧ f32.isZero (a.drain .fp 0 false).1 = false ∧ leadFV (f32.value (a.drain .fp 0 false).1) = some 1 ∧
      f32.isZero (({ a with val := zeroFV } : Accum).drain .fp 0 false).1 = true) ∧
    (cmpFV (.fin false 448 0) (.fin false 3 8) < 0 ∧ ¬ cmpFV (.fin false 448 0) (.fin false 7 6) < 0 ∧
      (roundFin ⟨5, 2, 15⟩ .rne false 1 16 false).2.getLsbD 2 = true ∧ (roundFin ⟨5, 2, 15⟩ .rne false 3 8 false).2.getLsbD 2 = false) := by
  decide +kernel

/-- A probe of sixteen members, the first with a record of 32 rows, over a span of ext + 1 tiles. -/
def probe (f : GangFn) (ext n : Nat) : GangOp :=
  let r := opRecAt (recordOf 0 32 32 32 0x4000);
  { op f (member f (some r) 0 :: (all f none).tail) n true with rb := BitVec.ofNat 64 (63 + ext * 2 ^ 32) }
theorem witness_CoverageSteps :
    (∀ f ∈ [GangFn.mcovc, .mcovp, .mcovr, .mcovi], ∀ c ∈ [(63 : Nat), 31], let o := { probe f 0 0 with rb := BitVec.ofNat 64 c }; let s := running o; let x := s.tile 0;
      o.row = 0 ∧ o.fl = [] ∧ RunsAlone s 0 o [op .mzero [] 9 false] ∧
      (o.members.filterMap (fun m => m.record)).filter (fun r => decide (r.rows ≠ 0)) = [opRecAt (recordOf 0 32 32 32 0x4000)] ∧ x.covFp = false ∧ bit o.rb 6 = false ∧
      field o.rb 0 6 = c ∧ field o.rb 32 4 = 0 ∧ (∀ m ∈ o.members, m.who.slot < 8) ∧ x.amode = .unset ∧ (∀ c ∈ List.range 32, (x.acc o.imm c).val = .fin false 0 0) ∧
      o.ra.toNat % 4 = 0 ∧ offOf o.ra.toNat + 4 * field o.rb 16 13 ≤ reservedBase ∧ s.poison = [] ∧ (s.core (homeOf o.ra.toNat)).objects = []) ∧
    (let o := probe .mcovp 1 0; let s := running o; RunsAlone s 0 o [op .mzero [] 9 false] ∧ field o.rb 32 4 ≠ 0 ∧ (∃ j ∈ spanTiles 0 o.rb, (s.tile j).spanOp (s.tile 0).spans = none)) ∧
    (let o := probe .mcovp 1 0; let s := (running o).setTile 1 { Tile.reset with queue := [o] };
      ∀ j ∈ spanTiles 0 o.rb, (s.tile j).spanOp (s.tile 0).spans = some o) ∧
    (let o := { probe .mcovp 1 0 with probed := true }; let p : GangOp := { o with members := (List.range 16).map (fun c => member .mcovp none (16 + c)) };
      let s := (running o).setTile 1 { Tile.reset with queue := [p] }; let x := s.tile 0;
      (∀ j ∈ spanTiles 0 o.rb, s.tileRuns j = true) ∧ x.queue = o :: [op .mzero [] 9 false] ∧ x.waitingSpan x.spans = some o ∧ spanTiles 0 o.rb = [0, 1] ∧
      (s.tile 1).waitingSpan x.spans = some p ∧ (∀ j ∈ [0, 1], (s.tile j).covFp = false ∧ ∀ c ∈ List.range 32, ((s.tile j).acc 0 c).val = .fin false 0 0) ∧
      p.members.map (fun m => m.who.core) = (List.range 16).map (fun c => 16 * 1 + c) ∧ (∀ m ∈ o.members ++ p.members, m.who.slot < 8) ∧
      (∀ fp ∈ [true, false], ∀ c ∈ List.range 32, ([0, 1].tail.foldl (fun a j => (accSum (covMode fp) a ((s.tile j).acc 0 c).val).1) ((s.tile 0).acc 0 c).val) ≠ .nan)) ∧
    (let o := { probe .mcovp 1 0 with probed := true }; let s := running o; (s.tile 0).waitingSpan (s.tile 0).spans = some o ∧
      ∃ j ∈ spanTiles 0 o.rb, (s.tile j).waitingSpan (s.tile 0).spans = none) := by
  decide +kernel
/-- PRODUCT mode over two rows of zeros, without and with a commit. -/
theorem witness_CoverageSteps_product : ∀ commit ∈ [(63 : Nat), 31],
    let r := opRecAt (recordOf 2 2 32 32 0x4000)
    let o := { op .mcovp (member .mcovp (some r) 0 :: (all .mcovp none).tail) 0 true with rb := BitVec.ofNat 64 (commit + 2 ^ 6) }
    let s0 := running o
    let s := s0.setTile 0 { s0.tile 0 with covFp := true }
    let x := s.tile 0
    let best := fun (e : Nat) => mapGet x.cover (0 : W32) e
    let pv := fun (i c : Nat) => (s.opRow r i).map (fun vs => (roundFV f32 .rne (x.live.kblock vs c).1).1)
    let pbest := fun (i : Nat) => match if commit < 32 then pv i commit else none with
      | some a => if f32.isNaN a = true then (best i).toNat else (fpMinMax f32 true (best i).toNat a).1
      | none => (best i).toNat
    let pgain := fun (c : Nat) => (List.range r.rows).foldl (fun (a : FV) i => match pv i c with
      | some b => let d := (fpSub f32 .rne b (pbest i)).1
        if f32.isNaN b = true then a else (accSum .fp a (if f32.isNaN d = true ∨ f32.sign d = true then zeroFV else plusZero (f32.value d))).1
      | none => a) zeroFV
    RunsAlone s 0 o [op .mzero [] 9 false] ∧ o.row = 0 ∧ o.fl = [] ∧ (o.members.filterMap (fun m => m.record)).filter (fun r => decide (r.rows ≠ 0)) = [r] ∧
    x.covFp = true ∧ bit o.rb 6 = true ∧ bit o.rb 7 = false ∧ field o.rb 0 6 = commit ∧ field o.rb 16 12 = 0 ∧ field o.rb 32 4 = 0 ∧ x.amode = .unset ∧
    (∀ m ∈ o.members, m.who.slot < 8) ∧ ∀ c ∈ List.range 32, pgain c ≠ .nan := by
  decide +kernel

theorem witness_ArrayErrorsAndStatus :
    (∀ on ∈ [true, false], let o := op .mzero (all .mzero none) 0 on; let s := running o;
      s.tileRuns 0 = true ∧ (s.tile 0).queue = o :: [op .mzero [] 9 false] ∧ (∀ p ∈ [op .mzero [] 9 false], p.started = false ∧ p.num ≠ o.num) ∧ o.started = on ∧ o.fn ≠ .mswap) ∧
    (let o := op .mstrm (all .mstrm none) 0 true; let p := op .mldw (all .mldw none) 1 false; let s := (running o).setTile 0 { Tile.reset with queue := [o, p, op .mzero [] 2 false] };
      (s.tile 0).queue = o :: p :: [op .mzero [] 2 false] ∧ o.fn ≠ .mldw ∧ o.fn ≠ .mtld ∧ p.fn = .mldw ∧ ∀ q ∈ [op .mzero [] 2 false], q.num ≠ p.num) ∧
    (∀ bad ∈ [true, false], ∀ alone ∈ [true, false],
      let o := op .mldw (all .mldw (some (opRecAt (recordOf 2 32 2 2 0x8000)))) 0 true; let rest := if alone then [] else [op .mzero [] 9 false];
      let s0 := (gang (if alone then .arrayDone 0 else .ready)).setTile 0 { Tile.reset with queue := o :: rest }; let s := if bad then s0.setPoison (rawKey 0x4000) true else s0;
      s.tileRuns 0 = true ∧ (s.tile 0).queue = o :: rest ∧ o.started = true ∧ o.probed = false ∧ s.opPoison o = bad ∧ s.opPoison { o with row := 0 } = bad ∧ (∀ p ∈ rest, p.started = false ∧ o.num < p.num) ∧
      (alone = false → ∀ p ∈ (s.tile 0).queue, ∀ m ∈ p.members, (s.slot m.who).park ≠ .arrayDone p.num) ∧
      (alone = true → o.members.map (fun m => m.who.core) = (List.range 16).map (fun c => 16 * 0 + c) ∧ ∀ m ∈ o.members, m.who.slot < 8 ∧
        (s.slot m.who).park = .arrayDone o.num ∧ (s.slot m.who).outstanding = [] ∧ (s.slot m.who).relaxedFault = none ∧ (s.slot m.who).canEnter .mtxerr 5 = true)) ∧
    (let o := op .mdrain (all .mdrain none) 0 true; let s := running o; s.opPoison o = false ∧ (mapGet s.sys.scrubs [] (errorKey (.tile 0))).length < 3 ∧
      (∀ p ∈ [op .mzero [] 9 false], o.num < p.num)) ∧
    (let s := running (op .mzero (all .mzero none) 0 true); isLarge s.cur.core = false ∧ (s.tile 0).pendErr.find? (fun e => e.1 == 0) = none ∧ s.me.relaxed = [] ∧ s.me.unacked = []) := by
  decide +kernel

/-- A certificate record at 0x4000 for n neurons: inputs at 0x8000, 0xC000 and 0x10000, outputs at 0x14000 and 0x15000. -/
def certified (s : State) (n : Nat) : State := ([(0, 0x8000), (8, 0xC000), (16, 0x10000), (24, 0x14000), (32, 0x15000), (50, n)] : List (Nat × Nat)).foldl
  (fun s p => s.setNat (rawKey 0x4000 + p.1) (if p.1 < 50 then 8 else 2) p.2) s
theorem witness_CertifiedSparse :
    (∀ p ∈ [((0x1BFFC : Nat), (1 : Nat)), (0x18000, 4096)], let s := mine (one (BitVec.ofNat 64 p.1)) (fun x => x.setG 7 (BitVec.ofNat 64 p.2)); let a := (s.g 6).toNat;
      isLarge s.cur.core = false ∧ s.me.relaxed = [] ∧ s.me.unacked = [] ∧ a % 4 = 0 ∧ a < 2 ^ 36 ∧ s.inPart s.me.part (homeOf a) = true ∧ 1 ≤ p.2 ∧ p.2 ≤ 4096 ∧
      offOf a + 4 * p.2 ≤ reservedBase ∧ s.spadMeets (rawKey a) (rawKey a + 4 * p.2) = [] ∧ s.poison = []) ∧
    (one 0x4001).g 6 % 4 ≠ 0 ∧ 2 ^ 36 ≤ ((one 0x1000000000).g 6).toNat ∧ (one 0).inPart 0 (homeOf 0x100000000) = false ∧ reservedBase ≤ offOf 0x1C000 ∧
    (∀ n ∈ [(1 : Nat), 4096], let s := certified (mine (one 0x4000) (fun x => { x with park := .ready })) n;
      okIs (s.certPlan (s.g 6)) (fun qs => (s.lockedRange s.me.pid (fun _ => false) qs).isNone && s.rangesFit s.me.part s.me.pid qs) = true) ∧
    ((one 0x4020).g 6 % 64 ≠ 0 ∧ (one 0).userArea 0 0x1C000 64 = false ∧ tileOf (homeOf 0x1000000) ≠ tileOf 0) ∧
    (let s := mine (one 0x4000) (fun x => { x.setG 7 3 with park := .norm 6 7 }); s.coreRuns 0 = true ∧ (s.slot w0).park = .norm 6 7 ∧
      ∀ i ∈ List.range 3, blocksLoad (s.spadMeets (rawKey 0x4000 + 4 * i) (rawKey 0x4000 + 4 * i + 4)) = false ∧ s.anyPoison (rawKey 0x4000 + 4 * i) 4 = false) ∧
    (let s := (certified (mine mapped (fun x => { x with park := .certify })) 64).setTile 0 { Tile.reset with certs := [{ who := w0, record := 0x4000 }] }; let x := s.certRec 0x4000;
      let n := certN x; let bm := nfield x 192 64; let ls := nfield x 256 64;
      s.tileRuns 0 = true ∧ (s.tile 0).certs = { who := w0, record := 0x4000 } :: [] ∧ (s.slot w0).park = .certify ∧ (s.slot w0).thread = 0 ∧ ({ s with slots := [] } : State).slot w0 = Slot.reset ∧ Slot.reset.park ≠ .certify ∧ s.poison = [] ∧ n = 64 ∧ bm < 2 ^ 36 ∧ ls < 2 ^ 36 ∧
      offOf bm + 8 * ceilDiv n 64 ≤ reservedBase ∧ offOf ls + 2 * n ≤ reservedBase ∧ arraysMeet (0x4000, 64) (bm, 8 * ceilDiv n 64) = false ∧
      arraysMeet (0x4000, 64) (ls, 2 * n) = false ∧ arraysMeet (bm, 8 * ceilDiv n 64) (ls, 2 * n) = false ∧ (∀ c ∈ s.cores, c.2.objects = []) ∧ Core.reset.objects = []) ∧
    (f32.isInf 0x7F800000 = true ∧ f32.isNaN 0x7FC00000 = true ∧ f32.isFinite 0x7F7FFFFF = true ∧ (0x7F7FFFFF : Nat) < 0x7F800000) ∧
    (cmpFV (f32.value 0) zeroFV ≤ 0 ∧ 0 < cmpFV (f32.value 0x3F800000) zeroFV ∧ cmpFV (f32.value 0x3F000000) (f32.value 0x3F800000) < 0 ∧
      ¬ cmpFV (f32.value 0x3F800000) (f32.value 0x3F800000) < 0 ∧ f32.isNaN 0x3F800000 = false) := by
  decide +kernel

/-! ### Launches -/

/-- A gang of one super-group. -/
def wide : List Level := [{ count := 1, rsv := 0, scope := 4, domain := 4, kind := 1 }]
/-- A state with one launch, which stands in its queue unless it runs. -/
def waiting (l : Launch) : State :=
  let s : State := { mapped with launches := [l] }
  if l.state = .running then s else s.setQueue 0 l.eprio [l.id]
/-- A state whose partition 0 is changed. -/
def parted (s : State) (f : Partition → Partition) : State := s.setPart 0 (f (s.part 0))
/-- What a distributor's read finds. -/
def findsNat (r : DistRead) (n : Nat) : Bool := match r with | .ok k => k == n | _ => false
def findsCause (r : DistRead) (c : Cause) : Bool := match r with | .fault e => decide (e = c) | _ => false
def findsHeld (r : DistRead) (a : Bool) : Bool := match r with | .held b => b == a | _ => false
/-- The tests' state with the first page of V-space being moved. -/
def moved : State := mapped.setNat (devKey 0x1000000) 8 (2 + 8 + 16 + 2 ^ 12)
theorem witness_LaunchSubmission :
    (let s := one 0x8000000101; (s.g 6).toNat % 256 ≠ 0 ∧ (s.g 6).toNat % 64 ≠ 0) ∧
    (∀ a ∈ [(0x7FFFFFFF00 : Nat), 0x100000000000000], let s := one (BitVec.ofNat 64 a);
      (s.g 6).toNat % 256 = 0 ∧ ¬ (2 ^ 39 ≤ (s.g 6).toNat ∧ (s.g 6).toNat < 2 ^ 56)) ∧
    (∀ n ∈ [(15 : Nat), 16], let s : State := { one 0x8000000000 with launches := List.replicate n { job 1 with issuer := some (one 0).me.thread } };
      (s.g 6).toNat % 256 = 0 ∧ 2 ^ 39 ≤ (s.g 6).toNat ∧ (s.g 6).toNat < 2 ^ 56 ∧ s.me.relaxed = [] ∧ s.me.unacked = [] ∧
      (s.launches.filter (fun l => decide (l.issuer = some s.me.thread))).length = n) ∧
    (let b := Body.record 0x8000001000 5 none; let s := flying (mine mapped (fun x => { x with park := .reply 7 })) w0 5 b; let s0 : State := { s with cached := false };
      s.msg? 7 = some (sent w0 5 b) ∧ w0.core < 2 ^ 20 ∧ (s.drop 7).hears 0 = true ∧ (s.slot w0).park = .reply 7 ∧
      findsNat (s0.distRead 0 1 none 0x8000001000 256) 0 = true ∧ (s.part 0).placing = none) ∧
    (∀ n ∈ [(0 : Nat), 64], let b := Body.record 0x8040000000 5 none
      let s := parted (flying (mine mapped (fun x => { x with park := .reply 7 })) w0 5 b) (fun p => { p with fqtail := n }); let s0 : State := { s with cached := false };
      s.msg? 7 = some (sent w0 5 b) ∧ (s.drop 7).hears 0 = true ∧ (s.slot w0).park = .reply 7 ∧ findsCause (s0.distRead 0 1 none 0x8040000000 256) .page = true ∧
      decide ((s.part 0).fqtail - (s.part 0).fqhead < (s.part 0).fqsize) = decide (n = 0)) ∧
    (let b := Body.record 0x8000001000 5 none; let s := flying (mine moved (fun x => { x with park := .reply 7 })) w0 5 b; let s0 : State := { s with cached := false };
      s.msg? 7 = some (sent w0 5 b) ∧ (s.drop 7).hears 0 = true ∧ (s.slot w0).park = .reply 7 ∧ findsHeld (s0.distRead 0 1 none 0x8000001000 256) false = true) ∧
    ((23 : Nat) < 24 ∧ (15 : Nat) < 16 ∧ (mapped.part 15).valid = false ∧ ({ mapped with sys := { mapped.sys with hostUp := false } } : State).sys.hostUp = false) ∧
    ((mapped.part 0).valid = true ∧ mapped.sys.hostUp = true ∧ (0x8000001001 : Word).toNat % 256 ≠ 0 ∧ (parted mapped (fun p => { p with pid := 0 })).part 0 = { mapped.part 0 with pid := 0 }) ∧
    (let s := mapped; let s0 : State := { s with cached := false };
      (s.part 0).pid ≠ 0 ∧ s.net = [] ∧ (s.slot ⟨2 ^ 20, 0⟩).park ≠ .reply s.nextId ∧ (s.part 0).placing = none ∧
      findsNat (({ s0 with net := s.net ++ [{ id := s.nextId, src := ⟨2 ^ 20, 0⟩, rd := 0, body := .record 0x8000001000 23 none }], nextId := s.nextId + 1 }
        : State).distRead 0 (s.part 0).pid none 0x8000001000 256) 0 = true) := by
  decide +kernel

theorem witness_LaunchQueues :
    (∀ n ∈ [(0 : Nat), 1, 2 ^ 63 - 1, 2 ^ 63], let l := { job 1 with levels := wide, state := .waitDep, dep := 0x8000001000 }
      let s := (waiting l).setNat (devKey 0x40001000) 8 n; let s0 : State := { s with cached := false };
      s.launch? 1 = some l ∧ (s.part 0).placing = none ∧ findsNat (s0.distRead l.part l.pid l.since l.dep.toNat 8) n = true) ∧
    (let l := { job 1 with levels := wide, state := .waitDep, dep := 0x8040000000 }; let s := waiting l; let s0 : State := { s with cached := false };
      s.launch? 1 = some l ∧ findsCause (s0.distRead l.part l.pid l.since l.dep.toNat 8) .page = true) ∧
    (∀ p ∈ [((22 : Nat), (2000001 : Nat)), (23, 2000001), (22, 2000000)], let l := { job 1 with levels := wide, state := .queued, eprio := p.1 }
      let s : State := { waiting l with sys := { (waiting l).sys with meridian := p.2 } };
      s.launch? 1 = some l ∧ (s.part 0).placing = none ∧ l.state ≠ .waitDep ∧
      decide (l.id ∈ mapGet (s.part 0).queues [] l.eprio ∧ l.eprio < 23 ∧ 1000 * mapGet (s.part 0).patience 2000 l.eprio < s.sys.meridian - l.enq) = decide (p = (22, 2000001))) ∧
    (let l := { job 1 with levels := wide, state := .running, head := true, eprio := 0 }
      let s0 := (waiting l).setQueue 0 0 [1]; let s : State := { s0 with sys := { s0.sys with meridian := 2000001 } }
      s.launch? 1 = some l ∧ (s.part 0).placing = none ∧ l.id ∈ mapGet (s.part 0).queues [] 0 ∧ 1000 * mapGet (s.part 0).patience 2000 0 < s.sys.meridian - l.enq ∧
      l.state ≠ .waitDep ∧ l.state ≠ .ended ∧ s.pick 0 = some l) ∧
    (∀ late ∈ [(2000001 : Nat), 2000000],
      let l := { job 1 with levels := wide, state := .queued, eprio := 3 }
      let k := { job 2 with levels := wide, state := .queued, eprio := 3, enq := if late = 2000001 then 0 else 1 }
      let s : State := { (waiting l).setQueue 0 3 [2, 1] with launches := [l, k], sys := { mapped.sys with meridian := 2000001 } }
      s.launch? 1 = some l ∧ l.id = 1 ∧ (s.part 0).placing = none ∧
      l.id ∈ mapGet (s.part 0).queues [] 3 ∧ l.eprio < 23 ∧ 1000 * mapGet (s.part 0).patience 2000 l.eprio < s.sys.meridian - l.enq ∧
      ((mapGet (s.part 0).queues [] 3).takeWhile (fun i => decide (i ≠ 1))).any (fun i => match s.launch? i with
        | some k => decide (k.id ∈ mapGet (s.part 0).queues [] k.eprio ∧ k.eprio < 23 ∧ 1000 * mapGet (s.part 0).patience 2000 k.eprio < s.sys.meridian - k.enq)
        | none => false) = decide (late = 2000001)) ∧
    (∀ d ∈ [true, false], let l := { job 1 with levels := wide, state := .waitDep, due := d }; let s := waiting l;
      decide (∀ k ∈ s.launches, k.part = 0 → k.state = .waitDep → k.due = false) = !d) ∧
    (mapped.launch? 1 = none ∧ mapped.pick 0 = none) ∧
    (∀ p ∈ [(some 338, wide, (0 : Nat)), (none, [{ count := 1, rsv := 1, scope := 4, domain := 4, kind := 1 }], 1),
        (none, [{ count := 2, rsv := 0, scope := 4, domain := 4, kind := 1 }], 2), (none, wide, 3)],
      let l := { job 1 with levels := p.2.1, state := .queued, checked := false, badField := p.1 }; let s := waiting l
      let levels := l.levels.takeWhile (fun e => !(e.kind == 0 || (e.kind == 1 && e.count == 0)));
      s.pick 0 = some l ∧ s.launch? 1 = some l ∧ l.checked = false ∧ (∀ k ∈ s.launches, k.part = 0 → k.state = .waitDep → k.due = false) ∧ (p.2.2 = 0 → l.badField.isSome = true) ∧ (p.2.2 = 1 → badLevel [] levels = some 0) ∧
      (2 ≤ p.2.2 → badLevel [] levels = none) ∧ (p.2.2 = 2 → (s.unitsOf 0 l.outer.1).length < l.outer.2) ∧
      (p.2.2 = 3 → l.outer.2 ≤ (s.unitsOf 0 l.outer.1).length)) := by
  decide +kernel

/-- A launch of partition 0 that has a unit reserved. -/
def placed (l : Launch) (ready : Bool) : State := parted (waiting l) (fun p => { p with placing := some { launch := 1, first := 0, cores := 4096, prepared := ready } })
/-- Whether a span is one piece of 64 bytes at a key. -/
def pieceIs (r : Span) (k : Nat) : Bool := match r with | .ok [p] => p.key == k && p.len == 64 | _ => false
def spanHeld (r : Span) : Bool := match r with | .held _ _ => true | _ => false
theorem spanHeld_iff {r : Span} (h : spanHeld r = false) (b : Bool) (va : Nat) : r ≠ .held b va := by rintro rfl; simp [spanHeld] at h
def spanBad (r : Span) : Bool := match r with | .ok _ => false | _ => true
theorem witness_LaunchPlacement :
    (∀ det ∈ [true, false], let l := { job 1 with levels := wide, state := .queued, det := det, held := [] }; let s := waiting l;
      (s.part 0).placing = none ∧ s.pick 0 = some l ∧ s.launch? 1 = some l ∧ l.checked = true ∧ l.part = 0 ∧ (∀ k ∈ s.launches, k.part = 0 → k.state = .waitDep → k.due = false) ∧
      (s.part 0).valid = true ∧ (s.part 0).run = .running ∧ s.unitIn 0 l.outer.1 0 = true ∧ (∀ k ∈ s.launches, k.held = []) ∧ s.sys.withheld = [] ∧ (s.unitsOf 0 l.outer.1).find? (fun b => s.unitFree b 4096) = some 0) ∧
    (let l := { job 1 with levels := wide, state := .queued, held := [(4095, 1)] }; let s := waiting l; s.pick 0 = some l ∧
      ∃ k ∈ s.launches, ∃ h ∈ k.held, h.1 < 0 + domainCores l.outer.1 ∧ 0 < h.1 + h.2) ∧
    (∀ z ∈ [true, false], let l := { job 1 with levels := wide, state := .placing, zero := z }; let s := placed l false;
      (s.part 0).placing = some { launch := 1, first := 0, cores := 4096, prepared := false } ∧ (s.part 0).valid = true ∧ (s.part 0).run = .running ∧
      s.launch? 1 = some l ∧ l.zero = z) ∧
    (mapped.leaderUp = true ∧ isLarge 4095 = false ∧ (mapped.slot ⟨4095, 7⟩).occ = false ∧ mapped.partOf 4095 = some 0) ∧
    (let l := { job 1 with levels := wide }; let s := parted (waiting l) (fun p => { p with largeMask := 1 }); s.launch? l.id = some l ∧ isLarge 65536 = true ∧ s.leaderUp = true ∧ s.inPart l.part 65536 = true ∧
      s.coreRuns 65536 = true ∧ l.checked = true ∧ l.state ≠ .ended ∧ s.freeUser 65536 = some 0) ∧
    (let l := { job 1 with levels := wide ++ [{ count := 1, rsv := 0, scope := 1, domain := 1, kind := 1 }], state := .placing, gangs := 0 }; let s := placed l true; let inner := innerLevels (spatialOf (tableLevels l.levels));
      let picks := [[4095], [6]]; let ms := placeLevels l.det inner picks [(0, 0)];
      (s.part 0).placing = some { launch := 1, first := 0, cores := 4096, prepared := true } ∧ s.launch? 1 = some l ∧ picksOk (max 1 l.outer.1) inner picks 1 = true ∧
      ms = [(4095, 6)] ∧ (s.slot ⟨4095, 6⟩).occ = false ∧ (∀ k ∈ s.launches, ∀ h ∈ k.held, h.1 = 0)) ∧
    (let l := { job 1 with levels := wide, held := [(0, 4096)] }; let s := waiting l; s.launch? 1 = some l ∧ s.finished l = true ∧ doneOk l.done.toNat = false ∧ s.net = [] ∧
      spanHeld (({ s with cached := false } : State).vspan l.part l.pid true false (l.addr + 128) 24) = false) ∧
    (∀ a ∈ [(0x8000001000 : Nat), 0x8040000000], let l := { job 1 with levels := wide, held := [(0, 4096)], done := 0x8000002000, addr := a }; let s := waiting l; let s0 : State := { s with cached := false };
      s.launch? 1 = some l ∧ s.finished l = true ∧ doneOk l.done.toNat = true ∧ pieceIs (s0.vspan 0 1 true (s.ripe none) l.done.toNat 64) (devKey 0x40002000) = true ∧
      blocksStore (s.vMeets l.pid l.done.toNat (l.done.toNat + 64)) = false ∧ s.poison = [] ∧
      s.net = [] ∧ (let u := s0.putPieces [⟨0x8000002000, 64, devKey 0x40002000, none⟩] (List.replicate 64 1)
        spanHeld (u.vspan l.part l.pid true false (l.addr + 128) 24) = false ∧
        spanBad (u.vspan l.part l.pid true false (l.addr + 128) 24) = decide (a = 0x8040000000))) ∧
    (let l := { job 1 with levels := wide }; let s := (waiting l).setSlot w0 { placedThread with launch := 1 }; s.finished l = false) ∧
    (∀ v ∈ [(0 : Nat), 2 ^ 62 + 0xFFFF, 2 ^ 63 + 2047], v / 2 ^ 62 < 3) := by
  decide +kernel

/-! ### The gate, the device OS at a slot, and the fleet -/

/-- A state with another system. -/
def sysd (s : State) (f : Sys → Sys) : State := { s with sys := f s.sys }
/-- A slot parked at its gate with a pointer in g5 and its length in g6. -/
def gatedIn (s : State) (a n g4 : Nat) : State :=
  mine s (fun x => { ((x.setG 4 (BitVec.ofNat 64 g4)).setG 5 (BitVec.ofNat 64 a)).setG 6 (BitVec.ofNat 64 n) with
    park := .gate none, code := if g4 = 0 ∨ g4 = 1 then 16 else 17, mode := .super })
/-- The same in the tests' state. -/
def gated (a n g4 : Nat) : State := gatedIn mapped a n g4
/-- The pointer of such a call. -/
def inOut : PtrDecl := { reg := 5, lenReg := 6, isIn := true, isOut := true }
/-- A reply of the gate. -/
def answer (ps : List PtrDecl) : GateCall :=
  { take := false, declared := true, busy := false, refused := false, ptrs := ps, area := 0x8000000000, outs := [[1, 2]], result := 9, regs := [(5, 3)] }
/-- The keys and lengths of a span. -/
def pieces (r : Span) : List (Nat × Nat) := match r with | .ok ps => ps.map (fun p => (p.key, p.len)) | _ => []
/-- A pending shootdown of a page by n agents, its journal record not yet marked. -/
def shooting (n : Nat) : State := sysd mapped (fun y => { y with
  shoots := [{ all := false, pid := 1, lo := 0x8000000000, hi := 0x8040000000, acked := (List.range n) }],
  journal := [⟨.shoot false 1 0x8000000000 0x8040000000, false⟩] })
theorem witness_GateKillAndShootdown :
    (let s := mapped; s.coreRuns 0 = true ∧ s.sys.alive.getLsbD (mapGet s.sys.gatemap (dieOf 0) (dieOf 0)) = true) ∧
    (let s := sysd mapped (fun y => { y with alive := 0 }); s.coreRuns 0 = true ∧ s.sys.alive.getLsbD (mapGet s.sys.gatemap (dieOf 0) (dieOf 0)) = false ∧ s.sys.alive.getLsbD s.sys.leader = false) ∧
    (let s := mine mapped (fun x => { x with mode := .super, sup := { x.sup with cause := 12, tval := 0x123 } }); let x := s.slot w0;
      x.occ = true ∧ x.mode = .super ∧ x.park = .ready ∧ x.sup.cause = 12) ∧
    (∀ v ∈ [(0 : Nat), 1], let s := gated 0 0 v; let x := s.slot w0; x.park = .gate none ∧ x.code = 16 ∧ decide ((x.g 4) &&& ~~~(0x4380 : Word) = 0) = decide (v = 0)) ∧
    (let s := gated 0x4000 64 2; (s.slot w0).park = .gate none ∧ (s.slot w0).code ≠ 16) ∧
    (∀ since ∈ [none, some (0 : Nat)], ∀ m ∈ [false, true], let s := (gatedIn (if m then moved else mapped) 0x8000000000 64 2).setPark w0 (.gate since); let x := s.slot w0; let c := answer [inOut]
      let s0 : State := { s with cached := false }
      s.coreRuns 0 = true ∧ x.park = .gate since ∧ x.code ≠ 16 ∧ c.take = false ∧ c.busy = false ∧ c.declared = true ∧ c.refused = false ∧ s.sys.alive.getLsbD (mapGet s.sys.gatemap 0 0) = true ∧
      2 ^ 39 ≤ (x.pointer inOut).1 ∧ (x.pointer inOut).1 < 2 ^ 56 ∧ s0.unmapped x inOut = false ∧ s0.gateHold x c = if m then some (false, 0x8000000000) else none) ∧
    (let x := mapped.slot w0; x.atGate = false ∧ (answer []).take = false) ∧
    (∀ p ∈ [((0x4000 : Nat), (64 : Nat), false, false), (0x1BFFF, 1, false, false), (0x1BFFF, 2, true, false), (0x100000000000000, 1, true, false), (0x1000000000, 1, true, false),
        (0x100000000, 1, true, false), (0x8000000000, 64, false, false), (0x8040000000, 64, false, true)],
      let s := gated p.1 p.2.1 2; let x := s.slot w0; let q := x.pointer inOut; let s0 : State := { s with cached := false };
      decide (2 ^ 56 ≤ q.1 ∨ (q.1 < 2 ^ 39 ∧ (2 ^ 36 ≤ q.1 ∨ s.inPart x.part (homeOf q.1) = false ∨ 0x1C000 < offOf q.1 + q.2 ∨ 65536 < q.2))) = p.2.2.1 ∧
      (p.2.2.1 = false → s0.unmapped x inOut = p.2.2.2)) ∧
    (∀ n ∈ [(4 : Nat), 5], let s := gated 0x4000 64 2; ((List.replicate n inOut).filter (fun p => decide (((s.slot w0).pointer p).1 < 2 ^ 39))).length = n) ∧
    (let s := gated 0x4000 64 2; let c := answer [inOut]; c.take = false ∧ c.busy = false ∧ c.declared = true ∧ c.refused = false ∧ c.ptrs = [inOut] ∧ inOut.isOut = true ∧
      c.outs = [[1, 2]] ∧ ([1, 2] : List Byte).length ≤ ((s.slot w0).pointer inOut).2 ∧ (s.core (homeOf 0x4000)).objects = []) ∧
    (let c := answer [{ inOut with isOut := false }]; c.regs = [(5, 3)] ∧ ∀ p ∈ c.ptrs, p.isOut = false) ∧
    ((mapped.slot ⟨1, 0⟩).occ = false) ∧
    (∀ q ∈ [Park.ready, .lock 0x4000 7, .gate none], let s : State := { mine mapped (fun x => { x with locks := [0x5000], serving := some 0x6000, launch := 1, park := q }) with launches := [job 1] };
      let x := s.slot w0; s.sys.alive.getLsbD s.sys.leader = true ∧ x.occ = true ∧ (match x.park with | .migrating _ => false | _ => true) = true ∧
      x.locks = [0x5000] ∧ x.serving = some 0x6000 ∧ s.launch? x.launch = some (job 1)) ∧
    (let s := gated 0x4000 64 2; let x := s.slot w0; let c := answer [inOut]; let s0 : State := { s with cached := false };
      c.ptrs = [inOut] ∧ (x.pointer inOut).1 < 2 ^ 39 ∧ s0.unmapped x inOut = false ∧
      pieceIs (s0.vspan x.part x.pid true false c.area (x.pointer inOut).2) (devKey 0x40000000) = true ∧
      (∀ r ∈ [[(1 : Byte), 2]], pieces (s0.vspan x.part x.pid true false c.area r.length) = [(devKey 0x40000000, 2)])) ∧
    (let s := mapped; s.sys.journal = [] ∧ s.sys.alive.getLsbD s.sys.leader = true ∧ (s.slot w0).occ = true) ∧
    (let s := sysd mapped (fun y => { y with journal := [⟨.kill w0 mapped.me.thread, false⟩] });
      (∃ r ∈ s.sys.journal, r.change = .kill w0 (s.slot w0).thread ∧ r.marked = false) ∧ s.sys.alive.getLsbD s.sys.leader = true ∧ (s.slot w0).occ = true) ∧
    (∀ n ∈ [(31 : Nat), 32, 94, 95], let s := shooting n; let r : Range := { all := false, pid := 1, lo := 0x8000000000, hi := 0x8040000000 };
      (95 : Nat) < 96 ∧ s.sys.alive.getLsbD s.sys.leader = true ∧
      (∃ q ∈ s.sys.journal, q.change = .shoot false 1 0x8000000000 0x8040000000 ∧ q.marked = false) ∧
      (s.dropPages 95 r).inFlight 95 r = false ∧ (s.shoot r).acked.length = n ∧ 95 ∉ (s.shoot r).acked) ∧
    (let a := acc (.load false) 0x8000000000 8 (.edge (devKey 0x50000000) none); let s := flying (shooting 0) w0 5 (.access a);
      let r : Range := { all := false, pid := 1, lo := 0x8000000000, hi := 0x8040000000 };
      let k := s.stationOf 0x8000000000 0x50000000 false; k < 32 ∧ (s.dropPages k r).inFlight k r = true) := by
  decide +kernel

/-- Partition 0 in a state of its run. -/
def runIn (r : RunState) (f : Partition → Partition) : State := parted (sysd mapped (fun y => { y with meridian := 20000 })) (fun p => { f p with run := r })
/-- A placement of launch 1. -/
def placingOf : Placing := { launch := 1, first := 0, cores := 4096, prepared := true }
theorem witness_StopsAndResumes :
    (mapped.sys.alive.getLsbD mapped.sys.leader = true ∧ mapped.sys.journal = [] ∧ (sysd mapped (fun y => { y with alive := 0 })).sys.alive.getLsbD 0 = false) ∧
    (let s := sysd mapped (fun y => { y with journal := [⟨.eventide 0, false⟩] });
      (∃ r ∈ s.sys.journal, r.change = .eventide 0 ∧ r.marked = false) ∧ (s.part 0).valid = true ∧ (s.part 0).run = .running ∧ (s.part 0).placing = none) ∧
    (∀ g ∈ [(0 : Nat), 1], let l := { job 1 with levels := wide, gangs := g, held := [(0, 4096)] }; let s : State := { runIn .running (fun p => { p with placing := some placingOf }) with launches := [l] };
      (s.part 0).valid = true ∧ (s.part 0).run = .running ∧ (s.part 0).placing = some placingOf ∧ s.launch? placingOf.launch = some l) ∧
    (∀ t ∈ [(20000 : Nat), 20001], let s := runIn (.eventide t) id; (s.part 0).valid = true ∧ (s.part 0).run = .eventide t ∧
      s.atBoundary 0 = true ∧ decide (t ≤ s.sys.meridian) = decide (t = 20000)) ∧
    (let s := (runIn (.eventide 0) id).setCore 0 { Core.reset with pos := 1 }; s.atBoundary 0 = false) ∧
    (∀ r ∈ [RunState.stopped 9, .stopping 20000, .resuming 9 20000, .saved 9, .restoring 9 20000, .eventide 9], let s := runIn r id;
      (s.part 0).valid = true ∧ (s.part 0).run = r ∧ (s.part 0).run ≠ .running ∧ s.waitingUnits 0 = []) ∧
    (∀ t ∈ [(20000 : Nat), 20001], ∀ e ∈ [true, false], let s := runIn (.restoring 9 t) (fun p => { p with evWaiting := e }); (s.part 0).run = .restoring 9 t ∧ (s.part 0).evWaiting = e ∧
      (s.part 0).valid = true ∧ (s.part 0).placing = none ∧ decide (t ≤ s.sys.meridian) = decide (t = 20000)) ∧
    (∀ t ∈ [(20000 : Nat), 20001], ∀ x ∈ [none, some placingOf], let s := runIn (.stopping t) (fun p => { p with placing := x }); (s.part 0).run = .stopping t ∧ (s.part 0).placing = x ∧
      s.atBoundary 0 = true ∧ decide (t ≤ s.sys.meridian) = decide (t = 20000)) ∧
    (∀ w ∈ [StateWrite.general 4095 0 31 5, .scratch 0 0xFFFFC 5 62 false], let s := runIn (.stopped 9) id; s.partOf (writtenCore w) = some 0 ∧ (s.part 0).run = .stopped 9) ∧
    (∀ w ∈ [Poke.slot ⟨4095, 0⟩ Slot.reset, .tile 255 Tile.reset], let s := runIn (.stopped 9) id; s.partOf w.core = some 0 ∧ (s.part 0).run = .stopped 9) ∧
    (∀ t ∈ [(20000 : Nat), 20001], ∀ e ∈ [true, false], ∀ ws ∈ [([], []), ([StateWrite.general 4095 0 31 5], []), ([.scratch 65535 0xFFFFC 5 62 false], []), ([.scratch 65535 0xFFFFC 5 62 true], []),
        ([], [Poke.slot ⟨4095, 0⟩ Slot.reset]), ([], [.tile 255 Tile.reset])],
      let s := runIn (.resuming 9 t) (fun p => { p with writes := ws.1, pokes := ws.2, evWaiting := e }); (s.part 0).run = .resuming 9 t ∧ (s.part 0).writes = ws.1 ∧
      (s.part 0).pokes = ws.2 ∧ (s.part 0).evWaiting = e ∧ (s.part 0).valid = true ∧ (s.part 0).placing = none ∧ decide (t ≤ s.sys.meridian) = decide (t = 20000)) ∧
    (let s := runIn (.saved 9) id; (s.part 0).run = .saved 9 ∧ s.sys.alive.getLsbD s.sys.leader = true ∧ s.waitingUnits 0 = [] ∧
      (s.slots.map (fun e => e.1)).Nodup ∧ (∀ m ∈ s.net, s.netOf 0 m = true → m.underWay = false) ∧
      s.inPart 0 0 = true ∧ s.inPart 0 4095 = true ∧ s.inPart 0 4096 = false) ∧ (runIn (.saved 9) id).MemForm ∧
    ((65535 * 2 ^ 20 + 0xFFFFC) % 4 = 0 ∧ (65535 : Nat) < 65536 ∧ 0xFFFFC < 2 ^ 20 ∧ (31 : Nat) < 32) := by
  unfold State.MemForm
  decide +kernel

theorem witness_HostAndServicePairs :
    (mapped.sys.hostUp = true ∧ mapped.sys.fenced = false ∧ mapped.sys.hbArmed = false ∧ mapped.sys.alive.getLsbD mapped.sys.leader = true) ∧
    (∀ p ∈ [((1 : Nat), (0 : Nat)), (0, 1), (0, 2)], ∀ f ∈ [true, false], ∀ n ∈ [(999999 : Nat), 1000000],
      let y := (sysd mapped (fun y => { y with hbArmed := true, hbhost := BitVec.ofNat 64 p.1, hbMisses := p.2, fenced := f, meridian := n })).sys;
      y.hbArmed = true ∧ decide (y.hbhost ≠ y.hbSeen) = decide (p.1 = 1) ∧ y.fenced = f ∧ y.hbMisses = p.2 ∧ y.alive.getLsbD y.leader = true ∧
      decide (y.hbAt + 1000000 ≤ y.meridian) = decide (n = 1000000)) ∧
    (let s : State := { mapped with posted := [{ thread := mapped.me.thread, launch := 0, ea := 0x8000000000, key := hostKey 0x1000, old := [1, 2] }] };
      w0.slot < 8 ∧ (s.slot w0).occ = true ∧ (s.slot w0).thread = s.me.thread ∧ mapped.posted = []) ∧
    (let y := (sysd mapped (fun y => { y with fenced := true, epoch := 4 })).sys; y.fenced = true ∧ (4 : Word).toNat = y.epoch ∧ (5 : Word).toNat ≠ y.epoch) ∧
    (let y := (sysd mapped (fun y => { y with alive := 0 })).sys; y.alive = 0 ∧ y.alive.getLsbD y.leader = false) ∧
    (∀ v ∈ [(0 : Nat), 0x1000], let y := (sysd mapped (fun y => { y with hbmirror := BitVec.ofNat 64 v, meridian := 1000000 })).sys; y.alive ≠ 0 ∧ y.hbdevAt + 1000000 ≤ y.meridian ∧ y.fenced = false ∧ decide (y.hbmirror = 0) = decide (v = 0)) ∧
    (∀ n ∈ [(2999999 : Nat), 3000000], ∀ j ∈ [[], [Record.mk (.memory 0x4000 [1]) false]], let s := sysd (gated 0 0 2) (fun y => { y with alive := 2, meridian := n, journal := j, annvec := 0x8005, msixOn := [5] }); let y := s.sys;
      decide (y.stamp + 3000000 ≤ y.meridian) = decide (n = 3000000) ∧ (1 : Nat) < 8 ∧ y.alive.getLsbD 1 = true ∧ (∀ j, j < 1 → y.alive.getLsbD j = false) ∧
      y.alive.getLsbD y.leader = false ∧ y.annvec.getLsbD 15 = true ∧ y.annvec.toNat % 2 ^ 11 ∈ y.msixOn ∧
      (∀ r ∈ y.journal, r.marked = true ∨ ∃ p ∈ [((0x4000 : Nat), [(1 : Byte)])], r.change = .memory p.1 p.2) ∧ (s.slot w0).occ = true ∧ (s.slot w0).atGate = true ∧ dieOf w0.core < 8 ∧ mapGet y.gatemap (dieOf w0.core) (dieOf w0.core) = y.leader ∧
      (∀ u ∈ y.mapout, (match u with | .channel _ => true | _ => false) = true)) ∧
    (let s := sysd (gated 0 0 2) (fun y => { y with alive := 0xFE, leader := 1 }); s.sys.alive.getLsbD s.sys.leader = true ∧ s.sys.alive.getLsbD (mapGet s.sys.gatemap 0 0) = false ∧
      s.sys.alive.getLsbD 1 = true ∧ (∀ j, j < 1 → s.sys.alive.getLsbD j = true → j = 0) ∧ s.sys.alive.getLsbD (mapGet s.sys.gatemap 7 7) = true) ∧
    (let m := mapped.remnantEnd; mapped.deviceHas (m - 1) = true ∧ mapped.deviceHas m = false) ∧
    (∀ m ∈ [true, false], let S := (sysd mapped (fun y => { y with journal := [⟨.memory 0x4000 [1], m⟩] })).sys;
      decide (∃ r ∈ S.journal, r.change = .memory 0x4000 [1] ∧ r.marked = false) = !m) ∧
    (3 ∉ mapped.sys.dead ∧ 3 ∈ (sysd mapped (fun y => { y with dead := [3] })).sys.dead) ∧
    (∀ v ∈ [(0 : Nat), 0xFF], let d := BitVec.ofNat 8 v &&& 0xFE; (List.range 8).all (fun k => !d.getLsbD k) = decide (v = 0)) ∧
    ((sysd mapped (fun y => { y with hostUp := false })).sys.hostUp = false) ∧
    (∀ bad ∈ [true, false], let a := mapped.interleaveEnd - 8; let s := if bad then mapped.setPoison (devKey a) true else mapped;
      a + 8 ≤ s.interleaveEnd ∧ s.hostWaits (devKey a) 8 false = false ∧ s.hostWaits (devKey a) 8 true = false ∧ s.anyPoison (devKey a) 8 = bad ∧ (bad = false → s.poison = [])) ∧
    (let s : State := { mapped with ranges := [{ id := 5, table := .stations 1 [], lo := 0x8000000000, hi := 0x8000000040, write := false, owner := .job 0 1 }] };
      s.hostWaits (devKey 0x40000000) 8 true = true ∧ s.hostWaits (devKey 0x40000000) 8 false = false) ∧
    (let s := mapped.setPoison (devKey 0x50000000) true; 0x50000000 + 8 ≤ s.interleaveEnd ∧ s.hostWaits (devKey 0x50000000) 8 true = false ∧ s.partlyPoisoned (devKey 0x50000000) 8 = true ∧
      s.partlyPoisoned (devKey 0x50000000) 64 = false) := by
  decide +kernel
theorem witness_HostAndServicePairs_hears : (∀ c, (sysd (gated 0 0 2) (fun y => { y with alive := 2 })).hears c = true) ∧
    ∀ c, (sysd (gated 0 0 2) (fun y => { y with alive := 0xFE, leader := 1 })).hears c = true :=
  ⟨all_hear _ (by decide +kernel) (by decide +kernel), all_hear _ (by decide +kernel) (by decide +kernel)⟩

/-- Partition 1 with super-group 1 and large core 1. -/
def second : State := mapped.setPart 1 { Partition.reset with valid := true, sgs := 2, pid := 2, largeMask := 2 }
theorem witness_FleetHealth :
    (∀ o ∈ [(0 : Nat), 131071], o < 131072 ∧ mapped.poisoned o = false ∧ mapped.partOf 0 = some 0 ∧ (mapped.setPoison o true).poisoned o = true) ∧
    (∀ n ∈ [(2 : Nat), 3], let s := sysd mapped (fun y => { y with meridian := 86399999999999, scrubs := [(0, List.replicate n 0)] });
      ((mapGet s.sys.scrubs [] 0).filter (fun t => decide (s.sys.meridian < t + 86400 * 1000000000))).length = n ∧ 0 / 16 ∉ s.sys.spareCores ∧ s.launches = []) ∧
    (mapped.sys.hostUp = true ∧ mapped.sys.alive.getLsbD mapped.sys.leader = true ∧ mapped.sys.journal = [] ∧ (mapped.part 0).sgs = 1) ∧
    (∀ v ∈ [(0x1000100000001 : Nat), 0x1000100000000], let s := sysd mapped (fun y => { y with journal := [⟨.entry 0 (BitVec.ofNat 64 v), false⟩] });
      (∃ r ∈ s.sys.journal, r.change = .entry 0 (BitVec.ofNat 64 v) ∧ r.marked = false) ∧ BitVec.ofNat 16 (v / 2 ^ 48) = (s.part 0).sgs ∧ s.launches = [] ∧
      (s.part 0).valid = true ∧ (v % 2 = 0 → (s.slot w0).occ = true ∧ (s.slot w0).part = 0)) ∧
    (∀ q ∈ [(1 : Nat), 2], (sysd mapped (fun y => { y with qstate := q })).sys.qstate = q) ∧
    (mapped.deviceHas 0x4000 = true ∧ 0x4000 < 2 ^ 60 ∧ mapped.poisoned (0x4000 + 2 ^ 60) = false) ∧
    (0 < 65536 ∧ 65535 < 65536 ∧ ∀ u ∈ [FailedUnit.core 0, .tile 0, .channel 0, .spareCore 0, .spareTile 0], u ∉ mapped.sys.mapout) ∧
    (let y := (sysd mapped (fun y => { y with alive := 0 })).sys; 0 / 16 ∉ y.spareCores ∧ .core 0 ∉ y.mapout ∧ .tile (0 / 16) ∉ y.mapout ∧ y.alive.getLsbD y.leader = false) ∧
    (∀ u ∈ [FailedUnit.core 0, .tile 0, .spareCore 0], let y := (sysd mapped (fun y => { y with mapout := [u] })).sys; 0 / 16 ∉ y.spareCores ∧ u ∈ y.mapout) ∧
    (0 ∈ (sysd mapped (fun y => { y with spareCores := [0] })).sys.spareCores ∧ 0 ∉ mapped.sys.spareCores ∧ 0 ∉ mapped.sys.spareTiles ∧ mapped.sys.alive.getLsbD mapped.sys.leader = true) ∧
    (∀ f ∈ [(1 : Nat), 16], let s : State := { mapped with launches := [{ job 1 with held := [(0, 1), (16, 1)] }] };
      ∀ l ∈ s.launches, ∀ h ∈ l.held, h.1 + h.2 ≤ 1 ∨ f ≤ h.1) ∧
    (16 / 16 ∉ mapped.sys.spareCores ∧ mapped.launches = [] ∧ isLarge 16 = false ∧ 16 / 256 ∉ mapped.sys.spareTiles ∧ 16 / 256 ∈ (sysd mapped (fun y => { y with spareTiles := [0] })).sys.spareTiles) ∧
    (∀ p ∈ [((0 : Nat), true, false), (1, true, false), (3, true, true), (0, false, true)],
      -- the super-groups written; whether a launch holds super-group 0; whether the write is refused
      let s : State := { second with launches := if p.2.1 && p.1 % 2 = 0 then [] else [{ job 1 with held := [(4095, 1)] }] };
      let sgs := BitVec.ofNat 16 p.1
      (List.range 16).any (fun k => ((s.part 0).sgs.getLsbD k && !sgs.getLsbD k && s.launches.any (fun l => l.held.any (fun h => decide (4096 * k < h.1 + h.2 ∧ h.1 < 4096 * k + 4096)))) ||
        (sgs.getLsbD k && !(s.part 0).sgs.getLsbD k && (!s.sys.sgmask.getLsbD k || ((List.range 16).filter (fun q => q != 0)).any (fun q => (s.part q).sgs.getLsbD k)))) = p.2.2) ∧
    (∀ v ∈ [(0 : Nat), 1, 2], let s := (parted second (fun p => { p with largeMask := 1 })).setSlot ⟨65536, 0⟩ placedThread; let v := BitVec.ofNat 64 v;
      (List.range 64).any (fun n => ((List.range 16).filter (fun q => q != 0)).any (fun q => v.getLsbD n && (s.part q).largeMask.getLsbD n) ||
        ((s.part 0).largeMask.getLsbD n && !v.getLsbD n && s.largeBusy 0 n)) = decide (v ≠ 1)) ∧
    (let s := parted second (fun p => { p with largeMask := 1 }); (s.part 0).largeMask = 1 ∧ s.sys.hostUp = true ∧ s.sys.alive.getLsbD s.sys.leader = true ∧ s.sys.journal = [] ∧
      (∃ r ∈ (sysd s (fun y => { y with journal := [⟨.mask 0 1, false⟩] })).sys.journal, r.change = .mask 0 1 ∧ r.marked = false) ∧
      (sysd s (fun y => { y with alive := 0 })).sys.alive.getLsbD 0 = false) ∧
    (∀ i ∈ [(0 : Nat), 3, 29, 31], i < 32 ∧ i % 4 ≠ 2) ∧ (2 < 32 ∧ 2 % 4 = 2 ∧ 30 < 32 ∧ 30 % 4 = 2) ∧
    (∀ i ∈ [(0 : Nat), 2], ∀ p ∈ [((104 : Nat), true), (105, false)], decide ((1 : Nat) < (mapGet mapped.sys.islands (Island.reset i) i).powerCap ∧ p.1 < 105) = p.2) ∧
    (∀ t ∈ [(99 : Nat), 100, 109, 110], ∀ f ∈ [(8 : Nat), 9], let z := mapGet (sysd mapped (fun y => { y with islands := [(0, { Island.reset 0 with freq := f })] })).sys.islands (Island.reset 0) 0;
      (0 : Nat) < 16 ∧ decide (t < 100) = decide (t = 99) ∧ decide (t < 110) = decide (t ≠ 110) ∧ z.freq = f ∧ z.hotSince = none) ∧
    (∀ p ∈ [((9999 : Nat), (0 : Nat), (104 : Nat)), (10000, 0, 104), (10000, 0, 105), (10000, 4200, 0), (10000, 4201, 0)],
      let s := sysd mapped (fun y => { y with meridian := p.1 }); let x := mapGet s.sys.islands (Island.reset 0) 0
      let total := ((List.range 32).map (fun j => if j = 0 then p.2.1 else (mapGet s.sys.islands (Island.reset j) j).power)).sum;
      decide (x.lastStep + 10000 ≤ s.sys.meridian) = decide (p.1 = 10000) ∧ decide (4200 < total) = decide (p.2.1 = 4201) ∧
      decide (x.powerCap < p.2.1 ∨ 105 ≤ p.2.2) = decide (p.2.2 = 105)) ∧
    (∀ p ∈ [((16 : Nat), (1000000 : Nat)), (17, 1000000), (16, 999999)], let s := sysd mapped (fun y => { y with meridian := p.2, islands := [(0, { Island.reset 0 with freq := p.1 })] });
      let x := mapGet s.sys.islands (Island.reset 0) 0; decide (x.coolSince + 1000000 ≤ s.sys.meridian ∧ x.lastStep + 1000000 ≤ s.sys.meridian ∧ x.freq < x.cap) = decide (p = (16, 1000000))) ∧
    (∀ h ∈ [none, some (0 : Nat)], let s := sysd mapped (fun y => { y with meridian := 100000000, islands := [(29, { Island.reset 29 with freq := 8, hotSince := h })] });
      let z := mapGet s.sys.islands (Island.reset (15 / 2 * 4 + 15 % 2)) (15 / 2 * 4 + 15 % 2); (15 : Nat) < 16 ∧ z.freq ≤ 8 ∧ z.hotSince = h ∧ 0 + 100000000 ≤ s.sys.meridian ∧ 15 ∉ s.sys.withheld) ∧
    (∀ m ∈ [(999999 : Nat), 1000000], ∀ n ∈ [(15 : Nat), 16], let y := (sysd mapped (fun y => { y with tmbase := 0x1000, tmtail := n, meridian := m })).sys; y.alive.getLsbD y.leader = true ∧ y.tmbase ≠ 0 ∧ y.fenced = false ∧
      decide (y.tmAt + 1000000 ≤ y.meridian) = decide (m = 1000000) ∧ decide (y.tmtail - y.tmhead < y.tmsize) = decide (n = 15)) ∧
    (4095 < 4096 ∧ (15 : Nat) < 16 ∧ (23 : Nat) < 24 ∧ 65535 < 65536) ∧
    (mapped.sys.tmbase = 0 ∧ mapped.sys.qstate ≠ 1 ∧ (sysd mapped (fun y => { y with qstate := 1 })).sys.qstate = 1 ∧ (sysd mapped (fun y => { y with alive := 0 })).sys.alive.getLsbD 0 = false) ∧
    (∀ v ∈ [(1 : Nat), 1000000], 1 ≤ (BitVec.ofNat 64 v).toNat ∧ (BitVec.ofNat 64 v).toNat ≤ 1000000) ∧ 1000000 < (BitVec.ofNat 64 1000001).toNat := by
  decide +kernel

/-! ### The machine -/

/-- A state whose next cycle issues a word. -/
def wordAt (w : Nat) : State := State.reset.withFetchWord 32 w
/-- A state of a cycle of core 0 that issues nothing, since its slot waits, or stops at once. -/
def idle (r : RunState) : State := parted ((wordAt 0).setSlot w0 { placedThread with park := .member }) (fun p => { p with run := r })
/-- A thread that waits for the result in g5, which came well or with a cause. -/
def owing (f : Option (Cause × Word)) : State := (wordAt 0x08A00007).setSlot w0 { placedThread with relaxed := [⟨7, .general 5, f⟩] }

theorem witness_fetches (n : Nat) (h : n = 0x08A00007 ∨ n = 0) :
    let t := (wordAt n).issuing 0 0 false
    t.FetchesWord w0 n := by
  obtain rfl | rfl := h <;> exact ⟨by decide +kernel, by decide +kernel, by decide +kernel,
    ⟨devKey 0x40000000, none, by decide +kernel, by decide +kernel, by decide +kernel, by decide +kernel⟩, by decide +kernel⟩

theorem witness_fetches_owing (f : Option (Cause × Word)) (h : f = none ∨ f = some (.page, 0x8000000000)) :
    let t := (owing f).issuing 0 0 false
    t.FetchesWord w0 0x08A00007 := by
  obtain rfl | rfl := h <;> exact ⟨by decide +kernel, by decide +kernel, by decide +kernel,
    ⟨devKey 0x40000000, none, by decide +kernel, by decide +kernel, by decide +kernel, by decide +kernel⟩, by decide +kernel⟩

theorem witness_StepRunsDecoded :
    (∀ s : State, s.agenda = [] → s.NextCycle s s.focus false) ∧
    (∀ s : State, ({ s with agenda := [.cycle 3 true] } : State).NextCycle { s with agenda := [] } 3 true) ∧
    (let s : State := { State.reset with agenda := [.peer 0 1 0] }; s.agenda = [.peer 0 1 0] ∧ (∀ c b, Sched.peer 0 1 0 ≠ .cycle c b) ∧ ∀ j b, Sched.peer 0 1 0 ≠ .event j b) ∧
    ((wordAt 0).agenda = [] ∧ (wordAt 0).focus = 0 ∧ (idle (.stopped 0)).agenda = [] ∧ (idle .running).focus = 0) ∧
    ((idle (.stopped 0)).coreRuns 0 = false ∧ (idle .running).coreRuns 0 = true ∧ ((idle .running).frameStart 0).pickSlot 0 = none) ∧
    (let s := (wordAt 0).setSlot w0 { placedThread with pend := some ⟨.trap, 5, none⟩ }; let t := s.issuing 0 0 false; s.coreRuns 0 = true ∧ (s.frameStart 0).pickSlot 0 = some 0 ∧ (t.slot w0).pend.isSome = true) ∧
    (let s := wordAt 0x08A00007; let u := (s.issuing 0 0 false).fetched w0; s.coreRuns 0 = true ∧ (s.frameStart 0).pickSlot 0 = some 0 ∧
      decodeWord 0x08A00007 = .ok (.addi 5 0 7) ∧ (u.slot w0).hazard (.addi 5 0 7) = none) ∧
    (let s := owing none; let u := (s.issuing 0 0 false).fetched w0; s.coreRuns 0 = true ∧ (s.frameStart 0).pickSlot 0 = some 0 ∧
      (u.slot w0).hazard (.addi 5 0 7) = some ⟨7, .general 5, none⟩) ∧
    (let s := wordAt 0; s.coreRuns 0 = true ∧ (s.frameStart 0).pickSlot 0 = some 0 ∧ (match decodeWord 0 with | .error _ => true | .ok _ => false) = true) ∧
    (isLarge 65535 = false ∧ (Core.reset.live.toList.getD (31 % 32) 0).toNat = 7) ∧
    ((Instr.hbdevTick).encoded = false ∧ (Instr.addi 5 0 7).encoded = true) := by
  refine ⟨fun s h => .inr ⟨h, rfl, rfl, rfl⟩, fun s => .inl ⟨[], rfl, rfl⟩,
    ⟨rfl, fun _ _ h => Sched.noConfusion h, fun _ _ h => Sched.noConfusion h⟩, ?_⟩
  decide +kernel

theorem witness_DecodeEncode :
    ((Instr.addi 31 31 0xFFFF).encoded = true ∧ (Instr.addi 31 31 0xFFFF).wf = true) ∧ (0xD0850000 < 2 ^ 32 ∧ decodeWord 0xD0850000 = .ok (.launch 4 5)) := by
  decide +kernel

/-- A step that does not end the run gives a state. -/
theorem steps_on (s : State) (h : s.stops = false) : ∃ t, step s = .next t := by
  unfold State.stops at h
  split at h
  · exact ⟨_, ‹_›⟩
  · cases h
  · cases h

theorem witness_MemFormKept : (wordAt 0x08A00007).MemForm ∧ ∃ t, step (wordAt 0x08A00007) = .next t :=
  ⟨by unfold State.MemForm; decide +kernel, steps_on _ (by decide +kernel)⟩

theorem witness_PipesKept : State.reset.PipesOk ∧ ∃ t, step State.reset = .next t :=
  ⟨⟨by decide +kernel, by decide +kernel⟩, steps_on _ (by decide +kernel)⟩

theorem witness_UserModeConfined : let s := ready (thread [(6, 1)])
    (Instr.addi 5 6 7).encoded = true ∧ s.me.mode = .user ∧ ∃ t, exec (.addi 5 6 7) s = .next t :=
  ⟨by decide +kernel, by decide +kernel, _, rfl⟩

end Sys2Proof.Tests
end

section
/-! PROOFS.  O58: memory, side tags and poison marks in canonical form (log entry 2).

One lemma for each function of the model that makes a state, in the model's order and under the names of its files:
`h.foo : (s.foo ..).MemForm` from `h : s.MemForm`.  Only the writes of memory at the bottom touch the three maps (by
`mapSet`, by a filter, or by a daybreak's reset); every function above them keeps the form because its parts do, and
`exec_memForm` and `step_memForm` are the last of them. -/

namespace Sys2Proof.Machine

/-- An outcome's state, where it has one, is in form. -/
def Out.MemForm : Out → Prop
  | .next t => t.MemForm
  | _ => True

theorem State.MemForm.ite {c : Prop} [Decidable c] {a b : State} (ha : a.MemForm) (hb : b.MemForm) :
    (if c then a else b).MemForm :=
  iteInduction (fun _ => ha) fun _ => hb

theorem State.MemForm.iteFst {β : Type} {c : Prop} [Decidable c] {a b : State × β} (ha : a.1.MemForm)
    (hb : b.1.MemForm) : (if c then a else b).1.MemForm :=
  iteInduction (motive := fun x : State × β => x.1.MemForm) (fun _ => ha) fun _ => hb

theorem Out.MemForm.next {t : State} (h : t.MemForm) : Out.MemForm (.next t) := h

theorem Out.MemForm.ite {c : Prop} [Decidable c] {a b : Out} (ha : a.MemForm) (hb : b.MemForm) :
    Out.MemForm (if c then a else b) := iteInduction (fun _ => ha) fun _ => hb

/-- `State.MemForm.foldl` with the state first, so that it can be chained. -/
theorem State.MemForm.fold {α : Type} {f : State → α → State} {l : List α} {s : State} (h : s.MemForm)
    (hf : ∀ t a, t.MemForm → (f t a).MemForm) : (l.foldl f s).MemForm :=
  State.MemForm.foldl hf l h

/-! ### Sys2Proof/Machine/Ops.lean -/

theorem State.MemForm.setMe {s : State} {x : Slot} (h : s.MemForm) : (s.setMe x).MemForm := h.setSlot _ _

theorem State.MemForm.setG {s : State} {r : BitVec 5} {v : Word} (h : s.MemForm) : (s.setG r v).MemForm := h.setMe

theorem State.MemForm.setGn {s : State} {n : Nat} {v : Word} (h : s.MemForm) : (s.setGn n v).MemForm := h.setG

theorem State.MemForm.advance {s : State} (h : s.MemForm) : s.advance.MemForm := h.setMe

theorem State.MemForm.jump {s : State} {t : Word} (h : s.MemForm) : (s.jump t).MemForm := h.setMe

theorem State.MemForm.result {s : State} {r : BitVec 5} {v : Word} (h : s.MemForm) : (s.result r v).MemForm := h.setMe

theorem State.MemForm.drop {s : State} {id : Nat} (h : s.MemForm) : (s.drop id).MemForm := h

theorem State.MemForm.rebody {s : State} {id : Nat} {b : Body} (h : s.MemForm) : (s.rebody id b).MemForm := h

theorem State.MemForm.setPark {s : State} {w : Who} {p : Park} (h : s.MemForm) : (s.setPark w p).MemForm :=
  h.setSlot _ _

theorem State.MemForm.parkOn {s : State} {c : Cond} (h : s.MemForm) : (s.parkOn c).MemForm := by
  unfold State.parkOn
  split
  · exact h.setMe
  · exact .setMe h

theorem State.MemForm.countSent {s : State} {c launch : Nat} (h : s.MemForm) : (s.countSent c launch).MemForm :=
  h.setCore _ _

theorem State.MemForm.countReceived {s : State} {c launch : Nat} (h : s.MemForm) :
    (s.countReceived c launch).MemForm :=
  h.setCore _ _

theorem State.MemForm.markPoison {s : State} {k : Nat} (h : s.MemForm) : (s.markPoison k).MemForm :=
  .ite h ((h.setPoison _ _).count _ _)

theorem State.MemForm.msix {s : State} {v : Nat} (h : s.MemForm) : (s.msix v).MemForm :=
  .ite (h.setSys _) (.ite h (h.setSys _))

theorem State.MemForm.postAll {s : State} {r : FaultRec} (h : s.MemForm) : (s.postAll r).MemForm :=
  h.fold fun _ _ h => h.post _ _ _

theorem State.MemForm.handClaim {s : State} {tile : Nat} (h : s.MemForm) : (s.handClaim tile).MemForm := by
  unfold State.handClaim
  refine .ite h ?_
  split
  · exact h.setTile _ _
  · exact h

theorem State.MemForm.dropClaim {s : State} {tile : Nat} (h : s.MemForm) : (s.dropClaim tile).MemForm :=
  (h.setTile _ _).handClaim

theorem State.MemForm.unclaim {s : State} {w : Who} (h : s.MemForm) : (s.unclaim w).MemForm :=
  .ite h (.ite h.dropClaim h)

theorem State.MemForm.leaveGang {s : State} {w : Who} (h : s.MemForm) : (s.leaveGang w).MemForm :=
  .ite h (.ite (h.setTile _ _) h)

theorem State.MemForm.departOwner {s : State} {w : Who} (h : s.MemForm) : (s.departOwner w).MemForm := by
  unfold State.departOwner
  split
  · exact (h.setSlot _ _).send _ _ _
  · exact h

theorem State.MemForm.freeSlot {s : State} {w : Who} (h : s.MemForm) : (s.freeSlot w).MemForm := h.setSlot _ _

theorem State.MemForm.abandon {s : State} {w : Who} (h : s.MemForm) : (s.abandon w).MemForm := by
  unfold State.abandon
  split
  · exact h.send _ _ _
  · exact h

theorem State.MemForm.endThread {s : State} {w : Who} (h : s.MemForm) : (s.endThread w).MemForm := by
  unfold State.endThread
  refine .freeSlot ?_
  split
  · exact h.departOwner.abandon.unclaim.leaveGang.setCore _ _
  · exact h.departOwner.abandon.unclaim.leaveGang

theorem State.MemForm.kill {s : State} {w : Who} (h : s.MemForm) : (s.kill w).MemForm := by
  unfold State.kill
  extract_lets x s1 s2 s3 y s4
  have h1 : s1.MemForm := h.fold fun _ _ h => h.send _ _ _
  have h2 : s2.MemForm := by
    unfold s2
    split
    · exact h1.drop
    · refine .send ?_ _ _ _
      exact h1
    · exact h1
  exact .ite h ((h2.updLaunch _ _).setSys _).endThread

theorem State.MemForm.enterTrap {s : State} {w : Who} {c : Cause} {value : Word} (h : s.MemForm) :
    (s.enterTrap w c value).MemForm :=
  .ite (h.setSlot _ _) (.ite (.ite (h.kill.post _ _ _) (h.setSlot _ _)) (h.setSlot _ _))

theorem State.MemForm.trapNow {s : State} {w : Who} {p : Pending} (h : s.MemForm) : (s.trapNow w p).MemForm := by
  unfold State.trapNow
  split <;> exact (h.setSlot _ _).enterTrap

theorem State.MemForm.trapWith {s : State} {w : Who} {p : Pending} (h : s.MemForm) : (s.trapWith w p).MemForm :=
  .ite h.trapNow (h.setSlot _ _)

theorem State.MemForm.trapAt {s : State} {w : Who} {c : Cause} {value : Word} (h : s.MemForm) :
    (s.trapAt w c value).MemForm :=
  h.trapWith

theorem State.MemForm.raise {s : State} {c : Cause} {value : Word} (h : s.MemForm) : (s.raise c value).MemForm :=
  h.trapAt

theorem State.MemForm.returnTrap {s : State} (h : s.MemForm) : s.returnTrap.MemForm := by
  unfold State.returnTrap
  dsimp only
  split <;> exact .ite h.setMe h.raise

theorem State.MemForm.waitRelaxed {s : State} {k : State → State} (h : s.MemForm)
    (hk : ∀ t, t.MemForm → (k t).MemForm) : (s.waitRelaxed k).MemForm := by
  unfold State.waitRelaxed
  refine .ite h.parkOn ?_
  split
  · exact h.setMe.enterTrap
  · exact hk _ h

theorem State.MemForm.waitAcks {s : State} {k : State → State} (h : s.MemForm) (hk : ∀ t, t.MemForm → (k t).MemForm) :
    (s.waitAcks k).MemForm := by
  unfold State.waitAcks
  refine .ite h.parkOn ?_
  split
  · split
    · exact h.setMe.trapAt
    · exact hk _ h
  · exact hk _ h

theorem State.MemForm.waitBoth {s : State} {k : State → State} (h : s.MemForm) (hk : ∀ t, t.MemForm → (k t).MemForm) :
    (s.waitBoth k).MemForm :=
  h.waitRelaxed fun _ h => h.waitAcks fun _ h => hk _ h

theorem State.MemForm.smallOnly {s : State} {i : Instr} {k : State → State} (h : s.MemForm)
    (hk : ∀ t, t.MemForm → (k t).MemForm) : (s.smallOnly i k).MemForm :=
  .ite h.raise (hk _ h)

/-! ### Sys2Proof/Machine/Flags.lean -/

theorem State.MemForm.finishFp {s : State} {fmt step : Nat} {es checked : List Elem} {write : Slot → Slot}
    (h : s.MemForm) : (s.finishFp fmt step es checked write).MemForm := by
  unfold State.finishFp
  refine .ite h.setMe.raise ?_
  split
  · exact h.setMe.trapWith
  · exact h.setMe

/-! ### Sys2Proof/Machine/Translate.lean -/

theorem State.MemForm.keepLeaf {s : State} {pid : BitVec 16} {va bits e : Nat} (h : s.MemForm) :
    (s.keepLeaf pid va bits e).MemForm :=
  h

theorem State.MemForm.keepWalk {s : State} {part : Nat} {pid : BitVec 16} {va : Nat} (h : s.MemForm) :
    (s.keepWalk part pid va).MemForm := by
  unfold State.keepWalk
  split
  · exact h.keepLeaf
  · exact h

theorem State.MemForm.askMigration {s : State} {part : Nat} {pid : BitVec 16} {w : Who} {launch va : Nat}
    (h : s.MemForm) : (s.askMigration part pid w launch va).MemForm :=
  h.post _ _ _

/-! ### Sys2Proof/Machine/Ranges.lean -/

theorem State.MemForm.register {s : State} {own : RangeOwner} {part : Nat} {pid : BitVec 16} {qs : List RangeReq}
    (h : s.MemForm) : (s.register own part pid qs).MemForm :=
  h

theorem State.MemForm.unregister {s : State} {own : RangeOwner → Bool} (h : s.MemForm) : (s.unregister own).MemForm :=
  h

theorem State.MemForm.reown {s : State} {f : RangeOwner → RangeOwner} (h : s.MemForm) : (s.reown f).MemForm := h

/-! ### Sys2Proof/Machine/Objects.lean -/

theorem State.MemForm.setDesc {s : State} {a d : Nat} (h : s.MemForm) : (s.setDesc a d).MemForm := h.storeSpad _ _

theorem State.MemForm.setObj {s : State} {a : Nat} {o : Obj} (h : s.MemForm) : (s.setObj a o).MemForm := h.setCore _ _

theorem State.MemForm.dropObj {s : State} {a : Nat} (h : s.MemForm) : (s.dropObj a).MemForm := h.setCore _ _

theorem State.MemForm.setRedCell {s : State} {d c : Nat} (h : s.MemForm) : (s.setRedCell d c).MemForm :=
  .ite h (h.storeSpad _ _)

theorem State.MemForm.syncInit {s t : State} {a img : Nat} (h : s.MemForm) (e : s.syncInit a img = some t) :
    t.MemForm := by
  unfold State.syncInit at e
  (repeat' split at e) <;> cases e
  exact h.setDesc.setRedCell.setObj

theorem State.MemForm.setCountWord {s : State} {core off w : Nat} (h : s.MemForm) :
    (s.setCountWord core off w).MemForm :=
  .ite h (h.storeSpad _ _)

theorem State.MemForm.placeTask {s : State} {core off launch : Nat} (h : s.MemForm) :
    (s.placeTask core off launch).MemForm := by
  unfold State.placeTask
  refine .setCore (.setCountWord ?_) _ _
  split
  · exact h.setCountWord
  · exact h

theorem State.MemForm.taskInit {s t : State} {a : Nat} {count : Word} {launch : Nat} (h : s.MemForm)
    (e : s.taskInit a count launch = some t) : t.MemForm := by
  unfold State.taskInit at e
  dsimp only at e
  split at e <;> cases e
  exact .ite h.setCountWord.placeTask h.setCountWord

/-! ### Sys2Proof/Machine/Serve.lean -/

theorem State.MemForm.noteHeads {s : State} {k n : Nat} (h : s.MemForm) : (s.noteHeads k n).MemForm := h

theorem State.MemForm.put {s : State} {k : Nat} {bs : List Byte} (h : s.MemForm) : (s.put k bs).MemForm :=
  .ite (h.storeSpad _ _).noteHeads (h.setBytes _ _)

theorem State.MemForm.clearPoison {s : State} {k n : Nat} (h : s.MemForm) : (s.clearPoison k n).MemForm :=
  .ite (h.clearWhole _ _) (.ite h (h.fold fun _ _ h => .ite (h.setPoison _ _) h))

theorem State.MemForm.store {s : State} {k : Nat} {bs : List Byte} (h : s.MemForm) : (s.store k bs).MemForm :=
  h.put.clearPoison

theorem State.MemForm.rawPerform {s : State} {k : Nat} {a : Access} {stored : Nat → Option Tag} (h : s.MemForm) :
    (s.rawPerform k a stored).1.MemForm := by
  unfold State.rawPerform
  cases a.op with
  | store | vstore | xcclr | launchZero => exact h.store
  | atomic =>
    dsimp only
    split
    · exact h.put
    · exact h
  | reduce | xcadd => exact h.put
  | _ => exact h

theorem State.MemForm.setLaneTags {s : State} {k : Nat} {ts : List Tag} (h : s.MemForm) :
    (s.setLaneTags k ts).MemForm :=
  h.fold fun _ _ h => h.setSideTag _ _

theorem State.MemForm.bankPerform {s : State} {a : Access} (h : s.MemForm) : (s.bankPerform a).1.MemForm := by
  unfold State.bankPerform
  extract_lets core w k plain tagged i cnt ws enc
  have henc : ∀ ls, (enc ls).1.MemForm := fun _ => .iteFst h h.store
  split
  · exact h.rawPerform
  split
  · split
    · exact h.rawPerform.setLaneTags
    · exact h.rawPerform
  split
  · exact henc _
  · exact henc _
  · exact h
  · exact h

theorem State.MemForm.serveBank {s : State} {src : Who} {a : Access} (h : s.MemForm) :
    (s.serveBank src a).1.MemForm := by
  unfold State.serveBank
  dsimp only
  split
  · split
    · exact .iteFst h (h.syncInit ‹_›)
    · exact h
  · split <;> exact h
  · split
    · exact .iteFst h (h.taskInit ‹_›)
    · exact h
  · exact .iteFst h (.iteFst h (.iteFst h h.bankPerform))

theorem State.MemForm.setLine {s : State} {core : Nat} {l : Line} (h : s.MemForm) : (s.setLine core l).MemForm :=
  h.setCore _ _

theorem State.MemForm.refreshLine {s : State} {src : Who} {a : Access} {key : Nat} {shadow : Option Nat}
    (h : s.MemForm) : (s.refreshLine src a key shadow).MemForm := by
  unfold State.refreshLine
  refine .ite h (.ite ?_ (.ite h h.setLine))
  split
  · exact h.setLine
  · exact h

theorem State.MemForm.retagLine {s : State} {src : Who} {a : Access} {shadow : Nat} (h : s.MemForm) :
    (s.retagLine src a shadow).MemForm := by
  unfold State.retagLine
  split
  · exact .ite h.setLine h
  · exact h

theorem State.MemForm.postWrite {s : State} {src : Who} {a : Access} {key : Nat} (h : s.MemForm) :
    (s.postWrite src a key).MemForm :=
  .ite h (.ite h h)

theorem State.MemForm.serveEdge {s : State} {src : Who} {a : Access} {key : Nat} {shadow : Option Nat}
    (h : s.MemForm) : (s.serveEdge src a key shadow).1.MemForm := by
  refine .iteFst h (.iteFst h (.iteFst h ?_))
  dsimp only
  split
  · exact .iteFst h.postWrite.rawPerform.refreshLine h.postWrite.rawPerform.refreshLine
  · exact h.postWrite.rawPerform.refreshLine

theorem State.MemForm.serveShadow {s : State} {src : Who} {a : Access} {k : Nat} {r : Reply} (h : s.MemForm) :
    (s.serveShadow src a k r).1.MemForm := by
  unfold State.serveShadow
  dsimp only
  split
  · exact h.retagLine
  · exact (h.setBytes _ _).retagLine
  · exact (h.setBytes _ _).retagLine

theorem State.MemForm.acquired {s : State} {c : Nat} (h : s.MemForm) : (s.acquired c).MemForm :=
  .ite (h.setCore _ _) h

/-! ### Sys2Proof/Machine/Order.lean -/

theorem State.MemForm.hold {s : State} {c : Nat} {m : Msg} (h : s.MemForm) : (s.hold c m).MemForm :=
  .ite h (h.setCore _ _)

theorem State.MemForm.unhold {s : State} {c id : Nat} (h : s.MemForm) : (s.unhold c id).MemForm := h.setCore _ _

theorem State.MemForm.enterService {s : State} {c : Nat} {m : Msg} (h : s.MemForm) : (s.enterService c m).MemForm :=
  .ite h (h.setCore _ _).unhold

theorem State.MemForm.enterReached {s : State} {c : Nat} {m : Msg} (h : s.MemForm) : (s.enterReached c m).MemForm :=
  .ite h (h.setCore _ _).unhold

theorem State.MemForm.enterWindow {s : State} {m : Msg} {key : Nat} (h : s.MemForm) : (s.enterWindow m key).MemForm :=
  .ite h h

theorem State.MemForm.leaveWindow {s : State} {m : Msg} {key : Nat} (h : s.MemForm) : (s.leaveWindow m key).MemForm :=
  .ite h h

theorem State.MemForm.drainPosted {s : State} {k : Nat} (h : s.MemForm) : (s.drainPosted k).MemForm := by
  unfold State.drainPosted
  split
  · exact .ite h h
  · exact h

theorem State.MemForm.hostWrites {s : State} {addr : Nat} {bs : List Byte} (h : s.MemForm) :
    (s.hostWrites addr bs).MemForm :=
  .ite h (h.physWrite _ _)

/-! ### Sys2Proof/Machine/Access.lean -/

theorem State.MemForm.sendAccess {s : State} {a : Access} (h : s.MemForm) : (s.sendAccess a).MemForm :=
  (h.send _ _ _).setPark

theorem State.MemForm.sendRecord {s : State} {record : Nat} {dest : Dest} (h : s.MemForm) :
    (s.sendRecord record dest).MemForm :=
  (h.send _ _ _).setPark

theorem State.MemForm.launchNext {s : State} {a : Access} {ws : List (W32 × Tag)} (h : s.MemForm) :
    (s.launchNext a ws).MemForm :=
  .ite h.raise (.ite h.sendAccess h.sendRecord)

theorem State.MemForm.statusRead {s : State} {a : Access} {ws : List (W32 × Tag)} (h : s.MemForm) :
    (s.statusRead a ws).MemForm :=
  .ite h.parkOn h.result.acquired

theorem State.MemForm.finishAccess {s : State} {a : Access} {r : Reply} (h : s.MemForm) :
    (s.finishAccess a r).MemForm := by
  unfold State.finishAccess
  split
  · exact .raise (.ite h.setMe h)
  · split
    · exact h.launchNext
    · exact h.sendRecord
    · exact h.statusRead
    · exact h.finishFp
    · exact .ite h.setMe.acquired h.setMe

theorem State.MemForm.perform {s : State} {a : Access} (h : s.MemForm) : (s.perform a).MemForm := by
  unfold State.perform
  split
  · exact h.finishAccess
  · split
    · exact .ite h.serveBank.finishAccess h.sendAccess
    · exact h.sendAccess

theorem State.MemForm.performRelaxed {s : State} {a : Access} (h : s.MemForm) : (s.performRelaxed a).MemForm := by
  unfold State.performRelaxed
  split
  · exact h.parkOn
  · split
    · exact h.finishAccess
    · exact (h.send _ _ _).setMe

theorem State.MemForm.sendAcked {s : State} {addr : Nat} {b : Body} {arrive : Bool} (h : s.MemForm) :
    (s.sendAcked addr b arrive).MemForm :=
  (h.send _ _ _).setMe

theorem State.MemForm.ackRoom {s : State} {k : State → State} (h : s.MemForm) (hk : ∀ t, t.MemForm → (k t).MemForm) :
    (s.ackRoom k).MemForm :=
  .ite h.parkOn (hk _ h)

theorem State.MemForm.access {s : State} {op : AccOp} {ea : Word} {size : Nat} {dest : Dest} {rlx ff : Bool}
    {allow : Nat → Bool} (h : s.MemForm) : (s.access op ea size dest rlx ff allow).MemForm := by
  unfold State.access
  split
  · exact h.raise
  · exact .ite (h.ackRoom fun _ h => h.sendAcked.advance) (.ite h.performRelaxed (h.waitRelaxed
      fun _ h => h.perform))

theorem State.MemForm.toStage {s : State} {m : Msg} {a : Access} {st : Stage} (h : s.MemForm) :
    (s.toStage m a st).MemForm :=
  h.rebody

theorem State.MemForm.translated {s : State} {m : Msg} {a : Access} {since : Nat} {asked ripe : Bool}
    (h : s.MemForm) : (s.translated m a since asked ripe).MemForm := by
  unfold State.translated
  split
  · exact h.keepWalk.toStage
  · exact h.toStage
  · exact .toStage (.ite h.askMigration h)

theorem execTranslationWalk_memForm {s : State} {id : Nat} {cached : Bool} (h : s.MemForm) :
    (execTranslationWalk id cached s).MemForm := by
  unfold execTranslationWalk
  split
  · split
    · split
      · exact .next (.translated h)
      · exact .next h
    · exact .next h
  · exact .next h

theorem State.MemForm.rewalkFetch {s : State} {m : Msg} {va since : Nat} {asked : Bool} (h : s.MemForm) :
    (s.rewalkFetch m va since asked).MemForm := by
  unfold State.rewalkFetch
  refine .ite h.drop ?_
  split
  · exact .rebody (.ite h.askMigration h)
  · exact h.drop.setPark

theorem State.MemForm.edgePerform {s : State} {m : Msg} {a : Access} (h : s.MemForm) :
    (s.edgePerform m a).MemForm := by
  unfold State.edgePerform
  split
  · exact .ite h.toStage (.ite h.toStage h.serveEdge.toStage)
  · exact .ite h.toStage h.serveShadow.toStage
  · exact h

theorem execEdgeCoreServe_memForm {s : State} {id : Nat} (h : s.MemForm) : (execEdgeCoreServe id s).MemForm := by
  unfold execEdgeCoreServe
  split
  · split
    · exact .ite trivial (.ite (.next h) (.next h.leaveWindow.edgePerform))
    · exact .next h
  · exact .next h

theorem State.MemForm.ownerPerform {s : State} {m : Msg} {a : Access} (h : s.MemForm) :
    (s.ownerPerform m a).MemForm :=
  h.serveBank.toStage

theorem execActiveMessage_memForm {s : State} {id : Nat} (h : s.MemForm) : (execActiveMessage id s).MemForm := by
  unfold execActiveMessage
  split
  · split
    · split
      · exact .ite (.next h) (.next h.ownerPerform)
      · exact .next h
    · exact .next h
  · exact .next h

theorem State.MemForm.serveGroup {s : State} {a : Access} {l : List Msg} (h : s.MemForm) :
    (s.serveGroup a l).MemForm := by
  induction l generalizing s with
  | nil => exact h
  | cons m r ih =>
    unfold State.serveGroup
    split
    · refine .ite (ih ?_) (ih h)
      split
      · exact h.ownerPerform
      · exact h.leaveWindow.edgePerform
      · exact h
    · exact ih h

theorem State.MemForm.mergeServe {s : State} {ids : List Nat} (h : s.MemForm) : (s.mergeServe ids).MemForm := by
  unfold State.mergeServe
  split
  · exact h
  · split
    · exact .ite h.serveGroup h
    · exact h

theorem State.MemForm.answerOf {s t : State} {m : Msg} {a : Access} {r : Reply} (h : s.MemForm)
    (e : s.answerOf m a = some (t, r)) : t.MemForm := by
  unfold State.answerOf at e
  split at e
  · cases e
    exact h
  · split at e
    · have hb := h.serveBank (src := m.src) (a := a)
      rwa [Option.some.inj e] at hb
    · cases e
  · cases e

theorem State.MemForm.relaxedReply {s : State} {w : Who} {id : Nat} {a : Access} {r : Reply} (h : s.MemForm) :
    (s.relaxedReply w id a r).MemForm := by
  unfold State.relaxedReply
  dsimp only
  split <;> exact h.setSlot _ _

theorem execAccessReply_memForm {s : State} {id : Nat} (h : s.MemForm) : (execAccessReply id s).MemForm := by
  unfold execAccessReply
  split
  · split
    · refine .ite (.next h) ?_
      split
      · exact .next h
      · next e =>
        have h1 := (h.answerOf e).drop (id := id)
        exact .ite (.ite (.next h1.relaxedReply) (.next h1)) (.ite (.next (.finishAccess h1)) (.next h1))
    · exact .next h
  · exact .next h

theorem State.MemForm.acked {s : State} {w : Who} {id : Nat} {f : Option (Cause × Word)} (h : s.MemForm) :
    (s.acked w id f).MemForm := by
  unfold State.acked
  dsimp only
  split <;> exact h.setSlot _ _

theorem State.MemForm.refusedArrive {s t : State} {w : Who} {id addr : Nat} (h : s.MemForm)
    (e : s.refusedArrive w id addr = some t) : t.MemForm := by
  unfold State.refusedArrive at e
  dsimp only at e
  (repeat' split at e) <;> cases e
  exact (h.setSlot _ _).acked.trapAt

theorem execFireAndForgetAck_memForm {s : State} {id : Nat} (h : s.MemForm) :
    (execFireAndForgetAck id s).MemForm := by
  unfold execFireAndForgetAck
  split
  · refine .ite (.next h) ?_
    split
    · refine .ite (.next h) ?_
      split
      · exact .next h
      · exact .next (h.answerOf ‹_›).drop.acked
    · refine .ite ?_ (.ite (.next h.drop) (.ite ?_ (.next h.drop.acked)))
      · split
        · exact .next h.drop.trapAt
        · exact .next h.drop.endThread
      · split
        · exact .next (h.drop.refusedArrive ‹_›)
        · refine .next (.acked ?_)
          split
          · exact .ite (h.drop.setSlot _ _) h.drop
          · exact h.drop
    · exact .next h
  · exact .next h

/-! ### Sys2Proof/Machine/Memory.lean -/

theorem State.MemForm.loadG {s : State} {d a : BitVec 5} {r : BitVec 1} {o : BitVec 12} {n : Nat} {signed : Bool}
    {allow : Nat → Bool} (h : s.MemForm) : (s.loadG d a r o n signed allow).MemForm :=
  h.access

theorem State.MemForm.storeG {s : State} {v a : BitVec 5} {r : BitVec 1} {o : BitVec 12} {n : Nat}
    {allow : Nat → Bool} (h : s.MemForm) : (s.storeG v a r o n allow).MemForm :=
  h.access

theorem State.MemForm.atomG {s : State} {op : BitVec 4} {d a b : BitVec 5} {r z : BitVec 1} (h : s.MemForm) :
    (s.atomG op d a b r z).MemForm :=
  h.access

theorem State.MemForm.redG {s : State} {op : BitVec 3} {a b : BitVec 5} {z : BitVec 1} (h : s.MemForm) :
    (s.redG op a b z).MemForm :=
  h.access

theorem State.MemForm.loadV {s : State} {d : BitVec 4} {a : BitVec 5} {r : BitVec 1} {o : BitVec 12} {n : Nat}
    {double broadcast : Bool} (h : s.MemForm) : (s.loadV d a r o n double broadcast).MemForm :=
  h.access

theorem State.MemForm.storeV {s : State} {v : BitVec 4} {a : BitVec 5} {r : BitVec 1} {o : BitVec 12} {double : Bool}
    (h : s.MemForm) : (s.storeV v a r o double).MemForm :=
  h.access

/-! ### Sys2Proof/Machine/Contexts.lean -/

theorem State.MemForm.raiseFree {s : State} {c : Cause} (h : s.MemForm) : (s.raiseFree c).MemForm :=
  .raise (h.of_eq rfl rfl rfl)

theorem State.MemForm.withMask {s : State} {b : BitVec 5} {k : BitVec 32 → State} (h : s.MemForm)
    (hk : ∀ x, (k x).MemForm) : (s.withMask b k).MemForm :=
  .ite h.raise (hk _)

theorem State.MemForm.countStart {s : State} {launch : Nat} (h : s.MemForm) : (s.countStart launch).MemForm :=
  h.updLaunch _ _

theorem State.MemForm.startContext {s : State} {w : Who} {c : Ctx} (h : s.MemForm) : (s.startContext w c).MemForm :=
  (h.setSlot _ _).acquired

theorem State.MemForm.place {s : State} {w : Who} {x : Slot} {launch : Nat} (h : s.MemForm) :
    (s.place w x launch).MemForm := by
  unfold State.place
  refine .countStart (.setSlot ?_ _ _)
  exact h

theorem State.MemForm.startEntry {s : State} {w : Who} {e : RunEntry} (h : s.MemForm) :
    (s.startEntry w e).MemForm := by
  unfold State.startEntry
  split
  · split
    · exact h.setCountWord
    · exact h.setCountWord.place
  · split
    · exact h
    · exact h.place
  · exact h.place

theorem State.MemForm.spillImage {s : State} {c : Nat} (h : s.MemForm) : (s.spillImage c).MemForm := by
  unfold State.spillImage
  refine .ite h (.storeSpad ?_ _ _)
  exact h

theorem State.MemForm.takeIn {s t : State} {c : Nat} {x : Ctx} (h : s.MemForm) (e : s.takeIn c x = some t) :
    t.MemForm := by
  unfold State.takeIn at e
  dsimp only at e
  split at e
  · cases e
  split at e
  · obtain ⟨n, -, rfl⟩ := Option.map_eq_some_iff.mp e
    exact h.startContext
  (repeat' split at e) <;> cases e
  · exact h.setCore _ _
  · exact (h.setCore _ _).spillImage

theorem State.MemForm.takeOne {s : State} {c : Nat} (h : s.MemForm) : (s.takeOne c).MemForm := by
  unfold State.takeOne
  dsimp only
  split
  · exact h
  · split
    · exact (h.setCore _ _).startContext
    · exact (h.setCore _ _).startEntry
    · exact (h.setCore _ _).startContext
    · exact h

theorem State.MemForm.refill {s : State} {c : Nat} (h : s.MemForm) : (s.refill c).MemForm := by
  unfold State.refill
  dsimp only
  split
  · exact .ite (h.setCore _ _) h
  · exact h

theorem State.MemForm.takeAll {s : State} {c n : Nat} (h : s.MemForm) : (s.takeAll c n).MemForm := by
  induction n generalizing s with
  | zero => exact h
  | succ n ih => exact .ite (ih h.takeOne) h

theorem State.MemForm.takeWork {s : State} {c : Nat} (h : s.MemForm) : (s.takeWork c).MemForm := h.takeAll.refill

/-! ### Sys2Proof/Machine/Flow.lean -/

theorem State.MemForm.vacate {s : State} {w : Who} (h : s.MemForm) : (s.vacate w).MemForm := h.unclaim.freeSlot

theorem State.MemForm.migrateTo {s : State} {dest : Nat} {mask : BitVec 32} (h : s.MemForm) :
    (s.migrateTo dest mask).MemForm :=
  .ite h.raiseFree (h.waitBoth fun _ h => .ite h.departOwner.leaveGang.advance
    (h.departOwner.leaveGang.send _ _ _).countSent.setMe)

theorem execSpawn_memForm {s : State} {d a b : BitVec 5} (h : s.MemForm) : (execSpawn d a b s).MemForm :=
  .next (h.withMask fun _ => .ite h.raise (.ite h.raise
    (h.waitRelaxed fun _ h => .ite h.parkOn ((h.send _ _ _).setCore _ _).countSent.advance)))

theorem State.MemForm.arrive {s : State} {m : Msg} {c : Ctx} {dest n : Nat} (h : s.MemForm) :
    (s.arrive m c dest n).MemForm := by
  unfold State.arrive
  split
  · exact h.rebody.countReceived
  · exact .ite ((h.takeIn ‹_›).countReceived.setCore _ _).drop.countStart
      (h.takeIn ‹_›).countReceived.rebody

theorem execContextPacketAdmission_memForm {s : State} {id : Nat} (h : s.MemForm) :
    (execContextPacketAdmission id s).MemForm := by
  unfold execContextPacketAdmission
  split
  · refine .next ?_
    split
    · exact .ite h h.arrive
    · exact h
  · exact .next h

theorem execMigrationReply_memForm {s : State} {id : Nat} (h : s.MemForm) : (execMigrationReply id s).MemForm := by
  unfold execMigrationReply
  split
  · refine .next (.ite h ?_)
    split
    · exact .ite (h.drop.vacate.setCore _ _) h.drop
    · exact h.rebody
    · exact h
  · exact .next h

theorem execRefusalBackoffExpiry_memForm {s : State} {id : Nat} (h : s.MemForm) :
    (execRefusalBackoffExpiry id s).MemForm := by
  unfold execRefusalBackoffExpiry
  split
  · refine .next ?_
    split
    · exact .ite h h.rebody.countSent
    · exact h
  · exact .next h

theorem execForwardingEntryExpiry_memForm {s : State} {core slot : Nat} (h : s.MemForm) :
    (execForwardingEntryExpiry core slot s).MemForm := by
  unfold execForwardingEntryExpiry
  dsimp only
  split
  · exact .next (.ite h (h.setCore _ _))
  · exact .next h

/-! ### Sys2Proof/Machine/Messages.lean -/

theorem State.MemForm.setBox {s : State} {c b : Nat} {l : List Mail} (h : s.MemForm) : (s.setBox c b l).MemForm :=
  h.setCore _ _

theorem State.MemForm.accept {s : State} {c b : Nat} {m : Mail} (h : s.MemForm) : (s.accept c b m).MemForm := by
  unfold State.accept
  split
  · exact (h.setSlot _ _).acquired
  · exact h.setBox

theorem State.MemForm.wakeGone {s : State} {sender : Word} {c b : Nat} (h : s.MemForm) :
    (s.wakeGone sender c b).MemForm := by
  unfold State.wakeGone
  refine h.fold fun _ _ h => ?_
  split
  · exact .ite (h.setSlot _ _) h
  · exact h

theorem State.MemForm.goneAt {s : State} {sender : Word} {c b : Nat} (h : s.MemForm) :
    (s.goneAt sender c b).MemForm :=
  .ite h.setBox.wakeGone h

theorem State.MemForm.goneCore {s : State} {sender : Word} {c : Nat} (h : s.MemForm) :
    (s.goneCore sender c).MemForm :=
  .fold h fun _ _ h => h.goneAt

theorem State.MemForm.grantPlain {s : State} {w : Who} {a : Nat} {rd : BitVec 5} {try_ : Bool} (h : s.MemForm) :
    (s.grantPlain w a rd try_).MemForm :=
  (h.setSlot _ _).acquired

theorem State.MemForm.grantCaller {s : State} {w : Who} {a : Nat} {rd : BitVec 5} {pc : Word} {args : List Word}
    (h : s.MemForm) : (s.grantCaller w a rd pc args).MemForm :=
  (h.setSlot _ _).acquired

theorem State.MemForm.wakeRenamed {s : State} {w : Who} {a : Nat} (h : s.MemForm) : (s.wakeRenamed w a).MemForm :=
  .ite h (.ite (h.setSlot _ _).acquired (h.setSlot _ _))

theorem State.MemForm.take {s : State} {w : Who} {p : Park} {rd : BitVec 5} {v : Word} (h : s.MemForm) :
    (s.take w p rd v).MemForm :=
  .ite (h.setSlot _ _) h

theorem State.MemForm.hear {s : State} {w : Who} {a : Answer} (h : s.MemForm) : (s.hear w a).MemForm := by
  unfold State.hear
  split
  · exact .ite h.grantPlain h
  · exact .ite h.grantCaller h
  · exact .ite h.trapAt h
  · exact h.take
  · exact .ite (h.setSlot _ _) h
  · exact h.wakeRenamed
  · exact .ite (h.setSlot _ _) h
  · exact h.goneCore

theorem State.MemForm.tell {s : State} {w : Who} {a : Answer} (h : s.MemForm) : (s.tell w a).MemForm :=
  .ite h.hear (h.send _ _ _)

theorem State.MemForm.status {s : State} {w : Who} {id : Nat} {rd : BitVec 5} {v : Word} (h : s.MemForm) :
    (s.status w id rd v).MemForm :=
  h.tell

theorem State.MemForm.acceptMail {s : State} {msg : Msg} {c b : Nat} {m : Mail} {signal : Bool} {launch : Nat}
    (h : s.MemForm) : (s.acceptMail msg c b m signal launch).MemForm :=
  .ite h.drop.accept h.drop.accept.countReceived.status

theorem State.MemForm.fillBox {s : State} {c b n : Nat} (h : s.MemForm) : (s.fillBox c b n).MemForm := by
  induction n generalizing s with
  | zero => exact h
  | succ n ih =>
    refine .ite h ?_
    split
    · exact ih h.acceptMail
    · exact h

theorem State.MemForm.deliverMail {s : State} {msg : Msg} {c b : Nat} {m : Mail} {try_ signal : Bool} {launch : Nat}
    (h : s.MemForm) : (s.deliverMail msg c b m try_ signal launch).MemForm :=
  .ite h.acceptMail (.ite h.drop.countReceived.status h)

theorem State.MemForm.sendMail {s : State} {d a : BitVec 5} {try_ : Bool} (h : s.MemForm) :
    (s.sendMail d a try_).MemForm := by
  refine .ite h.raise (.ite h.raise (h.waitRelaxed fun t ht => .ite ht.countSent.countReceived.result ?_))
  extract_lets mail launch t1 id body t2
  have h2 : t2.MemForm := (ht.countSent.send _ _ _).setPark
  exact .ite (ht.countSent.send _ _ _).setPark (.ite h2.deliverMail h2)

theorem State.MemForm.recvMail {s : State} {d : BitVec 5} {mask : BitVec 16} {try_ : Bool} (h : s.MemForm) :
    (s.recvMail d mask try_).MemForm := by
  unfold State.recvMail
  dsimp only
  split
  · split
    · exact h.setBox.setMe.acquired.fillBox
    · exact h
  · exact .ite h.result (.setMe (h.of_eq rfl rfl rfl))

theorem State.MemForm.peerAnswer {s : State} {m : Msg} {append try_ : Bool} {launch : Nat} (h : s.MemForm) :
    (s.peerAnswer m append try_ launch).MemForm :=
  .status (.countReceived (.drop h))

theorem execMailboxDelivery_memForm {s : State} {id : Nat} (h : s.MemForm) : (execMailboxDelivery id s).MemForm := by
  unfold execMailboxDelivery
  split
  · refine .next ?_
    split
    · exact .ite h h.deliverMail
    · exact .ite h.fillBox h
    · exact .ite h.peerAnswer h
    · exact h
  · exact .next h

theorem State.MemForm.ringStep {s : State} {w : Who} {ring : Nat} {payload : List Word} {held : Bool}
    (h : s.MemForm) : (s.ringStep w ring payload held).1.MemForm := by
  unfold State.ringStep
  extract_lets c o k head tail size used r pos wraps need at_ spans pad rec done_
  have hp : pad.MemForm := .ite (h.storeSpad _ _) h
  split
  · exact h
  split
  · exact h
  split
  · exact h
  split
  · exact h
  split
  · exact h
  · exact (hp.storeSpad _ _).clearPoison.storeSpad _ _

theorem State.MemForm.ringReply {s : State} {m : Msg} {ring launch : Nat} {r : RingAnswer} (h : s.MemForm) :
    (s.ringReply m ring launch r).MemForm := by
  unfold State.ringReply
  dsimp only
  split
  · exact h.drop.countReceived.status
  · exact h.drop.countReceived.tell

theorem State.MemForm.ringArrival {s : State} {m : Msg} {ring : Nat} {payload : List Word} {try_ : Bool}
    {launch : Nat} (h : s.MemForm) : (s.ringArrival m ring payload try_ launch).MemForm := by
  unfold State.ringArrival
  dsimp only
  split
  · exact h.ringStep
  · exact h.ringStep.ringReply

theorem State.MemForm.appendRing {s : State} {d a b : BitVec 5} {try_ : Bool} (h : s.MemForm) :
    (s.appendRing d a b try_).MemForm := by
  refine .ite h.raise (.ite h.raise (h.waitRelaxed fun t ht => .ite ht.result
    (.ite ht.countSent.countReceived.result ?_)))
  extract_lets payload launch t1 id body t2
  have h2 : t2.MemForm := (ht.countSent.send _ _ _).setPark
  exact .ite (ht.countSent.send _ _ _).setPark (.ite h2.ringArrival h2)

theorem execAppendAtRing_memForm {s : State} {id : Nat} (h : s.MemForm) : (execAppendAtRing id s).MemForm := by
  unfold execAppendAtRing
  split
  · refine .next ?_
    split
    · exact .ite h.ringArrival h
    · exact .ite h.peerAnswer h
    · exact h
  · exact .next h

theorem State.MemForm.retryRing {s : State} {ring : Nat} {l : List Msg} (h : s.MemForm) :
    (s.retryRing ring l).MemForm := by
  induction l generalizing s with
  | nil => exact h
  | cons m r ih =>
    unfold State.retryRing
    split
    · refine .ite (ih h) ?_
      dsimp only
      split
      · exact h
      · exact ih h.ringStep.ringReply
    · exact ih h

theorem State.MemForm.peerMail {s : State} {sender : Word} {core box : Nat} {payload : List Word} {try_ : Bool}
    (h : s.MemForm) : (s.peerMail sender core box payload try_).MemForm :=
  .ite (h.send _ _ _) h

theorem State.MemForm.peerAppend {s : State} {sender : Word} {ring : Nat} {payload : List Word} {try_ : Bool}
    (h : s.MemForm) : (s.peerAppend sender ring payload try_).MemForm :=
  .ite (h.send _ _ _) h

/-! ### Sys2Proof/Machine/Queues.lean -/

theorem State.MemForm.setQueueReg {s : State} {c q : Nat} {r : QueueReg} (h : s.MemForm) :
    (s.setQueueReg c q r).MemForm :=
  h.setCore _ _

theorem State.MemForm.setEntries {s : State} {c q : Nat} {l : List QEntry} (h : s.MemForm) :
    (s.setEntries c q l).MemForm :=
  h.setQueueReg

theorem State.MemForm.bindQueue {s : State} {q : BitVec 5} {v : Word} (h : s.MemForm) : (s.bindQueue q v).MemForm :=
  .ite h.raise (.ite h.raise h.setQueueReg.setQueueReg.advance)

theorem State.MemForm.queueWrite {s : State} {q : BitVec 5} {l : List QEntry} (h : s.MemForm) :
    (s.queueWrite q l).MemForm :=
  .ite h.raise (.ite h.parkOn h.setEntries.advance)

theorem State.MemForm.queueRead {s : State} {q : BitVec 5} {n : Nat} {k : List QEntry → Slot → Slot} (h : s.MemForm) :
    (s.queueRead q n k).MemForm :=
  .ite h.raise (.ite h.parkOn h.setEntries.setMe)

theorem State.MemForm.closePartner {s : State} {w : Who} {q : BitVec 5} (h : s.MemForm) :
    (s.closePartner w q).MemForm := by
  unfold State.closePartner
  refine .ite h ?_
  split
  · exact .ite h.trapAt h
  · exact .ite h.trapAt h
  · exact h

theorem State.MemForm.closeQueue {s : State} {q : BitVec 5} (h : s.MemForm) : (s.closeQueue q).MemForm :=
  .ite h.raise h.setQueueReg.setQueueReg.closePartner.closePartner.advance

theorem State.MemForm.setDeque {s : State} {c : Nat} {l : List (Word × Word)} (h : s.MemForm) :
    (s.setDeque c l).MemForm := by
  refine .ite (.storeSpad ?_ _ _) (h.setCore _ _)
  exact h

theorem execDqpop_memForm {s : State} {d : BitVec 5} (h : s.MemForm) : (execDqpop d s).MemForm := by
  unfold execDqpop
  split
  · exact .next h.setDeque.setMe
  · exact .next h.setMe

theorem State.MemForm.serveSteal {s : State} {thief : Who} {d : BitVec 5} {victim : Nat} (h : s.MemForm) :
    (s.serveSteal thief d victim).MemForm :=
  h.setDeque.setSlot _ _

theorem State.MemForm.shipSteal {s : State} {m : Msg} {victim : Nat} (h : s.MemForm) :
    (s.shipSteal m victim).MemForm :=
  h.drop.setDeque.tell

theorem execDqsteal_memForm {s : State} {d a : BitVec 5} (h : s.MemForm) : (execDqsteal d a s).MemForm :=
  .next (.ite h.raise (.ite h.raise (h.waitRelaxed fun _ h => .ite h.serveSteal (h.send _ _ _).setPark)))

theorem execDequeStealServed_memForm {s : State} {id : Nat} (h : s.MemForm) :
    (execDequeStealServed id s).MemForm := by
  unfold execDequeStealServed
  split
  · refine .next ?_
    split
    · exact .ite h.shipSteal h
    · exact h
  · exact .next h

/-! ### Sys2Proof/Machine/Tasks.lean -/

theorem execTcinit_memForm {s : State} {a b : BitVec 5} (h : s.MemForm) : (execTcinit a b s).MemForm := by
  unfold execTcinit
  dsimp only
  split
  · exact .next h.raise
  · exact .next (h.waitRelaxed fun _ h => h.perform)

theorem execTcdec_memForm {s : State} {a b : BitVec 5} (h : s.MemForm) : (execTcdec a b s).MemForm := by
  unfold execTcdec
  dsimp only
  split
  · exact .next h.raise
  · exact .next (h.ackRoom fun _ h => h.sendAcked.countSent.advance)

theorem State.MemForm.overDecrement {s : State} {slot record launch : Nat} (h : s.MemForm) :
    (s.overDecrement slot record launch).MemForm := by
  unfold State.overDecrement
  dsimp only
  split
  · exact h.post _ _ _
  · exact h

theorem State.MemForm.decrement {s : State} {slot record d launch : Nat} (h : s.MemForm) :
    (s.decrement slot record d launch).MemForm :=
  .ite h (.ite h.overDecrement (.ite h.setCountWord (.ite h.placeTask.overDecrement h.placeTask)))

theorem execTcdecArrival_memForm {s : State} {id : Nat} (h : s.MemForm) : (execTcdecArrival id s).MemForm := by
  unfold execTcdecArrival
  split
  · refine .next ?_
    split
    · exact .ite h (.ite h.decrement.countReceived.rebody h.decrement.drop)
    · exact h
  · exact .next h

theorem State.MemForm.frameWait {s : State} (h : s.MemForm) : s.frameWait.MemForm := h.advance.setMe

theorem State.MemForm.yieldSlot {s : State} {mask : BitVec 32} (h : s.MemForm) : (s.yieldSlot mask).MemForm := by
  unfold State.yieldSlot
  refine .ite h.departOwner.leaveGang.frameWait ?_
  dsimp only
  split
  · exact h.departOwner.leaveGang.vacate.takeAll.takeIn ‹_›
  · exact h.departOwner.leaveGang.frameWait

theorem execYield_memForm {s : State} {b : BitVec 5} (h : s.MemForm) : (execYield b s).MemForm :=
  .next (h.withMask fun _ => .ite h.raiseFree (h.waitBoth fun _ h => h.yieldSlot))

theorem State.MemForm.sweep {s : State} {id : Nat} {l : Launch} (h : s.MemForm) : (s.sweep id l).MemForm :=
  .ite ((h.updLaunch _ _).fold fun _ _ h => (h.setSlot _ _).acquired) (h.updLaunch _ _)

theorem execQuiesceSweep_memForm {s : State} {launch : Nat} (h : s.MemForm) :
    (execQuiesceSweep launch s).MemForm := by
  unfold execQuiesceSweep
  split
  · exact .next (.ite h h.sweep)
  · exact .next h

/-! ### Sys2Proof/Machine/Agents.lean -/

theorem State.MemForm.putPieces {s : State} {ps : List Piece} {bs : List Byte} (h : s.MemForm) :
    (s.putPieces ps bs).MemForm := by
  induction ps generalizing s bs with
  | nil => exact h
  | cons p ps ih =>
    refine ih ?_
    split
    · exact (h.physWrite _ _).setBytes _ _
    · exact h.physWrite _ _

theorem State.MemForm.askHeld {s : State} {ask : Bool} {since : Option Nat} {part : Nat} {pid : BitVec 16} {w : Who}
    {launch va : Nat} (h : s.MemForm) : (s.askHeld ask since part pid w launch va).MemForm :=
  .ite h.askMigration h

/-! ### Sys2Proof/Machine/Engine.lean -/

theorem State.MemForm.setBuf {s : State} {t n : Nat} {b : CircBuf} (h : s.MemForm) : (s.setBuf t n b).MemForm :=
  h.setTile _ _

theorem State.MemForm.setEngine {s : State} {t : Nat} {e : Engine} (h : s.MemForm) : (s.setEngine t e).MemForm :=
  h.setTile _ _

theorem State.MemForm.claiming {s : State} {sticks : Bool} {k : State → State} (h : s.MemForm)
    (hk : ∀ t, t.MemForm → (k t).MemForm) : (s.claiming sticks k).MemForm :=
  .ite h.parkOn (hk _ (.setEngine h))

theorem State.MemForm.dropFresh {s : State} (h : s.MemForm) : s.dropFresh.MemForm := .ite h.dropClaim h

theorem State.MemForm.commitJob {s : State} {j : Job} {qs : List RangeReq} (h : s.MemForm) :
    (s.commitJob j qs).MemForm :=
  .ite (h.register.setSlot _ _).setEngine.handClaim (h.register.setSlot _ _).setEngine

theorem State.MemForm.issueRanges {s : State} {own : RangeOwner → Bool} {checks qs : List RangeReq} {i : Issue}
    {onTrap k : State → State} (h : s.MemForm) (honTrap : ∀ t, t.MemForm → (onTrap t).MemForm)
    (hk : ∀ t, t.MemForm → (k t).MemForm) : (s.issueRanges own checks qs i onTrap k).MemForm := by
  unfold State.issueRanges
  split
  · exact (honTrap _ h).raise
  · exact .ite (hk _ h) (.setMe (h.of_eq rfl rfl rfl))

theorem State.MemForm.issueJob {s : State} {plan : State → Except (Cause × Word) JobPlan} (h : s.MemForm) :
    (s.issueJob plan).MemForm := by
  unfold State.issueJob
  refine h.claiming fun _ h => .waitBoth (.ite h.dropFresh h) fun _ h => ?_
  split
  · exact h.dropFresh.raise
  · exact h.issueRanges (fun _ h => h.dropFresh) fun _ h => h.commitJob

theorem execEcw_memForm {s : State} {b : BitVec 5} {i : BitVec 8} (h : s.MemForm) : (execEcw b i s).MemForm :=
  .next (h.smallOnly fun _ h => .ite h.raise (h.claiming fun _ h => h.setEngine.advance))

theorem execEcr_memForm {s : State} {i : BitVec 8} (h : s.MemForm) : (execEcr i s).MemForm := by
  unfold execEcr
  refine .next (h.smallOnly fun _ h => ?_)
  split
  · exact h.result
  · exact h.raise

theorem State.MemForm.movePoison {s : State} {k : Nat} {bad : List Bool} {skip : Nat → Bool} (h : s.MemForm) :
    (s.movePoison k bad skip).MemForm :=
  .ite h ((h.fold fun _ _ h => .ite (h.setPoison _ _) h).fold fun _ _ h => .ite h.markPoison h)

theorem State.MemForm.unitPut {s : State} {part launch slot : Nat} {pid : BitVec 16} {core off : Nat} {bs : List Byte}
    {bad : List Bool} (h : s.MemForm) : (s.unitPut part launch slot pid core off bs bad).MemForm :=
  .ite h.put.movePoison ((h.fold fun _ _ h => .ite h h.put).movePoison.fold fun _ _ h => h.post _ _ _)

theorem State.MemForm.engineWrite {s : State} {j : Job} {ps : List Piece} {bs : List Byte} {bad : List Bool}
    (h : s.MemForm) : (s.engineWrite j ps bs bad).MemForm := by
  induction ps generalizing s bs bad with
  | nil => exact h
  | cons p ps ih => exact ih (.ite h.unitPut h.putPieces.movePoison)

theorem State.MemForm.setLive {s : State} {t : Nat} {j : Option Job} (h : s.MemForm) : (s.setLive t j).MemForm :=
  h.setEngine

theorem State.MemForm.holdPage {s : State} {t : Nat} {j : Job} {ask : Bool} {va : Nat} (h : s.MemForm) :
    (s.holdPage t j ask va).MemForm :=
  .ite h (.ite h.setLive.askMigration h.setLive)

/-- The state of a moved piece, where it has one, is in form. -/
def Moved.MemForm : Moved → Prop
  | .ok s _ _ => s.MemForm
  | _ => True

theorem Span.then_memForm {x : Span} {k : List Piece → Moved} (hk : ∀ ps, (k ps).MemForm) : (x.then_ k).MemForm := by
  cases x with
  | ok ps => exact hk ps
  | _ => trivial

theorem State.MemForm.copyMove {s : State} {j : Job} {src dst n : Nat} (h : s.MemForm) :
    (s.copyMove j src dst n).MemForm :=
  Span.then_memForm fun _ => Span.then_memForm fun _ => State.MemForm.ite (h.engineWrite.post _ _ _) h.engineWrite

theorem State.MemForm.quantMove {s : State} {j : Job} {src dst scale : Nat} (h : s.MemForm) :
    (s.quantMove j src dst scale).MemForm :=
  Span.then_memForm fun _ => Span.then_memForm fun _ => Span.then_memForm fun _ => State.MemForm.ite
    (h.engineWrite.engineWrite.post _ _ _) h.engineWrite.engineWrite

theorem State.MemForm.tryMove {s : State} {j : Job} {m : Move} (h : s.MemForm) : (s.tryMove j m).MemForm := by
  cases m with
  | copy src dst n => exact h.copyMove
  | nibbles src scale dst n =>
    refine Span.then_memForm fun _ => ?_
    split
    · exact Span.then_memForm fun _ => h.engineWrite
    · exact h.copyMove
  | quant src dst scale => exact h.quantMove

theorem State.MemForm.tryMoves {s : State} {j : Job} {n : Nat} {fl : Flags} {l : List Move} (h : s.MemForm) :
    (s.tryMoves j n fl l).MemForm := by
  induction l generalizing s n fl with
  | nil => exact h
  | cons m r ih =>
    have hm := h.tryMove (j := j) (m := m)
    unfold State.tryMoves
    split
    · next e => exact ih (e ▸ hm : Moved.MemForm (.ok _ _ _))
    · exact hm

theorem Progress.sector_memForm {p : Progress} {j : Job} {slot k : Nat} {c : Nat × Nat} (h : p.s.MemForm) :
    (p.sector j slot k c).s.MemForm := by
  have hm := h.tryMoves (j := j) (n := 0) (fl := 0) (l := j.moves slot c.1 c.2)
  unfold Progress.sector
  extract_lets mark
  have hmark : ∀ q : Progress, q.s.MemForm → (mark q).s.MemForm := fun q hq => by
    unfold mark
    split <;> exact hq
  refine iteInduction (motive := fun q : Progress => q.s.MemForm) (fun _ => h) fun _ => ?_
  refine iteInduction (motive := fun q : Progress => q.s.MemForm) (fun _ => hmark p h) fun _ => ?_
  split
  · next e => exact hmark _ (e ▸ hm : Moved.MemForm (.ok _ _ _))
  · split <;> exact h
  · exact h
  · exact h

theorem State.MemForm.runJob {s : State} {t : Nat} {j : Job} (h : s.MemForm) : (s.runJob t j).s.MemForm :=
  List.foldlRecOn (motive := fun p : Progress => p.s.MemForm) _ _ h fun _ hp _ _ => Progress.sector_memForm hp

theorem State.MemForm.finishRun {s : State} {t : Nat} {j : Job} {k : State → Job → State} (h : s.MemForm)
    (hk : ∀ t y, t.MemForm → (k t y).MemForm) : (s.finishRun t j k).MemForm := by
  unfold State.finishRun
  dsimp only
  split
  · exact trivial
  · exact .next h.holdPage
  · exact .next (.ite h (hk _ _ (.runJob h)))

theorem State.MemForm.onEngine {s : State} {t : Nat} {k : Engine → Out} (h : s.MemForm) (hk : ∀ x, (k x).MemForm) :
    (s.onEngine t k).MemForm :=
  .ite (hk _) (.next h)

theorem State.MemForm.writeRecord {s : State} {j : Job} {off : Nat} {bs : List Byte} (h : s.MemForm) :
    (s.writeRecord j off bs).MemForm := by
  unfold State.writeRecord
  refine .ite h ?_
  split
  · exact h.engineWrite
  · exact h

theorem State.MemForm.holdSuspended {s : State} {t : Nat} {j : Job} {ask : Bool} {va : Nat} (h : s.MemForm) :
    (s.holdSuspended t j ask va).MemForm :=
  .ite h (.ite h.setEngine.askMigration h.setEngine)

theorem execJobStart_memForm {s : State} {tile : Nat} (h : s.MemForm) : (execJobStart tile s).MemForm := by
  unfold execJobStart
  refine h.onEngine fun _ => .next (.ite h ?_)
  split
  · exact h.setEngine
  · exact h.setEngine.handClaim
  · exact h

theorem State.MemForm.startFill {s : State} {tile n : Nat} {j : Job} {q : RangeReq} (h : s.MemForm) :
    (s.startFill tile n j q).MemForm :=
  h.setBuf.register.setLive

theorem execCbSlotStart_memForm {s : State} {tile : Nat} (h : s.MemForm) : (execCbSlotStart tile s).MemForm := by
  refine h.onEngine fun e => .next ?_
  split
  · split
    · exact .ite h (.ite (.ite h (.setLive (h.of_eq rfl rfl rfl))) h.startFill)
    · exact h
  · exact h

theorem execCbSlotFilled_memForm {s : State} {tile : Nat} (h : s.MemForm) : (execCbSlotFilled tile s).MemForm := by
  unfold execCbSlotFilled
  refine h.onEngine fun _ => ?_
  split
  · split
    · exact h.finishRun fun _ _ h => .setLive (.setBuf h)
    · exact .next h
  · exact .next h

theorem State.MemForm.endJob {s : State} {t : Nat} {j : Job} (h : s.MemForm) : (s.endJob t j).MemForm :=
  .ite h.unregister.setEngine (h.unregister.setEngine.send _ _ _)

theorem State.MemForm.completeJob {s : State} {t : Nat} {j : Job} (h : s.MemForm) : (s.completeJob t j).MemForm :=
  .endJob (.ite h.writeRecord.setLive.setEngine h.writeRecord.setLive)

theorem execJobCompletion_memForm {s : State} {tile : Nat} (h : s.MemForm) : (execJobCompletion tile s).MemForm := by
  unfold execJobCompletion
  refine h.onEngine fun _ => ?_
  split
  · refine .ite (.next h) ?_
    split
    · exact .next h.holdPage
    · exact .ite (.next (.ite h.completeJob h)) (h.finishRun fun _ _ h => h.completeJob)
  · exact .next h

theorem execJobSuspension_memForm {s : State} {tile : Nat} (h : s.MemForm) : (execJobSuspension tile s).MemForm := by
  unfold execJobSuspension
  refine h.onEngine fun _ => ?_
  split
  · refine .ite (.next h) ?_
    dsimp only
    split
    · exact trivial
    · exact .next h.holdPage
    · exact .next h
    · split
      · exact .next h.holdPage
      · exact .next (h.runJob.writeRecord.post _ _ _).setEngine
  · exact .next h

theorem execJobResume_memForm {s : State} {tile job : Nat} (h : s.MemForm) : (execJobResume tile job s).MemForm := by
  unfold execJobResume
  refine h.onEngine fun _ => .next ?_
  split
  · refine .ite h ?_
    split
    · exact h.holdSuspended
    · exact h.holdSuspended
    · exact h.writeRecord.setEngine
  · exact h

theorem execJobAbort_memForm {s : State} {tile job : Nat} (h : s.MemForm) : (execJobAbort tile job s).MemForm := by
  unfold execJobAbort
  refine h.onEngine fun _ => .next ?_
  split
  · refine .ite h ?_
    split
    · exact h.holdSuspended
    · exact h.writeRecord.setEngine.endJob
  · exact h

theorem execRangeEntryRemoval_memForm {s : State} {id : Nat} (h : s.MemForm) :
    (execRangeEntryRemoval id s).MemForm := by
  unfold execRangeEntryRemoval
  split
  · split
    · refine h.onEngine fun e => ?_
      split
      · exact .ite (.next h) (h.finishRun fun _ _ h => .setLive (h.of_eq rfl rfl rfl))
      · exact .next h
    · exact .next h
  · exact .next h

/-! ### Sys2Proof/Machine/CircBuf.lean -/

theorem State.MemForm.cbinit {s : State} {a : Word} {n : Nat} (h : s.MemForm) : (s.cbinit a n).MemForm := by
  unfold State.cbinit
  refine .ite h.raise (.ite h.raise ?_)
  dsimp only
  split
  · exact h.raise
  · exact h.raise
  · exact .ite h.raise h.setBuf.advance

theorem execCbinit_memForm {s : State} {a : BitVec 5} {n : BitVec 4} (h : s.MemForm) : (execCbinit a n s).MemForm :=
  .next (h.smallOnly fun _ h => .ite h.raise (.ite h.raise (h.waitRelaxed fun _ h => h.cbinit)))

theorem execCbrel_memForm {s : State} {n : BitVec 4} (h : s.MemForm) : (execCbrel n s).MemForm :=
  .next (h.smallOnly fun _ h => h.waitRelaxed fun _ h => .ite h.raise h.setBuf.advance)

/-! ### Sys2Proof/Machine/Gang.lean -/

theorem State.MemForm.trapAll {s : State} {c : Cause} {l : List (Who × Word)} (h : s.MemForm) :
    (s.trapAll c l).MemForm :=
  h.fold fun _ _ h => .ite h.trapAt (h.send _ _ _)

theorem State.MemForm.discardJoining {s : State} {tile : Nat} (h : s.MemForm) : (s.discardJoining tile).MemForm :=
  (h.unregister.setTile _ _).trapAll

theorem State.MemForm.gangLeft {s : State} {tile c : Nat} (h : s.MemForm) : (s.gangLeft tile c).MemForm :=
  .ite (h.setTile _ _).trapAll (h.setTile _ _).trapAll.discardJoining

theorem State.MemForm.settleLeaves {s : State} {tile : Nat} (h : s.MemForm) : (s.settleLeaves tile).MemForm :=
  h.fold fun _ _ h => h.gangLeft

theorem State.MemForm.pendingError {s : State} {k : State → State} (h : s.MemForm)
    (hk : ∀ t, t.MemForm → (k t).MemForm) : (s.pendingError k).MemForm := by
  unfold State.pendingError
  dsimp only
  split
  · exact h.waitRelaxed fun _ h => (h.setTile _ _).setMe.raise
  · exact hk _ h

theorem execMgang_memForm {s : State} (h : s.MemForm) : (execMgang s).MemForm :=
  .next (h.smallOnly fun _ h => h.settleLeaves.pendingError fun _ h => h.waitBoth fun _ h => .ite h.raise
    (.ite h.raise h.setPark))

theorem State.MemForm.releaseGang {s : State} {tile : Nat} {w : Who} (h : s.MemForm) :
    (s.releaseGang tile w).MemForm :=
  .setSlot (.ite ((h.setTile _ _).setCore _ _) (h.setTile _ _)) _ _

theorem execMgangRelease_memForm {s : State} {tile : Nat} (h : s.MemForm) : (execMgangRelease tile s).MemForm :=
  .next (.ite h ((h.settleLeaves.discardJoining.setTile _ _).fold fun _ _ h => h.releaseGang))

theorem State.MemForm.joinMember {s : State} {m : Member} {qs : List RangeReq} (h : s.MemForm) :
    (s.joinMember m qs).MemForm :=
  (h.register.setTile _ _).setPark

theorem State.MemForm.gangIssue {s : State} {i : Instr} {fn : GangFn} {ra rb : Word} {imm : Nat}
    {check : State → Proj → Except (Cause × Word) Plan} (h : s.MemForm) :
    (s.gangIssue i fn ra rb imm check).MemForm := by
  unfold State.gangIssue
  refine h.smallOnly fun _ h => .ite h.settleLeaves.raise (h.settleLeaves.pendingError fun _ h => h.waitBoth
    fun _ h => ?_)
  split
  · exact h.raise
  · exact h.issueRanges (fun _ h => h) fun _ h => h.joinMember

theorem execMstat_memForm {s : State} (h : s.MemForm) : (execMstat s).MemForm :=
  .next (h.smallOnly fun _ h => h.pendingError fun _ h => h.waitBoth fun _ h => h.result)

theorem State.MemForm.joinFails {s : State} {tile : Nat} {c : Cause} (h : s.MemForm) : (s.joinFails tile c).MemForm :=
  (h.unregister.setTile _ _).trapAll

theorem State.MemForm.enqueueOp {s : State} {tile : Nat} (h : s.MemForm) : (s.enqueueOp tile).MemForm := by
  unfold State.enqueueOp
  dsimp only
  split
  · exact h
  · exact (h.reown.setTile _ _).fold fun _ _ h => .ite h.setPark (h.setSlot _ _)

theorem execGangJoin_memForm {s : State} {tile : Nat} (h : s.MemForm) : (execGangJoin tile s).MemForm :=
  .next (.ite h (.ite h.settleLeaves.joinFails (.ite h.settleLeaves.joinFails h.settleLeaves.enqueueOp)))

theorem State.MemForm.queueCert {s : State} {c : Cert} {qs : List RangeReq} (h : s.MemForm) :
    (s.queueCert c qs).MemForm :=
  (h.register.setTile _ _).setPark

theorem execRangeTableRoom_memForm {s : State} {core slot : Nat} (h : s.MemForm) :
    (execRangeTableRoom core slot s).MemForm := by
  unfold execRangeTableRoom
  dsimp only
  split
  · refine .next (.ite h ?_)
    split
    · exact .trapAt (.ite h.dropClaim h)
    · exact h.trapAt
    · exact h.commitJob
    · exact h.joinMember
    · exact h.queueCert
  · exact .next h

/-! ### Sys2Proof/Machine/Array.lean -/

theorem State.MemForm.updOp {s : State} {tile : Nat} {o : GangOp} {f : GangOp → GangOp} (h : s.MemForm) :
    (s.updOp tile o f).MemForm :=
  h.setTile _ _

theorem State.MemForm.onOp {s : State} {tile : Nat} {f : GangFn → Bool} {k : GangOp → State} (h : s.MemForm)
    (hk : ∀ x, (k x).MemForm) : (s.onOp tile f k).MemForm := by
  unfold State.onOp
  refine .next (.ite ?_ h)
  split
  · exact .ite h (hk _)
  · split
    · exact h.updOp
    · exact h

theorem State.MemForm.endOp {s : State} {tile : Nat} {o : GangOp} (h : s.MemForm) : (s.endOp tile o).MemForm :=
  (h.setTile _ _).unregister

theorem State.MemForm.accrueCols {s : State} {tile : Nat} {o : GangOp} {fl : SMap Flags} (h : s.MemForm) :
    (s.accrueCols tile o fl).MemForm := by
  unfold State.accrueCols
  refine h.fold fun _ _ h => ?_
  split
  · exact h.setSlot _ _
  · exact h

theorem State.MemForm.arrayPut {s : State} {part launch : Nat} {pid : BitVec 16} {addr : Nat} {bs : List Byte}
    (h : s.MemForm) : (s.arrayPut part launch pid addr bs).MemForm :=
  h.unitPut

theorem State.MemForm.drainTags {s : State} {addr : Nat} {ts : List Tag} (h : s.MemForm) :
    (s.drainTags addr ts).MemForm :=
  h.fold fun _ _ h => .ite h (h.setSideTag _ _)

theorem State.MemForm.putRow {s : State} {tile : Nat} {o : GangOp} {v : Word} {r j : Nat}
    {es : List (Nat × Tag × Flags)} (h : s.MemForm) : (s.putRow tile o v r j es).MemForm := by
  unfold State.putRow
  extract_lets size fmt pid part d s1 s2
  have h2 : s2.MemForm := .ite h.arrayPut.drainTags h.arrayPut
  exact .ite h2.arrayPut h2

theorem State.MemForm.drainRow {s : State} {tile : Nat} {o : GangOp} {v : Word} {r j m : Nat} {fl : SMap Flags}
    (h : s.MemForm) : (s.drainRow tile o v r j m fl).1.MemForm := by
  unfold State.drainRow
  exact h.putRow

theorem State.MemForm.drainWake {s : State} {tile launch : Nat} {v : Word} {d : Nat} (h : s.MemForm) :
    (s.drainWake tile launch v d).MemForm :=
  .ite (h.send _ _ _) h

theorem State.MemForm.groupRow {s : State} {tile : Nat} {o : GangOp} {k : Nat} {fl : SMap Flags} (h : s.MemForm) :
    (s.groupRow tile o k fl).1.MemForm := by
  unfold State.groupRow
  split
  · dsimp only
    split
    · exact h.setTile _ _
    · exact List.foldlRecOn (motive := fun z : State × SMap Flags => z.1.MemForm) _ _ (h.setTile _ _)
        fun _ hz _ _ => hz.drainRow
  · exact h

theorem State.MemForm.failOp {s : State} {tile : Nat} {o : GangOp} (h : s.MemForm) : (s.failOp tile o).MemForm :=
  ((h.setTile _ _).count _ _).unregister.fold fun _ _ h => (h.setSlot _ _).trapAt

/-! ### Sys2Proof/Machine/VectorFp.lean -/

theorem State.MemForm.fpFinish {s : State} {f : BitVec 3} {d : BitVec 4} {es : List Elem} (h : s.MemForm) :
    (s.fpFinish f d es).MemForm :=
  h.finishFp

theorem State.MemForm.special {s : State} {i : Instr} (h : s.MemForm) : (s.special i).MemForm := h.setMe

theorem State.MemForm.fpCmp {s : State} {op : Nat} {p : BitVec 4} {a b : BitVec 5} {f : BitVec 3} (h : s.MemForm) :
    (s.fpCmp op p a b f).MemForm :=
  .ite h.setMe.raise h.setMe

theorem State.MemForm.specialDone {s : State} {es : List Elem} {i : Instr} (h : s.MemForm) :
    (s.specialDone es i).MemForm := by
  unfold State.specialDone
  split
  case h_7 => exact h
  all_goals exact h.fpFinish

theorem execSpecialFunctionResult_memForm {s : State} {core slot : Nat} (h : s.MemForm) :
    (execSpecialFunctionResult core slot s).MemForm := by
  unfold execSpecialFunctionResult
  split
  · exact .next (.ite (.specialDone (.setMe h)) h)
  · exact .next h

/-! ### Sys2Proof/Machine/VectorInt.lean -/

theorem State.MemForm.intOp2 {s : State} {f : BitVec 3} {d a b : BitVec 5} {op : Nat → Nat → Nat} (h : s.MemForm) :
    (s.intOp2 f d a b op).MemForm :=
  h.setMe

/-! ### Sys2Proof/Machine/Control.lean -/

theorem State.MemForm.branch {s : State} {taken : Bool} {disp : BitVec 16} (h : s.MemForm) :
    (s.branch taken disp).MemForm :=
  .ite h.jump h.advance

/-! ### Sys2Proof/Machine/Convert.lean -/

theorem State.MemForm.cvtFinish {s : State} {t d : BitVec 4} {f : BitVec 3} {es : List Elem} (h : s.MemForm) :
    (s.cvtFinish t d f es).MemForm :=
  h.finishFp

theorem State.MemForm.cvtToOl4 {s : State} {d a : BitVec 4} {b : BitVec 5} {f : BitVec 3} (h : s.MemForm) :
    (s.cvtToOl4 d a b f).MemForm := by
  unfold State.cvtToOl4
  exact h.finishFp

theorem State.MemForm.cvtFromOl4 {s : State} {d a : BitVec 4} {b : BitVec 5} {f : BitVec 3} (h : s.MemForm) :
    (s.cvtFromOl4 d a b f).MemForm := by
  unfold State.cvtFromOl4
  exact h.finishFp

/-! ### Sys2Proof/Machine/Coverage.lean -/

theorem State.MemForm.coverEnd {s : State} {tile : Nat} {o : GangOp} {tot : List FV} (h : s.MemForm) :
    (s.coverEnd tile o tot).MemForm :=
  h.endOp.fold fun _ _ h => h.setSlot _ _

theorem State.MemForm.countSpan {s : State} {tile : Nat} (h : s.MemForm) : (s.countSpan tile).MemForm := h.setTile _ _

theorem State.MemForm.spanFails {s : State} {l : List (Nat × GangOp)} (h : s.MemForm) : (s.spanFails l).MemForm :=
  h.fold fun _ _ h => h.endOp.countSpan.trapAll

/-! ### Sys2Proof/Machine/Csr.lean -/

theorem State.MemForm.csrOp {s : State} {i : Instr} {d : BitVec 5} {c : BitVec 12} {new : Option (Word → Word)}
    (h : s.MemForm) : (s.csrOp i d c new).MemForm := by
  unfold State.csrOp
  dsimp only
  split
  · exact h.raise
  · exact h.setMe

/-! ### Sys2Proof/Machine/Trace.lean -/

theorem State.MemForm.traceEvent {s : State} {c : Nat} {e : Event} (h : s.MemForm) :
    (s.traceEvent c e).1.MemForm := by
  unfold State.traceEvent
  dsimp only
  split
  · exact .ite (h.setCore _ _) ((h.setCore _ _).count _ _)
  · exact h

theorem State.MemForm.traceIssue {s : State} {w : Who} {i : Instr} {x : Slot} (h : s.MemForm) :
    (s.traceIssue w i x).MemForm := by
  unfold State.traceIssue
  split
  · exact h.traceEvent
  · exact h

theorem State.MemForm.traceEntries {s before : State} (h : s.MemForm) : (s.traceEntries before).MemForm :=
  h.fold fun _ _ h => h.traceEvent

/-! ### Sys2Proof/Machine/System.lean -/

theorem State.MemForm.holdDebug {s : State} {w : Who} (h : s.MemForm) : (s.holdDebug w).MemForm :=
  .ite (h.setSlot _ _) h

theorem State.MemForm.goLive {s : State} {c : Nat} (h : s.MemForm) : (s.goLive c).MemForm := by
  unfold State.goLive
  dsimp only
  split <;> exact .ite (h.setCore _ _) h

theorem State.MemForm.lateEntry {s : State} {w : Who} (h : s.MemForm) : (s.lateEntry w).MemForm := by
  unfold State.lateEntry
  dsimp only
  split
  · exact .ite (.ite (h.setSlot _ _).trapNow.holdDebug (h.setSlot _ _).trapNow) h
  · exact h

theorem State.MemForm.gateStatus {s : State} {w : Who} {v : Word} (h : s.MemForm) : (s.gateStatus w v).MemForm :=
  h.setSlot _ _

theorem State.MemForm.setUdeleg {s : State} {w : Who} (h : s.MemForm) : (s.setUdeleg w).MemForm :=
  .ite h.gateStatus (h.setSlot _ _).gateStatus

theorem State.MemForm.holdGate {s : State} {w : Who} {ask : Bool} {va : Nat} (h : s.MemForm) :
    (s.holdGate w ask va).MemForm := by
  unfold State.holdGate
  dsimp only
  split
  · exact h
  · exact h.askHeld.setPark

theorem State.MemForm.putMarked {s : State} {ps : List Piece} {bs : List Byte} {bad : List Bool} (h : s.MemForm) :
    (s.putMarked ps bs bad).MemForm := by
  induction ps generalizing s bs bad with
  | nil => exact h
  | cons p ps ih => exact ih h.putPieces.movePoison

theorem State.MemForm.copyOut {s : State} {w : Who} {p : PtrDecl} {bs : List Byte} (h : s.MemForm) :
    (s.copyOut w p bs).MemForm := by
  unfold State.copyOut
  refine .ite h.unitPut ?_
  split
  · exact h.putPieces
  · exact h

theorem State.MemForm.stage {s : State} {x : Slot} {area k : Nat} {bs : List Byte} {bad : List Bool} (h : s.MemForm) :
    (s.stage x area k bs bad).MemForm := by
  unfold State.stage
  split
  · exact h.putMarked
  · exact h

theorem State.MemForm.copyIns {s : State} {w : Who} {call : GateCall} (h : s.MemForm) : (s.copyIns w call).MemForm :=
  .ite h (h.fold fun _ _ h => h.stage)

theorem State.MemForm.stageOuts {s : State} {w : Who} {call : GateCall} (h : s.MemForm) :
    (s.stageOuts w call).MemForm :=
  h.fold fun _ _ h => h.stage

theorem State.MemForm.gateReply {s : State} {w : Who} {call : GateCall} (h : s.MemForm) :
    (s.gateReply w call).MemForm := by
  unfold State.gateReply
  split
  · exact h.gateStatus
  · exact .ite h.setUdeleg (.ite h.gateStatus ((h.stageOuts.fold fun _ _ h => h.copyOut).setSlot _ _))

theorem execSyscallGateReply_memForm {s : State} {core slot : Nat} {call : GateCall} (h : s.MemForm) :
    (execSyscallGateReply core slot call s).MemForm := by
  unfold execSyscallGateReply
  refine .next (.ite h (.ite (.ite (.copyIns (.setSlot ?_ _ _)) h) (.ite ?_ h)))
  · exact h
  · dsimp only
    split
    · exact .holdGate h
    · exact .gateReply h

theorem State.MemForm.gateBusy {s : State} {die : Nat} (h : s.MemForm) : (s.gateBusy die).MemForm :=
  h.fold fun _ _ h => h.tell

theorem State.MemForm.journaled {s : State} {c : Change} (h : s.MemForm) : (s.journaled c).MemForm := h.setSys _

theorem State.MemForm.markRecord {s : State} {c : Change} (h : s.MemForm) : (s.markRecord c).MemForm := h.setSys _

theorem State.MemForm.osChange {s : State} {c : Change} {f : State → State} (h : s.MemForm)
    (hf : ∀ t, t.MemForm → (f t).MemForm) : (s.osChange c f).MemForm :=
  .ite (hf _ h).markRecord h.journaled

theorem State.MemForm.dropPages {s : State} {agent : Nat} {r : Range} (h : s.MemForm) :
    (s.dropPages agent r).MemForm :=
  .ite (h.setCore _ _) h

theorem State.MemForm.shootAt {s : State} {agent : Nat} {r : Range} (h : s.MemForm) : (s.shootAt agent r).MemForm :=
  .ite (h.dropPages.setSys _).markRecord (h.dropPages.setSys _)

/-! ### Sys2Proof/Machine/Launching.lean -/

theorem execLaunch_memForm {s : State} {d a : BitVec 5} (h : s.MemForm) : (execLaunch d a s).MemForm :=
  .next (.ite h.raise (.ite h.raise (h.waitBoth fun _ h => .ite h.parkOn h.sendAccess)))

theorem State.MemForm.setQueue {s : State} {p prio : Nat} {l : List Nat} (h : s.MemForm) :
    (s.setQueue p prio l).MemForm :=
  h.setPart _ _

theorem State.MemForm.holdFields {s : State} {l : Launch} {bs : List Byte} {ask : Bool} {va : Nat} (h : s.MemForm) :
    (s.holdFields l bs ask va).MemForm := by
  unfold State.holdFields
  split
  · split
    · exact h.rebody
    · exact h
  · exact h.askHeld.send _ _ _

theorem State.MemForm.publish {s : State} {id : Nat} (h : s.MemForm) : (s.publish id).MemForm := by
  unfold State.publish
  split
  · exact h
  · dsimp only
    split
    · exact .putPieces h
    · exact h.holdFields
    · exact h

theorem State.MemForm.publishQueue {s : State} {p prio : Nat} (h : s.MemForm) : (s.publishQueue p prio).MemForm :=
  h.fold fun _ _ h => h.publish

theorem State.MemForm.dequeue {s : State} {l : Launch} (h : s.MemForm) : (s.dequeue l).MemForm :=
  h.setQueue.publishQueue

theorem State.MemForm.rollback {s : State} {p : Nat} (h : s.MemForm) : (s.rollback p).MemForm := by
  unfold State.rollback
  split
  · exact h
  · exact ((h.setPart _ _).updLaunch _ _).publish

theorem State.MemForm.reconsider {s : State} {p : Nat} (h : s.MemForm) : (s.reconsider p).MemForm := by
  unfold State.reconsider
  split
  · exact .ite h.rollback h
  · exact h

theorem State.MemForm.enqueue {s : State} {l : Launch} (h : s.MemForm) : (s.enqueue l).MemForm :=
  .reconsider (.publishQueue (.setQueue h))

theorem State.MemForm.dropBell {s : State} {p prio : Nat} (h : s.MemForm) : (s.dropBell p prio).MemForm :=
  h.setPart _ _

theorem State.MemForm.recordLost {s : State} {m : Msg} {part prio addr : Nat} {pid : BitVec 16} {c : Cause}
    (h : s.MemForm) : (s.recordLost m part prio addr pid c).MemForm :=
  .ite (h.drop.post _ _ _).dropBell (h.drop.post _ _ _).status

theorem State.MemForm.takeRecord {s : State} {m : Msg} {addr prio : Nat} {since : Option Nat} (h : s.MemForm) :
    (s.takeRecord m addr prio since).MemForm := by
  unfold State.takeRecord
  refine .ite (.next h.drop.dropBell) ?_
  split
  · exact trivial
  · exact .next h.recordLost
  · exact .next h.askHeld.rebody
  · exact .next h.drop.enqueue.status

theorem execLaunchRecordSent_memForm {s : State} {id : Nat} (h : s.MemForm) :
    (execLaunchRecordSent id s).MemForm := by
  unfold execLaunchRecordSent
  split
  · split
    · exact .ite (.next (.ite h.drop h)) (State.MemForm.takeRecord (h.of_eq rfl rfl rfl))
    · exact .next h
  · exact .next h

theorem execQdb_memForm {s : State} {part prio : Nat} {addr : BitVec 64} (h : s.MemForm) :
    (execQdb part prio addr s).MemForm := by
  unfold execQdb
  refine .ite (.next h) (.ite (.next h.dropBell) (State.MemForm.takeRecord (.send ?_ _ _ _)))
  exact h

theorem State.MemForm.endLaunch {s : State} {l : Launch} {status detail : Nat} (h : s.MemForm) :
    (s.endLaunch l status detail).MemForm :=
  (h.dequeue.updLaunch _ _).publish

theorem execDependenceReread_memForm {s : State} {launch : Nat} (h : s.MemForm) :
    (execDependenceReread launch s).MemForm := by
  unfold execDependenceReread
  split
  · refine .ite (.next h) ?_
    extract_lets s1
    have hc : { s with cached := false }.MemForm := h
    have h1 : s1.MemForm := hc.updLaunch _ _
    split
    · trivial
    · exact .next (h1.post _ _ _).endLaunch
    · exact .next (h1.askHeld.updLaunch _ _)
    · exact .next (.ite (h1.updLaunch _ _).publish.reconsider (.ite h1.endLaunch (h1.updLaunch _ _).publish))
  · exact .next h

theorem execQueueAging_memForm {s : State} {launch : Nat} (h : s.MemForm) : (execQueueAging launch s).MemForm := by
  refine .next ?_
  split
  · refine .ite h (.reconsider (.publishQueue ?_))
    exact h.dequeue
  · exact h

theorem execLaunchHeadCheck_memForm {s : State} {part : Nat} (h : s.MemForm) :
    (execLaunchHeadCheck part s).MemForm := by
  refine .next ?_
  split
  · refine .ite h ?_
    split
    · exact .endLaunch (h.of_eq rfl rfl rfl)
    · exact h.updLaunch _ _
  · exact h

theorem execSelectAndReserve_memForm {s : State} {part first : Nat} (h : s.MemForm) :
    (execSelectAndReserve part first s).MemForm := by
  refine .next ?_
  split
  · refine .ite h (.publish (.updLaunch ?_ _ _))
    exact h
  · exact h

theorem State.MemForm.zeroFill {s : State} {first n lo hi : Nat} (h : s.MemForm) :
    (s.zeroFill first n lo hi).MemForm := by
  obtain ⟨hmem, hstags, hpoison⟩ := h
  exact ⟨mapWf_filter _ _ _ hmem, mapWf_filter _ _ _ hstags, mapWf_filter _ _ _ hpoison⟩

theorem State.MemForm.zeroMore {s : State} {part n : Nat} (h : s.MemForm) : (s.zeroMore part n).MemForm := by
  unfold State.zeroMore
  split
  · exact .ite h (h.zeroFill.setPart _ _)
  · exact h

theorem execPrepare_memForm {s : State} {part : Nat} (h : s.MemForm) : (execPrepare part s).MemForm := by
  unfold execPrepare
  split
  · exact .next (.ite h (.setPart (.ite h.zeroFill h) _ _))
  · exact .next h

theorem State.MemForm.clearArrays {s : State} {first n : Nat} (h : s.MemForm) : (s.clearArrays first n).MemForm := h

theorem State.MemForm.startMember {s : State} {l : Launch} {index : Nat} {m : Nat × Nat} (h : s.MemForm) :
    (s.startMember l index m).MemForm :=
  h.place

theorem State.MemForm.placeSeeds {s : State} {l : Launch} {first n : Nat} (h : s.MemForm) :
    (s.placeSeeds l first n).MemForm :=
  .ite h (h.fold fun _ _ h => h.setCore _ _)

theorem execCommit_memForm {s : State} {part : Nat} {picks : List (List Nat)} (h : s.MemForm) :
    (execCommit part picks s).MemForm := by
  refine .next ?_
  split
  · split
    · refine .ite h ?_
      extract_lets s1 s2 s3 src s4 s5 s6
      have h5 : s5.MemForm := ((h.clearArrays.fold fun _ _ h => h.startMember).placeSeeds.setPart _ _).updLaunch _ _
      have h6 : s6.MemForm := .publish (h5.of_eq rfl rfl rfl)
      exact .ite h6.dequeue h6
    · exact h
  · exact h

theorem State.MemForm.finishLaunch {s : State} {l : Launch} (h : s.MemForm) : (s.finishLaunch l).MemForm := by
  unfold State.finishLaunch
  refine .signal ?_ _ _ _
  exact (h.updLaunch _ _).publish

theorem State.MemForm.recordUnwritten {s : State} {l : Launch} {c : Cause} (h : s.MemForm) :
    (s.recordUnwritten l c).MemForm :=
  (h.post _ _ _).finishLaunch

theorem execLaunchCompletion_memForm {s : State} {launch : Nat} (h : s.MemForm) :
    (execLaunchCompletion launch s).MemForm := by
  unfold execLaunchCompletion
  split
  · refine .ite (.next h) ?_
    have h1 : { s with cached := false }.MemForm := h
    refine .ite (.next h1.finishLaunch) ?_
    split
    · trivial
    · exact .next h1.recordUnwritten
    · exact .next (h1.askHeld.updLaunch _ _)
    · exact .ite (.next h1.recordUnwritten) (.next h1.putPieces.finishLaunch)
  · exact .next h

theorem State.MemForm.loadImage {s : State} {core off : Nat} {data : List Byte} {records : List Nat} (h : s.MemForm) :
    (s.loadImage core off data records).MemForm :=
  .ite ((h.storeSpad _ _).fold fun _ _ h => .ite h.setCountWord h) h

theorem State.MemForm.placeSerial {s : State} {launch core : Nat} (h : s.MemForm) :
    (s.placeSerial launch core).MemForm := by
  unfold State.placeSerial
  split
  · refine .ite ?_ h
    split
    · exact h.place
    · exact h
  · exact h

theorem State.MemForm.placeSupervisor {s : State} {core : Nat} {pc : Word} (h : s.MemForm) :
    (s.placeSupervisor core pc).MemForm := by
  unfold State.placeSupervisor
  refine .ite h ?_
  split
  · refine .setSlot ?_ _ _
    exact h
  · exact h

/-! ### Sys2Proof/Machine/Heap.lean -/

theorem State.MemForm.bumpMark {s : State} {part : Nat} {pid : BitVec 16} (h : s.MemForm) :
    (s.bumpMark part pid).MemForm :=
  h.setNat _ _ _

theorem State.MemForm.takeBlock {s : State} {c : Chunk} (h : s.MemForm) : (s.takeBlock c).1.MemForm := by
  unfold State.takeBlock
  exact h

theorem State.MemForm.unmark {s : State} {part : Nat} {pid : BitVec 16} {taken : List Nat} {p : Nat} (h : s.MemForm) :
    (s.unmark part pid taken p).MemForm := by
  unfold State.unmark
  split
  · exact .ite h.putPieces h
  · exact h

theorem State.MemForm.heapReply {s : State} {m : Msg} {v : Word} (h : s.MemForm) : (s.heapReply m v).MemForm :=
  h.drop.status

theorem State.MemForm.heapFault {s : State} {m : Msg} {c : Cause} {v : Word} (h : s.MemForm) :
    (s.heapFault m c v).MemForm :=
  h.drop.tell

/-- The kernel cannot compare the match on a span at a literal multiple of 2^21 with itself (it counts the literal
down), so the chunk size is a variable here before the definition is unfolded. -/
theorem State.MemForm.newChunk {s : State} {m : Msg} {n : Word} {since : Option Nat} {size : Nat} (h : s.MemForm) :
    (s.newChunk m n since size).MemForm := by
  obtain ⟨bytes, hbytes⟩ : ∃ b, b = chunkBytes := ⟨_, rfl⟩
  generalize e : @State.newChunk = f
  delta State.newChunk at e
  rw [← hbytes] at e
  subst e
  beta_reduce
  extract_lets x a base bad
  have hbad : ∀ c va, Out.MemForm (bad c va) := fun _ _ => .next (h.bumpMark.post _ _ _).heapReply
  split
  · trivial
  · exact hbad _ _
  · exact .next h.askHeld.rebody
  · exact .ite (.next h) (.ite (hbad _ _) (.next (.heapReply (.takeBlock (h.bumpMark.putPieces.of_eq rfl rfl rfl)))))

theorem State.MemForm.allocStep {s : State} {m : Msg} {n : Word} {since : Option Nat} (h : s.MemForm) :
    (s.allocStep m n since).MemForm := by
  unfold State.allocStep
  refine .ite (.next h.heapReply) ?_
  dsimp only
  split
  · exact .ite (.next h) (.next h.takeBlock.unmark.heapReply)
  · exact .ite h.newChunk (.next h.heapReply)

theorem State.MemForm.giveBlock {s : State} {c : Chunk} {p : Nat} {ps : List Piece} (h : s.MemForm) :
    (s.giveBlock c p ps).MemForm :=
  h.putPieces

theorem State.MemForm.freeStep {s : State} {m : Msg} {p : Word} {since : Option Nat} (h : s.MemForm) :
    (s.freeStep m p since).MemForm := by
  unfold State.freeStep
  refine .ite (.next h.heapReply) (.ite (.next h.heapFault) ?_)
  split
  · exact trivial
  · exact .next h.heapFault
  · exact .next h.askHeld.rebody
  · refine .ite (.next h) ?_
    split
    · exact .next h.heapFault
    · refine .ite (.next h.heapFault) (.ite (.next h.heapFault) ?_)
      split
      · exact trivial
      · exact .next h.heapFault
      · exact .next h.askHeld.rebody
      · exact .ite (.next h.heapFault) (.next h.giveBlock.heapReply)

theorem execAllocatorEngineStep_memForm {s : State} {id : Nat} (h : s.MemForm) :
    (execAllocatorEngineStep id s).MemForm := by
  unfold execAllocatorEngineStep
  split
  · refine .ite (.next h) (.ite (.next h.drop) ?_)
    split
    · exact State.MemForm.allocStep (h.of_eq rfl rfl rfl)
    · exact State.MemForm.freeStep (h.of_eq rfl rfl rfl)
    · exact .next h
  · exact .next h

/-! ### Sys2Proof/Machine/Vesper.lean -/

theorem State.MemForm.setBlock {s : State} {c k v : Nat} (h : s.MemForm) : (s.setBlock c k v).MemForm :=
  h.storeSpad _ _

theorem State.MemForm.pushWaiter {s : State} {a y : Nat} {big : Bool} (h : s.MemForm) :
    (s.pushWaiter a y big).MemForm := by
  unfold State.pushWaiter
  refine .ite h.setDesc.setObj ?_
  split
  · exact h.setBlock.setDesc.setObj
  · refine .setObj (.setDesc ?_)
    split
    · exact (h.setCore _ _).setBlock.setBlock
    · exact (h.setCore _ _).setBlock

theorem State.MemForm.takeOverflow {s : State} {a : Nat} (h : s.MemForm) : (s.takeOverflow a).1.MemForm := by
  unfold State.takeOverflow
  dsimp only
  split
  · exact h
  · split
    · exact h
    · split
      · exact h.setBlock
      · exact (h.setBlock.setCore _ _).setDesc

theorem State.MemForm.popWaiter {s : State} {a : Nat} (h : s.MemForm) : (s.popWaiter a).1.MemForm := by
  unfold State.popWaiter
  dsimp only
  split
  · exact h
  · exact h.takeOverflow.setDesc.setObj

theorem State.MemForm.setFld {s : State} {a : Nat} {f : Fld} {v : Nat} (h : s.MemForm) : (s.setFld a f v).MemForm :=
  h.setDesc

theorem State.MemForm.carryGrant {s : State} {a : Nat} {w : Who} {mode : Nat} (h : s.MemForm) :
    (s.carryGrant a w mode).MemForm := by
  unfold State.carryGrant
  split
  · exact h
  · exact h.drop.tell
  · exact .ite (h.setObj.send _ _ _) h.drop.setObj.tell

theorem State.MemForm.grant {s : State} {a y : Nat} {w : Who} (h : s.MemForm) : (s.grant a y w).MemForm :=
  h.setDesc.setObj.carryGrant

theorem State.MemForm.passOn {s : State} {a n : Nat} (h : s.MemForm) : (s.passOn a n).MemForm := by
  induction n generalizing s with
  | zero => exact h
  | succ n ih =>
    have hp := h.popWaiter (a := a)
    unfold State.passOn
    split
    · next e =>
      rw [e] at hp
      exact hp.setFld
    · next e =>
      rw [e] at hp
      exact .ite (ih hp.setObj) hp.grant

theorem State.MemForm.unlock {s : State} {a : Nat} (h : s.MemForm) : (s.unlock a).MemForm := h.setObj.passOn

theorem State.MemForm.armNodes {s : State} {a : Nat} {on : Bool} (h : s.MemForm) : (s.armNodes a on).MemForm :=
  h.fold fun _ _ h => h.send _ _ _

theorem State.MemForm.barrierMode {s : State} {a m : Nat} (h : s.MemForm) : (s.barrierMode a m).MemForm :=
  .ite h.setDesc.setObj.armNodes (.ite h.setDesc.setObj.armNodes h.setDesc.setObj)

theorem State.MemForm.passNodes {s : State} {a phase : Nat} {passes : Node → Bool} (h : s.MemForm) :
    (s.passNodes a phase passes).MemForm :=
  h

theorem State.MemForm.release {s : State} {a : Nat} {result : Word} (h : s.MemForm) : (s.release a result).MemForm :=
  .ite h.setDesc.setRedCell.setObj.passNodes (h.setDesc.setRedCell.setObj.passNodes.send _ _ _)

theorem State.MemForm.placeAction {s : State} {a : Nat} (h : s.MemForm) : (s.placeAction a).MemForm :=
  (h.setCore _ _).setObj

theorem State.MemForm.startAction {s : State} {a mode : Nat} (h : s.MemForm) : (s.startAction a mode).MemForm :=
  .ite (h.setObj.send _ _ _) h.placeAction

theorem State.MemForm.phaseSwitch {s : State} {a : Nat} {done_ : Bool} (h : s.MemForm) :
    (s.phaseSwitch a done_).MemForm := by
  unfold State.phaseSwitch
  refine .ite h (.ite h.barrierMode (.ite ?_ h))
  split
  · exact h.barrierMode
  · exact h.barrierMode
  · exact h

theorem State.MemForm.endPhase {s : State} {a mode : Nat} {stepSwitched : Bool} (h : s.MemForm) :
    (s.endPhase a mode stepSwitched).MemForm :=
  .ite h.setDesc.phaseSwitch.startAction h.setDesc.phaseSwitch.release

theorem State.MemForm.noteArrival {s : State} {a lo hi launch : Nat} {pid : BitVec 16} {cores : List Nat}
    (h : s.MemForm) : (s.noteArrival a lo hi launch pid cores).MemForm :=
  h.setFld.setObj

theorem State.MemForm.contribute {s : State} {a : Nat} {xs : List (Word × Tag)} (h : s.MemForm) :
    (s.contribute a xs).MemForm :=
  h.setRedCell

theorem State.MemForm.countDirect {s : State} {a stamp : Nat} {xs : List (Word × Tag)} {launch : Nat}
    {pid : BitVec 16} {cores : List Nat} (h : s.MemForm) : (s.countDirect a stamp xs launch pid cores).MemForm := by
  unfold State.countDirect
  extract_lets s1 d mode b d1 d2 s2 tree s3
  have h2 : s2.MemForm := h.noteArrival.contribute.setDesc
  have h3 : s3.MemForm := .ite h2.barrierMode h2
  exact .ite h3.endPhase h3

theorem State.MemForm.countCombined {s : State} {a phase : Nat} {xs : List (Word × Tag)} {first last launch : Nat}
    {pid : BitVec 16} {cores : List Nat} (h : s.MemForm) :
    (s.countCombined a phase xs first last launch pid cores).MemForm := by
  unfold State.countCombined
  extract_lets s1 d d1 s2 s3
  have h2 : s2.MemForm := h.noteArrival.contribute.setDesc
  have h3 : s3.MemForm := by
    refine .ite h2 ?_
    split
    · exact h2.post _ _ _
    · exact h2
  exact .ite h3.endPhase h3

theorem State.MemForm.abandonWork {s : State} {a : Nat} (h : s.MemForm) : (s.abandonWork a).MemForm := by
  unfold State.abandonWork
  dsimp only
  split
  · refine .unlock ?_
    split
    · refine .send ?_ _ _ _
      exact h
    · exact h
  · exact .placeAction h
  · exact h

theorem State.MemForm.departSwitch {s : State} {a : Nat} (h : s.MemForm) : (s.departSwitch a).MemForm :=
  .ite h (.ite h.setDesc h.barrierMode)

theorem State.MemForm.ownerGone {s : State} {a : Nat} (h : s.MemForm) : (s.ownerGone a).MemForm :=
  h.setFld.abandonWork.departSwitch

/-! ### Sys2Proof/Machine/Sync.lean -/

theorem State.MemForm.onObject {s : State} {a : BitVec 5} {k : Nat → State} (h : s.MemForm)
    (hk : ∀ x, (k x).MemForm) : (s.onObject a k).MemForm := by
  unfold State.onObject
  dsimp only
  split
  · exact h.raise
  · exact hk _

theorem State.MemForm.onImage {s : State} {b : BitVec 5} {k : Nat → State} (h : s.MemForm) (hk : ∀ x, (k x).MemForm) :
    (s.onImage b k).MemForm := by
  unfold State.onImage
  dsimp only
  split
  · exact h.raise
  · exact h.waitRelaxed fun _ h => .ite h.raise (.ite h.raise (hk _))

theorem State.MemForm.askLock {s : State} {d : BitVec 5} {o : Nat} {r : SyncReq} (h : s.MemForm) :
    (s.askLock d o r).MemForm :=
  (h.send _ _ _).setPark

theorem execRel_memForm {s : State} {a : BitVec 5} (h : s.MemForm) : (execRel a s).MemForm :=
  .next (h.onObject fun _ => .ite h.raise (h.waitBoth fun _ h => h.ackRoom fun _ h => h.sendAcked.setMe))

theorem State.MemForm.arriveAt {s : State} {o : Nat} {v : Word} (h : s.MemForm) : (s.arriveAt o v).MemForm :=
  .ite (.setMe (.setMe h)) h.sendAcked.setMe

theorem execArrive_memForm {s : State} {a b : BitVec 5} (h : s.MemForm) : (execArrive a b s).MemForm :=
  .next (h.onObject fun _ => h.waitBoth fun _ h => h.ackRoom fun _ h => h.arriveAt)

theorem execAwait_memForm {s : State} {d a : BitVec 5} (h : s.MemForm) : (execAwait d a s).MemForm := by
  unfold execAwait
  refine .next (h.onObject fun _ => ?_)
  split
  · exact h.setMe.raise
  · refine .ite h.setMe.raise (h.waitRelaxed fun _ h => ?_)
    split
    · exact h.setMe.acquired
    · exact h.setPark

theorem execSyncserve_memForm {s : State} {a : BitVec 5} (h : s.MemForm) : (execSyncserve a s).MemForm :=
  .next (h.onObject fun _ => h.waitRelaxed fun _ h => .setPark (.send (.ite h.departOwner h) _ _ _))

theorem State.MemForm.finishRoutine {s : State} {o : Nat} {r : Routine} (h : s.MemForm) :
    (s.finishRoutine o r).MemForm := by
  unfold State.finishRoutine
  refine .ite h.raise ?_
  dsimp only
  split
  · exact h.sendAcked.setMe
  · exact .ite h.sendAcked.setMe h.sendAcked.setMe

theorem execSyncdone_memForm {s : State} {a : BitVec 5} (h : s.MemForm) : (execSyncdone a s).MemForm := by
  unfold execSyncdone
  refine .next (h.onObject fun _ => ?_)
  split
  · exact h.raise
  · exact h.waitBoth fun _ h => h.ackRoom fun _ h => h.finishRoutine

theorem State.MemForm.atHome {s : State} {id : Nat} {k : Msg → Nat → SyncReq → State} (h : s.MemForm)
    (hk : ∀ x y z, (k x y z).MemForm) : (s.atHome id k).MemForm := by
  unfold State.atHome
  split
  · split
    · exact .ite h (hk _ _ _)
    · exact h
  · exact h

theorem State.MemForm.stamped {s : State} {a : Nat} (h : s.MemForm) : (s.stamped a).MemForm :=
  .ite (h.storeSpad _ _) h.setFld

theorem State.MemForm.noteTile {s : State} {a core : Nat} (h : s.MemForm) : (s.noteTile a core).MemForm := by
  unfold State.noteTile
  dsimp only
  split
  · exact h.setObj
  · exact .ite h h.setFld

theorem State.MemForm.refuse {s : State} {m : Msg} {p : Park} {c : Cause} {v : Word} (h : s.MemForm) :
    (s.refuse m p c v).MemForm :=
  h.drop.tell

theorem State.MemForm.ackSync {s : State} {m : Msg} {a : Nat} {bad arrive : Bool} (h : s.MemForm) :
    (s.ackSync m a bad arrive).MemForm :=
  h.rebody

theorem State.MemForm.lockRequest {s : State} {m : Msg} {a req : Nat} {run : Option (Word × List Word)}
    (h : s.MemForm) : (s.lockRequest m a req run).MemForm := by
  unfold State.lockRequest
  extract_lets t p
  split
  · exact h.stamped.refuse
  · next t1 t2 _ _ _ _ _ =>
    have h2 : t2.MemForm := .ite h.stamped.noteTile.rebody h.stamped.noteTile.drop
    exact .ite h2.grant (.pushWaiter (.ite h2.setDesc h2))

theorem execAcqAtHome_memForm {s : State} {id : Nat} (h : s.MemForm) : (execAcqAtHome id s).MemForm := by
  unfold execAcqAtHome
  refine .next (h.atHome fun _ _ _ => ?_)
  split
  · exact .ite h h.lockRequest
  · exact h

theorem execLockrunAtHome_memForm {s : State} {id : Nat} (h : s.MemForm) : (execLockrunAtHome id s).MemForm := by
  unfold execLockrunAtHome
  refine .next (h.atHome fun _ _ _ => ?_)
  split
  · exact .ite h h.lockRequest
  · exact h

theorem State.MemForm.tryRequest {s : State} {m : Msg} {a : Nat} (h : s.MemForm) : (s.tryRequest m a).MemForm := by
  unfold State.tryRequest
  exact .ite h.stamped.refuse (.ite h.stamped.noteTile.drop.tell h.stamped.noteTile.drop.grant.tell)

theorem execTryacqAtHome_memForm {s : State} {id : Nat} (h : s.MemForm) : (execTryacqAtHome id s).MemForm := by
  unfold execTryacqAtHome
  refine .next (h.atHome fun _ _ _ => ?_)
  split
  · exact h.tryRequest
  · exact h

theorem execRelAtHome_memForm {s : State} {id : Nat} (h : s.MemForm) : (execRelAtHome id s).MemForm := by
  unfold execRelAtHome
  refine .next (h.atHome fun _ _ _ => ?_)
  dsimp only
  split
  · exact .ite h.stamped.ackSync h.stamped.noteTile.unlock.ackSync
  · exact .drop (.ite h.stamped.unlock h.stamped)
  · exact h

theorem execSyncserveAtHome_memForm {s : State} {id : Nat} (h : s.MemForm) : (execSyncserveAtHome id s).MemForm := by
  unfold execSyncserveAtHome
  refine .next (h.atHome fun _ _ _ => ?_)
  split
  · exact .ite h.stamped.refuse (.ite (h.stamped.noteTile.drop.setFld.setSlot _ _) h.stamped.noteTile.drop)
  · exact h

theorem execDirectArrival_memForm {s : State} {id : Nat} (h : s.MemForm) : (execDirectArrival id s).MemForm := by
  unfold execDirectArrival
  refine .next (h.atHome fun _ _ _ => ?_)
  split
  · exact .ite h.stamped.ackSync h.stamped.noteTile.countDirect.ackSync
  · exact h

theorem State.MemForm.ackMembers {s : State} {a : Nat} {ms : List (Who × Nat)} {bad : Bool} (h : s.MemForm) :
    (s.ackMembers a ms bad).MemForm :=
  h

theorem execCombinedArrival_memForm {s : State} {id : Nat} (h : s.MemForm) : (execCombinedArrival id s).MemForm := by
  unfold execCombinedArrival
  refine .next (h.atHome fun _ _ _ => ?_)
  split
  · exact .ite h.stamped.drop.ackMembers (h.stamped.drop.fold fun _ _ h => h.noteTile).countCombined.ackMembers
  · exact h

theorem execEngineArrival_memForm {s : State} {id : Nat} (h : s.MemForm) : (execEngineArrival id s).MemForm := by
  unfold execEngineArrival
  refine .next (h.atHome fun _ _ _ => ?_)
  split
  · refine .ite ?_ h.stamped.drop.noteTile.countDirect
    split
    · exact h.stamped.drop.post _ _ _
    · exact h.stamped.drop
  · exact h

theorem State.MemForm.routineEnd {s t : State} {w : Who} {a : Nat} {g4 : Word} (h : s.MemForm)
    (e : s.routineEnd w a g4 = some t) : t.MemForm := by
  unfold State.routineEnd at e
  split at e
  · split at e <;> cases e
    exact h.unlock
  · split at e <;> cases e
    refine .unlock ?_
    split
    · exact h.send _ _ _
    · exact h
  · split at e <;> cases e
    exact h.release
  · split at e <;> cases e
    exact h.release
  · cases e

theorem execSyncdoneAtHome_memForm {s : State} {id : Nat} (h : s.MemForm) : (execSyncdoneAtHome id s).MemForm := by
  unfold execSyncdoneAtHome
  refine .next (h.atHome fun _ _ _ => ?_)
  split
  · refine .ite h.stamped.ackSync ?_
    split
    · exact (h.stamped.noteTile.routineEnd ‹_›).ackSync
    · exact h.stamped.ackSync
  · exact h

theorem State.MemForm.requestMode {s : State} {a m : Nat} (h : s.MemForm) : (s.requestMode a m).MemForm :=
  .ite h (.ite h.setDesc h.barrierMode)

theorem State.MemForm.rewritePolicy {s : State} {a img : Nat} (h : s.MemForm) : (s.rewritePolicy a img).MemForm := by
  unfold State.rewritePolicy
  extract_lets d old renamed d1 s1 s2
  have h2 : s2.MemForm := .ite h.setDesc.ownerGone.tell h.setDesc
  exact .ite h2.requestMode h2

theorem execSyncpolAtHome_memForm {s : State} {id : Nat} (h : s.MemForm) : (execSyncpolAtHome id s).MemForm := by
  unfold execSyncpolAtHome
  refine .next (h.atHome fun _ _ _ => ?_)
  split
  · exact .ite h.stamped.refuse (.ite h.stamped.drop.status h.stamped.drop.noteTile.rewritePolicy.status)
  · exact h

theorem State.MemForm.freeObject {s : State} {a : Nat} (h : s.MemForm) : (s.freeObject a).MemForm :=
  .dropObj (.setFld (.setCore (.ite h.armNodes h) _ _))

theorem execSyncfreeAtHome_memForm {s : State} {id : Nat} (h : s.MemForm) : (execSyncfreeAtHome id s).MemForm := by
  unfold execSyncfreeAtHome
  refine .next (h.atHome fun _ _ _ => ?_)
  split
  · exact .ite h.stamped.refuse h.stamped.noteTile.freeObject.drop.status
  · exact h

theorem execOwnerDeparture_memForm {s : State} {id : Nat} (h : s.MemForm) : (execOwnerDeparture id s).MemForm := by
  unfold execOwnerDeparture
  refine .next (h.atHome fun _ _ _ => ?_)
  split
  · exact .ite h.stamped.drop.ownerGone h.stamped.drop
  · exact .ite h.stamped.drop.placeAction h.stamped.drop
  · exact h

theorem execKillMark_memForm {s : State} {id : Nat} (h : s.MemForm) : (execKillMark id s).MemForm := by
  unfold execKillMark
  refine .next (h.atHome fun _ _ _ => ?_)
  split
  · refine .ite h.stamped.drop (.ite h.stamped.drop.setObj ?_)
    split
    · exact h.stamped.drop
    · exact .ite h.stamped.drop.unlock h.stamped.drop
  · exact h

theorem State.MemForm.wakeWatch {s : State} {w : Who} {a : Nat} {r : Word} (h : s.MemForm) :
    (s.wakeWatch w a r).MemForm := by
  unfold State.wakeWatch
  dsimp only
  split
  · refine .ite h ?_
    split
    · exact .ite (h.setSlot _ _).acquired (h.setSlot _ _)
    · exact h.setSlot _ _
  · exact h

theorem execReleaseReachesCore_memForm {s : State} {id core : Nat} (h : s.MemForm) :
    (execReleaseReachesCore id core s).MemForm := by
  refine .next ?_
  split
  · split
    · refine .ite h ?_
      extract_lets s1 s2 x s3 todo
      have h2 : s2.MemForm := (h.fold fun _ _ h => h.wakeWatch).passNodes
      have h3 : s3.MemForm := .ite (h2.setCore _ _) h2
      exact .ite h3.drop h3.rebody
    · exact h
  · exact h

theorem State.MemForm.forwardNode {s : State} {n : Node} (h : s.MemForm) : (s.forwardNode n).MemForm := by
  unfold State.forwardNode
  refine .ite h (.ite h (.send ?_ _ _ _))
  exact h

theorem execNodeForward_memForm {s : State} {desc level unit : Nat} (h : s.MemForm) :
    (execNodeForward desc level unit s).MemForm := by
  unfold execNodeForward
  split
  · exact .next (.ite h h.forwardNode)
  · exact .next h

theorem execNodeArming_memForm {s : State} {id : Nat} (h : s.MemForm) : (execNodeArming id s).MemForm := by
  refine .next ?_
  split
  · split
    · refine .ite h ?_
      dsimp only
      split
      · exact h.drop.forwardNode
      · exact h
      · exact h.drop
    · exact h
  · exact h

theorem execDelegatedWorkAtOwner_memForm {s : State} {id : Nat} (h : s.MemForm) :
    (execDelegatedWorkAtOwner id s).MemForm := by
  unfold execDelegatedWorkAtOwner
  split
  · refine .next ?_
    split
    · exact .ite h (h.drop.setSlot _ _).acquired
    · exact h
  · exact .next h

theorem execLockrunResult_memForm {s : State} {id : Nat} (h : s.MemForm) : (execLockrunResult id s).MemForm := by
  unfold execLockrunResult
  split
  · refine .next ?_
    split
    · refine .ite h ?_
      dsimp only
      split
      · exact .ite h.drop.drop (h.drop.drop.setSlot _ _).acquired
      · exact h.drop.drop
    · exact h
  · exact .next h

/-! ### Sys2Proof/Machine/Ready.lean -/

theorem State.MemForm.endCycle {s : State} {core : Nat} {issued : Option Nat} (h : s.MemForm) :
    (s.endCycle core issued).MemForm :=
  h.takeWork.setCore _ _

/-! ### Sys2Proof/Machine/Host.lean -/

theorem State.MemForm.hostReads {s : State} {r : Option (List Byte)} (h : s.MemForm) : (s.hostReads r).MemForm :=
  h.setSys _

theorem State.MemForm.hostEnds {s : State} {bad : Bool} (h : s.MemForm) : (s.hostEnds bad).MemForm := h.setSys _

theorem execHostAccess_memForm {s : State} {addr n : Nat} {data : Option (List (BitVec 8))} (h : s.MemForm) :
    (execHostAccess addr n data s).MemForm := by
  unfold execHostAccess
  refine .next (.ite h (.ite (.ite (h.setSys _).hostEnds.hostReads (h.setSys _).hostEnds) ?_))
  split
  · exact .ite h (.ite h.hostEnds.hostReads.postAll h.hostEnds.hostReads)
  · exact .ite h (.ite h.hostEnds.postAll (h.hostEnds.physWrite _ _))

theorem State.MemForm.losePosted {s : State} (h : s.MemForm) : s.losePosted.MemForm := by
  unfold State.losePosted
  refine .fold (.fold h fun _ _ h => h.setBytes _ _) fun _ _ h => h.fold fun _ _ h => .setSlot ?_ _ _
  exact h

theorem State.MemForm.fenceHost {s : State} (h : s.MemForm) : s.fenceHost.MemForm := (h.losePosted.setSys _).postAll

theorem execHeartbeatCheck_memForm {s : State} (h : s.MemForm) : (execHeartbeatCheck s).MemForm :=
  .next (.ite h (.ite ((h.setSys _).setSys _) (.ite (h.setSys _)
    (.ite (h.setSys _).fenceHost ((h.setSys _).setSys _)))))

/-- Right after reset nothing is listed. -/
theorem State.memForm_reset : State.reset.MemForm := ⟨rfl, rfl, rfl⟩

theorem execDaybreak_memForm {s : State} {boot : BootReport} : (execDaybreak boot s).MemForm :=
  .next (State.memForm_reset.of_eq rfl rfl rfl)

/-! ### Sys2Proof/Machine/Passes.lean -/

theorem State.MemForm.opBegin {s : State} {tile : Nat} {o : GangOp} (h : s.MemForm) : (s.opBegin tile o).MemForm :=
  .ite (h.setTile _ _) h

theorem State.MemForm.passRow {s : State} {tile : Nat} {o : GangOp} {k : Nat} {fl : SMap Flags} (h : s.MemForm) :
    (s.passRow tile o k fl).1.MemForm := by
  unfold State.passRow
  split
  · exact h.drainRow
  · exact h.groupRow
  · exact h.setTile _ _

theorem State.MemForm.passRows {s : State} {tile : Nat} {o : GangOp} {n k : Nat} {fl : SMap Flags} (h : s.MemForm) :
    (s.passRows tile o n k fl).1.MemForm := by
  induction n generalizing s k fl with
  | zero => exact h
  | succ n ih => exact ih h.passRow

theorem State.MemForm.passAll {s : State} {tile : Nat} {o : GangOp} (h : s.MemForm) : (s.passAll tile o).MemForm :=
  h.opBegin.passRows.accrueCols

theorem State.MemForm.opRowPast {s : State} {tile : Nat} {load : Bool} (h : s.MemForm) :
    (s.opRowPast tile load).MemForm := by
  unfold State.opRowPast
  split
  · exact .ite h h.opBegin.passRow.updOp
  · exact h

theorem execShadowLoad_memForm {s : State} {tile : Nat} (h : s.MemForm) : (execShadowLoad tile s).MemForm :=
  h.onOp fun _ => h.passAll.endOp

theorem execPlaneSwap_memForm {s : State} {tile : Nat} (h : s.MemForm) : (execPlaneSwap tile s).MemForm :=
  h.onOp fun _ => (h.setTile _ _).endOp

theorem execAccumulatorZero_memForm {s : State} {tile : Nat} (h : s.MemForm) : (execAccumulatorZero tile s).MemForm :=
  h.onOp fun _ => (h.setTile _ _).endOp

theorem execStreamPass_memForm {s : State} {tile : Nat} (h : s.MemForm) : (execStreamPass tile s).MemForm :=
  h.onOp fun _ => h.passAll.endOp

theorem execDrain_memForm {s : State} {tile : Nat} (h : s.MemForm) : (execDrain tile s).MemForm :=
  h.onOp fun _ => h.passAll.endOp.drainWake

theorem execGroupedProduct_memForm {s : State} {tile : Nat} (h : s.MemForm) : (execGroupedProduct tile s).MemForm :=
  h.onOp fun _ => (h.passAll.setTile _ _).endOp.fold fun _ _ h => h.drainWake

theorem execCoverageInit_memForm {s : State} {tile : Nat} (h : s.MemForm) : (execCoverageInit tile s).MemForm :=
  h.onOp fun _ => (h.setTile _ _).endOp

theorem execCoverageReadback_memForm {s : State} {tile : Nat} (h : s.MemForm) :
    (execCoverageReadback tile s).MemForm :=
  h.onOp fun _ => h.arrayPut.endOp.fold fun _ _ h => h.setSlot _ _

theorem execCoverageCommit_memForm {s : State} {tile : Nat} (h : s.MemForm) : (execCoverageCommit tile s).MemForm :=
  h.onOp fun _ => h.passAll.endOp

theorem execCoverageProbe_memForm {s : State} {tile : Nat} (h : s.MemForm) : (execCoverageProbe tile s).MemForm := by
  unfold execCoverageProbe
  refine h.onOp fun _ => .ite h.passAll.coverEnd ?_
  split
  · exact h
  · exact .ite h.passAll.updOp (.ite h.spanFails h)

theorem execSpanJoin_memForm {s : State} {tile : Nat} (h : s.MemForm) : (execSpanJoin tile s).MemForm := by
  unfold execSpanJoin
  dsimp only
  split
  · exact .next (.ite h (h.fold fun _ _ h => h.accrueCols.coverEnd.countSpan))
  · exact .next h

theorem State.MemForm.runFn {s : State} {tile : Nat} {f : GangFn} (h : s.MemForm) : (s.runFn tile f).MemForm := by
  unfold State.runFn
  split
  · exact execShadowLoad_memForm h
  · exact execShadowLoad_memForm h
  · exact execPlaneSwap_memForm h
  · exact execAccumulatorZero_memForm h
  · exact execStreamPass_memForm h
  · exact execGroupedProduct_memForm h
  · exact execDrain_memForm h
  · exact execCoverageInit_memForm h
  · exact execCoverageProbe_memForm h
  · exact execCoverageCommit_memForm h
  · exact execCoverageReadback_memForm h

theorem State.MemForm.rerun {s : State} {tile : Nat} {o : GangOp} (h : s.MemForm) : (s.rerun tile o).MemForm :=
  ((h.setTile _ _).updOp.count _ _).runFn

/-! ### Sys2Proof/Machine/Fleet.lean -/

theorem State.MemForm.setRun {s : State} {p : Nat} {r : RunState} (h : s.MemForm) : (s.setRun p r).MemForm :=
  h.setPart _ _

theorem State.MemForm.eventide {s : State} {p : Nat} (h : s.MemForm) : (s.eventide p).MemForm := by
  unfold State.eventide
  refine .ite h ?_
  split
  · exact .setRun (.rollback h)
  · exact h
  · exact h
  · exact h.setPart _ _

theorem execEventideStop_memForm {s : State} {part : Nat} (h : s.MemForm) : (execEventideStop part s).MemForm := by
  unfold execEventideStop
  split
  · exact .next (.ite h h.setRun)
  · exact .next h

theorem State.MemForm.retime {s : State} {p : Nat} {f : Nat → Nat → Nat} (h : s.MemForm) : (s.retime p f).MemForm := h

theorem State.MemForm.shiftTimers {s : State} {p t : Nat} (h : s.MemForm) : (s.shiftTimers p t).MemForm := h.retime

theorem State.MemForm.countMapped {s : State} (h : s.MemForm) : s.countMapped.MemForm := h.count _ _

theorem State.MemForm.killNow {s : State} {w : Who} (h : s.MemForm) : (s.killNow w).MemForm :=
  h.journaled.kill.markRecord

theorem State.MemForm.endGang {s : State} {l : Launch} {y : Nat × Nat} (h : s.MemForm) : (s.endGang l y).MemForm := by
  unfold State.endGang
  refine .updLaunch ?_ _ _
  exact h.fold fun _ _ h => h.killNow

theorem State.MemForm.withdraw {s : State} {sg : Nat} (h : s.MemForm) : (s.withdraw sg).MemForm := by
  unfold State.withdraw
  extract_lets hit s1 less hits s2
  have h1 : s1.MemForm := by
    refine h.fold fun _ _ h => .updLaunch (.dequeue ?_) _ _
    exact h.fold fun _ _ h => h.endGang
  have h2 : s2.MemForm := h1.fold fun _ _ h => h.journaled.markRecord
  exact h2.of_eq rfl rfl rfl

theorem State.MemForm.mapOut {s : State} {u : FailedUnit} (h : s.MemForm) : (s.mapOut u).MemForm := by
  unfold State.mapOut
  split
  · exact (h.setSys _).countMapped
  · exact .ite h.withdraw.countMapped (h.setSys _).countMapped
  · exact h.setSys _
  · exact h.setSys _
  · exact h

theorem State.MemForm.eventideNow {s : State} {p : Nat} (h : s.MemForm) : (s.eventideNow p).MemForm :=
  h.journaled.eventide.markRecord

theorem State.MemForm.awaitMapOut {s : State} {u : FailedUnit} (h : s.MemForm) : (s.awaitMapOut u).MemForm :=
  h.setSys _

theorem State.MemForm.takeUp {s : State} {u : FailedUnit} (h : s.MemForm) : (s.takeUp u).MemForm :=
  .ite (h.awaitMapOut.fold fun _ _ h => h.eventideNow) h.mapOut

theorem State.MemForm.unitFails {s : State} {unit : FailedUnit} (h : s.MemForm) : (s.unitFails unit).MemForm := by
  unfold State.unitFails
  refine .ite h ?_
  dsimp only
  split
  · exact .awaitMapOut (.postAll (.count h _ _))
  · exact .ite (.takeUp (.postAll (.count h _ _))) (.awaitMapOut (.postAll (.count h _ _)))

theorem State.MemForm.takeUpAll {s : State} (h : s.MemForm) : s.takeUpAll.MemForm :=
  h.fold fun _ _ h => (h.setSys _).takeUp

theorem execEventideResume_memForm {s : State} {part : Nat} (h : s.MemForm) :
    (execEventideResume part s).MemForm := by
  unfold execEventideResume
  split
  · exact .next (.ite h (.setRun (.fold (.setSys h _) fun _ _ h => h.mapOut)))
  · exact .next (.ite h (.ite (h.shiftTimers.setPart _ _).eventide (h.shiftTimers.setPart _ _)))
  · exact .next h

theorem State.MemForm.cleared {s : State} {p : Nat} (h : s.MemForm) : (s.cleared p).MemForm := by
  obtain ⟨hmem, hstags, hpoison⟩ := h
  exact ⟨mapWf_filter _ _ _ hmem, mapWf_filter _ _ _ hstags, mapWf_filter _ _ _ hpoison⟩

theorem State.MemForm.restored {s : State} {p t : Nat} {i : Image} (h : s.MemForm) : (s.restored p t i).MemForm := by
  unfold State.restored
  extract_lets s1 s2 s3 s4 s5 s6 s7
  have h3 : s3.MemForm :=
    ((h.fold fun _ _ h => h.setSlot _ _).fold fun _ _ h => h.setCore _ _).fold fun _ _ h => h.setTile _ _
  have h6 : s6.MemForm :=
    ((h3.fold fun _ _ h => h.setBytes _ _).fold fun _ _ h => h.setSideTag _ _).fold fun _ _ h => h.setPoison _ _
  have h7 : s7.MemForm := h6.fold fun _ _ h => h.updLaunch _ _
  exact .retime (h7.of_eq rfl rfl rfl)

theorem State.MemForm.switchContext {s : State} {p k : Nat} (h : s.MemForm) : (s.switchContext p k).MemForm := by
  unfold State.switchContext
  split
  · refine .ite h ?_
    dsimp only
    split
    · exact (h.cleared.setPart _ _).restored
    · exact h.cleared.setPart _ _
  · exact h

theorem State.MemForm.countError {s : State} {u : FailedUnit} (h : s.MemForm) : (s.countError u).MemForm :=
  .ite (h.setSys _).unitFails (h.setSys _)

theorem execMatrixRerun_memForm {s : State} {tile : Nat} {good : Bool} (h : s.MemForm) :
    (execMatrixRerun tile good s).MemForm := by
  unfold execMatrixRerun
  refine .ite (.next h) ?_
  split
  · split
    · exact h.rerun
    · exact .next h
  · refine .next ?_
    split
    · exact .ite h.failOp h.failOp.countError
    · exact h

theorem execScrubError_memForm {s : State} {addr : Nat} (h : s.MemForm) : (execScrubError addr s).MemForm := by
  unfold execScrubError
  refine .next (.ite h (.ite (.ite h (.countError ?_)) (.ite h.markPoison.postAll.countError h)))
  split
  · exact h.markPoison.post _ _ _
  · exact h.markPoison

theorem State.MemForm.nfRefuse {s : State} {p : Nat} (h : s.MemForm) : (s.nfRefuse p).MemForm := h.setPart _ _

theorem execNightfallStopRequest_memForm {s : State} {part : Nat} (h : s.MemForm) :
    (execNightfallStopRequest part s).MemForm := by
  unfold execNightfallStopRequest
  refine .next (.ite h ?_)
  split
  · exact h.setPart _ _
  · exact h.nfRefuse

theorem execNightfallResumeRequest_memForm {s : State} {part : Nat} (h : s.MemForm) :
    (execNightfallResumeRequest part s).MemForm := by
  unfold execNightfallResumeRequest
  refine .next (.ite h ?_)
  split
  · refine .setPart ?_ _ _
    exact h
  · exact h.nfRefuse

theorem execNightfallStop_memForm {s : State} {part : Nat} (h : s.MemForm) : (execNightfallStop part s).MemForm := by
  unfold execNightfallStop
  split
  · exact .next (.ite h (.fold (.setRun (.rollback h)) fun _ _ h => h.storeSpad _ _))
  · exact .next h

theorem State.MemForm.applyWrite {s : State} {w : StateWrite} (h : s.MemForm) : (s.applyWrite w).MemForm := by
  unfold State.applyWrite
  dsimp only
  split
  · exact h.setSlot _ _
  · exact h.setSlot _ _
  · exact h.setSlot _ _
  · exact h.setSlot _ _
  · exact h.setSlot _ _
  · exact h.setSlot _ _
  · exact ((h.setBytes _ _).setSideTag _ _).setPoison _ _
  · exact .ite h.setEngine h.setEngine
  · exact h.setTile _ _
  · exact h.setTile _ _
  · exact h.setTile _ _
  · exact h.setTile _ _
  · exact h.setTile _ _

theorem execStoppedStateWrite_memForm {s : State} {w : StateWrite} (h : s.MemForm) :
    (execStoppedStateWrite w s).MemForm := by
  unfold execStoppedStateWrite
  split
  · exact .next (.ite (h.setPart _ _) h)
  · exact .next h

theorem State.MemForm.applyPoke {s : State} {p : Poke} (h : s.MemForm) : (s.applyPoke p).MemForm := by
  unfold State.applyPoke
  split
  · exact h.setSlot _ _
  · exact h.setTile _ _

theorem State.MemForm.poke {s : State} {w : Poke} (h : s.MemForm) : (s.poke w).MemForm := by
  unfold State.poke
  split
  · exact .ite (h.setPart _ _) h
  · exact h

theorem execNightfallResume_memForm {s : State} {part : Nat} (h : s.MemForm) :
    (execNightfallResume part s).MemForm := by
  refine .next ?_
  split
  · refine .ite h ?_
    extract_lets x s1 s2
    have h1 : s1.MemForm := h.shiftTimers.setPart _ _
    have h2 : s2.MemForm := (h1.fold fun _ _ h => h.applyPoke).fold fun _ _ h => h.applyWrite
    exact .ite h2.eventide h2
  · exact h

theorem State.MemForm.setTrace {s : State} {c : Nat} {t : Trace} (h : s.MemForm) : (s.setTrace c t).MemForm :=
  h.setCore _ _

theorem State.MemForm.startPartition {s : State} {p : Nat} (h : s.MemForm) : (s.startPartition p).MemForm := h

theorem State.MemForm.endPartition {s : State} {p : Nat} (h : s.MemForm) : (s.endPartition p).MemForm := h.setSys _

theorem State.MemForm.writeEntry {s : State} {part : Nat} {v : Word} (h : s.MemForm) :
    (s.writeEntry part v).MemForm := by
  unfold State.writeEntry
  extract_lets sgs x s1 t
  have ht : t.MemForm := .setPart (.ite h.endPartition h) _ _
  exact .ite (h.setPart _ _) (.ite ht.startPartition ht)

theorem State.MemForm.writeMask {s : State} {part : Nat} {v : Word} (h : s.MemForm) : (s.writeMask part v).MemForm :=
  .ite (h.setPart _ _) (h.setPart _ _)

theorem State.MemForm.setIsland {s : State} {i : Nat} {x : Island} (h : s.MemForm) : (s.setIsland i x).MemForm :=
  h.setSys _

theorem State.MemForm.sense {s : State} {i power temp : Nat} (h : s.MemForm) : (s.sense i power temp).MemForm :=
  .ite (h.setIsland.setSys _) h.setIsland

theorem State.MemForm.stepDown {s : State} {i : Nat} (h : s.MemForm) : (s.stepDown i).MemForm := .ite h h.setIsland

theorem execIslandStepDown_memForm {s : State} {island power temp : Nat} (h : s.MemForm) :
    (execIslandStepDown island power temp s).MemForm := by
  refine .next (.ite h ?_)
  extract_lets s1 s2
  have h2 : s2.MemForm := .ite h.sense.stepDown h.sense
  exact .ite (h2.fold fun _ _ h => h.stepDown) h2

theorem execThermalWithhold_memForm {s : State} {sg temp : Nat} (h : s.MemForm) :
    (execThermalWithhold sg temp s).MemForm := by
  unfold execThermalWithhold
  refine .next (.ite h (.ite h.sense.setIsland ?_))
  split
  · exact h.sense.setIsland
  · exact .ite (h.sense.setSys _) h.sense

theorem State.MemForm.writeIslctl {s : State} {i : Nat} {v : Word} (h : s.MemForm) : (s.writeIslctl i v).MemForm :=
  .ite h h.setIsland

theorem execTelemetrySample_memForm {s : State} (h : s.MemForm) : (execTelemetrySample s).MemForm :=
  .next (.ite h (.ite ((h.setSys _).count _ _) (((h.setSys _).physWrite _ _).setSys _)))

/-! ### Sys2Proof/Machine/Held.lean -/

theorem State.MemForm.rewalkFields {s : State} {m : Msg} {ripe : Bool} (h : s.MemForm) :
    (s.rewalkFields m ripe).MemForm := by
  unfold State.rewalkFields
  split
  · split
    · exact h.drop.putPieces
    · exact h.askHeld.rebody
    · exact h.drop
  · exact h

theorem execHeldRewalk_memForm {s : State} {id : Nat} (h : s.MemForm) : (execHeldRewalk id s).MemForm := by
  have h1 : { s with cached := false }.MemForm := h
  unfold execHeldRewalk
  split
  · split
    · split
      · exact .ite (.next h) (.next h1.translated)
      · exact .next h
    · exact .ite (.next h) (.next h1.rewalkFetch)
    · exact .ite (.next h) (.next h1.rewalkFields)
    · exact .next h
  · exact .next h

theorem execHoldTimeout_memForm {s : State} {id : Nat} (h : s.MemForm) : (execHoldTimeout id s).MemForm := by
  have h1 : { s with cached := false }.MemForm := h
  unfold execHoldTimeout
  dsimp only
  split
  · split
    · split
      · exact .next (.ite h1.translated h)
      · exact .next h
    · exact .next (.ite h.rebody h)
    · exact .next (.ite h1.rewalkFields h)
    · exact .next h
  · exact .next h

/-! ### Sys2Proof/Machine/Leader.lean -/

theorem State.MemForm.makeChange {s : State} {c : Change} (h : s.MemForm) : (s.makeChange c).MemForm := by
  unfold State.makeChange
  split
  · exact h.physWrite _ _
  · exact h.writeEntry
  · exact h.writeMask
  · exact h
  · exact h.eventide
  · exact .ite h.kill h

theorem State.MemForm.replay {s : State} (h : s.MemForm) : s.replay.MemForm :=
  h.fold fun _ _ h => h.makeChange.markRecord

theorem execLeaderTakeover_memForm {s : State} (h : s.MemForm) : (execLeaderTakeover s).MemForm := by
  refine .next ?_
  split
  · refine .ite h ?_
    extract_lets old down s1 y1 s2 y2 s3 s4
    have h2 : s2.MemForm := h.replay.setSys _
    have h3 : s3.MemForm := .ite (h2.setSys _) h2
    have h4 : s4.MemForm := .ite h3.msix h3
    exact .ite (h4.fold fun _ _ h => h.gateBusy).takeUpAll h4
  · exact h

theorem execFirmwareMemoryWrite_memForm {s : State} {addr : Nat} {data : List (BitVec 8)} {applied : Bool}
    (h : s.MemForm) : (execFirmwareMemoryWrite addr data applied s).MemForm :=
  .ite (.next h) (.ite trivial (.next (.ite (.ite h.makeChange.markRecord h) h.journaled)))

/-! ### Sys2Proof/Machine/Registers.lean -/

theorem State.MemForm.writeFq {s : State} {p off : Nat} {v : Word} (h : s.MemForm) : (s.writeFq p off v).MemForm := by
  unfold State.writeFq
  dsimp only
  split
  · exact h.setPart _ _
  · exact .ite (h.setPart _ _) h
  · exact h.setPart _ _
  · exact h.setPart _ _
  · exact h.setPart _ _
  · exact h

theorem State.MemForm.writeTrace {s : State} {c off : Nat} {v : Word} (h : s.MemForm) :
    (s.writeTrace c off v).MemForm := by
  unfold State.writeTrace
  dsimp only
  split
  · exact h.setTrace
  · exact h.setTrace
  · exact h.setTrace
  · exact h.setTrace
  · exact h

theorem execRegisterWrite_memForm {s : State} {off : Nat} {v : BitVec 64} (h : s.MemForm) :
    (execRegisterWrite off v s).MemForm := by
  unfold execRegisterWrite
  refine .next (.ite h (.ite (.ite h (h.setPart _ _)) (.ite h.writeFq (.ite h.writeTrace (.ite h.writeIslctl (.ite
    (h.setSys _) ?_))))))
  split
  · exact h.setSys _
  · exact h.setSys _
  · exact h.setSys _
  · exact .ite (h.setSys _) h
  · exact h.setSys _
  · exact h

/-! ### Sys2Proof/Machine/Issue.lean -/

theorem State.MemForm.unparked {s : State} {w : Who} (h : s.MemForm) : (s.unparked w).MemForm := by
  unfold State.unparked
  refine .setPark ?_
  split
  · exact h.drop
  · exact h

theorem State.MemForm.holdFetch {s : State} {w : Who} {va : Nat} {ask : Bool} (h : s.MemForm) :
    (s.holdFetch w va ask).MemForm :=
  .setPark (.send (.ite h.askMigration h) _ _ _)

theorem State.MemForm.wakeFrame {s : State} {w : Who} (h : s.MemForm) : (s.wakeFrame w).MemForm := by
  unfold State.wakeFrame
  split
  · exact h.setPark
  · exact h

theorem State.MemForm.frameStart {s : State} {core : Nat} (h : s.MemForm) : (s.frameStart core).MemForm :=
  .ite (h.goLive.fold fun _ _ h => h.wakeFrame) h

theorem State.MemForm.settleEvent {s before : State} (h : s.MemForm) : (s.settleEvent before).MemForm :=
  h.traceEntries

theorem State.MemForm.comeIn {s : State} {id : Nat} (h : s.MemForm) : (s.comeIn id).MemForm := by
  unfold State.comeIn
  split
  · exact h
  · split
    · exact h.enterWindow
    · exact h.fold fun _ _ h => .ite h h.hold
    · exact h
    · refine .ite h.hold (.ite h (.ite h.enterService (.ite h.enterReached (.ite h.unhold ?_))))
      split
      · exact h.drop.hear
      · exact h

theorem State.MemForm.maskVector {s : State} {v : Nat} {on : Bool} (h : s.MemForm) : (s.maskVector v on).MemForm :=
  .ite (h.setSys _) (h.setSys _)

theorem State.MemForm.fillPeer {s : State} {id port part : Nat} (h : s.MemForm) : (s.fillPeer id port part).MemForm :=
  .ite (h.setSys _) h

theorem State.MemForm.environment {s : State} {e : Sched} (h : s.MemForm) : (s.environment e).MemForm := by
  cases e with
  | tick => exact h.setSys _
  | evict => exact h.setCore _ _
  | attach => exact h.setSlot _ _
  | msix => exact h.maskVector
  | peer => exact h.fillPeer
  | peerMail => exact h.peerMail
  | peerAppend => exact h.peerAppend
  | image => exact h.loadImage
  | arrive => exact h.comeIn
  | merge => exact h.mergeServe
  | drain => exact h.drainPosted
  | hostWrite => exact h.hostWrites
  | row => exact h.opRowPast
  | context => exact h.switchContext
  | traceRead => exact h.setCore _ _
  | supervisor => exact h.placeSupervisor
  | serial => exact h.placeSerial
  | poke => exact h.poke
  | corrected => exact .ite (h.count _ _) h
  | zero => exact h.zeroMore
  | cycle | event => exact h

/-! ### Sys2Proof/Machine/Sparse.lean -/

theorem execAnorm_memForm {s : State} {a b : BitVec 5} (h : s.MemForm) : (execAnorm a b s).MemForm := by
  unfold execAnorm
  refine .next (h.smallOnly fun _ h => h.waitBoth fun _ h => ?_)
  split
  · exact h.raise
  · exact h.setPark

theorem execAnormResult_memForm {s : State} {core slot : Nat} (h : s.MemForm) :
    (execAnormResult core slot s).MemForm := by
  unfold execAnormResult
  dsimp only
  split
  · refine .next (.ite h ?_)
    split
    · exact h.trapAt
    · exact h.trapAt
    · exact h.setSlot _ _
  · exact .next h

theorem execAcert_memForm {s : State} {a : BitVec 5} (h : s.MemForm) : (execAcert a s).MemForm := by
  unfold execAcert
  refine .next (h.smallOnly fun _ h => h.waitBoth fun _ h => ?_)
  split
  · exact h.raise
  · exact h.issueRanges (fun _ h => h) fun _ h => h.queueCert

theorem State.MemForm.certWrite {s : State} {a x : Nat} {o : CertOut} {part launch : Nat} {pid : BitVec 16}
    (h : s.MemForm) : (s.certWrite a x o part launch pid).MemForm :=
  .ite h.arrayPut.arrayPut h.arrayPut.arrayPut.arrayPut

theorem execCertification_memForm {s : State} {tile : Nat} (h : s.MemForm) : (execCertification tile s).MemForm := by
  refine .next ?_
  split
  · refine .ite h ?_
    extract_lets x k waits bad o s1 y s2 s3
    have h3 : s3.MemForm := ((State.MemForm.ite h h.certWrite).setTile _ _).unregister
    refine .ite h3 ?_
    cases bad with
    | some p => exact h3.trapAt
    | none => exact h3.setSlot _ _
  · exact h

/-! ### Sys2Proof/Machine/Dispatch.lean -/

theorem exec_memForm {s : State} (h : s.MemForm) : ∀ i : Instr, Out.MemForm (exec i s)
  | .add .. | .sub .. | .and .. | .or .. | .xor .. | .andn .. | .sll .. | .srl .. | .sra .. | .slt .. | .sltu ..
  | .min .. | .max .. | .minu .. | .maxu .. | .clz .. | .ctz .. | .popc .. | .sextb .. | .sexth .. | .sextw ..
  | .zextw .. | .addw .. | .subw .. | .sllw .. | .srlw .. | .sraw .. | .addi .. | .andi .. | .ori .. | .xori ..
  | .slti .. | .sltiu .. | .slli .. | .srli .. | .srai .. | .lui .. | .addpc .. | .mul .. | .mulh .. | .mulhu ..
  | .mulw .. | .div .. | .divu .. | .rem .. | .remu .. | .mbstat .. | .dqlen .. | .sigget .. | .sigmin .. =>
    .next h.result
  | .beq .. | .bne .. | .blt .. | .bge .. | .bltu .. | .bgeu .. | .bp .. | .bpF .. => .next h.branch
  | .j .. => .next h.jump
  | .jl .. | .cmp .. | .pand .. | .por .. | .pxor .. | .vsel .. | .vpsum .. | .vwacc .. | .vdot4 .. | .vfclass ..
  | .sigset .. | .vsplat .. | .vins .. | .vperm .. => .next h.setMe
  | .jlr .. => .next (.ite h.raise h.setMe)
  | .lb .. | .lbu .. | .lh .. | .lhu .. | .lw .. | .lwu .. | .ld .. => .next h.loadG
  | .sb .. | .sh .. | .sw .. | .sd .. => .next h.storeG
  | .aadd .. | .aand .. | .aor .. | .axor .. | .amin .. | .amax .. | .aminu .. | .amaxu .. | .aswap .. | .acas .. =>
    .next h.atomG
  | .redadd .. | .redand .. | .redor .. | .redmin .. | .redmax .. => .next h.redG
  | .xcaddV .. | .xcaddG .. | .xcread .. | .xcclr .. => .next h.access
  | .fence => .next (h.waitRelaxed fun _ h => h.advance)
  | .fenceRed => .next (h.waitBoth fun _ h => h.advance)
  | .fenceAcq => .next (h.waitBoth fun _ h => h.acquired.advance)
  | .fenceSys => .next (h.waitBoth fun _ h => .ite h.raiseFree (.ite h.parkOn h.acquired.advance))
  | .migrate .. => .next (h.withMask fun _ => .ite h.raise h.migrateTo)
  | .migto .. => .next (h.withMask fun _ => .ite h.raise (.ite h.raise h.migrateTo))
  | .spawn .. => execSpawn_memForm h
  | .send .. | .sendt .. => .next h.sendMail
  | .recv .. | .recvt .. => .next (.ite h.raiseFree h.recvMail)
  | .append .. | .appendt .. => .next h.appendRing
  | .qbind .. => .next (h.smallOnly fun _ h => h.bindQueue)
  | .qwr .. | .vqwr .. => .next (h.smallOnly fun _ h => h.queueWrite)
  | .qrd .. | .vqrd .. => .next (h.smallOnly fun _ h => h.queueRead)
  | .qstat .. => .next (h.smallOnly fun _ h => h.result)
  | .qclose .. => .next (h.smallOnly fun _ h => h.closeQueue)
  | .syncinit .. => .next (h.onObject fun _ => h.onImage fun _ => .ite h.parkOn h.perform)
  | .acq .. | .tryacq .. => .next (h.onObject fun _ => .ite h.raise (h.waitRelaxed fun _ h => h.askLock))
  | .rel .. => execRel_memForm h
  | .lockrun .. => .next (h.onObject fun _ => .ite h.raise (h.waitBoth fun _ h => h.askLock))
  | .arrive .. => execArrive_memForm h
  | .await .. => execAwait_memForm h
  | .syncserve .. => execSyncserve_memForm h
  | .syncdone .. => execSyncdone_memForm h
  | .syncmode .. => .next (h.onObject fun _ => h.waitRelaxed fun _ h => .ite h.parkOn h.perform)
  | .syncpol .. => .next (h.onObject fun _ => h.onImage fun _ => (h.send _ _ _).setPark)
  | .syncfree .. => .next (h.onObject fun _ => h.waitRelaxed fun _ h => (h.send _ _ _).setPark)
  | .tcinit .. => execTcinit_memForm h
  | .tcdec .. => execTcdec_memForm h
  | .yield .. => execYield_memForm h
  | .exit => .next (h.waitBoth fun _ h => .ite h.raiseFree h.endThread.takeAll)
  | .quiesce => .next (h.waitBoth fun _ h => h.setPark)
  | .dqpush .. | .dqsplit .. => .next h.setDeque.result
  | .dqpop .. => execDqpop_memForm h
  | .dqsteal .. => execDqsteal_memForm h
  | .alloc .. | .free .. => .next (h.waitRelaxed fun _ h => (h.send _ _ _).setPark)
  | .vldF32 .. | .vldF64 .. | .vldbF32 .. | .vldbF64 .. => .next h.loadV
  | .vstF32 .. | .vstF64 .. => .next h.storeV
  | .vadd .. | .vsub .. | .vmul .. | .vmin .. | .vmax .. | .vminu .. | .vmaxu .. | .vand .. | .vor .. | .vxor ..
  | .vsll .. | .vsrl .. | .vsra .. | .vcmpeq .. | .vcmplt .. | .vcmpltu .. => .next h.intOp2
  | .vpsumF32 .. | .vfadd .. | .vfsub .. | .vfmul .. | .vfmin .. | .vfmax .. | .vfabs .. | .vfneg .. | .vfma ..
  | .vfms .. | .vfnma .. | .vfnms .. => .next h.fpFinish
  | .vfdiv .. | .vfsqrt .. | .vexp2 .. | .vlog2 .. | .vrcp .. | .vrsq .. => .next h.special
  | .vfcmpeq .. | .vfcmplt .. | .vfcmple .. => .next h.fpCmp
  | .bsig .. => .next (.ite h.jump h.advance)
  | .vext .. => .next (.ite h.result h.setMe)
  | .vhadd .. => .next h.finishFp
  | .vcvt .. => .next (.ite h.cvtToOl4 (.ite h.cvtFromOl4 h.cvtFinish))
  | .vcvti .. => .next h.cvtFinish
  | .mgang => execMgang_memForm h
  | .mldw .. | .mtld .. | .mswap | .mzero | .mstrm .. | .mgrp .. | .mdrain .. | .mcovi .. | .mcovp .. | .mcovc ..
  | .mcovr .. => .next h.gangIssue
  | .mstat => execMstat_memForm h
  | .anorm .. => execAnorm_memForm h
  | .acert .. => execAcert_memForm h
  | .afetch .. | .ego => .next (h.smallOnly fun _ h => h.issueJob)
  | .ecw .. => execEcw_memForm h
  | .ecr .. => execEcr_memForm h
  | .ewait .. => .next (h.smallOnly fun _ h => .ite h.result h.parkOn)
  | .cbinit .. => execCbinit_memForm h
  | .cbacq .. => .next (h.smallOnly fun _ h => .ite h.raise (.ite h.parkOn h.setBuf.result))
  | .cbrel .. => execCbrel_memForm h
  | .cbstat .. => .next (h.smallOnly fun _ h => h.setMe)
  | .syscall .. => .next (h.waitBoth fun _ h => h.raise)
  | .trap .. => .next h.raise
  | .eret => .next h.returnTrap
  | .brk .. => .next (.ite h.raise h.raise.holdDebug)
  | .nop => .next h.advance
  | .tstamp .. => .next h.setMe.result
  | .trig .. => .next h.traceEvent.result
  | .ptblw .. => .next (h.smallOnly fun _ h => .ite (h.setCore _ _).advance h.raise)
  | .csrr .. | .csrw .. | .csrs .. | .csrc .. => .next h.csrOp
  | .launch .. => execLaunch_memForm h
  | .lwait .. => .next (.ite h.raise (.ite h.raise (h.waitRelaxed fun _ h => h.sendAccess)))
  | .stagedTableGoesLive .. => .next (.ite h.goLive h)
  | .trapEntry .. => .next (.ite h.lateEntry h)
  | .slotTakesWork .. => .next (.ite h.takeAll h)
  | .contextPacketAdmission .. => execContextPacketAdmission_memForm h
  | .migrationReply .. => execMigrationReply_memForm h
  | .refusalBackoffExpiry .. => execRefusalBackoffExpiry_memForm h
  | .forwardingEntryExpiry .. => execForwardingEntryExpiry_memForm h
  | .lateReplyAtOrigin .. => .next (.ite h (h.setCore _ _))
  | .tcdecArrival .. => execTcdecArrival_memForm h
  | .quiesceSweep .. => execQuiesceSweep_memForm h
  | .activeMessage .. => execActiveMessage_memForm h
  | .dequeStealServed .. => execDequeStealServed_memForm h
  | .accessReply .. => execAccessReply_memForm h
  | .fireAndForgetAck .. => execFireAndForgetAck_memForm h
  | .edgeCoreServe .. => execEdgeCoreServe_memForm h
  | .specialFunctionResult .. => execSpecialFunctionResult_memForm h
  | .anormResult .. => execAnormResult_memForm h
  | .allocatorEngineStep .. => execAllocatorEngineStep_memForm h
  | .acqAtHome .. => execAcqAtHome_memForm h
  | .tryacqAtHome .. => execTryacqAtHome_memForm h
  | .relAtHome .. => execRelAtHome_memForm h
  | .lockrunAtHome .. => execLockrunAtHome_memForm h
  | .syncserveAtHome .. => execSyncserveAtHome_memForm h
  | .directArrival .. => execDirectArrival_memForm h
  | .combinedArrival .. => execCombinedArrival_memForm h
  | .engineArrival .. => execEngineArrival_memForm h
  | .syncdoneAtHome .. => execSyncdoneAtHome_memForm h
  | .syncpolAtHome .. => execSyncpolAtHome_memForm h
  | .syncfreeAtHome .. => execSyncfreeAtHome_memForm h
  | .ownerDeparture .. => execOwnerDeparture_memForm h
  | .killMark .. => execKillMark_memForm h
  | .releaseReachesCore .. => execReleaseReachesCore_memForm h
  | .nodeArming .. => execNodeArming_memForm h
  | .nodeForward .. => execNodeForward_memForm h
  | .delegatedWorkAtOwner .. => execDelegatedWorkAtOwner_memForm h
  | .lockrunResult .. => execLockrunResult_memForm h
  | .mailboxDelivery .. => execMailboxDelivery_memForm h
  | .appendAtRing .. => execAppendAtRing_memForm h
  | .appendRetry .. => .next (.ite h.retryRing h)
  | .contextGone .. => .next (.ite h ((h.fold fun _ _ h => h.tell).setSys _))
  | .jobStart .. => execJobStart_memForm h
  | .cbSlotStart .. => execCbSlotStart_memForm h
  | .cbSlotFilled .. => execCbSlotFilled_memForm h
  | .jobCompletion .. => execJobCompletion_memForm h
  | .jobSuspension .. => execJobSuspension_memForm h
  | .rangeTableRoom .. => execRangeTableRoom_memForm h
  | .gangJoin .. => execGangJoin_memForm h
  | .mgangRelease .. => execMgangRelease_memForm h
  | .gangLeave .. => .next (.ite h.gangLeft h)
  | .shadowLoad .. => execShadowLoad_memForm h
  | .planeSwap .. => execPlaneSwap_memForm h
  | .accumulatorZero .. => execAccumulatorZero_memForm h
  | .streamPass .. => execStreamPass_memForm h
  | .drain .. => execDrain_memForm h
  | .groupedProduct .. => execGroupedProduct_memForm h
  | .coverageInit .. => execCoverageInit_memForm h
  | .coverageProbe .. => execCoverageProbe_memForm h
  | .spanJoin .. => execSpanJoin_memForm h
  | .coverageCommit .. => execCoverageCommit_memForm h
  | .coverageReadback .. => execCoverageReadback_memForm h
  | .matrixRerun .. => execMatrixRerun_memForm h
  | .certification .. => execCertification_memForm h
  | .syscallGateReply .. => execSyscallGateReply_memForm h
  | .qdb .. => execQdb_memForm h
  | .launchRecordSent .. => execLaunchRecordSent_memForm h
  | .dependenceReread .. => execDependenceReread_memForm h
  | .queueAging .. => execQueueAging_memForm h
  | .launchHeadCheck .. => execLaunchHeadCheck_memForm h
  | .selectAndReserve .. => execSelectAndReserve_memForm h
  | .prepare .. => execPrepare_memForm h
  | .commit .. => execCommit_memForm h
  | .launchCompletion .. => execLaunchCompletion_memForm h
  | .eventideRequest .. => .next (.ite (h.osChange fun _ h => h.eventide) h)
  | .eventideStop .. => execEventideStop_memForm h
  | .eventideResume .. => execEventideResume_memForm h
  | .kill .. => .next (.ite (h.osChange fun _ h => h.kill) h)
  | .heldRewalk .. => execHeldRewalk_memForm h
  | .holdTimeout .. => execHoldTimeout_memForm h
  | .translationWalk .. => execTranslationWalk_memForm h
  | .shootdown .. => .next (.ite (.ite h.shootAt h.journaled) h)
  | .jobResume .. => execJobResume_memForm h
  | .jobAbort .. => execJobAbort_memForm h
  | .hostAccess .. => execHostAccess_memForm h
  | .hbhostWrite .. | .unfence .. | .livenessStamp | .quoteReady => .next (.ite (h.setSys _) h)
  | .heartbeatCheck => execHeartbeatCheck_memForm h
  | .hbdevTick => .next (.ite h (.ite (h.setSys _) ((h.setSys _).physWrite _ _)))
  | .pairStop .. => .next (h.setSys _)
  | .leaderTakeover => execLeaderTakeover_memForm h
  | .dutyAdoption .. => .next (.ite h (h.gateBusy.setSys _))
  | .dusk .. => .next (.ite h ((h.setSys _).count _ _))
  | .duskResume .. => .next (.ite ((h.setSys _).count _ _) h)
  | .daybreak .. => execDaybreak_memForm
  | .unitFailure .. => .next h.unitFails
  | .scrubError .. => execScrubError_memForm h
  | .nightfallStopRequest .. => execNightfallStopRequest_memForm h
  | .nightfallResumeRequest .. => execNightfallResumeRequest_memForm h
  | .nightfallStop .. => execNightfallStop_memForm h
  | .nightfallResume .. => execNightfallResume_memForm h
  | .trctlWrite .. => .next (.ite h h.setTrace)
  | .partitionEntryWrite .. => .next (.ite h (.ite (h.setPart _ _) (h.osChange fun _ h => h.writeEntry)))
  | .largeCoreMaskWrite .. => .next (.ite h (.ite (h.setPart _ _) (h.osChange fun _ h => h.writeMask)))
  | .islandStepDown .. => execIslandStepDown_memForm h
  | .islandStepUp .. => .next (.ite h (.ite h.sense h.sense.setIsland))
  | .thermalWithhold .. => execThermalWithhold_memForm h
  | .telemetrySample => execTelemetrySample_memForm h
  | .quoteRequest => .next (.ite h (.ite (h.setSys _) (h.setSys _)))
  | .registerWrite .. => execRegisterWrite_memForm h
  | .debuggerRelease .. => .next (.ite h.setPark h)
  | .stoppedStateWrite .. => execStoppedStateWrite_memForm h
  | .firmwareMemoryWrite .. => execFirmwareMemoryWrite_memForm h
  | .rangeEntryRemoval .. => execRangeEntryRemoval_memForm h
  | .linkRetry .. => .next (.ite h (h.count _ _))

/-! ### Sys2Proof/Machine/Step.lean -/

/-- The state of a fetch, where it has one, is in form. -/
def Fetch.MemForm : Fetch → Prop
  | .word _ t | .over t => t.MemForm
  | .missing _ => True

/-- The state that a cycle comes to, where it has one, is in form. -/
def Ready.MemForm : Ready → Prop
  | .run _ _ t | .over t => t.MemForm
  | .missing _ => True

theorem Fetch.MemForm.ite {c : Prop} [Decidable c] {a b : Fetch} (ha : a.MemForm) (hb : b.MemForm) :
    Fetch.MemForm (if c then a else b) := iteInduction (fun _ => ha) fun _ => hb

theorem State.MemForm.fetch {s : State} {w : Who} {ripe : Bool} (h : s.MemForm) : (s.fetch w ripe).MemForm := by
  refine .ite h.trapAt ?_
  split
  · exact h.trapAt
  · exact h.holdFetch
  · exact .ite trivial (.ite h.trapAt (.ite h.trapAt h.keepWalk))

theorem State.MemForm.interlock {s : State} {w : Who} {i : Instr} (h : s.MemForm) : (s.interlock w i).MemForm := by
  unfold State.interlock
  split
  · exact h
  · split
    · exact h.parkOn
    · exact h.trapAt

theorem State.MemForm.issueSlot {s : State} {w : Who} (h : s.MemForm) : (s.issueSlot w).MemForm := by
  have hf := h.unparked (w := w) |>.fetch (w := w) (ripe := s.fetchRipe (s.slot w))
  refine iteInduction (motive := Ready.MemForm) (fun _ => h.lateEntry) fun _ => ?_
  dsimp only
  split
  · trivial
  · next e => exact (e ▸ hf : Fetch.MemForm (.over _))
  · next e =>
    have ht : Fetch.MemForm (.word _ _) := e ▸ hf
    split
    · exact State.MemForm.trapAt ht
    · exact State.MemForm.interlock ht

theorem State.MemForm.cycle {s : State} {core : Nat} {cached : Bool} (h : s.MemForm) :
    (s.cycle core cached).MemForm := by
  unfold State.cycle
  extract_lets s1 p s2
  have h2 : s2.MemForm := h.frameStart.setCore _ _
  cases p with
  | none => exact h2
  | some k => exact State.MemForm.issueSlot (h2.of_eq rfl rfl rfl)

theorem stepCycle_memForm {s : State} {core : Nat} {cached : Bool} (h : s.MemForm) :
    (stepCycle core cached s).MemForm := by
  have hc := h.cycle (core := core) (cached := cached)
  refine .ite h ?_
  split
  · next e => exact State.MemForm.endCycle (State.MemForm.traceEntries (e ▸ hc : Ready.MemForm (.over _)))
  · trivial
  · next w i t e =>
    have hx := exec_memForm (e ▸ hc : Ready.MemForm (.run _ _ _)) i
    split
    · next e => exact State.MemForm.endCycle (State.MemForm.traceIssue (e ▸ hx : Out.MemForm (.next _)))
    · trivial
    · trivial

theorem stepEvent_memForm {s : State} {i : Instr} {cached : Bool} (h : s.MemForm) :
    (stepEvent i cached s).MemForm := by
  have hc : { s with cached := cached }.MemForm := h
  have hx := exec_memForm hc i
  refine .ite h ?_
  split
  · next e => exact State.MemForm.settleEvent (e ▸ hx : Out.MemForm (.next _))
  · trivial
  · trivial

theorem step_memForm {s : State} (h : s.MemForm) : Out.MemForm (step s) := by
  unfold step
  split
  · exact stepCycle_memForm h
  · exact stepCycle_memForm h
  · exact stepEvent_memForm h
  · next rest _ _ _ =>
    have hr : { s with agenda := rest }.MemForm := h
    exact .next hr.environment.settleEvent

/-- Settles O58: every function of the model that changes memory, side tags or poison marks does so by `mapSet`, by a
filter, or by the reset of a daybreak, so each keeps their form, and `exec` and the cycle are made of these. -/
theorem memFormKept : Obligations.MemFormKept := by
  unfold Obligations.MemFormKept
  intro s t h e
  exact (e ▸ step_memForm h : Out.MemForm (.next t))

end Sys2Proof.Machine
end

section
/-! PROOFS.  O59: every live, staged and saved pipe table is legal (R10, R11, R13).

One lemma for each function of the model that makes a state, in the model's order and under the names of its files:
`h.foo : (s.foo ..).PipesOk` from `h : s.PipesOk`.  What each of them does to memory, slots, tiles and messages leaves
the tables alone by definition; a core's record is written with the tables it had (`PipesOk.setCore`), but by PTBLW
(`Core.PipesOk.stage`), by the staged table's going live (`PipesOk.goLive`) and by an image put back
(`PipesOk.restored`); and `exec_pipesOk` and `step_pipesOk` are the last of the lemmas. -/

namespace Sys2Proof.Machine

/-! ### Tables of cores, images and partitions -/

/-- The pipe tables of a core are legal. -/
def Core.PipesOk (k : Core) : Prop := pipeOk k.live = true ∧ ∀ t, k.staged = some t → pipeOk t = true

/-- The pipe tables of an image's cores are legal. -/
def Image.PipesOk (i : Image) : Prop := ∀ x ∈ i.cores, x.2.PipesOk

/-- The pipe tables of a partition's images are legal. -/
def Partition.PipesOk (p : Partition) : Prop := ∀ i ∈ p.images, i.PipesOk

theorem Core.PipesOk.stage {k : Core} (h : k.PipesOk) {t : Vector (BitVec 4) 32} (ht : pipeOk t = true) :
    { k with staged := some t }.PipesOk :=
  ⟨h.1, fun _ e => Option.some.inj e ▸ ht⟩

theorem Core.PipesOk.setBlocks {k : Core} {l : List Nat} (h : k.PipesOk) : { k with blocks := l }.PipesOk := h

theorem Core.PipesOk.keep {k now : Core} (h : k.PipesOk) : (k.keep now).PipesOk := h

theorem Core.pipesOk_reset : Core.reset.PipesOk := ⟨by decide +kernel, nofun⟩

theorem mapGet_of_mem {α : Type} {P : α → Prop} {m : SMap α} {d : α} (hd : P d) (hm : ∀ x ∈ m, P x.2) (k : Nat) :
    P (mapGet m d k) := by
  induction m with
  | nil => exact hd
  | cons x r ih =>
    unfold mapGet
    split
    · exact hm x List.mem_cons_self
    · exact ih fun y hy => hm y (List.mem_cons_of_mem _ hy)

theorem mapPut_forall {α : Type} {P : α → Prop} {m : SMap α} {k : Nat} {v : α} (hm : ∀ x ∈ m, P x.2) (hv : P v) :
    ∀ x ∈ mapPut m k v, P x.2 := by
  intro x hx
  rcases mem_mapInsert _ _ _ _ hx with rfl | hx
  · exact hv
  · exact hm x (mapErase_subset _ _ _ hx)

theorem State.PipesOk.of_eq {s t : State} (h : s.PipesOk) (h1 : t.cores = s.cores) (h2 : t.parts = s.parts) :
    t.PipesOk := by
  unfold State.PipesOk
  rw [h1, h2]
  exact h

/-- A core that no entry lists has the reset table. -/
theorem State.PipesOk.core {s : State} (h : s.PipesOk) (c : Nat) : (s.core c).PipesOk :=
  mapGet_of_mem Core.pipesOk_reset h.1 c

theorem State.PipesOk.part {s : State} (h : s.PipesOk) (p : Nat) : (s.part p).PipesOk :=
  mapGet_of_mem (P := Partition.PipesOk) (fun _ hi => absurd hi List.not_mem_nil) h.2 p

theorem State.PipesOk.putCore {s : State} (h : s.PipesOk) (c : Nat) {x : Core} (hx : x.PipesOk) : (s.setCore c x).PipesOk :=
  ⟨mapPut_forall h.1 hx, h.2⟩

/-- A core written with the tables it had. -/
theorem State.PipesOk.setCore {s : State} {c : Nat} {x : Core} (h : s.PipesOk) (hl : x.live = (s.core c).live)
    (hs : x.staged = (s.core c).staged) : (s.setCore c x).PipesOk :=
  h.putCore c (by unfold Core.PipesOk; rw [hl, hs]; exact h.core c)

theorem State.PipesOk.putPart {s : State} (h : s.PipesOk) (p : Nat) {x : Partition} (hx : x.PipesOk) :
    (s.setPart p x).PipesOk :=
  ⟨h.1, mapPut_forall (P := Partition.PipesOk) h.2 hx⟩

/-- A partition written with the images it had. -/
theorem State.PipesOk.setPart {s : State} {p : Nat} {x : Partition} (h : s.PipesOk)
    (hi : x.images = (s.part p).images) : (s.setPart p x).PipesOk :=
  h.putPart p (by unfold Partition.PipesOk; rw [hi]; exact h.part p)

/-- A pass over the cores that keeps each core's tables legal. -/
theorem State.PipesOk.mapCores {s : State} (h : s.PipesOk) {t : State}
    {f : Nat × Core → Nat × Core} (hc : t.cores = s.cores.map f) (hp : t.parts = s.parts)
    (hf : ∀ x, x.2.PipesOk → (f x).2.PipesOk) : t.PipesOk := by
  unfold State.PipesOk
  rw [hc, hp]
  exact ⟨List.forall_mem_map.mpr fun x hx => hf x (h.1 x hx), h.2⟩

theorem State.PipesOk.foldl {α : Type} {f : State → α → State} (hf : ∀ s a, State.PipesOk s → (f s a).PipesOk) (l : List α)
    {s : State} (h : s.PipesOk) : (l.foldl f s).PipesOk := by
  induction l generalizing s with
  | nil => exact h
  | cons a r ih => exact ih (hf s a h)

/-! ### Writes that touch no core and no partition -/

theorem State.PipesOk.setByte {s : State} (h : s.PipesOk) (k : Nat) (b : Byte) : (s.setByte k b).PipesOk := h

theorem State.PipesOk.setBytes {s : State} (h : s.PipesOk) (k : Nat) (bs : List Byte) : (s.setBytes k bs).PipesOk := by
  induction bs generalizing s k with
  | nil => exact h
  | cons b r ih => exact ih (h.setByte k b) (k + 1)

theorem State.PipesOk.setNat {s : State} (h : s.PipesOk) (k n x : Nat) : (s.setNat k n x).PipesOk := h.setBytes _ _

theorem State.PipesOk.setSideTag {s : State} (h : s.PipesOk) (k : Nat) (t : Tag) : (s.setSideTag k t).PipesOk := h

theorem State.PipesOk.setPoison {s : State} (h : s.PipesOk) (k : Nat) (b : Bool) : (s.setPoison k b).PipesOk := h

theorem State.PipesOk.clearTags {s : State} (h : s.PipesOk) (k n : Nat) : (s.clearTags k n).PipesOk :=
  State.PipesOk.foldl (fun _ _ h => h.setSideTag _ _) _ h

theorem State.PipesOk.storeSpad {s : State} (h : s.PipesOk) (k : Nat) (bs : List Byte) : (s.storeSpad k bs).PipesOk :=
  (h.setBytes k bs).clearTags _ _

theorem State.PipesOk.clearWhole {s : State} (h : s.PipesOk) (k n : Nat) : (s.clearWhole k n).PipesOk := by
  unfold State.clearWhole
  split
  · exact h
  · exact State.PipesOk.foldl (fun _ _ h => h.setPoison _ _) _ h

theorem State.PipesOk.physWrite {s : State} (h : s.PipesOk) (k : Nat) (bs : List Byte) : (s.physWrite k bs).PipesOk :=
  (h.setBytes k bs).clearWhole _ _

theorem State.PipesOk.setSlot {s : State} (h : s.PipesOk) (w : Who) (x : Slot) : (s.setSlot w x).PipesOk := h
theorem State.PipesOk.setTile {s : State} (h : s.PipesOk) (t : Nat) (x : Tile) : (s.setTile t x).PipesOk := h
theorem State.PipesOk.setSys {s : State} (h : s.PipesOk) (x : Sys) : (s.setSys x).PipesOk := h
theorem State.PipesOk.send {s : State} (h : s.PipesOk) (w : Who) (r : BitVec 5) (b : Body) : (s.send w r b).PipesOk := h
theorem State.PipesOk.updLaunch {s : State} (h : s.PipesOk) (id : Nat) (f : Launch → Launch) : (s.updLaunch id f).PipesOk := h
theorem State.PipesOk.count {s : State} (h : s.PipesOk) (off n : Nat) : (s.count off n).PipesOk := h

theorem State.PipesOk.msix {s : State} {v : Nat} (h : s.PipesOk) : (s.msix v).PipesOk := by
  unfold State.msix
  split
  · exact h
  · split <;> exact h

theorem State.PipesOk.signal {s : State} (h : s.PipesOk) (sig : Word) (p : List Word) (l : Nat) : (s.signal sig p l).PipesOk := by
  unfold State.signal
  split
  · exact h
  · exact h.msix
  · exact h

theorem State.foldl_parts {α : Type} {f : State → α → State} (hf : ∀ s a, (f s a).parts = s.parts) (l : List α) (s : State) :
    (l.foldl f s).parts = s.parts := by
  induction l generalizing s with
  | nil => rfl
  | cons a r ih => rw [List.foldl_cons, ih, hf]

theorem State.setBytes_parts (s : State) (k : Nat) (bs : List Byte) : (s.setBytes k bs).parts = s.parts := by
  induction bs generalizing s k with
  | nil => rfl
  | cons b r ih => exact ih (s.setByte k b) (k + 1)

theorem State.physWrite_parts (s : State) (k : Nat) (bs : List Byte) : (s.physWrite k bs).parts = s.parts := by
  unfold State.physWrite State.clearWhole
  split
  · exact s.setBytes_parts k bs
  · exact (State.foldl_parts (f := fun s c => s.setPoison c false) (fun _ _ => rfl) _ _).trans (s.setBytes_parts k bs)

theorem State.PipesOk.post {s : State} (h : s.PipesOk) (p l : Nat) (r : FaultRec) : (s.post p l r).PipesOk := by
  have h1 := h.updLaunch l (fun l => { l with faults := min (2 ^ 32 - 1) (l.faults + 1) })
  unfold State.post
  dsimp only
  generalize s.updLaunch l (fun l => { l with faults := min (2 ^ 32 - 1) (l.faults + 1) }) = t at *
  have h2 := fun k bs => (h1.physWrite k bs).setPart (p := p) (x := { t.part p with fqtail := (t.part p).fqtail + 1 })
    (by simp only [State.part, State.physWrite_parts])
  split
  · refine .count ?_ _ _
    exact .setPart h1 rfl
  · split
    · exact State.PipesOk.signal (h2 _ _) _ _ _
    · exact h2 _ _

/-- An outcome's state, where it has one, has legal tables. -/
def Out.PipesOk : Out → Prop
  | .next t => t.PipesOk
  | _ => True

theorem State.PipesOk.ite {c : Prop} [Decidable c] {a b : State} (ha : a.PipesOk) (hb : b.PipesOk) :
    (if c then a else b).PipesOk :=
  iteInduction (fun _ => ha) fun _ => hb

theorem State.PipesOk.ite_of {c : Prop} [Decidable c] {a b : State} (ha : c → a.PipesOk) (hb : ¬ c → b.PipesOk) :
    (if c then a else b).PipesOk :=
  iteInduction ha hb

theorem State.PipesOk.iteFst {β : Type} {c : Prop} [Decidable c] {a b : State × β} (ha : a.1.PipesOk)
    (hb : b.1.PipesOk) : (if c then a else b).1.PipesOk :=
  iteInduction (motive := fun x : State × β => x.1.PipesOk) (fun _ => ha) fun _ => hb

theorem Out.PipesOk.next {t : State} (h : t.PipesOk) : Out.PipesOk (.next t) := h

theorem Out.PipesOk.ite {c : Prop} [Decidable c] {a b : Out} (ha : a.PipesOk) (hb : b.PipesOk) :
    Out.PipesOk (if c then a else b) := iteInduction (fun _ => ha) fun _ => hb

/-- `State.PipesOk.foldl` with the state first, so that it can be chained. -/
theorem State.PipesOk.fold {α : Type} {f : State → α → State} {l : List α} {s : State} (h : s.PipesOk)
    (hf : ∀ t a, t.PipesOk → (f t a).PipesOk) : (l.foldl f s).PipesOk :=
  State.PipesOk.foldl hf l h

/-! ### Sys2Proof/Machine/Ops.lean -/

theorem State.PipesOk.setMe {s : State} {x : Slot} (h : s.PipesOk) : (s.setMe x).PipesOk := h.setSlot _ _

theorem State.PipesOk.setG {s : State} {r : BitVec 5} {v : Word} (h : s.PipesOk) : (s.setG r v).PipesOk := h.setMe

theorem State.PipesOk.setGn {s : State} {n : Nat} {v : Word} (h : s.PipesOk) : (s.setGn n v).PipesOk := h.setG

theorem State.PipesOk.advance {s : State} (h : s.PipesOk) : s.advance.PipesOk := h.setMe

theorem State.PipesOk.jump {s : State} {t : Word} (h : s.PipesOk) : (s.jump t).PipesOk := h.setMe

theorem State.PipesOk.result {s : State} {r : BitVec 5} {v : Word} (h : s.PipesOk) : (s.result r v).PipesOk := h.setMe

theorem State.PipesOk.drop {s : State} {id : Nat} (h : s.PipesOk) : (s.drop id).PipesOk := h

theorem State.PipesOk.rebody {s : State} {id : Nat} {b : Body} (h : s.PipesOk) : (s.rebody id b).PipesOk := h

theorem State.PipesOk.setPark {s : State} {w : Who} {p : Park} (h : s.PipesOk) : (s.setPark w p).PipesOk :=
  h.setSlot _ _

theorem State.PipesOk.parkOn {s : State} {c : Cond} (h : s.PipesOk) : (s.parkOn c).PipesOk := by
  unfold State.parkOn
  split
  · exact h.setMe
  · exact .setMe h

theorem State.PipesOk.countSent {s : State} {c launch : Nat} (h : s.PipesOk) : (s.countSent c launch).PipesOk :=
  h.setCore rfl rfl

theorem State.PipesOk.countReceived {s : State} {c launch : Nat} (h : s.PipesOk) :
    (s.countReceived c launch).PipesOk :=
  h.setCore rfl rfl

theorem State.PipesOk.markPoison {s : State} {k : Nat} (h : s.PipesOk) : (s.markPoison k).PipesOk :=
  .ite h ((h.setPoison _ _).count _ _)

theorem State.PipesOk.postAll {s : State} {r : FaultRec} (h : s.PipesOk) : (s.postAll r).PipesOk :=
  h.fold fun _ _ h => h.post _ _ _

theorem State.PipesOk.handClaim {s : State} {tile : Nat} (h : s.PipesOk) : (s.handClaim tile).PipesOk := by
  unfold State.handClaim
  refine .ite h ?_
  split
  · exact h.setTile _ _
  · exact h

theorem State.PipesOk.dropClaim {s : State} {tile : Nat} (h : s.PipesOk) : (s.dropClaim tile).PipesOk :=
  (h.setTile _ _).handClaim

theorem State.PipesOk.unclaim {s : State} {w : Who} (h : s.PipesOk) : (s.unclaim w).PipesOk :=
  .ite h (.ite h.dropClaim h)

theorem State.PipesOk.leaveGang {s : State} {w : Who} (h : s.PipesOk) : (s.leaveGang w).PipesOk :=
  .ite h (.ite (h.setTile _ _) h)

theorem State.PipesOk.departOwner {s : State} {w : Who} (h : s.PipesOk) : (s.departOwner w).PipesOk := by
  unfold State.departOwner
  split
  · exact (h.setSlot _ _).send _ _ _
  · exact h

theorem State.PipesOk.freeSlot {s : State} {w : Who} (h : s.PipesOk) : (s.freeSlot w).PipesOk := h.setSlot _ _

theorem State.PipesOk.abandon {s : State} {w : Who} (h : s.PipesOk) : (s.abandon w).PipesOk := by
  unfold State.abandon
  split
  · exact h.send _ _ _
  · exact h

theorem State.PipesOk.endThread {s : State} {w : Who} (h : s.PipesOk) : (s.endThread w).PipesOk := by
  unfold State.endThread
  refine .freeSlot ?_
  split
  · exact h.departOwner.abandon.unclaim.leaveGang.setCore rfl rfl
  · exact h.departOwner.abandon.unclaim.leaveGang

theorem State.PipesOk.kill {s : State} {w : Who} (h : s.PipesOk) : (s.kill w).PipesOk := by
  unfold State.kill
  extract_lets x s1 s2 s3 y s4
  have h1 : s1.PipesOk := h.fold fun _ _ h => h.send _ _ _
  have h2 : s2.PipesOk := by
    unfold s2
    split
    · exact h1.drop
    · refine .send ?_ _ _ _
      exact h1
    · exact h1
  exact .ite h ((h2.updLaunch _ _).setSys _).endThread

theorem State.PipesOk.enterTrap {s : State} {w : Who} {c : Cause} {value : Word} (h : s.PipesOk) :
    (s.enterTrap w c value).PipesOk :=
  .ite (h.setSlot _ _) (.ite (.ite (h.kill.post _ _ _) (h.setSlot _ _)) (h.setSlot _ _))

theorem State.PipesOk.trapNow {s : State} {w : Who} {p : Pending} (h : s.PipesOk) : (s.trapNow w p).PipesOk := by
  unfold State.trapNow
  split <;> exact (h.setSlot _ _).enterTrap

theorem State.PipesOk.trapWith {s : State} {w : Who} {p : Pending} (h : s.PipesOk) : (s.trapWith w p).PipesOk :=
  .ite h.trapNow (h.setSlot _ _)

theorem State.PipesOk.trapAt {s : State} {w : Who} {c : Cause} {value : Word} (h : s.PipesOk) :
    (s.trapAt w c value).PipesOk :=
  h.trapWith

theorem State.PipesOk.raise {s : State} {c : Cause} {value : Word} (h : s.PipesOk) : (s.raise c value).PipesOk :=
  h.trapAt

theorem State.PipesOk.returnTrap {s : State} (h : s.PipesOk) : s.returnTrap.PipesOk := by
  unfold State.returnTrap
  dsimp only
  split <;> exact .ite h.setMe h.raise

theorem State.PipesOk.waitRelaxed {s : State} {k : State → State} (h : s.PipesOk)
    (hk : ∀ t, t.PipesOk → (k t).PipesOk) : (s.waitRelaxed k).PipesOk := by
  unfold State.waitRelaxed
  refine .ite h.parkOn ?_
  split
  · exact h.setMe.enterTrap
  · exact hk _ h

theorem State.PipesOk.waitAcks {s : State} {k : State → State} (h : s.PipesOk) (hk : ∀ t, t.PipesOk → (k t).PipesOk) :
    (s.waitAcks k).PipesOk := by
  unfold State.waitAcks
  refine .ite h.parkOn ?_
  split
  · split
    · exact h.setMe.trapAt
    · exact hk _ h
  · exact hk _ h

theorem State.PipesOk.waitBoth {s : State} {k : State → State} (h : s.PipesOk) (hk : ∀ t, t.PipesOk → (k t).PipesOk) :
    (s.waitBoth k).PipesOk :=
  h.waitRelaxed fun _ h => h.waitAcks fun _ h => hk _ h

theorem State.PipesOk.smallOnly {s : State} {i : Instr} {k : State → State} (h : s.PipesOk)
    (hk : ∀ t, t.PipesOk → (k t).PipesOk) : (s.smallOnly i k).PipesOk :=
  .ite h.raise (hk _ h)

/-! ### Sys2Proof/Machine/Flags.lean -/

theorem State.PipesOk.finishFp {s : State} {fmt step : Nat} {es checked : List Elem} {write : Slot → Slot}
    (h : s.PipesOk) : (s.finishFp fmt step es checked write).PipesOk := by
  unfold State.finishFp
  refine .ite h.setMe.raise ?_
  split
  · exact h.setMe.trapWith
  · exact h.setMe

/-! ### Sys2Proof/Machine/Translate.lean -/

theorem State.PipesOk.keepLeaf {s : State} {pid : BitVec 16} {va bits e : Nat} (h : s.PipesOk) :
    (s.keepLeaf pid va bits e).PipesOk :=
  h

theorem State.PipesOk.keepWalk {s : State} {part : Nat} {pid : BitVec 16} {va : Nat} (h : s.PipesOk) :
    (s.keepWalk part pid va).PipesOk := by
  unfold State.keepWalk
  split
  · exact h.keepLeaf
  · exact h

theorem State.PipesOk.askMigration {s : State} {part : Nat} {pid : BitVec 16} {w : Who} {launch va : Nat}
    (h : s.PipesOk) : (s.askMigration part pid w launch va).PipesOk :=
  h.post _ _ _

/-! ### Sys2Proof/Machine/Ranges.lean -/

theorem State.PipesOk.register {s : State} {own : RangeOwner} {part : Nat} {pid : BitVec 16} {qs : List RangeReq}
    (h : s.PipesOk) : (s.register own part pid qs).PipesOk :=
  h

theorem State.PipesOk.unregister {s : State} {own : RangeOwner → Bool} (h : s.PipesOk) : (s.unregister own).PipesOk :=
  h

theorem State.PipesOk.reown {s : State} {f : RangeOwner → RangeOwner} (h : s.PipesOk) : (s.reown f).PipesOk := h

/-! ### Sys2Proof/Machine/Objects.lean -/

theorem State.PipesOk.setDesc {s : State} {a d : Nat} (h : s.PipesOk) : (s.setDesc a d).PipesOk := h.storeSpad _ _

theorem State.PipesOk.setObj {s : State} {a : Nat} {o : Obj} (h : s.PipesOk) : (s.setObj a o).PipesOk := h.setCore rfl rfl

theorem State.PipesOk.dropObj {s : State} {a : Nat} (h : s.PipesOk) : (s.dropObj a).PipesOk := h.setCore rfl rfl

theorem State.PipesOk.setRedCell {s : State} {d c : Nat} (h : s.PipesOk) : (s.setRedCell d c).PipesOk :=
  .ite h (h.storeSpad _ _)

theorem State.PipesOk.syncInit {s t : State} {a img : Nat} (h : s.PipesOk) (e : s.syncInit a img = some t) :
    t.PipesOk := by
  unfold State.syncInit at e
  (repeat' split at e) <;> cases e
  exact h.setDesc.setRedCell.setObj

theorem State.PipesOk.setCountWord {s : State} {core off w : Nat} (h : s.PipesOk) :
    (s.setCountWord core off w).PipesOk :=
  .ite h (h.storeSpad _ _)

theorem State.PipesOk.placeTask {s : State} {core off launch : Nat} (h : s.PipesOk) :
    (s.placeTask core off launch).PipesOk := by
  unfold State.placeTask
  refine .setCore (.setCountWord ?_) rfl rfl
  split
  · exact h.setCountWord
  · exact h

theorem State.PipesOk.taskInit {s t : State} {a : Nat} {count : Word} {launch : Nat} (h : s.PipesOk)
    (e : s.taskInit a count launch = some t) : t.PipesOk := by
  unfold State.taskInit at e
  dsimp only at e
  split at e <;> cases e
  exact .ite h.setCountWord.placeTask h.setCountWord

/-! ### Sys2Proof/Machine/Serve.lean -/

theorem State.PipesOk.noteHeads {s : State} {k n : Nat} (h : s.PipesOk) : (s.noteHeads k n).PipesOk := h

theorem State.PipesOk.put {s : State} {k : Nat} {bs : List Byte} (h : s.PipesOk) : (s.put k bs).PipesOk :=
  .ite (h.storeSpad _ _).noteHeads (h.setBytes _ _)

theorem State.PipesOk.clearPoison {s : State} {k n : Nat} (h : s.PipesOk) : (s.clearPoison k n).PipesOk :=
  .ite (h.clearWhole _ _) (.ite h (h.fold fun _ _ h => .ite (h.setPoison _ _) h))

theorem State.PipesOk.store {s : State} {k : Nat} {bs : List Byte} (h : s.PipesOk) : (s.store k bs).PipesOk :=
  h.put.clearPoison

theorem State.PipesOk.rawPerform {s : State} {k : Nat} {a : Access} {stored : Nat → Option Tag} (h : s.PipesOk) :
    (s.rawPerform k a stored).1.PipesOk := by
  unfold State.rawPerform
  cases a.op with
  | store | vstore | xcclr | launchZero => exact h.store
  | atomic =>
    dsimp only
    split
    · exact h.put
    · exact h
  | reduce | xcadd => exact h.put
  | _ => exact h

theorem State.PipesOk.setLaneTags {s : State} {k : Nat} {ts : List Tag} (h : s.PipesOk) :
    (s.setLaneTags k ts).PipesOk :=
  h.fold fun _ _ h => h.setSideTag _ _

theorem State.PipesOk.bankPerform {s : State} {a : Access} (h : s.PipesOk) : (s.bankPerform a).1.PipesOk := by
  unfold State.bankPerform
  extract_lets core w k plain tagged i cnt ws enc
  have henc : ∀ ls, (enc ls).1.PipesOk := fun _ => .iteFst h h.store
  split
  · exact h.rawPerform
  split
  · split
    · exact h.rawPerform.setLaneTags
    · exact h.rawPerform
  split
  · exact henc _
  · exact henc _
  · exact h
  · exact h

theorem State.PipesOk.serveBank {s : State} {src : Who} {a : Access} (h : s.PipesOk) :
    (s.serveBank src a).1.PipesOk := by
  unfold State.serveBank
  dsimp only
  split
  · split
    · exact .iteFst h (h.syncInit ‹_›)
    · exact h
  · split <;> exact h
  · split
    · exact .iteFst h (h.taskInit ‹_›)
    · exact h
  · exact .iteFst h (.iteFst h (.iteFst h h.bankPerform))

theorem State.PipesOk.setLine {s : State} {core : Nat} {l : Line} (h : s.PipesOk) : (s.setLine core l).PipesOk :=
  h.setCore rfl rfl

theorem State.PipesOk.refreshLine {s : State} {src : Who} {a : Access} {key : Nat} {shadow : Option Nat}
    (h : s.PipesOk) : (s.refreshLine src a key shadow).PipesOk := by
  unfold State.refreshLine
  refine .ite h (.ite ?_ (.ite h h.setLine))
  split
  · exact h.setLine
  · exact h

theorem State.PipesOk.retagLine {s : State} {src : Who} {a : Access} {shadow : Nat} (h : s.PipesOk) :
    (s.retagLine src a shadow).PipesOk := by
  unfold State.retagLine
  split
  · exact .ite h.setLine h
  · exact h

theorem State.PipesOk.postWrite {s : State} {src : Who} {a : Access} {key : Nat} (h : s.PipesOk) :
    (s.postWrite src a key).PipesOk :=
  .ite h (.ite h h)

theorem State.PipesOk.serveEdge {s : State} {src : Who} {a : Access} {key : Nat} {shadow : Option Nat}
    (h : s.PipesOk) : (s.serveEdge src a key shadow).1.PipesOk := by
  refine .iteFst h (.iteFst h (.iteFst h ?_))
  dsimp only
  split
  · exact .iteFst h.postWrite.rawPerform.refreshLine h.postWrite.rawPerform.refreshLine
  · exact h.postWrite.rawPerform.refreshLine

theorem State.PipesOk.serveShadow {s : State} {src : Who} {a : Access} {k : Nat} {r : Reply} (h : s.PipesOk) :
    (s.serveShadow src a k r).1.PipesOk := by
  unfold State.serveShadow
  dsimp only
  split
  · exact h.retagLine
  · exact (h.setBytes _ _).retagLine
  · exact (h.setBytes _ _).retagLine

theorem State.PipesOk.acquired {s : State} {c : Nat} (h : s.PipesOk) : (s.acquired c).PipesOk :=
  .ite (h.setCore rfl rfl) h

/-! ### Sys2Proof/Machine/Order.lean -/

theorem State.PipesOk.hold {s : State} {c : Nat} {m : Msg} (h : s.PipesOk) : (s.hold c m).PipesOk :=
  .ite h (h.setCore rfl rfl)

theorem State.PipesOk.unhold {s : State} {c id : Nat} (h : s.PipesOk) : (s.unhold c id).PipesOk := h.setCore rfl rfl

theorem State.PipesOk.enterService {s : State} {c : Nat} {m : Msg} (h : s.PipesOk) : (s.enterService c m).PipesOk :=
  .ite h (.unhold (.setCore h rfl rfl))

theorem State.PipesOk.enterReached {s : State} {c : Nat} {m : Msg} (h : s.PipesOk) : (s.enterReached c m).PipesOk :=
  .ite h (.unhold (.setCore h rfl rfl))

theorem State.PipesOk.enterWindow {s : State} {m : Msg} {key : Nat} (h : s.PipesOk) : (s.enterWindow m key).PipesOk :=
  .ite h h

theorem State.PipesOk.leaveWindow {s : State} {m : Msg} {key : Nat} (h : s.PipesOk) : (s.leaveWindow m key).PipesOk :=
  .ite h h

theorem State.PipesOk.drainPosted {s : State} {k : Nat} (h : s.PipesOk) : (s.drainPosted k).PipesOk := by
  unfold State.drainPosted
  split
  · exact .ite h h
  · exact h

theorem State.PipesOk.hostWrites {s : State} {addr : Nat} {bs : List Byte} (h : s.PipesOk) :
    (s.hostWrites addr bs).PipesOk :=
  .ite h (h.physWrite _ _)

/-! ### Sys2Proof/Machine/Access.lean -/

theorem State.PipesOk.sendAccess {s : State} {a : Access} (h : s.PipesOk) : (s.sendAccess a).PipesOk :=
  (h.send _ _ _).setPark

theorem State.PipesOk.sendRecord {s : State} {record : Nat} {dest : Dest} (h : s.PipesOk) :
    (s.sendRecord record dest).PipesOk :=
  (h.send _ _ _).setPark

theorem State.PipesOk.launchNext {s : State} {a : Access} {ws : List (W32 × Tag)} (h : s.PipesOk) :
    (s.launchNext a ws).PipesOk :=
  .ite h.raise (.ite h.sendAccess h.sendRecord)

theorem State.PipesOk.statusRead {s : State} {a : Access} {ws : List (W32 × Tag)} (h : s.PipesOk) :
    (s.statusRead a ws).PipesOk :=
  .ite h.parkOn h.result.acquired

theorem State.PipesOk.finishAccess {s : State} {a : Access} {r : Reply} (h : s.PipesOk) :
    (s.finishAccess a r).PipesOk := by
  unfold State.finishAccess
  split
  · exact .raise (.ite h.setMe h)
  · split
    · exact h.launchNext
    · exact h.sendRecord
    · exact h.statusRead
    · exact h.finishFp
    · exact .ite h.setMe.acquired h.setMe

theorem State.PipesOk.perform {s : State} {a : Access} (h : s.PipesOk) : (s.perform a).PipesOk := by
  unfold State.perform
  split
  · exact h.finishAccess
  · split
    · exact .ite h.serveBank.finishAccess h.sendAccess
    · exact h.sendAccess

theorem State.PipesOk.performRelaxed {s : State} {a : Access} (h : s.PipesOk) : (s.performRelaxed a).PipesOk := by
  unfold State.performRelaxed
  split
  · exact h.parkOn
  · split
    · exact h.finishAccess
    · exact (h.send _ _ _).setMe

theorem State.PipesOk.sendAcked {s : State} {addr : Nat} {b : Body} {arrive : Bool} (h : s.PipesOk) :
    (s.sendAcked addr b arrive).PipesOk :=
  (h.send _ _ _).setMe

theorem State.PipesOk.ackRoom {s : State} {k : State → State} (h : s.PipesOk) (hk : ∀ t, t.PipesOk → (k t).PipesOk) :
    (s.ackRoom k).PipesOk :=
  .ite h.parkOn (hk _ h)

theorem State.PipesOk.access {s : State} {op : AccOp} {ea : Word} {size : Nat} {dest : Dest} {rlx ff : Bool}
    {allow : Nat → Bool} (h : s.PipesOk) : (s.access op ea size dest rlx ff allow).PipesOk := by
  unfold State.access
  split
  · exact h.raise
  · exact .ite (h.ackRoom fun _ h => h.sendAcked.advance) (.ite h.performRelaxed (h.waitRelaxed
      fun _ h => h.perform))

theorem State.PipesOk.toStage {s : State} {m : Msg} {a : Access} {st : Stage} (h : s.PipesOk) :
    (s.toStage m a st).PipesOk :=
  h.rebody

theorem State.PipesOk.translated {s : State} {m : Msg} {a : Access} {since : Nat} {asked ripe : Bool}
    (h : s.PipesOk) : (s.translated m a since asked ripe).PipesOk := by
  unfold State.translated
  split
  · exact h.keepWalk.toStage
  · exact h.toStage
  · exact .toStage (.ite h.askMigration h)

theorem execTranslationWalk_pipesOk {s : State} {id : Nat} {cached : Bool} (h : s.PipesOk) :
    (execTranslationWalk id cached s).PipesOk := by
  unfold execTranslationWalk
  split
  · split
    · split
      · exact .next (.translated h)
      · exact .next h
    · exact .next h
  · exact .next h

theorem State.PipesOk.rewalkFetch {s : State} {m : Msg} {va since : Nat} {asked : Bool} (h : s.PipesOk) :
    (s.rewalkFetch m va since asked).PipesOk := by
  unfold State.rewalkFetch
  refine .ite h.drop ?_
  split
  · exact .rebody (.ite h.askMigration h)
  · exact h.drop.setPark

theorem State.PipesOk.edgePerform {s : State} {m : Msg} {a : Access} (h : s.PipesOk) :
    (s.edgePerform m a).PipesOk := by
  unfold State.edgePerform
  split
  · exact .ite h.toStage (.ite h.toStage h.serveEdge.toStage)
  · exact .ite h.toStage h.serveShadow.toStage
  · exact h

theorem execEdgeCoreServe_pipesOk {s : State} {id : Nat} (h : s.PipesOk) : (execEdgeCoreServe id s).PipesOk := by
  unfold execEdgeCoreServe
  split
  · split
    · exact .ite trivial (.ite (.next h) (.next h.leaveWindow.edgePerform))
    · exact .next h
  · exact .next h

theorem State.PipesOk.ownerPerform {s : State} {m : Msg} {a : Access} (h : s.PipesOk) :
    (s.ownerPerform m a).PipesOk :=
  h.serveBank.toStage

theorem execActiveMessage_pipesOk {s : State} {id : Nat} (h : s.PipesOk) : (execActiveMessage id s).PipesOk := by
  unfold execActiveMessage
  split
  · split
    · split
      · exact .ite (.next h) (.next h.ownerPerform)
      · exact .next h
    · exact .next h
  · exact .next h

theorem State.PipesOk.serveGroup {s : State} {a : Access} {l : List Msg} (h : s.PipesOk) :
    (s.serveGroup a l).PipesOk := by
  induction l generalizing s with
  | nil => exact h
  | cons m r ih =>
    unfold State.serveGroup
    split
    · refine .ite (ih ?_) (ih h)
      split
      · exact h.ownerPerform
      · exact h.leaveWindow.edgePerform
      · exact h
    · exact ih h

theorem State.PipesOk.mergeServe {s : State} {ids : List Nat} (h : s.PipesOk) : (s.mergeServe ids).PipesOk := by
  unfold State.mergeServe
  split
  · exact h
  · split
    · exact .ite h.serveGroup h
    · exact h

theorem State.PipesOk.answerOf {s t : State} {m : Msg} {a : Access} {r : Reply} (h : s.PipesOk)
    (e : s.answerOf m a = some (t, r)) : t.PipesOk := by
  unfold State.answerOf at e
  split at e
  · cases e
    exact h
  · split at e
    · have hb := h.serveBank (src := m.src) (a := a)
      rwa [Option.some.inj e] at hb
    · cases e
  · cases e

theorem State.PipesOk.relaxedReply {s : State} {w : Who} {id : Nat} {a : Access} {r : Reply} (h : s.PipesOk) :
    (s.relaxedReply w id a r).PipesOk := by
  unfold State.relaxedReply
  dsimp only
  split <;> exact h.setSlot _ _

theorem execAccessReply_pipesOk {s : State} {id : Nat} (h : s.PipesOk) : (execAccessReply id s).PipesOk := by
  unfold execAccessReply
  split
  · split
    · refine .ite (.next h) ?_
      split
      · exact .next h
      · next e =>
        have h1 := (h.answerOf e).drop (id := id)
        exact .ite (.ite (.next h1.relaxedReply) (.next h1)) (.ite (.next (.finishAccess h1)) (.next h1))
    · exact .next h
  · exact .next h

theorem State.PipesOk.acked {s : State} {w : Who} {id : Nat} {f : Option (Cause × Word)} (h : s.PipesOk) :
    (s.acked w id f).PipesOk := by
  unfold State.acked
  dsimp only
  split <;> exact h.setSlot _ _

theorem State.PipesOk.refusedArrive {s t : State} {w : Who} {id addr : Nat} (h : s.PipesOk)
    (e : s.refusedArrive w id addr = some t) : t.PipesOk := by
  unfold State.refusedArrive at e
  dsimp only at e
  (repeat' split at e) <;> cases e
  exact (h.setSlot _ _).acked.trapAt

theorem execFireAndForgetAck_pipesOk {s : State} {id : Nat} (h : s.PipesOk) :
    (execFireAndForgetAck id s).PipesOk := by
  unfold execFireAndForgetAck
  split
  · refine .ite (.next h) ?_
    split
    · refine .ite (.next h) ?_
      split
      · exact .next h
      · exact .next (h.answerOf ‹_›).drop.acked
    · refine .ite ?_ (.ite (.next h.drop) (.ite ?_ (.next h.drop.acked)))
      · split
        · exact .next h.drop.trapAt
        · exact .next h.drop.endThread
      · split
        · exact .next (h.drop.refusedArrive ‹_›)
        · refine .next (.acked ?_)
          split
          · exact .ite (h.drop.setSlot _ _) h.drop
          · exact h.drop
    · exact .next h
  · exact .next h

/-! ### Sys2Proof/Machine/Memory.lean -/

theorem State.PipesOk.loadG {s : State} {d a : BitVec 5} {r : BitVec 1} {o : BitVec 12} {n : Nat} {signed : Bool}
    {allow : Nat → Bool} (h : s.PipesOk) : (s.loadG d a r o n signed allow).PipesOk :=
  h.access

theorem State.PipesOk.storeG {s : State} {v a : BitVec 5} {r : BitVec 1} {o : BitVec 12} {n : Nat}
    {allow : Nat → Bool} (h : s.PipesOk) : (s.storeG v a r o n allow).PipesOk :=
  h.access

theorem State.PipesOk.atomG {s : State} {op : BitVec 4} {d a b : BitVec 5} {r z : BitVec 1} (h : s.PipesOk) :
    (s.atomG op d a b r z).PipesOk :=
  h.access

theorem State.PipesOk.redG {s : State} {op : BitVec 3} {a b : BitVec 5} {z : BitVec 1} (h : s.PipesOk) :
    (s.redG op a b z).PipesOk :=
  h.access

theorem State.PipesOk.loadV {s : State} {d : BitVec 4} {a : BitVec 5} {r : BitVec 1} {o : BitVec 12} {n : Nat}
    {double broadcast : Bool} (h : s.PipesOk) : (s.loadV d a r o n double broadcast).PipesOk :=
  h.access

theorem State.PipesOk.storeV {s : State} {v : BitVec 4} {a : BitVec 5} {r : BitVec 1} {o : BitVec 12} {double : Bool}
    (h : s.PipesOk) : (s.storeV v a r o double).PipesOk :=
  h.access

/-! ### Sys2Proof/Machine/Contexts.lean -/

theorem State.PipesOk.raiseFree {s : State} {c : Cause} (h : s.PipesOk) : (s.raiseFree c).PipesOk :=
  .raise (h.of_eq rfl rfl)

theorem State.PipesOk.withMask {s : State} {b : BitVec 5} {k : BitVec 32 → State} (h : s.PipesOk)
    (hk : ∀ x, (k x).PipesOk) : (s.withMask b k).PipesOk :=
  .ite h.raise (hk _)

theorem State.PipesOk.countStart {s : State} {launch : Nat} (h : s.PipesOk) : (s.countStart launch).PipesOk :=
  h.updLaunch _ _

theorem State.PipesOk.startContext {s : State} {w : Who} {c : Ctx} (h : s.PipesOk) : (s.startContext w c).PipesOk :=
  (h.setSlot _ _).acquired

theorem State.PipesOk.place {s : State} {w : Who} {x : Slot} {launch : Nat} (h : s.PipesOk) :
    (s.place w x launch).PipesOk := by
  unfold State.place
  refine .countStart (.setSlot ?_ _ _)
  exact h

theorem State.PipesOk.startEntry {s : State} {w : Who} {e : RunEntry} (h : s.PipesOk) :
    (s.startEntry w e).PipesOk := by
  unfold State.startEntry
  split
  · split
    · exact h.setCountWord
    · exact h.setCountWord.place
  · split
    · exact h
    · exact h.place
  · exact h.place

theorem State.PipesOk.spillImage {s : State} {c : Nat} (h : s.PipesOk) : (s.spillImage c).PipesOk := by
  unfold State.spillImage
  refine .ite h (.storeSpad ?_ _ _)
  exact h

theorem State.PipesOk.takeIn {s t : State} {c : Nat} {x : Ctx} (h : s.PipesOk) (e : s.takeIn c x = some t) :
    t.PipesOk := by
  unfold State.takeIn at e
  dsimp only at e
  split at e
  · cases e
  split at e
  · obtain ⟨n, -, rfl⟩ := Option.map_eq_some_iff.mp e
    exact h.startContext
  (repeat' split at e) <;> cases e
  · exact h.setCore rfl rfl
  · exact .spillImage (.setCore h rfl rfl)

theorem State.PipesOk.takeOne {s : State} {c : Nat} (h : s.PipesOk) : (s.takeOne c).PipesOk := by
  unfold State.takeOne
  dsimp only
  split
  · exact h
  · split
    · exact .startContext (.setCore h rfl rfl)
    · exact .startEntry (.setCore h rfl rfl)
    · exact .startContext (.setCore h rfl rfl)
    · exact h

theorem State.PipesOk.refill {s : State} {c : Nat} (h : s.PipesOk) : (s.refill c).PipesOk := by
  unfold State.refill
  dsimp only
  split
  · exact .ite (h.setCore rfl rfl) h
  · exact h

theorem State.PipesOk.takeAll {s : State} {c n : Nat} (h : s.PipesOk) : (s.takeAll c n).PipesOk := by
  induction n generalizing s with
  | zero => exact h
  | succ n ih => exact .ite (ih h.takeOne) h

theorem State.PipesOk.takeWork {s : State} {c : Nat} (h : s.PipesOk) : (s.takeWork c).PipesOk := h.takeAll.refill

/-! ### Sys2Proof/Machine/Flow.lean -/

theorem State.PipesOk.vacate {s : State} {w : Who} (h : s.PipesOk) : (s.vacate w).PipesOk := h.unclaim.freeSlot

theorem State.PipesOk.migrateTo {s : State} {dest : Nat} {mask : BitVec 32} (h : s.PipesOk) :
    (s.migrateTo dest mask).PipesOk :=
  .ite h.raiseFree (h.waitBoth fun _ h => .ite h.departOwner.leaveGang.advance
    (h.departOwner.leaveGang.send _ _ _).countSent.setMe)

theorem execSpawn_pipesOk {s : State} {d a b : BitVec 5} (h : s.PipesOk) : (execSpawn d a b s).PipesOk :=
  .next (h.withMask fun _ => .ite h.raise (.ite h.raise
    (h.waitRelaxed fun _ h => .ite h.parkOn (.advance (.countSent (.setCore (h.send _ _ _) rfl rfl))))))

theorem State.PipesOk.arrive {s : State} {m : Msg} {c : Ctx} {dest n : Nat} (h : s.PipesOk) :
    (s.arrive m c dest n).PipesOk := by
  unfold State.arrive
  split
  · exact h.rebody.countReceived
  · exact .ite (.countStart (.drop (.setCore (h.takeIn ‹_›).countReceived rfl rfl)))
      (h.takeIn ‹_›).countReceived.rebody

theorem execContextPacketAdmission_pipesOk {s : State} {id : Nat} (h : s.PipesOk) :
    (execContextPacketAdmission id s).PipesOk := by
  unfold execContextPacketAdmission
  split
  · refine .next ?_
    split
    · exact .ite h h.arrive
    · exact h
  · exact .next h

theorem execMigrationReply_pipesOk {s : State} {id : Nat} (h : s.PipesOk) : (execMigrationReply id s).PipesOk := by
  unfold execMigrationReply
  split
  · refine .next (.ite h ?_)
    split
    · exact .ite (h.drop.vacate.setCore rfl rfl) h.drop
    · exact h.rebody
    · exact h
  · exact .next h

theorem execRefusalBackoffExpiry_pipesOk {s : State} {id : Nat} (h : s.PipesOk) :
    (execRefusalBackoffExpiry id s).PipesOk := by
  unfold execRefusalBackoffExpiry
  split
  · refine .next ?_
    split
    · exact .ite h h.rebody.countSent
    · exact h
  · exact .next h

theorem execForwardingEntryExpiry_pipesOk {s : State} {core slot : Nat} (h : s.PipesOk) :
    (execForwardingEntryExpiry core slot s).PipesOk := by
  unfold execForwardingEntryExpiry
  dsimp only
  split
  · exact .next (.ite h (h.setCore rfl rfl))
  · exact .next h

/-! ### Sys2Proof/Machine/Messages.lean -/

theorem State.PipesOk.setBox {s : State} {c b : Nat} {l : List Mail} (h : s.PipesOk) : (s.setBox c b l).PipesOk :=
  h.setCore rfl rfl

theorem State.PipesOk.accept {s : State} {c b : Nat} {m : Mail} (h : s.PipesOk) : (s.accept c b m).PipesOk := by
  unfold State.accept
  split
  · exact (h.setSlot _ _).acquired
  · exact h.setBox

theorem State.PipesOk.wakeGone {s : State} {sender : Word} {c b : Nat} (h : s.PipesOk) :
    (s.wakeGone sender c b).PipesOk := by
  unfold State.wakeGone
  refine h.fold fun _ _ h => ?_
  split
  · exact .ite (h.setSlot _ _) h
  · exact h

theorem State.PipesOk.goneAt {s : State} {sender : Word} {c b : Nat} (h : s.PipesOk) :
    (s.goneAt sender c b).PipesOk :=
  .ite h.setBox.wakeGone h

theorem State.PipesOk.goneCore {s : State} {sender : Word} {c : Nat} (h : s.PipesOk) :
    (s.goneCore sender c).PipesOk :=
  .fold h fun _ _ h => h.goneAt

theorem State.PipesOk.grantPlain {s : State} {w : Who} {a : Nat} {rd : BitVec 5} {try_ : Bool} (h : s.PipesOk) :
    (s.grantPlain w a rd try_).PipesOk :=
  (h.setSlot _ _).acquired

theorem State.PipesOk.grantCaller {s : State} {w : Who} {a : Nat} {rd : BitVec 5} {pc : Word} {args : List Word}
    (h : s.PipesOk) : (s.grantCaller w a rd pc args).PipesOk :=
  (h.setSlot _ _).acquired

theorem State.PipesOk.wakeRenamed {s : State} {w : Who} {a : Nat} (h : s.PipesOk) : (s.wakeRenamed w a).PipesOk :=
  .ite h (.ite (h.setSlot _ _).acquired (h.setSlot _ _))

theorem State.PipesOk.take {s : State} {w : Who} {p : Park} {rd : BitVec 5} {v : Word} (h : s.PipesOk) :
    (s.take w p rd v).PipesOk :=
  .ite (h.setSlot _ _) h

theorem State.PipesOk.hear {s : State} {w : Who} {a : Answer} (h : s.PipesOk) : (s.hear w a).PipesOk := by
  unfold State.hear
  split
  · exact .ite h.grantPlain h
  · exact .ite h.grantCaller h
  · exact .ite h.trapAt h
  · exact h.take
  · exact .ite (h.setSlot _ _) h
  · exact h.wakeRenamed
  · exact .ite (h.setSlot _ _) h
  · exact h.goneCore

theorem State.PipesOk.tell {s : State} {w : Who} {a : Answer} (h : s.PipesOk) : (s.tell w a).PipesOk :=
  .ite h.hear (h.send _ _ _)

theorem State.PipesOk.status {s : State} {w : Who} {id : Nat} {rd : BitVec 5} {v : Word} (h : s.PipesOk) :
    (s.status w id rd v).PipesOk :=
  h.tell

theorem State.PipesOk.acceptMail {s : State} {msg : Msg} {c b : Nat} {m : Mail} {signal : Bool} {launch : Nat}
    (h : s.PipesOk) : (s.acceptMail msg c b m signal launch).PipesOk :=
  .ite h.drop.accept h.drop.accept.countReceived.status

theorem State.PipesOk.fillBox {s : State} {c b n : Nat} (h : s.PipesOk) : (s.fillBox c b n).PipesOk := by
  induction n generalizing s with
  | zero => exact h
  | succ n ih =>
    refine .ite h ?_
    split
    · exact ih h.acceptMail
    · exact h

theorem State.PipesOk.deliverMail {s : State} {msg : Msg} {c b : Nat} {m : Mail} {try_ signal : Bool} {launch : Nat}
    (h : s.PipesOk) : (s.deliverMail msg c b m try_ signal launch).PipesOk :=
  .ite h.acceptMail (.ite h.drop.countReceived.status h)

theorem State.PipesOk.sendMail {s : State} {d a : BitVec 5} {try_ : Bool} (h : s.PipesOk) :
    (s.sendMail d a try_).PipesOk := by
  refine .ite h.raise (.ite h.raise (h.waitRelaxed fun t ht => .ite ht.countSent.countReceived.result ?_))
  extract_lets mail launch t1 id body t2
  have h2 : t2.PipesOk := (ht.countSent.send _ _ _).setPark
  exact .ite (ht.countSent.send _ _ _).setPark (.ite h2.deliverMail h2)

theorem State.PipesOk.recvMail {s : State} {d : BitVec 5} {mask : BitVec 16} {try_ : Bool} (h : s.PipesOk) :
    (s.recvMail d mask try_).PipesOk := by
  unfold State.recvMail
  dsimp only
  split
  · split
    · exact h.setBox.setMe.acquired.fillBox
    · exact h
  · exact .ite h.result (.setMe (h.of_eq rfl rfl))

theorem State.PipesOk.peerAnswer {s : State} {m : Msg} {append try_ : Bool} {launch : Nat} (h : s.PipesOk) :
    (s.peerAnswer m append try_ launch).PipesOk :=
  .status (.countReceived (.drop h))

theorem execMailboxDelivery_pipesOk {s : State} {id : Nat} (h : s.PipesOk) : (execMailboxDelivery id s).PipesOk := by
  unfold execMailboxDelivery
  split
  · refine .next ?_
    split
    · exact .ite h h.deliverMail
    · exact .ite h.fillBox h
    · exact .ite h.peerAnswer h
    · exact h
  · exact .next h

theorem State.PipesOk.ringStep {s : State} {w : Who} {ring : Nat} {payload : List Word} {held : Bool}
    (h : s.PipesOk) : (s.ringStep w ring payload held).1.PipesOk := by
  unfold State.ringStep
  extract_lets c o k head tail size used r pos wraps need at_ spans pad rec done_
  have hp : pad.PipesOk := .ite (h.storeSpad _ _) h
  split
  · exact h
  split
  · exact h
  split
  · exact h
  split
  · exact h
  split
  · exact h
  · exact (hp.storeSpad _ _).clearPoison.storeSpad _ _

theorem State.PipesOk.ringReply {s : State} {m : Msg} {ring launch : Nat} {r : RingAnswer} (h : s.PipesOk) :
    (s.ringReply m ring launch r).PipesOk := by
  unfold State.ringReply
  dsimp only
  split
  · exact h.drop.countReceived.status
  · exact h.drop.countReceived.tell

theorem State.PipesOk.ringArrival {s : State} {m : Msg} {ring : Nat} {payload : List Word} {try_ : Bool}
    {launch : Nat} (h : s.PipesOk) : (s.ringArrival m ring payload try_ launch).PipesOk := by
  unfold State.ringArrival
  dsimp only
  split
  · exact h.ringStep
  · exact h.ringStep.ringReply

theorem State.PipesOk.appendRing {s : State} {d a b : BitVec 5} {try_ : Bool} (h : s.PipesOk) :
    (s.appendRing d a b try_).PipesOk := by
  refine .ite h.raise (.ite h.raise (h.waitRelaxed fun t ht => .ite ht.result
    (.ite ht.countSent.countReceived.result ?_)))
  extract_lets payload launch t1 id body t2
  have h2 : t2.PipesOk := (ht.countSent.send _ _ _).setPark
  exact .ite (ht.countSent.send _ _ _).setPark (.ite h2.ringArrival h2)

theorem execAppendAtRing_pipesOk {s : State} {id : Nat} (h : s.PipesOk) : (execAppendAtRing id s).PipesOk := by
  unfold execAppendAtRing
  split
  · refine .next ?_
    split
    · exact .ite h.ringArrival h
    · exact .ite h.peerAnswer h
    · exact h
  · exact .next h

theorem State.PipesOk.retryRing {s : State} {ring : Nat} {l : List Msg} (h : s.PipesOk) :
    (s.retryRing ring l).PipesOk := by
  induction l generalizing s with
  | nil => exact h
  | cons m r ih =>
    unfold State.retryRing
    split
    · refine .ite (ih h) ?_
      dsimp only
      split
      · exact h
      · exact ih h.ringStep.ringReply
    · exact ih h

theorem State.PipesOk.peerMail {s : State} {sender : Word} {core box : Nat} {payload : List Word} {try_ : Bool}
    (h : s.PipesOk) : (s.peerMail sender core box payload try_).PipesOk :=
  .ite (h.send _ _ _) h

theorem State.PipesOk.peerAppend {s : State} {sender : Word} {ring : Nat} {payload : List Word} {try_ : Bool}
    (h : s.PipesOk) : (s.peerAppend sender ring payload try_).PipesOk :=
  .ite (h.send _ _ _) h

/-! ### Sys2Proof/Machine/Queues.lean -/

theorem State.PipesOk.setQueueReg {s : State} {c q : Nat} {r : QueueReg} (h : s.PipesOk) :
    (s.setQueueReg c q r).PipesOk :=
  h.setCore rfl rfl

theorem State.PipesOk.setEntries {s : State} {c q : Nat} {l : List QEntry} (h : s.PipesOk) :
    (s.setEntries c q l).PipesOk :=
  h.setQueueReg

theorem State.PipesOk.bindQueue {s : State} {q : BitVec 5} {v : Word} (h : s.PipesOk) : (s.bindQueue q v).PipesOk :=
  .ite h.raise (.ite h.raise h.setQueueReg.setQueueReg.advance)

theorem State.PipesOk.queueWrite {s : State} {q : BitVec 5} {l : List QEntry} (h : s.PipesOk) :
    (s.queueWrite q l).PipesOk :=
  .ite h.raise (.ite h.parkOn h.setEntries.advance)

theorem State.PipesOk.queueRead {s : State} {q : BitVec 5} {n : Nat} {k : List QEntry → Slot → Slot} (h : s.PipesOk) :
    (s.queueRead q n k).PipesOk :=
  .ite h.raise (.ite h.parkOn h.setEntries.setMe)

theorem State.PipesOk.closePartner {s : State} {w : Who} {q : BitVec 5} (h : s.PipesOk) :
    (s.closePartner w q).PipesOk := by
  unfold State.closePartner
  refine .ite h ?_
  split
  · exact .ite h.trapAt h
  · exact .ite h.trapAt h
  · exact h

theorem State.PipesOk.closeQueue {s : State} {q : BitVec 5} (h : s.PipesOk) : (s.closeQueue q).PipesOk :=
  .ite h.raise h.setQueueReg.setQueueReg.closePartner.closePartner.advance

theorem State.PipesOk.setDeque {s : State} {c : Nat} {l : List (Word × Word)} (h : s.PipesOk) :
    (s.setDeque c l).PipesOk := by
  have h1 : (s.setCore c { s.core c with deque := l }).PipesOk := .setCore h rfl rfl
  refine .ite (.storeSpad ?_ _ _) h1
  exact h1

theorem execDqpop_pipesOk {s : State} {d : BitVec 5} (h : s.PipesOk) : (execDqpop d s).PipesOk := by
  unfold execDqpop
  split
  · exact .next h.setDeque.setMe
  · exact .next h.setMe

theorem State.PipesOk.serveSteal {s : State} {thief : Who} {d : BitVec 5} {victim : Nat} (h : s.PipesOk) :
    (s.serveSteal thief d victim).PipesOk :=
  h.setDeque.setSlot _ _

theorem State.PipesOk.shipSteal {s : State} {m : Msg} {victim : Nat} (h : s.PipesOk) :
    (s.shipSteal m victim).PipesOk :=
  h.drop.setDeque.tell

theorem execDqsteal_pipesOk {s : State} {d a : BitVec 5} (h : s.PipesOk) : (execDqsteal d a s).PipesOk :=
  .next (.ite h.raise (.ite h.raise (h.waitRelaxed fun _ h => .ite h.serveSteal (h.send _ _ _).setPark)))

theorem execDequeStealServed_pipesOk {s : State} {id : Nat} (h : s.PipesOk) :
    (execDequeStealServed id s).PipesOk := by
  unfold execDequeStealServed
  split
  · refine .next ?_
    split
    · exact .ite h.shipSteal h
    · exact h
  · exact .next h

/-! ### Sys2Proof/Machine/Tasks.lean -/

theorem execTcinit_pipesOk {s : State} {a b : BitVec 5} (h : s.PipesOk) : (execTcinit a b s).PipesOk := by
  unfold execTcinit
  dsimp only
  split
  · exact .next h.raise
  · exact .next (h.waitRelaxed fun _ h => h.perform)

theorem execTcdec_pipesOk {s : State} {a b : BitVec 5} (h : s.PipesOk) : (execTcdec a b s).PipesOk := by
  unfold execTcdec
  dsimp only
  split
  · exact .next h.raise
  · exact .next (h.ackRoom fun _ h => h.sendAcked.countSent.advance)

theorem State.PipesOk.overDecrement {s : State} {slot record launch : Nat} (h : s.PipesOk) :
    (s.overDecrement slot record launch).PipesOk := by
  unfold State.overDecrement
  dsimp only
  split
  · exact h.post _ _ _
  · exact h

theorem State.PipesOk.decrement {s : State} {slot record d launch : Nat} (h : s.PipesOk) :
    (s.decrement slot record d launch).PipesOk :=
  .ite h (.ite h.overDecrement (.ite h.setCountWord (.ite h.placeTask.overDecrement h.placeTask)))

theorem execTcdecArrival_pipesOk {s : State} {id : Nat} (h : s.PipesOk) : (execTcdecArrival id s).PipesOk := by
  unfold execTcdecArrival
  split
  · refine .next ?_
    split
    · exact .ite h (.ite h.decrement.countReceived.rebody h.decrement.drop)
    · exact h
  · exact .next h

theorem State.PipesOk.frameWait {s : State} (h : s.PipesOk) : s.frameWait.PipesOk := h.advance.setMe

theorem State.PipesOk.yieldSlot {s : State} {mask : BitVec 32} (h : s.PipesOk) : (s.yieldSlot mask).PipesOk := by
  unfold State.yieldSlot
  refine .ite h.departOwner.leaveGang.frameWait ?_
  dsimp only
  split
  · exact h.departOwner.leaveGang.vacate.takeAll.takeIn ‹_›
  · exact h.departOwner.leaveGang.frameWait

theorem execYield_pipesOk {s : State} {b : BitVec 5} (h : s.PipesOk) : (execYield b s).PipesOk :=
  .next (h.withMask fun _ => .ite h.raiseFree (h.waitBoth fun _ h => h.yieldSlot))

theorem State.PipesOk.sweep {s : State} {id : Nat} {l : Launch} (h : s.PipesOk) : (s.sweep id l).PipesOk :=
  .ite ((h.updLaunch _ _).fold fun _ _ h => (h.setSlot _ _).acquired) (h.updLaunch _ _)

theorem execQuiesceSweep_pipesOk {s : State} {launch : Nat} (h : s.PipesOk) :
    (execQuiesceSweep launch s).PipesOk := by
  unfold execQuiesceSweep
  split
  · exact .next (.ite h h.sweep)
  · exact .next h

/-! ### Sys2Proof/Machine/Agents.lean -/

theorem State.PipesOk.putPieces {s : State} {ps : List Piece} {bs : List Byte} (h : s.PipesOk) :
    (s.putPieces ps bs).PipesOk := by
  induction ps generalizing s bs with
  | nil => exact h
  | cons p ps ih =>
    refine ih ?_
    split
    · exact (h.physWrite _ _).setBytes _ _
    · exact h.physWrite _ _

theorem State.PipesOk.askHeld {s : State} {ask : Bool} {since : Option Nat} {part : Nat} {pid : BitVec 16} {w : Who}
    {launch va : Nat} (h : s.PipesOk) : (s.askHeld ask since part pid w launch va).PipesOk :=
  .ite h.askMigration h

/-! ### Sys2Proof/Machine/Engine.lean -/

theorem State.PipesOk.setBuf {s : State} {t n : Nat} {b : CircBuf} (h : s.PipesOk) : (s.setBuf t n b).PipesOk :=
  h.setTile _ _

theorem State.PipesOk.setEngine {s : State} {t : Nat} {e : Engine} (h : s.PipesOk) : (s.setEngine t e).PipesOk :=
  h.setTile _ _

theorem State.PipesOk.claiming {s : State} {sticks : Bool} {k : State → State} (h : s.PipesOk)
    (hk : ∀ t, t.PipesOk → (k t).PipesOk) : (s.claiming sticks k).PipesOk :=
  .ite h.parkOn (hk _ (.setEngine h))

theorem State.PipesOk.dropFresh {s : State} (h : s.PipesOk) : s.dropFresh.PipesOk := .ite h.dropClaim h

theorem State.PipesOk.commitJob {s : State} {j : Job} {qs : List RangeReq} (h : s.PipesOk) :
    (s.commitJob j qs).PipesOk :=
  .ite (h.register.setSlot _ _).setEngine.handClaim (h.register.setSlot _ _).setEngine

theorem State.PipesOk.issueRanges {s : State} {own : RangeOwner → Bool} {checks qs : List RangeReq} {i : Issue}
    {onTrap k : State → State} (h : s.PipesOk) (honTrap : ∀ t, t.PipesOk → (onTrap t).PipesOk)
    (hk : ∀ t, t.PipesOk → (k t).PipesOk) : (s.issueRanges own checks qs i onTrap k).PipesOk := by
  unfold State.issueRanges
  split
  · exact (honTrap _ h).raise
  · exact .ite (hk _ h) (.setMe (h.of_eq rfl rfl))

theorem State.PipesOk.issueJob {s : State} {plan : State → Except (Cause × Word) JobPlan} (h : s.PipesOk) :
    (s.issueJob plan).PipesOk := by
  unfold State.issueJob
  refine h.claiming fun _ h => .waitBoth (.ite h.dropFresh h) fun _ h => ?_
  split
  · exact h.dropFresh.raise
  · exact h.issueRanges (fun _ h => h.dropFresh) fun _ h => h.commitJob

theorem execEcw_pipesOk {s : State} {b : BitVec 5} {i : BitVec 8} (h : s.PipesOk) : (execEcw b i s).PipesOk :=
  .next (h.smallOnly fun _ h => .ite h.raise (h.claiming fun _ h => h.setEngine.advance))

theorem execEcr_pipesOk {s : State} {i : BitVec 8} (h : s.PipesOk) : (execEcr i s).PipesOk := by
  unfold execEcr
  refine .next (h.smallOnly fun _ h => ?_)
  split
  · exact h.result
  · exact h.raise

theorem State.PipesOk.movePoison {s : State} {k : Nat} {bad : List Bool} {skip : Nat → Bool} (h : s.PipesOk) :
    (s.movePoison k bad skip).PipesOk :=
  .ite h ((h.fold fun _ _ h => .ite (h.setPoison _ _) h).fold fun _ _ h => .ite h.markPoison h)

theorem State.PipesOk.unitPut {s : State} {part launch slot : Nat} {pid : BitVec 16} {core off : Nat} {bs : List Byte}
    {bad : List Bool} (h : s.PipesOk) : (s.unitPut part launch slot pid core off bs bad).PipesOk :=
  .ite h.put.movePoison ((h.fold fun _ _ h => .ite h h.put).movePoison.fold fun _ _ h => h.post _ _ _)

theorem State.PipesOk.engineWrite {s : State} {j : Job} {ps : List Piece} {bs : List Byte} {bad : List Bool}
    (h : s.PipesOk) : (s.engineWrite j ps bs bad).PipesOk := by
  induction ps generalizing s bs bad with
  | nil => exact h
  | cons p ps ih => exact ih (.ite h.unitPut h.putPieces.movePoison)

theorem State.PipesOk.setLive {s : State} {t : Nat} {j : Option Job} (h : s.PipesOk) : (s.setLive t j).PipesOk :=
  h.setEngine

theorem State.PipesOk.holdPage {s : State} {t : Nat} {j : Job} {ask : Bool} {va : Nat} (h : s.PipesOk) :
    (s.holdPage t j ask va).PipesOk :=
  .ite h (.ite h.setLive.askMigration h.setLive)

/-- The state of a moved piece, where it has one, has legal tables. -/
def Moved.PipesOk : Moved → Prop
  | .ok s _ _ => s.PipesOk
  | _ => True

theorem Span.then_pipesOk {x : Span} {k : List Piece → Moved} (hk : ∀ ps, (k ps).PipesOk) : (x.then_ k).PipesOk := by
  cases x with
  | ok ps => exact hk ps
  | _ => trivial

theorem State.PipesOk.copyMove {s : State} {j : Job} {src dst n : Nat} (h : s.PipesOk) :
    (s.copyMove j src dst n).PipesOk :=
  Span.then_pipesOk fun _ => Span.then_pipesOk fun _ => State.PipesOk.ite (h.engineWrite.post _ _ _) h.engineWrite

theorem State.PipesOk.quantMove {s : State} {j : Job} {src dst scale : Nat} (h : s.PipesOk) :
    (s.quantMove j src dst scale).PipesOk :=
  Span.then_pipesOk fun _ => Span.then_pipesOk fun _ => Span.then_pipesOk fun _ => State.PipesOk.ite
    (h.engineWrite.engineWrite.post _ _ _) h.engineWrite.engineWrite

theorem State.PipesOk.tryMove {s : State} {j : Job} {m : Move} (h : s.PipesOk) : (s.tryMove j m).PipesOk := by
  cases m with
  | copy src dst n => exact h.copyMove
  | nibbles src scale dst n =>
    refine Span.then_pipesOk fun _ => ?_
    split
    · exact Span.then_pipesOk fun _ => h.engineWrite
    · exact h.copyMove
  | quant src dst scale => exact h.quantMove

theorem State.PipesOk.tryMoves {s : State} {j : Job} {n : Nat} {fl : Flags} {l : List Move} (h : s.PipesOk) :
    (s.tryMoves j n fl l).PipesOk := by
  induction l generalizing s n fl with
  | nil => exact h
  | cons m r ih =>
    have hm := h.tryMove (j := j) (m := m)
    unfold State.tryMoves
    split
    · next e => exact ih (e ▸ hm : Moved.PipesOk (.ok _ _ _))
    · exact hm

theorem Progress.sector_pipesOk {p : Progress} {j : Job} {slot k : Nat} {c : Nat × Nat} (h : p.s.PipesOk) :
    (p.sector j slot k c).s.PipesOk := by
  have hm := h.tryMoves (j := j) (n := 0) (fl := 0) (l := j.moves slot c.1 c.2)
  unfold Progress.sector
  extract_lets mark
  have hmark : ∀ q : Progress, q.s.PipesOk → (mark q).s.PipesOk := fun q hq => by
    unfold mark
    split <;> exact hq
  refine iteInduction (motive := fun q : Progress => q.s.PipesOk) (fun _ => h) fun _ => ?_
  refine iteInduction (motive := fun q : Progress => q.s.PipesOk) (fun _ => hmark p h) fun _ => ?_
  split
  · next e => exact hmark _ (e ▸ hm : Moved.PipesOk (.ok _ _ _))
  · split <;> exact h
  · exact h
  · exact h

theorem State.PipesOk.runJob {s : State} {t : Nat} {j : Job} (h : s.PipesOk) : (s.runJob t j).s.PipesOk :=
  List.foldlRecOn (motive := fun p : Progress => p.s.PipesOk) _ _ h fun _ hp _ _ => Progress.sector_pipesOk hp

theorem State.PipesOk.finishRun {s : State} {t : Nat} {j : Job} {k : State → Job → State} (h : s.PipesOk)
    (hk : ∀ t y, t.PipesOk → (k t y).PipesOk) : (s.finishRun t j k).PipesOk := by
  unfold State.finishRun
  dsimp only
  split
  · exact trivial
  · exact .next h.holdPage
  · exact .next (.ite h (hk _ _ (.runJob h)))

theorem State.PipesOk.onEngine {s : State} {t : Nat} {k : Engine → Out} (h : s.PipesOk) (hk : ∀ x, (k x).PipesOk) :
    (s.onEngine t k).PipesOk :=
  .ite (hk _) (.next h)

theorem State.PipesOk.writeRecord {s : State} {j : Job} {off : Nat} {bs : List Byte} (h : s.PipesOk) :
    (s.writeRecord j off bs).PipesOk := by
  unfold State.writeRecord
  refine .ite h ?_
  split
  · exact h.engineWrite
  · exact h

theorem State.PipesOk.holdSuspended {s : State} {t : Nat} {j : Job} {ask : Bool} {va : Nat} (h : s.PipesOk) :
    (s.holdSuspended t j ask va).PipesOk :=
  .ite h (.ite h.setEngine.askMigration h.setEngine)

theorem execJobStart_pipesOk {s : State} {tile : Nat} (h : s.PipesOk) : (execJobStart tile s).PipesOk := by
  unfold execJobStart
  refine h.onEngine fun _ => .next (.ite h ?_)
  split
  · exact h.setEngine
  · exact h.setEngine.handClaim
  · exact h

theorem State.PipesOk.startFill {s : State} {tile n : Nat} {j : Job} {q : RangeReq} (h : s.PipesOk) :
    (s.startFill tile n j q).PipesOk :=
  h.setBuf.register.setLive

theorem execCbSlotStart_pipesOk {s : State} {tile : Nat} (h : s.PipesOk) : (execCbSlotStart tile s).PipesOk := by
  refine h.onEngine fun e => .next ?_
  split
  · split
    · exact .ite h (.ite (.ite h (.setLive (h.of_eq rfl rfl))) h.startFill)
    · exact h
  · exact h

theorem execCbSlotFilled_pipesOk {s : State} {tile : Nat} (h : s.PipesOk) : (execCbSlotFilled tile s).PipesOk := by
  unfold execCbSlotFilled
  refine h.onEngine fun _ => ?_
  split
  · split
    · exact h.finishRun fun _ _ h => .setLive (.setBuf h)
    · exact .next h
  · exact .next h

theorem State.PipesOk.endJob {s : State} {t : Nat} {j : Job} (h : s.PipesOk) : (s.endJob t j).PipesOk :=
  .ite h.unregister.setEngine (h.unregister.setEngine.send _ _ _)

theorem State.PipesOk.completeJob {s : State} {t : Nat} {j : Job} (h : s.PipesOk) : (s.completeJob t j).PipesOk :=
  .endJob (.ite h.writeRecord.setLive.setEngine h.writeRecord.setLive)

theorem execJobCompletion_pipesOk {s : State} {tile : Nat} (h : s.PipesOk) : (execJobCompletion tile s).PipesOk := by
  unfold execJobCompletion
  refine h.onEngine fun _ => ?_
  split
  · refine .ite (.next h) ?_
    split
    · exact .next h.holdPage
    · exact .ite (.next (.ite h.completeJob h)) (h.finishRun fun _ _ h => h.completeJob)
  · exact .next h

theorem execJobSuspension_pipesOk {s : State} {tile : Nat} (h : s.PipesOk) : (execJobSuspension tile s).PipesOk := by
  unfold execJobSuspension
  refine h.onEngine fun _ => ?_
  split
  · refine .ite (.next h) ?_
    dsimp only
    split
    · exact trivial
    · exact .next h.holdPage
    · exact .next h
    · split
      · exact .next h.holdPage
      · exact .next (h.runJob.writeRecord.post _ _ _).setEngine
  · exact .next h

theorem execJobResume_pipesOk {s : State} {tile job : Nat} (h : s.PipesOk) : (execJobResume tile job s).PipesOk := by
  unfold execJobResume
  refine h.onEngine fun _ => .next ?_
  split
  · refine .ite h ?_
    split
    · exact h.holdSuspended
    · exact h.holdSuspended
    · exact h.writeRecord.setEngine
  · exact h

theorem execJobAbort_pipesOk {s : State} {tile job : Nat} (h : s.PipesOk) : (execJobAbort tile job s).PipesOk := by
  unfold execJobAbort
  refine h.onEngine fun _ => .next ?_
  split
  · refine .ite h ?_
    split
    · exact h.holdSuspended
    · exact h.writeRecord.setEngine.endJob
  · exact h

theorem execRangeEntryRemoval_pipesOk {s : State} {id : Nat} (h : s.PipesOk) :
    (execRangeEntryRemoval id s).PipesOk := by
  unfold execRangeEntryRemoval
  split
  · split
    · refine h.onEngine fun e => ?_
      split
      · exact .ite (.next h) (h.finishRun fun _ _ h => .setLive (h.of_eq rfl rfl))
      · exact .next h
    · exact .next h
  · exact .next h

/-! ### Sys2Proof/Machine/CircBuf.lean -/

theorem State.PipesOk.cbinit {s : State} {a : Word} {n : Nat} (h : s.PipesOk) : (s.cbinit a n).PipesOk := by
  unfold State.cbinit
  refine .ite h.raise (.ite h.raise ?_)
  dsimp only
  split
  · exact h.raise
  · exact h.raise
  · exact .ite h.raise h.setBuf.advance

theorem execCbinit_pipesOk {s : State} {a : BitVec 5} {n : BitVec 4} (h : s.PipesOk) : (execCbinit a n s).PipesOk :=
  .next (h.smallOnly fun _ h => .ite h.raise (.ite h.raise (h.waitRelaxed fun _ h => h.cbinit)))

theorem execCbrel_pipesOk {s : State} {n : BitVec 4} (h : s.PipesOk) : (execCbrel n s).PipesOk :=
  .next (h.smallOnly fun _ h => h.waitRelaxed fun _ h => .ite h.raise h.setBuf.advance)

/-! ### Sys2Proof/Machine/Gang.lean -/

theorem State.PipesOk.trapAll {s : State} {c : Cause} {l : List (Who × Word)} (h : s.PipesOk) :
    (s.trapAll c l).PipesOk :=
  h.fold fun _ _ h => .ite h.trapAt (h.send _ _ _)

theorem State.PipesOk.discardJoining {s : State} {tile : Nat} (h : s.PipesOk) : (s.discardJoining tile).PipesOk :=
  (h.unregister.setTile _ _).trapAll

theorem State.PipesOk.gangLeft {s : State} {tile c : Nat} (h : s.PipesOk) : (s.gangLeft tile c).PipesOk :=
  .ite (h.setTile _ _).trapAll (h.setTile _ _).trapAll.discardJoining

theorem State.PipesOk.settleLeaves {s : State} {tile : Nat} (h : s.PipesOk) : (s.settleLeaves tile).PipesOk :=
  h.fold fun _ _ h => h.gangLeft

theorem State.PipesOk.pendingError {s : State} {k : State → State} (h : s.PipesOk)
    (hk : ∀ t, t.PipesOk → (k t).PipesOk) : (s.pendingError k).PipesOk := by
  unfold State.pendingError
  dsimp only
  split
  · exact h.waitRelaxed fun _ h => (h.setTile _ _).setMe.raise
  · exact hk _ h

theorem execMgang_pipesOk {s : State} (h : s.PipesOk) : (execMgang s).PipesOk :=
  .next (h.smallOnly fun _ h => h.settleLeaves.pendingError fun _ h => h.waitBoth fun _ h => .ite h.raise
    (.ite h.raise h.setPark))

theorem State.PipesOk.releaseGang {s : State} {tile : Nat} {w : Who} (h : s.PipesOk) :
    (s.releaseGang tile w).PipesOk := by
  refine .setSlot (.ite ?_ (h.setTile _ _)) _ _
  exact .setCore (h.setTile _ _) rfl rfl

theorem execMgangRelease_pipesOk {s : State} {tile : Nat} (h : s.PipesOk) : (execMgangRelease tile s).PipesOk :=
  .next (.ite h ((h.settleLeaves.discardJoining.setTile _ _).fold fun _ _ h => h.releaseGang))

theorem State.PipesOk.joinMember {s : State} {m : Member} {qs : List RangeReq} (h : s.PipesOk) :
    (s.joinMember m qs).PipesOk :=
  (h.register.setTile _ _).setPark

theorem State.PipesOk.gangIssue {s : State} {i : Instr} {fn : GangFn} {ra rb : Word} {imm : Nat}
    {check : State → Proj → Except (Cause × Word) Plan} (h : s.PipesOk) :
    (s.gangIssue i fn ra rb imm check).PipesOk := by
  unfold State.gangIssue
  refine h.smallOnly fun _ h => .ite h.settleLeaves.raise (h.settleLeaves.pendingError fun _ h => h.waitBoth
    fun _ h => ?_)
  split
  · exact h.raise
  · exact h.issueRanges (fun _ h => h) fun _ h => h.joinMember

theorem execMstat_pipesOk {s : State} (h : s.PipesOk) : (execMstat s).PipesOk :=
  .next (h.smallOnly fun _ h => h.pendingError fun _ h => h.waitBoth fun _ h => h.result)

theorem State.PipesOk.joinFails {s : State} {tile : Nat} {c : Cause} (h : s.PipesOk) : (s.joinFails tile c).PipesOk :=
  (h.unregister.setTile _ _).trapAll

theorem State.PipesOk.enqueueOp {s : State} {tile : Nat} (h : s.PipesOk) : (s.enqueueOp tile).PipesOk := by
  unfold State.enqueueOp
  dsimp only
  split
  · exact h
  · exact (h.reown.setTile _ _).fold fun _ _ h => .ite h.setPark (h.setSlot _ _)

theorem execGangJoin_pipesOk {s : State} {tile : Nat} (h : s.PipesOk) : (execGangJoin tile s).PipesOk :=
  .next (.ite h (.ite h.settleLeaves.joinFails (.ite h.settleLeaves.joinFails h.settleLeaves.enqueueOp)))

theorem State.PipesOk.queueCert {s : State} {c : Cert} {qs : List RangeReq} (h : s.PipesOk) :
    (s.queueCert c qs).PipesOk :=
  (h.register.setTile _ _).setPark

theorem execRangeTableRoom_pipesOk {s : State} {core slot : Nat} (h : s.PipesOk) :
    (execRangeTableRoom core slot s).PipesOk := by
  unfold execRangeTableRoom
  dsimp only
  split
  · refine .next (.ite h ?_)
    split
    · exact .trapAt (.ite h.dropClaim h)
    · exact h.trapAt
    · exact h.commitJob
    · exact h.joinMember
    · exact h.queueCert
  · exact .next h

/-! ### Sys2Proof/Machine/Array.lean -/

theorem State.PipesOk.updOp {s : State} {tile : Nat} {o : GangOp} {f : GangOp → GangOp} (h : s.PipesOk) :
    (s.updOp tile o f).PipesOk :=
  h.setTile _ _

theorem State.PipesOk.onOp {s : State} {tile : Nat} {f : GangFn → Bool} {k : GangOp → State} (h : s.PipesOk)
    (hk : ∀ x, (k x).PipesOk) : (s.onOp tile f k).PipesOk := by
  unfold State.onOp
  refine .next (.ite ?_ h)
  split
  · exact .ite h (hk _)
  · split
    · exact h.updOp
    · exact h

theorem State.PipesOk.endOp {s : State} {tile : Nat} {o : GangOp} (h : s.PipesOk) : (s.endOp tile o).PipesOk :=
  (h.setTile _ _).unregister

theorem State.PipesOk.accrueCols {s : State} {tile : Nat} {o : GangOp} {fl : SMap Flags} (h : s.PipesOk) :
    (s.accrueCols tile o fl).PipesOk := by
  unfold State.accrueCols
  refine h.fold fun _ _ h => ?_
  split
  · exact h.setSlot _ _
  · exact h

theorem State.PipesOk.arrayPut {s : State} {part launch : Nat} {pid : BitVec 16} {addr : Nat} {bs : List Byte}
    (h : s.PipesOk) : (s.arrayPut part launch pid addr bs).PipesOk :=
  h.unitPut

theorem State.PipesOk.drainTags {s : State} {addr : Nat} {ts : List Tag} (h : s.PipesOk) :
    (s.drainTags addr ts).PipesOk :=
  h.fold fun _ _ h => .ite h (h.setSideTag _ _)

theorem State.PipesOk.putRow {s : State} {tile : Nat} {o : GangOp} {v : Word} {r j : Nat}
    {es : List (Nat × Tag × Flags)} (h : s.PipesOk) : (s.putRow tile o v r j es).PipesOk := by
  unfold State.putRow
  extract_lets size fmt pid part d s1 s2
  have h2 : s2.PipesOk := .ite h.arrayPut.drainTags h.arrayPut
  exact .ite h2.arrayPut h2

theorem State.PipesOk.drainRow {s : State} {tile : Nat} {o : GangOp} {v : Word} {r j m : Nat} {fl : SMap Flags}
    (h : s.PipesOk) : (s.drainRow tile o v r j m fl).1.PipesOk := by
  unfold State.drainRow
  exact h.putRow

theorem State.PipesOk.drainWake {s : State} {tile launch : Nat} {v : Word} {d : Nat} (h : s.PipesOk) :
    (s.drainWake tile launch v d).PipesOk :=
  .ite (h.send _ _ _) h

theorem State.PipesOk.groupRow {s : State} {tile : Nat} {o : GangOp} {k : Nat} {fl : SMap Flags} (h : s.PipesOk) :
    (s.groupRow tile o k fl).1.PipesOk := by
  unfold State.groupRow
  split
  · dsimp only
    split
    · exact h.setTile _ _
    · exact List.foldlRecOn (motive := fun z : State × SMap Flags => z.1.PipesOk) _ _ (h.setTile _ _)
        fun _ hz _ _ => hz.drainRow
  · exact h

theorem State.PipesOk.failOp {s : State} {tile : Nat} {o : GangOp} (h : s.PipesOk) : (s.failOp tile o).PipesOk :=
  ((h.setTile _ _).count _ _).unregister.fold fun _ _ h => (h.setSlot _ _).trapAt

/-! ### Sys2Proof/Machine/VectorFp.lean -/

theorem State.PipesOk.fpFinish {s : State} {f : BitVec 3} {d : BitVec 4} {es : List Elem} (h : s.PipesOk) :
    (s.fpFinish f d es).PipesOk :=
  h.finishFp

theorem State.PipesOk.special {s : State} {i : Instr} (h : s.PipesOk) : (s.special i).PipesOk := h.setMe

theorem State.PipesOk.fpCmp {s : State} {op : Nat} {p : BitVec 4} {a b : BitVec 5} {f : BitVec 3} (h : s.PipesOk) :
    (s.fpCmp op p a b f).PipesOk :=
  .ite h.setMe.raise h.setMe

theorem State.PipesOk.specialDone {s : State} {es : List Elem} {i : Instr} (h : s.PipesOk) :
    (s.specialDone es i).PipesOk := by
  unfold State.specialDone
  split
  case h_7 => exact h
  all_goals exact h.fpFinish

theorem execSpecialFunctionResult_pipesOk {s : State} {core slot : Nat} (h : s.PipesOk) :
    (execSpecialFunctionResult core slot s).PipesOk := by
  unfold execSpecialFunctionResult
  split
  · exact .next (.ite (.specialDone (.setMe h)) h)
  · exact .next h

/-! ### Sys2Proof/Machine/VectorInt.lean -/

theorem State.PipesOk.intOp2 {s : State} {f : BitVec 3} {d a b : BitVec 5} {op : Nat → Nat → Nat} (h : s.PipesOk) :
    (s.intOp2 f d a b op).PipesOk :=
  h.setMe

/-! ### Sys2Proof/Machine/Control.lean -/

theorem State.PipesOk.branch {s : State} {taken : Bool} {disp : BitVec 16} (h : s.PipesOk) :
    (s.branch taken disp).PipesOk :=
  .ite h.jump h.advance

/-! ### Sys2Proof/Machine/Convert.lean -/

theorem State.PipesOk.cvtFinish {s : State} {t d : BitVec 4} {f : BitVec 3} {es : List Elem} (h : s.PipesOk) :
    (s.cvtFinish t d f es).PipesOk :=
  h.finishFp

theorem State.PipesOk.cvtToOl4 {s : State} {d a : BitVec 4} {b : BitVec 5} {f : BitVec 3} (h : s.PipesOk) :
    (s.cvtToOl4 d a b f).PipesOk := by
  unfold State.cvtToOl4
  exact h.finishFp

theorem State.PipesOk.cvtFromOl4 {s : State} {d a : BitVec 4} {b : BitVec 5} {f : BitVec 3} (h : s.PipesOk) :
    (s.cvtFromOl4 d a b f).PipesOk := by
  unfold State.cvtFromOl4
  exact h.finishFp

/-! ### Sys2Proof/Machine/Coverage.lean -/

theorem State.PipesOk.coverEnd {s : State} {tile : Nat} {o : GangOp} {tot : List FV} (h : s.PipesOk) :
    (s.coverEnd tile o tot).PipesOk :=
  h.endOp.fold fun _ _ h => h.setSlot _ _

theorem State.PipesOk.countSpan {s : State} {tile : Nat} (h : s.PipesOk) : (s.countSpan tile).PipesOk := h.setTile _ _

theorem State.PipesOk.spanFails {s : State} {l : List (Nat × GangOp)} (h : s.PipesOk) : (s.spanFails l).PipesOk :=
  h.fold fun _ _ h => h.endOp.countSpan.trapAll

/-! ### Sys2Proof/Machine/Csr.lean -/

theorem State.PipesOk.csrOp {s : State} {i : Instr} {d : BitVec 5} {c : BitVec 12} {new : Option (Word → Word)}
    (h : s.PipesOk) : (s.csrOp i d c new).PipesOk := by
  unfold State.csrOp
  dsimp only
  split
  · exact h.raise
  · exact h.setMe

/-! ### Sys2Proof/Machine/Trace.lean -/

theorem State.PipesOk.traceEvent {s : State} {c : Nat} {e : Event} (h : s.PipesOk) :
    (s.traceEvent c e).1.PipesOk := by
  unfold State.traceEvent
  dsimp only
  split
  · refine .ite (.setCore h rfl rfl) (.count ?_ _ _)
    exact .setCore h rfl rfl
  · exact h

theorem State.PipesOk.traceIssue {s : State} {w : Who} {i : Instr} {x : Slot} (h : s.PipesOk) :
    (s.traceIssue w i x).PipesOk := by
  unfold State.traceIssue
  split
  · exact h.traceEvent
  · exact h

theorem State.PipesOk.traceEntries {s before : State} (h : s.PipesOk) : (s.traceEntries before).PipesOk :=
  h.fold fun _ _ h => h.traceEvent

/-! ### Sys2Proof/Machine/System.lean -/

theorem State.PipesOk.holdDebug {s : State} {w : Who} (h : s.PipesOk) : (s.holdDebug w).PipesOk :=
  .ite (h.setSlot _ _) h

theorem State.PipesOk.goLive {s : State} {c : Nat} (h : s.PipesOk) : (s.goLive c).PipesOk := by
  unfold State.goLive
  dsimp only
  split
  · exact .ite (h.putCore c ⟨(h.core c).2 _ ‹_›, nofun⟩) h
  · exact .ite (h.setCore rfl rfl) h

theorem State.PipesOk.lateEntry {s : State} {w : Who} (h : s.PipesOk) : (s.lateEntry w).PipesOk := by
  unfold State.lateEntry
  dsimp only
  split
  · exact .ite (.ite (h.setSlot _ _).trapNow.holdDebug (h.setSlot _ _).trapNow) h
  · exact h

theorem State.PipesOk.gateStatus {s : State} {w : Who} {v : Word} (h : s.PipesOk) : (s.gateStatus w v).PipesOk :=
  h.setSlot _ _

theorem State.PipesOk.setUdeleg {s : State} {w : Who} (h : s.PipesOk) : (s.setUdeleg w).PipesOk :=
  .ite h.gateStatus (h.setSlot _ _).gateStatus

theorem State.PipesOk.holdGate {s : State} {w : Who} {ask : Bool} {va : Nat} (h : s.PipesOk) :
    (s.holdGate w ask va).PipesOk := by
  unfold State.holdGate
  dsimp only
  split
  · exact h
  · exact h.askHeld.setPark

theorem State.PipesOk.putMarked {s : State} {ps : List Piece} {bs : List Byte} {bad : List Bool} (h : s.PipesOk) :
    (s.putMarked ps bs bad).PipesOk := by
  induction ps generalizing s bs bad with
  | nil => exact h
  | cons p ps ih => exact ih h.putPieces.movePoison

theorem State.PipesOk.copyOut {s : State} {w : Who} {p : PtrDecl} {bs : List Byte} (h : s.PipesOk) :
    (s.copyOut w p bs).PipesOk := by
  unfold State.copyOut
  refine .ite h.unitPut ?_
  split
  · exact h.putPieces
  · exact h

theorem State.PipesOk.stage {s : State} {x : Slot} {area k : Nat} {bs : List Byte} {bad : List Bool} (h : s.PipesOk) :
    (s.stage x area k bs bad).PipesOk := by
  unfold State.stage
  split
  · exact h.putMarked
  · exact h

theorem State.PipesOk.copyIns {s : State} {w : Who} {call : GateCall} (h : s.PipesOk) : (s.copyIns w call).PipesOk :=
  .ite h (h.fold fun _ _ h => h.stage)

theorem State.PipesOk.stageOuts {s : State} {w : Who} {call : GateCall} (h : s.PipesOk) :
    (s.stageOuts w call).PipesOk :=
  h.fold fun _ _ h => h.stage

theorem State.PipesOk.gateReply {s : State} {w : Who} {call : GateCall} (h : s.PipesOk) :
    (s.gateReply w call).PipesOk := by
  unfold State.gateReply
  split
  · exact h.gateStatus
  · exact .ite h.setUdeleg (.ite h.gateStatus ((h.stageOuts.fold fun _ _ h => h.copyOut).setSlot _ _))

theorem execSyscallGateReply_pipesOk {s : State} {core slot : Nat} {call : GateCall} (h : s.PipesOk) :
    (execSyscallGateReply core slot call s).PipesOk := by
  unfold execSyscallGateReply
  refine .next (.ite h (.ite (.ite (.copyIns (.setSlot ?_ _ _)) h) (.ite ?_ h)))
  · exact h
  · dsimp only
    split
    · exact .holdGate h
    · exact .gateReply h

theorem State.PipesOk.gateBusy {s : State} {die : Nat} (h : s.PipesOk) : (s.gateBusy die).PipesOk :=
  h.fold fun _ _ h => h.tell

theorem State.PipesOk.journaled {s : State} {c : Change} (h : s.PipesOk) : (s.journaled c).PipesOk := h.setSys _

theorem State.PipesOk.markRecord {s : State} {c : Change} (h : s.PipesOk) : (s.markRecord c).PipesOk := h.setSys _

theorem State.PipesOk.osChange {s : State} {c : Change} {f : State → State} (h : s.PipesOk)
    (hf : ∀ t, t.PipesOk → (f t).PipesOk) : (s.osChange c f).PipesOk :=
  .ite (hf _ h).markRecord h.journaled

theorem State.PipesOk.dropPages {s : State} {agent : Nat} {r : Range} (h : s.PipesOk) :
    (s.dropPages agent r).PipesOk :=
  .ite (h.setCore rfl rfl) h

theorem State.PipesOk.shootAt {s : State} {agent : Nat} {r : Range} (h : s.PipesOk) : (s.shootAt agent r).PipesOk :=
  .ite (h.dropPages.setSys _).markRecord (h.dropPages.setSys _)

/-! ### Sys2Proof/Machine/Launching.lean -/

theorem execLaunch_pipesOk {s : State} {d a : BitVec 5} (h : s.PipesOk) : (execLaunch d a s).PipesOk :=
  .next (.ite h.raise (.ite h.raise (h.waitBoth fun _ h => .ite h.parkOn h.sendAccess)))

theorem State.PipesOk.setQueue {s : State} {p prio : Nat} {l : List Nat} (h : s.PipesOk) :
    (s.setQueue p prio l).PipesOk :=
  h.setPart rfl

theorem State.PipesOk.holdFields {s : State} {l : Launch} {bs : List Byte} {ask : Bool} {va : Nat} (h : s.PipesOk) :
    (s.holdFields l bs ask va).PipesOk := by
  unfold State.holdFields
  split
  · split
    · exact h.rebody
    · exact h
  · exact h.askHeld.send _ _ _

theorem State.PipesOk.publish {s : State} {id : Nat} (h : s.PipesOk) : (s.publish id).PipesOk := by
  unfold State.publish
  split
  · exact h
  · dsimp only
    split
    · exact .putPieces h
    · exact h.holdFields
    · exact h

theorem State.PipesOk.publishQueue {s : State} {p prio : Nat} (h : s.PipesOk) : (s.publishQueue p prio).PipesOk :=
  h.fold fun _ _ h => h.publish

theorem State.PipesOk.dequeue {s : State} {l : Launch} (h : s.PipesOk) : (s.dequeue l).PipesOk :=
  h.setQueue.publishQueue

theorem State.PipesOk.rollback {s : State} {p : Nat} (h : s.PipesOk) : (s.rollback p).PipesOk := by
  unfold State.rollback
  split
  · exact h
  · refine .publish (.updLaunch ?_ _ _)
    exact .setPart h rfl

theorem State.PipesOk.reconsider {s : State} {p : Nat} (h : s.PipesOk) : (s.reconsider p).PipesOk := by
  unfold State.reconsider
  split
  · exact .ite h.rollback h
  · exact h

theorem State.PipesOk.enqueue {s : State} {l : Launch} (h : s.PipesOk) : (s.enqueue l).PipesOk :=
  .reconsider (.publishQueue (.setQueue h))

theorem State.PipesOk.dropBell {s : State} {p prio : Nat} (h : s.PipesOk) : (s.dropBell p prio).PipesOk :=
  h.setPart rfl

theorem State.PipesOk.recordLost {s : State} {m : Msg} {part prio addr : Nat} {pid : BitVec 16} {c : Cause}
    (h : s.PipesOk) : (s.recordLost m part prio addr pid c).PipesOk :=
  .ite (h.drop.post _ _ _).dropBell (h.drop.post _ _ _).status

theorem State.PipesOk.takeRecord {s : State} {m : Msg} {addr prio : Nat} {since : Option Nat} (h : s.PipesOk) :
    (s.takeRecord m addr prio since).PipesOk := by
  unfold State.takeRecord
  refine .ite (.next h.drop.dropBell) ?_
  split
  · exact trivial
  · exact .next h.recordLost
  · exact .next h.askHeld.rebody
  · exact .next h.drop.enqueue.status

theorem execLaunchRecordSent_pipesOk {s : State} {id : Nat} (h : s.PipesOk) :
    (execLaunchRecordSent id s).PipesOk := by
  unfold execLaunchRecordSent
  split
  · split
    · exact .ite (.next (.ite h.drop h)) (State.PipesOk.takeRecord (h.of_eq rfl rfl))
    · exact .next h
  · exact .next h

theorem execQdb_pipesOk {s : State} {part prio : Nat} {addr : BitVec 64} (h : s.PipesOk) :
    (execQdb part prio addr s).PipesOk := by
  unfold execQdb
  refine .ite (.next h) (.ite (.next h.dropBell) (State.PipesOk.takeRecord (.send ?_ _ _ _)))
  exact h

theorem State.PipesOk.endLaunch {s : State} {l : Launch} {status detail : Nat} (h : s.PipesOk) :
    (s.endLaunch l status detail).PipesOk :=
  (h.dequeue.updLaunch _ _).publish

theorem execDependenceReread_pipesOk {s : State} {launch : Nat} (h : s.PipesOk) :
    (execDependenceReread launch s).PipesOk := by
  unfold execDependenceReread
  split
  · refine .ite (.next h) ?_
    extract_lets s1
    have hc : { s with cached := false }.PipesOk := h
    have h1 : s1.PipesOk := hc.updLaunch _ _
    split
    · trivial
    · exact .next (h1.post _ _ _).endLaunch
    · exact .next (h1.askHeld.updLaunch _ _)
    · exact .next (.ite (h1.updLaunch _ _).publish.reconsider (.ite h1.endLaunch (h1.updLaunch _ _).publish))
  · exact .next h

theorem execQueueAging_pipesOk {s : State} {launch : Nat} (h : s.PipesOk) : (execQueueAging launch s).PipesOk := by
  refine .next ?_
  split
  · refine .ite h (.reconsider (.publishQueue ?_))
    exact (h.dequeue (l := ‹_›)).setQueue
  · exact h

theorem execLaunchHeadCheck_pipesOk {s : State} {part : Nat} (h : s.PipesOk) :
    (execLaunchHeadCheck part s).PipesOk := by
  refine .next ?_
  split
  · refine .ite h ?_
    split
    · exact .endLaunch (h.of_eq rfl rfl)
    · exact h.updLaunch _ _
  · exact h

theorem execSelectAndReserve_pipesOk {s : State} {part first : Nat} (h : s.PipesOk) :
    (execSelectAndReserve part first s).PipesOk := by
  refine .next ?_
  split
  · refine .ite h (.publish (.updLaunch ?_ _ _))
    exact .setPart (x := { s.part part with placing := _ }) h rfl
  · exact h

theorem State.PipesOk.zeroFill {s : State} {first n lo hi : Nat} (h : s.PipesOk) :
    (s.zeroFill first n lo hi).PipesOk := by
  exact h.mapCores rfl rfl fun x hx => iteInduction (motive := fun y : Nat × Core => y.2.PipesOk) (fun _ => hx) fun _ => hx

theorem State.PipesOk.zeroMore {s : State} {part n : Nat} (h : s.PipesOk) : (s.zeroMore part n).PipesOk := by
  unfold State.zeroMore
  split
  · exact .ite h (h.zeroFill.setPart rfl)
  · exact h

theorem execPrepare_pipesOk {s : State} {part : Nat} (h : s.PipesOk) : (execPrepare part s).PipesOk := by
  unfold execPrepare
  split
  · exact .next (.ite h (.setPart (.ite h.zeroFill h) rfl))
  · exact .next h

theorem State.PipesOk.clearArrays {s : State} {first n : Nat} (h : s.PipesOk) : (s.clearArrays first n).PipesOk := h

theorem State.PipesOk.startMember {s : State} {l : Launch} {index : Nat} {m : Nat × Nat} (h : s.PipesOk) :
    (s.startMember l index m).PipesOk :=
  h.place

theorem State.PipesOk.placeSeeds {s : State} {l : Launch} {first n : Nat} (h : s.PipesOk) :
    (s.placeSeeds l first n).PipesOk :=
  .ite h (h.fold fun _ _ h => h.setCore rfl rfl)

theorem execCommit_pipesOk {s : State} {part : Nat} {picks : List (List Nat)} (h : s.PipesOk) :
    (execCommit part picks s).PipesOk := by
  refine .next ?_
  split
  · split
    · refine .ite h ?_
      extract_lets s1 s2 s3 src s4 s5 s6
      have h3 : s3.PipesOk := (h.clearArrays.fold fun _ _ h => h.startMember).placeSeeds
      have h4 : s4.PipesOk := .setPart h3 rfl
      have h5 : s5.PipesOk := h4.updLaunch _ _
      have h6 : s6.PipesOk := .publish (h5.of_eq rfl rfl)
      exact .ite h6.dequeue h6
    · exact h
  · exact h

theorem State.PipesOk.finishLaunch {s : State} {l : Launch} (h : s.PipesOk) : (s.finishLaunch l).PipesOk := by
  unfold State.finishLaunch
  refine .signal ?_ _ _ _
  exact (h.updLaunch _ _).publish

theorem State.PipesOk.recordUnwritten {s : State} {l : Launch} {c : Cause} (h : s.PipesOk) :
    (s.recordUnwritten l c).PipesOk :=
  (h.post _ _ _).finishLaunch

theorem execLaunchCompletion_pipesOk {s : State} {launch : Nat} (h : s.PipesOk) :
    (execLaunchCompletion launch s).PipesOk := by
  unfold execLaunchCompletion
  split
  · refine .ite (.next h) ?_
    have h1 : { s with cached := false }.PipesOk := h
    refine .ite (.next h1.finishLaunch) ?_
    split
    · trivial
    · exact .next h1.recordUnwritten
    · exact .next (h1.askHeld.updLaunch _ _)
    · exact .ite (.next h1.recordUnwritten) (.next h1.putPieces.finishLaunch)
  · exact .next h

theorem State.PipesOk.loadImage {s : State} {core off : Nat} {data : List Byte} {records : List Nat} (h : s.PipesOk) :
    (s.loadImage core off data records).PipesOk :=
  .ite ((h.storeSpad _ _).fold fun _ _ h => .ite h.setCountWord h) h

theorem State.PipesOk.placeSerial {s : State} {launch core : Nat} (h : s.PipesOk) :
    (s.placeSerial launch core).PipesOk := by
  unfold State.placeSerial
  split
  · refine .ite ?_ h
    split
    · exact h.place
    · exact h
  · exact h

theorem State.PipesOk.placeSupervisor {s : State} {core : Nat} {pc : Word} (h : s.PipesOk) :
    (s.placeSupervisor core pc).PipesOk := by
  unfold State.placeSupervisor
  refine .ite h ?_
  split
  · refine .setSlot ?_ _ _
    exact h
  · exact h

/-! ### Sys2Proof/Machine/Heap.lean -/

theorem State.PipesOk.bumpMark {s : State} {part : Nat} {pid : BitVec 16} (h : s.PipesOk) :
    (s.bumpMark part pid).PipesOk :=
  h.setNat _ _ _

theorem State.PipesOk.takeBlock {s : State} {c : Chunk} (h : s.PipesOk) : (s.takeBlock c).1.PipesOk := by
  unfold State.takeBlock
  exact h

theorem State.PipesOk.unmark {s : State} {part : Nat} {pid : BitVec 16} {taken : List Nat} {p : Nat} (h : s.PipesOk) :
    (s.unmark part pid taken p).PipesOk := by
  unfold State.unmark
  split
  · exact .ite h.putPieces h
  · exact h

theorem State.PipesOk.heapReply {s : State} {m : Msg} {v : Word} (h : s.PipesOk) : (s.heapReply m v).PipesOk :=
  h.drop.status

theorem State.PipesOk.heapFault {s : State} {m : Msg} {c : Cause} {v : Word} (h : s.PipesOk) :
    (s.heapFault m c v).PipesOk :=
  h.drop.tell

/-- The kernel cannot compare the match on a span at a literal multiple of 2^21 with itself (it counts the literal
down), so the chunk size is a variable here before the definition is unfolded. -/
theorem State.PipesOk.newChunk {s : State} {m : Msg} {n : Word} {since : Option Nat} {size : Nat} (h : s.PipesOk) :
    (s.newChunk m n since size).PipesOk := by
  obtain ⟨bytes, hbytes⟩ : ∃ b, b = chunkBytes := ⟨_, rfl⟩
  generalize e : @State.newChunk = f
  delta State.newChunk at e
  rw [← hbytes] at e
  subst e
  beta_reduce
  extract_lets x a base bad
  have hbad : ∀ c va, Out.PipesOk (bad c va) := fun _ _ => .next (h.bumpMark.post _ _ _).heapReply
  split
  · trivial
  · exact hbad _ _
  · exact .next h.askHeld.rebody
  · exact .ite (.next h) (.ite (hbad _ _) (.next (.heapReply (.takeBlock (h.bumpMark.putPieces.of_eq rfl rfl)))))

theorem State.PipesOk.allocStep {s : State} {m : Msg} {n : Word} {since : Option Nat} (h : s.PipesOk) :
    (s.allocStep m n since).PipesOk := by
  unfold State.allocStep
  refine .ite (.next h.heapReply) ?_
  dsimp only
  split
  · exact .ite (.next h) (.next h.takeBlock.unmark.heapReply)
  · exact .ite h.newChunk (.next h.heapReply)

theorem State.PipesOk.giveBlock {s : State} {c : Chunk} {p : Nat} {ps : List Piece} (h : s.PipesOk) :
    (s.giveBlock c p ps).PipesOk :=
  h.putPieces

theorem State.PipesOk.freeStep {s : State} {m : Msg} {p : Word} {since : Option Nat} (h : s.PipesOk) :
    (s.freeStep m p since).PipesOk := by
  unfold State.freeStep
  refine .ite (.next h.heapReply) (.ite (.next h.heapFault) ?_)
  split
  · exact trivial
  · exact .next h.heapFault
  · exact .next h.askHeld.rebody
  · refine .ite (.next h) ?_
    split
    · exact .next h.heapFault
    · refine .ite (.next h.heapFault) (.ite (.next h.heapFault) ?_)
      split
      · exact trivial
      · exact .next h.heapFault
      · exact .next h.askHeld.rebody
      · exact .ite (.next h.heapFault) (.next h.giveBlock.heapReply)

theorem execAllocatorEngineStep_pipesOk {s : State} {id : Nat} (h : s.PipesOk) :
    (execAllocatorEngineStep id s).PipesOk := by
  unfold execAllocatorEngineStep
  split
  · refine .ite (.next h) (.ite (.next h.drop) ?_)
    split
    · exact State.PipesOk.allocStep (h.of_eq rfl rfl)
    · exact State.PipesOk.freeStep (h.of_eq rfl rfl)
    · exact .next h
  · exact .next h

/-! ### Sys2Proof/Machine/Vesper.lean -/

theorem State.PipesOk.setBlock {s : State} {c k v : Nat} (h : s.PipesOk) : (s.setBlock c k v).PipesOk :=
  h.storeSpad _ _

theorem State.PipesOk.pushWaiter {s : State} {a y : Nat} {big : Bool} (h : s.PipesOk) :
    (s.pushWaiter a y big).PipesOk := by
  unfold State.pushWaiter
  refine .ite h.setDesc.setObj ?_
  split
  · exact h.setBlock.setDesc.setObj
  · refine .setObj (.setDesc ?_)
    have h1 := fun l => h.putCore (homeOf a) (h.core (homeOf a) |>.setBlocks (l := l))
    split
    · exact State.PipesOk.setBlock (h1 _).setBlock
    · exact (h1 _).setBlock

theorem State.PipesOk.takeOverflow {s : State} {a : Nat} (h : s.PipesOk) : (s.takeOverflow a).1.PipesOk := by
  unfold State.takeOverflow
  dsimp only
  split
  · exact h
  · split
    · exact h
    · split
      · exact h.setBlock
      · exact .setDesc (.putCore h.setBlock _ (h.setBlock.core _).setBlocks)

theorem State.PipesOk.popWaiter {s : State} {a : Nat} (h : s.PipesOk) : (s.popWaiter a).1.PipesOk := by
  unfold State.popWaiter
  dsimp only
  split
  · exact h
  · exact h.takeOverflow.setDesc.setObj

theorem State.PipesOk.setFld {s : State} {a : Nat} {f : Fld} {v : Nat} (h : s.PipesOk) : (s.setFld a f v).PipesOk :=
  h.setDesc

theorem State.PipesOk.carryGrant {s : State} {a : Nat} {w : Who} {mode : Nat} (h : s.PipesOk) :
    (s.carryGrant a w mode).PipesOk := by
  unfold State.carryGrant
  split
  · exact h
  · exact h.drop.tell
  · exact .ite (h.setObj.send _ _ _) h.drop.setObj.tell

theorem State.PipesOk.grant {s : State} {a y : Nat} {w : Who} (h : s.PipesOk) : (s.grant a y w).PipesOk :=
  h.setDesc.setObj.carryGrant

theorem State.PipesOk.passOn {s : State} {a n : Nat} (h : s.PipesOk) : (s.passOn a n).PipesOk := by
  induction n generalizing s with
  | zero => exact h
  | succ n ih =>
    have hp := h.popWaiter (a := a)
    unfold State.passOn
    split
    · next e =>
      rw [e] at hp
      exact hp.setFld
    · next e =>
      rw [e] at hp
      exact .ite (ih hp.setObj) hp.grant

theorem State.PipesOk.unlock {s : State} {a : Nat} (h : s.PipesOk) : (s.unlock a).PipesOk := h.setObj.passOn

theorem State.PipesOk.armNodes {s : State} {a : Nat} {on : Bool} (h : s.PipesOk) : (s.armNodes a on).PipesOk :=
  h.fold fun _ _ h => h.send _ _ _

theorem State.PipesOk.barrierMode {s : State} {a m : Nat} (h : s.PipesOk) : (s.barrierMode a m).PipesOk :=
  .ite h.setDesc.setObj.armNodes (.ite h.setDesc.setObj.armNodes h.setDesc.setObj)

theorem State.PipesOk.passNodes {s : State} {a phase : Nat} {passes : Node → Bool} (h : s.PipesOk) :
    (s.passNodes a phase passes).PipesOk :=
  h

theorem State.PipesOk.release {s : State} {a : Nat} {result : Word} (h : s.PipesOk) : (s.release a result).PipesOk :=
  .ite h.setDesc.setRedCell.setObj.passNodes (h.setDesc.setRedCell.setObj.passNodes.send _ _ _)

theorem State.PipesOk.placeAction {s : State} {a : Nat} (h : s.PipesOk) : (s.placeAction a).PipesOk :=
  .setObj (.setCore h rfl rfl)

theorem State.PipesOk.startAction {s : State} {a mode : Nat} (h : s.PipesOk) : (s.startAction a mode).PipesOk :=
  .ite (h.setObj.send _ _ _) h.placeAction

theorem State.PipesOk.phaseSwitch {s : State} {a : Nat} {done_ : Bool} (h : s.PipesOk) :
    (s.phaseSwitch a done_).PipesOk := by
  unfold State.phaseSwitch
  refine .ite h (.ite h.barrierMode (.ite ?_ h))
  split
  · exact h.barrierMode
  · exact h.barrierMode
  · exact h

theorem State.PipesOk.endPhase {s : State} {a mode : Nat} {stepSwitched : Bool} (h : s.PipesOk) :
    (s.endPhase a mode stepSwitched).PipesOk :=
  .ite h.setDesc.phaseSwitch.startAction h.setDesc.phaseSwitch.release

theorem State.PipesOk.noteArrival {s : State} {a lo hi launch : Nat} {pid : BitVec 16} {cores : List Nat}
    (h : s.PipesOk) : (s.noteArrival a lo hi launch pid cores).PipesOk :=
  h.setFld.setObj

theorem State.PipesOk.contribute {s : State} {a : Nat} {xs : List (Word × Tag)} (h : s.PipesOk) :
    (s.contribute a xs).PipesOk :=
  h.setRedCell

theorem State.PipesOk.countDirect {s : State} {a stamp : Nat} {xs : List (Word × Tag)} {launch : Nat}
    {pid : BitVec 16} {cores : List Nat} (h : s.PipesOk) : (s.countDirect a stamp xs launch pid cores).PipesOk := by
  unfold State.countDirect
  extract_lets s1 d mode b d1 d2 s2 tree s3
  have h2 : s2.PipesOk := h.noteArrival.contribute.setDesc
  have h3 : s3.PipesOk := .ite h2.barrierMode h2
  exact .ite h3.endPhase h3

theorem State.PipesOk.countCombined {s : State} {a phase : Nat} {xs : List (Word × Tag)} {first last launch : Nat}
    {pid : BitVec 16} {cores : List Nat} (h : s.PipesOk) :
    (s.countCombined a phase xs first last launch pid cores).PipesOk := by
  unfold State.countCombined
  extract_lets s1 d d1 s2 s3
  have h2 : s2.PipesOk := h.noteArrival.contribute.setDesc
  have h3 : s3.PipesOk := by
    refine .ite h2 ?_
    split
    · exact h2.post _ _ _
    · exact h2
  exact .ite h3.endPhase h3

theorem State.PipesOk.abandonWork {s : State} {a : Nat} (h : s.PipesOk) : (s.abandonWork a).PipesOk := by
  unfold State.abandonWork
  dsimp only
  split
  · refine .unlock ?_
    split
    · refine .send ?_ _ _ _
      exact h
    · exact h
  · exact .placeAction h
  · exact h

theorem State.PipesOk.departSwitch {s : State} {a : Nat} (h : s.PipesOk) : (s.departSwitch a).PipesOk :=
  .ite h (.ite h.setDesc h.barrierMode)

theorem State.PipesOk.ownerGone {s : State} {a : Nat} (h : s.PipesOk) : (s.ownerGone a).PipesOk :=
  h.setFld.abandonWork.departSwitch

/-! ### Sys2Proof/Machine/Sync.lean -/

theorem State.PipesOk.onObject {s : State} {a : BitVec 5} {k : Nat → State} (h : s.PipesOk)
    (hk : ∀ x, (k x).PipesOk) : (s.onObject a k).PipesOk := by
  unfold State.onObject
  dsimp only
  split
  · exact h.raise
  · exact hk _

theorem State.PipesOk.onImage {s : State} {b : BitVec 5} {k : Nat → State} (h : s.PipesOk) (hk : ∀ x, (k x).PipesOk) :
    (s.onImage b k).PipesOk := by
  unfold State.onImage
  dsimp only
  split
  · exact h.raise
  · exact h.waitRelaxed fun _ h => .ite h.raise (.ite h.raise (hk _))

theorem State.PipesOk.askLock {s : State} {d : BitVec 5} {o : Nat} {r : SyncReq} (h : s.PipesOk) :
    (s.askLock d o r).PipesOk :=
  (h.send _ _ _).setPark

theorem execRel_pipesOk {s : State} {a : BitVec 5} (h : s.PipesOk) : (execRel a s).PipesOk :=
  .next (h.onObject fun _ => .ite h.raise (h.waitBoth fun _ h => h.ackRoom fun _ h => h.sendAcked.setMe))

theorem State.PipesOk.arriveAt {s : State} {o : Nat} {v : Word} (h : s.PipesOk) : (s.arriveAt o v).PipesOk :=
  .ite (.setMe (.setMe h)) h.sendAcked.setMe

theorem execArrive_pipesOk {s : State} {a b : BitVec 5} (h : s.PipesOk) : (execArrive a b s).PipesOk :=
  .next (h.onObject fun _ => h.waitBoth fun _ h => h.ackRoom fun _ h => h.arriveAt)

theorem execAwait_pipesOk {s : State} {d a : BitVec 5} (h : s.PipesOk) : (execAwait d a s).PipesOk := by
  unfold execAwait
  refine .next (h.onObject fun _ => ?_)
  split
  · exact h.setMe.raise
  · refine .ite h.setMe.raise (h.waitRelaxed fun _ h => ?_)
    split
    · exact h.setMe.acquired
    · exact h.setPark

theorem execSyncserve_pipesOk {s : State} {a : BitVec 5} (h : s.PipesOk) : (execSyncserve a s).PipesOk :=
  .next (h.onObject fun _ => h.waitRelaxed fun _ h => .setPark (.send (.ite h.departOwner h) _ _ _))

theorem State.PipesOk.finishRoutine {s : State} {o : Nat} {r : Routine} (h : s.PipesOk) :
    (s.finishRoutine o r).PipesOk := by
  unfold State.finishRoutine
  refine .ite h.raise ?_
  dsimp only
  split
  · exact h.sendAcked.setMe
  · exact .ite h.sendAcked.setMe h.sendAcked.setMe

theorem execSyncdone_pipesOk {s : State} {a : BitVec 5} (h : s.PipesOk) : (execSyncdone a s).PipesOk := by
  unfold execSyncdone
  refine .next (h.onObject fun _ => ?_)
  split
  · exact h.raise
  · exact h.waitBoth fun _ h => h.ackRoom fun _ h => h.finishRoutine

theorem State.PipesOk.atHome {s : State} {id : Nat} {k : Msg → Nat → SyncReq → State} (h : s.PipesOk)
    (hk : ∀ x y z, (k x y z).PipesOk) : (s.atHome id k).PipesOk := by
  unfold State.atHome
  split
  · split
    · exact .ite h (hk _ _ _)
    · exact h
  · exact h

theorem State.PipesOk.stamped {s : State} {a : Nat} (h : s.PipesOk) : (s.stamped a).PipesOk :=
  .ite (h.storeSpad _ _) h.setFld

theorem State.PipesOk.noteTile {s : State} {a core : Nat} (h : s.PipesOk) : (s.noteTile a core).PipesOk := by
  unfold State.noteTile
  dsimp only
  split
  · exact h.setObj
  · exact .ite h h.setFld

theorem State.PipesOk.refuse {s : State} {m : Msg} {p : Park} {c : Cause} {v : Word} (h : s.PipesOk) :
    (s.refuse m p c v).PipesOk :=
  h.drop.tell

theorem State.PipesOk.ackSync {s : State} {m : Msg} {a : Nat} {bad arrive : Bool} (h : s.PipesOk) :
    (s.ackSync m a bad arrive).PipesOk :=
  h.rebody

theorem State.PipesOk.lockRequest {s : State} {m : Msg} {a req : Nat} {run : Option (Word × List Word)}
    (h : s.PipesOk) : (s.lockRequest m a req run).PipesOk := by
  unfold State.lockRequest
  extract_lets t p
  split
  · exact h.stamped.refuse
  · next t1 t2 _ _ _ _ _ =>
    have h2 : t2.PipesOk := .ite h.stamped.noteTile.rebody h.stamped.noteTile.drop
    exact .ite h2.grant (.pushWaiter (.ite h2.setDesc h2))

theorem execAcqAtHome_pipesOk {s : State} {id : Nat} (h : s.PipesOk) : (execAcqAtHome id s).PipesOk := by
  unfold execAcqAtHome
  refine .next (h.atHome fun _ _ _ => ?_)
  split
  · exact .ite h h.lockRequest
  · exact h

theorem execLockrunAtHome_pipesOk {s : State} {id : Nat} (h : s.PipesOk) : (execLockrunAtHome id s).PipesOk := by
  unfold execLockrunAtHome
  refine .next (h.atHome fun _ _ _ => ?_)
  split
  · exact .ite h h.lockRequest
  · exact h

theorem State.PipesOk.tryRequest {s : State} {m : Msg} {a : Nat} (h : s.PipesOk) : (s.tryRequest m a).PipesOk := by
  unfold State.tryRequest
  exact .ite h.stamped.refuse (.ite h.stamped.noteTile.drop.tell h.stamped.noteTile.drop.grant.tell)

theorem execTryacqAtHome_pipesOk {s : State} {id : Nat} (h : s.PipesOk) : (execTryacqAtHome id s).PipesOk := by
  unfold execTryacqAtHome
  refine .next (h.atHome fun _ _ _ => ?_)
  split
  · exact h.tryRequest
  · exact h

theorem execRelAtHome_pipesOk {s : State} {id : Nat} (h : s.PipesOk) : (execRelAtHome id s).PipesOk := by
  unfold execRelAtHome
  refine .next (h.atHome fun _ _ _ => ?_)
  dsimp only
  split
  · exact .ite h.stamped.ackSync h.stamped.noteTile.unlock.ackSync
  · exact .drop (.ite h.stamped.unlock h.stamped)
  · exact h

theorem execSyncserveAtHome_pipesOk {s : State} {id : Nat} (h : s.PipesOk) : (execSyncserveAtHome id s).PipesOk := by
  unfold execSyncserveAtHome
  refine .next (h.atHome fun _ _ _ => ?_)
  split
  · exact .ite h.stamped.refuse (.ite (h.stamped.noteTile.drop.setFld.setSlot _ _) h.stamped.noteTile.drop)
  · exact h

theorem execDirectArrival_pipesOk {s : State} {id : Nat} (h : s.PipesOk) : (execDirectArrival id s).PipesOk := by
  unfold execDirectArrival
  refine .next (h.atHome fun _ _ _ => ?_)
  split
  · exact .ite h.stamped.ackSync h.stamped.noteTile.countDirect.ackSync
  · exact h

theorem State.PipesOk.ackMembers {s : State} {a : Nat} {ms : List (Who × Nat)} {bad : Bool} (h : s.PipesOk) :
    (s.ackMembers a ms bad).PipesOk :=
  h

theorem execCombinedArrival_pipesOk {s : State} {id : Nat} (h : s.PipesOk) : (execCombinedArrival id s).PipesOk := by
  unfold execCombinedArrival
  refine .next (h.atHome fun _ _ _ => ?_)
  split
  · exact .ite h.stamped.drop.ackMembers (h.stamped.drop.fold fun _ _ h => h.noteTile).countCombined.ackMembers
  · exact h

theorem execEngineArrival_pipesOk {s : State} {id : Nat} (h : s.PipesOk) : (execEngineArrival id s).PipesOk := by
  unfold execEngineArrival
  refine .next (h.atHome fun _ _ _ => ?_)
  split
  · refine .ite ?_ h.stamped.drop.noteTile.countDirect
    split
    · exact h.stamped.drop.post _ _ _
    · exact h.stamped.drop
  · exact h

theorem State.PipesOk.routineEnd {s t : State} {w : Who} {a : Nat} {g4 : Word} (h : s.PipesOk)
    (e : s.routineEnd w a g4 = some t) : t.PipesOk := by
  unfold State.routineEnd at e
  split at e
  · split at e <;> cases e
    exact h.unlock
  · split at e <;> cases e
    refine .unlock ?_
    split
    · exact h.send _ _ _
    · exact h
  · split at e <;> cases e
    exact h.release
  · split at e <;> cases e
    exact h.release
  · cases e

theorem execSyncdoneAtHome_pipesOk {s : State} {id : Nat} (h : s.PipesOk) : (execSyncdoneAtHome id s).PipesOk := by
  unfold execSyncdoneAtHome
  refine .next (h.atHome fun _ _ _ => ?_)
  split
  · refine .ite h.stamped.ackSync ?_
    split
    · exact (h.stamped.noteTile.routineEnd ‹_›).ackSync
    · exact h.stamped.ackSync
  · exact h

theorem State.PipesOk.requestMode {s : State} {a m : Nat} (h : s.PipesOk) : (s.requestMode a m).PipesOk :=
  .ite h (.ite h.setDesc h.barrierMode)

theorem State.PipesOk.rewritePolicy {s : State} {a img : Nat} (h : s.PipesOk) : (s.rewritePolicy a img).PipesOk := by
  unfold State.rewritePolicy
  extract_lets d old renamed d1 s1 s2
  have h2 : s2.PipesOk := .ite h.setDesc.ownerGone.tell h.setDesc
  exact .ite h2.requestMode h2

theorem execSyncpolAtHome_pipesOk {s : State} {id : Nat} (h : s.PipesOk) : (execSyncpolAtHome id s).PipesOk := by
  unfold execSyncpolAtHome
  refine .next (h.atHome fun _ _ _ => ?_)
  split
  · exact .ite h.stamped.refuse (.ite h.stamped.drop.status h.stamped.drop.noteTile.rewritePolicy.status)
  · exact h

theorem State.PipesOk.freeObject {s : State} {a : Nat} (h : s.PipesOk) : (s.freeObject a).PipesOk :=
  .dropObj (.setFld (.setCore (.ite h.armNodes h) rfl rfl))

theorem execSyncfreeAtHome_pipesOk {s : State} {id : Nat} (h : s.PipesOk) : (execSyncfreeAtHome id s).PipesOk := by
  unfold execSyncfreeAtHome
  refine .next (h.atHome fun _ _ _ => ?_)
  split
  · exact .ite h.stamped.refuse h.stamped.noteTile.freeObject.drop.status
  · exact h

theorem execOwnerDeparture_pipesOk {s : State} {id : Nat} (h : s.PipesOk) : (execOwnerDeparture id s).PipesOk := by
  unfold execOwnerDeparture
  refine .next (h.atHome fun _ _ _ => ?_)
  split
  · exact .ite h.stamped.drop.ownerGone h.stamped.drop
  · exact .ite h.stamped.drop.placeAction h.stamped.drop
  · exact h

theorem execKillMark_pipesOk {s : State} {id : Nat} (h : s.PipesOk) : (execKillMark id s).PipesOk := by
  unfold execKillMark
  refine .next (h.atHome fun _ _ _ => ?_)
  split
  · refine .ite h.stamped.drop (.ite h.stamped.drop.setObj ?_)
    split
    · exact h.stamped.drop
    · exact .ite h.stamped.drop.unlock h.stamped.drop
  · exact h

theorem State.PipesOk.wakeWatch {s : State} {w : Who} {a : Nat} {r : Word} (h : s.PipesOk) :
    (s.wakeWatch w a r).PipesOk := by
  unfold State.wakeWatch
  dsimp only
  split
  · refine .ite h ?_
    split
    · exact .ite (h.setSlot _ _).acquired (h.setSlot _ _)
    · exact h.setSlot _ _
  · exact h

theorem execReleaseReachesCore_pipesOk {s : State} {id core : Nat} (h : s.PipesOk) :
    (execReleaseReachesCore id core s).PipesOk := by
  refine .next ?_
  split
  · split
    · refine .ite h ?_
      extract_lets s1 s2 x s3 todo
      have h2 : s2.PipesOk := (h.fold fun _ _ h => h.wakeWatch).passNodes
      have h3 : s3.PipesOk := .ite (h2.setCore rfl rfl) h2
      exact .ite h3.drop h3.rebody
    · exact h
  · exact h

theorem State.PipesOk.forwardNode {s : State} {n : Node} (h : s.PipesOk) : (s.forwardNode n).PipesOk := by
  unfold State.forwardNode
  refine .ite h (.ite h (.send ?_ _ _ _))
  exact h

theorem execNodeForward_pipesOk {s : State} {desc level unit : Nat} (h : s.PipesOk) :
    (execNodeForward desc level unit s).PipesOk := by
  unfold execNodeForward
  split
  · exact .next (.ite h h.forwardNode)
  · exact .next h

theorem execNodeArming_pipesOk {s : State} {id : Nat} (h : s.PipesOk) : (execNodeArming id s).PipesOk := by
  refine .next ?_
  split
  · split
    · refine .ite h ?_
      dsimp only
      split
      · exact h.drop.forwardNode
      · exact h
      · exact h.drop
    · exact h
  · exact h

theorem execDelegatedWorkAtOwner_pipesOk {s : State} {id : Nat} (h : s.PipesOk) :
    (execDelegatedWorkAtOwner id s).PipesOk := by
  unfold execDelegatedWorkAtOwner
  split
  · refine .next ?_
    split
    · exact .ite h (h.drop.setSlot _ _).acquired
    · exact h
  · exact .next h

theorem execLockrunResult_pipesOk {s : State} {id : Nat} (h : s.PipesOk) : (execLockrunResult id s).PipesOk := by
  unfold execLockrunResult
  split
  · refine .next ?_
    split
    · refine .ite h ?_
      dsimp only
      split
      · exact .ite h.drop.drop (h.drop.drop.setSlot _ _).acquired
      · exact h.drop.drop
    · exact h
  · exact .next h

/-! ### Sys2Proof/Machine/Ready.lean -/

theorem State.PipesOk.endCycle {s : State} {core : Nat} {issued : Option Nat} (h : s.PipesOk) :
    (s.endCycle core issued).PipesOk :=
  h.takeWork.setCore rfl rfl

/-! ### Sys2Proof/Machine/Host.lean -/

theorem State.PipesOk.hostReads {s : State} {r : Option (List Byte)} (h : s.PipesOk) : (s.hostReads r).PipesOk :=
  h.setSys _

theorem State.PipesOk.hostEnds {s : State} {bad : Bool} (h : s.PipesOk) : (s.hostEnds bad).PipesOk := h.setSys _

theorem execHostAccess_pipesOk {s : State} {addr n : Nat} {data : Option (List (BitVec 8))} (h : s.PipesOk) :
    (execHostAccess addr n data s).PipesOk := by
  unfold execHostAccess
  refine .next (.ite h (.ite (.ite (h.setSys _).hostEnds.hostReads (h.setSys _).hostEnds) ?_))
  split
  · exact .ite h (.ite h.hostEnds.hostReads.postAll h.hostEnds.hostReads)
  · exact .ite h (.ite h.hostEnds.postAll (h.hostEnds.physWrite _ _))

theorem State.PipesOk.losePosted {s : State} (h : s.PipesOk) : s.losePosted.PipesOk := by
  unfold State.losePosted
  refine .fold (.fold h fun _ _ h => h.setBytes _ _) fun _ _ h => h.fold fun _ _ h => .setSlot ?_ _ _
  exact h

theorem State.PipesOk.fenceHost {s : State} (h : s.PipesOk) : s.fenceHost.PipesOk := (h.losePosted.setSys _).postAll

theorem execHeartbeatCheck_pipesOk {s : State} (h : s.PipesOk) : (execHeartbeatCheck s).PipesOk :=
  .next (.ite h (.ite ((h.setSys _).setSys _) (.ite (h.setSys _)
    (.ite (h.setSys _).fenceHost ((h.setSys _).setSys _)))))

/-- Right after reset no core and no image is listed. -/
theorem State.pipesOk_reset : State.reset.PipesOk := ⟨nofun, nofun⟩

theorem execDaybreak_pipesOk {s : State} {boot : BootReport} : (execDaybreak boot s).PipesOk :=
  .next (State.pipesOk_reset.of_eq rfl rfl)

/-! ### Sys2Proof/Machine/Passes.lean -/

theorem State.PipesOk.opBegin {s : State} {tile : Nat} {o : GangOp} (h : s.PipesOk) : (s.opBegin tile o).PipesOk :=
  .ite (h.setTile _ _) h

theorem State.PipesOk.passRow {s : State} {tile : Nat} {o : GangOp} {k : Nat} {fl : SMap Flags} (h : s.PipesOk) :
    (s.passRow tile o k fl).1.PipesOk := by
  unfold State.passRow
  split
  · exact h.drainRow
  · exact h.groupRow
  · exact h.setTile _ _

theorem State.PipesOk.passRows {s : State} {tile : Nat} {o : GangOp} {n k : Nat} {fl : SMap Flags} (h : s.PipesOk) :
    (s.passRows tile o n k fl).1.PipesOk := by
  induction n generalizing s k fl with
  | zero => exact h
  | succ n ih => exact ih h.passRow

theorem State.PipesOk.passAll {s : State} {tile : Nat} {o : GangOp} (h : s.PipesOk) : (s.passAll tile o).PipesOk :=
  h.opBegin.passRows.accrueCols

theorem State.PipesOk.opRowPast {s : State} {tile : Nat} {load : Bool} (h : s.PipesOk) :
    (s.opRowPast tile load).PipesOk := by
  unfold State.opRowPast
  split
  · exact .ite h h.opBegin.passRow.updOp
  · exact h

theorem execShadowLoad_pipesOk {s : State} {tile : Nat} (h : s.PipesOk) : (execShadowLoad tile s).PipesOk :=
  h.onOp fun _ => h.passAll.endOp

theorem execPlaneSwap_pipesOk {s : State} {tile : Nat} (h : s.PipesOk) : (execPlaneSwap tile s).PipesOk :=
  h.onOp fun _ => (h.setTile _ _).endOp

theorem execAccumulatorZero_pipesOk {s : State} {tile : Nat} (h : s.PipesOk) : (execAccumulatorZero tile s).PipesOk :=
  h.onOp fun _ => (h.setTile _ _).endOp

theorem execStreamPass_pipesOk {s : State} {tile : Nat} (h : s.PipesOk) : (execStreamPass tile s).PipesOk :=
  h.onOp fun _ => h.passAll.endOp

theorem execDrain_pipesOk {s : State} {tile : Nat} (h : s.PipesOk) : (execDrain tile s).PipesOk :=
  h.onOp fun _ => h.passAll.endOp.drainWake

theorem execGroupedProduct_pipesOk {s : State} {tile : Nat} (h : s.PipesOk) : (execGroupedProduct tile s).PipesOk :=
  h.onOp fun _ => (h.passAll.setTile _ _).endOp.fold fun _ _ h => h.drainWake

theorem execCoverageInit_pipesOk {s : State} {tile : Nat} (h : s.PipesOk) : (execCoverageInit tile s).PipesOk :=
  h.onOp fun _ => (h.setTile _ _).endOp

theorem execCoverageReadback_pipesOk {s : State} {tile : Nat} (h : s.PipesOk) :
    (execCoverageReadback tile s).PipesOk :=
  h.onOp fun _ => h.arrayPut.endOp.fold fun _ _ h => h.setSlot _ _

theorem execCoverageCommit_pipesOk {s : State} {tile : Nat} (h : s.PipesOk) : (execCoverageCommit tile s).PipesOk :=
  h.onOp fun _ => h.passAll.endOp

theorem execCoverageProbe_pipesOk {s : State} {tile : Nat} (h : s.PipesOk) : (execCoverageProbe tile s).PipesOk := by
  unfold execCoverageProbe
  refine h.onOp fun _ => .ite h.passAll.coverEnd ?_
  split
  · exact h
  · exact .ite h.passAll.updOp (.ite h.spanFails h)

theorem execSpanJoin_pipesOk {s : State} {tile : Nat} (h : s.PipesOk) : (execSpanJoin tile s).PipesOk := by
  unfold execSpanJoin
  dsimp only
  split
  · exact .next (.ite h (h.fold fun _ _ h => h.accrueCols.coverEnd.countSpan))
  · exact .next h

theorem State.PipesOk.runFn {s : State} {tile : Nat} {f : GangFn} (h : s.PipesOk) : (s.runFn tile f).PipesOk := by
  unfold State.runFn
  split
  · exact execShadowLoad_pipesOk h
  · exact execShadowLoad_pipesOk h
  · exact execPlaneSwap_pipesOk h
  · exact execAccumulatorZero_pipesOk h
  · exact execStreamPass_pipesOk h
  · exact execGroupedProduct_pipesOk h
  · exact execDrain_pipesOk h
  · exact execCoverageInit_pipesOk h
  · exact execCoverageProbe_pipesOk h
  · exact execCoverageCommit_pipesOk h
  · exact execCoverageReadback_pipesOk h

theorem State.PipesOk.rerun {s : State} {tile : Nat} {o : GangOp} (h : s.PipesOk) : (s.rerun tile o).PipesOk :=
  ((h.setTile _ _).updOp.count _ _).runFn

/-! ### Sys2Proof/Machine/Fleet.lean -/

theorem State.PipesOk.setRun {s : State} {p : Nat} {r : RunState} (h : s.PipesOk) : (s.setRun p r).PipesOk :=
  h.setPart rfl

theorem State.PipesOk.eventide {s : State} {p : Nat} (h : s.PipesOk) : (s.eventide p).PipesOk := by
  unfold State.eventide
  refine .ite h ?_
  split
  · exact .setRun (.rollback h)
  · exact h
  · exact h
  · exact h.setPart rfl

theorem execEventideStop_pipesOk {s : State} {part : Nat} (h : s.PipesOk) : (execEventideStop part s).PipesOk := by
  unfold execEventideStop
  split
  · exact .next (.ite h h.setRun)
  · exact .next h

theorem State.PipesOk.retime {s : State} {p : Nat} {f : Nat → Nat → Nat} (h : s.PipesOk) : (s.retime p f).PipesOk :=
  h.mapCores rfl rfl fun _ hx => iteInduction (motive := fun y : Nat × Core => y.2.PipesOk) (fun _ => hx) fun _ => hx

theorem State.PipesOk.shiftTimers {s : State} {p t : Nat} (h : s.PipesOk) : (s.shiftTimers p t).PipesOk := h.retime

theorem State.PipesOk.countMapped {s : State} (h : s.PipesOk) : s.countMapped.PipesOk := h.count _ _

theorem State.PipesOk.killNow {s : State} {w : Who} (h : s.PipesOk) : (s.killNow w).PipesOk :=
  h.journaled.kill.markRecord

theorem State.PipesOk.endGang {s : State} {l : Launch} {y : Nat × Nat} (h : s.PipesOk) : (s.endGang l y).PipesOk := by
  unfold State.endGang
  refine .updLaunch ?_ _ _
  refine State.PipesOk.mapCores (.fold h fun _ _ h => h.killNow) rfl rfl fun x hx => iteInduction (motive := fun y : Nat × Core => y.2.PipesOk) (fun _ => hx) fun _ => hx

theorem State.PipesOk.withdraw {s : State} {sg : Nat} (h : s.PipesOk) : (s.withdraw sg).PipesOk := by
  unfold State.withdraw
  extract_lets hit s1 less hits s2
  have h1 : s1.PipesOk := by
    refine h.fold fun _ _ h => .updLaunch (.dequeue ?_) _ _
    exact h.fold fun _ _ h => h.endGang
  have h2 : s2.PipesOk := h1.fold fun _ _ h => h.journaled.markRecord
  exact ⟨h2.1, List.forall_mem_map.mpr h2.2⟩

theorem State.PipesOk.mapOut {s : State} {u : FailedUnit} (h : s.PipesOk) : (s.mapOut u).PipesOk := by
  unfold State.mapOut
  split
  · exact (h.setSys _).countMapped
  · exact .ite h.withdraw.countMapped (h.setSys _).countMapped
  · exact h.setSys _
  · exact h.setSys _
  · exact h

theorem State.PipesOk.eventideNow {s : State} {p : Nat} (h : s.PipesOk) : (s.eventideNow p).PipesOk :=
  h.journaled.eventide.markRecord

theorem State.PipesOk.awaitMapOut {s : State} {u : FailedUnit} (h : s.PipesOk) : (s.awaitMapOut u).PipesOk :=
  h.setSys _

theorem State.PipesOk.takeUp {s : State} {u : FailedUnit} (h : s.PipesOk) : (s.takeUp u).PipesOk :=
  .ite (h.awaitMapOut.fold fun _ _ h => h.eventideNow) h.mapOut

theorem State.PipesOk.unitFails {s : State} {unit : FailedUnit} (h : s.PipesOk) : (s.unitFails unit).PipesOk := by
  unfold State.unitFails
  refine .ite h ?_
  dsimp only
  split
  · exact .awaitMapOut (.postAll (.count h _ _))
  · exact .ite (.takeUp (.postAll (.count h _ _))) (.awaitMapOut (.postAll (.count h _ _)))

theorem State.PipesOk.takeUpAll {s : State} (h : s.PipesOk) : s.takeUpAll.PipesOk :=
  h.fold fun _ _ h => (h.setSys _).takeUp

theorem execEventideResume_pipesOk {s : State} {part : Nat} (h : s.PipesOk) :
    (execEventideResume part s).PipesOk := by
  unfold execEventideResume
  split
  · exact .next (.ite h (.setRun (.fold (.setSys h _) fun _ _ h => h.mapOut)))
  · exact .next (.ite h (.ite (.eventide (.setPart h.shiftTimers rfl)) (.setPart h.shiftTimers rfl)))
  · exact .next h

theorem State.PipesOk.cleared {s : State} {p : Nat} (h : s.PipesOk) : (s.cleared p).PipesOk := by
  exact h.mapCores rfl rfl fun x hx => iteInduction (motive := fun y : Nat × Core => y.2.PipesOk)
    (fun _ => Core.pipesOk_reset) fun _ => hx

theorem State.PipesOk.imageOf {s : State} {p : Nat} (h : s.PipesOk) : (s.imageOf p).PipesOk :=
  fun x hx => h.1 x (List.mem_filter.mp hx).1

theorem State.PipesOk.restored {s : State} {p t : Nat} {i : Image} (h : s.PipesOk) (hi : i.PipesOk) :
    (s.restored p t i).PipesOk := by
  unfold State.restored
  extract_lets s1 s2 s3 s4 s5 s6 s7
  have h3 : s3.PipesOk :=
    (List.foldlRecOn (motive := State.PipesOk) _ _ (h.fold fun _ _ h => h.setSlot _ _)
      fun _ h x hx => h.putCore x.1 (hi x hx).keep).fold fun _ _ h => h.setTile _ _
  have h6 : s6.PipesOk :=
    ((h3.fold fun _ _ h => h.setBytes _ _).fold fun _ _ h => h.setSideTag _ _).fold fun _ _ h => h.setPoison _ _
  have h7 : s7.PipesOk := h6.fold fun _ _ h => h.updLaunch _ _
  exact .retime (h7.of_eq rfl rfl)

theorem State.PipesOk.switchContext {s : State} {p k : Nat} (h : s.PipesOk) : (s.switchContext p k).PipesOk := by
  unfold State.switchContext
  split
  · next t _ =>
    refine .ite h ?_
    dsimp only
    have h1 : ((s.cleared p).setPart p { s.part p with images := (s.part p).images.eraseIdx k ++ [(s.shiftTimers p t).imageOf p] }).PipesOk :=
      h.cleared.putPart p fun i hi => (List.mem_append.mp hi).elim (fun hi => h.part p i (List.mem_of_mem_eraseIdx hi))
        fun hi => List.mem_singleton.mp hi ▸ h.shiftTimers.imageOf
    split
    · next j hj => exact h1.restored (h.part p j (List.mem_of_getElem? hj))
    · exact h1
  · exact h

theorem State.PipesOk.countError {s : State} {u : FailedUnit} (h : s.PipesOk) : (s.countError u).PipesOk :=
  .ite (h.setSys _).unitFails (h.setSys _)

theorem execMatrixRerun_pipesOk {s : State} {tile : Nat} {good : Bool} (h : s.PipesOk) :
    (execMatrixRerun tile good s).PipesOk := by
  unfold execMatrixRerun
  refine .ite (.next h) ?_
  split
  · split
    · exact h.rerun
    · exact .next h
  · refine .next ?_
    split
    · exact .ite h.failOp h.failOp.countError
    · exact h

theorem execScrubError_pipesOk {s : State} {addr : Nat} (h : s.PipesOk) : (execScrubError addr s).PipesOk := by
  unfold execScrubError
  refine .next (.ite h (.ite (.ite h (.countError ?_)) (.ite h.markPoison.postAll.countError h)))
  split
  · exact h.markPoison.post _ _ _
  · exact h.markPoison

theorem State.PipesOk.nfRefuse {s : State} {p : Nat} (h : s.PipesOk) : (s.nfRefuse p).PipesOk := h.setPart rfl

theorem execNightfallStopRequest_pipesOk {s : State} {part : Nat} (h : s.PipesOk) :
    (execNightfallStopRequest part s).PipesOk := by
  unfold execNightfallStopRequest
  refine .next (.ite h ?_)
  split
  · exact h.setPart rfl
  · exact h.nfRefuse

theorem execNightfallResumeRequest_pipesOk {s : State} {part : Nat} (h : s.PipesOk) :
    (execNightfallResumeRequest part s).PipesOk := by
  unfold execNightfallResumeRequest
  refine .next (.ite h ?_)
  split
  · refine .setPart ?_ rfl
    exact h
  · exact h.nfRefuse

theorem execNightfallStop_pipesOk {s : State} {part : Nat} (h : s.PipesOk) : (execNightfallStop part s).PipesOk := by
  unfold execNightfallStop
  split
  · exact .next (.ite h (.fold (.setRun (.rollback h)) fun _ _ h => h.storeSpad _ _))
  · exact .next h

theorem State.PipesOk.applyWrite {s : State} {w : StateWrite} (h : s.PipesOk) : (s.applyWrite w).PipesOk := by
  unfold State.applyWrite
  dsimp only
  split
  · exact h.setSlot _ _
  · exact h.setSlot _ _
  · exact h.setSlot _ _
  · exact h.setSlot _ _
  · exact h.setSlot _ _
  · exact h.setSlot _ _
  · exact ((h.setBytes _ _).setSideTag _ _).setPoison _ _
  · exact .ite h.setEngine h.setEngine
  · exact h.setTile _ _
  · exact h.setTile _ _
  · exact h.setTile _ _
  · exact h.setTile _ _
  · exact h.setTile _ _

theorem execStoppedStateWrite_pipesOk {s : State} {w : StateWrite} (h : s.PipesOk) :
    (execStoppedStateWrite w s).PipesOk := by
  unfold execStoppedStateWrite
  split
  · exact .next (.ite (h.setPart rfl) h)
  · exact .next h

theorem State.PipesOk.applyPoke {s : State} {p : Poke} (h : s.PipesOk) : (s.applyPoke p).PipesOk := by
  unfold State.applyPoke
  split
  · exact h.setSlot _ _
  · exact h.setTile _ _

theorem State.PipesOk.poke {s : State} {w : Poke} (h : s.PipesOk) : (s.poke w).PipesOk := by
  unfold State.poke
  split
  · exact .ite (h.setPart rfl) h
  · exact h

theorem execNightfallResume_pipesOk {s : State} {part : Nat} (h : s.PipesOk) :
    (execNightfallResume part s).PipesOk := by
  refine .next ?_
  split
  · refine .ite h ?_
    extract_lets x s1 s2
    have h1 : s1.PipesOk := h.shiftTimers.setPart rfl
    have h2 : s2.PipesOk := (h1.fold fun _ _ h => h.applyPoke).fold fun _ _ h => h.applyWrite
    exact .ite h2.eventide h2
  · exact h

theorem State.PipesOk.setTrace {s : State} {c : Nat} {t : Trace} (h : s.PipesOk) : (s.setTrace c t).PipesOk :=
  h.setCore rfl rfl

theorem State.PipesOk.startPartition {s : State} {p : Nat} (h : s.PipesOk) : (s.startPartition p).PipesOk :=
  State.PipesOk.mapCores (h.putPart p fun _ hi => absurd hi List.not_mem_nil) rfl rfl
    fun _ hx => iteInduction (motive := fun y : Nat × Core => y.2.PipesOk) (fun _ => hx) fun _ => hx

theorem State.PipesOk.endPartition {s : State} {p : Nat} (h : s.PipesOk) : (s.endPartition p).PipesOk := h.setSys _

theorem State.PipesOk.writeEntry {s : State} {part : Nat} {v : Word} (h : s.PipesOk) :
    (s.writeEntry part v).PipesOk := by
  unfold State.writeEntry
  extract_lets sgs x s1 t
  have ht : t.PipesOk := .putPart (.ite h.endPartition h) _ (h.part part)
  exact .ite (h.setPart rfl) (.ite ht.startPartition ht)

theorem State.PipesOk.writeMask {s : State} {part : Nat} {v : Word} (h : s.PipesOk) : (s.writeMask part v).PipesOk :=
  .ite (h.setPart rfl) (h.setPart rfl)

theorem State.PipesOk.setIsland {s : State} {i : Nat} {x : Island} (h : s.PipesOk) : (s.setIsland i x).PipesOk :=
  h.setSys _

theorem State.PipesOk.sense {s : State} {i power temp : Nat} (h : s.PipesOk) : (s.sense i power temp).PipesOk :=
  .ite (h.setIsland.setSys _) h.setIsland

theorem State.PipesOk.stepDown {s : State} {i : Nat} (h : s.PipesOk) : (s.stepDown i).PipesOk := .ite h h.setIsland

theorem execIslandStepDown_pipesOk {s : State} {island power temp : Nat} (h : s.PipesOk) :
    (execIslandStepDown island power temp s).PipesOk := by
  refine .next (.ite h ?_)
  extract_lets s1 s2
  have h2 : s2.PipesOk := .ite h.sense.stepDown h.sense
  exact .ite (h2.fold fun _ _ h => h.stepDown) h2

theorem execThermalWithhold_pipesOk {s : State} {sg temp : Nat} (h : s.PipesOk) :
    (execThermalWithhold sg temp s).PipesOk := by
  unfold execThermalWithhold
  refine .next (.ite h (.ite h.sense.setIsland ?_))
  split
  · exact h.sense.setIsland
  · exact .ite (h.sense.setSys _) h.sense

theorem State.PipesOk.writeIslctl {s : State} {i : Nat} {v : Word} (h : s.PipesOk) : (s.writeIslctl i v).PipesOk :=
  .ite h h.setIsland

theorem execTelemetrySample_pipesOk {s : State} (h : s.PipesOk) : (execTelemetrySample s).PipesOk :=
  .next (.ite h (.ite ((h.setSys _).count _ _) (((h.setSys _).physWrite _ _).setSys _)))

/-! ### Sys2Proof/Machine/Held.lean -/

theorem State.PipesOk.rewalkFields {s : State} {m : Msg} {ripe : Bool} (h : s.PipesOk) :
    (s.rewalkFields m ripe).PipesOk := by
  unfold State.rewalkFields
  split
  · split
    · exact h.drop.putPieces
    · exact h.askHeld.rebody
    · exact h.drop
  · exact h

theorem execHeldRewalk_pipesOk {s : State} {id : Nat} (h : s.PipesOk) : (execHeldRewalk id s).PipesOk := by
  have h1 : { s with cached := false }.PipesOk := h
  unfold execHeldRewalk
  split
  · split
    · split
      · exact .ite (.next h) (.next h1.translated)
      · exact .next h
    · exact .ite (.next h) (.next h1.rewalkFetch)
    · exact .ite (.next h) (.next h1.rewalkFields)
    · exact .next h
  · exact .next h

theorem execHoldTimeout_pipesOk {s : State} {id : Nat} (h : s.PipesOk) : (execHoldTimeout id s).PipesOk := by
  have h1 : { s with cached := false }.PipesOk := h
  unfold execHoldTimeout
  dsimp only
  split
  · split
    · split
      · exact .next (.ite h1.translated h)
      · exact .next h
    · exact .next (.ite h.rebody h)
    · exact .next (.ite h1.rewalkFields h)
    · exact .next h
  · exact .next h

/-! ### Sys2Proof/Machine/Leader.lean -/

theorem State.PipesOk.makeChange {s : State} {c : Change} (h : s.PipesOk) : (s.makeChange c).PipesOk := by
  unfold State.makeChange
  split
  · exact h.physWrite _ _
  · exact h.writeEntry
  · exact h.writeMask
  · exact h
  · exact h.eventide
  · exact .ite h.kill h

theorem State.PipesOk.replay {s : State} (h : s.PipesOk) : s.replay.PipesOk :=
  h.fold fun _ _ h => h.makeChange.markRecord

theorem execLeaderTakeover_pipesOk {s : State} (h : s.PipesOk) : (execLeaderTakeover s).PipesOk := by
  refine .next ?_
  split
  · refine .ite h ?_
    extract_lets old down s1 y1 s2 y2 s3 s4
    have h2 : s2.PipesOk := h.replay.setSys _
    have h3 : s3.PipesOk := .ite (h2.setSys _) h2
    have h4 : s4.PipesOk := .ite h3.msix h3
    exact .ite (h4.fold fun _ _ h => h.gateBusy).takeUpAll h4
  · exact h

theorem execFirmwareMemoryWrite_pipesOk {s : State} {addr : Nat} {data : List (BitVec 8)} {applied : Bool}
    (h : s.PipesOk) : (execFirmwareMemoryWrite addr data applied s).PipesOk :=
  .ite (.next h) (.ite trivial (.next (.ite (.ite h.makeChange.markRecord h) h.journaled)))

/-! ### Sys2Proof/Machine/Registers.lean -/

theorem State.PipesOk.writeFq {s : State} {p off : Nat} {v : Word} (h : s.PipesOk) : (s.writeFq p off v).PipesOk := by
  unfold State.writeFq
  dsimp only
  split
  · exact h.setPart rfl
  · exact .ite (h.setPart rfl) h
  · exact h.setPart rfl
  · exact h.setPart rfl
  · exact h.setPart rfl
  · exact h

theorem State.PipesOk.writeTrace {s : State} {c off : Nat} {v : Word} (h : s.PipesOk) :
    (s.writeTrace c off v).PipesOk := by
  unfold State.writeTrace
  dsimp only
  split
  · exact h.setTrace
  · exact h.setTrace
  · exact h.setTrace
  · exact h.setTrace
  · exact h

theorem execRegisterWrite_pipesOk {s : State} {off : Nat} {v : BitVec 64} (h : s.PipesOk) :
    (execRegisterWrite off v s).PipesOk := by
  unfold execRegisterWrite
  refine .next (.ite h (.ite (.ite h (h.setPart rfl)) (.ite h.writeFq (.ite h.writeTrace (.ite h.writeIslctl (.ite
    (h.setSys _) ?_))))))
  split
  · exact h.setSys _
  · exact h.setSys _
  · exact h.setSys _
  · exact .ite (h.setSys _) h
  · exact h.setSys _
  · exact h

/-! ### Sys2Proof/Machine/Issue.lean -/

theorem State.PipesOk.unparked {s : State} {w : Who} (h : s.PipesOk) : (s.unparked w).PipesOk := by
  unfold State.unparked
  refine .setPark ?_
  split
  · exact h.drop
  · exact h

theorem State.PipesOk.holdFetch {s : State} {w : Who} {va : Nat} {ask : Bool} (h : s.PipesOk) :
    (s.holdFetch w va ask).PipesOk :=
  .setPark (.send (.ite h.askMigration h) _ _ _)

theorem State.PipesOk.wakeFrame {s : State} {w : Who} (h : s.PipesOk) : (s.wakeFrame w).PipesOk := by
  unfold State.wakeFrame
  split
  · exact h.setPark
  · exact h

theorem State.PipesOk.frameStart {s : State} {core : Nat} (h : s.PipesOk) : (s.frameStart core).PipesOk :=
  .ite (h.goLive.fold fun _ _ h => h.wakeFrame) h

theorem State.PipesOk.settleEvent {s before : State} (h : s.PipesOk) : (s.settleEvent before).PipesOk :=
  h.traceEntries

theorem State.PipesOk.comeIn {s : State} {id : Nat} (h : s.PipesOk) : (s.comeIn id).PipesOk := by
  unfold State.comeIn
  split
  · exact h
  · split
    · exact h.enterWindow
    · exact h.fold fun _ _ h => .ite h h.hold
    · exact h
    · refine .ite h.hold (.ite h (.ite h.enterService (.ite h.enterReached (.ite h.unhold ?_))))
      split
      · exact h.drop.hear
      · exact h

theorem State.PipesOk.maskVector {s : State} {v : Nat} {on : Bool} (h : s.PipesOk) : (s.maskVector v on).PipesOk :=
  .ite (h.setSys _) (h.setSys _)

theorem State.PipesOk.fillPeer {s : State} {id port part : Nat} (h : s.PipesOk) : (s.fillPeer id port part).PipesOk :=
  .ite (h.setSys _) h

theorem State.PipesOk.environment {s : State} {e : Sched} (h : s.PipesOk) : (s.environment e).PipesOk := by
  cases e with
  | tick => exact h.setSys _
  | evict => exact h.setCore rfl rfl
  | attach => exact h.setSlot _ _
  | msix => exact h.maskVector
  | peer => exact h.fillPeer
  | peerMail => exact h.peerMail
  | peerAppend => exact h.peerAppend
  | image => exact h.loadImage
  | arrive => exact h.comeIn
  | merge => exact h.mergeServe
  | drain => exact h.drainPosted
  | hostWrite => exact h.hostWrites
  | row => exact h.opRowPast
  | context => exact h.switchContext
  | traceRead => exact h.setCore rfl rfl
  | supervisor => exact h.placeSupervisor
  | serial => exact h.placeSerial
  | poke => exact h.poke
  | corrected => exact .ite (h.count _ _) h
  | zero => exact h.zeroMore
  | cycle | event => exact h

/-! ### Sys2Proof/Machine/Sparse.lean -/

theorem execAnorm_pipesOk {s : State} {a b : BitVec 5} (h : s.PipesOk) : (execAnorm a b s).PipesOk := by
  unfold execAnorm
  refine .next (h.smallOnly fun _ h => h.waitBoth fun _ h => ?_)
  split
  · exact h.raise
  · exact h.setPark

theorem execAnormResult_pipesOk {s : State} {core slot : Nat} (h : s.PipesOk) :
    (execAnormResult core slot s).PipesOk := by
  unfold execAnormResult
  dsimp only
  split
  · refine .next (.ite h ?_)
    split
    · exact h.trapAt
    · exact h.trapAt
    · exact h.setSlot _ _
  · exact .next h

theorem execAcert_pipesOk {s : State} {a : BitVec 5} (h : s.PipesOk) : (execAcert a s).PipesOk := by
  unfold execAcert
  refine .next (h.smallOnly fun _ h => h.waitBoth fun _ h => ?_)
  split
  · exact h.raise
  · exact h.issueRanges (fun _ h => h) fun _ h => h.queueCert

theorem State.PipesOk.certWrite {s : State} {a x : Nat} {o : CertOut} {part launch : Nat} {pid : BitVec 16}
    (h : s.PipesOk) : (s.certWrite a x o part launch pid).PipesOk :=
  .ite h.arrayPut.arrayPut h.arrayPut.arrayPut.arrayPut

theorem execCertification_pipesOk {s : State} {tile : Nat} (h : s.PipesOk) : (execCertification tile s).PipesOk := by
  refine .next ?_
  split
  · refine .ite h ?_
    extract_lets x k waits bad o s1 y s2 s3
    have h3 : s3.PipesOk := ((State.PipesOk.ite h h.certWrite).setTile _ _).unregister
    refine .ite h3 ?_
    cases bad with
    | some p => exact h3.trapAt
    | none => exact h3.setSlot _ _
  · exact h

/-! ### Sys2Proof/Machine/Dispatch.lean -/

theorem exec_pipesOk {s : State} (h : s.PipesOk) : ∀ i : Instr, Out.PipesOk (exec i s)
  | .add .. | .sub .. | .and .. | .or .. | .xor .. | .andn .. | .sll .. | .srl .. | .sra .. | .slt .. | .sltu ..
  | .min .. | .max .. | .minu .. | .maxu .. | .clz .. | .ctz .. | .popc .. | .sextb .. | .sexth .. | .sextw ..
  | .zextw .. | .addw .. | .subw .. | .sllw .. | .srlw .. | .sraw .. | .addi .. | .andi .. | .ori .. | .xori ..
  | .slti .. | .sltiu .. | .slli .. | .srli .. | .srai .. | .lui .. | .addpc .. | .mul .. | .mulh .. | .mulhu ..
  | .mulw .. | .div .. | .divu .. | .rem .. | .remu .. | .mbstat .. | .dqlen .. | .sigget .. | .sigmin .. =>
    .next h.result
  | .beq .. | .bne .. | .blt .. | .bge .. | .bltu .. | .bgeu .. | .bp .. | .bpF .. => .next h.branch
  | .j .. => .next h.jump
  | .jl .. | .cmp .. | .pand .. | .por .. | .pxor .. | .vsel .. | .vpsum .. | .vwacc .. | .vdot4 .. | .vfclass ..
  | .sigset .. | .vsplat .. | .vins .. | .vperm .. => .next h.setMe
  | .jlr .. => .next (.ite h.raise h.setMe)
  | .lb .. | .lbu .. | .lh .. | .lhu .. | .lw .. | .lwu .. | .ld .. => .next h.loadG
  | .sb .. | .sh .. | .sw .. | .sd .. => .next h.storeG
  | .aadd .. | .aand .. | .aor .. | .axor .. | .amin .. | .amax .. | .aminu .. | .amaxu .. | .aswap .. | .acas .. =>
    .next h.atomG
  | .redadd .. | .redand .. | .redor .. | .redmin .. | .redmax .. => .next h.redG
  | .xcaddV .. | .xcaddG .. | .xcread .. | .xcclr .. => .next h.access
  | .fence => .next (h.waitRelaxed fun _ h => h.advance)
  | .fenceRed => .next (h.waitBoth fun _ h => h.advance)
  | .fenceAcq => .next (h.waitBoth fun _ h => h.acquired.advance)
  | .fenceSys => .next (h.waitBoth fun _ h => .ite h.raiseFree (.ite h.parkOn h.acquired.advance))
  | .migrate .. => .next (h.withMask fun _ => .ite h.raise h.migrateTo)
  | .migto .. => .next (h.withMask fun _ => .ite h.raise (.ite h.raise h.migrateTo))
  | .spawn .. => execSpawn_pipesOk h
  | .send .. | .sendt .. => .next h.sendMail
  | .recv .. | .recvt .. => .next (.ite h.raiseFree h.recvMail)
  | .append .. | .appendt .. => .next h.appendRing
  | .qbind .. => .next (h.smallOnly fun _ h => h.bindQueue)
  | .qwr .. | .vqwr .. => .next (h.smallOnly fun _ h => h.queueWrite)
  | .qrd .. | .vqrd .. => .next (h.smallOnly fun _ h => h.queueRead)
  | .qstat .. => .next (h.smallOnly fun _ h => h.result)
  | .qclose .. => .next (h.smallOnly fun _ h => h.closeQueue)
  | .syncinit .. => .next (h.onObject fun _ => h.onImage fun _ => .ite h.parkOn h.perform)
  | .acq .. | .tryacq .. => .next (h.onObject fun _ => .ite h.raise (h.waitRelaxed fun _ h => h.askLock))
  | .rel .. => execRel_pipesOk h
  | .lockrun .. => .next (h.onObject fun _ => .ite h.raise (h.waitBoth fun _ h => h.askLock))
  | .arrive .. => execArrive_pipesOk h
  | .await .. => execAwait_pipesOk h
  | .syncserve .. => execSyncserve_pipesOk h
  | .syncdone .. => execSyncdone_pipesOk h
  | .syncmode .. => .next (h.onObject fun _ => h.waitRelaxed fun _ h => .ite h.parkOn h.perform)
  | .syncpol .. => .next (h.onObject fun _ => h.onImage fun _ => (h.send _ _ _).setPark)
  | .syncfree .. => .next (h.onObject fun _ => h.waitRelaxed fun _ h => (h.send _ _ _).setPark)
  | .tcinit .. => execTcinit_pipesOk h
  | .tcdec .. => execTcdec_pipesOk h
  | .yield .. => execYield_pipesOk h
  | .exit => .next (h.waitBoth fun _ h => .ite h.raiseFree h.endThread.takeAll)
  | .quiesce => .next (h.waitBoth fun _ h => h.setPark)
  | .dqpush .. | .dqsplit .. => .next h.setDeque.result
  | .dqpop .. => execDqpop_pipesOk h
  | .dqsteal .. => execDqsteal_pipesOk h
  | .alloc .. | .free .. => .next (h.waitRelaxed fun _ h => (h.send _ _ _).setPark)
  | .vldF32 .. | .vldF64 .. | .vldbF32 .. | .vldbF64 .. => .next h.loadV
  | .vstF32 .. | .vstF64 .. => .next h.storeV
  | .vadd .. | .vsub .. | .vmul .. | .vmin .. | .vmax .. | .vminu .. | .vmaxu .. | .vand .. | .vor .. | .vxor ..
  | .vsll .. | .vsrl .. | .vsra .. | .vcmpeq .. | .vcmplt .. | .vcmpltu .. => .next h.intOp2
  | .vpsumF32 .. | .vfadd .. | .vfsub .. | .vfmul .. | .vfmin .. | .vfmax .. | .vfabs .. | .vfneg .. | .vfma ..
  | .vfms .. | .vfnma .. | .vfnms .. => .next h.fpFinish
  | .vfdiv .. | .vfsqrt .. | .vexp2 .. | .vlog2 .. | .vrcp .. | .vrsq .. => .next h.special
  | .vfcmpeq .. | .vfcmplt .. | .vfcmple .. => .next h.fpCmp
  | .bsig .. => .next (.ite h.jump h.advance)
  | .vext .. => .next (.ite h.result h.setMe)
  | .vhadd .. => .next h.finishFp
  | .vcvt .. => .next (.ite h.cvtToOl4 (.ite h.cvtFromOl4 h.cvtFinish))
  | .vcvti .. => .next h.cvtFinish
  | .mgang => execMgang_pipesOk h
  | .mldw .. | .mtld .. | .mswap | .mzero | .mstrm .. | .mgrp .. | .mdrain .. | .mcovi .. | .mcovp .. | .mcovc ..
  | .mcovr .. => .next h.gangIssue
  | .mstat => execMstat_pipesOk h
  | .anorm .. => execAnorm_pipesOk h
  | .acert .. => execAcert_pipesOk h
  | .afetch .. | .ego => .next (h.smallOnly fun _ h => h.issueJob)
  | .ecw .. => execEcw_pipesOk h
  | .ecr .. => execEcr_pipesOk h
  | .ewait .. => .next (h.smallOnly fun _ h => .ite h.result h.parkOn)
  | .cbinit .. => execCbinit_pipesOk h
  | .cbacq .. => .next (h.smallOnly fun _ h => .ite h.raise (.ite h.parkOn h.setBuf.result))
  | .cbrel .. => execCbrel_pipesOk h
  | .cbstat .. => .next (h.smallOnly fun _ h => h.setMe)
  | .syscall .. => .next (h.waitBoth fun _ h => h.raise)
  | .trap .. => .next h.raise
  | .eret => .next h.returnTrap
  | .brk .. => .next (.ite h.raise h.raise.holdDebug)
  | .nop => .next h.advance
  | .tstamp .. => .next h.setMe.result
  | .trig .. => .next h.traceEvent.result
  | .ptblw .. => .next (h.smallOnly fun _ h => .ite_of (fun ok => (h.putCore _ (h.core _ |>.stage ok)).advance) fun _ => h.raise)
  | .csrr .. | .csrw .. | .csrs .. | .csrc .. => .next h.csrOp
  | .launch .. => execLaunch_pipesOk h
  | .lwait .. => .next (.ite h.raise (.ite h.raise (h.waitRelaxed fun _ h => h.sendAccess)))
  | .stagedTableGoesLive .. => .next (.ite h.goLive h)
  | .trapEntry .. => .next (.ite h.lateEntry h)
  | .slotTakesWork .. => .next (.ite h.takeAll h)
  | .contextPacketAdmission .. => execContextPacketAdmission_pipesOk h
  | .migrationReply .. => execMigrationReply_pipesOk h
  | .refusalBackoffExpiry .. => execRefusalBackoffExpiry_pipesOk h
  | .forwardingEntryExpiry .. => execForwardingEntryExpiry_pipesOk h
  | .lateReplyAtOrigin .. => .next (.ite h (h.setCore rfl rfl))
  | .tcdecArrival .. => execTcdecArrival_pipesOk h
  | .quiesceSweep .. => execQuiesceSweep_pipesOk h
  | .activeMessage .. => execActiveMessage_pipesOk h
  | .dequeStealServed .. => execDequeStealServed_pipesOk h
  | .accessReply .. => execAccessReply_pipesOk h
  | .fireAndForgetAck .. => execFireAndForgetAck_pipesOk h
  | .edgeCoreServe .. => execEdgeCoreServe_pipesOk h
  | .specialFunctionResult .. => execSpecialFunctionResult_pipesOk h
  | .anormResult .. => execAnormResult_pipesOk h
  | .allocatorEngineStep .. => execAllocatorEngineStep_pipesOk h
  | .acqAtHome .. => execAcqAtHome_pipesOk h
  | .tryacqAtHome .. => execTryacqAtHome_pipesOk h
  | .relAtHome .. => execRelAtHome_pipesOk h
  | .lockrunAtHome .. => execLockrunAtHome_pipesOk h
  | .syncserveAtHome .. => execSyncserveAtHome_pipesOk h
  | .directArrival .. => execDirectArrival_pipesOk h
  | .combinedArrival .. => execCombinedArrival_pipesOk h
  | .engineArrival .. => execEngineArrival_pipesOk h
  | .syncdoneAtHome .. => execSyncdoneAtHome_pipesOk h
  | .syncpolAtHome .. => execSyncpolAtHome_pipesOk h
  | .syncfreeAtHome .. => execSyncfreeAtHome_pipesOk h
  | .ownerDeparture .. => execOwnerDeparture_pipesOk h
  | .killMark .. => execKillMark_pipesOk h
  | .releaseReachesCore .. => execReleaseReachesCore_pipesOk h
  | .nodeArming .. => execNodeArming_pipesOk h
  | .nodeForward .. => execNodeForward_pipesOk h
  | .delegatedWorkAtOwner .. => execDelegatedWorkAtOwner_pipesOk h
  | .lockrunResult .. => execLockrunResult_pipesOk h
  | .mailboxDelivery .. => execMailboxDelivery_pipesOk h
  | .appendAtRing .. => execAppendAtRing_pipesOk h
  | .appendRetry .. => .next (.ite h.retryRing h)
  | .contextGone .. => .next (.ite h ((h.fold fun _ _ h => h.tell).setSys _))
  | .jobStart .. => execJobStart_pipesOk h
  | .cbSlotStart .. => execCbSlotStart_pipesOk h
  | .cbSlotFilled .. => execCbSlotFilled_pipesOk h
  | .jobCompletion .. => execJobCompletion_pipesOk h
  | .jobSuspension .. => execJobSuspension_pipesOk h
  | .rangeTableRoom .. => execRangeTableRoom_pipesOk h
  | .gangJoin .. => execGangJoin_pipesOk h
  | .mgangRelease .. => execMgangRelease_pipesOk h
  | .gangLeave .. => .next (.ite h.gangLeft h)
  | .shadowLoad .. => execShadowLoad_pipesOk h
  | .planeSwap .. => execPlaneSwap_pipesOk h
  | .accumulatorZero .. => execAccumulatorZero_pipesOk h
  | .streamPass .. => execStreamPass_pipesOk h
  | .drain .. => execDrain_pipesOk h
  | .groupedProduct .. => execGroupedProduct_pipesOk h
  | .coverageInit .. => execCoverageInit_pipesOk h
  | .coverageProbe .. => execCoverageProbe_pipesOk h
  | .spanJoin .. => execSpanJoin_pipesOk h
  | .coverageCommit .. => execCoverageCommit_pipesOk h
  | .coverageReadback .. => execCoverageReadback_pipesOk h
  | .matrixRerun .. => execMatrixRerun_pipesOk h
  | .certification .. => execCertification_pipesOk h
  | .syscallGateReply .. => execSyscallGateReply_pipesOk h
  | .qdb .. => execQdb_pipesOk h
  | .launchRecordSent .. => execLaunchRecordSent_pipesOk h
  | .dependenceReread .. => execDependenceReread_pipesOk h
  | .queueAging .. => execQueueAging_pipesOk h
  | .launchHeadCheck .. => execLaunchHeadCheck_pipesOk h
  | .selectAndReserve .. => execSelectAndReserve_pipesOk h
  | .prepare .. => execPrepare_pipesOk h
  | .commit .. => execCommit_pipesOk h
  | .launchCompletion .. => execLaunchCompletion_pipesOk h
  | .eventideRequest .. => .next (.ite (h.osChange fun _ h => h.eventide) h)
  | .eventideStop .. => execEventideStop_pipesOk h
  | .eventideResume .. => execEventideResume_pipesOk h
  | .kill .. => .next (.ite (h.osChange fun _ h => h.kill) h)
  | .heldRewalk .. => execHeldRewalk_pipesOk h
  | .holdTimeout .. => execHoldTimeout_pipesOk h
  | .translationWalk .. => execTranslationWalk_pipesOk h
  | .shootdown .. => .next (.ite (.ite h.shootAt h.journaled) h)
  | .jobResume .. => execJobResume_pipesOk h
  | .jobAbort .. => execJobAbort_pipesOk h
  | .hostAccess .. => execHostAccess_pipesOk h
  | .hbhostWrite .. | .unfence .. | .livenessStamp | .quoteReady => .next (.ite (h.setSys _) h)
  | .heartbeatCheck => execHeartbeatCheck_pipesOk h
  | .hbdevTick => .next (.ite h (.ite (h.setSys _) ((h.setSys _).physWrite _ _)))
  | .pairStop .. => .next (h.setSys _)
  | .leaderTakeover => execLeaderTakeover_pipesOk h
  | .dutyAdoption .. => .next (.ite h (h.gateBusy.setSys _))
  | .dusk .. => .next (.ite h ((h.setSys _).count _ _))
  | .duskResume .. => .next (.ite ((h.setSys _).count _ _) h)
  | .daybreak .. => execDaybreak_pipesOk
  | .unitFailure .. => .next h.unitFails
  | .scrubError .. => execScrubError_pipesOk h
  | .nightfallStopRequest .. => execNightfallStopRequest_pipesOk h
  | .nightfallResumeRequest .. => execNightfallResumeRequest_pipesOk h
  | .nightfallStop .. => execNightfallStop_pipesOk h
  | .nightfallResume .. => execNightfallResume_pipesOk h
  | .trctlWrite .. => .next (.ite h h.setTrace)
  | .partitionEntryWrite .. => .next (.ite h (.ite (h.setPart rfl) (h.osChange fun _ h => h.writeEntry)))
  | .largeCoreMaskWrite .. => .next (.ite h (.ite (h.setPart rfl) (h.osChange fun _ h => h.writeMask)))
  | .islandStepDown .. => execIslandStepDown_pipesOk h
  | .islandStepUp .. => .next (.ite h (.ite h.sense h.sense.setIsland))
  | .thermalWithhold .. => execThermalWithhold_pipesOk h
  | .telemetrySample => execTelemetrySample_pipesOk h
  | .quoteRequest => .next (.ite h (.ite (h.setSys _) (h.setSys _)))
  | .registerWrite .. => execRegisterWrite_pipesOk h
  | .debuggerRelease .. => .next (.ite h.setPark h)
  | .stoppedStateWrite .. => execStoppedStateWrite_pipesOk h
  | .firmwareMemoryWrite .. => execFirmwareMemoryWrite_pipesOk h
  | .rangeEntryRemoval .. => execRangeEntryRemoval_pipesOk h
  | .linkRetry .. => .next (.ite h (h.count _ _))

/-! ### Sys2Proof/Machine/Step.lean -/

/-- The state of a fetch, where it has one, has legal tables. -/
def Fetch.PipesOk : Fetch → Prop
  | .word _ t | .over t => t.PipesOk
  | .missing _ => True

/-- The state that a cycle comes to, where it has one, has legal tables. -/
def Ready.PipesOk : Ready → Prop
  | .run _ _ t | .over t => t.PipesOk
  | .missing _ => True

theorem Fetch.PipesOk.ite {c : Prop} [Decidable c] {a b : Fetch} (ha : a.PipesOk) (hb : b.PipesOk) :
    Fetch.PipesOk (if c then a else b) := iteInduction (fun _ => ha) fun _ => hb

theorem State.PipesOk.fetch {s : State} {w : Who} {ripe : Bool} (h : s.PipesOk) : (s.fetch w ripe).PipesOk := by
  refine .ite h.trapAt ?_
  split
  · exact h.trapAt
  · exact h.holdFetch
  · exact .ite trivial (.ite h.trapAt (.ite h.trapAt h.keepWalk))

theorem State.PipesOk.interlock {s : State} {w : Who} {i : Instr} (h : s.PipesOk) : (s.interlock w i).PipesOk := by
  unfold State.interlock
  split
  · exact h
  · split
    · exact h.parkOn
    · exact h.trapAt

theorem State.PipesOk.issueSlot {s : State} {w : Who} (h : s.PipesOk) : (s.issueSlot w).PipesOk := by
  have hf := h.unparked (w := w) |>.fetch (w := w) (ripe := s.fetchRipe (s.slot w))
  refine iteInduction (motive := Ready.PipesOk) (fun _ => h.lateEntry) fun _ => ?_
  dsimp only
  split
  · trivial
  · next e => exact (e ▸ hf : Fetch.PipesOk (.over _))
  · next e =>
    have ht : Fetch.PipesOk (.word _ _) := e ▸ hf
    split
    · exact State.PipesOk.trapAt ht
    · exact State.PipesOk.interlock ht

theorem State.PipesOk.cycle {s : State} {core : Nat} {cached : Bool} (h : s.PipesOk) :
    (s.cycle core cached).PipesOk := by
  unfold State.cycle
  extract_lets s1 p s2
  have h2 : s2.PipesOk := h.frameStart.setCore rfl rfl
  cases p with
  | none => exact h2
  | some k => exact State.PipesOk.issueSlot (h2.of_eq rfl rfl)

theorem stepCycle_pipesOk {s : State} {core : Nat} {cached : Bool} (h : s.PipesOk) :
    (stepCycle core cached s).PipesOk := by
  have hc := h.cycle (core := core) (cached := cached)
  refine .ite h ?_
  split
  · next e => exact State.PipesOk.endCycle (State.PipesOk.traceEntries (e ▸ hc : Ready.PipesOk (.over _)))
  · trivial
  · next w i t e =>
    have hx := exec_pipesOk (e ▸ hc : Ready.PipesOk (.run _ _ _)) i
    split
    · next e => exact State.PipesOk.endCycle (State.PipesOk.traceIssue (e ▸ hx : Out.PipesOk (.next _)))
    · trivial
    · trivial

theorem stepEvent_pipesOk {s : State} {i : Instr} {cached : Bool} (h : s.PipesOk) :
    (stepEvent i cached s).PipesOk := by
  have hc : { s with cached := cached }.PipesOk := h
  have hx := exec_pipesOk hc i
  refine .ite h ?_
  split
  · next e => exact State.PipesOk.settleEvent (e ▸ hx : Out.PipesOk (.next _))
  · trivial
  · trivial

theorem step_pipesOk {s : State} (h : s.PipesOk) : Out.PipesOk (step s) := by
  unfold step
  split
  · exact stepCycle_pipesOk h
  · exact stepCycle_pipesOk h
  · exact stepEvent_pipesOk h
  · next rest _ _ _ =>
    have hr : { s with agenda := rest }.PipesOk := h
    exact .next hr.environment.settleEvent

/-- Settles O59: a core's tables are written by a PTBLW that has passed the checks of R13, by a staged table that goes
live, and by an image put back; every other function keeps the tables of each core and image that it writes, and `exec`
and the cycle are made of these. -/
theorem pipesKept : Obligations.PipesKept := by
  unfold Obligations.PipesKept
  intro s t h e
  exact (e ▸ step_pipesOk h : Out.PipesOk (.next t))

end Sys2Proof.Machine
end

section
/-! PROOFS.  O57: what reset leaves (R10, R169, R349). -/

namespace Sys2Proof.Machine
/-- At reset p0 alone is true (R165). -/
theorem Slot.p_reset (j : BitVec 4) : Slot.reset.p j = decide (j = 0) := by
  revert j
  decide

/-- At reset every register lane is EXACT (R88). -/
theorem Slot.tag_reset (v : BitVec 4) (l : Nat) : Slot.reset.tag v l = Tag.exact := by
  simp only [Slot.tag, Slot.reset, Vector.toList_replicate, List.getD_eq_getElem?_getD, List.getElem?_replicate]
  split <;> rfl

/-- The reset pipe table holds slot k mod 8 at entry k (R10). -/
theorem resetTable_entry : ∀ k, k < 32 → (resetTable.toList.getD k 0).toNat = k % 8 := by decide

/-- Settles O57: no slot, core or cell is listed at reset, so each reads as its reset value. -/
theorem resetState : Obligations.ResetState := by
  unfold Obligations.ResetState
  refine ⟨State.memForm_reset, State.pipesOk_reset, fun _ => ?_, fun _ k hk => ⟨resetTable_entry k hk, rfl, rfl, rfl⟩,
    fun _ => rfl, by decide +kernel⟩
  exact ⟨rfl, rfl, rfl, rfl, rfl, rfl, rfl, rfl, rfl, rfl, rfl, Slot.p_reset, Slot.tag_reset⟩
end Sys2Proof.Machine
end

section
/-! PROOFS.  O29: the checks of a pipe table (R11, R13, R310), a staged table going live, and the event of TRIG (R309, R390). -/

namespace Sys2Proof.Machine

theorem Slot.kept_next (x : Slot) : x.Kept x.next := by constructor <;> rfl

theorem Slot.Kept.trans {x y z : Slot} (h : x.Kept y) (g : y.Kept z) : x.Kept z := by
  constructor <;> simp only [g.occ, g.mode, g.sup, g.mach, g.locks, g.watch, g.pend, g.relaxed, g.unacked, g.lastJob, g.pid, g.part,
    g.launch, g.kind, g.routines, g.serving, g.lastStamp, g.code, g.debug, g.thread, h.occ, h.mode, h.sup, h.mach, h.locks,
    h.watch, h.pend, h.relaxed, h.unacked, h.lastJob, h.pid, h.part, h.launch, h.kind, h.routines, h.serving, h.lastStamp,
    h.code, h.debug, h.thread]

theorem Slot.sameRegs_next (x : Slot) : x.SameRegs x.next := ⟨fun _ => rfl, fun _ _ => ⟨rfl, rfl⟩, rfl, rfl⟩

/-- An instruction that writes one core and goes on with its slot at the next PC. -/
theorem State.computesCore_of_setCore {s : State} {i : Instr} {c : Nat} {k : Core} {x : Slot} {R : Slot → Slot → Prop}
    (he : exec i s = .next ((s.setCore c k).setMe x.next)) (hx : s.me.Kept x) (hpc : x.pc = s.me.pc) (hR : R s.me x.next) :
    s.ComputesCore i c k R := by
  refine ⟨_, he, ?_, ?_, ?_, ?_, ?_, ?_, ?_, ⟨fun _ => rfl, fun _ => rfl, fun _ => rfl⟩, ?_, fun _ => rfl, rfl, rfl, rfl⟩
  · simpa using hx.trans x.kept_next
  · simp
  · simp
  · simp [hpc]
  · simpa using hR
  · simp
  · intro d hd; simp [hd]
  · intro v hv; simp [State.setMe, hv]

/-! ### Pipe tables (R11, R13, R310) -/

/-- Entry k of the table of a PTBLW is four bits of g[l] or g[h]. -/
theorem pipeTable_entry (h l : Word) {k : Nat} (hk : k < 32) : ((pipeTable h l).toList.getD k 0).toNat =
    (if k < 16 then l.toNat / 2 ^ (4 * k) else h.toNat / 2 ^ (4 * (k - 16))) % 16 := by
  have hl : k < (pipeTable h l).toList.length := by simpa using hk
  rw [List.getD_eq_getElem _ _ hl]
  simp only [pipeTable, Vector.getElem_toList, Vector.getElem_ofFn, BitVec.toNat_ofNat, field]
  split
  · rw [Nat.mod_eq_of_lt ‹k < 16›, Nat.mod_mod]; rfl
  · rw [show k % 16 = k - 16 by omega, Nat.mod_mod]; rfl

theorem pipeTable_pipeAt (h l : Word) {k : Nat} (hk : k < 32) : pipeAt (pipeTable h l) k =
    (if k < 16 then l.toNat / 2 ^ (4 * k) else h.toNat / 2 ^ (4 * (k - 16))) % 16 := by
  rw [pipeAt, Nat.mod_eq_of_lt hk, pipeTable_entry h l hk]

theorem cyclic_comm (i j : Nat) : cyclic i j = cyclic j i := by
  rw [cyclic, cyclic, max_comm, min_comm i j]

/-- The checks of R13 on a table: the codes, the service slot's entries, and the spacing of a slot's entries. -/
theorem pipeOk_iff (t : Vector (BitVec 4) 32) : pipeOk t = true ↔
    (∀ k, k < 32 → pipeAt t k ≤ 8) ∧ (∀ k, k < 32 → k % 8 = 7 → pipeAt t k = 7) ∧
    ∀ i j, i < 32 → j < 32 → i ≠ j → pipeAt t i = pipeAt t j → pipeAt t i ≠ 8 → 8 ≤ cyclic i j := by
  simp only [pipeOk, List.all_eq_true, List.mem_range, Bool.and_eq_true, Bool.or_eq_true, decide_eq_true_eq]
  constructor
  · intro h
    have low : ∀ i j, i < 32 → j < i → pipeAt t i = pipeAt t j → pipeAt t i ≠ 8 → 8 ≤ cyclic i j := fun i j hi hj e h8 =>
      ((h i hi).2 j hj).resolve_left h8 |>.resolve_left (not_not_intro e)
    refine ⟨fun k hk => (h k hk).1.1, fun k hk h7 => (h k hk).1.2.resolve_left (not_not_intro h7), fun i j hi hj hn e h8 => ?_⟩
    rcases lt_or_gt_of_ne hn with hlt | hgt
    · rw [cyclic_comm]; exact low j i hj hlt e.symm (e ▸ h8)
    · exact low i j hi hgt e h8
  · rintro ⟨codes, service, spaced⟩ i hi
    refine ⟨⟨codes i hi, or_iff_not_imp_left.mpr fun h7 => service i hi (not_not.mp h7)⟩, fun j hj => ?_⟩
    refine or_iff_not_imp_left.mpr fun h8 => or_iff_not_imp_left.mpr fun e => ?_
    exact spaced i j hi (by omega) (by omega) (not_not.mp e) h8

/-! ### Trace events (R309, R390) -/

theorem State.traceEvent_of_not_wants {s : State} {c : Nat} {e : Event} (h : (s.core c).trace.wants e = false) :
    s.traceEvent c e = (s, false) := by
  simp [State.traceEvent, h]

theorem Trace.fire_events (t : Trace) (e : Event) : (t.fire e).events = t.events := by
  unfold Trace.fire
  dsimp only
  (repeat' split) <;> rfl

theorem Trace.fire_next (t : Trace) (e : Event) : (t.fire e).next = t.next := by
  unfold Trace.fire
  dsimp only
  (repeat' split) <;> rfl

theorem Trace.push_events {t : Trace} {v : BitVec 128} (hf : t.full = false) (hr : t.reading = false) :
    (t.push v).1.events = mapPut t.events t.next v := by simp [Trace.push, hf, hr]

theorem Trace.push_next {t : Trace} {v : BitVec 128} (hf : t.full = false) (hr : t.reading = false) :
    (t.push v).1.next = (t.next + 1) % 1024 := by simp [Trace.push, hf, hr]

/-- A buffer with room, with no time event due, records an event. -/
theorem Trace.record_of_room {t : Trace} {e : Event} {stamp : Nat} (hf : t.full = false) (hr : t.reading = false)
    (ht : t.lastHigh = some (stamp / 2 ^ 44)) : t.record e stamp = ((t.push (e.bits stamp)).1.fire e, true, 0) := by
  simp [Trace.record, Trace.timed, ht, Trace.push, hf, hr]

theorem State.traceEvent_of_room {s : State} {c : Nat} {e : Event} (hw : (s.core c).trace.wants e = true)
    (hf : (s.core c).trace.full = false) (hr : (s.core c).trace.reading = false)
    (ht : (s.core c).trace.lastHigh = some (s.clock c / 2 ^ 44)) :
    s.traceEvent c e = (s.setCore c { s.core c with trace := ((s.core c).trace.push (e.bits (s.clock c))).1.fire e }, true) := by
  simp [State.traceEvent, hw, Trace.record_of_room hf hr ht]


theorem wordOf_ptblw (h l : BitVec 5) :
    wordOf (.ptblw h l) = BitVec.ofNat 64 (0xC8000007 + h.toNat * 2 ^ 21 + l.toNat * 2 ^ 16) := rfl

/-- PTBLW stages a table that passes the checks of R13, on a small core. -/
theorem exec_ptblw_of_ok {s : State} {h l : BitVec 5} (ok : pipeOk (pipeTable (s.g h) (s.g l)) = true)
    (hc : isLarge s.cur.core = false) : exec (.ptblw h l) s =
      .next ((s.setCore s.cur.core { s.core s.cur.core with staged := some (pipeTable (s.g h) (s.g l)) }).setMe s.me.next) := by
  change Host.Outcome.next (if isLarge s.cur.core = true then _ else if pipeOk _ = true then _ else _) = _
  rw [if_neg (by simp [hc]), if_pos ok]
  rfl

/-- PTBLW takes ILLEGAL for a table that fails them, and on a large core. -/
theorem exec_ptblw_of_not_ok {s : State} {h l : BitVec 5}
    (bad : pipeOk (pipeTable (s.g h) (s.g l)) = false ∨ isLarge s.cur.core = true) :
    exec (.ptblw h l) s = .next (s.trapAt s.cur .illegal (wordOf (.ptblw h l))) := by
  change Host.Outcome.next (if isLarge s.cur.core = true then _ else if pipeOk _ = true then _ else _) = _
  split
  · rfl
  · rw [if_neg (by simpa [‹¬ _›] using bad)]
    rfl

/-- Settles O29: the checks of PTBLW are those of R13 (`pipeOk_iff`), and an event in a buffer with room is recorded
(`State.traceEvent_of_room`). -/
theorem tablesAndTraces : Obligations.TablesAndTraces := by
  unfold Obligations.TablesAndTraces
  intro s h l d a code core t e dist good ev k
  have entry : ∀ n, n < 32 → pipeAt (pipeTable (s.g h) (s.g l)) n = e n := fun n => pipeTable_pipeAt _ _
  have good_iff : good ↔ pipeOk (pipeTable (s.g h) (s.g l)) = true := by
    rw [pipeOk_iff]
    refine and_congr (forall₂_congr fun i hi => by rw [entry i hi]) (and_congr (forall₃_congr fun i hi _ => by rw [entry i hi]) ?_)
    exact forall₄_congr fun i j hi hj => by rw [entry i hi, entry j hj]; rfl
  refine ⟨fun hg hc => ?_, fun hb => ?_, fun hrun hst hgo hpos => ?_, fun hw => ?_, fun hw hf hr ht => ?_⟩
  · exact ⟨_, fun n hn => pipeTable_entry _ _ hn,
      State.computesCore_of_setCore (exec_ptblw_of_ok (good_iff.mp hg) hc) s.me.kept_refl rfl s.me.sameRegs_next⟩
  · exact exec_ptblw_of_not_ok (hb.imp_left fun hg => by simpa [good_iff] using hg)
  · refine ⟨_, rfl, ?_⟩
    simp only [hrun, if_true, State.goLive, hst, hgo, hpos, decide_true, Bool.and_self]
    refine ⟨by simp, fun c hc => by simp [hc], fun _ => rfl, ⟨fun _ => rfl, fun _ => rfl, fun _ => rfl⟩, fun _ => rfl⟩
  · have none : s.traceEvent s.cur.core (trigEvent s.cur.slot code (s.g a)) = (s, false) := State.traceEvent_of_not_wants hw
    exact State.computesG_of_result (by change Host.Outcome.next _ = _; rw [none]; rfl)
  · have recorded := State.traceEvent_of_room (e := trigEvent s.cur.slot code (s.g a)) hw hf hr ht
    refine ⟨_, by change Host.Outcome.next _ = _; rw [recorded], ?_⟩
    refine ⟨?_, ?_, ?_, ?_, ?_, ?_, ?_, ⟨fun _ => rfl, fun _ => rfl, fun _ => rfl⟩⟩
    · simpa [State.result, State.setMe, Slot.WroteG, State.me, flag] using s.me.wroteG_setG d 1
    · intro v n; simp [State.result, State.setMe, State.me, Slot.lane, Slot.tag, Slot.next]
    · simp [State.result, State.setMe, State.me]
    · simp [State.result, State.setMe, Trace.fire_events, Trace.push_events hf hr, k, ev, trigEvent]
    · simp [State.result, State.setMe, Trace.fire_next, Trace.push_next hf hr, k]
    · intro v hv; simp [State.result, State.setMe, hv]
    · intro c hc; simp [State.result, State.setMe, hc]

end Sys2Proof.Machine
end

section
/-! PROOFS.  O54: what a step runs (R10, R171, R176, R201, R390). -/

namespace Sys2Proof.Machine

/-! ### Steps that take no trap have no entry to trace -/

/-- No slot has taken a trap between two states. -/
def State.SameTraps (s t : State) : Prop := ∀ w, (t.slot w).traps = (s.slot w).traps

theorem State.SameTraps.refl (s : State) : s.SameTraps s := fun _ => rfl
theorem State.SameTraps.trans {s t u : State} (h : s.SameTraps t) (g : t.SameTraps u) : s.SameTraps u :=
  fun w => (g w).trans (h w)

theorem State.traceEntries_of_sameTraps {s t : State} (h : s.SameTraps t) : t.traceEntries s = t := by
  have none : t.allThreads.filter (fun w => entered (s.slot w) (t.slot w)) = [] := by
    rw [List.filter_eq_nil_iff]
    intro w _
    simp [entered, h w]
  rw [State.traceEntries, none]
  rfl

theorem State.sameTraps_setSlot {s : State} {w : Who} {x : Slot} (h : x.traps = (s.slot w).traps) :
    s.SameTraps (s.setSlot w x) := by
  intro v
  rw [State.slot_setSlot]
  split
  · rw [h, State.slot, State.slot, ‹slotKey v = slotKey w›]
  · rfl

theorem State.sameTraps_foldl {α : Type} {f : State → α → State} (hf : ∀ s a, State.SameTraps s (f s a)) (l : List α) (s : State) :
    s.SameTraps (l.foldl f s) := by
  induction l generalizing s with
  | nil => exact .refl s
  | cons a r ih => exact (hf s a).trans (ih _)

theorem State.sameTraps_wakeFrame (s : State) (w : Who) : s.SameTraps (s.wakeFrame w) := by
  unfold State.wakeFrame
  split
  · exact State.sameTraps_setSlot rfl
  · exact .refl s

theorem State.goLive_slot (s : State) (c : Nat) (w : Who) : (s.goLive c).slot w = s.slot w := by
  unfold State.goLive
  dsimp only
  split <;> split <;> rfl

theorem State.sameTraps_frameStart (s : State) (c : Nat) : s.SameTraps (s.frameStart c) := by
  unfold State.frameStart
  split
  · exact State.SameTraps.trans (fun w => by rw [s.goLive_slot]) (State.sameTraps_foldl (fun _ _ => State.sameTraps_wakeFrame _ _) _ _)
  · exact .refl s

theorem State.sameTraps_issuing (s : State) (core k : Nat) (cached : Bool) : s.SameTraps (s.issuing core k cached) :=
  s.sameTraps_frameStart core

theorem State.sameTraps_unparked (s : State) (w : Who) : s.SameTraps (s.unparked w) := by
  unfold State.unparked
  dsimp only
  split <;> exact State.sameTraps_setSlot rfl

theorem State.keepWalk_slot (s : State) (p : Nat) (pid : BitVec 16) (va : Nat) (w : Who) : (s.keepWalk p pid va).slot w = s.slot w := by
  unfold State.keepWalk
  split <;> rfl

theorem State.keepWalk_cur (s : State) (p : Nat) (pid : BitVec 16) (va : Nat) : (s.keepWalk p pid va).cur = s.cur := by
  unfold State.keepWalk
  split <;> rfl

theorem State.sameTraps_fetched (s : State) (w : Who) : s.SameTraps (s.fetched w) :=
  (s.sameTraps_unparked w).trans fun v => by rw [State.fetched, State.keepWalk_slot]

theorem State.sameTraps_parkOn (s : State) (c : Cond) : s.SameTraps (s.parkOn c) := by
  unfold State.parkOn
  split
  · exact State.sameTraps_setSlot rfl
  · exact State.sameTraps_setSlot (s := { s with ticket := s.ticket + 1 }) rfl

/-! ### A cycle and the slot it issues -/

theorem step_of_nextCycle {s s1 : State} {core : Nat} {cached : Bool} (h : s.NextCycle s1 core cached) :
    step s = stepCycle core cached s1 := by
  obtain ⟨rest, e, rfl⟩ | ⟨e, rfl, rfl, rfl⟩ := h
  · simp [step, e]
  · simp [step, e]

theorem State.cycle_of_none {s : State} {core : Nat} {cached : Bool} (h : (s.frameStart core).pickSlot core = none) :
    s.cycle core cached = .over ((s.frameStart core).setCore core
      (((s.frameStart core).core core).counted ((s.frameStart core).parkedSlots core) ((s.frameStart core).clock core))) := by
  simp only [State.cycle, h]

theorem State.cycle_of_some {s : State} {core k : Nat} {cached : Bool} (h : (s.frameStart core).pickSlot core = some k) :
    s.cycle core cached = (s.issuing core k cached).issueSlot ⟨core, k⟩ := by
  simp only [State.cycle, h, State.issuing]

theorem stepCycle_of_over {s t : State} {core : Nat} {cached : Bool} (hr : s.coreRuns core = true)
    (h : s.cycle core cached = .over t) : stepCycle core cached s = .next ((t.traceEntries s).endCycle core none) := by
  simp [stepCycle, hr, h]

theorem stepCycle_of_run {s t : State} {core : Nat} {cached : Bool} {w : Who} {i : Instr} (hr : s.coreRuns core = true)
    (h : s.cycle core cached = .run w i t) : stepCycle core cached s = match exec i t with
      | .next u => .next ((u.traceIssue w i (t.slot w)).endCycle core (u.issuedIn w))
      | .fault e => .fault e
      | .refused r => .refused r := by
  simp only [stepCycle, hr, h]
  rfl

/-- What State.unparked leaves of a slot. -/
theorem State.unparked_slot_same (s : State) (w : Who) : (s.unparked w).slot w = { s.slot w with park := .ready } := by
  unfold State.unparked State.setPark
  rw [State.slot_setSlot_same]
  split <;> rfl

/-- What a fetch reads of memory does not see the park of its slot. -/
theorem State.unparked_reads (s : State) (w : Who) (k : Nat) : (s.unparked w).keyExists k = s.keyExists k ∧
    (s.unparked w).anyPoison k 4 = s.anyPoison k 4 ∧ (s.unparked w).nat k 4 = s.nat k 4 := by
  unfold State.unparked
  dsimp only
  split <;> exact ⟨rfl, rfl, rfl⟩

theorem State.FetchesWord.fetch {t : State} {w : Who} {n : Nat} (h : t.FetchesWord w n) :
    (t.unparked w).fetch w (t.fetchRipe (t.slot w)) = .word n (t.fetched w) := by
  obtain ⟨key, sh, hx, hk, hp, hn⟩ := h.word
  obtain ⟨ek, ep, en⟩ := t.unparked_reads w key
  have inV : ¬ ((t.slot w).pc.toNat < 2 ^ 39 ∨ 2 ^ 56 ≤ (t.slot w).pc.toNat) := by have := h.low; have := h.high; omega
  simp only [State.fetch, State.unparked_slot_same, if_neg inV, hx, ek, hk, h.unlocked, ep, hp, en, hn]
    <;> rfl

theorem State.issueSlot_of_fetches {t : State} {w : Who} {n : Nat} (h : t.FetchesWord w n) :
    t.issueSlot w = match decodeWord n with
      | .error _ => .over ((t.fetched w).trapAt w .illegal (dbl n))
      | .ok i => (t.fetched w).interlock w i := by
  rw [State.issueSlot, if_neg (by simp [h.calm])]
  simp only [h.fetch]
    <;> rfl


theorem State.interlock_clear {s : State} {w : Who} {i : Instr} (h : (s.slot w).hazard i = none) : s.interlock w i = .run w i s := by
  simp [State.interlock, h]

theorem State.interlock_waits {s : State} {w : Who} {i : Instr} {r : Relaxed} (h : (s.slot w).hazard i = some r)
    (hr : r.fault = none) : s.interlock w i = .over (s.parkOn (.result r.id)) := by
  simp [State.interlock, h, hr]

theorem State.interlock_faulted {s : State} {w : Who} {i : Instr} {r : Relaxed} {c : Cause} {v : Word}
    (h : (s.slot w).hazard i = some r) (hr : r.fault = some (c, v)) : s.interlock w i = .over (s.trapAt w c v) := by
  simp [State.interlock, h, hr]

/-! ### The slot that the pipe table names (R10, R11) -/

theorem State.pickSlot_named {s : State} {core e : Nat} (hc : isLarge core = false) (he : pipeAt (s.core core).live (s.core core).pos = e)
    (h8 : e ≠ 8) : s.pickSlot core = if s.slotReady ⟨core, e⟩ then some e else none := by
  simp [State.pickSlot, hc, he, h8]

theorem State.pickSlot_any {s : State} {core : Nat} (hc : isLarge core = false) (he : pipeAt (s.core core).live (s.core core).pos = 8)
    (j : Nat) : s.pickSlot core = some j ↔ j < 8 ∧ s.anyMay core j = true ∧ ∀ l, l < j → s.anyMay core l = false := by
  simp only [State.pickSlot, hc, he, if_true, Bool.false_eq_true, if_false, List.find?_range_eq_some, List.mem_range,
    Bool.not_eq_eq_eq_not, Bool.not_true]
  tauto

/-- Settles O54: each clause reads off one branch of a cycle, and a step that takes no trap has no entry to trace
(`State.traceEntries_of_sameTraps`). -/
theorem stepRunsDecoded : Obligations.StepRunsDecoded := by
  unfold Obligations.StepRunsDecoded
  intro s s1 core k n cached i rest w t u f
  have toT : s1.SameTraps t := s1.sameTraps_issuing core k cached
  refine ⟨fun hn hr => ?_, fun hn hr hp => ?_, fun hn hr hp hd => ?_, fun hn hr hp hf => ?_, fun hc e he => ⟨fun h8 => ?_, fun h8 j => ?_⟩,
    fun ha hi => ?_, fun ha hi => ?_, fun e ha hc he => ?_⟩
  · simp [step_of_nextCycle hn, stepCycle, hr]
  · rw [step_of_nextCycle hn, stepCycle_of_over hr (State.cycle_of_none hp), State.traceEntries_of_sameTraps]
    exact s1.sameTraps_frameStart core
  · rw [step_of_nextCycle hn, stepCycle_of_over hr ((State.cycle_of_some hp).trans (if_pos hd))]
  · have issue := (State.cycle_of_some (cached := cached) hp).trans (State.issueSlot_of_fetches hf)
    refine ⟨fun hi hz => ?_, fun r hi hz hq => ?_, fun r c v hi hz hq => ?_, fun e he => ?_⟩
    · rw [hi] at issue
      rw [step_of_nextCycle hn, stepCycle_of_run hr (issue.trans (State.interlock_clear hz))]
        <;> rfl
    · rw [hi] at issue
      rw [step_of_nextCycle hn, stepCycle_of_over hr (issue.trans (State.interlock_waits hz hq)),
        State.traceEntries_of_sameTraps]
      exact (toT.trans (t.sameTraps_fetched w)).trans (u.sameTraps_parkOn _)
    · rw [hi] at issue
      rw [step_of_nextCycle hn, stepCycle_of_over hr (issue.trans (State.interlock_faulted hz hq))]
    · rw [he] at issue
      rw [step_of_nextCycle hn, stepCycle_of_over hr issue]
      rfl
  · exact State.pickSlot_named hc he.symm h8
  · exact State.pickSlot_any hc (he.symm.trans h8) j
  · simp only [step, ha, stepEvent, hi]
    rfl
  · simp [step, ha, stepEvent, hi]
  · cases e with
    | cycle c b => exact absurd rfl (hc c b)
    | event j b => exact absurd rfl (he j b)
    | _ => simp only [step, ha]; rfl

end Sys2Proof.Machine
end

section
/-! PROOFS.  What the steps that O14 to O22 share leave unchanged: waits, departures, leaving a gang, and the counts of messages. -/

namespace Sys2Proof.Machine

/-! ### Frames from equal fields -/

theorem State.SameMemory.of_eq {s t : State} (hm : t.mem = s.mem) (hs : t.stags = s.stags) (hp : t.poison = s.poison) :
    s.SameMemory t :=
  ⟨fun k => by rw [State.byte, State.byte, hm], fun k => by rw [State.sideTag, State.sideTag, hs],
    fun k => by rw [State.poisoned, State.poisoned, hp]⟩

theorem State.SameSlots.of_eq {s t : State} (h : t.slots = s.slots) : s.SameSlots t := fun w => by rw [State.slot, State.slot, h]
theorem State.SameCores.of_eq {s t : State} (h : t.cores = s.cores) : s.SameCores t := fun c => by rw [State.core, State.core, h]
theorem State.SameTiles.of_eq {s t : State} (h : t.tiles = s.tiles) : s.SameTiles t := fun k => by rw [State.tile, State.tile, h]

theorem State.core_of_cores {s t : State} (h : t.cores = s.cores) (c : Nat) : t.core c = s.core c := State.SameCores.of_eq h c
theorem State.tile_of_tiles {s t : State} (h : t.tiles = s.tiles) (k : Nat) : t.tile k = s.tile k := State.SameTiles.of_eq h k
theorem State.slot_of_slots {s t : State} (h : t.slots = s.slots) (w : Who) : t.slot w = s.slot w := State.SameSlots.of_eq h w

theorem Slot.SameRegs.trans {x y z : Slot} (h : x.SameRegs y) (g : y.SameRegs z) : x.SameRegs z :=
  ⟨fun r => (g.1 r).trans (h.1 r), fun v l => ⟨(g.2.1 v l).1.trans (h.2.1 v l).1, (g.2.1 v l).2.trans (h.2.1 v l).2⟩,
    g.2.2.1.trans h.2.2.1, g.2.2.2.trans h.2.2.2⟩

/-- Slots with the same registers, lanes, predicates and CSRs. -/
theorem Slot.SameRegs.of_eq {x y : Slot} (hr : y.regs = x.regs) (hl : y.lanes = x.lanes) (ht : y.tags = x.tags) (hp : y.pw = x.pw)
    (hc : y.csr = x.csr) : x.SameRegs y :=
  ⟨fun r => by rw [Slot.g, Slot.g, hr], fun v l => by rw [Slot.lane, Slot.lane, Slot.tag, Slot.tag, hl, ht]; exact ⟨rfl, rfl⟩, hp, hc⟩

/-! ### Sending leaves the units as they are -/

@[simp] theorem State.send_units (s : State) (w : Who) (r : BitVec 5) (b : Body) : (∀ c, (s.send w r b).core c = s.core c) ∧
    (∀ k, (s.send w r b).tile k = s.tile k) ∧ (∀ p, (s.send w r b).part p = s.part p) ∧ (∀ k, (s.send w r b).byte k = s.byte k) :=
  ⟨fun _ => rfl, fun _ => rfl, fun _ => rfl, fun _ => rfl⟩

@[simp] theorem State.setMe_frame (s : State) (x : Slot) : (s.setMe x).stags = s.stags ∧ (s.setMe x).poison = s.poison ∧
    (s.setMe x).cores = s.cores ∧ (s.setMe x).tiles = s.tiles ∧ (s.setMe x).net = s.net ∧ (s.setMe x).parts = s.parts ∧
    (s.setMe x).launches = s.launches ∧ (s.setMe x).sys = s.sys ∧ (s.setMe x).ranges = s.ranges ∧ (s.setMe x).nextId = s.nextId :=
  ⟨rfl, rfl, rfl, rfl, rfl, rfl, rfl, rfl, rfl, rfl⟩

@[simp] theorem State.setMe_tile (s : State) (x : Slot) (k : Nat) : (s.setMe x).tile k = s.tile k := rfl

@[simp] theorem State.setMe_slot (s : State) (x : Slot) (v : Who) :
    (s.setMe x).slot v = if slotKey v = slotKey s.cur then x else s.slot v := by simp [State.setMe]

theorem State.setMe_otherSlots (s : State) (x : Slot) : s.OtherSlots (s.setMe x) s.cur := fun v hv => by simp [hv]

/-! ### Waits with nothing in flight (R129) -/

theorem State.waitRelaxed_of_nil {s : State} {k : State → State} (h : s.me.relaxed = []) : s.waitRelaxed k = k s := by
  simp [State.waitRelaxed, Slot.outstanding, Slot.relaxedFault, h]

theorem State.waitAcks_of_nil {s : State} {k : State → State} (h : s.me.unacked = []) : s.waitAcks k = k s := by
  simp [State.waitAcks, Slot.unackedNow, h]

theorem State.waitBoth_of_nil {s : State} {k : State → State} (hr : s.me.relaxed = []) (ha : s.me.unacked = []) :
    s.waitBoth k = k s := by
  rw [State.waitBoth, State.waitRelaxed_of_nil hr, State.waitAcks_of_nil ha]

/-! ### A departing owner (R123) -/

/-- A slot that no longer serves the object it served. -/
def Slot.departed (x : Slot) : Slot :=
  match x.serving with
  | some d => x.departs d
  | none => x

@[simp] theorem Slot.departed_serving (x : Slot) : x.departed.serving = none := by
  unfold Slot.departed
  split
  · rfl
  · assumption

theorem Slot.departed_of_none {x : Slot} (h : x.serving = none) : x.departed = x := by
  simp [Slot.departed, h]

/-- What a departure leaves of its slot: all but its service and its running work there. -/
@[simp] theorem Slot.departed_frame (x : Slot) : x.departed.occ = x.occ ∧ x.departed.regs = x.regs ∧ x.departed.lanes = x.lanes ∧
    x.departed.tags = x.tags ∧ x.departed.pw = x.pw ∧ x.departed.pc = x.pc ∧ x.departed.mode = x.mode ∧ x.departed.csr = x.csr ∧
    x.departed.sup = x.sup ∧ x.departed.mach = x.mach ∧ x.departed.kind = x.kind ∧ x.departed.launch = x.launch ∧
    x.departed.pid = x.pid ∧ x.departed.part = x.part ∧ x.departed.lastStamp = x.lastStamp ∧ x.departed.thread = x.thread ∧
    x.departed.debug = x.debug ∧ x.departed.park = x.park := by
  unfold Slot.departed
  split <;> simp only [Slot.departs, and_self]

@[simp] theorem Slot.departed_g (x : Slot) (r : BitVec 5) : x.departed.g r = x.g r := by
  simp [Slot.g]

theorem Slot.sameRegs_departed (x : Slot) : x.SameRegs x.departed :=
  ⟨x.departed_g, fun v l => by simp [Slot.lane, Slot.tag], by simp, by simp⟩

theorem State.departOwner_of_none {s : State} {w : Who} (h : (s.slot w).serving = none) : s.departOwner w = s := by
  simp [State.departOwner, h]

@[simp] theorem State.departOwner_frame (s : State) (w : Who) : (s.departOwner w).cur = s.cur ∧ (s.departOwner w).mem = s.mem ∧
    (s.departOwner w).stags = s.stags ∧ (s.departOwner w).poison = s.poison ∧ (s.departOwner w).cores = s.cores ∧
    (s.departOwner w).tiles = s.tiles ∧ (s.departOwner w).parts = s.parts ∧ (s.departOwner w).launches = s.launches ∧
    (s.departOwner w).sys = s.sys ∧ (s.departOwner w).ticket = s.ticket := by
  unfold State.departOwner
  split <;> simp

@[simp] theorem State.departOwner_slot (s : State) (w v : Who) :
    (s.departOwner w).slot v = if slotKey v = slotKey w then (s.slot w).departed else s.slot v := by
  unfold State.departOwner
  split
  · simp only [State.slot_send, State.slot_setSlot, Slot.departed, *]
  · rw [Slot.departed_of_none ‹_›]
    split
    · rw [State.slot, State.slot, ‹slotKey v = slotKey w›]
    · rfl

@[simp] theorem State.departOwner_me (s : State) : (s.departOwner s.cur).me = s.me.departed := by
  simp [State.me]

/-! ### A matrix slot that leaves its gang (R289) -/

@[simp] theorem State.leaveGang_frame (s : State) (w : Who) : (s.leaveGang w).cur = s.cur ∧ (s.leaveGang w).mem = s.mem ∧
    (s.leaveGang w).stags = s.stags ∧ (s.leaveGang w).poison = s.poison ∧ (s.leaveGang w).slots = s.slots ∧
    (s.leaveGang w).cores = s.cores ∧ (s.leaveGang w).net = s.net ∧ (s.leaveGang w).parts = s.parts ∧
    (s.leaveGang w).launches = s.launches ∧ (s.leaveGang w).sys = s.sys ∧ (s.leaveGang w).nextId = s.nextId ∧
    (s.leaveGang w).ticket = s.ticket := by
  unfold State.leaveGang
  dsimp only
  split
  · simp
  · split <;> simp

@[simp] theorem State.leaveGang_slot (s : State) (w v : Who) : (s.leaveGang w).slot v = s.slot v :=
  State.slot_of_slots (by simp) v

@[simp] theorem State.leaveGang_me (s : State) (w : Who) : (s.leaveGang w).me = s.me := by simp [State.me]

/-- Whether a slot is its core's matrix slot. -/
def State.isMatrixSlot (s : State) (w : Who) : Prop :=
  isLarge w.core = false ∧ (s.tile (tileOf w.core)).mslot (w.core % 16) = w.slot

theorem State.leaveGang_of_not_matrix {s : State} {w : Who} (h : ¬ s.isMatrixSlot w) : s.leaveGang w = s := by
  unfold State.leaveGang
  split
  · rfl
  · exact if_neg fun hm => h ⟨by simpa using ‹¬ isLarge w.core = true›, hm⟩

theorem State.leaveGang_of_matrix {s : State} {w : Who} (h : s.isMatrixSlot w) :
    s.leaveGang w = s.setTile (tileOf w.core) { s.tile (tileOf w.core) with
      mslots := mapErase (s.tile (tileOf w.core)).mslots (w.core % 16), leaving := (s.tile (tileOf w.core)).leaving ++ [w.core % 16] } := by
  unfold State.leaveGang
  rw [if_neg (by simp [h.1])]
  exact if_pos h.2

theorem State.leaveGang_otherTiles (s : State) (w : Who) : s.OtherTiles (s.leaveGang w) (tileOf w.core) := by
  intro j hj
  by_cases h : s.isMatrixSlot w
  · simp [State.leaveGang_of_matrix h, hj]
  · rw [State.leaveGang_of_not_matrix h]

theorem State.leaveGang_leaving {s : State} {w : Who} (h : s.isMatrixSlot w) :
    ((s.leaveGang w).tile (tileOf w.core)).leaving = (s.tile (tileOf w.core)).leaving ++ [w.core % 16] := by
  simp [State.leaveGang_of_matrix h]

/-- A slot that has left is no longer its core's matrix slot. -/
theorem State.leaveGang_mslot {s : State} {w : Who} (hc : isLarge w.core = false) (hw : w.slot < 8) :
    ((s.leaveGang w).tile (tileOf w.core)).mslot (w.core % 16) ≠ w.slot := by
  by_cases h : s.isMatrixSlot w
  · simp only [State.leaveGang_of_matrix h, State.tile_setTile, if_true, Tile.mslot, mapGet_mapErase]
    omega
  · rw [State.leaveGang_of_not_matrix h]
    exact fun hm => h ⟨hc, hm⟩

/-! ### The running slot gives up its owner role and its place in the gang (R123, R289) -/

/-- The state past the departures of a MIGRATE, MIGTO or YIELD. -/
def State.departed (s : State) : State := (s.departOwner s.cur).leaveGang s.cur

@[simp] theorem State.departed_frame (s : State) : s.departed.cur = s.cur ∧ s.departed.me = s.me.departed ∧ s.departed.mem = s.mem ∧
    s.departed.stags = s.stags ∧ s.departed.poison = s.poison ∧ s.departed.cores = s.cores ∧ s.departed.parts = s.parts ∧
    s.departed.launches = s.launches ∧ s.departed.sys = s.sys ∧ s.departed.net = (s.departOwner s.cur).net ∧
    s.departed.ticket = s.ticket := by
  simp [State.departed]

@[simp] theorem State.departed_core (s : State) (c : Nat) : s.departed.core c = s.core c := State.core_of_cores (by simp) c

theorem State.departed_otherSlots (s : State) : s.OtherSlots s.departed s.cur := by
  intro v hv
  simp [State.departed, hv]

theorem State.departOwner_isMatrixSlot (s : State) (w : Who) : (s.departOwner w).isMatrixSlot w ↔ s.isMatrixSlot w := by
  rw [State.isMatrixSlot, State.tile_of_tiles (s := s) (by simp), State.isMatrixSlot]

theorem State.departed_of_none {s : State} (hs : s.me.serving = none) (hm : ¬ s.isMatrixSlot s.cur) : s.departed = s := by
  rw [State.departed, State.departOwner_of_none hs, State.leaveGang_of_not_matrix hm]

theorem State.departed_otherTiles (s : State) : s.OtherTiles s.departed (tileOf s.cur.core) := by
  intro k hk
  rw [State.departed, State.leaveGang_otherTiles _ _ k hk, State.tile_of_tiles (s := s) (by simp)]

theorem State.departed_mslot {s : State} (hc : isLarge s.cur.core = false) (hw : s.cur.slot < 8) :
    (s.departed.tile (tileOf s.cur.core)).mslot (s.cur.core % 16) ≠ s.cur.slot :=
  State.leaveGang_mslot hc hw

theorem State.departed_leaving {s : State} (h : s.isMatrixSlot s.cur) :
    (s.departed.tile (tileOf s.cur.core)).leaving = (s.tile (tileOf s.cur.core)).leaving ++ [s.cur.core % 16] := by
  rw [State.departed, State.leaveGang_leaving ((s.departOwner_isMatrixSlot _).mpr h), State.tile_of_tiles (s := s) (by simp)]

/-! ### Messages counted (R31) -/

@[simp] theorem State.countSent_frame (s : State) (c l : Nat) : (s.countSent c l).cur = s.cur ∧ (s.countSent c l).mem = s.mem ∧
    (s.countSent c l).stags = s.stags ∧ (s.countSent c l).poison = s.poison ∧ (s.countSent c l).slots = s.slots ∧
    (s.countSent c l).tiles = s.tiles ∧ (s.countSent c l).net = s.net ∧ (s.countSent c l).parts = s.parts ∧
    (s.countSent c l).launches = s.launches ∧ (s.countSent c l).sys = s.sys ∧ (s.countSent c l).nextId = s.nextId := by
  simp [State.countSent]

@[simp] theorem State.countSent_slot (s : State) (c l : Nat) (w : Who) : (s.countSent c l).slot w = s.slot w := rfl
@[simp] theorem State.countSent_me (s : State) (c l : Nat) : (s.countSent c l).me = s.me := rfl

theorem State.countSent_core (s : State) (c l d : Nat) : (s.countSent c l).core d =
    if d = c then { s.core c with sent := mapPut (s.core c).sent l (mapGet (s.core c).sent 0 l + 1) } else s.core d := by
  simp [State.countSent]

theorem State.sentFor_countSent (s : State) (c l : Nat) : ((s.countSent c l).core c).sentFor l = (s.core c).sentFor l + 1 := by
  simp [State.countSent_core, Core.sentFor]

theorem State.otherCores_countSent (s : State) (c l : Nat) : s.OtherCores (s.countSent c l) c := by
  intro d hd
  simp [State.countSent_core, hd]

@[simp] theorem State.countReceived_frame (s : State) (c l : Nat) : (s.countReceived c l).cur = s.cur ∧
    (s.countReceived c l).mem = s.mem ∧ (s.countReceived c l).stags = s.stags ∧ (s.countReceived c l).poison = s.poison ∧
    (s.countReceived c l).slots = s.slots ∧ (s.countReceived c l).tiles = s.tiles ∧ (s.countReceived c l).net = s.net ∧
    (s.countReceived c l).parts = s.parts ∧ (s.countReceived c l).launches = s.launches ∧ (s.countReceived c l).sys = s.sys ∧
    (s.countReceived c l).nextId = s.nextId := by
  simp [State.countReceived]

@[simp] theorem State.countReceived_slot (s : State) (c l : Nat) (w : Who) : (s.countReceived c l).slot w = s.slot w := rfl

theorem State.countReceived_core (s : State) (c l d : Nat) : (s.countReceived c l).core d =
    if d = c then { s.core c with received := mapPut (s.core c).received l (mapGet (s.core c).received 0 l + 1) } else s.core d := by
  simp [State.countReceived]

theorem State.receivedFor_countReceived (s : State) (c l : Nat) :
    ((s.countReceived c l).core c).receivedFor l = (s.core c).receivedFor l + 1 := by
  simp [State.countReceived_core, Core.receivedFor]

end Sys2Proof.Machine
end

section
/-! PROOFS.  O14: migration in place, as a packet, or a cause (R26, R123, R222, R224, R225, R289). -/

namespace Sys2Proof.Machine

/-- A migration with nothing in its way that stays on its core (R225). -/
theorem State.migrateTo_here {s : State} {mask : BitVec 32} (hl : s.me.locks = []) (hr : s.me.relaxed = [])
    (ha : s.me.unacked = []) : s.migrateTo s.cur.core mask = s.departed.advance := by
  rw [State.migrateTo, if_neg (not_not_intro hl), State.waitBoth_of_nil hr ha]
  exact if_pos (by simp)

/-- A migration with nothing in its way to another core (R26, R225). -/
theorem State.migrateTo_away {s : State} {dest : Nat} {mask : BitVec 32} (hl : s.me.locks = []) (hr : s.me.relaxed = [])
    (ha : s.me.unacked = []) (hd : dest ≠ s.cur.core) : s.migrateTo dest mask =
      ((s.departed.send s.cur 0 (.packet (s.me.departed.context (s.me.pc + 4) mask s.me.kind s.me.thread) dest 0 0 0)).countSent
        s.cur.core s.me.launch).setMe { s.me.departed with park := .migrating s.departed.nextId, watch := none } := by
  rw [State.migrateTo, if_neg (not_not_intro hl), State.waitBoth_of_nil hr ha]
  change (if dest = s.departed.cur.core then _ else ((s.departed.send s.departed.cur 0
    (.packet (s.departed.me.context (s.departed.me.pc + 4) mask s.departed.me.kind s.departed.me.thread) dest 0 0 0)).countSent
    s.departed.cur.core s.departed.me.launch).setMe { s.departed.me with park := .migrating s.departed.nextId, watch := none }) = _
  simp only [State.departed_frame, Slot.departed_frame]
  rw [if_neg hd]

/-- What a migration that stays in place leaves (R123, R225, R289). -/
theorem State.stays_of_departed {s : State} {i : Instr} (he : exec i s = .next s.departed.advance) :
    (s.me.serving = none → ¬ s.isMatrixSlot s.cur → s.Computes i Slot.SameRegs) ∧
      ∃ t, exec i s = .next t ∧ t.me.pc = s.me.pc + 4 ∧ t.me.park = .ready ∧ s.me.SameRegs t.me ∧ t.me.serving = none ∧
        t.net = (s.departOwner s.cur).net ∧ s.SameMemory t ∧ s.OtherSlots t s.cur ∧ s.SameCores t ∧
        s.OtherTiles t (tileOf s.cur.core) ∧
        (isLarge s.cur.core = false → s.cur.slot < 8 → (t.tile (tileOf s.cur.core)).mslot (s.cur.core % 16) ≠ s.cur.slot) ∧
        (s.isMatrixSlot s.cur → (t.tile (tileOf s.cur.core)).leaving = (s.tile (tileOf s.cur.core)).leaving ++ [s.cur.core % 16]) := by
  refine ⟨fun hs hm => ?_, _, he, ?_, ?_, ?_, ?_, ?_, .of_eq ?_ ?_ ?_, fun v hv => ?_, .of_eq ?_, fun k hk => ?_, fun hc hw => ?_,
    fun hm => ?_⟩
  · rw [State.departed_of_none hs hm] at he
    exact ⟨_, he, s.onlySlot_setMe _, by simpa [State.advance] using s.me.kept_next, by simp [State.advance],
      by simp [State.advance], by simp [State.advance], by simpa [State.advance] using s.me.sameRegs_next⟩
  · simp [State.advance]
  · simp [State.advance]
  · simpa [State.advance] using s.me.sameRegs_departed.trans s.me.departed.sameRegs_next
  · simp [State.advance]
  · simp [State.advance, State.setMe]
  · simp [State.advance, State.setMe]
  · simp [State.advance, State.setMe]
  · simp [State.advance, State.setMe]
  · simp [State.advance, State.setMe, hv, s.departed_otherSlots v hv]
  · simp [State.advance, State.setMe]
  · exact s.departed_otherTiles k hk
  · exact State.departed_mslot hc hw
  · exact State.departed_leaving hm

/-- What a migration that leaves its core does (R25, R26, R31, R225). -/
theorem State.departs_of_migrateTo {s : State} {i : Instr} {dest : Nat} {mask : BitVec 32} (hl : s.me.locks = [])
    (hr : s.me.relaxed = []) (ha : s.me.unacked = []) (hd : dest ≠ s.cur.core) (he : exec i s = .next (s.migrateTo dest mask)) :
    s.Departs i dest mask := by
  rw [State.migrateTo_away hl hr ha hd] at he
  refine ⟨_, ⟨s.departed.nextId, s.cur, 0, _⟩, s.me.departed.context (s.me.pc + 4) mask s.me.kind s.me.thread, he, ?_, rfl, rfl, rfl,
    by simp [Slot.context], by simp [Slot.context], rfl, by simp [Slot.context], by simp [Slot.context], by simp [Slot.context],
    by simp [Slot.context], by simp [Slot.context], by simp [Slot.context], by simp [Slot.context], by simp [Slot.context],
    by simp, by simp, by simp, ?_, .of_eq ?_ ?_ ?_, fun v hv => ?_, fun c hc => ?_⟩
  · simp [State.setMe]
  · simp [State.sentFor_countSent]
  · simp [State.setMe]
  · simp [State.setMe]
  · simp [State.setMe]
  · simp [State.setMe, hv, s.departed_otherSlots v hv]
  · simp [State.countSent_core, hc]

theorem carryMask_eq (s : State) (b : BitVec 5) :
    s.carryMask b = (if b = 0 then (0x3FF0 : BitVec 32) else (s.g b).setWidth 32) &&& 0xFFFFFFF6 := rfl


/-- A carry mask of at most ten registers passes (R25, R224). -/
theorem State.withMask_of_few {s : State} {b : BitVec 5} {k : BitVec 32 → State} (h : popCount (s.carryMask b) ≤ 10) :
    s.withMask b k = k (s.carryMask b) := if_neg (Nat.not_lt.mpr h)

theorem State.withMask_of_many {s : State} {b : BitVec 5} {k : BitVec 32 → State} (h : 10 < popCount (s.carryMask b)) :
    s.withMask b k = s.raise .migrate ((s.carryMask b).zeroExtend 64) := if_pos h

/-- MIGRATE past its carry mask (R225). -/
theorem exec_migrate_of_few {s : State} {a b : BitVec 5} (h : popCount (s.carryMask b) ≤ 10) : exec (.migrate a b) s = .next
    (if 2 ^ 39 ≤ (s.g a).toNat ∨ !s.inPart s.me.part (ownerCore (s.g a)) then s.raise .access (s.g a)
      else s.migrateTo (ownerCore (s.g a)) (s.carryMask b)) :=
  congrArg Host.Outcome.next (State.withMask_of_few h)

/-- MIGTO past its carry mask (R225). -/
theorem exec_migto_of_few {s : State} {a b : BitVec 5} (h : popCount (s.carryMask b) ≤ 10) : exec (.migto a b) s = .next
    (if !migtoOk (s.g a) then s.raise .bounds 0
      else if destPeer (s.g a) ≠ 0 ∨ !s.inPart s.me.part (destCore (s.g a)) then s.raise .access (s.g a)
      else s.migrateTo (destCore (s.g a)) (s.carryMask b)) :=
  congrArg Host.Outcome.next (State.withMask_of_few h)

/-- A destination word of MIGTO has no bit of [63:48], [31:28] and [27:17] (R222). -/
theorem zero_bits_of_migtoOk {v : Word} (h : migtoOk v = true) :
    v >>> 48 = 0 ∧ (v >>> 17).setWidth 11 = 0#11 ∧ (v >>> 28).setWidth 4 = 0#4 := by
  simp only [migtoOk, destOk, Bool.and_eq_true, decide_eq_true_eq] at h
  obtain ⟨⟨⟨⟨high, mid⟩, low⟩, -⟩, box⟩ := h
  have := v.isLt
  have bits : ∀ k n, field v k n = 0 → (v >>> k).toNat % 2 ^ n = 0 := fun k n h => by
    rw [BitVec.toNat_ushiftRight, Nat.shiftRight_eq_div_pow]; exact h
  have box17 : (v >>> 17).toNat % 2 ^ 11 = 0 := by
    have h1 := bits 17 3 low
    have h2 : v.toNat / 2 ^ 20 % 2 ^ 8 = 0 := box
    rw [BitVec.toNat_ushiftRight, Nat.shiftRight_eq_div_pow] at h1 ⊢
    omega
  refine ⟨BitVec.eq_of_toNat_eq ?_, BitVec.eq_of_toNat_eq ?_, BitVec.eq_of_toNat_eq ?_⟩
  · have h1 := bits 48 16 high
    rw [BitVec.toNat_ushiftRight, Nat.shiftRight_eq_div_pow] at h1 ⊢
    have e : v.toNat / 2 ^ 48 < 2 ^ 16 := by omega
    rw [Nat.mod_eq_of_lt e] at h1
    simpa using h1
  · simpa [BitVec.toNat_setWidth] using box17
  · simpa [BitVec.toNat_setWidth] using bits 28 4 mid

/-- Settles O14: past its checks a migration is `State.migrateTo`, whose two ends are `State.stays_of_departed` and
`State.departs_of_migrateTo`. -/
theorem migration : Obligations.Migration := by
  unfold Obligations.Migration
  constructor
  · intro s a b mask v owner tile member stays few hl hr ha
    have here : ∀ i, exec i s = .next (s.migrateTo s.cur.core mask) → stays i := fun i he =>
      State.stays_of_departed (he.trans (by rw [State.migrateTo_here hl hr ha]))
    have toOwner : v.toNat < 2 ^ 39 → s.inPart s.me.part owner = true → exec (.migrate a b) s = .next (s.migrateTo owner mask) :=
      fun hv hp => (exec_migrate_of_few few).trans (congrArg _ (if_neg (by
        rw [not_or]; exact ⟨Nat.not_le.mpr hv, by rw [show s.inPart s.me.part (ownerCore (s.g a)) = true from hp]; decide⟩)))
    have toCore : migtoOk v = true → destPeer v = 0 → s.inPart s.me.part (destCore v) = true →
        exec (.migto a b) s = .next (s.migrateTo (destCore v) mask) :=
      fun hv h0 hp => (exec_migto_of_few few).trans (by simp only [hv, v, h0, hp, mask]; rfl)
    refine ⟨fun hv hp hc => ?_, fun hv hp hc => ?_, fun hv h0 hp hc => ?_, fun hv h0 hp hc => ?_⟩
    · exact here _ (hc ▸ toOwner hv hp)
    · exact State.departs_of_migrateTo hl hr ha hc (toOwner hv hp)
    · exact here _ (hc ▸ toCore hv h0 hp)
    · exact State.departs_of_migrateTo hl hr ha hc (toCore hv h0 hp)
  · intro s a b mask v many
    refine ⟨fun hm i hi => ?_, fun hf hv => ?_, fun hf hv => ?_⟩
    · have raised : s.withMask b = fun _ => s.raise .migrate (mask.zeroExtend 64) := funext fun _ => State.withMask_of_many hm
      simp only [List.mem_cons, List.not_mem_nil, or_false] at hi
      rcases hi with rfl | rfl
      · exact congrArg Host.Outcome.next (congrFun raised _)
      · exact congrArg Host.Outcome.next (congrFun raised _)
    · exact (exec_migrate_of_few (Nat.le_of_not_lt hf)).trans (congrArg _ (if_pos (hv.imp_right fun h => by
        rw [← Bool.not_eq_true'] at h; exact h)))
    · have bad : migtoOk v = false := by
        by_contra h
        obtain ⟨h1, h2, h3⟩ := zero_bits_of_migtoOk (by simpa using h)
        simp [h1, h2, h3] at hv
      exact (exec_migto_of_few (Nat.le_of_not_lt hf)).trans (congrArg _ (if_pos (by rw [bad]; rfl)))

end Sys2Proof.Machine
end

section
/-! PROOFS.  Writes to scratchpad, messages by their numbers, and contexts in slots: what O15 to O22 share. -/

namespace Sys2Proof.Machine

/-! ### Writes to scratchpad -/

@[simp] theorem State.setBytes_frame (s : State) (k : Nat) (bs : List Byte) : (s.setBytes k bs).cur = s.cur ∧
    (s.setBytes k bs).stags = s.stags ∧ (s.setBytes k bs).poison = s.poison ∧ (s.setBytes k bs).slots = s.slots ∧
    (s.setBytes k bs).cores = s.cores ∧ (s.setBytes k bs).tiles = s.tiles ∧ (s.setBytes k bs).net = s.net ∧
    (s.setBytes k bs).parts = s.parts ∧ (s.setBytes k bs).launches = s.launches ∧ (s.setBytes k bs).sys = s.sys ∧
    (s.setBytes k bs).ranges = s.ranges ∧ (s.setBytes k bs).nextId = s.nextId ∧ (s.setBytes k bs).posted = s.posted := by
  induction bs generalizing s k with
  | nil => simp [State.setBytes]
  | cons b r ih => simpa [State.setBytes] using ih (s.setByte k b) (k + 1)

/-- What a run of side tags written leaves unchanged. -/
theorem State.foldl_setSideTag_frame (f : Nat → Nat) (t : Tag) (l : List Nat) (s : State) :
    let u := l.foldl (fun s i => s.setSideTag (f i) t) s
    u.cur = s.cur ∧ u.mem = s.mem ∧ u.poison = s.poison ∧ u.slots = s.slots ∧ u.cores = s.cores ∧ u.tiles = s.tiles ∧ u.net = s.net ∧
      u.parts = s.parts ∧ u.launches = s.launches ∧ u.sys = s.sys ∧ u.ranges = s.ranges ∧ u.nextId = s.nextId ∧ u.posted = s.posted := by
  induction l generalizing s with
  | nil => simp
  | cons i r ih => simpa using ih (s.setSideTag (f i) t)

@[simp] theorem State.clearTags_frame (s : State) (k n : Nat) : (s.clearTags k n).cur = s.cur ∧
    (s.clearTags k n).mem = s.mem ∧ (s.clearTags k n).poison = s.poison ∧ (s.clearTags k n).slots = s.slots ∧
    (s.clearTags k n).cores = s.cores ∧ (s.clearTags k n).tiles = s.tiles ∧ (s.clearTags k n).net = s.net ∧
    (s.clearTags k n).parts = s.parts ∧ (s.clearTags k n).launches = s.launches ∧ (s.clearTags k n).sys = s.sys ∧
    (s.clearTags k n).ranges = s.ranges ∧ (s.clearTags k n).nextId = s.nextId ∧ (s.clearTags k n).posted = s.posted :=
  State.foldl_setSideTag_frame _ _ _ s

@[simp] theorem State.storeSpad_frame (s : State) (k : Nat) (bs : List Byte) : (s.storeSpad k bs).cur = s.cur ∧
    (s.storeSpad k bs).mem = (s.setBytes k bs).mem ∧ (s.storeSpad k bs).poison = s.poison ∧ (s.storeSpad k bs).slots = s.slots ∧
    (s.storeSpad k bs).cores = s.cores ∧ (s.storeSpad k bs).tiles = s.tiles ∧ (s.storeSpad k bs).net = s.net ∧
    (s.storeSpad k bs).parts = s.parts ∧ (s.storeSpad k bs).launches = s.launches ∧ (s.storeSpad k bs).sys = s.sys ∧
    (s.storeSpad k bs).ranges = s.ranges ∧ (s.storeSpad k bs).nextId = s.nextId ∧ (s.storeSpad k bs).posted = s.posted := by
  simp [State.storeSpad]

@[simp] theorem State.byte_storeSpad (s : State) (k j : Nat) (bs : List Byte) :
    (s.storeSpad k bs).byte j = (s.setBytes k bs).byte j := by simp [State.byte]

/-- A side tag after a run of side tags: the last word written there, or as before. -/
theorem State.sideTag_foldl_setSideTag (f : Nat → Nat) (t : Tag) (l : List Nat) (s : State) (j : Nat) :
    (l.foldl (fun s i => s.setSideTag (f i) t) s).sideTag j = if ∃ i ∈ l, f i / 4 = j / 4 then t else s.sideTag j := by
  induction l generalizing s with
  | nil => simp
  | cons i r ih =>
    rw [List.foldl_cons, ih, State.sideTag_setSideTag]
    by_cases hr : ∃ i ∈ r, f i / 4 = j / 4
    · simp [hr]
    · by_cases hi : f i / 4 = j / 4
      · simp [hi]
      · simp only [List.mem_cons, exists_eq_or_imp, hr, hi, Ne.symm hi, or_self, if_false]

/-- Words of a scratchpad that lie whole outside n bytes from an aligned key keep their side tags. -/
theorem State.sideTag_clearTags_outside {s : State} {k n j : Nat} (hk : k % 4 = 0) (hn : n % 4 = 0) (hj : j < k ∨ k + n ≤ j) :
    (s.clearTags k n).sideTag j = s.sideTag j := by
  rw [State.clearTags, State.sideTag_foldl_setSideTag, if_neg]
  rintro ⟨i, hi, e⟩
  rw [List.mem_range, ceilDiv] at hi
  omega

/-- Everything outside [lo, hi) of memory reads as before. -/
def State.SameOutside (s t : State) (lo hi : Nat) : Prop :=
  ∀ j, j < lo ∨ hi ≤ j → t.byte j = s.byte j ∧ t.sideTag j = s.sideTag j ∧ t.poisoned j = s.poisoned j

theorem State.SameMemory.outside {s t : State} (h : s.SameMemory t) (lo hi : Nat) : s.SameOutside t lo hi :=
  fun j _ => ⟨h.1 j, h.2.1 j, h.2.2 j⟩

theorem State.SameOutside.trans_same {s t u : State} {lo hi : Nat} (h : s.SameOutside t lo hi) (g : t.SameMemory u) :
    s.SameOutside u lo hi :=
  fun j hj => ⟨(g.1 j).trans (h j hj).1, (g.2.1 j).trans (h j hj).2.1, (g.2.2 j).trans (h j hj).2.2⟩

theorem State.SameMemory.trans {s t u : State} (h : s.SameMemory t) (g : t.SameMemory u) : s.SameMemory u :=
  ⟨fun k => (g.1 k).trans (h.1 k), fun k => (g.2.1 k).trans (h.2.1 k), fun k => (g.2.2 k).trans (h.2.2 k)⟩

theorem State.SameMemory.trans_outside {s t u : State} {lo hi : Nat} (h : s.SameMemory t) (g : t.SameOutside u lo hi) :
    s.SameOutside u lo hi :=
  fun j hj => ⟨(g j hj).1.trans (h.1 j), (g j hj).2.1.trans (h.2.1 j), (g j hj).2.2.trans (h.2.2 j)⟩

theorem State.SameMemory.refl (s : State) : s.SameMemory s := ⟨fun _ => rfl, fun _ => rfl, fun _ => rfl⟩

/-- A store of whole words changes nothing outside them (R40). -/
theorem State.sameOutside_storeSpad {s : State} {k : Nat} {bs : List Byte} (hk : k % 4 = 0) (hn : bs.length % 4 = 0) :
    s.SameOutside (s.storeSpad k bs) k (k + bs.length) := by
  refine fun j hj => ⟨?_, ?_, ?_⟩
  · rw [State.byte_storeSpad, State.byte_setBytes_outside _ _ _ _ hj]
  · rw [State.storeSpad, State.sideTag_clearTags_outside hk hn hj, State.sideTag, State.sideTag, State.setBytes_frame _ _ _ |>.2.1]
  · simp [State.poisoned]

theorem State.SameOutside.mono {s t : State} {lo hi lo' hi' : Nat} (h : s.SameOutside t lo hi) (h1 : lo' ≤ lo) (h2 : hi ≤ hi') :
    s.SameOutside t lo' hi' := fun j hj => h j (by omega)

/-! ### The running slot, whatever else changes -/

@[simp] theorem State.setCore_me (s : State) (c : Nat) (x : Core) : (s.setCore c x).me = s.me := rfl
@[simp] theorem State.setTile_me (s : State) (k : Nat) (x : Tile) : (s.setTile k x).me = s.me := rfl
@[simp] theorem State.setPart_me (s : State) (p : Nat) (x : Partition) : (s.setPart p x).me = s.me := rfl
@[simp] theorem State.setSys_me (s : State) (x : Sys) : (s.setSys x).me = s.me := rfl

/-! ### Messages by their numbers -/

theorem State.msg?_id {s : State} {id : Nat} {m : Msg} (h : s.msg? id = some m) : m.id = id := by
  simpa using List.find?_some h

theorem State.msg?_of_net {s t : State} (h : t.net = s.net) (id : Nat) : t.msg? id = s.msg? id := by
  rw [State.msg?, State.msg?, h]

theorem State.msg?_rebody {s : State} {id : Nat} {m : Msg} (b : Body) (h : s.msg? id = some m) :
    (s.rebody id b).msg? id = some { m with body := b } := by
  have same : ((fun q : Msg => q.id == id) ∘ fun q => if q.id == id then { q with body := b } else q) = fun q => q.id == id := by
    funext q
    simp only [Function.comp]
    split <;> rfl
  simp only [State.rebody, State.msg?, List.find?_map, same]
  rw [← State.msg?, h, Option.map_some, if_pos (by simp [State.msg?_id h])]

@[simp] theorem State.rebody_frame (s : State) (id : Nat) (b : Body) : (s.rebody id b).cur = s.cur ∧ (s.rebody id b).mem = s.mem ∧
    (s.rebody id b).stags = s.stags ∧ (s.rebody id b).poison = s.poison ∧ (s.rebody id b).slots = s.slots ∧
    (s.rebody id b).cores = s.cores ∧ (s.rebody id b).tiles = s.tiles ∧ (s.rebody id b).parts = s.parts ∧
    (s.rebody id b).launches = s.launches ∧ (s.rebody id b).sys = s.sys ∧ (s.rebody id b).ranges = s.ranges :=
  ⟨rfl, rfl, rfl, rfl, rfl, rfl, rfl, rfl, rfl, rfl, rfl⟩

@[simp] theorem State.rebody_units (s : State) (id : Nat) (b : Body) : (∀ c, (s.rebody id b).core c = s.core c) ∧
    (∀ w, (s.rebody id b).slot w = s.slot w) ∧ (∀ k, (s.rebody id b).tile k = s.tile k) ∧ (∀ p, (s.rebody id b).part p = s.part p) :=
  ⟨fun _ => rfl, fun _ => rfl, fun _ => rfl, fun _ => rfl⟩

@[simp] theorem State.drop_frame (s : State) (id : Nat) : (s.drop id).cur = s.cur ∧ (s.drop id).mem = s.mem ∧
    (s.drop id).stags = s.stags ∧ (s.drop id).poison = s.poison ∧ (s.drop id).slots = s.slots ∧
    (s.drop id).cores = s.cores ∧ (s.drop id).tiles = s.tiles ∧ (s.drop id).parts = s.parts ∧
    (s.drop id).launches = s.launches ∧ (s.drop id).sys = s.sys ∧ (s.drop id).ranges = s.ranges ∧
    (s.drop id).net = s.net.filter (fun m => m.id != id) :=
  ⟨rfl, rfl, rfl, rfl, rfl, rfl, rfl, rfl, rfl, rfl, rfl, rfl⟩

@[simp] theorem State.drop_units (s : State) (id : Nat) : (∀ c, (s.drop id).core c = s.core c) ∧
    (∀ w, (s.drop id).slot w = s.slot w) ∧ (∀ k, (s.drop id).tile k = s.tile k) ∧ (∀ p, (s.drop id).part p = s.part p) :=
  ⟨fun _ => rfl, fun _ => rfl, fun _ => rfl, fun _ => rfl⟩

/-! ### A receiving event at a core (R132, R134) -/

@[simp] theorem State.acquired_frame (s : State) (c : Nat) : (s.acquired c).cur = s.cur ∧ (s.acquired c).mem = s.mem ∧
    (s.acquired c).stags = s.stags ∧ (s.acquired c).poison = s.poison ∧ (s.acquired c).slots = s.slots ∧
    (s.acquired c).tiles = s.tiles ∧ (s.acquired c).net = s.net ∧ (s.acquired c).parts = s.parts ∧
    (s.acquired c).launches = s.launches ∧ (s.acquired c).sys = s.sys ∧ (s.acquired c).ranges = s.ranges ∧
    (s.acquired c).nextId = s.nextId ∧ (s.acquired c).posted = s.posted := by
  unfold State.acquired
  split <;> simp

/-- A receiving event empties no part of a core but its cache. -/
theorem State.acquired_core (s : State) (c d : Nat) :
    (s.acquired c).core d = if isLarge c = true ∧ d = c then { s.core c with cache := [] } else s.core d := by
  unfold State.acquired
  by_cases h : isLarge c = true <;> simp [h]

@[simp] theorem State.acquired_queues (s : State) (c d : Nat) : ((s.acquired c).core d).arrival = (s.core d).arrival ∧
    ((s.acquired c).core d).runList = (s.core d).runList ∧ ((s.acquired c).core d).spill = (s.core d).spill ∧
    ((s.acquired c).core d).reserved = (s.core d).reserved ∧ ((s.acquired c).core d).received = (s.core d).received ∧
    ((s.acquired c).core d).sent = (s.core d).sent := by
  rw [State.acquired_core]
  split
  · obtain ⟨_, rfl⟩ := ‹_ ∧ _›
    simp
  · simp

theorem State.acquired_otherCores (s : State) (c : Nat) : s.OtherCores (s.acquired c) c := fun d hd => by
  simp [State.acquired_core, hd]

/-! ### A context in a slot (R25, R27) -/

/-- Registers written one by one from a list of numbers. -/
theorem foldl_setIfInBounds {n : Nat} (p : Nat → Bool) (f : Nat → Word) (l : List Nat) (v : Vector Word n) (j : Nat) (hj : j < n) :
    (l.foldl (fun v k => if p k then v.setIfInBounds k (f k) else v) v)[j] = if j ∈ l ∧ p j then f j else v[j] := by
  induction l generalizing v with
  | nil => simp
  | cons k r ih =>
    rw [List.foldl_cons, ih]
    by_cases hp : p k
    · by_cases hk : k = j
      · subst hk
        simp [hp]
      · simp [hp, hk, Ne.symm hk]
    · by_cases hk : k = j
      · subst hk
        simp [hp]
      · simp [hp, Ne.symm hk]

theorem Slot.lane_reset (v : BitVec 4) (l : Nat) : Slot.reset.lane v l = 0 := by
  simp only [Slot.lane, Slot.reset, Vector.toList_replicate, List.getD_eq_getElem?_getD, List.getElem?_replicate]
  split <;> rfl

theorem Slot.g_reset (r : BitVec 5) : Slot.reset.g r = 0 := by
  unfold Slot.g
  split
  · rfl
  · simp [Slot.reset, Vector.get]

theorem Slot.g_start (x : Slot) (pc g3 : Word) (pid : BitVec 16) (part launch : Nat) (kind : ThreadKind) (r : BitVec 5) :
    (x.start pc g3 pid part launch kind).g r = if r = 3 then g3 else 0 := by
  change (Slot.reset.setG 3 g3).g r = _
  rw [Slot.g_setG, Slot.g_reset]
  simp

theorem Slot.g_restore (x : Slot) (c : Ctx) (r : BitVec 5) :
    (x.restore c).g r = if r = 3 then c.g3 else if r ≠ 0 ∧ c.mask.getLsbD r.toNat then c.regs.get r.toFin else 0 := by
  have start := x.g_start c.pc c.g3 c.pid c.part c.launch c.kind r
  by_cases h0 : r = 0
  · subst h0; rfl
  have hr : r.toNat < 32 := r.isLt
  have n0 : r.toNat ≠ 0 := fun e => h0 (BitVec.eq_of_toNat_eq e)
  have n3 : r.toNat = 3 ↔ r = 3 := ⟨fun e => BitVec.eq_of_toNat_eq e, fun e => by rw [e]; rfl⟩
  rw [Slot.g_of_ne _ _ h0] at start
  rw [Slot.g_of_ne _ _ h0]
  have fold := foldl_setIfInBounds (fun k => decide (k ≠ 0 ∧ k ≠ 3 ∧ c.mask.getLsbD k)) (fun k => c.regs.toList.getD k 0) (List.range 32)
    (x.start c.pc c.g3 c.pid c.part c.launch c.kind).regs r.toNat hr
  simp only [decide_eq_true_eq, List.mem_range] at fold
  refine fold.trans ?_
  by_cases h3 : r = 3
  · rw [if_pos h3, if_neg (by simp [n3.mpr h3])]
    exact start.trans (if_pos h3)
  · have n3' : r.toNat ≠ 3 := fun e => h3 (n3.mp e)
    simp only [hr, n0, n3', ne_eq, not_false_eq_true, true_and, h0, h3, if_false]
    split
    · simp [Vector.get, hr]
    · exact start.trans (if_neg h3)

/-- A context restored in a slot is held there (R25, R224). -/
theorem Slot.holdsContext_restore (x : Slot) (c : Ctx) (rs : List Routine) :
    Slot.HoldsContext { x.restore c with routines := rs } c where
  occ := rfl
  pc := rfl
  regs := x.g_restore c
  lanes := fun v l => ⟨Slot.lane_reset v l, Slot.tag_reset v l⟩
  pw := rfl
  mode := rfl
  pid := rfl
  part := rfl
  launch := rfl
  stamp := rfl
  csr := rfl

@[simp] theorem State.startContext_frame (s : State) (w : Who) (c : Ctx) : (s.startContext w c).cur = s.cur ∧
    (s.startContext w c).mem = s.mem ∧ (s.startContext w c).stags = s.stags ∧ (s.startContext w c).poison = s.poison ∧
    (s.startContext w c).tiles = s.tiles ∧ (s.startContext w c).net = s.net ∧ (s.startContext w c).parts = s.parts ∧
    (s.startContext w c).launches = s.launches ∧ (s.startContext w c).sys = s.sys ∧ (s.startContext w c).ranges = s.ranges := by
  simp [State.startContext]

@[simp] theorem State.startContext_slot (s : State) (w v : Who) (c : Ctx) : (s.startContext w c).slot v =
    if slotKey v = slotKey w then { (s.slot w).restore c with routines := kindRoutines c.kind } else s.slot v := by
  rw [State.startContext, State.slot_of_slots (State.acquired_frame _ _).2.2.2.2.1, State.slot_setSlot]

@[simp] theorem State.startContext_queues (s : State) (w : Who) (c : Ctx) (d : Nat) :
    ((s.startContext w c).core d).arrival = (s.core d).arrival ∧ ((s.startContext w c).core d).runList = (s.core d).runList ∧
    ((s.startContext w c).core d).spill = (s.core d).spill ∧ ((s.startContext w c).core d).reserved = (s.core d).reserved ∧
    ((s.startContext w c).core d).received = (s.core d).received ∧ ((s.startContext w c).core d).sent = (s.core d).sent := by
  simp [State.startContext]

theorem State.startContext_otherSlots (s : State) (w : Who) (c : Ctx) : s.OtherSlots (s.startContext w c) w := fun v hv => by
  simp [hv]

theorem State.startContext_otherCores (s : State) (w : Who) (c : Ctx) : s.OtherCores (s.startContext w c) w.core := fun d hd => by
  simp [State.startContext, State.acquired_core, hd]

theorem State.startContext_holds (s : State) (w : Who) (c : Ctx) : ((s.startContext w c).slot w).HoldsContext c := by
  rw [State.startContext_slot, if_pos rfl]
  exact Slot.holdsContext_restore _ _ _

end Sys2Proof.Machine
end

section
/-! PROOFS.  O15: SPAWN, and the admission of a packet (R27, R31, R226, R321, R398). -/

namespace Sys2Proof.Machine

/-! ### SPAWN (R226) -/

/-- The state that a SPAWN with room leaves: the packet sent and counted, its spill entry reserved. -/
def State.spawned (s : State) (pc a : Word) (mask : BitVec 32) : State :=
  (((s.send s.cur 0 (.packet (s.me.context pc mask (.spawned s.cur.core) s.nextId) (ownerCore a) 0 0 0)).setCore s.cur.core
    { s.core s.cur.core with spawned := (s.core s.cur.core).spawned + 1, reserved := (s.core s.cur.core).reserved ++ [s.nextId] }).countSent
    s.cur.core s.me.launch).advance

/-- What a SPAWN with room changes: its packet in flight, its core's counts and reservation, and its slot's PC. -/
theorem State.spawned_frame (s : State) (pc a : Word) (mask : BitVec 32) :
    let t := s.spawned pc a mask
    let k := s.core s.cur.core
    t.net = s.net ++ [⟨s.nextId, s.cur, 0,
      .packet (s.me.context pc mask (.spawned s.cur.core) s.nextId) (ownerCore a) 0 0 0⟩] ∧
    (t.core s.cur.core).spawned = k.spawned + 1 ∧ (t.core s.cur.core).reserved = k.reserved ++ [s.nextId] ∧
    (t.core s.cur.core).sentFor s.me.launch = k.sentFor s.me.launch + 1 ∧ s.me.SameRegs t.me ∧ t.me.pc = s.me.pc + 4 ∧
    t.me.park = .ready ∧ s.SameMemory t ∧ s.OtherSlots t s.cur ∧ s.OtherCores t s.cur.core := by
  refine ⟨?_, ?_, ?_, ?_, ?_, ?_, ?_, .of_eq rfl rfl rfl, fun v hv => ?_, fun c hc => ?_⟩
  · rfl
  · simp [State.spawned, State.advance, State.countSent_core]
  · simp [State.spawned, State.advance, State.countSent_core]
  · simp [State.spawned, State.advance, State.countSent_core, Core.sentFor]
  · simpa [State.spawned, State.advance] using s.me.sameRegs_next
  · simp [State.spawned, State.advance]
  · simp [State.spawned, State.advance]
  · simp [State.spawned, State.advance, hv]
  · simp [State.spawned, State.advance, State.countSent_core, hc]

/-- A SPAWN whose carry mask passes, at a PC that is no word's address. -/
theorem exec_spawn_misaligned {s : State} {d a b : BitVec 5} (few : popCount (s.carryMask b) ≤ 10) (hp : (s.g d).toNat % 4 ≠ 0) :
    exec (.spawn d a b) s = .next (s.raise .align (s.g d)) :=
  congrArg Host.Outcome.next ((State.withMask_of_few few).trans (if_pos hp))

/-- A SPAWN whose checks pass, with room on its core. -/
theorem exec_spawn_of_room {s : State} {d a b : BitVec 5} (few : popCount (s.carryMask b) ≤ 10) (hp : (s.g d).toNat % 4 = 0)
    (hv : (s.g a).toNat < 2 ^ 39) (hi : s.inPart s.me.part (ownerCore (s.g a)) = true) (hr : s.me.relaxed = [])
    (hn : (s.core s.cur.core).spawned < 64) (hu : (s.core s.cur.core).spillUse < 64) :
    exec (.spawn d a b) s = .next (s.spawned (s.g d) (s.g a) (s.carryMask b)) := by
  refine congrArg Host.Outcome.next ((State.withMask_of_few few).trans ((if_neg (by simpa using hp)).trans ((if_neg ?_).trans ?_)))
  · rw [hi, not_or]
    exact ⟨Nat.not_le.mpr hv, by decide⟩
  · rw [State.waitRelaxed_of_nil hr]
    exact if_neg (by rw [not_or]; exact ⟨Nat.not_le.mpr hn, Nat.not_le.mpr hu⟩)

/-! ### The admission of a packet (R27, R321) -/

/-- A large core takes no context of a partition that it does not serve (R398). -/
theorem State.takeIn_unserved {s : State} {c : Nat} {x : Ctx} (h : ¬ (isLarge c = false ∨ s.inPart x.part c = true)) :
    s.takeIn c x = none := by
  simp only [not_or, Bool.not_eq_false, Bool.not_eq_true] at h
  simp [State.takeIn, h.1, h.2]

/-- An empty core's lowest free user slot takes the context. -/
theorem State.takeIn_slot {s : State} {c j : Nat} {x : Ctx} (hv : isLarge c = false ∨ s.inPart x.part c = true)
    (hs : (s.core c).spill = []) (ha : (s.core c).arrival = []) (hj : s.freeUser c = some j) :
    s.takeIn c x = some (s.startContext ⟨c, j⟩ x) := by
  rw [State.takeIn, if_neg (by rcases hv with h | h <;> simp [h])]
  simp [hs, ha, hj]

/-- With every user slot in use the arrival queue takes the context. -/
theorem State.takeIn_arrival {s : State} {c : Nat} {x : Ctx} (hv : isLarge c = false ∨ s.inPart x.part c = true)
    (hs : (s.core c).spill = []) (hf : s.freeUser c = none) (ha : (s.core c).arrival.length < 8) :
    s.takeIn c x = some (s.setCore c { s.core c with arrival := (s.core c).arrival ++ [x] }) := by
  rw [State.takeIn, if_neg (by rcases hv with h | h <;> simp [h])]
  simp [hs, ha, hf]

theorem not_takes_of_full {k : Core} (h : 8 ≤ k.arrival.length ∨ k.spill ≠ []) :
    ¬ (k.spill = [] ∧ k.arrival.length < 8) ∧ ∀ P : Prop, ¬ (k.spill = [] ∧ k.arrival = [] ∧ P) := by
  refine ⟨fun ⟨hs, ha⟩ => ?_, fun _ ⟨hs, ha, _⟩ => ?_⟩ <;> rcases h with h | h
  · omega
  · exact h hs
  · simp [ha] at h
  · exact h hs

/-- Behind a full queue or a spilled context, the spill area takes the context. -/
theorem State.takeIn_spill {s : State} {c : Nat} {x : Ctx} (hv : isLarge c = false ∨ s.inPart x.part c = true)
    (hf : 8 ≤ (s.core c).arrival.length ∨ (s.core c).spill ≠ []) (hu : (s.core c).spillUse < 64) :
    s.takeIn c x = some ((s.setCore c { s.core c with spill := (s.core c).spill ++ [x] }).spillImage c) := by
  obtain ⟨hq, hn⟩ := not_takes_of_full hf
  rw [State.takeIn, if_neg (by rcases hv with h | h <;> simp [h])]
  exact (if_neg (hn _)).trans ((if_neg hq).trans (if_pos hu))

/-- With the spill area full as well the context is refused. -/
theorem State.takeIn_full {s : State} {c : Nat} {x : Ctx} (hf : 8 ≤ (s.core c).arrival.length ∨ (s.core c).spill ≠ [])
    (hu : 64 ≤ (s.core c).spillUse) : s.takeIn c x = none := by
  obtain ⟨hq, hn⟩ := not_takes_of_full hf
  by_cases hv : (isLarge c && !s.inPart x.part c) = true
  · exact if_pos hv
  · exact (if_neg hv).trans ((if_neg (hn _)).trans ((if_neg hq).trans (if_neg (Nat.not_lt.mpr hu))))

@[simp] theorem State.spillImage_frame (s : State) (c : Nat) : (s.spillImage c).slots = s.slots ∧ (s.spillImage c).cores = s.cores ∧
    (s.spillImage c).tiles = s.tiles ∧ (s.spillImage c).net = s.net ∧ (s.spillImage c).cur = s.cur := by
  unfold State.spillImage
  split <;> simp

theorem length_freeBytes (s : State) (n : Nat) : (s.freeBytes n).length = 8 * n := by
  simp [State.freeBytes, leBytes_length, Nat.mul_comm]

/-- The image of a spilled context lies in the spill part of the reserved area (R44). -/
theorem State.sameOutside_spillImage (s : State) (c : Nat) :
    s.SameOutside (s.spillImage c) (spadKey c 0x1C000) (spadKey c 0x1C000 + 64 * 128) := by
  unfold State.spillImage
  split
  · exact (State.SameMemory.refl s).outside _ _
  · generalize (Config.freeValue (s.free + 16)).toNat = n
    have image := State.sameOutside_storeSpad (s := { s with free := s.free + 17 }) (k := spadKey c (reservedBase + 128 * (n % 64)))
      (bs := s.freeBytes 16) (by rw [spadKey, reservedBase]; omega) (by rw [length_freeBytes])
    rw [length_freeBytes] at image
    exact image.mono (by simp only [spadKey, reservedBase]; omega) (by simp only [spadKey, reservedBase]; omega)

theorem State.spillImage_of_large {s : State} {c : Nat} (h : isLarge c = true) : s.spillImage c = s := if_pos h

/-! ### A packet that reaches its destination (R27) -/

/-- A packet that waits for its admission, of no SPAWN, with nothing before it. -/
structure State.AtDoor (s : State) (id dest n : Nat) (m : Msg) (c : Ctx) (due : Nat) : Prop where
  msg : s.msg? id = some m
  body : m.body = .packet c dest n 0 due
  next : s.admitsNext dest id = true
  idle : s.workWaits dest = false
  plain : (s.core m.src.core).reserved.contains id = false

theorem exec_admission {s : State} {id dest n due : Nat} {m : Msg} {c : Ctx} (h : s.AtDoor id dest n m c due) :
    exec (.contextPacketAdmission id) s = .next (s.arrive m c dest n) := by
  change Host.Outcome.next _ = _
  simp only [h.msg, h.body, h.next, h.idle, Bool.not_true, Bool.or_self, Bool.false_eq_true, if_false]

/-- An admitted packet is counted as received and awaits its reply. -/
theorem exec_admission_taken {s t : State} {id dest n due : Nat} {m : Msg} {c : Ctx} (h : s.AtDoor id dest n m c due)
    (ht : s.takeIn dest c = some t) (hm : t.net = s.net) (hq : (t.core dest).received = (s.core dest).received) :
    ∃ u, exec (.contextPacketAdmission id) s = .next u ∧ u = (t.countReceived dest c.launch).rebody id (.packet c dest n 1 0) ∧
      u.msg? id = some { m with body := .packet c dest n 1 0 } ∧
      (u.core dest).receivedFor c.launch = (s.core dest).receivedFor c.launch + 1 := by
  have plain : s.isSpawn m = false := by rw [State.isSpawn, State.msg?_id h.msg, h.plain]
  have e : s.arrive m c dest n = (t.countReceived dest c.launch).rebody id (.packet c dest n 1 0) := by
    simp [State.arrive, ht, plain, State.msg?_id h.msg]
  refine ⟨_, (exec_admission h).trans (congrArg _ e), rfl, State.msg?_rebody _ ((State.msg?_of_net (by simp [hm]) _).trans h.msg), ?_⟩
  rw [(State.rebody_units _ _ _).1, State.receivedFor_countReceived, Core.receivedFor, hq, Core.receivedFor]

/-- A refused packet is counted as received and awaits its reply. -/
theorem exec_admission_refused {s : State} {id dest n due : Nat} {m : Msg} {c : Ctx} (h : s.AtDoor id dest n m c due)
    (ht : s.takeIn dest c = none) :
    ∃ u, exec (.contextPacketAdmission id) s = .next u ∧ u = (s.rebody id (.packet c dest n 2 0)).countReceived dest c.launch ∧
      u.msg? id = some { m with body := .packet c dest n 2 0 } ∧
      (u.core dest).receivedFor c.launch = (s.core dest).receivedFor c.launch + 1 := by
  have e : s.arrive m c dest n = (s.rebody id (.packet c dest n 2 0)).countReceived dest c.launch := by
    simp [State.arrive, ht, State.msg?_id h.msg]
  exact ⟨_, (exec_admission h).trans (congrArg _ e), rfl, (State.msg?_of_net (by simp) _).trans (State.msg?_rebody _ h.msg),
    State.receivedFor_countReceived _ _ _⟩

/-- What the count and the reply of an admission leave as they were. -/
theorem State.admitted_frame (t : State) (id dest l : Nat) (b : Body) : t.SameMemory ((t.countReceived dest l).rebody id b) ∧
    t.SameSlots ((t.countReceived dest l).rebody id b) ∧
    ∀ d, (((t.countReceived dest l).rebody id b).core d).arrival = (t.core d).arrival ∧
      (((t.countReceived dest l).rebody id b).core d).spill = (t.core d).spill := by
  refine ⟨.of_eq (by simp) (by simp) (by simp), .of_eq (by simp), fun d => ?_⟩
  rw [(State.rebody_units _ _ _).1, State.countReceived_core]
  split
  · rename_i e
    subst e
    exact ⟨rfl, rfl⟩
  · exact ⟨rfl, rfl⟩

/-- A refusal leaves the same: the reply and the count do not depend on their order. -/
theorem State.refused_frame (s : State) (id dest l : Nat) (b : Body) : s.SameMemory ((s.rebody id b).countReceived dest l) ∧
    s.SameSlots ((s.rebody id b).countReceived dest l) ∧
    ∀ d, (((s.rebody id b).countReceived dest l).core d).arrival = (s.core d).arrival ∧
      (((s.rebody id b).countReceived dest l).core d).spill = (s.core d).spill :=
  s.admitted_frame id dest l b

/-- Settles O15: a SPAWN with room leaves `State.spawned`, and a packet at its destination's door is admitted by the rows of
R27's table (`State.takeIn_slot`, `_arrival`, `_spill`, `_full`, `_unserved`). -/
theorem spawning : Obligations.Spawning := by
  unfold Obligations.Spawning
  constructor
  · intro s d a b mask owner k few
    refine ⟨exec_spawn_misaligned few, fun hp hv hi hr hn hu => ?_⟩
    obtain ⟨net, spawned, reserved, sent, regs, pc, park, mem, slots, cores⟩ := s.spawned_frame (s.g d) (s.g a) mask
    exact ⟨_, _, _, exec_spawn_of_room few hp hv hi hr hn hu, net, rfl, rfl, rfl, rfl, rfl, rfl, rfl, rfl, spawned, reserved, sent, regs,
      pc, park, mem, slots, cores⟩
  · intro s id dest n m c due hm hb hn hw hp k serves full ends area
    have door : s.AtDoor id dest n m c due := ⟨hm, hb, hn, hw, hp⟩
    refine ⟨fun j hv hs ha hj => ?_, fun hv hs hf ha => ?_, fun hv hf hu => ?_, fun hf hu => ?_, fun hv => ?_⟩
    · obtain ⟨u, he, hu, msg, count⟩ := exec_admission_taken door (State.takeIn_slot hv hs ha hj) (by simp) (by simp)
      obtain ⟨mem, slots, -⟩ := (s.startContext ⟨dest, j⟩ c).admitted_frame id dest c.launch (.packet c dest n 1 0)
      rw [← hu] at mem slots
      exact ⟨u, he, ⟨by rw [slots]; exact s.startContext_holds _ c, fun v hv => (slots v).trans (s.startContext_otherSlots _ c v hv),
        .trans (.of_eq (by simp) (by simp) (by simp)) mem⟩, msg, count⟩
    · obtain ⟨u, he, hu, msg, count⟩ := exec_admission_taken door (State.takeIn_arrival hv hs hf ha) (by simp) (by simp)
      obtain ⟨mem, slots, queues⟩ := (s.setCore dest { s.core dest with arrival := (s.core dest).arrival ++ [c] }).admitted_frame
        id dest c.launch (.packet c dest n 1 0)
      rw [← hu] at mem slots queues
      exact ⟨u, he, ⟨(queues dest).1.trans (by simp [k]), slots, mem⟩, msg, count⟩
    · obtain ⟨u, he, hu, msg, count⟩ := exec_admission_taken door (State.takeIn_spill hv hf hu) (by simp)
        (by rw [State.core_of_cores (State.spillImage_frame _ _).2.1]; simp)
      set v := s.setCore dest { s.core dest with spill := (s.core dest).spill ++ [c] } with hv
      have same : s.SameMemory v := .of_eq rfl rfl rfl
      obtain ⟨mem, slots, queues⟩ := (v.spillImage dest).admitted_frame id dest c.launch (.packet c dest n 1 0)
      rw [← hu] at mem slots queues
      refine ⟨u, he, ⟨(queues dest).2.trans ?_, fun w => (slots w).trans (State.slot_of_slots (by simp [hv]) w), fun hl => ?_, ?_⟩,
        msg, count⟩
      · rw [State.core_of_cores (State.spillImage_frame _ _).2.1]
        simp [hv, k]
      · rw [State.spillImage_of_large hl] at mem
        exact same.trans mem
      · exact (same.trans_outside (v.sameOutside_spillImage dest)).trans_same mem
    · obtain ⟨u, he, hu, msg, count⟩ := exec_admission_refused door (State.takeIn_full hf hu)
      obtain ⟨mem, slots, queues⟩ := s.refused_frame id dest c.launch (.packet c dest n 2 0)
      rw [← hu] at mem slots queues
      exact ⟨u, he, ⟨(queues dest).2, (queues dest).1, slots, mem⟩, msg, count⟩
    · obtain ⟨u, he, hu, msg, count⟩ := exec_admission_refused door (State.takeIn_unserved hv)
      obtain ⟨mem, slots, queues⟩ := s.refused_frame id dest c.launch (.packet c dest n 2 0)
      rw [← hu] at mem slots queues
      exact ⟨u, he, ⟨(queues dest).2, (queues dest).1, slots, mem⟩, msg, count⟩

end Sys2Proof.Machine
end

section
/-! PROOFS.  O16: replies, backoff and forwarding entries (R27, R28), and the work that free slots take (R18, R20, R25, R321). -/

namespace Sys2Proof.Machine

/-! ### A slot vacated (R27, R250) -/

@[simp] theorem State.handClaim_frame (s : State) (k : Nat) : (s.handClaim k).cur = s.cur ∧ (s.handClaim k).mem = s.mem ∧
    (s.handClaim k).stags = s.stags ∧ (s.handClaim k).poison = s.poison ∧ (s.handClaim k).slots = s.slots ∧
    (s.handClaim k).cores = s.cores ∧ (s.handClaim k).net = s.net ∧ (s.handClaim k).parts = s.parts ∧
    (s.handClaim k).launches = s.launches ∧ (s.handClaim k).sys = s.sys ∧ (s.handClaim k).nextId = s.nextId := by
  unfold State.handClaim
  dsimp only
  split
  · simp
  · split <;> simp

@[simp] theorem State.unclaim_frame (s : State) (w : Who) : (s.unclaim w).cur = s.cur ∧ (s.unclaim w).mem = s.mem ∧
    (s.unclaim w).stags = s.stags ∧ (s.unclaim w).poison = s.poison ∧ (s.unclaim w).slots = s.slots ∧
    (s.unclaim w).cores = s.cores ∧ (s.unclaim w).net = s.net ∧ (s.unclaim w).parts = s.parts ∧
    (s.unclaim w).launches = s.launches ∧ (s.unclaim w).sys = s.sys ∧ (s.unclaim w).nextId = s.nextId := by
  unfold State.unclaim State.dropClaim
  split
  · simp
  · split <;> simp

@[simp] theorem State.freeSlot_frame (s : State) (w : Who) : (s.freeSlot w).cur = s.cur ∧ (s.freeSlot w).mem = s.mem ∧
    (s.freeSlot w).stags = s.stags ∧ (s.freeSlot w).poison = s.poison ∧ (s.freeSlot w).tiles = s.tiles ∧
    (s.freeSlot w).cores = s.cores ∧ (s.freeSlot w).net = s.net ∧ (s.freeSlot w).parts = s.parts ∧
    (s.freeSlot w).launches = s.launches ∧ (s.freeSlot w).sys = s.sys ∧ (s.freeSlot w).nextId = s.nextId := by
  simp [State.freeSlot]

/-- What a slot becomes when its context is gone: reset, with the handlers that firmware installed (R347, R348). -/
def Slot.freed (x : Slot) : Slot :=
  { Slot.reset with
    sup := { x.sup with status := 0 }, mach := { x.mach with status := 0 }, debug := x.debug, traps := x.traps }

theorem State.freeSlot_slot (s : State) (w v : Who) :
    (s.freeSlot w).slot v = if slotKey v = slotKey w then (s.slot w).freed else s.slot v := by
  simp [State.freeSlot, Slot.freed]

theorem State.freeSlot_occ (s : State) (w : Who) : ((s.freeSlot w).slot w).occ = false := by
  rw [State.freeSlot_slot, if_pos rfl]; rfl

theorem State.freeSlot_otherSlots (s : State) (w : Who) : s.OtherSlots (s.freeSlot w) w := fun v hv => by
  rw [State.freeSlot_slot, if_neg hv]

/-! ### Replies, backoff and forwarding entries (R27, R28) -/

theorem exec_migrationReply_accepted {s : State} {id dest n due : Nat} {m : Msg} {c : Ctx} (hm : s.msg? id = some m)
    (hb : m.body = .packet c dest n 1 due) (ha : s.mayAct m.src.core id = true) (hp : (s.slot m.src).park = .migrating id) :
    exec (.migrationReply id) s = .next (((s.drop id).vacate m.src).setCore m.src.core
      { ((s.drop id).vacate m.src).core m.src.core with
        forwards := (((s.drop id).vacate m.src).core m.src.core).forwards ++
          [⟨m.src.slot, dest, ((s.drop id).vacate m.src).sys.meridian⟩] }) := by
  change Host.Outcome.next _ = _
  simp only [hm, hb, ha, State.drop_units, hp, Bool.not_true, Bool.false_eq_true, if_false, if_true]

theorem exec_migrationReply_refused {s : State} {id dest n due : Nat} {m : Msg} {c : Ctx} (hm : s.msg? id = some m)
    (hb : m.body = .packet c dest n 2 due) (ha : s.mayAct m.src.core id = true) :
    exec (.migrationReply id) s = .next (s.rebody id (.packet c dest (n + 1) 3 (s.sys.meridian + 64 * 2 ^ min n 6))) := by
  change Host.Outcome.next _ = _
  simp only [hm, hb, ha, Bool.not_true, Bool.false_eq_true, if_false]

theorem exec_refusalBackoffExpiry_due {s : State} {id dest n due : Nat} {m : Msg} {c : Ctx} (hm : s.msg? id = some m)
    (hb : m.body = .packet c dest n 3 due) (hr : s.coreRuns m.src.core = true) (hd : due ≤ s.sys.meridian) :
    exec (.refusalBackoffExpiry id) s = .next ((s.rebody id (.packet c dest n 0 0)).countSent m.src.core c.launch) := by
  change Host.Outcome.next _ = _
  simp only [hm, hb, hr, Nat.not_lt.mpr hd, decide_false, Bool.not_true, Bool.or_self, Bool.false_eq_true, if_false]

theorem exec_forwardingEntryExpiry_due {s : State} {core slot : Nat} {f : Forward}
    (hf : (s.core core).forwards.find? (fun f => f.slot == slot) = some f) (hd : 40960 ≤ (s.sys.meridian - f.since) * 17)
    (hr : s.coreRuns core = true) : exec (.forwardingEntryExpiry core slot) s =
      .next (s.setCore core { s.core core with forwards := (s.core core).forwards.erase f }) := by
  change Host.Outcome.next _ = _
  simp only [hf, hr, Nat.not_lt.mpr hd, decide_false, Bool.not_true, Bool.or_self, Bool.false_eq_true, if_false]

theorem State.sameMemory_setCore (s : State) (c : Nat) (x : Core) : s.SameMemory (s.setCore c x) := .of_eq rfl rfl rfl
theorem State.sameSlots_setCore (s : State) (c : Nat) (x : Core) : s.SameSlots (s.setCore c x) := .of_eq rfl
theorem State.otherCores_setCore (s : State) (c : Nat) (x : Core) : s.OtherCores (s.setCore c x) c := fun d hd => by simp [hd]

/-- The first part of O16: replies, backoff and forwarding entries. -/
theorem replies_and_forwards (s : State) (id dest n due core slot : Nat) (m : Msg) (c : Ctx) :
    let k := s.core core
    (s.msg? id = some m → m.body = .packet c dest n 1 due → s.mayAct m.src.core id = true → (s.slot m.src).park = .migrating id →
      ∃ t, exec (.migrationReply id) s = .next t ∧ (t.slot m.src).occ = false ∧ s.OtherSlots t m.src ∧ s.SameMemory t ∧
        t.net = s.net.filter (fun q => q.id != id) ∧
        (t.core m.src.core).forwards = (s.core m.src.core).forwards ++ [{ slot := m.src.slot, target := dest, since := s.sys.meridian }]) ∧
    (s.msg? id = some m → m.body = .packet c dest n 2 due → s.mayAct m.src.core id = true →
      ∃ t, exec (.migrationReply id) s = .next t ∧ s.OnlyNet t ∧
        t.msg? id = some { m with body := .packet c dest (n + 1) 3 (s.sys.meridian + 64 * 2 ^ min n 6) }) ∧
    (s.msg? id = some m → m.body = .packet c dest n 3 due → s.coreRuns m.src.core = true → due ≤ s.sys.meridian →
      ∃ t, exec (.refusalBackoffExpiry id) s = .next t ∧ t.msg? id = some { m with body := .packet c dest n 0 0 } ∧
        s.SameMemory t ∧ s.SameSlots t ∧
        (t.core m.src.core).sentFor c.launch = (s.core m.src.core).sentFor c.launch + 1) ∧
    (∀ f, k.forwards.find? (fun f => f.slot == slot) = some f → 40960 ≤ (s.sys.meridian - f.since) * 17 → s.coreRuns core = true →
      ∃ t, exec (.forwardingEntryExpiry core slot) s = .next t ∧ (t.core core).forwards = k.forwards.erase f ∧
        s.SameMemory t ∧ s.SameSlots t ∧ s.OtherCores t core) ∧
    (k.forwards.any (fun f => f.slot == slot) = false →
      ∃ t, exec (.lateReplyAtOrigin core slot) s = .next t ∧ (t.core core).lateDropped = k.lateDropped + 1 ∧
        s.SameMemory t ∧ s.SameSlots t ∧ s.OtherCores t core) := by
  intro k
  refine ⟨fun hm hb ha hp => ?_, fun hm hb ha => ?_, fun hm hb hr hd => ?_, fun f hf hd hr => ?_, fun hf => ?_⟩
  · refine ⟨_, exec_migrationReply_accepted hm hb ha hp, ?_, fun v hv => ?_, .of_eq ?_ ?_ ?_, ?_, ?_⟩
    · simp [State.vacate, State.freeSlot_occ]
    · rw [State.slot_setCore, State.vacate, State.freeSlot_otherSlots _ _ v hv]
      exact State.slot_of_slots (by simp) v
    · simp [State.vacate]
    · simp [State.vacate]
    · simp [State.vacate]
    · simp [State.vacate]
    · simp [State.vacate, State.core_of_cores (State.freeSlot_frame _ _).2.2.2.2.2.1, State.core_of_cores (State.unclaim_frame _ _).2.2.2.2.2.1]
  · exact ⟨_, exec_migrationReply_refused hm hb ha, ⟨.of_eq rfl rfl rfl, .of_eq rfl, .of_eq rfl, .of_eq rfl, rfl, rfl, rfl⟩,
      State.msg?_rebody _ hm⟩
  · exact ⟨_, exec_refusalBackoffExpiry_due hm hb hr hd, (State.msg?_of_net (by simp) _).trans (State.msg?_rebody _ hm),
      .of_eq (by simp) (by simp) (by simp), .of_eq (by simp), State.sentFor_countSent _ _ _⟩
  · exact ⟨_, exec_forwardingEntryExpiry_due hf hd hr, by simp [k], s.sameMemory_setCore _ _, s.sameSlots_setCore _ _,
      s.otherCores_setCore _ _⟩
  · refine ⟨_, congrArg Host.Outcome.next (if_neg (by rw [hf]; decide)), by simp [k], s.sameMemory_setCore _ _, s.sameSlots_setCore _ _,
      s.otherCores_setCore _ _⟩

/-! ### The free user slots of a core (R20) -/

theorem State.freeUser_of_slots {s t : State} (h : t.slots = s.slots) (c : Nat) : t.freeUser c = s.freeUser c := by
  unfold State.freeUser
  simp only [State.slot_of_slots h]

theorem lt_of_mem_userSlots {c n : Nat} (h : n ∈ userSlots c) : n < 8 := by
  unfold userSlots at h
  split at h <;> simp at h <;> omega

theorem State.freeUser_some {s : State} {c n : Nat} (h : s.freeUser c = some n) : n ∈ userSlots c ∧ (s.slot ⟨c, n⟩).occ = false :=
  ⟨List.mem_of_find?_eq_some h, by simpa using List.find?_some h⟩

theorem State.freeUser_none {s : State} {c : Nat} (h : ∀ j ∈ userSlots c, (s.slot ⟨c, j⟩).occ = true) : s.freeUser c = none := by
  simpa [State.freeUser] using h

/-- A slot that holds a thread, or one of another core, is not the one that a core's work goes to. -/
theorem State.slotKey_ne_free {s : State} {c n : Nat} {w : Who} (h : s.freeUser c = some n)
    (hw : slotKey w / 8 ≠ c ∨ (s.slot w).occ = true) : slotKey w ≠ slotKey ⟨c, n⟩ := by
  intro e
  obtain ⟨hn, hf⟩ := State.freeUser_some h
  rcases hw with h | h
  · have := lt_of_mem_userSlots hn
    rw [e] at h
    dsimp only [slotKey] at h
    omega
  · rw [State.slot, e] at h
    rw [State.slot, h] at hf
    exact absurd hf (by decide)

theorem State.workWaits_of_none {s : State} {c : Nat} (h : s.freeUser c = none) : s.workWaits c = false := by
  simp [State.workWaits, h]

theorem State.takeAll_idle {s : State} {c : Nat} (h : s.workWaits c = false) (n : Nat) : s.takeAll c n = s := by
  cases n with
  | zero => rfl
  | succ n => simp [State.takeAll, h]

/-! ### A run-list entry started (R17, R20) -/

@[simp] theorem State.setCountWord_frame (s : State) (c o w : Nat) : (s.setCountWord c o w).cur = s.cur ∧
    (s.setCountWord c o w).slots = s.slots ∧ (s.setCountWord c o w).cores = s.cores ∧ (s.setCountWord c o w).tiles = s.tiles ∧
    (s.setCountWord c o w).net = s.net ∧ (s.setCountWord c o w).parts = s.parts ∧ (s.setCountWord c o w).launches = s.launches ∧
    (s.setCountWord c o w).sys = s.sys ∧ (s.setCountWord c o w).nextId = s.nextId ∧ (s.setCountWord c o w).poison = s.poison := by
  unfold State.setCountWord
  split <;> simp

@[simp] theorem State.place_frame (s : State) (w : Who) (x : Slot) (l : Nat) : (s.place w x l).cur = s.cur ∧
    (s.place w x l).mem = s.mem ∧ (s.place w x l).stags = s.stags ∧ (s.place w x l).poison = s.poison ∧
    (s.place w x l).cores = s.cores ∧ (s.place w x l).tiles = s.tiles ∧ (s.place w x l).net = s.net ∧
    (s.place w x l).parts = s.parts ∧ (s.place w x l).sys = s.sys :=
  ⟨rfl, rfl, rfl, rfl, rfl, rfl, rfl, rfl, rfl⟩

@[simp] theorem State.place_slot (s : State) (w v : Who) (x : Slot) (l : Nat) :
    (s.place w x l).slot v = if slotKey v = slotKey w then x else s.slot v :=
  State.slot_setSlot { s with nextId := s.nextId + 1 } v w x

@[simp] theorem State.startEntry_cores (s : State) (w : Who) (e : RunEntry) : (s.startEntry w e).cores = s.cores := by
  unfold State.startEntry
  split
  · split <;> simp
  · split <;> simp
  · simp

theorem State.startEntry_otherSlots (s : State) (w : Who) (e : RunEntry) : s.OtherSlots (s.startEntry w e) w := by
  intro v hv
  unfold State.startEntry
  split
  · split
    · exact State.slot_of_slots (by simp) v
    · simpa [hv] using State.slot_of_slots (by simp) v
  · split
    · rfl
    · simp [hv]
  · simp [hv]

/-- The registers of a thread that a launch starts (R17, R340). -/
theorem State.g_fresh (s : State) (w : Who) (l : Launch) (pc : Word) (kind : ThreadKind) (gang : Nat) (r : BitVec 5) :
    (s.fresh w l pc kind gang).g r =
      if r = 6 then dbl gang else if r = 2 then stackTop w.core w.slot else if r = 3 then dbl l.addr else 0 := by
  have start := (s.slot w).g_start pc (dbl l.addr) l.pid l.part l.id kind r
  have thread (x : Slot) (n : Nat) : ({ x with thread := n } : Slot).g r = x.g r := rfl
  simp only [State.fresh, Slot.g_setG, thread, start]
  simp

/-- The slot in which a core starts a task of a launch (R17, R18). -/
def State.taskSlot (s : State) (w : Who) (off : Nat) (l : Launch) : Slot :=
  ((s.fresh w l (l.entry + 4 * (BitVec.ofNat 32 (s.nat (spadKey w.core off + 4) 4)).signExtend 64) (.task (w.core * 2 ^ 20 + off))
    (l.gangOf w.core)).setG 4 (dbl (s.nat (spadKey w.core off + 8) 8))).setG 5 (dbl (w.core * 2 ^ 20 + off))

theorem State.startEntry_task {s : State} {w : Who} {off launch : Nat} {l : Launch} (h : s.launch? launch = some l) :
    s.startEntry w (.task off launch) = (s.setCountWord w.core off 0).place w (s.taskSlot w off l) launch := by
  simp [State.startEntry, State.taskSlot, h]

theorem State.taskSlot_frame (s : State) (w : Who) (off : Nat) (l : Launch) : (s.taskSlot w off l).occ = true ∧
    (s.taskSlot w off l).mode = .user ∧
    (s.taskSlot w off l).pc = l.entry + 4 * (BitVec.ofNat 32 (s.nat (spadKey w.core off + 4) 4)).signExtend 64 ∧
    (s.taskSlot w off l).g 3 = dbl l.addr ∧ (s.taskSlot w off l).g 4 = dbl (s.nat (spadKey w.core off + 8) 8) ∧
    (s.taskSlot w off l).g 5 = dbl (w.core * 2 ^ 20 + off) := by
  refine ⟨rfl, rfl, rfl, ?_, ?_, ?_⟩
  · simp [State.taskSlot, Slot.g_setG, State.g_fresh]
  · simp [State.taskSlot, Slot.g_setG]
  · simp [State.taskSlot, Slot.g_setG]

/-! ### The work that free slots take (R20) -/

theorem State.takeOne_arrival {s : State} {c n : Nat} {x : Ctx} {r : List Ctx} (hf : s.freeUser c = some n)
    (ha : (s.core c).arrival = x :: r) :
    s.takeOne c = (s.setCore c { s.core c with arrival := r }).startContext ⟨c, n⟩ x := by
  simp only [State.takeOne, hf, ha]

theorem State.takeOne_runList {s : State} {c n : Nat} {e : RunEntry} {r : List RunEntry} (hf : s.freeUser c = some n)
    (ha : (s.core c).arrival = []) (hr : (s.core c).runList = e :: r) :
    s.takeOne c = (s.setCore c { s.core c with runList := r }).startEntry ⟨c, n⟩ e := by
  simp only [State.takeOne, hf, ha, hr]

theorem State.takeOne_spill {s : State} {c n : Nat} {x : Ctx} {r : List Ctx} (hf : s.freeUser c = some n)
    (ha : (s.core c).arrival = []) (hr : (s.core c).runList = []) (hs : (s.core c).spill = x :: r) :
    s.takeOne c = (s.setCore c { s.core c with spill := r }).startContext ⟨c, n⟩ x := by
  simp only [State.takeOne, hf, ha, hr, hs]

/-- One piece of work goes to the lowest free user slot and to no other slot. -/
theorem State.takeOne_otherSlots {s : State} {c n : Nat} (hf : s.freeUser c = some n) : s.OtherSlots (s.takeOne c) ⟨c, n⟩ := by
  intro v hv
  match ha : (s.core c).arrival, hr : (s.core c).runList, hs : (s.core c).spill with
  | x :: r, _, _ =>
    rw [State.takeOne_arrival hf ha]
    exact State.startContext_otherSlots _ _ _ v hv
  | [], e :: r, _ =>
    rw [State.takeOne_runList hf ha hr]
    exact State.startEntry_otherSlots _ _ _ v hv
  | [], [], x :: r =>
    rw [State.takeOne_spill hf ha hr hs]
    exact State.startContext_otherSlots _ _ _ v hv
  | [], [], [] => simp only [State.takeOne, hf, ha, hr, hs]

/-- A core's free slots take work, and no slot that holds a thread changes (R20). -/
theorem State.takeAll_keeps {c : Nat} (n : Nat) {s : State} {w : Who} (hw : slotKey w / 8 ≠ c ∨ (s.slot w).occ = true) :
    (s.takeAll c n).slot w = s.slot w := by
  induction n generalizing s with
  | zero => rfl
  | succ n ih =>
    cases hk : s.workWaits c with
    | false => rw [State.takeAll_idle hk]
    | true =>
      obtain ⟨j, hf⟩ : ∃ j, s.freeUser c = some j := by
        cases hf : s.freeUser c with
        | none => rw [State.workWaits_of_none hf] at hk; exact absurd hk (by decide)
        | some j => exact ⟨j, rfl⟩
      have same := State.takeOne_otherSlots hf w (State.slotKey_ne_free hf hw)
      rw [State.takeAll, if_pos hk, ih (by rwa [same]), same]

/-- With a free slot and work, the first piece of work is taken and the rest of the free slots go on. -/
theorem State.takeAll_first {s : State} {c n : Nat} (hf : s.freeUser c = some n)
    (hw : (s.core c).arrival ≠ [] ∨ (s.core c).runList ≠ [] ∨ (s.core c).spill ≠ []) (k : Nat) :
    s.takeAll c (k + 1) = (s.takeOne c).takeAll c k := by
  refine if_pos ?_
  simpa [State.workWaits, hf, or_assoc] using hw

/-- Once the only free user slot is taken there is no more. -/
theorem State.takeOne_alone {s : State} {c n : Nat} (hf : s.freeUser c = some n)
    (alone : ∀ j ∈ userSlots c, j ≠ n → (s.slot ⟨c, j⟩).occ = true) (ho : ((s.takeOne c).slot ⟨c, n⟩).occ = true) (k : Nat) :
    (s.takeOne c).takeAll c k = s.takeOne c := by
  refine State.takeAll_idle (State.workWaits_of_none (State.freeUser_none fun j hj => ?_)) k
  by_cases e : j = n
  · exact e ▸ ho
  · rw [State.takeOne_otherSlots hf ⟨c, j⟩ (by dsimp only [slotKey]; omega)]
    exact alone j hj e

theorem exec_slotTakesWork {s : State} {c n : Nat} (hr : s.coreRuns c = true) (hf : s.freeUser c = some n)
    (hw : (s.core c).arrival ≠ [] ∨ (s.core c).runList ≠ [] ∨ (s.core c).spill ≠ []) :
    exec (.slotTakesWork c) s = .next ((s.takeOne c).takeAll c 7) :=
  congrArg Host.Outcome.next ((if_pos hr).trans (State.takeAll_first hf hw 7))

/-- What a context taken by a free slot leaves: the slot holds it, and the rest of the core's slots go on. -/
theorem State.takeAll_holds {s u : State} {c n : Nat} {x : Ctx} (hf : s.freeUser c = some n)
    (ht : s.takeOne c = u.startContext ⟨c, n⟩ x) (k : Nat) : (((s.takeOne c).takeAll c k).slot ⟨c, n⟩).HoldsContext x ∧
      ∀ w, slotKey w / 8 ≠ c ∨ (s.slot w).occ = true → ((s.takeOne c).takeAll c k).slot w = s.slot w := by
  have holds := u.startContext_holds ⟨c, n⟩ x
  refine ⟨?_, fun w hw => ?_⟩
  · rw [State.takeAll_keeps k (.inr (by rw [ht]; exact holds.occ)), ht]
    exact holds
  · have same := State.takeOne_otherSlots hf w (State.slotKey_ne_free hf hw)
    rw [State.takeAll_keeps k (by rwa [same]), same]

/-- What a context taken by the last free slot changes: that slot, and its core's queues. -/
theorem State.takeOne_kept {s : State} {c n : Nat} {x : Ctx} {k : Core} (hf : s.freeUser c = some n)
    (ht : s.takeOne c = (s.setCore c k).startContext ⟨c, n⟩ x) :
    s.OtherSlots (s.takeOne c) ⟨c, n⟩ ∧ s.SameMemory (s.takeOne c) ∧ s.OtherCores (s.takeOne c) c := by
  refine ⟨State.takeOne_otherSlots hf, ?_, fun d hd => ?_⟩
  · rw [ht]
    exact .of_eq (by simp) (by simp) (by simp)
  · rw [ht, State.startContext_otherCores _ _ _ d hd, s.otherCores_setCore c k d hd]

theorem State.nat_of_mem {s t : State} (h : t.mem = s.mem) (k n : Nat) : t.nat k n = s.nat k n := by
  have bytes (k : Nat) : t.bytes k n = s.bytes k n := by
    induction n generalizing k with
    | zero => rfl
    | succ n ih => rw [State.bytes, State.bytes, ih, State.byte, State.byte, h]
  rw [State.nat, State.nat, bytes]

/-- Where the live descriptors lie depends on a core's objects and on memory alone. -/
theorem State.liveTouch_of_eq {s t : State} {c : Nat} (hm : t.mem = s.mem) (ho : (t.core c).objects = (s.core c).objects) (lo n : Nat) :
    t.liveTouch c lo n = s.liveTouch c lo n := by
  have desc : t.desc = s.desc := funext fun a => State.nat_of_mem hm _ _
  rw [State.liveTouch, State.liveTouch, ho, desc]

theorem State.liveTouch_setCore {s : State} {c : Nat} {x : Core} (ho : x.objects = (s.core c).objects) (lo n : Nat) :
    (s.setCore c x).liveTouch c lo n = s.liveTouch c lo n :=
  State.liveTouch_of_eq (s := s) (t := s.setCore c x) rfl (by simp [ho]) lo n

theorem State.setCountWord_of_clear {s : State} {c o : Nat} (w : Nat) (h : s.liveTouch c o 4 = false) :
    s.setCountWord c o w = s.storeSpad (spadKey c o) (leBytes 4 w) := if_neg (by simp [h])

/-- A count word written reads back (R18). -/
theorem State.nat_setCountWord {s : State} {c o w : Nat} (h : s.liveTouch c o 4 = false) :
    (s.setCountWord c o w).nat (spadKey c o) 4 = w % 2 ^ 32 := by
  rw [State.setCountWord_of_clear w h, State.nat_of_mem (State.storeSpad_frame _ _ _).2.1]
  exact State.nat_setNat s (spadKey c o) 4 w

theorem State.byte_setCountWord {s : State} {c o w j : Nat} (h : j < spadKey c o ∨ spadKey c o + 4 ≤ j) :
    (s.setCountWord c o w).byte j = s.byte j := by
  unfold State.setCountWord
  split
  · rfl
  · rw [State.byte_storeSpad, State.byte_setBytes_outside _ _ _ _ (by rwa [leBytes_length])]

/-- What the admission work of a core with no free slot does at the end of a cycle (R321). -/
theorem State.takeWork_full {s : State} {c : Nat} {x : Ctx} {r : List Ctx} (hf : s.freeUser c = none) (hs : (s.core c).spill = x :: r)
    (ha : (s.core c).arrival.length < 8) :
    s.takeWork c = s.setCore c { s.core c with spill := r, arrival := (s.core c).arrival ++ [x] } := by
  rw [State.takeWork, State.takeAll_idle (State.workWaits_of_none hf)]
  simp only [State.refill, hs, ha, if_true]

/-- The end of a cycle of a core with no free slot (R321). -/
theorem State.endCycle_full {s : State} {c : Nat} {x : Ctx} {r : List Ctx} (i : Option Nat) (hf : s.freeUser c = none)
    (hs : (s.core c).spill = x :: r) (ha : (s.core c).arrival.length < 8) :
    ((s.endCycle c i).core c).spill = r ∧ ((s.endCycle c i).core c).arrival = (s.core c).arrival ++ [x] ∧
      s.SameMemory (s.endCycle c i) ∧ s.SameSlots (s.endCycle c i) ∧ s.OtherCores (s.endCycle c i) c := by
  rw [State.endCycle, State.takeWork_full hf hs ha]
  exact ⟨by simp [Core.cycled], by simp [Core.cycled], .of_eq rfl rfl rfl, .of_eq rfl, fun d hd => by simp [hd]⟩

/-- Settles O16: the replies and forwarding entries are `replies_and_forwards`, and a free slot's work is the first branch of
`State.takeOne` that applies, after which `State.takeAll` changes no slot that holds a thread (`State.takeAll_keeps`). -/
theorem repliesAndSlots : Obligations.RepliesAndSlots := by
  unfold Obligations.RepliesAndSlots
  refine ⟨replies_and_forwards, ?_⟩
  intro s core n k alone keeps kept
  refine ⟨fun hr hf => ⟨fun x r ha => ?_, fun off launch l r ha hl hq => ?_, fun x r ha hl hs => ?_⟩,
    fun x r hr hc hg hp hk hf hs ha => ?_⟩
  · have run := exec_slotTakesWork hr hf (.inl (by rw [ha]; exact List.cons_ne_nil _ _))
    have first := State.takeOne_arrival hf ha
    have ⟨holds, others⟩ := State.takeAll_holds hf first 7
    refine ⟨⟨_, run, holds, others⟩, fun one => ⟨_, run, ?_⟩⟩
    rw [State.takeOne_alone hf one (by rw [first]; exact (State.startContext_holds _ _ _).occ)]
    exact ⟨by simp [first], by simp [first, k], by simp [first, k], State.takeOne_kept hf first⟩
  · have run := exec_slotTakesWork hr hf (.inr (.inl (by rw [hl]; exact List.cons_ne_nil _ _)))
    have first := (State.takeOne_runList hf ha hl).trans (State.startEntry_task (l := l) hq)
    obtain ⟨occ, mode, pc, g3, g4, g5⟩ := (s.setCore core { s.core core with runList := r }).taskSlot_frame ⟨core, n⟩ off l
    have slot : (s.takeOne core).slot ⟨core, n⟩ = (s.setCore core { s.core core with runList := r }).taskSlot ⟨core, n⟩ off l := by
      rw [first, State.place_slot, if_pos rfl]
    refine ⟨⟨_, run, ?_⟩, fun one clear => ⟨_, run, ?_⟩⟩
    · rw [State.takeAll_keeps 7 (.inr (by rw [slot, occ])), slot]
      refine ⟨occ, mode, pc, g3, g4, g5, fun w hw => ?_⟩
      have same := State.takeOne_otherSlots hf w (State.slotKey_ne_free hf hw)
      rw [State.takeAll_keeps 7 (by rwa [same]), same]
    · rw [State.takeOne_alone hf one (by rw [slot, occ])]
      have others := State.takeOne_otherSlots hf
      have cores : (s.takeOne core).cores = (s.setCore core { s.core core with runList := r }).cores := by simp [first]
      have mem : (s.takeOne core).mem = ((s.setCore core { s.core core with runList := r }).setCountWord core off 0).mem := by simp [first]
      refine ⟨?_, ?_, ?_, ?_, fun j hj => ?_, others⟩
      · simp [State.core_of_cores cores]
      · refine (State.nat_of_mem mem _ _).trans (State.nat_setCountWord ?_)
        rw [State.liveTouch_setCore (by rfl)]
        exact clear
      · simpa [State.core_of_cores cores] using ha
      · simp [State.core_of_cores cores, k]
      · rw [State.byte, mem]
        exact State.byte_setCountWord hj
  · have run := exec_slotTakesWork hr hf (.inr (.inr (by rw [hs]; exact List.cons_ne_nil _ _)))
    have first := State.takeOne_spill hf ha hl hs
    have ⟨holds, others⟩ := State.takeAll_holds hf first 7
    refine ⟨⟨_, run, holds, others⟩, fun one => ⟨_, run, ?_⟩⟩
    rw [State.takeOne_alone hf one (by rw [first]; exact (State.startContext_holds _ _ _).occ)]
    exact ⟨by simp [first], by simpa [first] using ha, State.takeOne_kept hf first⟩
  · have start : s.frameStart core = s := if_neg hp
    have run := stepCycle_of_over hr (State.cycle_of_none (cached := false) (by rw [start]; exact hk))
    rw [start] at run
    set t := s.setCore core ((s.core core).counted (s.parkedSlots core) (s.clock core)) with ht
    have sameTraps : s.SameTraps t := fun w => rfl
    rw [State.traceEntries_of_sameTraps sameTraps] at run
    obtain ⟨spill, arrival, mem, slots, cores⟩ := State.endCycle_full (s := t) none ((State.freeUser_of_slots rfl core).trans hf)
      (x := x) (r := r) (by simpa [ht, Core.counted] using hs) (by simpa [ht, Core.counted] using ha)
    refine ⟨_, (step_of_nextCycle (.inr ⟨hg, hc.symm, rfl, rfl⟩)).trans run, spill, arrival.trans ?_,
      (s.sameMemory_setCore _ _).trans mem, fun w => slots w, fun d hd => (cores d hd).trans (s.otherCores_setCore _ _ d hd)⟩
    simp [ht, Core.counted, k]

end Sys2Proof.Machine
end

section
/-! PROOFS.  O21: the deque of a core and steals from it (R22, R23, R44, R245). -/

namespace Sys2Proof.Machine

/-! ### A deque replaced (R22, R44) -/

/-- A core's deque replaced, and nothing else of the core. -/
def State.withDeque (s : State) (c : Nat) (l : List (Word × Word)) : Core := { s.core c with deque := l }

/-- A deque that does not grow past what the core itself holds has no image. -/
theorem State.setDeque_of_held {s : State} {c : Nat} {l : List (Word × Word)}
    (h : l.length ≤ 16 ∨ l.length ≤ (s.core c).deque.length ∨ isLarge c = true) : s.setDeque c l = s.setCore c (s.withDeque c l) := by
  refine if_neg ?_
  simp only [Bool.and_eq_true, decide_eq_true_eq, Bool.not_eq_true']
  rintro ⟨⟨h1, h2⟩, h3⟩
  rcases h with h | h | h
  · omega
  · omega
  · exact absurd (h.symm.trans h3) (by decide)

theorem State.setDeque_frame (s : State) (c : Nat) (l : List (Word × Word)) : (s.setDeque c l).cur = s.cur ∧
    (s.setDeque c l).slots = s.slots ∧ (s.setDeque c l).cores = (s.setCore c (s.withDeque c l)).cores ∧
    (s.setDeque c l).tiles = s.tiles ∧ (s.setDeque c l).net = s.net ∧ (s.setDeque c l).parts = s.parts ∧
    (s.setDeque c l).sys = s.sys := by
  unfold State.setDeque State.withDeque
  dsimp only
  split <;> simp

@[simp] theorem State.setDeque_me (s : State) (c : Nat) (l : List (Word × Word)) : (s.setDeque c l).me = s.me := by
  rw [State.me, (s.setDeque_frame c l).1, State.slot_of_slots (s.setDeque_frame c l).2.1, State.me]

/-- The image of a further entry lies in the overflow part of the reserved area (R44). -/
theorem State.sameOutside_setDeque (s : State) (c : Nat) (l : List (Word × Word)) :
    s.SameOutside (s.setDeque c l) (spadKey c 0x1E000) (spadKey c 0x1E000 + 128 * 16) := by
  unfold State.setDeque
  dsimp only
  generalize (Config.freeValue _).toNat = n
  split
  · have same : s.SameMemory { s.setCore c (s.withDeque c l) with free := s.free + 3 } := .of_eq rfl rfl rfl
    have image := State.sameOutside_storeSpad (s := { s.setCore c (s.withDeque c l) with free := s.free + 3 })
      (k := spadKey c (reservedBase + 0x2000 + 16 * (n % 128))) (bs := (s.setCore c (s.withDeque c l)).freeBytes 2)
      (by rw [spadKey, reservedBase]; omega) (by rw [length_freeBytes])
    rw [length_freeBytes] at image
    exact same.trans_outside (image.mono (by simp only [spadKey, reservedBase]; omega) (by simp only [spadKey, reservedBase]; omega))
  · exact (s.sameMemory_setCore c _).outside _ _

/-- An instruction that replaces its core's deque and returns a status. -/
theorem State.computes_of_setDeque {s : State} {i : Instr} {d : BitVec 5} {n : Nat} {l : List (Word × Word)}
    (he : exec i s = .next ((s.setDeque s.cur.core l).result d (dbl n)))
    (h : l.length ≤ 16 ∨ l.length ≤ (s.core s.cur.core).deque.length ∨ isLarge s.cur.core = true) :
    s.ComputesCore i s.cur.core (s.withDeque s.cur.core l) (Slot.OnlyG d (dbl n)) := by
  rw [State.setDeque_of_held h] at he
  refine State.computesCore_of_setCore (x := s.me.setG d (dbl n)) he ?_ (by simp) ?_
  · constructor <;> simp
  · exact ⟨s.me.wroteG_setG d _, fun v l => by simp [Slot.lane, Slot.tag], by simp, by simp⟩

/-- The same whatever the length: only the image of a further entry differs. -/
theorem State.runs_of_setDeque {s : State} {i : Instr} {d : BitVec 5} {n : Nat} {l : List (Word × Word)}
    (he : exec i s = .next ((s.setDeque s.cur.core l).result d (dbl n))) :
    ∃ t, exec i s = .next t ∧ s.me.Kept t.me ∧ t.me.park = .ready ∧ t.me.pc = s.me.pc + 4 ∧ Slot.OnlyG d (dbl n) s.me t.me ∧
      t.core s.cur.core = s.withDeque s.cur.core l ∧ s.OtherCores t s.cur.core ∧ s.OtherSlots t s.cur ∧ s.SameTiles t ∧ t.net = s.net ∧
      s.SameOutside t (spadKey s.cur.core 0x1E000) (spadKey s.cur.core 0x1E000 + 128 * 16) := by
  obtain ⟨cur, slots, cores, tiles, net, -, -⟩ := s.setDeque_frame s.cur.core l
  refine ⟨_, he, ?_, ?_, ?_, ⟨?_, fun v l => ?_, ?_, ?_⟩, ?_, fun d hd => ?_, fun v hv => ?_, .of_eq tiles, net,
    (s.sameOutside_setDeque _ _).trans_same (.of_eq rfl rfl rfl)⟩
  · simpa [State.result] using s.me.kept_setG_next d (dbl n)
  · simp [State.result]
  · simp [State.result]
  · simpa [State.result, Slot.WroteG] using s.me.wroteG_setG d (dbl n)
  · simp [State.result, Slot.lane, Slot.tag]
  · simp [State.result]
  · simp [State.result]
  · exact (State.core_of_cores cores _).trans (by simp)
  · exact (State.core_of_cores cores _).trans (by simp [hd])
  · simpa [State.result, cur, hv] using State.slot_of_slots slots v

/-! ### Pushes, pops and splits (R22, R245) -/

/-- A pair result: the second word where rd + 1 names a register, the first in rd, and the others as they were. -/
def Slot.PairOf (x y : Slot) (d : BitVec 5) (p : Word × Word) : Prop :=
  ∀ r, y.g r = if r = 0 then 0 else if r = d + 1 then p.2 else if r = d then p.1 else x.g r

theorem Slot.pairOf_setPairG (x : Slot) (d : BitVec 5) (p : Word × Word) : x.PairOf (x.setPairG d p) d p := by
  intro r
  rw [Slot.setPairG, (x.setG d p.1).wroteG_setG (d + 1) p.2 r, x.wroteG_setG d p.1 r]
  by_cases h : r = 0
  · rw [if_pos h, if_pos h]
  · rw [if_neg h, if_neg h, if_neg h]

@[simp] theorem Slot.setPairG_frame (x : Slot) (d : BitVec 5) (p : Word × Word) : (x.setPairG d p).lanes = x.lanes ∧
    (x.setPairG d p).tags = x.tags ∧ (x.setPairG d p).pw = x.pw ∧ (x.setPairG d p).csr = x.csr ∧ (x.setPairG d p).pc = x.pc := by
  simp [Slot.setPairG]

theorem Slot.kept_setPairG (x : Slot) (d : BitVec 5) (p : Word × Word) : x.Kept (x.setPairG d p) := by
  constructor <;> simp [Slot.setPairG]

theorem Slot.sameV_setPairG (x : Slot) (d : BitVec 5) (p : Word × Word) : x.SameV (x.setPairG d p).next := fun v l => by
  simp [Slot.lane, Slot.tag]

/-- An instruction that takes a pair from its core's deque. -/
theorem State.computes_pair {s : State} {i : Instr} {d : BitVec 5} {p : Word × Word} {k : Core}
    (he : exec i s = .next ((s.setCore s.cur.core k).setMe ((s.me.setPairG d p).next))) :
    s.ComputesCore i s.cur.core k (fun x y => x.PairOf y d p ∧ x.SameV y ∧ y.pw = x.pw ∧ y.csr = x.csr) :=
  State.computesCore_of_setCore he (s.me.kept_setPairG d p) (by simp)
    ⟨s.me.pairOf_setPairG d p, s.me.sameV_setPairG d p, by simp, by simp⟩

theorem pushRange_fits {l : List (Word × Word)} {lo hi : Word} (h : lo.toNat < hi.toNat) (hl : l.length < 144) :
    pushRange l lo hi = (0, (lo, hi) :: l) := by
  rw [pushRange, if_neg (Nat.not_le.mpr h), if_neg (Nat.not_le.mpr hl)]

theorem pushRange_full {l : List (Word × Word)} {lo hi : Word} (h : lo.toNat < hi.toNat) (hl : 144 ≤ l.length) :
    pushRange l lo hi = (2, l) := by
  rw [pushRange, if_neg (Nat.not_le.mpr h), if_pos hl]

theorem splitRange_one {lo hi : Word} {r : List (Word × Word)} (h : hi - lo = 1) : splitRange ((lo, hi) :: r) = (2, (lo, hi) :: r) :=
  if_pos h

theorem splitRange_full {lo hi : Word} {r : List (Word × Word)} (h : hi - lo ≠ 1) (hl : 144 ≤ ((lo, hi) :: r).length) :
    splitRange ((lo, hi) :: r) = (3, (lo, hi) :: r) := (if_neg h).trans (if_pos hl)

theorem splitRange_fits {lo hi : Word} {r : List (Word × Word)} (h : hi - lo ≠ 1) (hl : ((lo, hi) :: r).length < 144) :
    splitRange ((lo, hi) :: r) = (0, (lo + (hi - lo) / 2, hi) :: (lo, lo + (hi - lo) / 2) :: r) :=
  (if_neg h).trans (if_neg (Nat.not_le.mpr hl))

theorem exec_dqpush (s : State) (d a b : BitVec 5) : exec (.dqpush d a b) s =
    .next ((s.setDeque s.cur.core (pushRange (s.core s.cur.core).deque (s.g a) (s.g b)).2).result d
      (dbl (pushRange (s.core s.cur.core).deque (s.g a) (s.g b)).1)) := rfl

theorem exec_dqsplit (s : State) (d : BitVec 5) : exec (.dqsplit d) s =
    .next ((s.setDeque s.cur.core (splitRange (s.core s.cur.core).deque).2).result d (dbl (splitRange (s.core s.cur.core).deque).1)) := rfl

theorem exec_dqpop_cons {s : State} {d : BitVec 5} {p : Word × Word} {r : List (Word × Word)} (h : (s.core s.cur.core).deque = p :: r) :
    exec (.dqpop d) s = .next ((s.setCore s.cur.core (s.withDeque s.cur.core r)).setMe ((s.me.setPairG d p).next)) := by
  change Host.Outcome.next _ = _
  simp only [h]
  rw [State.setDeque_of_held (.inr (.inl (by simp [h])))]

/-- With an empty deque DQPOP returns the pair of zeros. -/
theorem State.computes_dqpop_nil {s : State} {d : BitVec 5} (h : (s.core s.cur.core).deque = []) :
    s.ComputesCore (.dqpop d) s.cur.core (s.withDeque s.cur.core [])
      (fun x y => x.PairOf y d (0, 0) ∧ x.SameV y ∧ y.pw = x.pw ∧ y.csr = x.csr) := by
  have he : exec (.dqpop d) s = .next (s.setMe ((s.me.setPairG d (0, 0)).next)) := by
    change Host.Outcome.next _ = _
    simp only [h]
  have core : s.withDeque s.cur.core [] = s.core s.cur.core := by rw [State.withDeque, ← h]
  refine ⟨_, he, ?_, by simp, by simp, by simp, ?_, core.symm, fun _ _ => rfl, .of_eq rfl rfl rfl, s.setMe_otherSlots _, fun _ => rfl, rfl, rfl, rfl⟩
  · simpa using (s.me.kept_setPairG d (0, 0)).trans (Slot.kept_next _)
  · simpa [Slot.PairOf] using ⟨s.me.pairOf_setPairG d (0, 0), s.me.sameV_setPairG d (0, 0)⟩

/-- The first part of O21: the instructions of a core's own deque. -/
theorem own_deque (s : State) (d a b : BitVec 5) :
    let c := s.cur.core
    let l := (s.core c).deque
    let now := fun (l : List (Word × Word)) => { s.core c with deque := l }
    let pair := fun (p : Word × Word) (x y : Slot) => (∀ r, y.g r = if r = 0 then 0 else if r = d + 1 then p.2 else if r = d then p.1 else x.g r) ∧
      x.SameV y ∧ y.pw = x.pw ∧ y.csr = x.csr
    let area := spadKey c 0x1E000
    let grows := fun (i : Instr) (n : List (Word × Word)) => (l.length < 16 ∨ isLarge c = true → s.ComputesCore i c (now n) (Slot.OnlyG d 0)) ∧
      ∃ t, exec i s = .next t ∧ s.me.Kept t.me ∧ t.me.park = .ready ∧ t.me.pc = s.me.pc + 4 ∧ Slot.OnlyG d 0 s.me t.me ∧
        t.core c = now n ∧ s.OtherCores t c ∧ s.OtherSlots t s.cur ∧ s.SameTiles t ∧ t.net = s.net ∧
        ∀ j, j < area ∨ area + 128 * 16 ≤ j → t.byte j = s.byte j ∧ t.sideTag j = s.sideTag j ∧ t.poisoned j = s.poisoned j
    ((s.g a).toNat < (s.g b).toNat → l.length < 144 → grows (.dqpush d a b) ((s.g a, s.g b) :: l)) ∧
    ((s.g b).toNat ≤ (s.g a).toNat → s.ComputesCore (.dqpush d a b) c (now l) (Slot.OnlyG d 1)) ∧
    ((s.g a).toNat < (s.g b).toNat → 144 ≤ l.length → s.ComputesCore (.dqpush d a b) c (now l) (Slot.OnlyG d 2)) ∧
    (∀ p r, l = p :: r → s.ComputesCore (.dqpop d) c (now r) (pair p)) ∧
    (l = [] → s.ComputesCore (.dqpop d) c (now []) (pair (0, 0))) ∧
    (∀ lo hi r, l = (lo, hi) :: r → hi - lo ≠ 1 → l.length < 144 →
      grows (.dqsplit d) ((lo + (hi - lo) / 2, hi) :: (lo, lo + (hi - lo) / 2) :: r)) ∧
    (l = [] → s.ComputesCore (.dqsplit d) c (now []) (Slot.OnlyG d 1)) ∧
    (∀ lo hi r, l = (lo, hi) :: r → hi - lo = 1 → s.ComputesCore (.dqsplit d) c (now l) (Slot.OnlyG d 2)) ∧
    (∀ lo hi r, l = (lo, hi) :: r → hi - lo ≠ 1 → 144 ≤ l.length → s.ComputesCore (.dqsplit d) c (now l) (Slot.OnlyG d 3)) ∧
    s.ComputesG (.dqlen d) d (dbl l.length) := by
  intro c l now pair area grows
  have grow : ∀ i n, exec i s = .next ((s.setDeque c n).result d (dbl 0)) → n.length = l.length + 1 → grows i n := fun i n he hn =>
    ⟨fun h => State.computes_of_setDeque he (h.imp (fun h => by omega) .inr), State.runs_of_setDeque he⟩
  have push : ∀ {r}, pushRange l (s.g a) (s.g b) = r → exec (.dqpush d a b) s = .next ((s.setDeque c r.2).result d (dbl r.1)) :=
    fun h => h ▸ exec_dqpush s d a b
  have split : ∀ {r}, splitRange l = r → exec (.dqsplit d) s = .next ((s.setDeque c r.2).result d (dbl r.1)) :=
    fun h => h ▸ exec_dqsplit s d
  have same : ∀ {i n}, exec i s = .next ((s.setDeque c l).result d (dbl n)) → s.ComputesCore i c (now l) (Slot.OnlyG d (dbl n)) :=
    fun he => State.computes_of_setDeque he (.inr (.inl (Nat.le_refl _)))
  refine ⟨fun h hl => ?_, fun h => ?_, fun h hl => ?_, fun p r hp => ?_, fun hl => ?_, fun lo hi r hr h hl => ?_, fun hl => ?_,
    fun lo hi r hr h => ?_, fun lo hi r hr h hl => ?_, State.computesG_of_result rfl⟩
  · exact grow _ _ (push (pushRange_fits h hl)) rfl
  · exact same (push (if_pos h))
  · exact same (push (pushRange_full h hl))
  · exact State.computes_pair (exec_dqpop_cons hp)
  · exact State.computes_dqpop_nil hl
  · rw [hr] at hl
    exact grow _ _ (split ((congrArg splitRange hr).trans (splitRange_fits h hl))) (by rw [hr]; rfl)
  · have he := same (n := 1) (split (r := (1, l)) (by rw [hl]; rfl))
    rw [hl] at he
    exact he
  · exact same (n := 2) (split (r := (2, l)) (by rw [hr]; exact splitRange_one h))
  · exact same (n := 3) (split (r := (3, l)) (by rw [hr] at hl ⊢; exact splitRange_full h hl))

/-! ### Steals (R23) -/

theorem stealRange_nil : stealRange [] = ((0, 0), []) := rfl

/-- A steal of a deque whose bottom range is of one item takes it whole. -/
theorem stealRange_one {l : List (Word × Word)} {lo hi : Word} (h : (hi - lo).toNat = 1) :
    stealRange (l ++ [(lo, hi)]) = ((lo, hi), l) := by
  simp only [stealRange, List.getLast?_concat, List.dropLast_concat, if_pos h]

/-- A steal takes the upper half of a longer bottom range, rounded up. -/
theorem stealRange_half {l : List (Word × Word)} {lo hi : Word} (h : (hi - lo).toNat ≠ 1) : stealRange (l ++ [(lo, hi)]) =
    ((hi - dbl (((hi - lo).toNat + 1) / 2), hi), l ++ [(lo, hi - dbl (((hi - lo).toNat + 1) / 2))]) := by
  simp only [stealRange, List.getLast?_concat, List.dropLast_concat, if_neg h]

/-- A steal never lengthens a deque. -/
theorem length_stealRange (l : List (Word × Word)) : (stealRange l).2.length ≤ l.length := by
  rcases l.eq_nil_or_concat with rfl | ⟨r, ⟨lo, hi⟩, rfl⟩
  · exact Nat.le_refl _
  · rw [List.concat_eq_append]
    by_cases h : (hi - lo).toNat = 1
    · rw [stealRange_one h]; simp
    · rw [stealRange_half h]; simp

/-- A thief completes its DQSTEAL with a pair. -/
def Slot.stole (x : Slot) (d : BitVec 5) (p : Word × Word) : Slot := (x.setPairG d p).next

/-- What a steal served does to the thief and the victim (R23). -/
theorem State.steals {s t : State} {w : Who} {d : BitVec 5} {c : Nat} (hm : s.SameMemory t) (hs : s.OtherSlots t w) (hc : s.OtherCores t c)
    (hk : (t.core c).deque = (stealRange (s.core c).deque).2)
    (hw : t.slot w = (s.slot w).stole d (stealRange (s.core c).deque).1) :
    let pair := fun (rd : BitVec 5) (p : Word × Word) (x y : Slot) => y.pc = x.pc + 4 ∧ y.park = .ready ∧
      ∀ r, y.g r = if r = 0 then 0 else if r = rd + 1 then p.2 else if r = rd then p.1 else x.g r
    s.SameMemory t ∧ s.OtherSlots t w ∧ s.OtherCores t c ∧
      (∀ l lo hi, (s.core c).deque = l ++ [(lo, hi)] → lo.toNat < hi.toNat →
        let n := hi.toNat - lo.toNat
        (n = 1 → (t.core c).deque = l ∧ pair d (lo, hi) (s.slot w) (t.slot w)) ∧
        (n ≠ 1 → (t.core c).deque = l ++ [(lo, hi - dbl ((n + 1) / 2))] ∧ pair d (hi - dbl ((n + 1) / 2), hi) (s.slot w) (t.slot w))) ∧
      ((s.core c).deque = [] → (t.core c).deque = [] ∧ pair d (0, 0) (s.slot w) (t.slot w)) := by
  intro pair
  have stole : ∀ p, pair d p (s.slot w) ((s.slot w).stole d p) := fun p =>
    ⟨by simp [Slot.stole], by simp [Slot.stole], (s.slot w).pairOf_setPairG d p⟩
  refine ⟨hm, hs, hc, fun l lo hi hl hlt => ?_, fun hl => ?_⟩
  · intro n
    have len : (hi - lo).toNat = n := BitVec.toNat_sub_of_le (Nat.le_of_lt hlt)
    rw [hl] at hk hw
    refine ⟨fun h => ?_, fun h => ?_⟩
    · rw [stealRange_one (len.trans h)] at hk hw
      exact ⟨hk, hw ▸ stole _⟩
    · rw [stealRange_half (len ▸ h), len] at hk hw
      exact ⟨hk, hw ▸ stole _⟩
  · rw [hl, stealRange_nil] at hk hw
    exact ⟨hk, hw ▸ stole _⟩

/-- Whether a core runs depends on the partitions, the clock and the core's place in its frame. -/
theorem State.coreRuns_of_eq {s t : State} {c : Nat} (hp : t.parts = s.parts) (hs : t.sys = s.sys) (hc : (t.core c).pos = (s.core c).pos) :
    t.coreRuns c = s.coreRuns c := by
  have part : t.part = s.part := funext fun p => by rw [State.part, State.part, hp]
  have partOf : t.partOf c = s.partOf c := by simp only [State.partOf, State.inPart, part]
  have clock : t.clock c = s.clock c := by rw [State.clock, State.clock, hs]
  rw [State.coreRuns, State.coreRuns, partOf, part, clock, hc]

/-- What a core hears depends on that, its buffer and the messages in flight. -/
theorem State.hears_of_eq {s t : State} {c : Nat} (hp : t.parts = s.parts) (hs : t.sys = s.sys) (hn : t.net = s.net)
    (hc : (t.core c).pos = (s.core c).pos) (hb : (t.core c).buffer = (s.core c).buffer) : t.hears c = s.hears c := by
  have holds : t.holdsFor c = s.holdsFor c := funext fun id => by simp only [State.holdsFor, State.msg?_of_net hn]
  rw [State.hears, State.hears, State.coreRuns_of_eq hp hs hc, holds, hb]

theorem State.hears_setDeque (s : State) (c d : Nat) (l : List (Word × Word)) : (s.setDeque c l).hears d = s.hears d := by
  obtain ⟨-, -, cores, -, net, parts, sys⟩ := s.setDeque_frame c l
  refine State.hears_of_eq parts sys net ?_ ?_ <;> rw [State.core_of_cores cores, State.core_setCore] <;> split
  · rw [‹d = c›]; rfl
  · rfl
  · rw [‹d = c›]; rfl
  · rfl

/-- A pair that a thief on a core that hears it takes up at once (R23, R344). -/
theorem State.tell_stolen {s : State} {w : Who} {id : Nat} {d : BitVec 5} {p : Word × Word} (hh : s.hears w.core = true)
    (hp : (s.slot w).park = .reply id) : s.tell w (.stolen id d p.1 p.2) = s.setSlot w ((s.slot w).stole d p) := by
  rw [State.tell, if_pos hh]
  exact if_pos hp

theorem State.steals_of_setSlot {s u : State} {w : Who} {d : BitVec 5} {c : Nat} (hm : u.mem = s.mem) (hg : u.stags = s.stags)
    (hp : u.poison = s.poison) (hs : u.slots = s.slots) (hc : u.cores = s.cores) :
    let t := (u.setDeque c (stealRange (s.core c).deque).2).setSlot w ((s.slot w).stole d (stealRange (s.core c).deque).1)
    s.SameMemory t ∧ s.OtherSlots t w ∧ s.OtherCores t c ∧ (t.core c).deque = (stealRange (s.core c).deque).2 ∧
      t.slot w = (s.slot w).stole d (stealRange (s.core c).deque).1 := by
  have held := State.setDeque_of_held (s := u) (c := c) (l := (stealRange (s.core c).deque).2)
    (.inr (.inl (by rw [State.core_of_cores hc]; exact length_stealRange _)))
  intro t
  simp only [t, held]
  refine ⟨.of_eq (by simp [hm]) (by simp [hg]) (by simp [hp]), fun v hv => ?_, fun k hk => ?_, ?_, ?_⟩
  · simpa [hv] using State.slot_of_slots hs v
  · simpa [hk] using State.core_of_cores hc k
  · simp [State.withDeque]
  · simp

theorem homeOf_core {v : Nat} (h : v < 2 ^ 16) : homeOf (v * 2 ^ 20) = v := by
  rw [homeOf]; omega

/-- A DQSTEAL in the super-group, of a core that runs, is served at once (R23). -/
theorem exec_dqsteal_near {s : State} {d a : BitVec 5} (hv : (s.g a).toNat < 2 ^ 16) (hi : s.inPart s.me.part (s.g a).toNat = true)
    (hr : s.me.relaxed = []) (hl : isLarge s.cur.core = false) (hg : sgOf (s.g a).toNat = sgOf s.cur.core)
    (hc : s.coreRuns (s.g a).toNat = true) : exec (.dqsteal d a) s = .next (s.serveSteal s.cur d (s.g a).toNat) := by
  change Host.Outcome.next _ = _
  have near : nearBank s.cur.core ((s.g a).toNat * 2 ^ 20) = true := by simp only [nearBank, hl, homeOf_core hv, hg]; decide
  simp only [Nat.mod_eq_of_lt hv, hi, Nat.not_le.mpr hv, State.waitRelaxed_of_nil hr, near, hc, if_false, Bool.not_true, Bool.and_self,
    Bool.false_eq_true, if_true]

/-- A DQSTEAL beyond the super-group, or of a core that does not run, travels to the victim (R23). -/
theorem exec_dqsteal_far {s : State} {d a : BitVec 5} (hv : (s.g a).toNat < 2 ^ 16) (hi : s.inPart s.me.part (s.g a).toNat = true)
    (hr : s.me.relaxed = [])
    (hf : isLarge s.cur.core = true ∨ sgOf (s.g a).toNat ≠ sgOf s.cur.core ∨ s.coreRuns (s.g a).toNat = false) :
    exec (.dqsteal d a) s = .next ((s.send s.cur d (.steal (s.g a).toNat)).setPark s.cur (.reply s.nextId)) := by
  change Host.Outcome.next _ = _
  have far : (nearBank s.cur.core ((s.g a).toNat * 2 ^ 20) && s.coreRuns (s.g a).toNat) = false := by
    simp only [nearBank, homeOf_core hv]
    rcases hf with h | h | h <;> simp [h]
  simp only [Nat.mod_eq_of_lt hv, hi, Nat.not_le.mpr hv, State.waitRelaxed_of_nil hr, far, if_false, Bool.not_true, Bool.false_eq_true]

/-- The victim's service slot serves a steal whose thief waits on a core that hears it (R23, R344). -/
theorem exec_dequeStealServed {s : State} {id c : Nat} {m : Msg} (hm : s.msg? id = some m) (hb : m.body = .steal c)
    (hs : s.servesNext c id = true) (hp : (s.slot m.src).park = .reply id) (hh : (s.drop id).hears m.src.core = true) :
    exec (.dequeStealServed id) s = .next (((s.drop id).setDeque c (stealRange (s.core c).deque).2).setSlot m.src
      ((s.slot m.src).stole m.rd (stealRange (s.core c).deque).1)) := by
  change Host.Outcome.next _ = _
  simp only [hm, hb, hs, if_true, State.shipSteal, State.msg?_id hm]
  have slot := State.slot_of_slots ((s.drop id).setDeque_frame c (stealRange (s.core c).deque).2).2.1 m.src
  rw [State.tell_stolen ((State.hears_setDeque _ _ _ _).trans hh) (by rw [slot]; exact hp), slot]
  rfl

/-- Settles O21: `own_deque` for a core's own deque, and a steal, served at once or by the victim's service slot, does what
`State.steals` says. -/
theorem dequesAndStealing : Obligations.DequesAndStealing := by
  unfold Obligations.DequesAndStealing
  refine ⟨own_deque, ?_⟩
  intro s d a id m v pair takes
  refine ⟨fun hv => ?_, fun hv hi => ?_, fun hv hi hr hl hg hc => ?_, fun hv hi hr hf => ?_, fun c hm hb hs hp hh => ?_⟩
  · exact congrArg Host.Outcome.next (if_pos hv)
  · refine congrArg Host.Outcome.next ((if_neg (Nat.not_le.mpr hv)).trans (if_pos ?_))
    rw [Nat.mod_eq_of_lt hv, hi]
    rfl
  · obtain ⟨mem, slots, cores, deque, slot⟩ := State.steals_of_setSlot (s := s) (u := s) (w := s.cur) (d := d) (c := v) rfl rfl rfl rfl rfl
    have serve := exec_dqsteal_near (d := d) hv hi hr hl hg hc
    rw [State.serveSteal, State.slot_of_slots (s.setDeque_frame _ _).2.1] at serve
    exact ⟨_, serve, State.steals mem slots cores deque slot⟩
  · refine ⟨_, ⟨s.nextId, s.cur, d, .steal v⟩, exec_dqsteal_far hv hi hr hf, rfl, rfl, rfl, rfl, ?_, ?_, ?_⟩
    · simp [State.setPark, State.me]
    · simp [State.setPark, State.me]
    · exact .of_eq (by simp [State.setPark, State.me]) (by simp [State.setPark, State.me]) (by simp [State.setPark, State.me])
        (by simp [State.setPark, State.me]) (by simp [State.setPark, State.me])
  · obtain ⟨mem, slots, cores, deque, slot⟩ := State.steals_of_setSlot (s := s) (u := s.drop id) (w := m.src) (d := m.rd) (c := c)
      rfl rfl rfl rfl rfl
    exact ⟨_, exec_dequeStealServed hm hb hs hp hh, State.steals mem slots cores deque slot⟩

end Sys2Proof.Machine
end

section
/-! PROOFS.  Numbers in written bytes, and posted records: what O22 and O49 share. -/

namespace Sys2Proof.Machine

/-! ### Numbers in written bytes (R6) -/

theorem leBytes_drop (n i x : Nat) : (leBytes n x).drop i = leBytes (n - i) (x / 256 ^ i) := by
  induction i generalizing n x with
  | zero => simp
  | succ i ih =>
    cases n with
    | zero => simp [leBytes]
    | succ n =>
      rw [leBytes, List.drop_succ_cons, ih, Nat.add_sub_add_right, Nat.div_div_eq_div_mul, ← Nat.pow_succ']

theorem leBytes_take (n j x : Nat) (h : j ≤ n) : (leBytes n x).take j = leBytes j x := by
  induction j generalizing n x with
  | zero => simp [leBytes]
  | succ j ih =>
    cases n with
    | zero => omega
    | succ n => rw [leBytes, List.take_succ_cons, ih n _ (by omega), leBytes]

/-- A number read inside a run of bytes just written. -/
theorem State.nat_setBytes (s : State) (k o n : Nat) (bs : List Byte) (h : o + n ≤ bs.length) :
    (s.setBytes k bs).nat (k + o) n = leNat ((bs.drop o).take n) := by
  have len : ((bs.drop o).take n).length = n := by simp; omega
  have bytes := State.bytes_of (s.setBytes k bs) (k + o) ((bs.drop o).take n) (fun j hj => by
    rw [len] at hj
    rw [State.byte_setBytes, if_pos (by omega), show k + o + j - k = o + j by omega]
    simp [List.getD_eq_getElem?_getD, hj])
  rw [len] at bytes
  rw [State.nat, bytes]

/-- Part of a number that was written among other bytes. -/
theorem State.nat_setBytes_mid (s : State) (k i j n x : Nat) (as bs : List Byte) (h : i + j ≤ n) :
    (s.setBytes k (as ++ leBytes n x ++ bs)).nat (k + (as.length + i)) j = x / 256 ^ i % 256 ^ j := by
  rw [State.nat_setBytes _ _ _ _ _ (by simp [leBytes_length]; omega), List.append_assoc, List.drop_append, List.drop_of_length_le (by omega),
    Nat.add_sub_cancel_left, List.nil_append, List.drop_append_of_le_length (by rw [leBytes_length]; omega), leBytes_drop,
    List.take_append_of_le_length (by rw [leBytes_length]; omega), leBytes_take _ _ _ (by omega), leNat_leBytes]

theorem State.nat_of_bytes {s t : State} {k n : Nat} (h : ∀ j, j < n → t.byte (k + j) = s.byte (k + j)) : t.nat k n = s.nat k n := by
  have bytes : t.bytes k n = s.bytes k n := by
    induction n generalizing k with
    | zero => rfl
    | succ n ih =>
      have first : t.byte k = s.byte k := h 0 (by omega)
      rw [State.bytes, State.bytes, first, ih fun j hj => ?_]
      rw [Nat.add_assoc, Nat.add_comm 1]
      exact h (j + 1) (by omega)
  rw [State.nat, State.nat, bytes]

theorem nat_lt (s : State) (k n : Nat) : s.nat k n < 256 ^ n := by
  have bound (l : List Byte) : leNat l < 256 ^ l.length := by
    induction l with
    | nil => simp [leNat]
    | cons b r ih => rw [leNat, List.length_cons, Nat.pow_succ']; have := b.isLt; omega
  have len : (s.bytes k n).length = n := by
    induction n generalizing k with
    | zero => rfl
    | succ n ih => rw [State.bytes, List.length_cons, ih]
  simpa only [State.nat, len] using bound (s.bytes k n)

theorem State.byte_of_mem {s t : State} (h : t.mem = s.mem) (j : Nat) : t.byte j = s.byte j := by rw [State.byte, State.byte, h]

/-- What a write leaves in memory depends on memory alone. -/
theorem State.setBytes_mem_of_eq {s t : State} (h : t.mem = s.mem) (k : Nat) (bs : List Byte) :
    (t.setBytes k bs).mem = (s.setBytes k bs).mem := by
  induction bs generalizing s t k with
  | nil => exact h
  | cons b r ih => exact ih (by simp [State.setByte, h]) (k + 1)

/-! ### Posted records and signals (R341, R354, R355) -/

@[simp] theorem State.clearWhole_frame (s : State) (k n : Nat) : (s.clearWhole k n).cur = s.cur ∧ (s.clearWhole k n).mem = s.mem ∧
    (s.clearWhole k n).stags = s.stags ∧ (s.clearWhole k n).slots = s.slots ∧ (s.clearWhole k n).cores = s.cores ∧
    (s.clearWhole k n).tiles = s.tiles ∧ (s.clearWhole k n).net = s.net ∧ (s.clearWhole k n).parts = s.parts ∧
    (s.clearWhole k n).launches = s.launches ∧ (s.clearWhole k n).sys = s.sys := by
  have fold (l : List Nat) (s : State) : let u := l.foldl (fun s c => s.setPoison c false) s
      u.cur = s.cur ∧ u.mem = s.mem ∧ u.stags = s.stags ∧ u.slots = s.slots ∧ u.cores = s.cores ∧ u.tiles = s.tiles ∧ u.net = s.net ∧
        u.parts = s.parts ∧ u.launches = s.launches ∧ u.sys = s.sys := by
    induction l generalizing s with
    | nil => simp
    | cons c r ih => simpa using ih (s.setPoison c false)
  unfold State.clearWhole
  split
  · simp
  · exact fold _ s

@[simp] theorem State.physWrite_frame (s : State) (k : Nat) (bs : List Byte) : (s.physWrite k bs).cur = s.cur ∧
    (s.physWrite k bs).mem = (s.setBytes k bs).mem ∧ (s.physWrite k bs).stags = s.stags ∧ (s.physWrite k bs).slots = s.slots ∧
    (s.physWrite k bs).cores = s.cores ∧ (s.physWrite k bs).tiles = s.tiles ∧ (s.physWrite k bs).net = s.net ∧
    (s.physWrite k bs).parts = s.parts ∧ (s.physWrite k bs).launches = s.launches ∧ (s.physWrite k bs).sys = s.sys := by
  simp [State.physWrite]

@[simp] theorem State.msix_frame (s : State) (v : Nat) : (s.msix v).cur = s.cur ∧ (s.msix v).mem = s.mem ∧ (s.msix v).stags = s.stags ∧
    (s.msix v).poison = s.poison ∧ (s.msix v).slots = s.slots ∧ (s.msix v).cores = s.cores ∧ (s.msix v).tiles = s.tiles ∧
    (s.msix v).net = s.net ∧ (s.msix v).parts = s.parts ∧ (s.msix v).launches = s.launches := by
  unfold State.msix
  split
  · simp
  · split <;> simp

@[simp] theorem State.signal_frame (s : State) (w : Word) (l : List Word) (n : Nat) : (s.signal w l n).cur = s.cur ∧
    (s.signal w l n).mem = s.mem ∧ (s.signal w l n).stags = s.stags ∧ (s.signal w l n).poison = s.poison ∧
    (s.signal w l n).slots = s.slots ∧ (s.signal w l n).cores = s.cores ∧ (s.signal w l n).tiles = s.tiles ∧
    (s.signal w l n).parts = s.parts ∧ (s.signal w l n).launches = s.launches := by
  unfold State.signal
  split <;> simp

@[simp] theorem State.updLaunch_frame (s : State) (l : Nat) (f : Launch → Launch) : (s.updLaunch l f).cur = s.cur ∧
    (s.updLaunch l f).mem = s.mem ∧ (s.updLaunch l f).stags = s.stags ∧ (s.updLaunch l f).poison = s.poison ∧
    (s.updLaunch l f).slots = s.slots ∧ (s.updLaunch l f).cores = s.cores ∧ (s.updLaunch l f).tiles = s.tiles ∧
    (s.updLaunch l f).net = s.net ∧ (s.updLaunch l f).parts = s.parts ∧ (s.updLaunch l f).sys = s.sys ∧
    (s.updLaunch l f).ranges = s.ranges ∧ (s.updLaunch l f).nextId = s.nextId :=
  ⟨rfl, rfl, rfl, rfl, rfl, rfl, rfl, rfl, rfl, rfl, rfl, rfl⟩

@[simp] theorem State.count_frame (s : State) (o n : Nat) : (s.count o n).cur = s.cur ∧
    (s.count o n).mem = s.mem ∧ (s.count o n).stags = s.stags ∧ (s.count o n).poison = s.poison ∧
    (s.count o n).slots = s.slots ∧ (s.count o n).cores = s.cores ∧ (s.count o n).tiles = s.tiles ∧
    (s.count o n).net = s.net ∧ (s.count o n).parts = s.parts ∧ (s.count o n).launches = s.launches :=
  ⟨rfl, rfl, rfl, rfl, rfl, rfl, rfl, rfl, rfl, rfl⟩

@[simp] theorem State.post_frame (s : State) (p l : Nat) (r : FaultRec) : (s.post p l r).cur = s.cur ∧ (s.post p l r).stags = s.stags ∧
    (s.post p l r).slots = s.slots ∧ (s.post p l r).cores = s.cores ∧ (s.post p l r).tiles = s.tiles := by
  unfold State.post
  dsimp only
  split
  · simp
  · split <;> simp

/-- The place of a partition's next record in device memory (R354). -/
def Partition.fqKey (q : Partition) : Nat := devKey (q.fqbase.toNat + 64 * (q.fqtail % q.fqsize))

/-- A record posted where the ring has room: its bytes at the ring's tail, and the tail moved on. -/
theorem State.post_of_room {s : State} {p l : Nat} {r : FaultRec} (h : (s.part p).fqtail - (s.part p).fqhead < (s.part p).fqsize) :
    (s.post p l r).mem = (s.setBytes (s.part p).fqKey (r.bytes (s.part p).fqtail s.sys.meridian)).mem ∧
      (s.post p l r).parts = (s.setPart p { s.part p with fqtail := (s.part p).fqtail + 1 }).parts := by
  unfold State.post
  generalize hu : s.updLaunch l _ = u
  have same : u.mem = s.mem ∧ u.parts = s.parts ∧ u.sys = s.sys := by rw [← hu]; exact ⟨rfl, rfl, rfl⟩
  obtain ⟨mem, parts, sys⟩ := same
  have part : u.part p = s.part p := by rw [State.part, State.part, parts]
  dsimp only
  rw [part, if_neg (Nat.not_le.mpr h), Partition.fqKey]
  split <;> simp [State.setBytes_mem_of_eq mem, State.setPart, parts, sys]

/-- A record that finds its ring full is dropped. -/
theorem State.post_of_full {s : State} {p l : Nat} {r : FaultRec} (h : (s.part p).fqsize ≤ (s.part p).fqtail - (s.part p).fqhead) :
    (s.post p l r).mem = s.mem := by
  unfold State.post
  generalize hu : s.updLaunch l _ = u
  have mem : u.mem = s.mem := by rw [← hu]; rfl
  have part : u.part p = s.part p := by rw [← hu]; rfl
  dsimp only
  rw [part, if_pos h]
  exact mem

/-- A record posted changes no byte of scratchpad. -/
theorem State.post_spad {s : State} {p l : Nat} {r : FaultRec} {j : Nat} (hj : j < 2 ^ 60) : (s.post p l r).byte j = s.byte j := by
  by_cases h : (s.part p).fqtail - (s.part p).fqhead < (s.part p).fqsize
  · refine (State.byte_of_mem (State.post_of_room h).1 j).trans (State.byte_setBytes_outside _ _ _ _ (.inl ?_))
    rw [Partition.fqKey, devKey]
    omega
  · exact State.byte_of_mem (State.post_of_full (Nat.not_lt.mp h)) j

/-- The third word of a record: its process, cause, agent, unit and slot (R355). -/
def FaultRec.kindWord (r : FaultRec) : Nat :=
  r.pid.toNat + r.cause.code % 2 ^ 8 * 2 ^ 16 + r.agent * 2 ^ 24 + r.id % 2 ^ 16 * 2 ^ 32 + r.slot % 8 * 2 ^ 48

theorem Cause.code_lt (c : Cause) : c.code < 256 := by cases c <;> decide

theorem FaultRec.kindWord_fields (r : FaultRec) (ha : r.agent < 256) : r.kindWord / 256 ^ 2 % 256 ^ 1 = r.cause.code ∧
    r.kindWord / 256 ^ 3 % 256 ^ 1 = r.agent ∧ r.kindWord / 256 ^ 4 % 256 ^ 2 = r.id % 2 ^ 16 ∧
    r.kindWord / 256 ^ 6 % 256 ^ 1 = r.slot % 8 := by
  have := r.pid.isLt
  have := r.cause.code_lt
  rw [FaultRec.kindWord]
  omega

theorem FaultRec.bytes_kind (r : FaultRec) (hc : r.code = none) (seq stamp : Nat) : r.bytes seq stamp =
    (leBytes 8 seq ++ leBytes 8 stamp) ++ leBytes 8 r.kindWord ++
      (leBytes 8 r.addr.toNat ++ leBytes 8 r.cursor.toNat ++ leBytes 8 r.detail.toNat ++ leBytes 16 0) := by
  simp only [FaultRec.bytes, hc, Option.getD_none, FaultRec.kindWord, List.append_assoc]

/-- The fields of a record's bytes (R355). -/
theorem FaultRec.fields (s : State) (k seq stamp : Nat) (r : FaultRec) (hc : r.code = none) (ha : r.agent < 256) :
    let t := s.setBytes k (r.bytes seq stamp)
    t.nat k 8 = seq % 2 ^ 64 ∧ t.nat (k + 8) 8 = stamp % 2 ^ 64 ∧ t.nat (k + 18) 1 = r.cause.code ∧ t.nat (k + 19) 1 = r.agent ∧
      t.nat (k + 20) 2 = r.id % 2 ^ 16 ∧ t.nat (k + 22) 1 = r.slot % 8 ∧ t.nat (k + 24) 8 = r.addr.toNat ∧
      t.nat (k + 32) 8 = r.cursor.toNat := by
  intro t
  have part {as bs : List Byte} {n x : Nat} (h : r.bytes seq stamp = as ++ leBytes n x ++ bs) (i j : Nat) (hj : i + j ≤ n) :
      t.nat (k + (as.length + i)) j = x / 256 ^ i % 256 ^ j := by
    simp only [t, h]
    exact State.nat_setBytes_mid s k i j n x as bs hj
  have kind := r.bytes_kind hc seq stamp
  obtain ⟨code, agent, id, slot⟩ := r.kindWord_fields ha
  refine ⟨?_, ?_, ?_, ?_, ?_, ?_, ?_, ?_⟩
  · simpa using part (as := []) (n := 8) (x := seq) rfl 0 8 (by decide)
  · simpa [leBytes_length] using part (as := leBytes 8 seq) (n := 8) (x := stamp) (by simp [FaultRec.bytes]; rfl) 0 8 (by decide)
  · exact (part kind 2 1 (by decide)).trans code
  · exact (part kind 3 1 (by decide)).trans agent
  · exact (part kind 4 2 (by decide)).trans id
  · exact (part kind 6 1 (by decide)).trans slot
  · have := r.addr.isLt
    refine (part (as := leBytes 8 seq ++ leBytes 8 stamp ++ leBytes 8 r.kindWord)
      (bs := leBytes 8 r.cursor.toNat ++ leBytes 8 r.detail.toNat ++ leBytes 16 0) (n := 8) (x := r.addr.toNat) ?_ 0 8 (by decide)).trans ?_
    · rw [r.bytes_kind hc]; simp only [List.append_assoc]
    · omega
  · have := r.cursor.isLt
    refine (part (as := leBytes 8 seq ++ leBytes 8 stamp ++ leBytes 8 r.kindWord ++ leBytes 8 r.addr.toNat)
      (bs := leBytes 8 r.detail.toNat ++ leBytes 16 0) (n := 8) (x := r.cursor.toNat) ?_ 0 8 (by decide)).trans ?_
    · rw [r.bytes_kind hc]; simp only [List.append_assoc]
    · omega

/-- A record posted where the ring has room stands at its tail (R354, R355). -/
theorem State.post_records (s : State) (p l : Nat) (r : FaultRec) (hc : r.code = none) (ha : r.agent < 256) :
    s.Records (s.post p l r) p r.cause.code r.agent r.id r.slot r.addr.toNat r.cursor.toNat := by
  intro room
  obtain ⟨mem, parts⟩ := State.post_of_room (l := l) (r := r) room
  have nat (j n : Nat) : (s.post p l r).nat j n = (s.setBytes (s.part p).fqKey (r.bytes (s.part p).fqtail s.sys.meridian)).nat j n := State.nat_of_mem mem j n
  refine ⟨?_, ?_⟩
  · rw [State.part, parts]
    simp [State.setPart]
  · simp only [nat]
    exact FaultRec.fields s (s.part p).fqKey (s.part p).fqtail s.sys.meridian r hc ha

/-- What a record says depends on the ring it goes to and on the clock. -/
theorem State.Records.of_eq {s t u : State} {p c a i l x y : Nat} (h : t.Records u p c a i l x y) (hp : t.parts = s.parts)
    (hs : t.sys = s.sys) : s.Records u p c a i l x y := by
  have part : t.part p = s.part p := by rw [State.part, State.part, hp]
  unfold State.Records at h
  rw [part, hs] at h
  exact h

/-- A record stays where it was posted while memory and the ring do. -/
theorem State.Records.later {s t u : State} {p c a i l x y : Nat} (h : s.Records t p c a i l x y) (hm : u.mem = t.mem)
    (hp : u.parts = t.parts) : s.Records u p c a i l x y := by
  have part : u.part p = t.part p := by rw [State.part, State.part, hp]
  unfold State.Records
  simp only [State.nat_of_mem hm, part]
  exact h

end Sys2Proof.Machine
end

section
/-! PROOFS.  O22: task counter records, TCINIT, TCDEC and decrements at the home (R18, R19, R240, R241). -/

namespace Sys2Proof.Machine

/-! ### Task counter records (R18, R19, R240) -/

theorem State.liveTouch_of_disjoint {s : State} {c o : Nat} (h : ∀ p ∈ (s.core c).objects, p.1 + 64 ≤ o ∨ o + 4 ≤ p.1) :
    s.liveTouch c o 4 = false := by
  rw [State.liveTouch, List.any_eq_false]
  intro p hp
  have := h p hp
  have apart : overlaps o (o + 4) p.1 (p.1 + 64) = false := by simp only [overlaps, decide_eq_false_iff_not]; omega
  simp [apart]

@[simp] theorem State.setCountWord_core (s : State) (c o w d : Nat) : (s.setCountWord c o w).core d = s.core d :=
  State.core_of_cores (by simp) d

/-- What the queueing of a task leaves: its count word marked and its place at the tail of the run list (R18, R19). -/
theorem State.placeTask_frame (s : State) (c o l : Nat) : (s.placeTask c o l).cur = s.cur ∧ (s.placeTask c o l).slots = s.slots ∧
    (s.placeTask c o l).tiles = s.tiles ∧ (s.placeTask c o l).net = s.net ∧ (s.placeTask c o l).parts = s.parts ∧
    (s.placeTask c o l).launches = s.launches ∧ (s.placeTask c o l).sys = s.sys := by
  unfold State.placeTask
  dsimp only
  split <;> simp

theorem State.placeTask_runList (s : State) (c o l : Nat) :
    ∃ j, ((s.placeTask c o l).core c).runList = (s.core c).runList ++ [.task o j] := by
  unfold State.placeTask
  dsimp only
  split <;> exact ⟨_, by simp only [State.core_setCore, if_true, State.setCountWord_core]; rfl⟩

theorem State.nat_placeTask {s : State} {c o : Nat} (l : Nat) (h : ∀ p ∈ (s.core c).objects, p.1 + 64 ≤ o ∨ o + 4 ≤ p.1) :
    (s.placeTask c o l).nat (spadKey c o) 4 = 2 ^ 31 + 0x1FFF0 := by
  unfold State.placeTask
  dsimp only
  have write : ∀ u : State, (u.core c).objects = (s.core c).objects → (u.setCountWord c o (2 ^ 31 + 0x1FFF0)).nat (spadKey c o) 4 = 2 ^ 31 + 0x1FFF0 :=
    fun u hu => State.nat_setCountWord (State.liveTouch_of_disjoint (by rw [hu]; exact h))
  split
  · exact write _ (by rw [State.setCountWord_core])
  · exact write s rfl

theorem homeOf_of_lt {r : Nat} (h : r < 2 ^ 36) : homeOf r = r / 2 ^ 20 := by rw [homeOf]; omega

/-- The checks of TCINIT and TCDEC passed (R240, R241). -/
theorem State.recordCause_none {s : State} {a v : Word} (ha : a.toNat % 16 = 0) (hr : a.toNat < 2 ^ 36) (ho : a.toNat % 2 ^ 20 < 0x1C000)
    (hi : s.inPart s.me.part (a.toNat / 2 ^ 20) = true) (hv : v.toNat < 2 ^ 31) : s.recordCause a v = none := by
  rw [State.recordCause, if_neg (by simpa using ha), if_neg, if_neg (Nat.not_le.mpr hv)]
  rw [homeOf_of_lt hr, hi, offOf, reservedBase]
  simp only [Bool.not_true, Bool.false_eq_true, or_false, not_or]
  omega

/-- TCINIT at the home of a record that is not queued (R240). -/
theorem State.taskInit_of_clear {s : State} {r : Nat} {v : Word} (l : Nat) (hq : s.nat (spadKey (homeOf r) (offOf r)) 4 < 2 ^ 31)
    (hl : s.liveTouch (homeOf r) (offOf r) 4 = false) : s.taskInit r v l = some
      (if v.toNat % 2 ^ 31 = 0 then (s.setCountWord (homeOf r) (offOf r) (v.toNat % 2 ^ 31)).placeTask (homeOf r) (offOf r) l
        else s.setCountWord (homeOf r) (offOf r) (v.toNat % 2 ^ 31)) := by
  have bit : nbit (s.countWord (homeOf r) (offOf r)) 31 = false := by
    rw [nbit, State.countWord, Nat.div_eq_of_lt hq]
    rfl
  rw [State.taskInit, bit, hl]
  rfl

/-- An access of an instruction on its own super-group's bank, whose core runs, is served at once (R53, R202). -/
theorem State.perform_of_bank {s t : State} {a : Access} {r : Reply} (hl : isLarge s.cur.core = false) (hs : a.stage = .bank)
    (hr : s.coreRuns (homeOf a.ea) = true) (hb : s.serveBank s.cur a = (t, r)) : s.perform a = t.finishAccess a r := by
  have cached : s.cachedAnswer a = none := if_pos (by simp [hl])
  rw [State.perform, cached]
  simp only [hs, hr, if_true, hb]

/-- The state that a TCINIT leaves at the home of a record: its count, or for a count of zero its task queued (R240). -/
def State.counterSet (s : State) (c o v l : Nat) : State :=
  if v = 0 then (s.setCountWord c o v).placeTask c o l else s.setCountWord c o v

/-- TCINIT whose record lies in its own super-group, is not queued and meets no range (R240). -/
theorem exec_tcinit_near {s : State} {a b : BitVec 5} (hc : s.recordCause (s.g a) (s.g b) = none) (hr : s.me.relaxed = [])
    (hlow : (s.g a).toNat < 2 ^ 39) (hl : isLarge s.cur.core = false) (hg : sgOf (homeOf (s.g a).toNat) = sgOf s.cur.core)
    (hrun : s.coreRuns (homeOf (s.g a).toNat) = true)
    (hq : s.nat (spadKey (homeOf (s.g a).toNat) (offOf (s.g a).toNat)) 4 < 2 ^ 31)
    (hd : s.liveTouch (homeOf (s.g a).toNat) (offOf (s.g a).toNat) 4 = false) (hk : s.rangeStops (s.g a).toNat 4 = false) :
    let t := s.counterSet (homeOf (s.g a).toNat) (offOf (s.g a).toNat) ((s.g b).toNat % 2 ^ 31) s.me.launch
    exec (.tcinit a b) s = .next (t.setMe t.me.next) := by
  intro t
  change Host.Outcome.next _ = _
  simp only [hc, State.waitRelaxed_of_nil hr]
  have stage : s.firstStage (s.g a) = .bank := by
    rw [State.firstStage, if_neg (Nat.not_le.mpr hlow), if_pos (by simp [nearBank, hl, hg])]
  refine congrArg Host.Outcome.next ((State.perform_of_bank (r := .data [] 0) hl stage hrun ?_).trans rfl)
  simp only [State.serveBank, State.mkAccess, State.taskInit_of_clear _ hq hd, hk]
  rfl

theorem State.me_of_eq {s t : State} (hs : t.slots = s.slots) (hc : t.cur = s.cur) : t.me = s.me := by
  rw [State.me, State.me, hc, State.slot_of_slots hs]

/-! ### Decrements at the home (R19, R241) -/

theorem State.decrement_zero (s : State) (slot r l : Nat) : s.decrement slot r 0 l = s := by
  simp [State.decrement]

/-- The count of a record that a decrement finds open: not queued, not zero, and in no object. -/
structure State.OpenCount (s : State) (r w : Nat) : Prop where
  count : s.nat (spadKey (homeOf r) (offOf r)) 4 = w
  pos : 0 < w
  free : w < 2 ^ 31
  clear : s.liveTouch (homeOf r) (offOf r) 4 = false

theorem State.OpenCount.taken {s : State} {r w : Nat} (h : s.OpenCount r w) : ¬ (nbit (s.countWord (homeOf r) (offOf r)) 31 = true ∨
    s.countWord (homeOf r) (offOf r) % 2 ^ 31 = 0 ∨ s.liveTouch (homeOf r) (offOf r) 4 = true) := by
  have := h.free
  have := h.pos
  rw [State.countWord, h.count, h.clear, nbit, Nat.div_eq_of_lt h.free, Nat.mod_eq_of_lt h.free]
  rintro (h | h | h)
  · exact absurd h (by decide)
  · omega
  · exact absurd h (by decide)

/-- A decrement below the count lowers it (R19). -/
theorem State.decrement_below {s : State} {slot r d l w : Nat} (h : s.OpenCount r w) (hd : 0 < d) (hw : d < w) :
    s.decrement slot r d l = s.setCountWord (homeOf r) (offOf r) (w - d) := by
  have e : s.countWord (homeOf r) (offOf r) = w := h.count
  rw [State.decrement, if_neg (by omega), if_neg h.taken, e, if_pos (by rwa [Nat.mod_eq_of_lt h.free])]

/-- A decrement that reaches zero queues the task (R19). -/
theorem State.decrement_reaches {s : State} {slot r l w : Nat} (h : s.OpenCount r w) :
    s.decrement slot r w l = s.placeTask (homeOf r) (offOf r) l := by
  have e : s.countWord (homeOf r) (offOf r) = w := h.count
  have := h.pos
  rw [State.decrement, if_neg (by omega), if_neg h.taken, e, Nat.mod_eq_of_lt h.free, if_neg (by omega)]
  exact if_neg (by omega)

/-- A decrement below zero queues the task and is recorded (R19). -/
theorem State.decrement_passes {s : State} {slot r d l w : Nat} (h : s.OpenCount r w) (hw : w < d) :
    s.decrement slot r d l = (s.placeTask (homeOf r) (offOf r) l).overDecrement slot r l := by
  have e : s.countWord (homeOf r) (offOf r) = w := h.count
  have := h.pos
  rw [State.decrement, if_neg (by omega), if_neg h.taken, e, Nat.mod_eq_of_lt h.free, if_neg (by omega)]
  exact if_pos hw

/-- A decrement of a queued record or of a count of zero is recorded, and changes nothing else (R19). -/
theorem State.decrement_refused {s : State} {slot r d l : Nat} (hd : 0 < d)
    (h : 2 ^ 31 ≤ s.nat (spadKey (homeOf r) (offOf r)) 4 ∨ s.nat (spadKey (homeOf r) (offOf r)) 4 = 0) :
    s.decrement slot r d l = s.overDecrement slot r l := by
  have word := nat_lt s (spadKey (homeOf r) (offOf r)) 4
  rw [State.decrement, if_neg (by omega)]
  refine if_pos ?_
  rw [State.countWord]
  rcases h with h | h
  · refine .inl ?_
    rw [nbit, show s.nat (spadKey (homeOf r) (offOf r)) 4 / 2 ^ 31 = 1 by omega]
    rfl
  · exact .inr (.inl (by rw [h]; rfl))

/-- An over-decrement posts its record at the partition of the home, and leaves the slots, the cores and scratchpad. -/
theorem State.overDecrement_frame {s : State} {slot r l p : Nat} (hp : s.partOf (homeOf r) = some p) (hr : r < 2 ^ 64) :
    s.Records (s.overDecrement slot r l) p 16 4 (homeOf r) slot r 0 ∧ (s.overDecrement slot r l).slots = s.slots ∧
      (s.overDecrement slot r l).cores = s.cores ∧ ∀ j, j < 2 ^ 60 → (s.overDecrement slot r l).byte j = s.byte j := by
  have record := s.post_records p (s.homeLaunch (homeOf r) l)
    { cause := .sync, agent := 4, id := homeOf r, slot := slot, addr := dbl r, cursor := 0, detail := 0
      pid := ((s.launch? (s.homeLaunch (homeOf r) l)).map (fun x => x.pid)).getD 0 } rfl (show 4 < 256 by decide)
  have addr : (dbl r).toNat = r := by rw [dbl, BitVec.toNat_ofNat]; omega
  simp only [State.overDecrement, hp]
  refine ⟨?_, by simp, by simp, fun j hj => State.post_spad hj⟩
  rw [addr] at record
  exact record

/-- What the count and the acknowledgement of a decrement leave as they were. -/
theorem State.counted_frame (t : State) (id c l : Nat) (b : Body) : let u := (t.countReceived c l).rebody id b
    u.mem = t.mem ∧ u.stags = t.stags ∧ u.poison = t.poison ∧ u.parts = t.parts ∧ u.slots = t.slots ∧
      (u.core c).runList = (t.core c).runList ∧ (u.core c).receivedFor l = (t.core c).receivedFor l + 1 := by
  refine ⟨by simp, by simp, by simp, by simp, by simp, ?_, ?_⟩
  · rw [(State.rebody_units _ _ _).1, State.countReceived_core, if_pos rfl]
  · rw [(State.rebody_units _ _ _).1, State.receivedFor_countReceived]

/-- A counted decrement at the home that its core acts on, and that no earlier message holds up. -/
theorem exec_tcdecArrival {s : State} {id r d l : Nat} {m : Msg} (hm : s.msg? id = some m) (hb : m.body = .decrement r d l true)
    (ha : s.mayAct (homeOf r) id = true) (ho : s.inOrder m = true) : exec (.tcdecArrival id) s =
      .next (((s.decrement m.src.slot r d l).countReceived (homeOf r) l).rebody id (.ack r none false)) := by
  change Host.Outcome.next _ = _
  simp only [hm, hb, ha, ho, Bool.not_true, Bool.or_self, Bool.false_eq_true, if_false, if_true]

/-- What a TCINIT served at its home leaves (R240). -/
theorem State.tcinit_leaves {s u : State} {i : Instr} {c o v : Nat} (hu : u = s.counterSet c o v s.me.launch)
    (he : exec i s = .next (u.setMe u.me.next)) (apart : ∀ p ∈ (s.core c).objects, p.1 + 64 ≤ o ∨ o + 4 ≤ p.1) (hv : v < 2 ^ 31) :
    let key := spadKey c o
    ∃ t, exec i s = .next t ∧ t.me.pc = s.me.pc + 4 ∧ t.me.park = .ready ∧ s.me.SameRegs t.me ∧ s.OtherSlots t s.cur ∧
      (v ≠ 0 → t.nat key 4 = v ∧ (∀ j, j < key ∨ key + 4 ≤ j → t.byte j = s.byte j) ∧ s.SameCores t) ∧
      (v = 0 → t.nat key 4 = 2 ^ 31 + 0x1FFF0 ∧ ∃ l, (t.core c).runList = (s.core c).runList ++ [.task o l]) := by
  intro key
  have frame : u.cur = s.cur ∧ u.slots = s.slots := by
    rw [hu, State.counterSet]
    split <;> simp [State.placeTask_frame]
  obtain ⟨cur, slots⟩ := frame
  have me := State.me_of_eq slots cur
  have mem : (u.setMe u.me.next).mem = u.mem := rfl
  have set : v ≠ 0 → u = s.setCountWord c o v := fun h => hu.trans (if_neg h)
  have placed : v = 0 → u = (s.setCountWord c o v).placeTask c o s.me.launch := fun h => hu.trans (if_pos h)
  refine ⟨_, he, by simp [me], by simp [me], by simpa [me] using s.me.sameRegs_next, fun w hw => ?_, fun h => ⟨?_, fun j hj => ?_, .of_eq ?_⟩,
    fun h => ⟨?_, ?_⟩⟩
  · simpa [cur, hw] using State.slot_of_slots slots w
  · rw [State.nat_of_mem mem, set h, State.nat_setCountWord (State.liveTouch_of_disjoint apart)]
    omega
  · rw [State.byte_of_mem mem, set h]
    exact State.byte_setCountWord hj
  · rw [State.setMe_frame _ _ |>.2.2.1, set h]
    simp
  · rw [State.nat_of_mem mem, placed h]
    exact State.nat_placeTask _ (by rwa [State.setCountWord_core])
  · rw [State.core_of_cores (State.setMe_frame u u.me.next).2.2.1, placed h]
    simpa using (s.setCountWord c o v).placeTask_runList c o s.me.launch

/-- What a TCDEC past its checks and with room for its acknowledgement leaves (R214, R241). -/
theorem State.tcdec_leaves {s : State} {a b : BitVec 5} (hc : s.recordCause (s.g a) (s.g b) = none)
    (room : (s.me.unacked.filter (fun u => u.fault.isNone)).length < 64) : let r := (s.g a).toNat
    ∃ t q, exec (.tcdec a b) s = .next t ∧ t.net = s.net ++ [q] ∧ q.body = .decrement r (s.g b).toNat s.me.launch true ∧
      t.me.pc = s.me.pc + 4 ∧ s.me.SameRegs t.me ∧
      t.me.unacked = s.me.unacked ++ [{ id := q.id, addr := r, fault := none, arrive := false }] ∧
      (t.core s.cur.core).sentFor s.me.launch = (s.core s.cur.core).sentFor s.me.launch + 1 ∧ s.SameMemory t ∧ s.OtherSlots t s.cur := by
  intro r
  have run : exec (.tcdec a b) s = .next (((s.sendAcked r (.decrement r (s.g b).toNat s.me.launch true) false).countSent s.cur.core
      s.me.launch).advance) := by
    change Host.Outcome.next _ = _
    simp only [hc]
    exact congrArg _ (if_neg (Nat.not_le.mpr room))
  refine ⟨_, ⟨s.nextId, s.cur, 0, _⟩, run, rfl, rfl, ?_, ?_, ?_, ?_, .of_eq rfl rfl rfl, fun w hw => ?_⟩
  · simp [State.advance, State.sendAcked]
  · exact .of_eq (by simp [State.advance, State.sendAcked]) (by simp [State.advance, State.sendAcked])
      (by simp [State.advance, State.sendAcked]) (by simp [State.advance, State.sendAcked]) (by simp [State.advance, State.sendAcked])
  · simp [State.advance, State.sendAcked]
  · exact State.sentFor_countSent _ _ _
  · simp [State.advance, State.sendAcked, hw]

theorem State.partOf_of_parts {s t : State} (h : t.parts = s.parts) (c : Nat) : t.partOf c = s.partOf c := by
  have part : t.part = s.part := funext fun p => by rw [State.part, State.part, h]
  simp only [State.partOf, State.inPart, part]

/-- The first part of O22: TCINIT, TCDEC, and decrements at the home. -/
theorem task_counters (s : State) (a b : BitVec 5) (id d launch : Nat) (m : Msg) :
    let r := (s.g a).toNat
    let v := (s.g b).toNat
    let o := r % 2 ^ 20
    let c := r / 2 ^ 20
    let key := spadKey c o
    r % 16 = 0 → r < 2 ^ 36 → o < 0x1C000 → s.inPart s.me.part c = true → v < 2 ^ 31 →
    (∀ p ∈ (s.core c).objects, p.1 + 64 ≤ o ∨ o + 4 ≤ p.1) →
    (s.me.relaxed = [] → isLarge s.cur.core = false → sgOf c = sgOf s.cur.core → s.coreRuns c = true → s.nat key 4 < 2 ^ 31 →
      blocksStore (s.spadMeets key (key + 4)) = false →
      ∃ t, exec (.tcinit a b) s = .next t ∧ t.me.pc = s.me.pc + 4 ∧ t.me.park = .ready ∧ s.me.SameRegs t.me ∧ s.OtherSlots t s.cur ∧
        (v ≠ 0 → t.nat key 4 = v ∧ (∀ j, j < key ∨ key + 4 ≤ j → t.byte j = s.byte j) ∧ s.SameCores t) ∧
        (v = 0 → t.nat key 4 = 2 ^ 31 + 0x1FFF0 ∧ ∃ l, (t.core c).runList = (s.core c).runList ++ [.task o l])) ∧
    ((s.me.unacked.filter (fun u => u.fault.isNone)).length < 64 →
      ∃ t q, exec (.tcdec a b) s = .next t ∧ t.net = s.net ++ [q] ∧ q.body = .decrement r v s.me.launch true ∧ t.me.pc = s.me.pc + 4 ∧
        s.me.SameRegs t.me ∧ t.me.unacked = s.me.unacked ++ [{ id := q.id, addr := r, fault := none, arrive := false }] ∧
        (t.core s.cur.core).sentFor s.me.launch = (s.core s.cur.core).sentFor s.me.launch + 1 ∧ s.SameMemory t ∧ s.OtherSlots t s.cur) ∧
    (s.msg? id = some m → m.body = .decrement r d launch true → s.mayAct c id = true → s.inOrder m = true →
      (s.nat key 4 < 2 ^ 31 → 0 < d → d < s.nat key 4 → ∃ t, exec (.tcdecArrival id) s = .next t ∧ t.nat key 4 = s.nat key 4 - d ∧
        (∀ j, j < key ∨ key + 4 ≤ j → t.byte j = s.byte j) ∧ s.SameSlots t ∧
        (t.core c).receivedFor launch = (s.core c).receivedFor launch + 1 ∧ t.msg? id = some { m with body := .ack r none false }) ∧
      (s.nat key 4 < 2 ^ 31 → 0 < d → d = s.nat key 4 → ∃ t, exec (.tcdecArrival id) s = .next t ∧ t.nat key 4 = 2 ^ 31 + 0x1FFF0 ∧
        (∃ l, (t.core c).runList = (s.core c).runList ++ [.task o l]) ∧ s.SameSlots t) ∧
      (∀ p, s.partOf c = some p → 0 < d → (2 ^ 31 ≤ s.nat key 4 ∨ s.nat key 4 = 0) → ∃ t, exec (.tcdecArrival id) s = .next t ∧
        t.nat key 4 = s.nat key 4 ∧ (t.core c).runList = (s.core c).runList ∧ s.Records t p 16 4 c m.src.slot r 0 ∧ s.SameSlots t) ∧
      (∀ p, s.partOf c = some p → 0 < s.nat key 4 → s.nat key 4 < d → s.nat key 4 < 2 ^ 31 → ∃ t, exec (.tcdecArrival id) s = .next t ∧
        t.nat key 4 = 2 ^ 31 + 0x1FFF0 ∧ (∃ l, (t.core c).runList = (s.core c).runList ++ [.task o l]) ∧
        s.Records t p 16 4 c m.src.slot r 0 ∧ s.SameSlots t) ∧
      (d = 0 → ∃ t, exec (.tcdecArrival id) s = .next t ∧ s.SameMemory t ∧ s.SameSlots t ∧ (t.core c).runList = (s.core c).runList ∧
        (t.core c).receivedFor launch = (s.core c).receivedFor launch + 1)) := by
  intro r v o c key aligned low user mine small apart
  have home : homeOf (s.g a).toNat = c := homeOf_of_lt low
  have off : offOf (s.g a).toNat = o := rfl
  have clear : s.liveTouch c o 4 = false := State.liveTouch_of_disjoint apart
  have cause : s.recordCause (s.g a) (s.g b) = none := State.recordCause_none aligned low user mine small
  have spad : key + 4 ≤ 2 ^ 60 := by simp only [key, spadKey, c, o]; omega
  refine ⟨fun hr hl hg hrun hq hk => ?_, fun room => ?_, fun hm hb ha ho => ?_⟩
  · have run := exec_tcinit_near cause hr (by omega) hl (by rwa [home]) (by rwa [home]) (by rwa [home]) (by rwa [home])
      (by rw [State.rangeStops, rawKey, home]; exact hk)
    rw [home, off, show (s.g b).toNat % 2 ^ 31 = v from Nat.mod_eq_of_lt small] at run
    exact State.tcinit_leaves rfl run apart small
  · exact State.tcdec_leaves cause room
  · have run := exec_tcdecArrival hm hb (by rwa [home]) ho
    rw [home] at run
    have counted := fun t => State.counted_frame t id c launch (.ack (s.g a).toNat none false)
    have keyLow : ∀ j, j < 4 → key + j < 2 ^ 60 := fun j hj => by omega
    have opened : 0 < s.nat key 4 → s.nat key 4 < 2 ^ 31 → s.OpenCount (s.g a).toNat (s.nat key 4) := fun h0 h1 =>
      ⟨by rw [home, off], h0, h1, by rw [home, off]; exact clear⟩
    refine ⟨fun hw h0 hlt => ?_, fun hw h0 he => ?_, fun p hp h0 hw => ?_, fun p hp h0 hlt hw => ?_, fun h0 => ?_⟩
    · have below := State.decrement_below (slot := m.src.slot) (l := launch) (opened (by omega) hw) h0 hlt
      rw [home, off] at below
      rw [below] at run
      obtain ⟨mem, -, -, -, slots, -, received⟩ := counted (s.setCountWord c o (s.nat key 4 - d))
      refine ⟨_, run, ?_, fun j hj => ?_, .of_eq (slots.trans (by simp)), ?_, State.msg?_rebody _ ?_⟩
      · rw [State.nat_of_mem mem, State.nat_setCountWord clear]
        omega
      · rw [State.byte_of_mem mem, State.byte_setCountWord hj]
      · rw [received, State.setCountWord_core]
      · exact (State.msg?_of_net (by simp) id).trans hm
    · have reaches := State.decrement_reaches (slot := m.src.slot) (l := launch) (opened (by omega) hw)
      rw [← he, home, off] at reaches
      rw [reaches] at run
      obtain ⟨mem, -, -, -, slots, runList, -⟩ := counted (s.placeTask c o launch)
      refine ⟨_, run, ?_, ?_, .of_eq (slots.trans (State.placeTask_frame _ _ _ _).2.1)⟩
      · rw [State.nat_of_mem mem, State.nat_placeTask _ apart]
      · rw [runList]
        exact s.placeTask_runList c o launch
    · rw [State.decrement_refused h0 (by rw [home, off]; exact hw)] at run
      obtain ⟨record, slots', cores, bytes⟩ := State.overDecrement_frame (slot := m.src.slot) (l := launch) (home.symm ▸ hp) (s.g a).isLt
      rw [home] at record
      obtain ⟨mem, -, -, parts, slots, runList, -⟩ := counted (s.overDecrement m.src.slot (s.g a).toNat launch)
      refine ⟨_, run, ?_, ?_, record.later mem parts, .of_eq (slots.trans slots')⟩
      · rw [State.nat_of_mem mem]
        exact State.nat_of_bytes fun j hj => bytes _ (keyLow j hj)
      · rw [runList, State.core_of_cores cores]
    · have passes := State.decrement_passes (slot := m.src.slot) (l := launch) (opened h0 hw) hlt
      rw [home, off] at passes
      rw [passes] at run
      obtain ⟨-, placed, -, -, parts', -, sys⟩ := s.placeTask_frame c o launch
      have part : (s.placeTask c o launch).partOf (homeOf (s.g a).toNat) = some p := by
        rw [home, State.partOf_of_parts parts']
        exact hp
      obtain ⟨record, slots', cores, bytes⟩ := State.overDecrement_frame (slot := m.src.slot) (l := launch) part (s.g a).isLt
      rw [home] at record
      obtain ⟨mem, -, -, parts, slots, runList, -⟩ := counted ((s.placeTask c o launch).overDecrement m.src.slot (s.g a).toNat launch)
      refine ⟨_, run, ?_, ?_, (record.of_eq parts' sys).later mem parts, .of_eq ((slots.trans slots').trans placed)⟩
      · rw [State.nat_of_mem mem, State.nat_of_bytes fun j hj => bytes _ (keyLow j hj), State.nat_placeTask _ apart]
      · rw [runList, State.core_of_cores cores]
        exact s.placeTask_runList c o launch
    · rw [h0, State.decrement_zero] at run
      obtain ⟨mem, stags, poison, -, slots, runList, received⟩ := counted s
      exact ⟨_, run, .of_eq mem stags poison, .of_eq slots, runList, received⟩

end Sys2Proof.Machine
end

section
/-! PROOFS.  O22: YIELD, the end of a thread, QUIESCE and its sweeps (R32, R242-R244, R250, R289). -/

namespace Sys2Proof.Machine

/-! ### YIELD (R242) -/

/-- A slot that is not ready until the next frame, past its instruction. -/
def Slot.resting (x : Slot) (ticket : Nat) : Slot := { x.next with park := .wait .frame ticket }

theorem State.frameWait_eq (s : State) : s.frameWait = (s.setMe s.me.next).setMe (s.me.resting s.ticket) := by
  change (s.setMe s.me.next).setMe { (s.setMe s.me.next).me with park := .wait .frame s.ticket } = _
  rw [State.setMe_me]
  rfl

/-- A YIELD with nothing in flight, no lock held and no work waiting (R242). -/
theorem exec_yield_idle {s : State} {b : BitVec 5} (few : popCount (s.carryMask b) ≤ 10) (hr : s.me.relaxed = [])
    (hu : s.me.unacked = []) (hl : s.me.locks = []) (ha : (s.core s.cur.core).arrival = []) (hq : (s.core s.cur.core).runList = []) :
    exec (.yield b) s = .next s.departed.frameWait := by
  refine congrArg Host.Outcome.next ((State.withMask_of_few few).trans ((if_neg (not_not_intro hl)).trans ((State.waitBoth_of_nil hr hu).trans ?_)))
  have none : (s.departed.core s.departed.cur.core).arrival = [] ∧ (s.departed.core s.departed.cur.core).runList = [] := by
    simp [ha, hq]
  exact if_pos none

/-! ### The end of a thread (R243, R250, R289) -/

/-- The state of a thread that ends, before its slot is freed: its owner role, its action, its engine claim and its place in
the gang are given up. -/
def State.endLeft (s : State) (w : Who) : State := (((s.departOwner w).abandon w).unclaim w).leaveGang w

@[simp] theorem State.abandon_frame (s : State) (w : Who) : (s.abandon w).cur = s.cur ∧ (s.abandon w).mem = s.mem ∧
    (s.abandon w).stags = s.stags ∧ (s.abandon w).poison = s.poison ∧ (s.abandon w).slots = s.slots ∧ (s.abandon w).cores = s.cores ∧
    (s.abandon w).tiles = s.tiles ∧ (s.abandon w).parts = s.parts ∧ (s.abandon w).launches = s.launches ∧ (s.abandon w).sys = s.sys := by
  unfold State.abandon
  split <;> simp

@[simp] theorem State.endLeft_frame (s : State) (w : Who) : (s.endLeft w).cur = s.cur ∧ (s.endLeft w).mem = s.mem ∧
    (s.endLeft w).stags = s.stags ∧ (s.endLeft w).poison = s.poison ∧ (s.endLeft w).slots = (s.departOwner w).slots ∧
    (s.endLeft w).cores = s.cores ∧ (s.endLeft w).parts = s.parts ∧ (s.endLeft w).launches = s.launches ∧
    (s.endLeft w).sys = s.sys ∧ (s.endLeft w).net = ((s.departOwner w).abandon w).net := by
  simp [State.endLeft]

theorem State.endLeft_slot (s : State) (w v : Who) :
    (s.endLeft w).slot v = if slotKey v = slotKey w then (s.slot w).departed else s.slot v := by
  rw [State.slot_of_slots (s.endLeft_frame w).2.2.2.2.1, State.departOwner_slot]

/-- Only the tile of a thread that ends may change. -/
theorem State.handClaim_otherTiles (s : State) (k : Nat) : s.OtherTiles (s.handClaim k) k := by
  intro j hj
  unfold State.handClaim
  dsimp only
  split
  · rfl
  · split
    · simp [hj]
    · rfl

theorem State.unclaim_otherTiles (s : State) (w : Who) : s.OtherTiles (s.unclaim w) (tileOf w.core) := by
  intro j hj
  unfold State.unclaim State.dropClaim
  split
  · rfl
  · split
    · rw [State.handClaim_otherTiles _ _ j hj]
      simp [hj]
    · rfl

theorem State.endLeft_otherTiles (s : State) (w : Who) : s.OtherTiles (s.endLeft w) (tileOf w.core) := by
  intro j hj
  rw [State.endLeft, State.leaveGang_otherTiles _ _ j hj, State.unclaim_otherTiles _ _ j hj]
  exact State.tile_of_tiles (by simp) j

/-- The engine's claim leaves the gang's slots as they are. -/
theorem State.handClaim_gang (s : State) (k j : Nat) : ((s.handClaim k).tile j).mslots = (s.tile j).mslots ∧
    ((s.handClaim k).tile j).leaving = (s.tile j).leaving := by
  unfold State.handClaim
  dsimp only
  split
  · simp
  · split
    · by_cases e : j = k <;> simp [e]
    · simp

theorem State.unclaim_gang (s : State) (w : Who) (j : Nat) : ((s.unclaim w).tile j).mslots = (s.tile j).mslots ∧
    ((s.unclaim w).tile j).leaving = (s.tile j).leaving := by
  unfold State.unclaim State.dropClaim
  split
  · simp
  · split
    · rw [(State.handClaim_gang _ _ _).1, (State.handClaim_gang _ _ _).2]
      by_cases e : j = tileOf w.core <;> simp [e]
    · simp

theorem State.leaveGang_engine (s : State) (w : Who) (j : Nat) : ((s.leaveGang w).tile j).engine = (s.tile j).engine := by
  by_cases h : s.isMatrixSlot w
  · by_cases e : j = tileOf w.core <;> simp [State.leaveGang_of_matrix h, e]
  · rw [State.leaveGang_of_not_matrix h]

/-- A matrix slot whose thread ends leaves its gang (R289). -/
theorem State.endLeft_leaving {s : State} {w : Who} (h : s.isMatrixSlot w) :
    ((s.endLeft w).tile (tileOf w.core)).leaving = (s.tile (tileOf w.core)).leaving ++ [w.core % 16] := by
  have tiles : ((s.departOwner w).abandon w).tiles = s.tiles := by simp
  obtain ⟨mslots, leaving⟩ := ((s.departOwner w).abandon w).unclaim_gang w (tileOf w.core)
  rw [State.tile_of_tiles tiles] at mslots leaving
  rw [State.endLeft, State.leaveGang_leaving, leaving]
  exact ⟨h.1, by rw [Tile.mslot, mslots]; exact h.2⟩

/-! ### The engine claim (R250) -/

theorem mem_of_mapGet_ne {α : Type} {m : SMap α} {d : α} {k : Nat} (h : mapGet m d k ≠ d) : (k, mapGet m d k) ∈ m := by
  induction m with
  | nil => exact absurd rfl h
  | cons p r ih =>
    obtain ⟨j, v⟩ := p
    by_cases e : j = k
    · subst e
      simp [mapGet]
    · simp only [mapGet, if_neg e] at h ⊢
      exact List.mem_cons_of_mem _ (ih h)

/-- The waiting slot that came first, of a list of waiting slots: there is one where there is any. -/
theorem foldl_first_none {l : List (Nat × Nat)}
    (h : l.foldl (fun r q => match r with | some x => if x.1 ≤ q.1 then some x else some q | none => some q) none = none) : l = [] := by
  have some_stays (l : List (Nat × Nat)) (x : Nat × Nat) : l.foldl (fun r q => match r with
      | some x => if x.1 ≤ q.1 then some x else some q
      | none => some q) (some x) ≠ none := by
    induction l generalizing x with
    | nil => simp
    | cons q r ih =>
      simp only [List.foldl_cons]
      split
      · exact ih x
      · exact ih q
  cases l with
  | nil => rfl
  | cons q r => exact absurd h (some_stays r q)

/-- Slots that differ only in what is not a park of a thread wait for the claim alike. -/
theorem State.claimWaiter_none {s t : State} {k : Nat} (h : s.claimWaiter k = none)
    (ht : ∀ p ∈ t.slots, ∃ q ∈ s.slots, q.1 = p.1 ∧ q.2.park = p.2.park ∧ q.2.occ = p.2.occ) : t.claimWaiter k = none := by
  simp only [State.claimWaiter, Option.map_eq_none_iff] at h ⊢
  have none := foldl_first_none h
  rw [List.filterMap_eq_nil_iff] at none
  rw [List.filterMap_eq_nil_iff.mpr]
  · rfl
  · intro p hp
    obtain ⟨q, hq, key, park, occ⟩ := ht p hp
    have := none q hq
    simp only [key, park, occ] at this
    exact this

theorem State.departOwner_listed (s : State) (w : Who) :
    ∀ p ∈ (s.departOwner w).slots, ∃ q ∈ s.slots, q.1 = p.1 ∧ q.2.park = p.2.park ∧ q.2.occ = p.2.occ := by
  intro p hp
  unfold State.departOwner at hp
  split at hp
  · rename_i d hd
    have listed : (slotKey w, s.slot w) ∈ s.slots := mem_of_mapGet_ne (d := Slot.reset) fun e => by
      rw [State.slot, e] at hd
      exact absurd hd (by simp [Slot.reset])
    rcases mem_mapInsert _ _ _ _ hp with rfl | hp
    · exact ⟨_, listed, rfl, rfl, rfl⟩
    · exact ⟨p, mapErase_subset _ _ _ hp, rfl, rfl, rfl⟩
  · exact ⟨p, hp, rfl, rfl, rfl⟩

/-- No slot takes a claim that none waits for (R250). -/
theorem State.handClaim_free {s : State} {k : Nat} (hw : s.claimWaiter k = none) :
    s.handClaim k = s := by
  unfold State.handClaim
  dsimp only
  split
  · rfl
  · rw [hw]

theorem State.claimWaiter_of_slots {s t : State} (h : t.slots = s.slots) (k : Nat) : t.claimWaiter k = s.claimWaiter k := by
  rw [State.claimWaiter, State.claimWaiter, h]

/-- A thread that ends gives its engine claim up (R250). -/
theorem State.endLeft_claim {s : State} {w : Who} (hl : isLarge w.core = false) (hc : (s.tile (tileOf w.core)).engine.claim = some w)
    (hw : s.claimWaiter (tileOf w.core) = none) : ((s.endLeft w).tile (tileOf w.core)).engine.claim = none := by
  set u := (s.departOwner w).abandon w with hu
  have tile : u.tile (tileOf w.core) = s.tile (tileOf w.core) := State.tile_of_tiles (by simp [hu]) _
  have waiter : u.claimWaiter (tileOf w.core) = none :=
    (State.claimWaiter_of_slots (by simp [hu]) _).trans (State.claimWaiter_none hw (s.departOwner_listed w))
  rw [State.endLeft, State.leaveGang_engine, ← hu, State.unclaim, if_neg (by simp [hl]), if_pos (by rw [tile, hc]), State.dropClaim]
  rw [State.handClaim_free]
  · simp
  · exact (State.claimWaiter_of_slots (s := u) rfl _).trans waiter

/-- The count of a spawned context's spawner lowered (R243). -/
def State.spawnerLowered (s : State) (k : ThreadKind) : State :=
  match k with
  | .spawned p => s.setCore p { s.core p with spawned := (s.core p).spawned - 1 }
  | _ => s

theorem State.endThread_eq (s : State) (w : Who) :
    s.endThread w = ((s.endLeft w).spawnerLowered ((s.endLeft w).slot w).kind).freeSlot w := rfl

/-- A spawned context lowers its spawner's count. -/
theorem State.endThread_spawned {s : State} {w : Who} {p : Nat} (h : (s.slot w).kind = .spawned p) :
    s.endThread w = ((s.endLeft w).setCore p { s.core p with spawned := (s.core p).spawned - 1 }).freeSlot w := by
  have kind : ((s.endLeft w).slot w).kind = .spawned p := by rw [State.endLeft_slot, if_pos rfl]; simp [h]
  have core : (s.endLeft w).core p = s.core p := State.core_of_cores (by simp) p
  rw [State.endThread_eq, kind, State.spawnerLowered]
  simp only [core]

theorem State.endThread_other {s : State} {w : Who} (h : ∀ p, (s.slot w).kind ≠ .spawned p) : s.endThread w = (s.endLeft w).freeSlot w := by
  have kind : ((s.endLeft w).slot w).kind = (s.slot w).kind := by rw [State.endLeft_slot, if_pos rfl]; simp
  rw [State.endThread_eq, kind]
  unfold State.spawnerLowered
  split
  · exact absurd ‹_› (h _)
  · rfl

/-- What the end of a thread changes beside its core's count: its own slot and tile, and the messages of its leave. -/
theorem State.endThread_frame (s : State) (w : Who) : (s.endThread w).cur = s.cur ∧ (s.endThread w).mem = s.mem ∧
    (s.endThread w).stags = s.stags ∧ (s.endThread w).poison = s.poison ∧ (s.endThread w).tiles = (s.endLeft w).tiles ∧
    (s.endThread w).net = ((s.departOwner w).abandon w).net ∧ (s.endThread w).slot w = (s.slot w).departed.freed ∧
    s.OtherSlots (s.endThread w) w := by
  by_cases h : ∃ p, (s.slot w).kind = .spawned p
  · obtain ⟨p, hp⟩ := h
    rw [State.endThread_spawned hp]
    refine ⟨by simp, by simp, by simp, by simp, by simp, by simp, ?_, fun v hv => ?_⟩
    · rw [State.freeSlot_slot, if_pos rfl, State.slot_setCore, State.endLeft_slot, if_pos rfl]
    · rw [State.freeSlot_slot, if_neg hv, State.slot_setCore, State.endLeft_slot, if_neg hv]
  · rw [State.endThread_other fun p hp => h ⟨p, hp⟩]
    refine ⟨by simp, by simp, by simp, by simp, by simp, by simp, ?_, fun v hv => ?_⟩
    · rw [State.freeSlot_slot, if_pos rfl, State.endLeft_slot, if_pos rfl]
    · rw [State.freeSlot_slot, if_neg hv, State.endLeft_slot, if_neg hv]

theorem State.endThread_core (s : State) (w : Who) (c : Nat) : (s.endThread w).core c =
    if (s.slot w).kind = .spawned c then { s.core c with spawned := (s.core c).spawned - 1 } else s.core c := by
  by_cases h : ∃ p, (s.slot w).kind = .spawned p
  · obtain ⟨p, hp⟩ := h
    rw [State.endThread_spawned hp, State.core_of_cores (State.freeSlot_frame _ _).2.2.2.2.2.1, State.core_setCore, hp]
    by_cases e : c = p
    · subst e
      rw [if_pos rfl, if_pos rfl]
    · rw [if_neg e, if_neg (by simpa using Ne.symm e), State.core_of_cores (State.endLeft_frame s w).2.2.2.2.2.1]
  · rw [State.endThread_other fun p hp => h ⟨p, hp⟩, if_neg fun hc => h ⟨c, hc⟩,
      State.core_of_cores (State.freeSlot_frame _ _).2.2.2.2.2.1, State.core_of_cores (State.endLeft_frame s w).2.2.2.2.2.1]

theorem State.abandon_of_other {s : State} {w : Who} (h : ∀ e, (s.slot w).kind ≠ .phaseTask e) : s.abandon w = s := by
  unfold State.abandon
  split
  · exact absurd ‹_› (h _)
  · rfl

theorem State.abandon_of_action {s : State} {w : Who} {e f : Nat} {r : List Routine} (hk : (s.slot w).kind = .phaseTask e)
    (hr : (s.slot w).routines = .action f :: r) : s.abandon w = s.send w 0 (.sync f (.abandon w)) := by
  simp only [State.abandon, hk, hr]

/-- EXIT with nothing in flight, no lock held and no work for its slot (R243). -/
theorem exec_exit_idle {s : State} (hr : s.me.relaxed = []) (hu : s.me.unacked = []) (hl : s.me.locks = [])
    (ha : (s.core s.cur.core).arrival = []) (hq : (s.core s.cur.core).runList = []) (hs : (s.core s.cur.core).spill = []) :
    exec .exit s = .next (s.endThread s.cur) := by
  refine congrArg Host.Outcome.next ((State.waitBoth_of_nil hr hu).trans ((if_neg (not_not_intro hl)).trans (State.takeAll_idle ?_ 8)))
  have queues : ((s.endThread s.cur).core s.cur.core).arrival = [] ∧ ((s.endThread s.cur).core s.cur.core).runList = [] ∧
      ((s.endThread s.cur).core s.cur.core).spill = [] := by
    rw [State.endThread_core]
    split <;> exact ⟨ha, hq, hs⟩
  simp [State.workWaits, queues]

/-! ### Sweeps (R32, R244) -/

theorem exec_quiesceSweep_ready {s : State} {launch : Nat} {l : Launch} (hl : s.launch? launch = some l) (hq : s.quiescing launch = [s.cur])
    (hr : s.coreRuns s.cur.core = true) : exec (.quiesceSweep launch) s = .next (s.sweep launch l) := by
  change Host.Outcome.next _ = _
  simp only [hl, hq, List.all_cons, List.all_nil, hr, Bool.and_self, Bool.not_true, Bool.false_eq_true, or_false, List.cons_ne_nil, if_false]

/-- The launch of a number after the launches of that number change. -/
theorem State.launch?_updLaunch {s : State} {id : Nat} (f : Launch → Launch) (hf : ∀ l, (f l).id = l.id) :
    (s.updLaunch id f).launch? id = (s.launch? id).map f := by
  have same : ((fun l : Launch => l.id == id) ∘ fun l => if l.id == id then f l else l) = fun l => l.id == id := by
    funext l
    simp only [Function.comp]
    split
    · rw [hf]
    · rfl
  simp only [State.updLaunch, State.launch?, List.find?_map, same]
  cases h : s.launches.find? (fun l => l.id == id) with
  | none => rfl
  | some l =>
    have : l.id = id := by simpa using List.find?_some h
    simp [this]

/-- The launch after a sweep that finds no quiescence declared: one sweep more, and its sums kept where they agree. -/
def Launch.swept (l : Launch) (sums : Option Nat) : Launch := { l with sweeps := l.sweeps + 1, lastSums := sums }

/-- A sweep that finds equal sums as the last one did wakes the only parked thread (R32). -/
theorem State.sweep_declares {s : State} {id : Nat} {l : Launch} (hq : s.quiescing id = [s.cur]) (he : s.sentSum id = s.receivedSum id)
    (hs : l.lastSums = some (s.sentSum id)) : s.sweep id l =
      ((s.updLaunch id (fun l => l.swept none)).setSlot s.cur ((s.me.setG 4 (dbl (l.sweeps + 1))).next)).acquired s.cur.core := by
  simp only [State.sweep, hq, hs, ← he, decide_true, Bool.and_self, if_true, List.foldl_cons, List.foldl_nil]
  rfl

/-- A sweep that finds equal sums for the first time keeps them (R32). -/
theorem State.sweep_equal {s : State} {id : Nat} {l : Launch} (he : s.sentSum id = s.receivedSum id)
    (hs : l.lastSums ≠ some (s.sentSum id)) : s.sweep id l = s.updLaunch id (fun l => l.swept (some (s.sentSum id))) := by
  simp only [State.sweep, hs, ← he, decide_true, decide_false, Bool.true_and, Bool.false_eq_true, if_true, if_false]
  rfl

/-- The second part of O22: YIELD, EXIT, QUIESCE and sweeps. -/
theorem yields_and_ends (s : State) (b : BitVec 5) (launch : Nat) (l : Launch) :
    let k := s.core s.cur.core
    let tile := tileOf s.cur.core
    s.me.relaxed = [] → s.me.unacked = [] → s.me.locks = [] →
    (10 ≥ popCount (s.carryMask b) → k.arrival = [] → k.runList = [] →
      ∃ t tk, exec (.yield b) s = .next t ∧ t.me.pc = s.me.pc + 4 ∧ t.me.park = .wait .frame tk ∧ s.me.SameRegs t.me ∧ s.SameMemory t ∧
        s.OtherSlots t s.cur ∧ s.SameCores t ∧ t.me.serving = none ∧ t.net = (s.departOwner s.cur).net ∧ s.OtherTiles t tile ∧
        (isLarge s.cur.core = false → (s.tile tile).mslot (s.cur.core % 16) = s.cur.slot →
          (t.tile tile).leaving = (s.tile tile).leaving ++ [s.cur.core % 16])) ∧
    (k.arrival = [] → k.runList = [] → k.spill = [] →
      ∃ t, exec .exit s = .next t ∧ t.me.occ = false ∧ t.me.watch = none ∧ t.me.sup.tvec = s.me.sup.tvec ∧ t.me.mach.tvec = s.me.mach.tvec ∧
        s.SameMemory t ∧ s.OtherSlots t s.cur ∧ s.OtherTiles t tile ∧
        ((∀ p, s.me.kind ≠ .spawned p) → s.SameCores t) ∧
        (∀ p, s.me.kind = .spawned p → t.core p = { s.core p with spawned := (s.core p).spawned - 1 } ∧ s.OtherCores t p) ∧
        ((∀ e, s.me.kind ≠ .phaseTask e) → t.net = (s.departOwner s.cur).net) ∧
        (∀ e f r, s.me.serving = none → s.me.kind = .phaseTask e → s.me.routines = .action f :: r →
          ∃ q, t.net = s.net ++ [q] ∧ q.src = s.cur ∧ q.body = .sync f (.abandon s.cur)) ∧
        (isLarge s.cur.core = false → (s.tile tile).mslot (s.cur.core % 16) = s.cur.slot →
          (t.tile tile).leaving = (s.tile tile).leaving ++ [s.cur.core % 16]) ∧
        (isLarge s.cur.core = false → (s.tile tile).engine.claim = some s.cur → s.claimWaiter tile = none →
          (t.tile tile).engine.claim = none)) ∧
    (∃ t, exec .quiesce s = .next t ∧ t.me.park = .quiesce ∧ t.me.pc = s.me.pc ∧ s.me.SameRegs t.me ∧ s.SameMemory t ∧ s.OtherSlots t s.cur) ∧
    (s.launch? launch = some l → s.quiescing launch = [s.cur] → s.coreRuns s.cur.core = true → s.sentSum launch = s.receivedSum launch →
      (l.lastSums = some (s.sentSum launch) →
        ∃ t, exec (.quiesceSweep launch) s = .next t ∧ s.me.WroteG t.me 4 (dbl (l.sweeps + 1)) ∧ t.me.pc = s.me.pc + 4 ∧ t.me.park = .ready ∧
          s.SameMemory t ∧ s.OtherSlots t s.cur) ∧
      (l.lastSums ≠ some (s.sentSum launch) →
        ∃ t, exec (.quiesceSweep launch) s = .next t ∧ s.SameSlots t ∧ s.SameMemory t ∧
          t.launch? launch = some { l with sweeps := l.sweeps + 1, lastSums := some (s.sentSum launch) })) := by
  intro k tile hr hu hl
  refine ⟨fun few ha hq => ?_, fun ha hq hs => ?_, ?_, fun hi hq hc he => ⟨fun hs => ?_, fun hs => ?_⟩⟩
  · have run := exec_yield_idle few hr hu hl ha hq
    rw [State.frameWait_eq] at run
    refine ⟨_, s.departed.ticket, run, ?_, ?_, ?_, .of_eq ?_ ?_ ?_, fun v hv => ?_, .of_eq ?_, ?_, ?_, fun j hj => ?_, fun hlarge hm => ?_⟩
    · simp [Slot.resting]
    · simp [Slot.resting]
    · rw [State.setMe_me, State.departed_frame _ |>.2.1]
      exact s.me.sameRegs_departed
    · simp [State.setMe]
    · simp [State.setMe]
    · simp [State.setMe]
    · simp [hv, s.departed_otherSlots v hv]
    · simp [State.setMe]
    · simp [Slot.resting]
    · simp [State.setMe]
    · simpa using s.departed_otherTiles j hj
    · simpa using State.departed_leaving ⟨hlarge, hm⟩
  · have run := exec_exit_idle hr hu hl ha hq hs
    obtain ⟨cur, mem, stags, poison, tiles, net, slot, others⟩ := s.endThread_frame s.cur
    have me : (s.endThread s.cur).me = s.me.departed.freed := by rw [State.me, cur, slot]; rfl
    refine ⟨_, run, ?_, ?_, ?_, ?_, .of_eq mem stags poison, others, fun j hj => ?_, fun h c => ?_, fun p hp => ⟨?_, fun c hc => ?_⟩, fun h => ?_,
      fun e f r hserve hk hrou => ?_, fun hlarge hm => ?_, fun hlarge hclaim hw => ?_⟩
    · rw [me]; rfl
    · rw [me]; rfl
    · rw [me]; simp [Slot.freed]
    · rw [me]; simp [Slot.freed]
    · rw [State.tile_of_tiles tiles, s.endLeft_otherTiles s.cur j hj]
    · exact (s.endThread_core s.cur c).trans (if_neg (h c))
    · exact (s.endThread_core s.cur p).trans (if_pos hp)
    · refine (s.endThread_core s.cur c).trans (if_neg fun e => hc ?_)
      have : ThreadKind.spawned p = ThreadKind.spawned c := hp.symm.trans e
      injection this with this
      exact this.symm
    · have kind : ((s.departOwner s.cur).slot s.cur).kind = s.me.kind := by
        rw [State.departOwner_slot, if_pos rfl]
        exact (s.slot s.cur).departed_frame.2.2.2.2.2.2.2.2.2.2.1
      rw [net, State.abandon_of_other fun e => by rw [kind]; exact h e]
    · rw [State.departOwner_of_none hserve, State.abandon_of_action hk hrou] at net
      exact ⟨_, net, rfl, rfl⟩
    · rw [State.tile_of_tiles tiles]
      exact State.endLeft_leaving ⟨hlarge, hm⟩
    · rw [State.tile_of_tiles tiles]
      exact State.endLeft_claim hlarge hclaim hw
  · exact ⟨_, congrArg Host.Outcome.next (State.waitBoth_of_nil hr hu), by simp [State.setPark, State.me], by simp [State.setPark, State.me],
      .of_eq (by simp [State.setPark, State.me]) (by simp [State.setPark, State.me]) (by simp [State.setPark, State.me])
        (by simp [State.setPark, State.me]) (by simp [State.setPark, State.me]), .of_eq rfl rfl rfl, fun v hv => by simp [State.setPark, hv]⟩
  · have run := exec_quiesceSweep_ready hi hq hc
    rw [State.sweep_declares hq he hs] at run
    have me : (((s.updLaunch launch (fun l => l.swept none)).setSlot s.cur ((s.me.setG 4 (dbl (l.sweeps + 1))).next)).acquired s.cur.core).me =
        (s.me.setG 4 (dbl (l.sweeps + 1))).next := by
      rw [State.me, (State.acquired_frame _ _).1, State.slot_of_slots (State.acquired_frame _ _).2.2.2.2.1]
      simp
    refine ⟨_, run, ?_, ?_, ?_, .of_eq (by simp) (by simp) (by simp), fun v hv => ?_⟩
    · rw [me]
      exact s.me.wroteG_setG 4 _
    · rw [me]; simp
    · rw [me]; simp
    · rw [State.slot_of_slots (State.acquired_frame _ _).2.2.2.2.1, State.slot_setSlot, if_neg hv]
      rfl
  · have run := exec_quiesceSweep_ready hi hq hc
    rw [State.sweep_equal he hs] at run
    refine ⟨_, run, .of_eq rfl, .of_eq rfl rfl rfl, ?_⟩
    rw [State.launch?_updLaunch (fun l => l.swept (some (s.sentSum launch))) fun _ => rfl, hi]
    rfl

/-- Settles O22: `task_counters` and `yields_and_ends`. -/
theorem countersAndEnds : Obligations.CountersAndEnds := by
  unfold Obligations.CountersAndEnds
  exact ⟨task_counters, yields_and_ends⟩

end Sys2Proof.Machine
end

section
/-! PROOFS.  O41: a slot set and nothing else, folds of such steps, and a cause taken at once (R170, R350). -/

namespace Sys2Proof.Machine

/-! ### A slot set, and nothing else (R170, R350) -/

/-- Nothing but slots, and the count of messages, differs. -/
structure State.SameBut (s t : State) : Prop where
  cur : t.cur = s.cur
  mem : t.mem = s.mem
  stags : t.stags = s.stags
  poison : t.poison = s.poison
  cores : t.cores = s.cores
  tiles : t.tiles = s.tiles
  net : t.net = s.net
  parts : t.parts = s.parts
  launches : t.launches = s.launches
  sys : t.sys = s.sys
  ranges : t.ranges = s.ranges

theorem State.SameBut.refl (s : State) : s.SameBut s := ⟨rfl, rfl, rfl, rfl, rfl, rfl, rfl, rfl, rfl, rfl, rfl⟩

theorem State.SameBut.trans {s t u : State} (h : s.SameBut t) (g : t.SameBut u) : s.SameBut u :=
  ⟨g.cur.trans h.cur, g.mem.trans h.mem, g.stags.trans h.stags, g.poison.trans h.poison, g.cores.trans h.cores, g.tiles.trans h.tiles,
    g.net.trans h.net, g.parts.trans h.parts, g.launches.trans h.launches, g.sys.trans h.sys, g.ranges.trans h.ranges⟩

theorem State.SameBut.memory {s t : State} (h : s.SameBut t) : s.SameMemory t := .of_eq h.mem h.stags h.poison
theorem State.SameBut.core {s t : State} (h : s.SameBut t) (c : Nat) : t.core c = s.core c := State.core_of_cores h.cores c
theorem State.SameBut.tile {s t : State} (h : s.SameBut t) (k : Nat) : t.tile k = s.tile k := State.tile_of_tiles h.tiles k
theorem State.SameBut.runs {s t : State} (h : s.SameBut t) (c : Nat) : t.coreRuns c = s.coreRuns c :=
  State.coreRuns_of_eq h.parts h.sys (by rw [h.core])

/-- One slot holds x, and nothing else differs. -/
structure State.Sets (s t : State) (w : Who) (x : Slot) : Prop extends State.SameBut s t where
  slot : ∀ v, t.slot v = if slotKey v = slotKey w then x else s.slot v
  listed : ∀ p ∈ t.slots, p ∈ s.slots ∨ p = (slotKey w, x)

theorem State.sets_setSlot (s : State) (w : Who) (x : Slot) : s.Sets (s.setSlot w x) w x where
  toSameBut := ⟨rfl, rfl, rfl, rfl, rfl, rfl, rfl, rfl, rfl, rfl, rfl⟩
  slot := fun v => by simp
  listed := fun p hp => (mem_mapInsert _ _ _ _ hp).symm.imp (mapErase_subset _ _ _) id

/-- The same slot set twice: the second stands. -/
theorem State.Sets.again {s t u : State} {w : Who} {x y : Slot} (h : s.Sets t w x) (g : u = t.setSlot w y) : s.Sets u w y where
  toSameBut := g ▸ h.toSameBut.trans (t.sets_setSlot w y).toSameBut
  slot := fun v => by
    rw [g, (t.sets_setSlot w y).slot v, h.slot v]
    split <;> rfl
  listed := fun p hp => by
    rw [g] at hp
    rcases mem_mapInsert _ _ _ _ hp with rfl | hp
    · exact .inr rfl
    · rcases h.listed p (mapErase_subset _ _ _ hp) with hp' | rfl
      · exact .inl hp'
      · exact (mapErase_absent _ _ _ hp rfl).elim

/-- Steps that each set the slot of an element of a list, in order: every element's slot is set, and nothing else differs. -/
theorem State.foldl_sets {α : Type} {f : State → α → State} {w : α → Who} {g : α → Slot → Slot} {good : α → Slot → Prop} (l : List α)
    {s : State} (hf : ∀ t, s.SameBut t → ∀ a ∈ l, good a (t.slot (w a)) → t.Sets (f t a) (w a) (g a (t.slot (w a))))
    (hg : ∀ a ∈ l, good a (s.slot (w a))) (hn : (l.map (fun a => slotKey (w a))).Nodup) :
    s.SameBut (l.foldl f s) ∧ (∀ a ∈ l, (l.foldl f s).slot (w a) = g a (s.slot (w a))) ∧
      (∀ v, (∀ a ∈ l, slotKey v ≠ slotKey (w a)) → (l.foldl f s).slot v = s.slot v) ∧
      ∀ p ∈ (l.foldl f s).slots, p ∈ s.slots ∨ ∃ a ∈ l, p = (slotKey (w a), g a (s.slot (w a))) := by
  induction l generalizing s with
  | nil => exact ⟨.refl s, fun _ h => absurd h (by simp), fun _ _ => rfl, fun _ h => .inl h⟩
  | cons a r ih =>
    have first := hf s (.refl s) a (by simp) (hg a (by simp))
    rw [List.map_cons, List.nodup_cons] at hn
    obtain ⟨fresh, distinct⟩ := hn
    have apart : ∀ b ∈ r, slotKey (w b) ≠ slotKey (w a) := fun b hb e => fresh (by rw [← e]; exact List.mem_map_of_mem hb)
    have kept : ∀ b ∈ r, (f s a).slot (w b) = s.slot (w b) := fun b hb => by rw [first.slot, if_neg (apart b hb)]
    obtain ⟨same, done, rest, listed⟩ := ih (s := f s a) (fun t ht b hb => hf t (first.toSameBut.trans ht) b (by simp [hb]))
      (fun b hb => by rw [kept b hb]; exact hg b (by simp [hb])) distinct
    refine ⟨first.toSameBut.trans same, fun b hb => ?_, fun v hv => ?_, fun p hp => ?_⟩
    · rcases List.mem_cons.mp hb with rfl | hb
      · rw [List.foldl_cons, rest _ fun c hc => (apart c hc).symm, first.slot, if_pos rfl]
      · rw [List.foldl_cons, done b hb, kept b hb]
    · rw [List.foldl_cons, rest v fun b hb => hv b (by simp [hb]), first.slot, if_neg (hv a (by simp))]
    · rcases listed p hp with hp | ⟨b, hb, rfl⟩
      · rcases first.listed p hp with hp | rfl
        · exact .inl hp
        · exact .inr ⟨a, by simp, rfl⟩
      · exact .inr ⟨b, by simp [hb], by rw [kept b hb]⟩

/-! ### A cause taken at once (R170, R350) -/

/-- The slot at its handler (R170, R349, R350). -/
def Slot.entered (x : Slot) (c : Cause) (v : Word) : Slot :=
  let y := { x with park := .ready, turn := none, pend := none, traps := x.traps + 1 }
  if x.userTrap c then
    { y with csr := { x.csr with uepc := x.pc, ucause := BitVec.ofNat 8 c.code, utval := v, uinh := true }, pc := x.csr.utvec }
  else if x.toMachine c v then
    { y with mach := { x.mach with epc := x.pc, cause := dbl c.code, tval := v, status := entryStatus x.mode }, mode := .machine,
             pc := x.mach.tvec }
  else
    { y with sup := { x.sup with epc := x.pc, cause := dbl c.code, tval := v, status := entryStatus x.mode }, mode := .super,
             pc := x.sup.tvec }

/-- A slot with a free handler enters it. -/
theorem State.enterTrap_of_canEnter {s : State} {w : Who} {c : Cause} {v : Word} (h : (s.slot w).canEnter c v = true) :
    s.enterTrap w c v = s.setSlot w ((s.slot w).entered c v) := by
  have user : ({ s.slot w with park := .ready, turn := none, pend := none, traps := (s.slot w).traps + 1 } : Slot).userTrap c =
    (s.slot w).userTrap c := rfl
  have mach : ({ s.slot w with park := .ready, turn := none, pend := none, traps := (s.slot w).traps + 1 } : Slot).toMachine c v =
    (s.slot w).toMachine c v := rfl
  unfold State.enterTrap Slot.entered
  dsimp only
  rw [user, mach]
  split
  · rfl
  · split
    · rename_i hu hm
      rw [if_neg]
      simpa [Slot.canEnter, hu, hm] using h
    · rfl

theorem Slot.enters_entered (x : Slot) (c : Cause) (v : Word) : x.Enters (x.entered c v) c v := by
  unfold Slot.Enters Slot.entered
  dsimp only
  split
  · rename_i user
    refine ⟨fun _ => rfl, fun _ _ => ⟨rfl, rfl⟩, rfl, rfl, rfl, rfl, rfl, rfl, ?_, rfl, rfl, rfl⟩
    simp only [Slot.userTrap, Bool.and_eq_true, decide_eq_true_eq] at user
    exact user.1.1.1
  · split
    · exact ⟨fun _ => rfl, fun _ _ => ⟨rfl, rfl⟩, rfl, rfl, rfl, rfl, rfl, rfl, rfl, rfl, rfl, rfl⟩
    · exact ⟨fun _ => rfl, fun _ _ => ⟨rfl, rfl⟩, rfl, rfl, rfl, rfl, rfl, rfl, rfl, rfl, rfl, rfl⟩

theorem Slot.park_entered (x : Slot) (c : Cause) (v : Word) : (x.entered c v).park = .ready := by
  unfold Slot.entered
  dsimp only
  split
  · rfl
  · split <;> rfl

/-- A slot that takes a cause at once: no relaxed access is out or carries a cause, and its handler is free. -/
def Slot.takes (x : Slot) (c : Cause) (v : Word) : Prop := x.outstanding = [] ∧ x.relaxedFault = none ∧ x.canEnter c v = true

theorem State.sets_trapAt {s : State} {w : Who} {c : Cause} {v : Word} (h : (s.slot w).takes c v) :
    s.Sets (s.trapAt w c v) w ((s.slot w).entered c v) := by
  obtain ⟨out, fault, enter⟩ := h
  have set := s.sets_setSlot w (s.slot w)
  have slot : (s.setSlot w (s.slot w)).slot w = s.slot w := by simp
  refine set.again ?_
  rw [State.trapAt, State.trapWith]
  simp only [out, List.isEmpty_nil, if_true, State.trapNow, fault, Slot.noteSig]
  rw [State.enterTrap_of_canEnter (by rw [slot]; exact enter), slot]

/-- Parked slots whose cores run take a cause together (R289, R291). -/
theorem State.trapAll_takes {s : State} {c : Cause} (l : List (Who × Word)) (hr : ∀ p ∈ l, s.coreRuns p.1.core = true)
    (ht : ∀ p ∈ l, (s.slot p.1).takes c p.2) (hn : (l.map (fun p => slotKey p.1)).Nodup) :
    s.SameBut (s.trapAll c l) ∧ (∀ p ∈ l, (s.trapAll c l).slot p.1 = (s.slot p.1).entered c p.2) ∧
      (∀ v, (∀ p ∈ l, slotKey v ≠ slotKey p.1) → (s.trapAll c l).slot v = s.slot v) ∧
      ∀ q ∈ (s.trapAll c l).slots, q ∈ s.slots ∨ ∃ p ∈ l, q = (slotKey p.1, (s.slot p.1).entered c p.2) := by
  refine State.foldl_sets (w := fun p => p.1) (g := fun p x => x.entered c p.2) (good := fun p x => x.takes c p.2) l
    (fun t hs p hp good => ?_) ht hn
  rw [if_pos (by rw [hs.runs]; exact hr p hp)]
  exact State.sets_trapAt good

end Sys2Proof.Machine
end

section
/-! PROOFS.  O41: folds over distinct keys, the sixteen cores of a tile, and the release of one slot from MGANG (R143, R291). -/

namespace Sys2Proof.Machine

/-! ### Folds that act on one key at a time -/

/-- What a fold leaves of an observation that no step changes. -/
theorem foldl_keeps {σ α β : Type} {f : σ → α → σ} {φ : σ → β} (h : ∀ s a, φ (f s a) = φ s) (l : List α) (s : σ) :
    φ (l.foldl f s) = φ s := by
  induction l generalizing s with
  | nil => rfl
  | cons a r ih => rw [List.foldl_cons, ih, h]

/-- A fold whose steps each change an observation at their own key, with no key twice. -/
theorem foldl_obs {σ α β : Type} {f : σ → α → σ} {obs : σ → Nat → β} {key : α → Nat} {upd : α → β → β}
    (h : ∀ s a c, obs (f s a) c = if c = key a then upd a (obs s c) else obs s c) (l : List α) (s : σ) (hn : (l.map key).Nodup) :
    (∀ a ∈ l, obs (l.foldl f s) (key a) = upd a (obs s (key a))) ∧ ∀ c, c ∉ l.map key → obs (l.foldl f s) c = obs s c := by
  induction l generalizing s with
  | nil => exact ⟨fun _ ha => absurd ha (by simp), fun _ _ => rfl⟩
  | cons a r ih =>
    rw [List.map_cons, List.nodup_cons] at hn
    obtain ⟨done, rest⟩ := ih (f s a) hn.2
    refine ⟨fun b hb => ?_, fun c hc => ?_⟩
    · rcases List.mem_cons.mp hb with rfl | hb
      · rw [List.foldl_cons, rest _ hn.1, h, if_pos rfl]
      · rw [List.foldl_cons, done b hb, h, if_neg fun e => hn.1 (by rw [← e]; exact List.mem_map_of_mem hb)]
    · rw [List.map_cons, List.mem_cons, not_or] at hc
      rw [List.foldl_cons, rest c hc.2, h, if_neg hc.1]

/-! ### The sixteen cores of a tile -/

/-- Sixteen cores that include every core of a tile are the tile's cores, each once. -/
theorem tileCores_perm {l : List Nat} {k : Nat} (hl : l.length = 16) (h : ∀ c, c < 16 → 16 * k + c ∈ l) :
    ((List.range 16).map (fun c => 16 * k + c)).Perm l := by
  refine (List.Nodup.subperm (List.nodup_range.map fun a b e => by simpa using e) fun x hx => ?_).perm_of_length_le (by simp [hl])
  obtain ⟨c, hc, rfl⟩ := List.mem_map.mp hx
  exact h c (List.mem_range.mp hc)

theorem tileCores_nodup {l : List Nat} {k : Nat} (hl : l.length = 16) (h : ∀ c, c < 16 → 16 * k + c ∈ l) : l.Nodup :=
  (tileCores_perm hl h).nodup (List.nodup_range.map fun a b e => by simpa using e)

theorem tileCores_mem {l : List Nat} {k x : Nat} (hl : l.length = 16) (h : ∀ c, c < 16 → 16 * k + c ∈ l) (hx : x ∈ l) :
    x / 16 = k ∧ 16 * k + x % 16 = x := by
  obtain ⟨c, hc, rfl⟩ := List.mem_map.mp ((tileCores_perm hl h).mem_iff.mpr hx)
  have := List.mem_range.mp hc
  omega

theorem slotKey_div {w : Who} (h : w.slot < 8) : slotKey w / 8 = w.core := by
  rw [slotKey]; omega

/-- Slots of distinct cores are distinct. -/
theorem slotKeys_nodup {α : Type} {l : List α} {w : α → Who} (hs : ∀ a ∈ l, (w a).slot < 8) (hn : (l.map (fun a => (w a).core)).Nodup) :
    (l.map (fun a => slotKey (w a))).Nodup := by
  refine List.Nodup.of_map (fun n => n / 8) ?_
  have cores : l.map ((fun n => n / 8) ∘ fun a => slotKey (w a)) = l.map (fun a => (w a).core) :=
    List.map_congr_left fun a ha => slotKey_div (hs a ha)
  rwa [List.map_map, cores]

theorem State.tileRuns_core {s : State} {k c : Nat} (h : s.tileRuns k = true) (hc : c / 16 = k) : s.coreRuns c = true := by
  rw [State.tileRuns, List.all_eq_true] at h
  have := h (c % 16) (by simp; omega)
  rwa [show 16 * k + c % 16 = c by omega] at this

theorem State.mem_inGang {s : State} {k : Nat} {w : Who} (h : w ∈ s.inGang k) : w.core / 16 = k ∧ w.slot < 8 := by
  simp only [State.inGang, State.tileSlots, List.mem_map, List.mem_filter, Bool.and_eq_true, decide_eq_true_eq] at h
  obtain ⟨_, ⟨⟨p, ⟨_, tile, _⟩, rfl⟩, _⟩, rfl⟩ := h
  exact ⟨tile, Nat.mod_lt _ (by decide)⟩

/-! ### MGANG_RELEASE (R13, R143, R291) -/

/-- The release of the wired barrier changes slots, gang slots and the staging marks of cores, and nothing else. -/
theorem State.releaseGang_frame (s : State) (k : Nat) (w : Who) : (s.releaseGang k w).mem = s.mem ∧ (s.releaseGang k w).stags = s.stags ∧
    (s.releaseGang k w).poison = s.poison ∧ (s.releaseGang k w).ranges = s.ranges := by
  unfold State.releaseGang
  dsimp only
  split <;> simp

theorem State.releaseGang_tile (s : State) (k j : Nat) (w : Who) : (s.releaseGang k w).tile j =
    if j = k then { s.tile k with mslots := mapPut (s.tile k).mslots (w.core % 16) w.slot } else s.tile j := by
  unfold State.releaseGang
  dsimp only
  split <;> simp

theorem State.releaseGang_slot (s : State) (k : Nat) (w v : Who) :
    (s.releaseGang k w).slot v = if slotKey v = slotKey w then (s.slot w).next else s.slot v := by
  unfold State.releaseGang
  dsimp only
  split <;> simp

theorem State.releaseGang_stages (s : State) (k c : Nat) (w : Who) :
    (((s.releaseGang k w).core c).goLive, ((s.releaseGang k w).core c).staged.isSome) =
      if c = w.core then ((s.core c).goLive || (s.core c).staged.isSome, (s.core c).staged.isSome)
      else ((s.core c).goLive, (s.core c).staged.isSome) := by
  unfold State.releaseGang
  dsimp only
  by_cases h : c = w.core
  · subst h
    cases st : (s.core w.core).staged <;> simp [st]
  · split <;> simp [h]

end Sys2Proof.Machine
end

section
/-! PROOFS.  O41: MGANG, a partly joined operation discarded, and MGANG_RELEASE (R13, R143, R151, R287, R289, R291). -/

namespace Sys2Proof.Machine

/-! ### MGANG (R143, R287, R291) -/

@[simp] theorem State.settleLeaves_of_nil {s : State} {k : Nat} (h : (s.tile k).leaving = []) : s.settleLeaves k = s := by
  rw [State.settleLeaves, h, List.foldl_nil]

theorem State.smallOnly_of_small {s : State} {i : Instr} {k : State → State} (h : isLarge s.cur.core = false) : s.smallOnly i k = k s := by
  rw [State.smallOnly, h]; rfl

theorem State.pendingError_of_none {s : State} {k : State → State}
    (h : (s.tile (tileOf s.cur.core)).pendErr.find? (fun e => e.1 == s.cur.core % 16) = none) : s.pendingError k = k s := by
  rw [State.pendingError]
  dsimp only
  rw [h]

theorem State.Sets.me {s t : State} {x : Slot} (h : s.Sets t s.cur x) : t.me = x := by
  rw [State.me, h.cur, h.slot, if_pos rfl]

theorem State.sets_raise {t : State} {x : Slot} {c : Cause} {v : Word} (h : t.me = x) (hx : x.takes c v) :
    t.Sets (t.raise c v) t.cur (x.entered c v) := by
  subst h
  exact State.sets_trapAt hx

/-- A pending error is taken by the running slot as MTXERR, with its value in the CSR (R151, R287). -/
theorem State.pendingError_of_some {s : State} {k : State → State} {v : Word} (hr : s.me.relaxed = [])
    (h : (s.tile (tileOf s.cur.core)).pendErr.find? (fun e => e.1 == s.cur.core % 16) = some (s.cur.core % 16, v))
    (he : s.me.canEnter .mtxerr v = true) :
    s.SameMemory (s.pendingError k) ∧ s.OtherSlots (s.pendingError k) s.cur ∧
      Slot.Enters { s.me with csr := { s.me.csr with mtxerr := v } } (s.pendingError k).me .mtxerr v := by
  rw [State.pendingError]
  dsimp only
  rw [h]
  dsimp only
  rw [State.waitRelaxed_of_nil hr]
  set t := (s.setTile (tileOf s.cur.core) _).setMe _ with ht
  have me : t.me = { s.me with csr := { s.me.csr with mtxerr := v } } := by simp [ht, State.setMe, State.me]
  have set := State.sets_raise (c := .mtxerr) (v := v) me ⟨by simp [Slot.outstanding, hr], by simp [Slot.relaxedFault, hr], he⟩
  refine ⟨(State.SameMemory.of_eq rfl rfl rfl : s.SameMemory t).trans set.memory, fun w hw => ?_, ?_⟩
  · rw [set.slot, if_neg (show slotKey w ≠ slotKey t.cur from hw)]
    simp [State.setMe, ht, hw]
  · rw [set.me]
    exact Slot.enters_entered _ _ _

theorem wordOf_mgang : wordOf .mgang = 0xB4000000 := by decide

theorem Launch.holdsTile_iff (l : Launch) (k : Nat) : l.holdsTile k = true ↔ ∀ c, c < 16 → l.holds (16 * k + c) = true := by
  simp [Launch.holdsTile, Launch.holds]

/-- MGANG past the waits: its own checks, then the park (R291). -/
def State.mgangPark (s : State) (c : Nat) : State :=
  if (s.inGang (tileOf c)).any (fun w => decide (w.core = c)) then s.raise .illegal (wordOf .mgang)
  else if !((s.launch? s.me.launch).map (fun l => l.holdsTile (tileOf c))).getD false then s.raise .illegal (wordOf .mgang)
  else s.setPark s.cur .gang

section
variable {s : State} (hl : isLarge s.cur.core = false) (hv : (s.tile (tileOf s.cur.core)).leaving = [])
include hl hv

theorem exec_mgang : exec .mgang s = .next (s.pendingError fun t => t.waitBoth fun u => u.mgangPark s.cur.core) := by
  refine congrArg Host.Outcome.next ((State.smallOnly_of_small hl).trans ?_)
  dsimp only
  rw [State.settleLeaves_of_nil hv]
  rfl

theorem exec_mgang_of_clear (hr : s.me.relaxed = []) (hu : s.me.unacked = [])
    (h : (s.tile (tileOf s.cur.core)).pendErr.find? (fun e => e.1 == s.cur.core % 16) = none) :
    exec .mgang s = .next (s.mgangPark s.cur.core) := by
  rw [exec_mgang hl hv, State.pendingError_of_none h, State.waitBoth_of_nil hr hu]

end

theorem State.mgangPark_refused {s : State} (h : (s.inGang (tileOf s.cur.core)).any (fun w => decide (w.core = s.cur.core)) = true ∨
    s.launch? s.me.launch = none ∨ ∃ l, s.launch? s.me.launch = some l ∧ l.holdsTile (tileOf s.cur.core) = false) :
    s.mgangPark s.cur.core = s.trapAt s.cur .illegal 0xB4000000 := by
  rw [State.mgangPark, wordOf_mgang]
  split
  · rfl
  · rename_i apart
    rcases h with h | h | ⟨l, h, held⟩
    · exact absurd h apart
    · rw [h]; rfl
    · rw [h, Option.map_some, held]; rfl

theorem State.mgangPark_parks {s : State} {l : Launch} (h : (s.inGang (tileOf s.cur.core)).any (fun w => decide (w.core = s.cur.core)) = false)
    (hl : s.launch? s.me.launch = some l) (ht : l.holdsTile (tileOf s.cur.core) = true) :
    s.mgangPark s.cur.core = s.setPark s.cur .gang := by
  rw [State.mgangPark, h, hl, Option.map_some, ht]; rfl

/-! ### A partly joined operation discarded (R144, R289) -/

/-- The ranges of the members of a list. -/
def RangeOwner.memberOf (ws : List Who) : RangeOwner → Bool
  | .member w => ws.contains w
  | _ => false

theorem RangeOwner.memberOf_iff {ws : List Who} {o : RangeOwner} : o.memberOf ws = true ↔ ∃ w ∈ ws, o = .member w := by
  cases o <;> simp [RangeOwner.memberOf]

theorem State.discardJoining_eq (s : State) (k : Nat) : s.discardJoining k =
    ((s.unregister (RangeOwner.memberOf ((s.tile k).joining.map (fun m => m.who)))).setTile k { s.tile k with joining := [] }).trapAll
      .illegal ((s.joinedNow k).map (fun m => (m.who, m.word)) ++ s.roomMembers k) := rfl

theorem State.joinFails_eq (s : State) (k : Nat) (c : Cause) : s.joinFails k c =
    ((s.unregister (RangeOwner.memberOf ((s.tile k).joining.map (fun m => m.who)))).setTile k { s.tile k with joining := [] }).trapAll
      c ((s.joinedNow k).map (fun m => (m.who, if c = .illegal then m.word else m.ra))) := rfl

theorem State.unregister_none (s : State) : s.unregister (RangeOwner.memberOf []) = s := by
  have none : ∀ o, RangeOwner.memberOf [] o = false := fun o => by cases o <;> rfl
  simp [State.unregister, none]

theorem State.discardJoining_of_none {s : State} {k : Nat} (hj : (s.tile k).joining = []) (hm : s.roomMembers k = []) :
    s.discardJoining k = s.setTile k { s.tile k with joining := [] } := by
  rw [State.discardJoining_eq, State.joinedNow, hj, hm, List.map_nil, State.unregister_none]
  rfl

/-! ### MGANG_RELEASE (R13, R143, R291) -/

/-- The release of the wired barrier with nothing joining: the operation count of the tile starts again, and the slots in the gang
are released one at a time. -/
theorem exec_mgangRelease {s : State} {k : Nat} (hr : s.tileRuns k = true) (hv : (s.tile k).leaving = []) (hj : (s.tile k).joining = [])
    (hm : s.roomMembers k = []) (hn : (s.inGang k).length = 16) : exec (.mgangRelease k) s =
      .next ((s.inGang k).foldl (fun s w => s.releaseGang k w)
        ((s.setTile k { s.tile k with joining := [] }).setTile k { s.tile k with joining := [], gops := 0 })) := by
  refine congrArg Host.Outcome.next ?_
  dsimp only
  rw [State.settleLeaves_of_nil hv, if_neg (by simp [hr, hn]), State.discardJoining_of_none hj hm, State.tile_setTile, if_pos rfl]

theorem exec_mgangRelease_of_few {s : State} {k : Nat} (hv : (s.tile k).leaving = []) (hn : (s.inGang k).length ≠ 16) :
    exec (.mgangRelease k) s = .next s := by
  refine congrArg Host.Outcome.next ?_
  dsimp only
  rw [State.settleLeaves_of_nil hv, if_pos (by simp [hn])]

theorem State.slot_key (s : State) (w : Who) : s.slot ⟨0, slotKey w⟩ = s.slot w := by simp [State.slot, slotKey]

/-- What the release of its gang leaves of a tile. -/
def Tile.released (t : Tile) : List GangOp × Plane × SMap Accum × Nat := (t.queue, t.live, t.accs, t.gops)

section
variable {ws : List Who} {k : Nat} (s : State)

theorem State.releaseAll_slot (hs : ∀ w ∈ ws, w.slot < 8) (hn : (ws.map (fun w => w.core)).Nodup) : ∀ w ∈ ws,
    (ws.foldl (fun s w => s.releaseGang k w) s).slot w = (s.slot w).next := by
  have step (t : State) (w : Who) (n : Nat) : (t.releaseGang k w).slot ⟨0, n⟩ = if n = slotKey w then (t.slot ⟨0, n⟩).next else t.slot ⟨0, n⟩ := by
    rw [State.releaseGang_slot]
    by_cases h : n = slotKey w
    · rw [h, State.slot_key]; simp [slotKey]
    · simp only [slotKey] at h
      simp [slotKey, h]
  have all := (foldl_obs (key := slotKey) (upd := fun _ x => x.next) (obs := fun (t : State) n => t.slot ⟨0, n⟩) step ws s
    (slotKeys_nodup (w := fun w => w) hs hn)).1
  simpa only [State.slot_key] using all

theorem State.releaseAll_mslot (hk : ∀ w ∈ ws, 16 * k + w.core % 16 = w.core) (hn : (ws.map (fun w => w.core)).Nodup) : ∀ w ∈ ws,
    ((ws.foldl (fun s w => s.releaseGang k w) s).tile k).mslot (w.core % 16) = w.slot := by
  have step (t : State) (w : Who) (c : Nat) : ((t.releaseGang k w).tile k).mslot c = if c = w.core % 16 then w.slot else (t.tile k).mslot c := by
    rw [State.releaseGang_tile, if_pos rfl]
    simp [Tile.mslot]
  have places : (ws.map (fun w => w.core % 16)).Nodup := by
    refine List.Nodup.of_map (fun n => 16 * k + n) ?_
    rw [List.map_map]
    rwa [show ws.map ((fun n => 16 * k + n) ∘ fun w => w.core % 16) = ws.map (fun w => w.core) from List.map_congr_left hk]
  exact (foldl_obs (key := fun w : Who => w.core % 16) (upd := fun w _ => w.slot) (obs := fun (t : State) c => (t.tile k).mslot c) step ws s places).1

theorem State.releaseAll_goLive (hn : (ws.map (fun w => w.core)).Nodup) : ∀ w ∈ ws,
    ((ws.foldl (fun s w => s.releaseGang k w) s).core w.core).goLive = ((s.core w.core).goLive || (s.core w.core).staged.isSome) := by
  intro w hw
  exact congrArg Prod.fst ((foldl_obs (key := fun w : Who => w.core) (upd := fun _ x => (x.1 || x.2, x.2))
    (obs := fun (t : State) c => ((t.core c).goLive, (t.core c).staged.isSome)) (fun t w c => t.releaseGang_stages k c w) ws s hn).1 w hw)

theorem State.releaseAll_frame (ws : List Who) : let t := ws.foldl (fun s w => s.releaseGang k w) s
    ((t.mem, t.stags, t.poison, t.ranges) = (s.mem, s.stags, s.poison, s.ranges)) ∧ (t.tile k).released = (s.tile k).released ∧
      s.OtherTiles t k := by
  refine ⟨foldl_keeps (φ := fun (t : State) => (t.mem, t.stags, t.poison, t.ranges)) (fun t w => ?_) ws s,
    foldl_keeps (φ := fun (t : State) => (t.tile k).released) (fun t w => ?_) ws s,
    fun j hj => foldl_keeps (φ := fun (t : State) => t.tile j) (fun t w => ?_) ws s⟩
  · obtain ⟨mem, stags, poison, ranges⟩ := t.releaseGang_frame k w
    rw [mem, stags, poison, ranges]
  · rw [State.releaseGang_tile, if_pos rfl]; rfl
  · rw [State.releaseGang_tile, if_neg hj]

end

/-- Every slot of the gang goes on as its core's matrix slot, and the staged tables of their cores may go live. -/
theorem exec_mgangRelease_releases {s : State} {k : Nat} (hr : s.tileRuns k = true) (hv : (s.tile k).leaving = [])
    (hj : (s.tile k).joining = []) (hm : s.roomMembers k = []) (hn : (s.inGang k).length = 16)
    (hc : ∀ c, c < 16 → ∃ w ∈ s.inGang k, w.core = 16 * k + c) : ∃ t, exec (.mgangRelease k) s = .next t ∧
      (∀ w ∈ s.inGang k, t.slot w = (s.slot w).next ∧ (t.tile k).mslot (w.core % 16) = w.slot ∧
        (t.core w.core).goLive = ((s.core w.core).goLive || (s.core w.core).staged.isSome)) ∧
      (t.tile k).released = ((s.tile k).queue, (s.tile k).live, (s.tile k).accs, 0) ∧
      s.SameMemory t ∧ s.OtherTiles t k ∧ t.ranges = s.ranges := by
  have members : ∀ c, c < 16 → 16 * k + c ∈ (s.inGang k).map (fun w => w.core) := fun c h =>
    (hc c h).elim fun w hw => List.mem_map.mpr ⟨w, hw⟩
  have cores := tileCores_nodup (by simp [hn]) members
  have places : ∀ w ∈ s.inGang k, 16 * k + w.core % 16 = w.core := fun w hw =>
    (tileCores_mem (by simp [hn]) members (List.mem_map_of_mem hw)).2
  set u := (s.setTile k { s.tile k with joining := [] }).setTile k { s.tile k with joining := [], gops := 0 } with hu
  have utile (j : Nat) : u.tile j = if j = k then { s.tile k with joining := [], gops := 0 } else s.tile j := by
    rw [hu, State.tile_setTile, State.tile_setTile]
    split <;> rfl
  obtain ⟨same, kept, others⟩ := u.releaseAll_frame (k := k) (s.inGang k)
  obtain ⟨mem, rest⟩ := Prod.mk.inj same
  obtain ⟨stags, rest⟩ := Prod.mk.inj rest
  obtain ⟨poison, ranges⟩ := Prod.mk.inj rest
  refine ⟨_, exec_mgangRelease hr hv hj hm hn, fun w hw => ⟨?_, ?_, ?_⟩, ?_, .of_eq mem stags poison, fun j h => ?_, ranges⟩
  · exact u.releaseAll_slot (fun w hw => (State.mem_inGang hw).2) cores w hw
  · exact u.releaseAll_mslot places cores w hw
  · exact u.releaseAll_goLive cores w hw
  · rw [kept, utile, if_pos rfl]; rfl
  · rw [others j h, utile, if_neg h]

end Sys2Proof.Machine
end

section
/-! PROOFS.  O41: the checks of a join, its members in order, and a join that fails (R144, R154, R161, R288). -/

namespace Sys2Proof.Machine

/-! ### The checks of a join (R144, R154, R161, R288) -/

/-- Two members of one operation (R144, R288, R304). -/
def Member.agrees (m n : Member) : Prop := n.fn = m.fn ∧ n.rb = m.rb ∧ n.imm = m.imm ∧
  n.record.map (fun r => r.window) = m.record.map (fun r => r.window) ∧ (m.fn = .mcovr → n.ra = m.ra)

theorem Member.agrees.refl (m : Member) : m.agrees m := ⟨rfl, rfl, rfl, rfl, fun _ => rfl⟩

theorem Member.agrees.of_head {h m n : Member} (hm : h.agrees m) (hn : h.agrees n) : m.agrees n := by
  obtain ⟨mf, mb, mi, mw, ma⟩ := hm
  obtain ⟨nf, nb, ni, nw, na⟩ := hn
  exact ⟨nf.trans mf.symm, nb.trans mb.symm, ni.trans mi.symm, nw.trans mw.symm, fun f => (na (mf ▸ f)).trans (ma (mf ▸ f)).symm⟩

theorem membersAgree_iff (ms : List Member) : membersAgree ms = true ↔ ∀ m ∈ ms, ∀ n ∈ ms, m.agrees n := by
  cases ms with
  | nil => simp [membersAgree]
  | cons h r =>
    have head : membersAgree (h :: r) = true ↔ ∀ n ∈ r, h.agrees n := by
      simp only [membersAgree, List.all_eq_true, Bool.and_eq_true, Bool.or_eq_true, decide_eq_true_eq, Member.agrees]
      refine forall₂_congr fun n _ => ?_
      rw [← imp_iff_not_or]
      tauto
    rw [head]
    refine ⟨fun all => ?_, fun all n hn => all h (by simp) n (by simp [hn])⟩
    have all' : ∀ n ∈ h :: r, h.agrees n := fun n hn => (List.mem_cons.mp hn).elim (fun e => e ▸ .refl h) (all n)
    exact fun m hm n hn => (all' m hm).of_head (all' n hn)

theorem rowsOf_eq (ms : List Member) : rowsOf ms = (ms.map (fun m => (m.record.map (fun r => r.rows)).getD 0)).sum := by
  rw [rowsOf, List.sum_eq_foldl]

/-- The joint tests against the rows of all members (R154, R161). -/
theorem joinBad_iff (ms : List Member) : joinBad ms = true ↔ ∃ m rest, ms = m :: rest ∧
    ((m.fn = .mgrp ∧ (ms.map (fun m => (m.record.map (fun r => r.rows)).getD 0)).sum < (m.words.map dwRows).sum) ∨
      ((m.fn = .mcovp ∨ m.fn = .mcovc) ∧
        4096 < field m.rb 16 12 + (ms.map (fun m => (m.record.map (fun r => r.rows)).getD 0)).sum)) := by
  cases ms with
  | nil => simp [joinBad]
  | cons m r =>
    have test : joinBad (m :: r) = true ↔ (m.fn = .mgrp ∧ rowsOf (m :: r) < (m.words.map dwRows).sum) ∨
        ((m.fn = .mcovp ∨ m.fn = .mcovc) ∧ 4096 < field m.rb 16 12 + rowsOf (m :: r)) := by
      rw [joinBad, List.sum_eq_foldl]
      cases m.fn <;> simp
    rw [test, rowsOf_eq]
    constructor
    · exact fun h => ⟨m, r, rfl, h⟩
    · rintro ⟨_, _, e, h⟩
      obtain ⟨rfl, rfl⟩ := List.cons.inj e
      exact h

/-! ### The members in the order of their cores (R144) -/

section
variable {js : List Member} {k : Nat} (hn : js.length = 16) (hc : ∀ c, c < 16 → ∃ m ∈ js, m.who.core = 16 * k + c)
include hn hc

omit hn in
theorem members_cores : ∀ c, c < 16 → 16 * k + c ∈ js.map (fun m => m.who.core) := fun c h =>
  (hc c h).elim fun m hm => List.mem_map.mpr ⟨m, hm⟩

theorem members_nodup : (js.map (fun m => m.who.core)).Nodup := tileCores_nodup (by simp [hn]) (members_cores hc)

theorem members_place {m : Member} (hm : m ∈ js) : m.who.core / 16 = k ∧ 16 * k + m.who.core % 16 = m.who.core :=
  tileCores_mem (by simp [hn]) (members_cores hc) (List.mem_map.mpr ⟨m, hm, rfl⟩)

/-- Every member is found at its core's place. -/
theorem members_find {m : Member} (hm : m ∈ js) : js.find? (fun n => n.who.core % 16 == m.who.core % 16) = some m := by
  obtain ⟨n, found⟩ := Option.isSome_iff_exists.mp (List.find?_isSome.mpr ⟨m, hm, beq_self_eq_true _⟩ :
    (js.find? (fun n => n.who.core % 16 == m.who.core % 16)).isSome)
  have same : n.who.core % 16 = m.who.core % 16 := by simpa using List.find?_some found
  have cores : n.who.core = m.who.core := by
    rw [← (members_place hn hc (List.mem_of_find?_eq_some found)).2, ← (members_place hn hc hm).2, same]
  rw [found, List.inj_on_of_nodup_map (members_nodup hn hc) (List.mem_of_find?_eq_some found) hm cores]

theorem sortMembers_cores : (sortMembers js).map (fun m => m.who.core) = (List.range 16).map (fun c => 16 * k + c) := by
  rw [sortMembers, List.map_filterMap, ← List.filterMap_eq_map]
  refine List.filterMap_congr fun c h => ?_
  obtain ⟨m, hm, core⟩ := hc c (List.mem_range.mp h)
  have place : m.who.core % 16 = c := by have := List.mem_range.mp h; omega
  rw [← place, members_find hn hc hm]
  exact congrArg some (members_place hn hc hm).2.symm

theorem mem_sortMembers {m : Member} : m ∈ sortMembers js ↔ m ∈ js := by
  rw [sortMembers, List.mem_filterMap]
  constructor
  · rintro ⟨c, _, found⟩
    exact List.mem_of_find?_eq_some found
  · exact fun hm => ⟨_, List.mem_range.mpr (Nat.mod_lt _ (by decide)), members_find hn hc hm⟩

theorem sortMembers_cons : ∃ m r, sortMembers js = m :: r := by
  have length : (sortMembers js).length = 16 := by simpa using congrArg List.length (sortMembers_cores hn hc)
  exact List.exists_cons_of_length_eq_add_one length

end

/-! ### GANG_JOIN (R144) -/

section
variable {s : State} {k : Nat} (hv : (s.tile k).leaving = [])
include hv

theorem exec_gangJoin_waits (h : 4 ≤ ((s.tile k).queue.filter (fun o => !o.started)).length) : exec (.gangJoin k) s = .next s := by
  refine congrArg Host.Outcome.next ?_
  rw [State.settleLeaves_of_nil hv, if_pos (by simp [Tile.waiting, h])]

/-- The join of sixteen members, with room in the queue. -/
theorem exec_gangJoin (hr : s.tileRuns k = true) (hn : (s.tile k).joining.length = 16)
    (h : ((s.tile k).queue.filter (fun o => !o.started)).length < 4) : exec (.gangJoin k) s = .next
      (if !membersAgree (s.tile k).joining then s.joinFails k .illegal
      else if joinBad (s.tile k).joining then s.joinFails k .bounds
      else s.enqueueOp k) := by
  refine congrArg Host.Outcome.next ?_
  rw [State.settleLeaves_of_nil hv, if_neg (by simp [Tile.waiting, hr, hn, Nat.not_le.mpr h])]

end

section
variable {s : State} {k : Nat} (hr : s.tileRuns k = true) (hn : (s.tile k).joining.length = 16)
  (hc : ∀ c, c < 16 → ∃ m ∈ (s.tile k).joining, m.who.core = 16 * k + c) (hs : ∀ m ∈ (s.tile k).joining, m.who.slot < 8)
include hr hn hc hs

/-- A join that fails: every member takes the cause, nothing is queued, and the members' ranges are gone. -/
theorem State.joinFails_takes (c : Cause) (hp : ∀ m ∈ (s.tile k).joining, (s.slot m.who).park = .member)
    (ht : ∀ m ∈ (s.tile k).joining, (s.slot m.who).takes c (if c = .illegal then m.word else m.ra)) : let t := s.joinFails k c
    (t.tile k).joining = [] ∧ (t.tile k).queue = (s.tile k).queue ∧
      (∀ m ∈ (s.tile k).joining, (s.slot m.who).Enters (t.slot m.who) c (if c = .illegal then m.word else m.ra)) ∧
      t.ranges = s.ranges.filter (fun r => decide (∀ m ∈ (s.tile k).joining, r.owner ≠ .member m.who)) ∧
      s.SameMemory t ∧ s.SameCores t ∧ s.OtherTiles t k := by
  have now : s.joinedNow k = (s.tile k).joining := List.filter_eq_self.mpr fun m hm => decide_eq_true (hp m hm)
  rw [State.joinFails_eq, now]
  set u := (s.unregister _).setTile k { s.tile k with joining := [] } with hu
  obtain ⟨same, entered, _, _⟩ := State.trapAll_takes (s := u) (c := c)
    ((s.tile k).joining.map (fun m => (m.who, if c = .illegal then m.word else m.ra)))
    (fun p hp => by
      obtain ⟨m, hm, rfl⟩ := List.mem_map.mp hp
      exact State.tileRuns_core (s := s) hr (members_place hn hc hm).1)
    (fun p hp => by
      obtain ⟨m, hm, rfl⟩ := List.mem_map.mp hp
      exact ht m hm)
    (by
      rw [List.map_map]
      exact slotKeys_nodup (w := fun m : Member => m.who) hs (members_nodup hn hc))
  have tile (j : Nat) : u.tile j = if j = k then { s.tile k with joining := [] } else s.tile j := by
    rw [hu, State.tile_setTile]; rfl
  refine ⟨?_, ?_, fun m hm => ?_, ?_, (State.SameMemory.of_eq rfl rfl rfl : s.SameMemory u).trans same.memory, fun c => same.core c, fun j hj => ?_⟩
  · rw [same.tile, tile, if_pos rfl]
  · rw [same.tile, tile, if_pos rfl]
  · rw [entered _ (List.mem_map_of_mem hm)]
    exact Slot.enters_entered _ _ _
  · rw [same.ranges]
    refine List.filter_congr fun r _ => ?_
    rw [Bool.eq_iff_iff, Bool.not_eq_true', ← Bool.not_eq_true, RangeOwner.memberOf_iff]
    simp
  · rw [same.tile, tile, if_neg hj]

end

end Sys2Proof.Machine
end

section
/-! PROOFS.  O41: a joined operation enters the queue (R144, R290), and a departure (R289). -/

namespace Sys2Proof.Machine

/-! ### A joined operation enters the queue (R144, R290) -/

/-- The ranges of the members handed to their operation. -/
def RangeOwner.toOp (ws : List Who) (k n : Nat) : RangeOwner → RangeOwner
  | .member w => if ws.contains w then .op k n else .member w
  | o => o

theorem RangeOwner.toOp_ne {ws : List Who} {w : Who} (h : w ∈ ws) (k n : Nat) (o : RangeOwner) : o.toOp ws k n ≠ .member w := by
  cases o with
  | member v =>
    rw [RangeOwner.toOp]
    split
    · exact nofun
    · rename_i absent
      exact fun e => absent (by simpa [RangeOwner.member.inj e] using h)
  | _ => exact nofun

/-- The operation that the members of a join make, the first of them m. -/
def State.joinedOp (s : State) (k : Nat) (m : Member) : GangOp :=
  { num := (s.tile k).opNum, seq := (s.tile k).gops + 1, fn := m.fn, ra := m.ra, rb := m.rb, imm := m.imm, members := sortMembers (s.tile k).joining,
    launch := (s.slot m.who).launch, started := false, probed := false }

/-- The tile with the operation in its queue. -/
def State.joinedTile (s : State) (k : Nat) (m : Member) : Tile :=
  let t := s.tile k
  { t with joining := [], queue := t.queue ++ [s.joinedOp k m], gops := t.gops + 1, opNum := t.opNum + 1 }

/-- A member's slot once its operation is in the queue. -/
def Slot.joined (x : Slot) (fn : GangFn) (n : Nat) : Slot :=
  if fn = .mcovp ∨ fn = .mcovr then { x with park := .arrayDone n } else x.next

theorem State.enqueueOp_eq {s : State} {k : Nat} {m : Member} {r : List Member} (h : sortMembers (s.tile k).joining = m :: r) :
    s.enqueueOp k = (s.joinedNow k).foldl (fun t n => t.setSlot n.who ((t.slot n.who).joined n.fn (s.tile k).opNum))
      ((s.reown (RangeOwner.toOp ((sortMembers (s.tile k).joining).map (fun m => m.who)) k (s.tile k).opNum)).setTile k (s.joinedTile k m)) := by
  have step : (fun (t : State) (n : Member) => t.setSlot n.who ((t.slot n.who).joined n.fn (s.tile k).opNum)) = fun t n =>
      if n.fn = .mcovp ∨ n.fn = .mcovr then t.setPark n.who (.arrayDone (s.tile k).opNum) else t.setSlot n.who (t.slot n.who).next := by
    funext t n
    rw [Slot.joined]
    split <;> rfl
  have owner : RangeOwner.toOp ((sortMembers (s.tile k).joining).map (fun m => m.who)) k (s.tile k).opNum = fun o => match o with
      | .member w => if ((sortMembers (s.tile k).joining).map (fun m => m.who)).contains w then RangeOwner.op k (s.tile k).opNum else o
      | _ => o := by
    funext o; cases o <;> rfl
  rw [step, owner, State.enqueueOp]
  dsimp only
  split
  · rename_i empty
    exact absurd (h.symm.trans empty) (by simp)
  · rename_i m' r' h'
    obtain ⟨rfl, rfl⟩ := List.cons.inj (h.symm.trans h')
    rfl

section
variable {s : State} {k : Nat} (hn : (s.tile k).joining.length = 16)
  (hc : ∀ c, c < 16 → ∃ m ∈ (s.tile k).joining, m.who.core = 16 * k + c) (hs : ∀ m ∈ (s.tile k).joining, m.who.slot < 8)
include hn hc hs

/-- What enters the queue, and what of the members, the ranges and the rest of the state. -/
theorem State.enqueueOp_joins : ∃ h ∈ (s.tile k).joining, let t := s.enqueueOp k
    t.tile k = s.joinedTile k h ∧
      (∀ m ∈ (s.tile k).joining, (s.slot m.who).park = .member → t.slot m.who = (s.slot m.who).joined m.fn (s.tile k).opNum) ∧
      (∀ r ∈ t.ranges, ∀ m ∈ (s.tile k).joining, r.owner ≠ .member m.who) ∧
      t.ranges.map (fun r => (r.id, r.table, r.lo, r.hi, r.write)) = s.ranges.map (fun r => (r.id, r.table, r.lo, r.hi, r.write)) ∧
      s.SameMemory t ∧ s.SameCores t ∧ s.OtherTiles t k := by
  obtain ⟨h, r, sorted⟩ := sortMembers_cons hn hc
  refine ⟨h, (mem_sortMembers hn hc).mp (sorted ▸ List.mem_cons_self), ?_⟩
  rw [State.enqueueOp_eq sorted]
  set ws := (sortMembers (s.tile k).joining).map (fun m => m.who) with hw
  set u := (s.reown (RangeOwner.toOp ws k (s.tile k).opNum)).setTile k (s.joinedTile k h) with hu
  have listed : ∀ m ∈ (s.tile k).joining, m.who ∈ ws := fun m hm => List.mem_map.mpr ⟨m, (mem_sortMembers hn hc).mpr hm, rfl⟩
  have sub : (s.joinedNow k).Sublist (s.tile k).joining := List.filter_sublist
  obtain ⟨same, done, _, _⟩ := State.foldl_sets (s := u) (w := fun m : Member => m.who)
    (f := fun t n => t.setSlot n.who ((t.slot n.who).joined n.fn (s.tile k).opNum)) (g := fun m x => x.joined m.fn (s.tile k).opNum)
    (good := fun _ _ => True) (s.joinedNow k) (fun t _ m _ _ => t.sets_setSlot m.who _) (fun _ _ => trivial)
    ((slotKeys_nodup (w := fun m : Member => m.who) hs (members_nodup hn hc)).sublist (sub.map _))
  have tile (j : Nat) : u.tile j = if j = k then s.joinedTile k h else s.tile j := by
    rw [hu, State.tile_setTile]; rfl
  refine ⟨?_, fun m hm park => done m (List.mem_filter.mpr ⟨hm, decide_eq_true park⟩), fun r hr m hm => ?_, ?_,
    (State.SameMemory.of_eq rfl rfl rfl : s.SameMemory u).trans same.memory, fun c => same.core c, fun j hj => ?_⟩
  · rw [same.tile, tile, if_pos rfl]
  · rw [same.ranges] at hr
    obtain ⟨q, _, rfl⟩ := List.mem_map.mp hr
    exact RangeOwner.toOp_ne (listed m hm) _ _ _
  · rw [same.ranges]
    exact List.map_map
  · rw [same.tile, tile, if_neg hj]

end

/-! ### GANG_LEAVE (R289) -/

/-- No slot waits for room to join where none did, and none that was set since waits. -/
theorem State.roomMembers_nil {s t : State} {k : Nat} (h : s.roomMembers k = []) (ht : ∀ p ∈ t.slots, p ∈ s.slots ∨ p.2.park = .ready) :
    t.roomMembers k = [] := by
  rw [State.roomMembers, List.filterMap_eq_nil_iff] at h ⊢
  intro p hp
  obtain ⟨q, hq, rfl⟩ := List.mem_map.mp hp
  obtain ⟨listed, tile⟩ := List.mem_filter.mp hq
  rcases ht q listed with old | ready
  · exact h _ (List.mem_map_of_mem (List.mem_filter.mpr ⟨old, tile⟩))
  · simp [ready]

theorem slotKeys_nodup_of_slots {l : List Who} (hn : l.Nodup) (hs : ∀ w ∈ l, w.slot < 8) : (l.map slotKey).Nodup :=
  hn.map_on fun v hv w hw e => (slotKey_inj v w (hs v hv) (hs w hw)).mp e

/-- The members that a departed core leaves behind, with nobody waiting for room: each takes ILLEGAL. -/
theorem State.discardJoining_takes {s : State} {k : Nat} (hr : s.tileRuns k = true)
    (hj : ∀ m ∈ (s.tile k).joining, tileOf m.who.core = k ∧ (s.slot m.who).park = .member) (hm : s.roomMembers k = [])
    (ht : ∀ m ∈ (s.tile k).joining, (s.slot m.who).takes .illegal m.word) (hn : ((s.tile k).joining.map (fun m => slotKey m.who)).Nodup) :
    let t := s.discardJoining k
    t.tile k = { s.tile k with joining := [] } ∧ (∀ m ∈ (s.tile k).joining, t.slot m.who = (s.slot m.who).entered .illegal m.word) ∧
      (∀ v, (∀ m ∈ (s.tile k).joining, slotKey v ≠ slotKey m.who) → t.slot v = s.slot v) ∧
      s.SameMemory t ∧ s.SameCores t ∧ s.OtherTiles t k := by
  have now : s.joinedNow k = (s.tile k).joining := List.filter_eq_self.mpr fun m h => decide_eq_true (hj m h).2
  rw [State.discardJoining_eq, now, hm, List.append_nil]
  set u := (s.unregister _).setTile k { s.tile k with joining := [] } with hu
  obtain ⟨same, entered, rest, _⟩ := State.trapAll_takes (s := u) (c := .illegal) ((s.tile k).joining.map (fun m => (m.who, m.word)))
    (List.forall_mem_map (f := fun m : Member => (m.who, m.word)).mpr fun m h => State.tileRuns_core (s := s) hr (hj m h).1)
    (List.forall_mem_map (f := fun m : Member => (m.who, m.word)).mpr ht)
    (by rw [List.map_map]; exact hn)
  have tile (j : Nat) : u.tile j = if j = k then { s.tile k with joining := [] } else s.tile j := by
    rw [hu, State.tile_setTile]; rfl
  refine ⟨?_, fun m h => entered _ (List.mem_map_of_mem h), fun v h => rest v (List.forall_mem_map.mpr h),
    (State.SameMemory.of_eq rfl rfl rfl : s.SameMemory u).trans same.memory, fun c => same.core c, fun j h => ?_⟩
  · rw [same.tile, tile, if_pos rfl]
  · rw [same.tile, tile, if_neg h]

theorem State.gangLeft_alone {s : State} {k c : Nat} (hv : (s.tile k).leaving = [c]) (hj : ∀ m ∈ (s.tile k).joining, m.who.core % 16 ≠ c) :
    s.gangLeft k c = ((s.setTile k { s.tile k with leaving := [] }).trapAll .illegal
      ((s.inGang k).map (fun w => (w, 0xB4000000)))).discardJoining k := by
  rw [State.gangLeft]
  dsimp only
  rw [if_neg (by simpa using hj), hv, List.filter_cons_of_neg (by simp), List.filter_nil, wordOf_mgang]
  rfl

/-- A departure: the slots in the gang, and the members of the operation that its core had not joined, take ILLEGAL. -/
theorem exec_gangLeave {s : State} {core k : Nat} (hk : tileOf core = k) (hr : s.tileRuns k = true) (hv : (s.tile k).leaving = [core % 16])
    (hj : ∀ m ∈ (s.tile k).joining, tileOf m.who.core = k ∧ m.who.core % 16 ≠ core % 16 ∧ m.who.slot < 8 ∧ (s.slot m.who).park = .member)
    (hm : s.roomMembers k = []) (hn : (s.inGang k ++ (s.tile k).joining.map (fun m => m.who)).Nodup)
    (ht : ∀ m ∈ (s.tile k).joining, (s.slot m.who).takes .illegal m.word)
    (hg : ∀ w ∈ s.inGang k, (s.slot w).takes .illegal 0xB4000000) :
    ∃ t, exec (.gangLeave core) s = .next t ∧ (t.tile k).leaving = [] ∧ (t.tile k).joining = [] ∧ (t.tile k).queue = (s.tile k).queue ∧
      (∀ w ∈ s.inGang k, (s.slot w).Enters (t.slot w) .illegal 0xB4000000) ∧
      (∀ m ∈ (s.tile k).joining, (s.slot m.who).Enters (t.slot m.who) .illegal m.word) ∧
      s.SameMemory t ∧ s.SameCores t ∧ s.OtherTiles t k := by
  subst hk
  set k := tileOf core with hk
  refine ⟨_, congrArg Host.Outcome.next ((if_pos (by simp [hr, hv, ← hk])).trans (State.gangLeft_alone hv fun m h => (hj m h).2.1)), ?_⟩
  obtain ⟨distinct, members, apart⟩ := List.nodup_append.mp
    (List.map_append ▸ slotKeys_nodup_of_slots hn (List.forall_mem_append.mpr
      ⟨fun w h => (State.mem_inGang h).2, List.forall_mem_map.mpr fun m h => (hj m h).2.2.1⟩))
  set u := s.setTile k { s.tile k with leaving := [] } with hu
  obtain ⟨same, entered, rest, listed⟩ := State.trapAll_takes (s := u) (c := .illegal) ((s.inGang k).map (fun w => (w, 0xB4000000)))
    (List.forall_mem_map.mpr fun w h => State.tileRuns_core (s := s) hr (State.mem_inGang h).1) (List.forall_mem_map.mpr hg)
    (by rw [List.map_map]; exact distinct)
  set t := u.trapAll .illegal ((s.inGang k).map (fun w => (w, 0xB4000000)))
  have kept : ∀ m ∈ (s.tile k).joining, t.slot m.who = s.slot m.who := fun m h => rest m.who (List.forall_mem_map.mpr fun w hw e =>
    apart _ (List.mem_map_of_mem hw) _ (List.mem_map_of_mem (List.mem_map_of_mem h)) e.symm)
  have tile (j : Nat) : t.tile j = if j = k then { s.tile k with leaving := [] } else s.tile j := by
    rw [same.tile, hu, State.tile_setTile]
  have joining : (t.tile k).joining = (s.tile k).joining := by rw [tile, if_pos rfl]
  have runs : t.tileRuns k = true := by
    rw [← hr]
    simp only [State.tileRuns, same.runs]
    rfl
  have room : t.roomMembers k = [] := State.roomMembers_nil hm fun p hp => (listed p hp).imp_right fun ⟨q, _, e⟩ =>
    e ▸ Slot.park_entered _ _ _
  obtain ⟨tile', left, others, mem, cores, tiles⟩ := State.discardJoining_takes runs
    (by rw [joining]; exact fun m h => ⟨(hj m h).1, by rw [kept m h]; exact (hj m h).2.2.2⟩) room
    (by rw [joining]; exact fun m h => by rw [kept m h]; exact ht m h)
    (by rw [joining]; rw [List.map_map] at members; exact members)
  rw [joining] at left others
  refine ⟨?_, ?_, ?_, fun w hw => ?_, fun m h => ?_, ((State.SameMemory.of_eq rfl rfl rfl : s.SameMemory u).trans same.memory).trans mem,
    fun c => (cores c).trans (same.core c), fun j h => ?_⟩
  · rw [tile', tile, if_pos rfl]
  · rw [tile', tile, if_pos rfl]
  · rw [tile', tile, if_pos rfl]
  · rw [others w fun m h e => apart _ (List.mem_map_of_mem hw) _ (List.mem_map_of_mem (List.mem_map_of_mem h)) e,
      entered _ (List.mem_map_of_mem hw)]
    exact Slot.enters_entered _ _ _
  · rw [left m h, kept m h]
    exact Slot.enters_entered _ _ _
  · rw [tiles j h, tile, if_neg h]

end Sys2Proof.Machine
end

section
/-! PROOFS.  O41: room in the range tables (R65, R144, R156, R250). -/

namespace Sys2Proof.Machine

/-! ### RANGE_TABLE_ROOM (R65) -/

theorem State.handClaim_job (s : State) (k : Nat) : ((s.handClaim k).engine k).nextNum = (s.engine k).nextNum ∧
    (s.handClaim k).ranges = s.ranges := by
  unfold State.handClaim
  dsimp only
  split
  · exact ⟨rfl, rfl⟩
  · split
    · simp [State.engine]
    · exact ⟨rfl, rfl⟩

@[simp] theorem State.register_units (s : State) (o : RangeOwner) (part : Nat) (pid : BitVec 16) (qs : List RangeReq) :
    (∀ v, (s.register o part pid qs).slot v = s.slot v) ∧ ∀ k, (s.register o part pid qs).tile k = s.tile k := ⟨fun _ => rfl, fun _ => rfl⟩

/-- What a committed job leaves: its number in g4 of its slot, which goes on, the next number, and its ranges (R250). -/
theorem State.commitJob_commits (s : State) {j : Job} (qs : List RangeReq) {w : Who} (hw : j.who = w) : let k := tileOf w.core
    let e := s.engine k
    let t := s.commitJob j qs
    (∀ v, t.slot v = if slotKey v = slotKey w then ({ (s.slot w).setG 4 (dbl e.nextNum) with lastJob := e.nextNum } : Slot).next else s.slot v) ∧
      (t.engine k).nextNum = e.nextNum + 1 ∧ t.ranges = (s.register (.job k e.nextNum) j.part j.pid qs).ranges ∧
      t.mem = s.mem ∧ t.stags = s.stags ∧ t.poison = s.poison := by
  subst hw
  rw [State.commitJob]
  dsimp only
  split
  · refine ⟨fun v => ?_, ?_, ?_, by simp [State.setEngine]; rfl, by simp [State.setEngine]; rfl, by simp [State.setEngine]; rfl⟩
    · rw [State.slot_of_slots (State.handClaim_frame _ _).2.2.2.2.1]
      simp [State.setEngine]
    · rw [(State.handClaim_job _ _).1]
      simp [State.engine, State.setEngine]
    · rw [(State.handClaim_job _ _).2]
      rfl
  · refine ⟨fun v => ?_, ?_, rfl, rfl, rfl, rfl⟩
    · simp [State.setEngine]
    · simp [State.engine, State.setEngine]

/-- The ranges that a waiting issue may meet: those of the operation that it joins. -/
def State.mayMeet (s : State) (k : Nat) : Issue → RangeOwner → Bool
  | .member _ => s.sameJoin k
  | _ => fun _ => false

/-- A waiting issue goes on. -/
def State.issue (s : State) (qs : List RangeReq) : Issue → State
  | .job j => s.commitJob j qs
  | .member m => s.joinMember m qs
  | .cert c => s.queueCert c qs

/-- What a member leaves that joins: itself in the operation, its slot parked, and its ranges (R144). -/
theorem State.joinMember_joins (s : State) {m : Member} (qs : List RangeReq) {w : Who} (hw : m.who = w) :
    let t := s.joinMember m qs
    (t.tile (tileOf w.core)).joining = (s.tile (tileOf w.core)).joining ++ [m] ∧ t.slot w = { s.slot w with park := .member } ∧
      t.ranges = (s.register (.member w) (s.slot w).part (s.slot w).pid qs).ranges ∧ s.SameMemory t ∧ s.OtherSlots t w := by
  subst hw
  refine ⟨?_, ?_, rfl, .of_eq rfl rfl rfl, fun v hv => ?_⟩
  · simp [State.joinMember, State.setPark]
  · simp [State.joinMember, State.setPark]
  · simp [State.joinMember, State.setPark, hv]

/-- What a check leaves that is queued: itself in the queue, its slot parked, and its ranges (R156). -/
theorem State.queueCert_queues (s : State) {c : Cert} (qs : List RangeReq) {w : Who} (hw : c.who = w) :
    let t := s.queueCert c qs
    (t.tile (tileOf w.core)).certs = (s.tile (tileOf w.core)).certs ++ [c] ∧ t.slot w = { s.slot w with park := .certify } ∧
      t.ranges = (s.register (.certify (tileOf w.core) w c.thread) (s.slot w).part (s.slot w).pid qs).ranges ∧
      s.SameMemory t ∧ s.OtherSlots t w := by
  subst hw
  refine ⟨?_, ?_, rfl, .of_eq rfl rfl rfl, fun v hv => ?_⟩
  · simp [State.queueCert, State.setPark]
  · simp [State.queueCert, State.setPark]
  · simp [State.queueCert, State.setPark, hv]

section
variable {s : State} {core slot n : Nat} {i : Issue} {cs qs : List RangeReq}
  (hp : (s.slot ⟨core, slot⟩).park = .room i cs qs n) (hr : s.coreRuns core = true)
  (hb : s.roomBehind (s.slot ⟨core, slot⟩).part (s.slot ⟨core, slot⟩).pid qs n = false)
include hp

theorem exec_rangeTableRoom_full (hf : s.rangesFit (s.slot ⟨core, slot⟩).part (s.slot ⟨core, slot⟩).pid qs = false) :
    exec (.rangeTableRoom core slot) s = .next s := by
  refine congrArg Host.Outcome.next ?_
  rw [hp]
  dsimp only
  rw [if_pos (by simp [hf])]

include hr hb

theorem exec_rangeTableRoom_fits (hf : s.rangesFit (s.slot ⟨core, slot⟩).part (s.slot ⟨core, slot⟩).pid qs = true)
    (hl : s.lockedRange (s.slot ⟨core, slot⟩).pid (s.mayMeet (tileOf core) i) cs = none) :
    exec (.rangeTableRoom core slot) s = .next (s.issue qs i) := by
  refine congrArg Host.Outcome.next ?_
  rw [hp]
  dsimp only
  rw [if_neg (by simp [hf, hr, hb])]
  cases i <;> (dsimp only [State.mayMeet] at hl ⊢; rw [hl]; rfl)

end

end Sys2Proof.Machine
end

section
/-! PROOFS.  O41: the gang's steps. -/

namespace Sys2Proof.Machine

/-! ### The gang's steps (R13, R65, R143, R144, R154, R161, R289, R291, R302) -/

section
variable {s : State} {k : Nat} (hv : (s.tile k).leaving = []) (hr : s.tileRuns k = true) (hn : (s.tile k).joining.length = 16)
  (hc : ∀ c, c < 16 → ∃ m ∈ (s.tile k).joining, m.who.core = 16 * k + c) (hs : ∀ m ∈ (s.tile k).joining, m.who.slot < 8)
  (hq : ((s.tile k).queue.filter (fun o => !o.started)).length < 4)
include hv hr hn hc hs hq

theorem gangJoin_joins (ha : ∀ m ∈ (s.tile k).joining, ∀ n ∈ (s.tile k).joining, m.agrees n) (hb : joinBad (s.tile k).joining = false) :
    ∃ t o, exec (.gangJoin k) s = .next t ∧ (t.tile k).queue = (s.tile k).queue ++ [o] ∧ (t.tile k).joining = [] ∧
      (t.tile k).gops = (s.tile k).gops + 1 ∧ o.seq = (s.tile k).gops + 1 ∧ o.num = (s.tile k).opNum ∧ o.started = false ∧ o.probed = false ∧
      o.members.map (fun m => m.who.core) = (List.range 16).map (fun c => 16 * k + c) ∧ (∀ m ∈ o.members, m ∈ (s.tile k).joining) ∧
      (∀ m ∈ (s.tile k).joining, o.fn = m.fn ∧ o.rb = m.rb ∧ o.imm = m.imm ∧ (m.fn = .mcovr → o.ra = m.ra)) ∧
      (∀ m ∈ (s.tile k).joining, (s.slot m.who).park = .member →
        (m.fn = .mcovp ∨ m.fn = .mcovr → t.slot m.who = { s.slot m.who with park := .arrayDone (s.tile k).opNum }) ∧
        (m.fn ≠ .mcovp → m.fn ≠ .mcovr → t.slot m.who = (s.slot m.who).next)) ∧
      (∀ r ∈ t.ranges, ∀ m ∈ (s.tile k).joining, r.owner ≠ .member m.who) ∧
      t.ranges.map (fun r => (r.id, r.table, r.lo, r.hi, r.write)) = s.ranges.map (fun r => (r.id, r.table, r.lo, r.hi, r.write)) ∧
      s.SameMemory t ∧ s.SameCores t ∧ s.OtherTiles t k := by
  obtain ⟨h, hh, tile, slots, owners, ranges, mem, cores, tiles⟩ := State.enqueueOp_joins hn hc hs
  have agree : membersAgree (s.tile k).joining = true := (membersAgree_iff _).mpr ha
  refine ⟨_, s.joinedOp k h, (exec_gangJoin hv hr hn hq).trans (by rw [agree, hb]; rfl), by rw [tile]; rfl, by rw [tile]; rfl, by rw [tile]; rfl,
    rfl, rfl, rfl, rfl, sortMembers_cores hn hc, fun m hm => (mem_sortMembers hn hc).mp hm, fun m hm => ?_, fun m hm park => ?_,
    owners, ranges, mem, cores, tiles⟩
  · obtain ⟨fn, rb, imm, _, ra⟩ := ha m hm h hh
    exact ⟨fn, rb, imm, ra⟩
  · rw [slots m hm park]
    exact ⟨fun late => if_pos late, fun notP notR => if_neg (not_or.mpr ⟨notP, notR⟩)⟩

omit hc hs in
/-- Members that do not agree, or rows that a joint test refuses, take the cause. -/
theorem exec_gangJoin_refuses : (membersAgree (s.tile k).joining = false → exec (.gangJoin k) s = .next (s.joinFails k .illegal)) ∧
    (membersAgree (s.tile k).joining = true → joinBad (s.tile k).joining = true → exec (.gangJoin k) s = .next (s.joinFails k .bounds)) := by
  rw [exec_gangJoin hv hr hn hq]
  exact ⟨fun h => by rw [h]; rfl, fun h h' => by rw [h, h']; rfl⟩

end

/-- Settles O41: MGANG and the release go by the slots in the gang, a join by whether its members agree and its rows fit, a departure
by trapAll over the slots it wakes, and room by the issue that waits for it. -/
theorem gangSteps : Obligations.GangSteps := by
  unfold Obligations.GangSteps
  intro s k core slot l x js w y windows agree total bad whole parked takes fails mine ms
  refine ⟨fun hl hv hr => ⟨?_, ?_, ?_⟩, l.holdsTile_iff k, ?_, ?_, ?_, ?_, ?_⟩
  · intro v pend enter
    obtain ⟨mem, others, me⟩ := State.pendingError_of_some (k := fun t => t.waitBoth fun u => u.mgangPark s.cur.core) hr pend enter
    exact ⟨_, exec_mgang hl hv, me, mem, others⟩
  · intro hu clear refused
    rw [exec_mgang_of_clear hl hv hr hu clear, State.mgangPark_refused (refused.imp_right (Or.imp_right fun h => ⟨l, h⟩))]
  · intro apart launch held hu clear
    refine ⟨_, (exec_mgang_of_clear hl hv hr hu clear).trans (by rw [State.mgangPark_parks apart launch held]), ?_, ?_⟩
    · exact s.onlySlot_setMe { s.me with park := .gang }
    · simp [State.setPark, State.me]
  · intro hr hv hj hm hn hc
    obtain ⟨t, run, released, tile, mem, tiles, ranges⟩ := exec_mgangRelease_releases hr hv hj hm hn hc
    obtain ⟨queue, rest⟩ := Prod.mk.inj tile
    obtain ⟨live, rest⟩ := Prod.mk.inj rest
    obtain ⟨accs, gops⟩ := Prod.mk.inj rest
    exact ⟨t, run, released, gops, queue, live, accs, mem, tiles, ranges⟩
  · exact fun _ hv hn => exec_mgangRelease_of_few hv hn
  · rintro hr hv ⟨hn, hc, hs⟩
    refine ⟨fun hq => ⟨fun ha hb => ?_, fun ha hp ht => ?_, fun ha hb hp ht => ?_⟩, exec_gangJoin_waits hv⟩
    · exact gangJoin_joins hv hr hn hc hs hq ha (Bool.eq_false_iff.mpr fun e => hb ((joinBad_iff _).mp e))
    · exact ⟨_, (exec_gangJoin_refuses hv hr hn hq).1 (Bool.eq_false_iff.mpr fun e => ha ((membersAgree_iff _).mp e)),
        State.joinFails_takes hr hn hc hs .illegal hp ht⟩
    · exact ⟨_, (exec_gangJoin_refuses hv hr hn hq).2 ((membersAgree_iff _).mpr ha) ((joinBad_iff _).mpr hb),
        State.joinFails_takes hr hn hc hs .bounds hp ht⟩
  · intro hk hr hv hj hm hn ht hg
    exact exec_gangLeave hk hr hv hj hm hn ht hg
  · intro i cs qs n hp hr hb
    refine ⟨exec_rangeTableRoom_full hp, fun hf => ⟨?_, ?_, ?_⟩⟩
    · rintro m rfl hw hl
      exact ⟨_, exec_rangeTableRoom_fits hp hr hb hf hl, s.joinMember_joins qs hw⟩
    · rintro c rfl hw hl
      exact ⟨_, exec_rangeTableRoom_fits hp hr hb hf hl, s.queueCert_queues qs hw⟩
    · rintro j rfl hw hl
      obtain ⟨slots, number, ranges, mem, stags, poison⟩ := s.commitJob_commits qs hw
      refine ⟨_, exec_rangeTableRoom_fits hp hr hb hf hl, ?_, ?_, ?_, number, ranges, .of_eq mem stags poison,
        fun v hv => (slots v).trans (if_neg hv)⟩
      all_goals
        rw [State.issue, slots w, if_pos rfl]
      · exact y.wroteG_setG 4 _
      · rfl
      · rfl

end Sys2Proof.Machine
end

section
/-! PROOFS.  O49: a reservation whose record's page is held counts a fault on its launch (R340, R342, R343, R362). -/

namespace Sys2Proof.Machine

/-! ### The hardware fields of a record whose page is held (R343, R362) -/

theorem State.post_launches (s : State) (p id : Nat) (r : FaultRec) :
    (s.post p id r).launches = (s.updLaunch id (fun l => { l with faults := min (2 ^ 32 - 1) (l.faults + 1) })).launches := by
  unfold State.post
  dsimp only
  split
  · rfl
  · split <;> simp

/-- A page that waits to be moved asks the device OS for it, and the record that asks counts on the launch (R342, R355, R362): fields
published behind such a page count a fault. -/
theorem State.faults_publish_of_held {s : State} {id va : Nat} {l : Launch} (hl : s.launch? id = some l) (hi : l.id = id)
    (hn : ∀ m ∈ s.net, m.holdsFields l.pid (l.addr + 128) = false)
    (hh : s.vspan l.part l.pid true false (l.addr + 128) 24 = .held true va) :
    ((s.publish id).launch? id).map (fun k => k.faults) = some (min (2 ^ 32 - 1) (l.faults + 1)) := by
  have fields : s.net.find? (fun m => m.holdsFields l.pid (l.addr + 128)) = none := by simpa using hn
  unfold State.publish
  rw [hl]
  dsimp only
  rw [hh]
  dsimp only
  rw [State.holdFields, fields]
  have launches (u : State) (w : Who) (b : Body) : (u.send w 0 b).launch? id = u.launch? id := rfl
  have posted (r : FaultRec) : (s.post l.part id r).launch? id = some { l with faults := min (2 ^ 32 - 1) (l.faults + 1) } := by
    rw [State.launch?, State.post_launches, ← State.launch?, State.launch?_updLaunch (fun l => { l with faults := min (2 ^ 32 - 1) (l.faults + 1) })
      fun _ => rfl, hl]
    rfl
  dsimp only
  rw [launches, State.askHeld, if_pos (by rfl), State.askMigration, hi, posted]
  rfl

/-! ### SELECT_AND_RESERVE (R340) -/

/-- The state of a partition that reserved a unit for a launch, its record not yet published. -/
def State.reserved (s : State) (p first : Nat) (l : Launch) : State :=
  { s.setPart p { s.part p with placing := some { launch := l.id, first := first, cores := domainCores l.outer.1, prepared := false } } with
    cached := false }.updLaunch l.id fun k => { k with state := .placing, head := true, held := k.held ++ [(first, domainCores l.outer.1)] }

theorem exec_selectAndReserve {s : State} {p first : Nat} {l : Launch} (hp : (s.part p).placing = none) (hk : s.pick p = some l)
    (hc : l.checked = true) (hr : s.rereadDone p = true) (ho : s.placementOn p = true) (hu : s.unitTaken l first = true) :
    exec (.selectAndReserve p first) s = .next ((s.reserved p first l).publish l.id) := by
  refine congrArg Host.Outcome.next ?_
  rw [hp, hk]
  dsimp only
  rw [if_neg (by simp [hc, hr, ho, hu])]
  rfl

/-! ### A launch whose record's page is held -/

/-- A launch of one super-group, checked, at the head of its queue; its record lies at 0x8000001000. -/
def headLaunch : Launch :=
  { id := 1, addr := 0x8000001000, part := 0, pid := 1, entry := 0x8000000000, args := 0, done := 0, signal := 0, dep := 0, prio := 0,
    recPart := 0, zero := false, det := false, levels := [{ count := 1, rsv := 0, scope := 4, domain := 4, kind := 1 }], badField := none,
    state := .queued, eprio := 0, enq := 0, own := 0, issuer := none, since := none, checked := true, gangs := 0, held := [], started := 0,
    start := 0, faults := 0, sweeps := 0, lastSums := none, status := 0, detail := 0 }

/-- The leaf of a readable and writable page of 1 GiB that is host-resident and marked to be moved (R361, R362). -/
def heldLeaf : Nat := 1 + 2 + 8 + 16 + 2 ^ 11 + 2 ^ 12

/-- The part with that launch alone, its record's page held. -/
def heldRecord : State :=
  { ((State.reset.withFetchWord 32 0).setNat (devKey 0x1000000) 8 heldLeaf).setQueue 0 0 [1] with launches := [headLaunch] }

/-- Whether a span waits for a page that asks to be moved. -/
def Span.asks : Span → Bool
  | .held true _ => true
  | _ => false

theorem Span.asks_iff {r : Span} : r.asks = true ↔ ∃ va, r = .held true va := by
  rcases r with _ | _ | ⟨_ | _, _⟩ | _ <;> simp [Span.asks]

/-- The launch is the one that its partition serves, and its partition and a unit are free for it. -/
theorem heldRecord_ready : (heldRecord.part 0).placing = none ∧ heldRecord.pick 0 = some headLaunch ∧ heldRecord.launch? 1 = some headLaunch ∧
    (∀ k ∈ heldRecord.launches, k.part = 0 → k.state = .waitDep → k.due = false) ∧ (heldRecord.part 0).valid = true ∧
    (heldRecord.part 0).run = .running ∧ heldRecord.unitIn 0 headLaunch.outer.1 0 = true ∧ (∀ k ∈ heldRecord.launches, k.held = []) ∧
    heldRecord.sys.withheld = [] := by
  decide +kernel

/-- Its reservation finds the page of its hardware fields held. -/
theorem heldRecord_reserved : heldRecord.rereadDone 0 = true ∧ heldRecord.placementOn 0 = true ∧ heldRecord.unitTaken headLaunch 0 = true ∧
    (heldRecord.reserved 0 0 headLaunch).net = [] ∧
    (heldRecord.reserved 0 0 headLaunch).launch? 1 = some { headLaunch with state := .placing, head := true, held := [(0, 4096)] } ∧
    ((heldRecord.reserved 0 0 headLaunch).vspan 0 1 true false 0x8000001080 24).asks = true := by
  decide +kernel

/-- The reservation counts a fault on the launch. -/
theorem heldRecord_counts : ∃ t, exec (.selectAndReserve 0 0) heldRecord = .next t ∧ (t.launch? 1).map (fun k => k.faults) = some 1 := by
  obtain ⟨placing, pick, _⟩ := heldRecord_ready
  obtain ⟨reread, on, unit, net, launch, held⟩ := heldRecord_reserved
  obtain ⟨va, held⟩ := Span.asks_iff.mp held
  exact ⟨_, exec_selectAndReserve placing pick rfl reread on unit,
    State.faults_publish_of_held launch rfl (by rw [net]; exact fun _ h => absurd h List.not_mem_nil) held⟩

/-- Refutes O49: SELECT_AND_RESERVE writes the hardware fields of the launch's record; where the page of the record is host-resident and
marked to be moved, the record that asks for the page counts a fault on the launch (R342, R362), so more than its state, head and held changes. -/
theorem not_launchPlacement : ¬ Obligations.LaunchPlacement := by
  unfold Obligations.LaunchPlacement
  intro claim
  obtain ⟨placing, pick, launch, reread, valid, run, unit, held, withheld⟩ := heldRecord_ready
  obtain ⟨t, run, _, reserved, _⟩ := ((claim heldRecord 0 0 0 [] headLaunch ⟨0, 0, 0, false, 0⟩ []).1 placing pick launch).1 rfl reread valid run rfl unit
    (fun k hk h hh => by rw [held k hk] at hh; exact absurd hh List.not_mem_nil) (by rw [withheld]; exact fun _ h => absurd h List.not_mem_nil) nofun
  obtain ⟨u, run', counted⟩ := heldRecord_counts
  obtain rfl : t = u := Host.Outcome.next.inj (run.symm.trans run')
  rw [show headLaunch.id = 1 from rfl] at reserved
  rw [reserved] at counted
  exact absurd counted (by decide)

end Sys2Proof.Machine
end

section
/-! PROOFS.  O10: the causes that a memory form finds at issue (R37-R39, R44, R200). -/

namespace Sys2Proof.Machine

/-! ### The windows of S-space (R37, R38, R44) -/

theorem winOf_lt (a : Nat) : winOf a < 8 := Nat.mod_lt _ (by decide)

theorem windowSpan_eq_spanEnd : ∀ w, w < 8 → windowSpan w = spanEnd w := by decide

/-- The reserved area in whole elements of a window: two bytes each through BF16, one through the others. -/
theorem touchesReserved_iff (ea n : Nat) : touchesReserved ea n = true ↔ meetsReserved ea n := by
  rw [meetsReserved]
  unfold touchesReserved
  dsimp only
  split
  · exact decide_eq_true_iff
  · split
    · exact iff_of_false Bool.false_ne_true not_false
    · rw [Nat.add_mul]
      exact decide_eq_true_iff

/-! ### Steps 1 and 2 of R200 -/

theorem State.accessCause_misaligned {s : State} {x : Slot} {ea : Word} {n : Nat} {allow : Nat → Bool} (h : ea.toNat % n ≠ 0) :
    s.accessCause x ea n allow = some .align := if_pos h

theorem State.accessCause_high {s : State} {x : Slot} {ea : Word} {n : Nat} {allow : Nat → Bool} (ha : ea.toNat % n = 0)
    (h : 2 ^ 56 ≤ ea.toNat) : s.accessCause x ea n allow = some .access := by
  rw [State.accessCause, if_neg (not_not_intro ha), if_pos h]

theorem State.accessCause_vspace {s : State} {x : Slot} {ea : Word} {n : Nat} {allow : Nat → Bool} (ha : ea.toNat % n = 0)
    (hl : 2 ^ 39 ≤ ea.toNat) (hh : ea.toNat < 2 ^ 56) : s.accessCause x ea n allow = none := by
  rw [State.accessCause, if_neg (not_not_intro ha), if_neg (Nat.not_le.mpr hh), if_pos hl]

/-- What stops an aligned access of S-space: the window, its span, the partition, the reserved area, or the scale byte
of its OL4X element (R37-R39, R44). -/
def State.spaceStops (s : State) (x : Slot) (ea n : Nat) (allow : Nat → Bool) : Prop :=
  allow (winOf ea) = false ∨ windowSpan (winOf ea) ≤ offOf ea ∨ s.inPart x.part (homeOf ea) = false ∨
    (x.mode = .user ∧ touchesReserved ea n = true) ∨ (winOf ea = 5 ∧ reservedBase ≤ x.csr.olscale.toNat + elemIndex ea / 32)

theorem State.accessCause_stopped {s : State} {x : Slot} {ea : Word} {n : Nat} {allow : Nat → Bool} (ha : ea.toNat % n = 0)
    (hl : ea.toNat < 2 ^ 39) (h : s.spaceStops x ea.toNat n allow) : s.accessCause x ea n allow = some .access := by
  rw [State.accessCause, if_neg (not_not_intro ha), if_neg (by omega), if_neg (by omega)]
  rcases h with h | h | h | h | h <;> simp [h]

theorem State.accessCause_clear {s : State} {x : Slot} {ea : Word} {n : Nat} {allow : Nat → Bool} (ha : ea.toNat % n = 0)
    (hl : ea.toNat < 2 ^ 39) (h : ¬ s.spaceStops x ea.toNat n allow) : s.accessCause x ea n allow = none := by
  simp only [State.spaceStops, not_or] at h
  obtain ⟨window, span, part, user, scale⟩ := h
  rw [State.accessCause, if_neg (not_not_intro ha), if_neg (by omega), if_neg (by omega)]
  simp only [not_and, Bool.not_eq_true, Bool.not_eq_false, not_le] at window span part user scale
  rw [if_neg (by simpa using window), if_neg (Nat.not_le.mpr span), if_neg (by simpa using part)]
  rw [if_neg (by simpa using user), if_neg (by simpa using scale)]

/-! ### The memory forms (R199, R200, R209, R212, R217, R263) -/

theorem State.exec_of_memoryForm {s : State} {d a b : BitVec 5} {v : BitVec 4} {r z : BitVec 1} {o : BitVec 12} :
    ∀ p ∈ s.memoryForms d a b v r z o, ∃ op dest rlx ff, exec p.instr s = .next (s.access op p.ea p.size dest rlx ff p.allow) := by
  intro p hp
  simp only [State.memoryForms, List.mem_append, List.mem_cons, List.not_mem_nil, or_false, or_assoc] at hp
  repeat' (rcases hp with rfl | hp)
  all_goals exact ⟨_, _, _, _, rfl⟩

/-- The windows of the table of R200, and the model's tests of a window. -/
def windowTests : List (List Nat × (Nat → Bool)) :=
  [([0], winRaw), ([0, 1, 2, 3, 4, 5, 6, 7], winAny), ([0, 1, 2, 3, 4, 6, 7], winStore), ([0, 1], winTwo)]

theorem windowTests_agree : ∀ p ∈ windowTests, ∀ w, w < 8 → p.2 w = p.1.contains w := by decide

theorem State.windows_of_memoryForm {s : State} {d a b : BitVec 5} {v : BitVec 4} {r z : BitVec 1} {o : BitVec 12} :
    ∀ p ∈ s.memoryForms d a b v r z o, (p.windows, p.allow) ∈ windowTests := by
  intro p hp
  simp only [State.memoryForms, List.mem_append, List.mem_cons, List.not_mem_nil, or_false, or_assoc] at hp
  repeat' (rcases hp with rfl | hp)
  all_goals simp [windowTests]

theorem State.allow_of_memoryForm {s : State} {d a b : BitVec 5} {v : BitVec 4} {r z : BitVec 1} {o : BitVec 12} {p : MemAccess}
    (hp : p ∈ s.memoryForms d a b v r z o) {w : Nat} (hw : w < 8) : p.allow w = p.windows.contains w :=
  windowTests_agree _ (State.windows_of_memoryForm p hp) w hw

/-- A memory form that finds a cause at issue takes it at its PC, with its address. -/
theorem State.exec_takes {s : State} {d a b : BitVec 5} {v : BitVec 4} {r z : BitVec 1} {o : BitVec 12} {p : MemAccess}
    (hp : p ∈ s.memoryForms d a b v r z o) {c : Cause} (h : s.accessCause s.me p.ea p.size p.allow = some c) :
    exec p.instr s = .next (s.trapAt s.cur c p.ea) := by
  obtain ⟨op, dest, rlx, ff, run⟩ := State.exec_of_memoryForm p hp
  rw [run, State.access, h]
  rfl

/-- Settles O10: every memory form is an access of its address, size and windows, and steps 1 and 2 of R200 go by
`State.spaceStops`. -/
theorem accessChecks : Obligations.AccessChecks := by
  unfold Obligations.AccessChecks
  intro s d a b v r z o p hp ea takes stops
  have stops_iff : stops ↔ s.spaceStops s.me p.ea.toNat p.size p.allow := by
    rw [State.spaceStops, State.allow_of_memoryForm hp (winOf_lt _), windowSpan_eq_spanEnd _ (winOf_lt _), touchesReserved_iff]
    rfl
  refine ⟨fun h => ?_, fun ha h => ?_, fun ha hl h => ?_, fun ha hh h => ?_⟩
  · exact State.exec_takes hp (State.accessCause_misaligned h)
  · exact State.exec_takes hp (State.accessCause_high ha h)
  · exact State.exec_takes hp (State.accessCause_stopped ha hl (stops_iff.mp h))
  · by_cases hl : ea < 2 ^ 39
    · exact State.accessCause_clear ha hl (fun hs => h hl (stops_iff.mpr hs))
    · exact State.accessCause_vspace ha (Nat.le_of_not_lt hl) hh

end Sys2Proof.Machine
end

section
/-! PROOFS.  O37: CBINIT in SUPER mode on an image beyond the populated span of window 0 (R38, R44, R254). -/

namespace Sys2Proof.Machine

/-- CBINIT of an aligned image that does not lie RAW in the partition takes ACCESS (R254). -/
theorem exec_cbinit_not_here {s : State} {a : BitVec 5} {n : BitVec 4} (hl : isLarge s.cur.core = false) (ha : (s.g a).toNat % 16 = 0)
    (h : s.imageHere (s.g a).toNat = false) : exec (.cbinit a n) s = .next (s.trapAt s.cur .access (s.g a)) := by
  change Host.Outcome.next (s.smallOnly _ _) = _
  rw [State.smallOnly_of_small hl]
  simp only [ha, h, ne_eq, not_true, if_false, Bool.not_false, if_true]
  rfl

/-- A SUPER-mode slot of a partition, whose g1 names the raw offset 0x20000 of its own core, the first that no scratchpad
byte answers; a buffer image of one slot of 64 bytes stands there. -/
def imagePastSpan : State :=
  { State.reset with
    slots := [(0, { (Slot.reset.setG 1 0x20000) with occ := true, mode := .super })]
    parts := [(0, { Partition.reset with valid := true, sgs := 1 })]
    mem := [(0x20008, 64), (0x2000E, 1)] }

/-- The image and the place that it names pass every test that O37 puts. -/
theorem imagePastSpan_ready : imagePastSpan.me.relaxed = [] ∧ imagePastSpan.g 1 = 0x20000 ∧
    imagePastSpan.inPart imagePastSpan.me.part 0 = true ∧ imagePastSpan.me.mode = .super ∧ imagePastSpan.Readable 0 0x20000 16 ∧
    imagePastSpan.nat 0x20000 8 = 0 ∧ imagePastSpan.nat 0x20008 4 = 64 ∧ imagePastSpan.nat 0x2000E 2 = 1 ∧
    imagePastSpan.buf 0 0 = CircBuf.reset ∧ imagePastSpan.imageHere 0x20000 = false := by
  unfold State.Readable
  decide +kernel

/-- The cause that its CBINIT takes leaves the buffer as it is. -/
theorem imagePastSpan_traps : (imagePastSpan.trapAt imagePastSpan.cur .access 0x20000).buf 0 0 = CircBuf.reset := by
  decide +kernel

/-- Refutes O37: its premises bound the image by the reserved area in USER mode only; in SUPER mode an image at raw offset 0x20000, past
the populated span of the window (R38), takes ACCESS and no buffer is set. -/
theorem not_circularBuffers : ¬ Obligations.CircularBuffers := by
  unfold Obligations.CircularBuffers
  intro claim
  obtain ⟨relaxed, g, part, mode, readable, base, size, count, buf, notHere⟩ := imagePastSpan_ready
  have raises := exec_cbinit_not_here (s := imagePastSpan) (a := 1) (n := 0) rfl (by rw [g]; decide) (by rw [g]; exact notHere)
  have sets := (claim imagePastSpan 1 0 rfl).1 relaxed
  rw [g] at sets raises
  rw [show rawKey (0x20000 : Word).toNat = 0x20000 from rfl] at sets
  obtain ⟨t, run, image, -⟩ := (sets rfl (by decide) part (by rw [mode]; exact nofun) readable (by rw [base]) (by rw [size])
    (by rw [size]) (by rw [size]; decide) (by rw [count]) (by rw [count]; decide) (by rw [base]; decide)
    (by rw [base, size, count]; decide) (by rw [base]; rfl)).1 (by exact congrArg CircBuf.filling buf) (by exact congrArg CircBuf.acquired buf)
  obtain rfl : t = _ := Host.Outcome.next.inj (run.symm.trans raises)
  have set : CircBuf.reset.count = imagePastSpan.nat 0x2000E 2 := congrArg CircBuf.count (imagePastSpan_traps.symm.trans image)
  rw [count] at set
  exact absurd set (by decide)

end Sys2Proof.Machine
end

section
/-! PROOFS.  O39: the resume of a job that waited for a page (R358, R362). -/

namespace Sys2Proof.Machine

/-- A suspended job without a record: resumed, it waits for the live set and for no page (R253, R358). -/
theorem exec_jobResume_of_no_record {s : State} {k n : Nat} {j : Job} (hr : s.coreRuns (16 * k) = true)
    (hs : (s.engine k).suspendedJob n = some j) (hj : j.jrec = 0) : exec (.jobResume k n) s = .next (s.setEngine k
      { s.engine k with suspended := (s.engine k).suspended.erase j ++ [{ j with resumed := true, holds := [] }] }) := by
  have free : s.recordWaits k j 0 64 = false := by simp [State.recordWaits, hj]
  have calm : ∀ w, s.recordHold j w 0 64 = none := fun w => by simp [State.recordHold, hj]
  have unread : s.readRecord j = none := by simp [State.readRecord, State.engineSpan, hj]
  have unwritten : s.writeRecord j 20 (leBytes 1 2) = s := if_pos hj
  change execJobResume k n s = _
  rw [execJobResume, State.onEngine, if_pos hr]
  simp [hs, free, calm, unread, unwritten]

/-- Job 1 of tile 0, suspended, which has noted a page that it waits for. -/
def holdingJob : Job :=
  { num := 1, regs := Vector.replicate 12 0, idx := [], arrays := [], dblk := 0, cb := none, barrier := 0, jrec := 0, who := ⟨0, 0⟩,
    pid := 0, part := 0, launch := 0, filled := 0, filling := none, cursor := 0, valid := 0, moved := 0, flags := 0, faddr := 0,
    cause := 0, holds := [(0, 0)], resumed := false }

/-- The part with that job alone. -/
def holdingEngine : State :=
  { State.reset with tiles := [(0, { Tile.reset with engine := { Engine.reset with suspended := [holdingJob] } })] }

/-- Its engine runs, and the job may be resumed. -/
theorem holdingEngine_ready : holdingEngine.coreRuns 0 = true ∧ (holdingEngine.engine 0).suspendedJob 1 = some holdingJob := by
  decide +kernel

/-- Refutes O39: a resumed job has given up the pages that it waited for (the walk begins anew, R362), where the statement
keeps them: it says that only `resumed` changes. -/
theorem not_engineJobs : ¬ Obligations.EngineJobs := by
  unfold Obligations.EngineJobs
  intro claim
  obtain ⟨runs, suspended⟩ := holdingEngine_ready
  obtain ⟨-, -, -, -, -, -, -, -, -, -, -, -, resume, -⟩ := claim holdingEngine 0 1 0 holdingJob ⟨0, .tile 0, 0, 0, false, .job 0 0⟩ runs
  obtain ⟨t, run, jobs, -⟩ := (resume suspended).1 rfl
  obtain rfl : t = _ := Host.Outcome.next.inj (run.symm.trans (exec_jobResume_of_no_record runs suspended rfl))
  revert jobs
  decide +kernel

end Sys2Proof.Machine
end

section
/-! PROOFS.  O11: an ACAS that fails on a TAGS page (R48, R95, R209). -/

namespace Sys2Proof.Machine

/-- An ACAS of four bytes of host memory on a TAGS page: it expects 1, where the bytes hold 0. -/
def failingCas : Access :=
  { op := .atomic 9 5 1, ea := 2 ^ 39, size := 4, dest := .none, relaxed := false, ff := false, fpctl := 0, winsig := 0, olscale := 0,
    super := false, pid := 0, part := 0, launch := 0, stage := .edge (2 ^ 61) (some (2 ^ 61 + 64)) }

/-- Its message. -/
def casMessage : Msg := { id := 1, src := ⟨0, 0⟩, rd := 0, body := .access failingCas }

/-- The part with that message alone under way. -/
def casAtHost : State := { State.reset with net := [casMessage] }

/-- The host performs it now: nothing that it meets is locked, poisoned, fenced off or on its way to the ordering point. -/
theorem casAtHost_ready : casAtHost.msg? 1 = some casMessage ∧ casAtHost.keyExists (2 ^ 61) = true ∧
    casAtHost.inOrder casMessage = true ∧ casAtHost.edgeServes casMessage (2 ^ 61) = true ∧
    blocksStore (casAtHost.vMeets 0 (2 ^ 39) (2 ^ 39 + 4)) = false ∧ casAtHost.anyPoison (2 ^ 61) 4 = false ∧
    casAtHost.anyPoison (2 ^ 61 + 64) 1 = false ∧ casAtHost.postedMeets (2 ^ 61) 4 = false ∧ casAtHost.nat (2 ^ 61) 4 = 0 := by
  decide +kernel

/-- It is answered at once: an ACAS that fails writes no byte, so no shadow byte either. -/
theorem casAtHost_answered : ∃ t, exec (.edgeCoreServe 1) casAtHost = .next t ∧
    t.msg? 1 = some { casMessage with body := .access { failingCas with stage := .answered (.data [(0, 0)] 0) } } :=
  ⟨_, rfl, by decide +kernel⟩

/-- Refutes O11: of an ACAS that fails on a TAGS page the statement says that its next stage is the write of the shadow bytes, as
after a write (R95); the model answers it at once, since an ACAS that fails writes nothing (R209). -/
theorem not_accessesAtMemory : ¬ Obligations.AccessesAtMemory := by
  unfold Obligations.AccessesAtMemory
  intro claim
  obtain ⟨message, exists_, order, serves, open_, clean, cleanShadow, free, old⟩ := casAtHost_ready
  obtain ⟨-, -, cas, -⟩ := claim.2 casAtHost 1 casMessage failingCas (2 ^ 61) (some (2 ^ 61 + 64)) message rfl rfl exists_ order serves rfl
    (by decide) open_ clean (fun j hj => Option.some.inj hj ▸ cleanShadow) (fun fenced => absurd fenced (by decide))
  obtain ⟨t, run, -, -, -, shadow, -⟩ := (cas 5 1 rfl (.inr free) (.inl rfl)).2 (by
    change BitVec.ofNat 32 (casAtHost.nat (2 ^ 61) 4) ≠ (1 : Word).setWidth 32
    rw [old]
    decide)
  obtain ⟨u, run', answered⟩ := casAtHost_answered
  obtain rfl : t = u := Host.Outcome.next.inj (run.symm.trans run')
  rw [answered] at shadow
  exact absurd shadow (by simp)

end Sys2Proof.Machine
end

section
/-! PROOFS.  Accesses in the thread's own super-group: what O4 and O8 share (R127, R200, R202, R204). -/

namespace Sys2Proof.Machine

/-! ### From issue to the bank (R200, R202) -/

theorem State.InBank.small {s : State} {ea : Word} {n : Nat} {allow : Nat → Bool} (h : s.InBank ea n allow) : isLarge s.cur.core = false := by
  have near := h.near
  simp only [nearBank, Bool.and_eq_true, Bool.not_eq_true'] at near
  exact near.1

/-- An access that its own super-group performs at once completes with the bank's answer. -/
theorem State.access_of_inBank {s : State} {op : AccOp} {ea : Word} {n : Nat} {dest : Dest} {allow : Nat → Bool} (h : s.InBank ea n allow) :
    let a := s.mkAccess op ea n dest false false .bank
    s.access op ea n dest false false allow = (s.serveBank s.cur a).1.finishAccess a (s.serveBank s.cur a).2 := by
  have stage : s.firstStage ea = .bank := by rw [State.firstStage, if_neg (Nat.not_le.mpr h.space), h.near, if_pos rfl]
  rw [State.access, h.passes]
  dsimp only
  rw [stage, if_neg Bool.false_ne_true, if_neg Bool.false_ne_true, State.waitRelaxed_of_nil h.relaxed]
  exact State.perform_of_bank h.small rfl h.runs rfl

/-- The window of an access that passes its checks in S-space is one that its form is allowed. -/
theorem State.InBank.allowed {s : State} {ea : Word} {n : Nat} {allow : Nat → Bool} (h : s.InBank ea n allow) :
    allow (winOf ea.toNat) = true := by
  by_contra hw
  have space := h.space
  have passes := h.passes
  by_cases ha : ea.toNat % n = 0
  · rw [State.accessCause_stopped ha space (.inl (Bool.not_eq_true _ ▸ hw))] at passes
    cases passes
  · rw [State.accessCause_misaligned ha] at passes
    cases passes

/-! ### The checks of step 4 (R200) -/

/-- The operations of the Vesper unit and of the task counters, which have checks of their own. -/
def AccOp.unit : AccOp → Bool
  | .syncInit _ => true
  | .syncMode _ => true
  | .taskInit _ => true
  | _ => false

theorem State.serveBank_eq {s : State} {w : Who} {a : Access} (h : a.op.unit = false) : s.serveBank w a =
    if a.op.writes && (s.spans a).any (fun p => s.liveTouch (homeOf a.ea) p.1 p.2 || s.queuedTouch (homeOf a.ea) p.1 p.2) then
      (s, .fault .sync (dbl a.ea))
    else
      let rs := (s.spans a).flatMap (fun p => s.spadMeets (spadKey (homeOf a.ea) p.1) (spadKey (homeOf a.ea) p.1 + p.2))
      if (if a.op.writes then blocksStore rs else blocksLoad rs) then (s, .fault .rangeLocked (dbl a.ea))
      else if (s.spans a).any (fun p => s.poisonStops (spadKey (homeOf a.ea) p.1) p.2 a.op) then (s, .fault .poison (dbl a.ea))
      else s.bankPerform a := by
  obtain ⟨op, _⟩ := a
  cases op
  case syncInit | syncMode | taskInit => cases h
  all_goals rfl

theorem blocksLoad_flatMap {α : Type} (l : List α) (f : α → List RangeEntry) :
    blocksLoad (l.flatMap f) = l.any (fun p => blocksLoad (f p)) := by
  simp [blocksLoad, List.any_flatMap]

/-- An operation that reads bytes with no WRITE range and no poison is performed. -/
theorem State.serveBank_of_readable {s : State} {w : Who} {a : Access} (hu : a.op.unit = false) (hw : a.op.writes = false)
    (h : ∀ p ∈ s.spans a, s.Readable (homeOf a.ea) p.1 p.2) : s.serveBank w a = s.bankPerform a := by
  have poison : ∀ k n, s.poisonStops k n a.op = s.anyPoison k n := fun k n => by
    revert hw
    cases a.op
    case store | vstore | xcclr => exact nofun
    all_goals exact fun _ => rfl
  rw [State.serveBank_eq hu]
  simp only [hw, Bool.false_and, Bool.false_eq_true, if_false, blocksLoad_flatMap, poison]
  rw [if_neg, if_neg]
  · exact fun hp => by
      obtain ⟨p, hp, bad⟩ := List.any_eq_true.mp hp
      exact Bool.false_ne_true ((h p hp).2.symm.trans bad)
  · exact fun hp => by
      obtain ⟨p, hp, bad⟩ := List.any_eq_true.mp hp
      exact Bool.false_ne_true ((h p hp).1.symm.trans bad)

/-- The span of an access through RAW or TAGGED (R38). -/
theorem State.spans_of_raw {s : State} {a : Access} (h : winOf a.ea ≤ 1) : s.spans a = [(offOf a.ea, a.size)] := if_pos h

/-- An operation that writes unlocked bytes, none of which its poison check stops, is performed. -/
theorem State.serveBank_of_unlocked {s : State} {w : Who} {a : Access} (hu : a.op.unit = false) (hw : a.op.writes = true)
    (hr : winOf a.ea ≤ 1) (h : s.Unlocked (homeOf a.ea) (offOf a.ea) a.size)
    (hp : s.poisonStops (spadKey (homeOf a.ea) (offOf a.ea)) a.size a.op = false) : s.serveBank w a = s.bankPerform a := by
  obtain ⟨live, queued, range⟩ := h
  rw [State.serveBank_eq hu, State.spans_of_raw hr]
  simp [hw, live, queued, range, hp]

/-! ### A load's end (R201, R204) -/

theorem State.finishAccess_load {s : State} {a : Access} {sg : Bool} {d : BitVec 5} (hl : isLarge s.cur.core = false)
    (ho : a.op = .load sg) (hd : a.dest = .general d) (ws : List (W32 × Tag)) :
    s.finishAccess a (.data ws 0) = s.result d (loadValue a.size sg ws) := by
  simp [State.finishAccess, ho, hd, hl, Slot.deliver, State.result]

end Sys2Proof.Machine
end

section
/-! PROOFS.  O4: scalar loads; the values that windows 2 to 7 read (R38, R39, R73, R77, R78). -/

namespace Sys2Proof.Machine

/-! ### A rounding to FP32 that loses no bits (R68, R70) -/

/-- A magnitude with no bits below 2^q is cut to a multiple of 2^q without loss. -/
theorem cutTo_exact {n : Bool} {m : Nat} {e q : Int} (h : 2 ^ (q - e).toNat ∣ m) :
    ∃ k, cutTo .rne n m e q false = (k, false) ∧ k * 2 ^ (q - e).toNat = m * 2 ^ (e - q).toNat := by
  by_cases hq : q ≤ e
  · refine ⟨m * 2 ^ (e - q).toNat, by simp [cutTo, hq], ?_⟩
    rw [Int.toNat_of_nonpos (by omega : q - e ≤ 0), Nat.pow_zero, Nat.mul_one]
  · obtain ⟨c, rfl⟩ := h
    refine ⟨c, ?_, ?_⟩
    · have half : ¬ 2 ^ ((q - e).toNat - 1) = 0 := (Nat.two_pow_pos _).ne'
      simp [cutTo, hq, roundUp, Nat.mul_div_cancel_left c (Nat.two_pow_pos _), Ne.symm half]
    · rw [Int.toNat_of_nonpos (by omega : e - q ≤ 0), Nat.pow_zero, Nat.mul_one, Nat.mul_comm]

/-- The fields of an FP32 encoding (R68). -/
theorem f32_fields {n : Bool} {E F : Nat} (hE : E < 256) (hF : F < 2 ^ 23) :
    f32.sign (f32.signBit n + (E * 2 ^ 23 + F)) = n ∧ f32.expField (f32.signBit n + (E * 2 ^ 23 + F)) = E ∧
      f32.frac (f32.signBit n + (E * 2 ^ 23 + F)) = F := by
  cases n <;> simp only [Fmt.sign, Fmt.expField, Fmt.frac, Fmt.signBit, nbit, nfield, f32, beq_eq_false_iff_ne, beq_iff_eq, if_true,
    Bool.false_eq_true, if_false] <;> omega

theorem f32_isFinite_of_exponent {x : Nat} (h : f32.expField x < 255) : f32.isFinite x = true := bne_iff_ne.mpr (Nat.ne_of_lt h)

theorem f32_value_of_exponent {x : Nat} (h : f32.expField x < 255) : f32.value x =
    if f32.expField x = 0 then .fin (f32.sign x) (f32.frac x) (-149)
    else .fin (f32.sign x) (2 ^ 23 + f32.frac x) ((f32.expField x : Int) - 150) := by
  have top : (f32.expField x == f32.top) = false := beq_eq_false_iff_ne.mpr (Nat.ne_of_lt h)
  rw [Fmt.value, Fmt.isNaN, Fmt.isInf, top, Bool.false_and, Bool.false_and, if_neg Bool.false_ne_true, if_neg Bool.false_ne_true]
  refine if_congr Iff.rfl rfl (congrArg _ ?_)
  change _ - (127 : Int) - (23 : Int) = _
  omega

/-- The FP32 encoding of k * 2^q: k has 24 bits, and 23 of them only at the least exponent. -/
theorem f32_value_encoding {n : Bool} {k : Nat} {q : Int} (low : -149 ≤ q) (high : q ≤ 104) (hk : k < 2 ^ 24)
    (full : q = -149 ∨ 2 ^ 23 ≤ k) :
    f32.signBit n + ((q + 149).toNat * 2 ^ 23 + k) < 2 ^ 32 ∧ f32.isFinite (f32.signBit n + ((q + 149).toNat * 2 ^ 23 + k)) = true ∧
      f32.value (f32.signBit n + ((q + 149).toNat * 2 ^ 23 + k)) = .fin n k q := by
  have sign : f32.signBit n ≤ 2 ^ 31 := by cases n <;> decide
  refine ⟨by omega, ?_⟩
  by_cases hs : k < 2 ^ 23
  · have hq : q = -149 := by omega
    obtain ⟨sign, exponent, fraction⟩ := f32_fields (n := n) (E := (q + 149).toNat) (F := k) (by omega) hs
    have zero : (q + 149).toNat = 0 := by omega
    have finite : f32.expField (f32.signBit n + ((q + 149).toNat * 2 ^ 23 + k)) < 255 := by omega
    refine ⟨f32_isFinite_of_exponent finite, ?_⟩
    rw [f32_value_of_exponent finite, sign, exponent, fraction, if_pos zero, hq]
  · obtain ⟨sign, exponent, fraction⟩ := f32_fields (n := n) (E := (q + 149).toNat + 1) (F := k - 2 ^ 23) (by omega) (by omega)
    have encoding : (q + 149).toNat * 2 ^ 23 + k = ((q + 149).toNat + 1) * 2 ^ 23 + (k - 2 ^ 23) := by omega
    rw [encoding]
    have finite : f32.expField (f32.signBit n + (((q + 149).toNat + 1) * 2 ^ 23 + (k - 2 ^ 23))) < 255 := by omega
    refine ⟨f32_isFinite_of_exponent finite, ?_⟩
    rw [f32_value_of_exponent finite, sign, exponent, fraction, if_neg (Nat.succ_ne_zero _)]
    rw [show 2 ^ 23 + (k - 2 ^ 23) = k by omega, show (((q + 149).toNat + 1 : Nat) : Int) - 150 = q by omega]

/-- What the rounding to FP32 gives when its cut is exact (R70). -/
theorem roundFin_f32_of_cut {n : Bool} {m k : Nat} {e q : Int} (h0 : m ≠ 0) (hq : q = max (e + (Nat.log2 m : Int) - 23) (-149))
    (cut : cutTo .rne n m e q false = (k, false)) :
    (roundFin f32 .rne n m e false).1 =
      if 255 * 2 ^ 23 ≤ (q + 149).toNat * 2 ^ 23 + k then f32.inf n else f32.signBit n + ((q + 149).toNat * 2 ^ 23 + k) := by
  have exponent : max (e + (Nat.log2 m : Int) - (f32.mb : Int)) (1 - (f32.bias : Int) - (f32.mb : Int)) = q := hq.symm
  have place : (q + (f32.mb : Int) + (f32.bias : Int) - 1).toNat = (q + 149).toNat := by
    change (q + 23 + 127 - 1).toNat = _
    omega
  rw [roundFin, if_neg (fun h => h0 h.1)]
  simp only [exponent, cut, place, apply_ite Prod.fst]
  rfl

/-- An exact FP32 rounding: the value is kept, or it lies beyond the range and the result is infinite. -/
theorem roundFin_f32_exact {n : Bool} {m : Nat} {e : Int} (h0 : m ≠ 0) (hm : m < 2 ^ 24) (hd : 2 ^ (-149 - e).toNat ∣ m)
    (he : -160 ≤ e) :
    ∃ k q, -149 ≤ q ∧ k < 2 ^ 24 ∧ k * 2 ^ (q + 160).toNat = m * 2 ^ (e + 160).toNat ∧
      if q ≤ 104 then (roundFin f32 .rne n m e false).1 < 2 ^ 32 ∧ f32.isFinite (roundFin f32 .rne n m e false).1 = true ∧
        f32.value (roundFin f32 .rne n m e false).1 = .fin n k q
      else 2 ^ 23 ≤ k ∧ (roundFin f32 .rne n m e false).1 = f32.inf n := by
  have lead : Nat.log2 m < 24 := (Nat.log2_lt h0).mpr hm
  obtain ⟨q, hq⟩ : ∃ q, q = max (e + (Nat.log2 m : Int) - 23) (-149) := ⟨_, rfl⟩
  have divides : 2 ^ (q - e).toNat ∣ m := (Nat.pow_dvd_pow 2 (by omega)).trans hd
  obtain ⟨k, cut, scaled⟩ := cutTo_exact (n := n) divides
  have same : k * 2 ^ (q + 160).toNat = m * 2 ^ (e + 160).toNat := by
    by_cases hqe : q ≤ e
    · rw [Int.toNat_of_nonpos (by omega : q - e ≤ 0), Nat.pow_zero, Nat.mul_one] at scaled
      rw [scaled, Nat.mul_assoc, ← Nat.pow_add, show (e - q).toNat + (q + 160).toNat = (e + 160).toNat by omega]
    · rw [Int.toNat_of_nonpos (by omega : e - q ≤ 0), Nat.pow_zero, Nat.mul_one] at scaled
      rw [← scaled, Nat.mul_assoc, ← Nat.pow_add, show (q - e).toNat + (e + 160).toNat = (q + 160).toNat by omega]
  have below : m < 2 ^ (Nat.log2 m + 1) := Nat.lt_log2_self
  have above : 2 ^ Nat.log2 m ≤ m := Nat.log2_self_le h0
  have hk : k < 2 ^ 24 := by
    refine Nat.lt_of_mul_lt_mul_right (a := 2 ^ (q + 160).toNat) (same ▸ ?_)
    calc m * 2 ^ (e + 160).toNat < 2 ^ (Nat.log2 m + 1) * 2 ^ (e + 160).toNat := Nat.mul_lt_mul_of_pos_right below (Nat.two_pow_pos _)
      _ = 2 ^ (Nat.log2 m + 1 + (e + 160).toNat) := (Nat.pow_add ..).symm
      _ ≤ 2 ^ (24 + (q + 160).toNat) := Nat.pow_le_pow_right (by decide) (by omega)
      _ = _ := Nat.pow_add ..
  have full : q ≠ -149 → 2 ^ 23 ≤ k := fun hne => by
    refine Nat.le_of_mul_le_mul_right (c := 2 ^ (q + 160).toNat) (same ▸ ?_) (Nat.two_pow_pos _)
    calc 2 ^ 23 * 2 ^ (q + 160).toNat = 2 ^ (23 + (q + 160).toNat) := (Nat.pow_add ..).symm
      _ = 2 ^ (Nat.log2 m + (e + 160).toNat) := congrArg _ (by omega)
      _ = 2 ^ Nat.log2 m * 2 ^ (e + 160).toNat := Nat.pow_add ..
      _ ≤ _ := Nat.mul_le_mul_right _ above
  refine ⟨k, q, by omega, hk, same, ?_⟩
  rw [roundFin_f32_of_cut h0 hq cut]
  by_cases range : q ≤ 104
  · rw [if_pos range, if_neg (by omega)]
    exact f32_value_encoding (by omega) range hk (or_iff_not_imp_left.mpr full)
  · have := full (by omega)
    rw [if_neg range, if_pos (by omega)]
    exact ⟨this, rfl⟩

/-! ### OL4 elements (R77, R78) -/

/-- The FP32 value of an outlier's byte, whose exponent is twice its three bits and one (R78). -/
theorem outlier_value : ∀ h, h < 16 → f32.value (e4m3Image (h * 16 + 8)) = .fin (decide (8 ≤ h)) (2 ^ 23) (2 * ((h % 8 : Nat) : Int) - 29) := by
  decide +kernel

/-- A value at scale s as FP32 can hold it: zero, or m * 2^e in 24 bits of which none falls below the least exponent; and
it is the number given, in units of 2^(s - 6). -/
def FitsOl4 (s num : Int) (v : FV) : Prop :=
  (num = 0 ∧ ∃ e, v = .fin false 0 e) ∨
    ∃ m e, num ≠ 0 ∧ num.natAbs ≤ 2 ^ 14 ∧ v = .fin (decide (num < 0)) m e ∧ m ≠ 0 ∧ m < 2 ^ 24 ∧ -160 ≤ e ∧
      2 ^ (-149 - e).toNat ∣ m ∧ m * 2 ^ (e + 160).toNat = num.natAbs * 2 ^ (s + 154).toNat

theorem fitsOl4_outlier {h : Nat} (hh : h < 16) {s : Int} (low : -127 ≤ s) :
    FitsOl4 s ((if 8 ≤ h then -1 else 1) * ((2 ^ (2 * (h % 8)) : Nat) : Int) * 1) (e4m3Scaled (h * 16 + 8) s) := by
  have pos : (0 : Int) < ((2 ^ (2 * (h % 8)) : Nat) : Int) := by exact_mod_cast Nat.two_pow_pos _
  have negative : (if 8 ≤ h then -1 else 1) * ((2 ^ (2 * (h % 8)) : Nat) : Int) * 1 < 0 ↔ 8 ≤ h := by split <;> omega
  have magnitude : ((if 8 ≤ h then -1 else 1) * ((2 ^ (2 * (h % 8)) : Nat) : Int) * 1).natAbs = 2 ^ (2 * (h % 8)) := by split <;> omega
  refine .inr ⟨2 ^ 23, 2 * ((h % 8 : Nat) : Int) - 29 + s, ?_, ?_, ?_, by decide, by decide, by omega, ?_, ?_⟩
  · exact fun zero => (Nat.two_pow_pos _).ne' (magnitude.symm.trans (Int.natAbs_eq_zero.mpr zero))
  · rw [magnitude]
    exact Nat.pow_le_pow_right (by decide) (by omega)
  · simp only [e4m3Scaled, outlier_value h hh, negative]
  · exact Nat.pow_dvd_pow 2 (by omega)
  · rw [magnitude, ← Nat.pow_add, ← Nat.pow_add]
    exact congrArg _ (by omega)

theorem fitsOl4_code {x : Int} (small : x.natAbs ≤ 8) {s : Int} (low : -127 ≤ s) : FitsOl4 s (64 * x) (intFV x s) := by
  by_cases hx : x = 0
  · exact .inl ⟨by omega, s, by simp [intFV, hx]⟩
  · refine .inr ⟨x.natAbs, s, by omega, by omega, ?_, by omega, by omega, by omega, ?_, ?_⟩
    · rw [intFV, decide_eq_decide.mpr (show x < 0 ↔ 64 * x < 0 by omega)]
    · rw [Int.toNat_of_nonpos (by omega), Nat.pow_zero]
      exact Nat.one_dvd _
    · rw [Int.natAbs_mul, show (s + 160).toNat = 6 + (s + 154).toNat by omega, Nat.pow_add, ← Nat.mul_assoc]
      exact congrArg (· * _) (Nat.mul_comm ..)

/-- An element of an OL4 block at scale s is ol4Num in units of 2^(s - 6). -/
theorem fitsOl4_ol4Elem {b : Nat} (hb : b < 256) (odd : Bool) {s : Int} (low : -127 ≤ s) : FitsOl4 s (ol4Num b odd) (ol4Elem b odd s) := by
  have zero : FitsOl4 s 0 (.fin false 0 0) := .inl ⟨rfl, 0, rfl⟩
  have code (x : Nat) (hx : x < 16) : FitsOl4 s (64 * (if 8 ≤ x then (x : Int) - 16 else x)) (intFV (sint4 x) s) := by
    have : (sint4 x).natAbs ≤ 8 := by unfold sint4; split <;> omega
    rw [show (if 8 ≤ x then (x : Int) - 16 else x) = sint4 x by unfold sint4; rw [Nat.mod_eq_of_lt hx]; split <;> omega]
    exact fitsOl4_code this low
  unfold ol4Num ol4Elem
  dsimp only
  rw [if_neg (show ¬ s = -128 by omega)]
  by_cases lo : b % 16 = 8
  · rw [if_pos lo, if_pos lo, if_pos lo]
    cases odd with
    | true => exact zero
    | false =>
      have outlier := fitsOl4_outlier (show b / 16 % 16 < 16 by omega) low
      rwa [show b / 16 % 16 * 16 + 8 = b by omega] at outlier
  · rw [if_neg lo, if_neg lo]
    by_cases hi : b / 16 % 16 = 8
    · rw [if_pos hi, if_pos hi, if_pos hi]
      cases odd with
      | true =>
        rw [hi]
        exact fitsOl4_outlier (by omega) low
      | false => exact zero
    · rw [if_neg hi, if_neg hi]
      exact code _ (by split <;> omega)

/-- FP32's range ends at 2^128, for a number in units of 2^(s - 6) that is k * 2^q. -/
theorem ol4_range {num k : Nat} {s q : Int} (small : num ≤ 2 ^ 14) (low : -149 ≤ q) (hk : k < 2 ^ 24)
    (same : k * 2 ^ (q + 160).toNat = num * 2 ^ (s + 154).toNat) (full : 104 < q → 2 ^ 23 ≤ k) :
    q ≤ 104 ↔ num * 2 ^ (s - 6).toNat < 2 ^ 128 := by
  have scaled : num * 2 ^ (s + 154).toNat ≤ num * 2 ^ (s - 6).toNat * 2 ^ 160 := by
    rw [Nat.mul_assoc, ← Nat.pow_add]
    exact Nat.mul_le_mul_left _ (Nat.pow_le_pow_right (by decide) (by omega))
  constructor
  · intro inside
    by_cases hs : s ≤ 6
    · rw [Int.toNat_of_nonpos (by omega), Nat.pow_zero]
      omega
    · refine Nat.lt_of_mul_lt_mul_right (a := 2 ^ 160) ?_
      calc num * 2 ^ (s - 6).toNat * 2 ^ 160 = num * 2 ^ (s + 154).toNat := by
            rw [Nat.mul_assoc, ← Nat.pow_add, show (s - 6).toNat + 160 = (s + 154).toNat by omega]
        _ = k * 2 ^ (q + 160).toNat := same.symm
        _ < 2 ^ 24 * 2 ^ (q + 160).toNat := Nat.mul_lt_mul_of_pos_right hk (Nat.two_pow_pos _)
        _ = 2 ^ (24 + (q + 160).toNat) := (Nat.pow_add ..).symm
        _ ≤ 2 ^ (128 + 160) := Nat.pow_le_pow_right (by decide) (by omega)
        _ = 2 ^ 128 * 2 ^ 160 := Nat.pow_add ..
  · intro inside
    by_contra high
    refine Nat.not_le.mpr inside (Nat.le_of_mul_le_mul_right (c := 2 ^ 160) ?_ (Nat.two_pow_pos _))
    calc 2 ^ 128 * 2 ^ 160 = 2 ^ (128 + 160) := (Nat.pow_add ..).symm
      _ ≤ 2 ^ (23 + (q + 160).toNat) := Nat.pow_le_pow_right (by decide) (by omega)
      _ = 2 ^ 23 * 2 ^ (q + 160).toNat := Nat.pow_add ..
      _ ≤ k * 2 ^ (q + 160).toNat := Nat.mul_le_mul_right _ (full (by omega))
      _ = num * 2 ^ (s + 154).toNat := same
      _ ≤ _ := scaled

/-- The FP32 image of an OL4 element: exact within the range, infinite beyond it (R73). -/
theorem FitsOl4.image {s num : Int} {v : FV} (h : FitsOl4 s num v) (low : -127 ≤ s) :
    (num = 0 → ol4Image v = 0) ∧
    (num ≠ 0 → num.natAbs * 2 ^ (s - 6).toNat < 2 ^ 128 → ol4Image v < 2 ^ 32 ∧ f32.isFinite (ol4Image v) = true ∧
      (f32.value (ol4Image v)).units (-149) = num * 2 ^ (s + 143).toNat) ∧
    (2 ^ 128 ≤ num.natAbs * 2 ^ (s - 6).toNat → ol4Image v = f32.inf (decide (num < 0))) := by
  obtain ⟨zero, e, rfl⟩ | ⟨m, e, nonzero, small, rfl, hm, bits, least, divides, units⟩ := h
  · refine ⟨fun _ => rfl, fun hne => absurd zero hne, fun big => ?_⟩
    rw [zero, Int.natAbs_zero, Nat.zero_mul] at big
    exact absurd big (by decide)
  · obtain ⟨k, q, lowQ, hk, same, result⟩ := roundFin_f32_exact (n := decide (num < 0)) hm bits divides least
    rw [units] at same
    have range : q ≤ 104 ↔ num.natAbs * 2 ^ (s - 6).toNat < 2 ^ 128 := ol4_range small lowQ hk same fun high => by
      rw [if_neg (Int.not_le.mpr high)] at result
      exact result.1
    refine ⟨fun zero => absurd zero nonzero, fun _ fits => ?_, fun big => ?_⟩
    · rw [if_pos (range.mpr fits)] at result
      obtain ⟨width, finite, value⟩ := result
      refine ⟨width, finite, ?_⟩
      have exact_ : k * 2 ^ (q + 149).toNat = num.natAbs * 2 ^ (s + 143).toNat := by
        rw [show (q + 160).toNat = (q + 149).toNat + 11 by omega, show (s + 154).toNat = (s + 143).toNat + 11 by omega, Nat.pow_add,
          Nat.pow_add, ← Nat.mul_assoc, ← Nat.mul_assoc] at same
        exact Nat.eq_of_mul_eq_mul_right (by decide) same
      change (f32.value (roundFin f32 .rne (decide (num < 0)) m e false).1).units (-149) = _
      rw [value]
      change (if decide (num < 0) = true then -1 else 1) * ((k * 2 ^ (q - -149).toNat : Nat) : Int) = _
      rw [sub_neg_eq_add, exact_, Nat.cast_mul, ← mul_assoc, Nat.cast_pow]
      refine congrArg (· * _) ?_
      simp only [decide_eq_true_eq]
      split <;> omega
    · rw [if_neg (by omega)] at result
      exact result.2

/-! ### The images of windows 2 to 7 (R38, R39, R73, R77) -/

theorem scaleOf_toNat (b : Byte) : scaleOf b.toNat = b.toInt := by
  have := b.isLt
  rw [scaleOf, BitVec.toInt_eq_toNat_cond, Nat.mod_eq_of_lt (by omega)]
  split <;> split <;> omega

theorem bf16Image_append (b c : Byte) : BitVec.ofNat 32 (bf16Image (b.toNat + 256 * c.toNat)) = c ++ b ++ 0#16 := by
  refine BitVec.eq_of_toNat_eq ?_
  have := b.isLt
  have := c.isLt
  rw [BitVec.toNat_append, BitVec.toNat_append, ← Nat.shiftLeft_add_eq_or_of_lt b.isLt, ← Nat.shiftLeft_add_eq_or_of_lt (by simp)]
  simp only [bf16Image, BitVec.toNat_ofNat, Nat.shiftLeft_eq]
  omega

theorem e4m3Image_eq_lane : ∀ b, b < 256 → e4m3Image b = e4m3Lane b := by decide +kernel

theorem e5m2Image_eq_lane : ∀ b, b < 256 → e5m2Image b = e5m2Lane b := by decide +kernel

/-- An element through OL4, by its scale byte (R77, R78). -/
theorem State.elemImage_ol4 (s : State) (core ol i : Nat) :
    s.elemImage core 5 ol i = if (s.byte (spadKey core (ol + i / 32))).toInt = -128 then 0 else
      BitVec.ofNat 32 (ol4Image (ol4Elem (s.byte (spadKey core (i / 2))).toNat (i % 2 == 1) (s.byte (spadKey core (ol + i / 32))).toInt)) := by
  rw [← scaleOf_toNat]
  rfl

theorem State.windowImages (s : State) : s.WindowImages := by
  intro core ol i b sc num v
  have scale : -128 ≤ sc := BitVec.le_toInt _
  have element : v = if sc = -128 then 0 else BitVec.ofNat 32 (ol4Image (ol4Elem (b (i / 2)).toNat (i % 2 == 1) sc)) :=
    s.elemImage_ol4 core ol i
  have image (h : sc ≠ -128) := (fitsOl4_ol4Elem (b (i / 2)).isLt (i % 2 == 1) (s := sc) (by omega)).image (by omega)
  refine ⟨bf16Image_append _ _, congrArg (BitVec.ofNat 32) (e4m3Image_eq_lane _ (b i).isLt), congrArg (BitVec.ofNat 32) (e5m2Image_eq_lane _ (b i).isLt), fun h => ?_,
    fun hs hn fits => ?_, fun hs big => ?_, rfl, rfl⟩
  · by_cases hs : sc = -128
    · rw [element, if_pos hs]
    · obtain ⟨zero, -, -⟩ := image hs
      rw [element, if_neg hs, zero (h.resolve_left hs)]
      rfl
  · obtain ⟨-, finite, -⟩ := image hs
    obtain ⟨width, result⟩ := finite hn fits
    rw [element, if_neg hs, BitVec.toNat_ofNat, Nat.mod_eq_of_lt width]
    exact result
  · obtain ⟨-, -, infinite⟩ := image hs
    rw [element, if_neg hs, infinite big]
    by_cases negative : num < 0
    · rw [if_pos negative, decide_eq_true negative]
      rfl
    · rw [if_neg negative, decide_eq_false negative]
      rfl

end Sys2Proof.Machine
end

section
/-! PROOFS.  O4: scalar loads in the thread's own super-group (R38, R199, R204, R205). -/

namespace Sys2Proof.Machine

/-! ### Numbers of bytes (R6) -/

/-- A number of m + n bytes is that of its m lower bytes and that of the others. -/
theorem State.nat_add (s : State) (k m n : Nat) : s.nat k (m + n) = s.nat k m + 256 ^ m * s.nat (k + m) n := by
  induction m generalizing k with
  | zero => simp [State.nat, State.bytes, leNat]
  | succ m ih =>
    have tail := ih (k + 1)
    rw [show k + 1 + m = k + (m + 1) by omega] at tail
    simp only [State.nat, show m + 1 + n = m + n + 1 by omega, State.bytes, leNat] at tail ⊢
    rw [tail, Nat.pow_succ']
    ring

theorem State.nat_one (s : State) (k : Nat) : s.nat k 1 = (s.byte k).toNat := by simp [State.nat, State.bytes, leNat]

theorem State.le_one (s : State) (k : Nat) : s.le k 1 = (s.byte k).zeroExtend 64 := by
  rw [State.le, State.nat_one]
  exact BitVec.eq_of_toNat_eq (by simp [dbl])

/-! ### The value of a loaded word (R204) -/

theorem zeroExtend_word {n x : Nat} (hn : n ≤ 4) (hx : x < 256 ^ n) : (BitVec.ofNat 32 x).zeroExtend 64 = dbl x := by
  have : 256 ^ n ≤ 2 ^ 32 := le_trans (Nat.pow_le_pow_right (by decide) hn) (by decide)
  refine BitVec.eq_of_toNat_eq ?_
  simp [dbl]
  omega

theorem zext_dbl {n x : Nat} (hx : x < 256 ^ n) : zext (8 * n) (dbl x) = dbl x := by
  refine BitVec.eq_of_toNat_eq ?_
  rw [show 256 = 2 ^ 8 from rfl, ← Nat.pow_mul] at hx
  simp only [zext, dbl, BitVec.truncate_eq_setWidth, BitVec.toNat_setWidth, BitVec.toNat_ofNat]
  rw [Nat.mod_eq_of_lt (a := x % 2 ^ 64 % 2 ^ (8 * n))]
  · exact Nat.mod_eq_of_lt (lt_of_le_of_lt (Nat.mod_le _ _) hx)
  · exact lt_of_le_of_lt (Nat.mod_le _ _) (Nat.mod_lt _ (by decide))

/-- The words of one, two or four bytes, as one load takes them. -/
theorem State.words_short (s : State) (k : Nat) {n : Nat} (hn : n < 4 ∨ n = 4) : s.words k n = [BitVec.ofNat 32 (s.nat k n)] := by
  rcases hn with hn | rfl
  · exact if_pos hn
  · rfl

theorem State.loadValue_short (s : State) (k : Nat) {n : Nat} (hn : n < 4 ∨ n = 4) (sg : Bool) :
    loadValue n sg ((s.words k n).map (fun v => (v, 0))) =
      if sg then ((s.le k n).setWidth (8 * n)).signExtend 64 else s.le k n := by
  have lt := nat_lt s k n
  rw [s.words_short k hn, loadValue, if_neg (by omega)]
  simp only [List.map_cons, List.headD_cons, zeroExtend_word (n := n) (by omega) lt, zext_dbl lt]
  rfl

theorem State.loadValue_double (s : State) (k : Nat) (sg : Bool) :
    loadValue 8 sg ((s.words k 8).map (fun v => (v, 0))) = s.le k 8 := by
  have low := nat_lt s k 4
  have high := nat_lt s (k + 4) 4
  have sum := s.nat_add k 4 4
  change joinW (BitVec.ofNat 32 (s.nat (k + 4 * 0) 4)) (BitVec.ofNat 32 (s.nat (k + 4 * 1) 4)) = dbl (s.nat k 8)
  refine BitVec.eq_of_toNat_eq ?_
  rw [joinW, BitVec.toNat_append, Nat.shiftLeft_eq, ← Nat.shiftLeft_eq, ← Nat.shiftLeft_add_eq_or_of_lt (BitVec.isLt _), Nat.shiftLeft_eq]
  simp only [dbl, BitVec.toNat_ofNat, Nat.mul_zero, Nat.mul_one, Nat.add_zero, sum]
  omega

/-! ### A load at the bank (R38, R204, R205) -/

theorem State.bankPerform_load_raw {s : State} {a : Access} {sg : Bool} (ho : a.op = .load sg) (hw : winOf a.ea ≤ 1) :
    s.bankPerform a = (s, .data ((s.words (spadKey (homeOf a.ea) (offOf a.ea)) a.size).map (fun v => (v, 0))) 0) := by
  rcases Nat.le_one_iff_eq_zero_or_eq_one.mp hw with h | h <;> simp [State.bankPerform, State.rawPerform, h, ho]

theorem State.bankPerform_load_element {s : State} {a : Access} {sg : Bool} (ho : a.op = .load sg) (hw : 2 ≤ winOf a.ea) :
    s.bankPerform a = (s, .data (((List.range (a.size / 4)).map (fun j =>
      s.elemImage (homeOf a.ea) (winOf a.ea) a.olscale.toNat (elemIndex a.ea + j))).map (fun v => (v, 0))) 0) := by
  rw [State.bankPerform, if_neg (by omega), if_neg (by omega)]
  simp only [ho]

/-- A load that its super-group performs, of bytes that may be read, completes with what the bank answers. -/
theorem State.computesG_of_load {s : State} {i : Instr} {d : BitVec 5} {sg : Bool} {ea : Word} {n : Nat} {allow : Nat → Bool}
    {ws : List (W32 × Tag)} (run : exec i s = .next (s.access (.load sg) ea n (.general d) false false allow))
    (hb : s.InBank ea n allow) (hr : ∀ p ∈ s.spans (s.mkAccess (.load sg) ea n (.general d) false false .bank),
      s.Readable (homeOf ea.toNat) p.1 p.2)
    (hw : s.bankPerform (s.mkAccess (.load sg) ea n (.general d) false false .bank) = (s, .data ws 0)) :
    s.ComputesG i d (loadValue n sg ws) := by
  refine State.computesG_of_result (run.trans (congrArg _ ?_))
  rw [State.access_of_inBank hb, State.serveBank_of_readable rfl rfl hr, hw]
  exact State.finishAccess_load hb.small rfl rfl ws

/-- A load through RAW or TAGGED of bytes that may be read (R204). -/
structure State.RawLoad (s : State) (ea : Word) (n : Nat) (allow : Nat → Bool) : Prop where
  bank : s.InBank ea n allow
  raw : winOf ea.toNat ≤ 1
  readable : s.Readable (homeOf ea.toNat) (offOf ea.toNat) n

theorem State.RawLoad.computes {s : State} {i : Instr} {d : BitVec 5} {sg : Bool} {ea : Word} {n : Nat} {allow : Nat → Bool}
    (h : s.RawLoad ea n allow) (run : exec i s = .next (s.access (.load sg) ea n (.general d) false false allow)) :
    s.ComputesG i d (loadValue n sg ((s.words (spadKey (homeOf ea.toNat) (offOf ea.toNat)) n).map (fun v => (v, 0)))) := by
  refine State.computesG_of_load run h.bank (fun p hp => ?_) (State.bankPerform_load_raw rfl h.raw)
  rw [State.spans_of_raw h.raw, List.mem_singleton] at hp
  exact hp ▸ h.readable

/-- A load through windows 2 to 7 of elements that may be read (R205). -/
theorem State.computesG_of_elements {s : State} {i : Instr} {d : BitVec 5} {sg : Bool} {ea : Word} {n : Nat}
    (run : exec i s = .next (s.access (.load sg) ea n (.general d) false false winAny)) (hb : s.InBank ea n winAny)
    (hw : 2 ≤ winOf ea.toNat) (hr : ∀ p ∈ s.spans (s.mkAccess (.load true) ea n .none false false .bank),
      s.Readable (homeOf ea.toNat) p.1 p.2) :
    s.ComputesG i d (loadValue n sg (((List.range (n / 4)).map (fun j =>
      s.elemImage (homeOf ea.toNat) (winOf ea.toNat) s.me.csr.olscale.toNat (elemIndex ea.toNat + j))).map (fun v => (v, 0)))) :=
  State.computesG_of_load run hb hr (State.bankPerform_load_element rfl hw)

section
variable {s : State} {i : Instr} {d : BitVec 5} {sg : Bool} {ea : Word} {n : Nat} {allow : Nat → Bool}

theorem State.RawLoad.computes_short (h : s.RawLoad ea n allow) (hn : n < 4 ∨ n = 4)
    (run : exec i s = .next (s.access (.load sg) ea n (.general d) false false allow)) :
    s.ComputesG i d (if sg then ((s.le (spadKey (homeOf ea.toNat) (offOf ea.toNat)) n).setWidth (8 * n)).signExtend 64
      else s.le (spadKey (homeOf ea.toNat) (offOf ea.toNat)) n) := by
  rw [← s.loadValue_short _ hn sg]
  exact h.computes run

theorem State.RawLoad.computes_byte (h : s.RawLoad ea 1 allow)
    (run : exec i s = .next (s.access (.load sg) ea 1 (.general d) false false allow)) :
    s.ComputesG i d (if sg then (s.byte (spadKey (homeOf ea.toNat) (offOf ea.toNat))).signExtend 64
      else (s.byte (spadKey (homeOf ea.toNat) (offOf ea.toNat))).zeroExtend 64) := by
  have short := h.computes_short (.inl (by decide)) run
  rw [State.le_one, Nat.mul_one, BitVec.zeroExtend, BitVec.setWidth_setWidth_of_le _ (by decide), BitVec.setWidth_eq] at short
  exact short

theorem State.RawLoad.computes_double (h : s.RawLoad ea 8 allow)
    (run : exec i s = .next (s.access (.load sg) ea 8 (.general d) false false allow)) :
    s.ComputesG i d (s.le (spadKey (homeOf ea.toNat) (offOf ea.toNat)) 8) := by
  rw [← s.loadValue_double _ sg]
  exact h.computes run

end

/-! ### The seven loads (R204) -/

theorem State.exec_lb (s : State) (d a : BitVec 5) (o : BitVec 12) : exec (.lb d a 0 o) s =
    .next (s.access (.load true) (s.g a + o.signExtend 64 * BitVec.ofNat 64 1) 1 (.general d) false false winRaw) := rfl

theorem State.exec_lbu (s : State) (d a : BitVec 5) (o : BitVec 12) : exec (.lbu d a 0 o) s =
    .next (s.access (.load false) (s.g a + o.signExtend 64 * BitVec.ofNat 64 1) 1 (.general d) false false winRaw) := rfl

theorem State.exec_lh (s : State) (d a : BitVec 5) (o : BitVec 12) : exec (.lh d a 0 o) s =
    .next (s.access (.load true) (s.g a + o.signExtend 64 * BitVec.ofNat 64 2) 2 (.general d) false false winRaw) := rfl

theorem State.exec_lhu (s : State) (d a : BitVec 5) (o : BitVec 12) : exec (.lhu d a 0 o) s =
    .next (s.access (.load false) (s.g a + o.signExtend 64 * BitVec.ofNat 64 2) 2 (.general d) false false winRaw) := rfl

theorem State.exec_lw (s : State) (d a : BitVec 5) (o : BitVec 12) : exec (.lw d a 0 o) s =
    .next (s.access (.load true) (s.g a + o.signExtend 64 * BitVec.ofNat 64 4) 4 (.general d) false false winAny) := rfl

theorem State.exec_lwu (s : State) (d a : BitVec 5) (o : BitVec 12) : exec (.lwu d a 0 o) s =
    .next (s.access (.load false) (s.g a + o.signExtend 64 * BitVec.ofNat 64 4) 4 (.general d) false false winAny) := rfl

theorem State.exec_ld (s : State) (d a : BitVec 5) (o : BitVec 12) : exec (.ld d a 0 o) s =
    .next (s.access (.load true) (s.g a + o.signExtend 64 * BitVec.ofNat 64 8) 8 (.general d) false false winAny) := rfl

/-- Settles O4: a load is performed at the bank and completes at once; its value by the window it goes through. -/
theorem loads : Obligations.Loads := by
  unfold Obligations.Loads
  constructor
  · intro s d a o ea key ok
    have raw {n : Nat} {allow : Nat → Bool} (h : ok n allow) : s.RawLoad (ea n) n allow := by
      obtain ⟨bank, window, readable⟩ := h
      exact ⟨bank, window, readable⟩
    exact ⟨fun h => (raw h).computes_byte (s.exec_lb d a o), fun h => (raw h).computes_byte (s.exec_lbu d a o),
      fun h => (raw h).computes_short (.inl (by decide)) (s.exec_lh d a o), fun h => (raw h).computes_short (.inl (by decide)) (s.exec_lhu d a o),
      fun h => (raw h).computes_short (.inr rfl) (s.exec_lw d a o), fun h => (raw h).computes_short (.inr rfl) (s.exec_lwu d a o),
      fun h => (raw h).computes_double (s.exec_ld d a o)⟩
  · intro s d a o ea image ok
    refine ⟨fun ⟨bank, window, readable⟩ => ?_, fun ⟨bank, window, readable⟩ => ?_, fun ⟨bank, window, readable⟩ => ?_, s.windowImages⟩
    · have loaded := State.computesG_of_elements (s.exec_lw d a o) bank window readable
      have word : loadValue 4 true [(image 4 0, 0)] = (image 4 0).signExtend 64 := by simp [loadValue, sext]
      rw [← word]
      exact loaded
    · have loaded := State.computesG_of_elements (s.exec_lwu d a o) bank window readable
      have word : loadValue 4 false [(image 4 0, 0)] = (image 4 0).zeroExtend 64 := by simp [loadValue, zext]
      rw [← word]
      exact loaded
    · exact State.computesG_of_elements (s.exec_ld d a o) bank window readable

end Sys2Proof.Machine
end

section
/-! PROOFS.  Writes that change bytes, side tags and poison marks alone: what O8, O19 and O36 share (R40, R203, R366). -/

namespace Sys2Proof.Machine

/-- Only bytes, side tags and poison marks differ. -/
def State.OnlyMemory (s t : State) : Prop := t = { s with mem := t.mem, stags := t.stags, poison := t.poison }

theorem State.OnlyMemory.refl (s : State) : s.OnlyMemory s := rfl

theorem State.OnlyMemory.trans {s t u : State} (h : s.OnlyMemory t) (g : t.OnlyMemory u) : s.OnlyMemory u := by
  rw [State.OnlyMemory] at g ⊢
  rw [g, h]

theorem State.OnlyMemory.foldl {α : Type} {f : State → α → State} (h : ∀ (s : State) (a : α), s.OnlyMemory (f s a)) (l : List α)
    (s : State) :
    s.OnlyMemory (l.foldl f s) := by
  induction l generalizing s with
  | nil => exact .refl s
  | cons a l ih => exact (h s a).trans (ih _)

theorem State.OnlyMemory.ite {c : Prop} [Decidable c] {s t u : State} (ht : s.OnlyMemory t) (hu : s.OnlyMemory u) :
    s.OnlyMemory (if c then t else u) := by
  split
  · exact ht
  · exact hu

/-- What such a write leaves: all that is not memory. -/
theorem State.OnlyMemory.frame {s t : State} (h : s.OnlyMemory t) : t.cur = s.cur ∧ t.slots = s.slots ∧ t.cores = s.cores ∧
    t.tiles = s.tiles ∧ t.net = s.net ∧ t.parts = s.parts ∧ t.launches = s.launches ∧ t.sys = s.sys ∧ t.ranges = s.ranges ∧
    t.chunks = s.chunks ∧ t.nextId = s.nextId ∧ t.posted = s.posted := by
  rw [h]
  exact ⟨rfl, rfl, rfl, rfl, rfl, rfl, rfl, rfl, rfl, rfl, rfl, rfl⟩

theorem State.onlyMemory_setByte (s : State) (k : Nat) (b : Byte) : s.OnlyMemory (s.setByte k b) := rfl

theorem State.onlyMemory_setSideTag (s : State) (k : Nat) (t : Tag) : s.OnlyMemory (s.setSideTag k t) := rfl

theorem State.onlyMemory_setPoison (s : State) (k : Nat) (b : Bool) : s.OnlyMemory (s.setPoison k b) := rfl

theorem State.onlyMemory_setBytes (s : State) (k : Nat) (bs : List Byte) : s.OnlyMemory (s.setBytes k bs) := by
  induction bs generalizing s k with
  | nil => exact .refl s
  | cons b r ih => exact (s.onlyMemory_setByte k b).trans (ih _ _)

theorem State.onlyMemory_clearTags (s : State) (k n : Nat) : s.OnlyMemory (s.clearTags k n) :=
  .foldl (fun s _ => s.onlyMemory_setSideTag _ _) _ s

theorem State.onlyMemory_storeSpad (s : State) (k : Nat) (bs : List Byte) : s.OnlyMemory (s.storeSpad k bs) :=
  (s.onlyMemory_setBytes k bs).trans (State.onlyMemory_clearTags _ _ _)

theorem State.onlyMemory_clearWhole (s : State) (k n : Nat) : s.OnlyMemory (s.clearWhole k n) :=
  .ite (.refl s) (.foldl (fun s _ => s.onlyMemory_setPoison _ _) _ s)

theorem State.onlyMemory_physWrite (s : State) (k : Nat) (bs : List Byte) : s.OnlyMemory (s.physWrite k bs) :=
  (s.onlyMemory_setBytes k bs).trans (State.onlyMemory_clearWhole _ _ _)

theorem State.onlyMemory_clearPoison (s : State) (k n : Nat) : s.OnlyMemory (s.clearPoison k n) :=
  .ite (s.onlyMemory_clearWhole k n) (.ite (.refl s) (.foldl (fun s _ => .ite (s.onlyMemory_setPoison _ _) (.refl s)) _ s))

theorem State.onlyMemory_putPieces (s : State) (ps : List Piece) (bs : List Byte) : s.OnlyMemory (s.putPieces ps bs) := by
  induction ps generalizing s bs with
  | nil => exact .refl s
  | cons p ps ih =>
    have written := s.onlyMemory_physWrite p.key (bs.take p.len)
    rw [State.putPieces]
    refine State.OnlyMemory.trans ?_ (ih _ _)
    split
    · exact written.trans (State.onlyMemory_setBytes _ _ _)
    · exact written

/-! ### Pieces of V-space (R45, R48) -/

@[simp] theorem State.byte_physWrite (s : State) (k j : Nat) (bs : List Byte) : (s.physWrite k bs).byte j = (s.setBytes k bs).byte j :=
  State.byte_of_mem (by simp) j

/-- A byte outside the pieces written, which lie on no TAGS page, is as before. -/
theorem State.byte_putPieces_outside {s : State} {ps : List Piece} {bs : List Byte} {j : Nat}
    (h : ∀ p ∈ ps, p.shadow = none ∧ (j < p.key ∨ p.key + p.len ≤ j)) : (s.putPieces ps bs).byte j = s.byte j := by
  induction ps generalizing s bs with
  | nil => rfl
  | cons p ps ih =>
    obtain ⟨shadow, outside⟩ := h p (List.mem_cons_self ..)
    have short : (bs.take p.len).length ≤ p.len := by simp
    rw [State.putPieces, shadow, ih fun q hq => h q (List.mem_cons_of_mem _ hq), State.byte_physWrite]
    exact State.byte_setBytes_outside _ _ _ _ (by omega)

end Sys2Proof.Machine
end

section
/-! PROOFS.  O36: ALLOC, FREE and the die allocator engine (R60, R61, R63, R246). -/

namespace Sys2Proof.Machine

/-! ### At issue (R246) -/

/-- A request that a thread sends and waits for (R246): nothing but the message and the park. -/
theorem State.asks_of_send {s : State} {i : Instr} {rd : BitVec 5} {b : Body} (hr : s.me.relaxed = [])
    (run : exec i s = .next (s.waitRelaxed (fun s => (s.send s.cur rd b).setPark s.cur (.reply s.nextId)))) :
    ∃ t q, exec i s = .next t ∧ t.net = s.net ++ [q] ∧ q.src = s.cur ∧ q.rd = rd ∧ q.body = b ∧ t.me.park = .reply q.id ∧
      t.me.pc = s.me.pc ∧ s.me.SameRegs t.me ∧ s.SameMemory t ∧ s.OtherSlots t s.cur ∧ s.SameCores t := by
  rw [State.waitRelaxed_of_nil hr] at run
  have slot : ((s.send s.cur rd b).setPark s.cur (.reply s.nextId)).me = { s.me with park := .reply s.nextId } := by
    simp [State.setPark, State.me]
  refine ⟨_, ⟨s.nextId, s.cur, rd, b⟩, run, rfl, rfl, rfl, rfl, ?_, ?_, ?_, .of_eq rfl rfl rfl, fun v hv => ?_, fun c => rfl⟩
  · rw [slot]
  · rw [slot]
  · rw [slot]
    exact ⟨fun _ => rfl, fun _ _ => ⟨rfl, rfl⟩, rfl, rfl⟩
  · simp [State.setPark, hv]

/-! ### The engine's answer (R60, R344) -/

/-- A status that a slot's core hears at once ends its wait. -/
theorem State.status_of_hears {s : State} {w : Who} {id : Nat} {rd : BitVec 5} {v : Word} (hh : s.hears w.core = true)
    (hp : (s.slot w).park = .reply id) : s.status w id rd v = s.setSlot w ((s.slot w).setG rd v).next :=
  (if_pos hh).trans (if_pos hp)

/-- The slots, the cores, what makes a core run, and the messages of another state. -/
structure State.SameUnits (s u : State) : Prop where
  slots : u.slots = s.slots
  cores : u.cores = s.cores
  parts : u.parts = s.parts
  sys : u.sys = s.sys
  net : u.net = s.net

theorem State.OnlyMemory.units {s u : State} (h : s.OnlyMemory u) : s.SameUnits u := by
  obtain ⟨-, slots, cores, -, net, parts, -, sys, -⟩ := h.frame
  exact ⟨slots, cores, parts, sys, net⟩

/-- A thread parked for the engine, on a core that hears its answer. -/
structure State.AwaitsEngine (s : State) (id : Nat) (m : Msg) : Prop where
  found : s.msg? id = some m
  runs : s.coreRuns m.src.core = true
  hears : (s.drop id).hears m.src.core = true
  park : (s.slot m.src).park = .reply id

/-- The thread as the answer leaves it: its request dropped, its register written. -/
def State.answered (u : State) (id : Nat) (m : Msg) (v : Word) : State := (u.drop id).setSlot m.src ((u.slot m.src).setG m.rd v).next

theorem State.answered_mem (u : State) (id : Nat) (m : Msg) (v : Word) : (u.answered id m v).mem = u.mem := rfl

theorem State.answered_chunks (u : State) (id : Nat) (m : Msg) (v : Word) : (u.answered id m v).chunks = u.chunks := rfl

section
variable {s u : State} {id : Nat} {m : Msg} {v : Word}

theorem State.AwaitsEngine.heapReply (h : s.AwaitsEngine id m) (hu : s.SameUnits u) : u.heapReply m v = u.answered id m v := by
  have hears : (u.drop id).hears m.src.core = true := by
    rw [← h.hears]
    refine State.hears_of_eq hu.parts hu.sys (by simp [hu.net]) ?_ ?_
    · simp [State.core_of_cores hu.cores]
    · simp [State.core_of_cores hu.cores]
  have slot : (u.drop id).slot m.src = u.slot m.src := rfl
  rw [State.heapReply, State.msg?_id h.found, State.status_of_hears hears ((congrArg Slot.park (State.slot_of_slots hu.slots _)).trans h.park), slot]
  rfl

/-- What the engine's answer changes, whatever the engine did to memory and to its chunks. -/
theorem State.AwaitsEngine.answers (h : s.AwaitsEngine id m) (hu : s.SameUnits u) {P : State → Prop}
    (run : exec (.allocatorEngineStep id) s = .next (u.heapReply m v)) (hP : P (u.answered id m v)) :
    ∃ t, exec (.allocatorEngineStep id) s = .next t ∧ (s.slot m.src).WroteG (t.slot m.src) m.rd v ∧
      (t.slot m.src).pc = (s.slot m.src).pc + 4 ∧ (t.slot m.src).park = .ready ∧ (s.slot m.src).SameV (t.slot m.src) ∧
      s.OtherSlots t m.src ∧ s.SameCores t ∧ t.msg? id = none ∧ P t := by
  rw [h.heapReply hu] at run
  have slot : (u.answered id m v).slot m.src = ((s.slot m.src).setG m.rd v).next := by
    simp [State.answered, State.slot_of_slots hu.slots]
  refine ⟨_, run, ?_, ?_, ?_, ?_, fun w hw => ?_, fun c => State.core_of_cores hu.cores c, ?_, hP⟩
  · rw [slot]
    exact (s.slot m.src).wroteG_setG m.rd v
  · rw [slot]; simp [Slot.next]
  · rw [slot]; simp [Slot.next]
  · rw [slot]
    exact fun _ _ => by simp [Slot.next, Slot.lane, Slot.tag]
  · simp [State.answered, hw, State.slot_of_slots hu.slots]
  · simp [State.answered, State.msg?, List.find?_eq_none]

end

/-! ### The free blocks of a chunk (R60) -/

/-- The k-th free index from i on is free and below the end, when more than k indices are free there. -/
theorem freeIndex_spec {taken : List Nat} {n i k : Nat} (h : k < ((List.range' i n).filter (fun j => !taken.contains j)).length) :
    freeIndex taken n i k < i + n ∧ freeIndex taken n i k ∉ taken := by
  induction n generalizing i k with
  | zero => simp at h
  | succ n ih =>
    rw [List.range'_succ] at h
    rw [freeIndex]
    by_cases hi : taken.contains i = true
    · rw [if_pos hi]
      rw [List.filter_cons_of_neg (by simpa using hi)] at h
      obtain ⟨below, free⟩ := ih h
      exact ⟨by omega, free⟩
    · rw [if_neg hi]
      rw [List.filter_cons_of_pos (by simpa using hi), List.length_cons] at h
      by_cases hk : k = 0
      · rw [if_pos hk]
        exact ⟨by omega, by simpa using hi⟩
      · rw [if_neg hk]
        obtain ⟨below, free⟩ := ih (i := i + 1) (k := k - 1) (by omega)
        exact ⟨by omega, free⟩

/-- At most as many of n indices are taken as the list holds. -/
theorem free_count (taken : List Nat) (n : Nat) :
    n - taken.length ≤ ((List.range' 0 n).filter (fun j => !taken.contains j)).length := by
  have split := List.length_eq_length_filter_add (l := List.range' 0 n) (fun j => taken.contains j)
  have few : ((List.range' 0 n).filter (fun j => taken.contains j)).length ≤ taken.length :=
    (((List.nodup_range' (h := by decide)).filter _).subperm fun j hj => by simpa using (List.mem_filter.mp hj).2).length_le
  rw [List.length_range'] at split
  omega

/-- The block that the engine gives of a chunk: its index. -/
def Chunk.choice (c : Chunk) : Nat :=
  freeIndex c.taken (c.taken.length + (blockCount c.block - c.taken.length)) 0
    (Config.heapChoice c.base c.block c.taken % max 1 (blockCount c.block - c.taken.length))

/-- The block is one of the chunk's, and free (R60). -/
theorem Chunk.choice_free {c : Chunk} (h : c.taken.length < blockCount c.block) : c.choice < blockCount c.block ∧ c.choice ∉ c.taken := by
  have few := free_count c.taken (blockCount c.block)
  have chosen := Nat.mod_lt (Config.heapChoice c.base c.block c.taken) (y := max 1 (blockCount c.block - c.taken.length)) (by omega)
  rw [Chunk.choice, show c.taken.length + (blockCount c.block - c.taken.length) = blockCount c.block by omega]
  obtain ⟨below, free⟩ := freeIndex_spec (i := 0) (lt_of_lt_of_le (lt_of_lt_of_eq chosen (max_eq_right (by omega))) few)
  exact ⟨by omega, free⟩

/-- A block's address. -/
def Chunk.blockAt (c : Chunk) (i : Nat) : Nat := c.base + firstBlock c.block + i * c.block

/-- What handing out a block changes (R60). -/
theorem State.takeBlock_eq (s : State) (c : Chunk) : s.takeBlock c =
    ({ s with chunks := s.chunks.map (fun x => if x = c then { c with taken := c.choice :: c.taken } else x) }, c.blockAt c.choice) := rfl

theorem State.onlyMemory_unmark (s : State) (part : Nat) (pid : BitVec 16) (taken : List Nat) (p : Nat) :
    s.OnlyMemory (s.unmark part pid taken p) := by
  unfold State.unmark
  split
  · exact .ite (s.onlyMemory_putPieces _ _) (.refl s)
  · exact .refl s

theorem State.onlyMemory_bumpMark (s : State) (part : Nat) (pid : BitVec 16) : s.OnlyMemory (s.bumpMark part pid) :=
  s.onlyMemory_setBytes _ _

/-- A chunk holds a block of every size that ALLOC gives (R60). -/
theorem blockCount_pos {n : Nat} (h : n ≤ 65536) : 0 < blockCount (blockSize n) := by
  have log : clog2 n ≤ 16 := by
    have lower : n ≠ 0 → 2 ^ Nat.log2 n ≤ n := Nat.log2_self_le
    have zero : Nat.log2 0 = 0 := by decide
    unfold clog2
    split
    · next exact_ =>
      exact (Nat.pow_le_pow_iff_right (by decide)).mp (exact_.trans_le h)
    · next inexact =>
      by_cases h0 : n = 0
      · rw [h0, zero]
        decide
      · have below : 2 ^ Nat.log2 n < 2 ^ 16 := lt_of_lt_of_le (lt_of_le_of_ne (lower h0) inexact) h
        exact (Nat.pow_lt_pow_iff_right (by decide)).mp below
  have size : blockSize n ≤ 2 ^ 16 := Nat.pow_le_pow_right (by decide) (max_le (by decide) log)
  have pos : 0 < blockSize n := Nat.two_pow_pos _
  have first : firstBlock (blockSize n) ≤ 2 ^ 16 := max_le (by decide) size
  exact Nat.div_pos (by unfold chunkBytes; omega) pos

/-! ### ALLOC at the engine (R60, R63) -/

/-- The state in which an engine serves a request: one without a cached access. -/
def State.uncached (s : State) : State := { s with cached := false }

/-- The chunk that serves an allocation of blocks of a size: of the process, of the thread's die, and not full. -/
def State.serves (s : State) (m : Msg) (size : Nat) (c : Chunk) : Bool :=
  decide (c.part = (s.slot m.src).part ∧ c.pid = (s.slot m.src).pid ∧ c.die = dieOf m.src.core ∧ c.block = size ∧
    c.taken.length < blockCount size)

section
variable {s : State} {id : Nat} {m : Msg} {n : Word} {since : Option Nat}

theorem State.AwaitsEngine.exec_alloc (h : s.AwaitsEngine id m) (hb : m.body = .alloc n since) :
    exec (.allocatorEngineStep id) s = s.uncached.allocStep m n since := by
  change execAllocatorEngineStep id s = _
  simp only [execAllocatorEngineStep, h.found, h.runs, h.park, hb, Bool.not_true, Bool.false_eq_true, if_false, ne_eq, not_true_eq_false]
  rfl

theorem State.AwaitsEngine.exec_free (h : s.AwaitsEngine id m) (hb : m.body = .free n since) :
    exec (.allocatorEngineStep id) s = s.uncached.freeStep m n since := by
  change execAllocatorEngineStep id s = _
  simp only [execAllocatorEngineStep, h.found, h.runs, h.park, hb, Bool.not_true, Bool.false_eq_true, if_false, ne_eq, not_true_eq_false]
  rfl

/-- A cause that the engine answers a thread with, taken at once (R61, R344). -/
theorem State.AwaitsEngine.heapFault {c : Cause} {v : Word} (h : s.AwaitsEngine id m) :
    s.uncached.heapFault m c v = (s.uncached.drop id).trapAt m.src c v := by
  rw [State.heapFault, State.msg?_id h.found]
  exact (if_pos h.hears).trans (if_pos h.park)

/-- The bytes of pieces do not depend on the stations' caches. -/
theorem State.getPieces_uncached (s : State) (ps : List Piece) : s.uncached.getPieces ps = s.getPieces ps := by
  have bytes (k n : Nat) : s.uncached.bytes k n = s.bytes k n := by
    induction n generalizing k with
    | zero => rfl
    | succ n ih => exact congrArg (List.cons _) (ih _)
  simp only [State.getPieces, bytes]

theorem State.sameUnits_uncached (s : State) : s.SameUnits s.uncached := ⟨rfl, rfl, rfl, rfl, rfl⟩

theorem State.allocStep_of_size (h : n.toNat = 0 ∨ 65536 < n.toNat) : s.allocStep m n since = .next (s.heapReply m 0) := if_pos h

theorem State.allocStep_of_spent (h : ¬ (n.toNat = 0 ∨ 65536 < n.toNat)) (hf : s.chunks.find? (s.serves m (blockSize n.toNat)) = none)
    (hl : s.arenaLeft (s.slot m.src).part (s.slot m.src).pid = false) : s.allocStep m n since = .next (s.heapReply m 0) := by
  unfold State.serves at hf
  rw [State.allocStep, if_neg h]
  simp only [hf, hl, Bool.false_eq_true, if_false]

theorem State.allocStep_of_left (h : ¬ (n.toNat = 0 ∨ 65536 < n.toNat)) (hf : s.chunks.find? (s.serves m (blockSize n.toNat)) = none)
    (hl : s.arenaLeft (s.slot m.src).part (s.slot m.src).pid = true) :
    s.allocStep m n since = s.newChunk m n since (blockSize n.toNat) := by
  unfold State.serves at hf
  rw [State.allocStep, if_neg h]
  simp only [hf, hl, if_true]

theorem State.allocStep_of_chunk {c : Chunk} (h : ¬ (n.toNat = 0 ∨ 65536 < n.toNat))
    (hf : s.chunks.find? (s.serves m (blockSize n.toNat)) = some c) : s.allocStep m n since =
      if s.engineWaits (s.slot m.src).pid true (c.blockAt c.choice) 16 then .next s
      else .next (((s.takeBlock c).1.unmark (s.slot m.src).part (s.slot m.src).pid c.taken (c.blockAt c.choice)).heapReply m
        (dbl (c.blockAt c.choice))) := by
  unfold State.serves at hf
  rw [State.allocStep, if_neg h]
  simp only [hf]
  rfl

end

/-- The address of the next chunk of a thread's arena (R60, R359). -/
def State.nextChunk (s : State) (w : Who) : Nat :=
  (s.arena (s.slot w).part (s.slot w).pid).1 + (s.arena (s.slot w).part (s.slot w).pid).2.2 * chunkBytes

/-- The chunk that the arena gives, none of its blocks taken. -/
def State.chunkFor (s : State) (w : Who) (size base : Nat) : Chunk :=
  { part := (s.slot w).part, pid := (s.slot w).pid, die := dieOf w.core, block := size, base := base, taken := [] }

/-- The mark moved and the header of a new chunk written. -/
def State.headed (s : State) (w : Who) (size base : Nat) (ps : List Piece) : State :=
  (s.bumpMark (s.slot w).part (s.slot w).pid).putPieces ps (headerBytes base (s.slot w).pid size)

/-- The new chunk among the others, its block given. -/
def State.opened (s : State) (w : Who) (size base : Nat) (ps : List Piece) : State :=
  (State.takeBlock { s.headed w size base ps with chunks := (s.headed w size base ps).chunks ++ [s.chunkFor w size base] }
    (s.chunkFor w size base)).1

/-- A chunk taken from the arena, whose pages can be written: it waits while its header meets a registered range, and
otherwise is opened (R60, R63).  The chunk size is a variable before the definition is unfolded, as in
State.MemForm.newChunk. -/
theorem State.newChunk_of_ok {s : State} {m : Msg} {n : Word} {since : Option Nat} {size base : Nat} {ps : List Piece}
    (hb : s.nextChunk m.src = base)
    (hs : s.vspan (s.slot m.src).part (s.slot m.src).pid true (s.ripe since) base 64 = .ok ps)
    (hp : s.engineWaits (s.slot m.src).pid true base 64 = false → ps.any (fun p => s.partlyPoisoned p.key p.len) = false) :
    s.newChunk m n since size = if s.engineWaits (s.slot m.src).pid true base 64 then .next s
      else .next ((s.opened m.src size base ps).heapReply m (dbl ((s.chunkFor m.src size base).blockAt (s.chunkFor m.src size base).choice))) := by
  unfold State.nextChunk at hb
  obtain ⟨bytes, hbytes⟩ : ∃ b, b = chunkBytes := ⟨_, rfl⟩
  rw [← hbytes] at hb
  generalize e : @State.newChunk = f
  delta State.newChunk at e
  rw [← hbytes] at e
  subst e
  beta_reduce
  extract_lets x a place bad
  have at_base : place = base := hb
  clear_value place
  subst at_base
  rw [hs]
  dsimp only
  by_cases hw : s.engineWaits (s.slot m.src).pid true place 64 = true
  · exact (if_pos hw).trans (if_pos hw).symm
  · rw [hp (Bool.eq_false_iff.mpr hw), if_neg Bool.false_ne_true]
    rfl

theorem State.partlyPoisoned_of_clean {s : State} {k n : Nat} (h : s.anyPoison k n = false) : s.partlyPoisoned k n = false := by
  rw [Bool.eq_false_iff] at h ⊢
  intro bad
  rw [State.partlyPoisoned, Bool.and_eq_true, List.any_eq_true] at bad
  obtain ⟨some_, i, hi, marked⟩ := bad
  rw [Bool.and_eq_true] at marked
  exact h (by rw [State.anyPoison, some_, Bool.true_and]; exact List.any_eq_true.mpr ⟨i, hi, marked.1⟩)

/-- A header's pieces with no poisoned codeword are written. -/
theorem State.headerWritten {s : State} {ps : List Piece} (h : s.poisonPieces ps = false) :
    ps.any (fun p => s.partlyPoisoned p.key p.len) = false := by
  rw [List.any_eq_false]
  intro p hp
  rw [State.poisonPieces, List.any_eq_false] at h
  rw [State.partlyPoisoned_of_clean (Bool.eq_false_iff.mpr (h p hp))]
  exact Bool.false_ne_true

theorem State.onlyMemory_headed (s : State) (w : Who) (size base : Nat) (ps : List Piece) : s.OnlyMemory (s.headed w size base ps) :=
  (s.onlyMemory_bumpMark _ _).trans (State.onlyMemory_putPieces _ _ _)

theorem State.opened_units (s : State) (w : Who) (size base : Nat) (ps : List Piece) : s.SameUnits (s.opened w size base ps) := by
  obtain ⟨slots, cores, parts, sys, net⟩ := (s.onlyMemory_headed w size base ps).units
  exact ⟨slots, cores, parts, sys, net⟩

/-- The chunk opened stands among the chunks, one block taken. -/
theorem State.mem_opened_chunks (s : State) (w : Who) (size base : Nat) (ps : List Piece) :
    { s.chunkFor w size base with taken := [(s.chunkFor w size base).choice] } ∈ (s.opened w size base ps).chunks :=
  List.mem_map.mpr ⟨s.chunkFor w size base, List.mem_append_right _ (List.mem_singleton.mpr rfl), if_pos rfl⟩

/-- The arena's mark as opening a chunk leaves it, when the header does not lie on it (R60, R359). -/
theorem State.mark_opened {s : State} {w : Who} {size base mark : Nat} {ps : List Piece}
    (hm : mark = devKey (s.procEntry (s.slot w).part (s.slot w).pid + 28))
    (h : ∀ p ∈ ps, p.shadow = none ∧ (p.key + p.len ≤ mark ∨ mark + 4 ≤ p.key)) :
    (s.opened w size base ps).nat mark 4 = ((s.arena (s.slot w).part (s.slot w).pid).2.2 + 1) % 2 ^ 32 := by
  have apart : (s.headed w size base ps).nat mark 4 = (s.bumpMark (s.slot w).part (s.slot w).pid).nat mark 4 :=
    State.nat_of_bytes fun j hj => State.byte_putPieces_outside fun p hp => ⟨(h p hp).1, by have := (h p hp).2; omega⟩
  calc (s.opened w size base ps).nat mark 4 = (s.headed w size base ps).nat mark 4 := State.nat_of_mem rfl _ _
    _ = _ := apart
    _ = _ := by rw [hm]; exact State.nat_setNat _ _ _ _

/-! ### FREE at the engine (R61) -/

/-- The pieces of a translated span have the lengths of its cuts. -/
theorem State.spanOf_lengths {s : State} {part : Nat} {pid : BitVec 16} {need : Need} {cuts : List (Nat × Nat)} {ps : List Piece}
    (h : s.spanOf part pid need cuts = .ok ps) : ps.map (fun p => p.len) = cuts.map (fun c => c.2) := by
  induction cuts generalizing ps with
  | nil =>
    cases h
    rfl
  | cons c cuts ih =>
    rw [State.spanOf] at h
    split at h
    · cases h
    · cases h
    · split at h
      · cases h
      · split at h
        · next qs hq =>
          cases h
          rw [List.map_cons, List.map_cons, ih hq]
        · next other => exact absurd h (other _)

/-- A span of 16 bytes in one piece is a piece of 16 bytes. -/
theorem State.vspan_single {s : State} {part : Nat} {pid : BitVec 16} {write ripe : Bool} {va : Nat} {p : Piece}
    (h : s.vspan part pid write ripe va 16 = .ok [p]) : p.len = 16 := by
  have lengths := State.spanOf_lengths h
  have one : ceilDiv (va + 16) 256 - va / 256 = 1 := by simpa [sectorCuts] using (congrArg List.length lengths).symm
  rw [sectorCuts, one] at lengths
  simp only [List.map_cons, List.map_nil, List.range_one, List.cons.injEq, and_true] at lengths
  rw [ceilDiv] at one
  omega

section
variable {s : State} {id : Nat} {m : Msg} {n : Word} {since : Option Nat}

theorem State.freeStep_of_zero (h : n.toNat = 0) : s.freeStep m n since = .next (s.heapReply m 0) := if_pos h

/-- An address outside the arena of a slot's process (R61, R359). -/
def State.offArena (s : State) (w : Who) (v : Nat) : Prop :=
  (s.arena (s.slot w).part (s.slot w).pid).1 = 0 ∨ v < (s.arena (s.slot w).part (s.slot w).pid).1 ∨
    (s.arena (s.slot w).part (s.slot w).pid).1 + (s.arena (s.slot w).part (s.slot w).pid).2.1 * chunkBytes ≤ v

theorem State.freeStep_of_outside (h0 : n.toNat ≠ 0) (h : s.offArena m.src n.toNat) :
    s.freeStep m n since = .next (s.heapFault m .access n) := (if_neg h0).trans (if_pos h)

/-- The chunk that an address of the arena lies in. -/
def State.chunkBase (s : State) (w : Who) (v : Nat) : Nat :=
  (s.arena (s.slot w).part (s.slot w).pid).1 + (v - (s.arena (s.slot w).part (s.slot w).pid).1) / chunkBytes * chunkBytes

/-- A FREE of a live block, whose header and marker are as R61 asks. -/
structure State.FreesBlock (s : State) (m : Msg) (n : Word) (since : Option Nat) (c : Chunk) (hs : List Piece) (p : Piece) (i : Nat) :
    Prop where
  inside : ¬ s.offArena m.src n.toNat
  header : s.vspan (s.slot m.src).part (s.slot m.src).pid false (s.ripe since) (s.chunkBase m.src n.toNat) 64 = .ok hs
  piece : s.vspan (s.slot m.src).part (s.slot m.src).pid true (s.ripe since) n.toNat 16 = .ok [p]
  reads : s.engineWaits (s.slot m.src).pid false (s.chunkBase m.src n.toNat) 64 = false
  writes : s.engineWaits (s.slot m.src).pid true n.toNat 16 = false
  found : s.chunks.find? (fun c => decide (c.part = (s.slot m.src).part ∧ c.pid = (s.slot m.src).pid ∧
    c.base = s.chunkBase m.src n.toNat)) = some c
  size : 0 < c.block
  valid : s.getPieces hs = headerBytes (s.chunkBase m.src n.toNat) (s.slot m.src).pid c.block
  address : n.toNat = s.chunkBase m.src n.toNat + firstBlock c.block + i * c.block
  index : i < blockCount c.block
  live : dbl (s.nat (p.key + 8) 8) ≠ Config.freeMarker n.toNat

theorem State.FreesBlock.base {c : Chunk} {hs : List Piece} {p : Piece} {i : Nat} (h : s.FreesBlock m n since c hs p i) :
    c.base = s.chunkBase m.src n.toNat := by
  have chosen := List.find?_some h.found
  exact (of_decide_eq_true chosen).2.2

theorem State.FreesBlock.freeStep {c : Chunk} {hs : List Piece} {p : Piece} {i : Nat} (h : s.FreesBlock m n since c hs p i) :
    s.freeStep m n since = .next ((s.giveBlock c n.toNat [p]).heapReply m 0) := by
  have address := h.address
  have nonzero : n.toNat ≠ 0 := by
    have : 64 ≤ firstBlock c.block := le_max_left _ _
    omega
  have offset : n.toNat - s.chunkBase m.src n.toNat - firstBlock c.block = i * c.block := by omega
  have last : i * c.block < blockCount c.block * c.block := Nat.mul_lt_mul_of_pos_right h.index h.size
  have placed : ¬ (n.toNat < s.chunkBase m.src n.toNat + firstBlock c.block ∨
      (n.toNat - s.chunkBase m.src n.toNat - firstBlock c.block) % c.block ≠ 0 ∨
      s.chunkBase m.src n.toNat + firstBlock c.block + blockCount c.block * c.block ≤ n.toNat) := by
    rw [offset, Nat.mul_mod_left]
    omega
  have marker : (s.getPieces [p]).drop 8 = s.bytes (p.key + 8) 8 := by
    simp [State.getPieces, State.vspan_single h.piece, State.bytes]
  have live : dbl (leNat ((s.getPieces [p]).drop 8)) ≠ Config.freeMarker n.toNat := by
    rw [marker]
    exact h.live
  obtain ⟨inside, header, piece, reads, writes, found, -, valid, -, -, -⟩ := h
  unfold State.chunkBase at header reads found valid placed
  unfold State.offArena at inside
  rw [State.freeStep]
  simp only [nonzero, if_false, inside, header, reads, writes, Bool.or_self, Bool.false_eq_true, found, valid, ne_eq,
    not_true_eq_false, placed, piece, live]

/-- The link and the marker of a freed block. -/
def freedBytes (p : Nat) (taken : List Nat) : List Byte := leBytes 8 (Config.heapLink p taken).toNat ++ leBytes 8 (Config.freeMarker p).toNat

theorem length_freedBytes (p : Nat) (taken : List Nat) : (freedBytes p taken).length = 16 := by
  simp [freedBytes, leBytes_length]

theorem State.giveBlock_units (s : State) (c : Chunk) (v : Nat) (ps : List Piece) : s.SameUnits (s.giveBlock c v ps) := by
  obtain ⟨slots, cores, parts, sys, net⟩ := (s.onlyMemory_putPieces ps (freedBytes v c.taken)).units
  exact ⟨slots, cores, parts, sys, net⟩

/-- The chunk that a block is given back to. -/
theorem State.FreesBlock.given {c : Chunk} {hs : List Piece} {p : Piece} {i : Nat} (h : s.FreesBlock m n since c hs p i) :
    { c with taken := c.taken.filter (fun j => j != i) } ∈ (s.giveBlock c n.toNat [p]).chunks := by
  obtain ⟨-, -, -, -, -, -, -, -, -, chunks, -, -⟩ := (s.onlyMemory_putPieces [p] (freedBytes n.toNat c.taken)).frame
  have index : (n.toNat - c.base - firstBlock c.block) / c.block = i := by
    have address := h.address
    rw [h.base, show n.toNat - s.chunkBase m.src n.toNat - firstBlock c.block = i * c.block by omega, Nat.mul_div_cancel _ h.size]
  refine List.mem_map.mpr ⟨c, chunks ▸ List.mem_of_find?_eq_some h.found, ?_⟩
  rw [if_pos rfl, index]

/-- The bytes that a freed block holds: the link and the marker, in one piece (R61). -/
theorem State.mem_giveBlock {c : Chunk} {p : Piece} {v : Nat} (hl : p.len = 16) (hs : p.shadow = none) :
    (s.giveBlock c v [p]).mem = (s.setBytes p.key (freedBytes v c.taken)).mem := by
  have whole : (freedBytes v c.taken).take p.len = freedBytes v c.taken := List.take_of_length_le (by rw [length_freedBytes, hl])
  change (s.putPieces [p] (freedBytes v c.taken)).mem = _
  rw [State.putPieces, whole, hs]
  simp [State.putPieces]

/-- A word of eight bytes as they were written. -/
theorem leNat_leBytes_word (w : Word) : leNat (leBytes 8 w.toNat) = w.toNat := by
  rw [leNat_leBytes]
  exact Nat.mod_eq_of_lt w.isLt

theorem State.freed_bytes {c : Chunk} {p : Piece} {v : Nat} (hl : p.len = 16) (hs : p.shadow = none) :
    (s.giveBlock c v [p]).nat p.key 8 = (Config.heapLink v c.taken).toNat ∧
      (s.giveBlock c v [p]).nat (p.key + 8) 8 = (Config.freeMarker v).toNat ∧
      ∀ a, a < p.key ∨ p.key + 16 ≤ a → (s.giveBlock c v [p]).byte a = s.byte a := by
  have mem := State.mem_giveBlock (s := s) (c := c) (v := v) hl hs
  have length := length_freedBytes v c.taken
  refine ⟨?_, ?_, fun a ha => ?_⟩
  · have link : ((freedBytes v c.taken).drop 0).take 8 = leBytes 8 (Config.heapLink v c.taken).toNat :=
      List.take_left' (leBytes_length _ _)
    have read := s.nat_setBytes p.key 0 8 (freedBytes v c.taken) (by omega)
    rw [Nat.add_zero, link, leNat_leBytes_word] at read
    rw [State.nat_of_mem mem, read]
  · have marker : ((freedBytes v c.taken).drop 8).take 8 = leBytes 8 (Config.freeMarker v).toNat := by
      rw [freedBytes, List.drop_left' (leBytes_length _ _), List.take_of_length_le (by rw [leBytes_length])]
    rw [State.nat_of_mem mem, State.nat_setBytes _ _ _ _ _ (by omega), marker, leNat_leBytes_word]
  · rw [State.byte_of_mem mem, State.byte_setBytes_outside _ _ _ _ (by omega)]

end

/-! ### O36 -/

theorem State.sameMemory_answered {s u : State} {id : Nat} {m : Msg} {v : Word} (h : s.SameMemory u) : s.SameMemory (u.answered id m v) :=
  h.trans (.of_eq rfl rfl rfl)

/-- The chunk with a free block that serves an ALLOC: its block is chosen, and given unless its write waits (R60, R63). -/
theorem State.AwaitsEngine.alloc_chunk {s : State} {id : Nat} {m : Msg} {n : Word} {since : Option Nat} {c : Chunk}
    (h : s.AwaitsEngine id m) (hb : m.body = .alloc n since) (hn : ¬ (n.toNat = 0 ∨ 65536 < n.toNat))
    (hf : s.chunks.find? (s.serves m (blockSize n.toNat)) = some c) :
    c.choice < blockCount (blockSize n.toNat) ∧ c.choice ∉ c.taken ∧ c.block = blockSize n.toNat ∧
      exec (.allocatorEngineStep id) s = if s.engineWaits (s.slot m.src).pid true (c.blockAt c.choice) 16 then .next s.uncached
        else .next (((s.uncached.takeBlock c).1.unmark (s.slot m.src).part (s.slot m.src).pid c.taken (c.blockAt c.choice)).heapReply m
          (dbl (c.blockAt c.choice))) := by
  have serves := List.find?_some hf
  obtain ⟨-, -, -, block, room⟩ := of_decide_eq_true serves
  rw [← block] at room
  obtain ⟨below, free⟩ := Chunk.choice_free room
  exact ⟨block ▸ below, free, block, (h.exec_alloc hb).trans (State.allocStep_of_chunk hn hf)⟩

/-- Settles O36: the engine's answers, by the request and by what its chunks and its arena hold. -/
theorem heapBlocks : Obligations.HeapBlocks := by
  unfold Obligations.HeapBlocks
  intro s d a id m n since c x s0 size asks answers has
  have small {n : Word} (h0 : n ≠ 0) (hn : n.toNat ≤ 65536) : ¬ (n.toNat = 0 ∨ 65536 < n.toNat) := by
    rintro (h | h)
    · exact h0 (BitVec.eq_of_toNat_eq h)
    · omega
  refine ⟨fun hr => ⟨State.asks_of_send hr rfl, State.asks_of_send hr rfl⟩, fun found runs hears park => ?_⟩
  have awaits : s.AwaitsEngine id m := ⟨found, runs, hears, park⟩
  constructor
  · intro hb
    refine ⟨fun hn => ?_, fun h0 hn hf hl => ?_, fun h0 hn hf => ?_, fun h0 hn hf hl ps hs => ?_⟩
    · have bad : n.toNat = 0 ∨ 65536 < n.toNat := hn.imp_left fun h => congrArg BitVec.toNat h
      exact awaits.answers s.sameUnits_uncached ((awaits.exec_alloc hb).trans (State.allocStep_of_size bad))
        ⟨State.sameMemory_answered (.of_eq rfl rfl rfl), rfl⟩
    · exact awaits.answers s.sameUnits_uncached ((awaits.exec_alloc hb).trans (State.allocStep_of_spent (small h0 hn) hf hl))
        ⟨State.sameMemory_answered (.of_eq rfl rfl rfl), rfl⟩
    · intro meets
      obtain ⟨below, free, block, run⟩ := awaits.alloc_chunk hb (small h0 hn) hf
      have place : c.blockAt c.choice = c.base + max 64 size + c.choice * size := by rw [Chunk.blockAt, block]; rfl
      rw [place] at run
      refine ⟨fun all => ?_, fun none_ => ⟨c.choice, below, free, ?_⟩⟩
      · exact run.trans (if_pos (all _ below free))
      · rw [if_neg (fun h => absurd ((none_ _ below free).symm.trans h) (by decide))] at run
        have memory := (s.uncached.takeBlock c).1.onlyMemory_unmark x.part x.pid c.taken (c.base + max 64 size + c.choice * size)
        obtain ⟨slots, cores, parts, sys, net⟩ := memory.units
        obtain ⟨-, -, -, -, -, -, -, -, -, chunks, -, -⟩ := memory.frame
        refine awaits.answers ⟨slots, cores, parts, sys, net⟩ run ?_
        rw [State.answered_chunks, chunks]
        exact List.mem_map.mpr ⟨c, List.mem_of_find?_eq_some hf, if_pos rfl⟩
    · intro base mark
      have run (hp : s.uncached.engineWaits x.pid true base 64 = false → ps.any (fun p => s.uncached.partlyPoisoned p.key p.len) = false) :=
        (awaits.exec_alloc hb).trans ((State.allocStep_of_left (s := s.uncached) (small h0 hn) hf hl).trans
          (State.newChunk_of_ok (s := s.uncached) (base := base) rfl hs hp))
      refine ⟨fun waits => ?_, fun clear clean => ?_⟩
      · exact (run fun h => absurd (waits.symm.trans h) (by decide)).trans (if_pos waits)
      · have written := (run fun _ => State.headerWritten clean).trans (if_neg fun h => absurd (clear.symm.trans h) (by decide))
        obtain ⟨slots, cores, parts, sys, net⟩ := s.uncached.opened_units m.src size base ps
        obtain ⟨below, -⟩ := Chunk.choice_free (c := s.uncached.chunkFor m.src size base) (blockCount_pos hn)
        have member := s.uncached.mem_opened_chunks m.src size base ps
        refine ⟨_, below, awaits.answers ⟨slots, cores, parts, sys, net⟩ written ⟨⟨_, member, rfl, rfl, rfl, rfl⟩, fun apart => ?_⟩⟩
        rw [State.nat_of_mem (State.answered_mem _ _ _ _)]
        exact State.mark_opened rfl apart
  · intro hb
    refine ⟨fun h0 hrd => ?_, fun h0 outside => ?_, fun c hs p i hrd h0 hlo hhi => ?_⟩
    · exact awaits.answers s.sameUnits_uncached ((awaits.exec_free hb).trans (State.freeStep_of_zero (by simp [h0])))
        ⟨State.sameMemory_answered (.of_eq rfl rfl rfl), rfl⟩
    · have nonzero : n.toNat ≠ 0 := fun h => h0 (BitVec.eq_of_toNat_eq h)
      exact (awaits.exec_free hb).trans ((State.freeStep_of_outside nonzero outside).trans (congrArg _ awaits.heapFault))
    · intro base header piece reads writes found size valid address index shadow live
      have inside : ¬ s.uncached.offArena m.src n.toNat := by
        rintro (h | h | h)
        · exact h0 h
        · exact Nat.not_le.mpr h hlo
        · exact Nat.not_le.mpr hhi h
      have frees : s.uncached.FreesBlock m n since c hs p i :=
        ⟨inside, header, piece, reads, writes, found, size, (s.getPieces_uncached hs).trans valid, address, index, live⟩
      obtain ⟨link, marker, outside⟩ := State.freed_bytes (s := s.uncached) (c := c) (v := n.toNat) (State.vspan_single piece) shadow
      obtain ⟨slots, cores, parts, sys, net⟩ := s.uncached.giveBlock_units c n.toNat [p]
      refine awaits.answers ⟨slots, cores, parts, sys, net⟩ ((awaits.exec_free hb).trans frees.freeStep) ⟨?_, ?_, ?_, fun a ha => ?_⟩
      · rw [State.answered_chunks]
        exact frees.given
      · rw [State.nat_of_mem (State.answered_mem _ _ _ _), link]
      · rw [State.nat_of_mem (State.answered_mem _ _ _ _), marker]
      · exact (State.byte_of_mem (State.answered_mem _ _ _ _) a).trans (outside a ha)

end Sys2Proof.Machine
end

section
/-! PROOFS.  What a store in scratchpad leaves (R40, R203, R232): what O8 shares with the stores of O5. -/

namespace Sys2Proof.Machine

/-! ### The observations of a store -/

theorem State.OnlyMemory.noteHeads {s t : State} (h : s.OnlyMemory t) (k n : Nat) : (s.noteHeads k n).OnlyMemory (t.noteHeads k n) := by
  rw [State.OnlyMemory] at h ⊢
  rw [h]
  rfl

/-- Bytes written in scratchpad: outside memory only the APPENDs parked on a ring's head are marked. -/
theorem State.onlyMemory_put {s : State} {k : Nat} {bs : List Byte} (hk : k < 2 ^ 60) :
    (s.noteHeads k bs.length).OnlyMemory (s.put k bs) := by
  rw [State.put, if_pos hk]
  exact (s.onlyMemory_storeSpad k bs).noteHeads k bs.length

theorem State.onlyMemory_store {s : State} {k : Nat} {bs : List Byte} (hk : k < 2 ^ 60) :
    (s.noteHeads k bs.length).OnlyMemory (s.store k bs) :=
  (State.onlyMemory_put hk).trans (State.onlyMemory_clearPoison _ _ _)

theorem State.byte_put {s : State} {k : Nat} {bs : List Byte} (hk : k < 2 ^ 60) (a : Nat) :
    (s.put k bs).byte a = if k ≤ a ∧ a < k + bs.length then bs.getD (a - k) 0 else s.byte a := by
  rw [State.put, if_pos hk, ← State.byte_setBytes, ← State.byte_storeSpad]
  rfl

/-- The side tags of bytes written in scratchpad: 62 on every word that they touch (R40). -/
theorem State.sideTag_put {s : State} {k : Nat} {bs : List Byte} (hk : k < 2 ^ 60) (hn : bs ≠ []) (a : Nat) :
    (s.put k bs).sideTag a = if k / 4 ≤ a / 4 ∧ a / 4 ≤ (k + bs.length - 1) / 4 then 62 else s.sideTag a := by
  have pos : 0 < bs.length := List.length_pos_iff.mpr hn
  have words : (∃ i ∈ List.range (ceilDiv (k % 4 + bs.length) 4), (k + 4 * i) / 4 = a / 4) ↔
      k / 4 ≤ a / 4 ∧ a / 4 ≤ (k + bs.length - 1) / 4 := by
    simp only [List.mem_range, ceilDiv]
    constructor
    · rintro ⟨i, hi, e⟩
      omega
    · intro h
      exact ⟨a / 4 - k / 4, by omega, by omega⟩
  rw [State.put, if_pos hk]
  change (State.clearTags (s.setBytes k bs) k bs.length).sideTag a = _
  rw [State.clearTags, State.sideTag_foldl_setSideTag, if_congr words rfl rfl]
  have before : (s.setBytes k bs).sideTag a = s.sideTag a := by simp [State.sideTag]
  rw [before]
  rfl

theorem State.poisoned_put {s : State} {k : Nat} {bs : List Byte} (hk : k < 2 ^ 60) (a : Nat) : (s.put k bs).poisoned a = s.poisoned a := by
  rw [State.put, if_pos hk]
  simp [State.poisoned, State.noteHeads]

/-- A poison mark after some marks were cleared. -/
theorem State.poisoned_foldl_clear (c : Nat → Prop) [DecidablePred c] (f : Nat → Nat) (l : List Nat) (s : State) (a : Nat) :
    (l.foldl (fun s i => if c i then s.setPoison (f i) false else s) s).poisoned a =
      if ∃ i ∈ l, c i ∧ poisonKey a = poisonKey (f i) then false else s.poisoned a := by
  induction l generalizing s with
  | nil => simp
  | cons i r ih =>
    rw [List.foldl_cons, ih]
    by_cases hr : ∃ i ∈ r, c i ∧ poisonKey a = poisonKey (f i)
    · simp [hr]
    · by_cases hi : c i
      · by_cases hk : poisonKey a = poisonKey (f i)
        · simp [hi, hk]
        · simp [hi, hk, hr]
      · simp [hi, hr]

/-- The poison marks of the words that a write in scratchpad fills, cleared (R203). -/
theorem State.poisoned_clearPoison {s : State} {k n : Nat} (hk : k + n ≤ 2 ^ 60) (hn : n ≠ 0) (a : Nat) : (s.clearPoison k n).poisoned a =
    if a < 2 ^ 60 ∧ k ≤ a / 4 * 4 ∧ a / 4 * 4 + 4 ≤ k + n then false else s.poisoned a := by
  rw [State.clearPoison, if_neg (by omega)]
  by_cases clean : s.poison = []
  · have unmarked : s.poisoned a = false := by rw [State.poisoned, clean]; rfl
    rw [if_pos clean, unmarked, ite_self]
  · have words : (∃ i ∈ List.range n, ((k + i) % 4 = 0 ∧ i + 4 ≤ n) ∧ poisonKey a = poisonKey (k + i)) ↔
        a < 2 ^ 60 ∧ k ≤ a / 4 * 4 ∧ a / 4 * 4 + 4 ≤ k + n := by
      constructor
      · rintro ⟨i, hi, ⟨aligned, whole⟩, same⟩
        rw [List.mem_range] at hi
        unfold poisonKey at same
        rw [if_pos (show k + i < 2 ^ 60 by omega)] at same
        split at same <;> omega
      · rintro ⟨low, first, last⟩
        refine ⟨a / 4 * 4 - k, List.mem_range.mpr (by omega), ⟨by omega, by omega⟩, ?_⟩
        unfold poisonKey
        rw [if_pos low, if_pos (by omega)]
        omega
    rw [if_neg clean, State.poisoned_foldl_clear (fun i => (k + i) % 4 = 0 ∧ i + 4 ≤ n) (fun i => k + i), if_congr words rfl rfl]

theorem State.clearPoison_frame (s : State) (k n : Nat) : (s.clearPoison k n).mem = s.mem ∧ (s.clearPoison k n).stags = s.stags := by
  unfold State.clearPoison
  split
  · simp
  · split
    · exact ⟨rfl, rfl⟩
    · exact ⟨foldl_keeps (φ := State.mem) (fun s i => by split <;> rfl) _ _, foldl_keeps (φ := State.stags) (fun s i => by split <;> rfl) _ _⟩

/-- A store in scratchpad, whatever its slot then becomes, is as `State.Stored` says. -/
theorem State.stored_of_store {s : State} {k : Nat} {bs : List Byte} (hk : k + bs.length ≤ 2 ^ 60) (hn : bs ≠ []) (x : Slot) :
    s.Stored ((s.store k bs).setMe x) k bs (fun _ => 62) := by
  have pos : 0 < bs.length := List.length_pos_iff.mpr hn
  have low : k < 2 ^ 60 := by omega
  have only := State.onlyMemory_store (s := s) (bs := bs) low
  obtain ⟨mem, stags⟩ := State.clearPoison_frame (s.put k bs) k bs.length
  obtain ⟨cur, slots, cores, tiles, net, parts, launches, sys, ranges, chunks, nextId, posted⟩ := only.frame
  have rest : (s.store k bs).focus = s.focus ∧ (s.store k bs).agenda = s.agenda ∧ (s.store k bs).nodes = s.nodes ∧ (s.store k bs).edges = s.edges ∧
      (s.store k bs).tlb = s.tlb ∧ (s.store k bs).ticket = s.ticket ∧ (s.store k bs).cached = s.cached ∧ (s.store k bs).free = s.free := by
    rw [only]
    exact ⟨rfl, rfl, rfl, rfl, rfl, rfl, rfl, rfl⟩
  obtain ⟨focus, agenda, nodes, edges, tlb, ticket, cached, free⟩ := rest
  exact { cur := cur, focus := focus, agenda := agenda, net := net, launches := launches, sys := sys, ranges := ranges, chunks := chunks,
          nextId := nextId, posted := posted, nodes := nodes, edges := edges, tlb := tlb, ticket := ticket, cached := cached, free := free,
          byte := fun a => (State.byte_of_mem mem a).trans (State.byte_put low a),
          sideTag := fun a => by
            have after : ((s.store k bs).setMe x).sideTag a = (s.put k bs).sideTag a := congrArg (fun m => mapGet m Tag.none (a / 4)) stags
            rw [after, State.sideTag_put low hn],
          poison := fun a => (State.poisoned_clearPoison hk pos.ne' a).trans (if_congr Iff.rfl rfl (State.poisoned_put low a)),
          slot := fun w hw => by
            rw [State.setMe, cur, State.slot_setSlot]
            exact (if_neg hw).trans (State.slot_of_slots slots w),
          core := fun c => State.core_of_cores cores c,
          tile := fun c => State.tile_of_tiles tiles c,
          part := fun p => congrArg (fun m => mapGet m Partition.reset p) parts }

/-- The running slot after a write of memory. -/
theorem State.OnlyMemory.me {s t : State} (h : s.OnlyMemory t) : t.me = s.me := by
  obtain ⟨cur, slots, -⟩ := h.frame
  rw [State.me, cur, State.slot_of_slots slots, ← State.me]

theorem State.me_store {s : State} {k : Nat} {bs : List Byte} (hk : k < 2 ^ 60) : (s.store k bs).me = s.me :=
  (State.onlyMemory_store hk).me

/-- An instruction that stores bytes in scratchpad and completes. -/
theorem State.stores_of_store {s : State} {i : Instr} {k : Nat} {bs : List Byte} (hk : k + bs.length ≤ 2 ^ 60) (hn : bs ≠ [])
    (run : exec i s = .next ((s.store k bs).setMe s.me.next)) : s.Stores i k bs (fun _ => 62) Slot.SameRegs :=
  ⟨_, run, State.stored_of_store hk hn _, by simpa using s.me.kept_next, by simp [Slot.next], by simp [Slot.next], by simp [Slot.next],
    by simpa using s.me.sameRegs_next⟩

/-- The key of a raw byte of a core's scratchpad. -/
theorem spadKey_lt (a : Nat) : spadKey (homeOf a) (offOf a) < 2 ^ 36 := by
  rw [spadKey, homeOf, offOf]
  omega

end Sys2Proof.Machine
end

section
/-! PROOFS.  The arithmetic of exact cells (R84-R86, R98). -/

namespace Sys2Proof.Machine

/-! ### The fields of a cell (R84) -/

theorem toBits_lt (w : Nat) (x : Int) : toBits w x < 2 ^ w := by
  have := Int.emod_lt_of_pos x (show (0 : Int) < 2 ^ w by positivity)
  have := Int.emod_nonneg x (show (2 : Int) ^ w ≠ 0 by positivity)
  rw [toBits]
  have : ((2 ^ w : Nat) : Int) = (2 : Int) ^ w := by push_cast; rfl
  omega

/-- Two's complement reads back every value of its range. -/
theorem asInt_toBits {w : Nat} (hw : 0 < w) {x : Int} (low : -(2 ^ (w - 1) : Int) ≤ x) (high : x < (2 ^ (w - 1) : Int)) :
    asInt w (toBits w x) = x := by
  have half : (2 : Int) ^ w = 2 * 2 ^ (w - 1) := by rw [← pow_succ', Nat.sub_add_cancel hw]
  have cast : ((2 ^ (w - 1) : Nat) : Int) = (2 : Int) ^ (w - 1) := by push_cast; rfl
  have residue : ((toBits w x : Nat) : Int) = if x < 0 then x + 2 ^ w else x := by
    have nonneg := Int.emod_nonneg x (show (2 : Int) ^ w ≠ 0 by positivity)
    rw [toBits, Int.toNat_of_nonneg nonneg]
    split
    · rw [← Int.add_emod_right, Int.emod_eq_of_lt (by omega) (by omega)]
    · exact Int.emod_eq_of_lt (by omega) (by omega)
  rw [asInt, residue]
  split <;> split at residue <;> omega

/-- Two fields of sixteen bits above a number below P. -/
theorem fields_of_sum {P b n u : Nat} (hb : b < P) (hn : n < 65536) (hu : u < 65536) :
    (b + n * P + u * (P * 65536)) % P = b ∧ (b + n * P + u * (P * 65536)) / P % 65536 = n ∧
      (b + n * P + u * (P * 65536)) / (P * 65536) % 65536 = u := by
  have sum : b + n * P + u * (P * 65536) = b + P * (n + 65536 * u) := by ring
  have quotient : (b + P * (n + 65536 * u)) / P = n + 65536 * u := by
    rw [Nat.add_mul_div_left _ _ (by omega), Nat.div_eq_of_lt hb, Nat.zero_add]
  rw [sum]
  refine ⟨?_, ?_, ?_⟩
  · rw [Nat.add_mul_mod_self_left, Nat.mod_eq_of_lt hb]
  · rw [quotient]
    omega
  · rw [← Nat.div_div_eq_div_mul, quotient]
    omega

/-- A cell made of fields has them. -/
theorem cellIs_mkCell {u n : Nat} {v : Int} (hu : u < 2 ^ 16) (hn : n < 2 ^ 16) (low : -(2 ^ 479) ≤ v) (high : v < 2 ^ 479) :
    cellIs (mkCell u n v) u n v := by
  obtain ⟨value, count, umax⟩ := fields_of_sum (toBits_lt 480 v) hn hu
  have top : 2 ^ 480 * 65536 = 2 ^ 496 := (Nat.pow_add 2 480 16).symm
  have fields : mkCell u n v = toBits 480 v + n * 2 ^ 480 + u * (2 ^ 480 * 65536) := by
    rw [mkCell, Nat.mod_eq_of_lt hu, Nat.mod_eq_of_lt hn, top]
  rw [top] at umax
  refine ⟨?_, ?_, ?_⟩
  · rw [fields, top]
    exact umax
  · rw [fields]
    exact count
  · rw [cellValue, nfield, pow_zero, Nat.div_one, fields, value]
    exact asInt_toBits (by decide) low high

theorem asInt_bounds {w n : Nat} (hw : 0 < w) (hn : n < 2 ^ w) : -(2 ^ (w - 1) : Int) ≤ asInt w n ∧ asInt w n < (2 ^ (w - 1) : Int) := by
  have half : 2 ^ w = 2 * 2 ^ (w - 1) := by rw [← pow_succ', Nat.sub_add_cancel hw]
  have cast : ((2 ^ (w - 1) : Nat) : Int) = (2 : Int) ^ (w - 1) := by push_cast; rfl
  have cast' : ((2 ^ w : Nat) : Int) = (2 : Int) ^ w := by push_cast; rfl
  rw [asInt]
  split <;> omega

/-- The fields of a cell lie in their ranges. -/
structure CellFields (c u n : Nat) (v : Int) : Prop where
  umax : cellUmax c = u
  count : cellCount c = n
  value : cellValue c = v
  umax_lt : u < 2 ^ 16
  count_lt : n < 2 ^ 16
  low : -(2 ^ 479) ≤ v
  high : v < 2 ^ 479

theorem cellFields_of_cellIs {c u n : Nat} {v : Int} (h : cellIs c u n v) : CellFields c u n v := by
  obtain ⟨umax, count, value⟩ := h
  have bounds := asInt_bounds (w := 480) (by decide) (Nat.mod_lt (c / 2 ^ 0) (Nat.two_pow_pos 480))
  exact ⟨umax, count, value, umax ▸ Nat.mod_lt _ (by decide), count ▸ Nat.mod_lt _ (by decide), value ▸ bounds.1, value ▸ bounds.2⟩

/-! ### FP32 addends (R68) -/

theorem f32_isNaN_iff (x : Nat) : f32.isNaN x = true ↔ 0x7F800000 < x % 2 ^ 31 := by
  simp only [Fmt.isNaN, Fmt.expField, Fmt.frac, Fmt.top, nfield, f32, Bool.and_eq_true, beq_iff_eq, bne_iff_ne]
  omega

theorem f32_isInf_iff (x : Nat) : f32.isInf x = true ↔ x % 2 ^ 31 = 0x7F800000 := by
  simp only [Fmt.isInf, Fmt.expField, Fmt.frac, Fmt.top, nfield, f32, Bool.and_eq_true, beq_iff_eq]
  omega

theorem f32_sign_iff {x : Nat} (hx : x < 2 ^ 32) : f32.sign x = true ↔ 2 ^ 31 ≤ x := by
  simp only [Fmt.sign, nbit, f32, beq_iff_eq]
  omega

theorem cellUnits_eq (x : Nat) : cellUnits x = (f32.value x).units (-149) := by
  rw [cellUnits]
  cases f32.value x with
  | fin n m e =>
    simp only [FV.units, sub_neg_eq_add]
    cases n
    · exact (one_mul _).symm
    · exact (neg_one_mul _).symm
  | inf n => rfl
  | nan => rfl

/-- A finite FP32 number: 24 bits, and the exponent of the format (R68). -/
theorem f32_value_of_finite {x : Nat} (h : x % 2 ^ 31 < 0x7F800000) :
    ∃ m e, f32.value x = .fin (f32.sign x) m e ∧ m < 2 ^ 24 ∧ -149 ≤ e ∧ e ≤ 104 := by
  have exponent : f32.expField x < 255 := by
    simp only [Fmt.expField, nfield, f32]
    omega
  have fraction : f32.frac x < 2 ^ 23 := Nat.mod_lt _ (by decide)
  rw [f32_value_of_exponent exponent]
  by_cases zero : f32.expField x = 0
  · exact ⟨_, _, if_pos zero, by omega, by omega, by omega⟩
  · exact ⟨_, _, if_neg zero, by omega, by omega, by omega⟩

/-- The exponent of a finite FP32 number (R89). -/
theorem f32_lead_bounds {x : Nat} (h : x % 2 ^ 31 < 0x7F800000) : -150 ≤ f32.lead x ∧ f32.lead x ≤ 127 := by
  obtain ⟨m, e, value, bits, low, high⟩ := f32_value_of_finite h
  rw [Fmt.lead, value, leadFV]
  by_cases zero : m = 0
  · rw [if_pos zero]
    decide
  · have digits := (Nat.log2_lt zero).mpr bits
    rw [if_neg zero]
    dsimp only
    omega

/-! ### XCADD, row by row (R85, R98) -/

/-- The uncertainty exponent of an addend (R89, R90): a 16-bit number. -/
theorem unc_bounds {x : Nat} {t : Tag} {y : Int} (h : x % 2 ^ 31 < 0x7F800000) (hy : f32.unc x (readTag 24 t) = some y) :
    -(2 ^ 15) ≤ y ∧ y < 2 ^ 15 := by
  obtain ⟨low, high⟩ := f32_lead_bounds h
  rw [Fmt.unc] at hy
  split at hy
  · cases hy
  · have := (readTag 24 t).isLt
    have value := Option.some.inj hy
    omega

theorem umaxMax_spec {u : Nat} {y : Int} (hu : u < 2 ^ 16) (low : -(2 ^ 15) ≤ y) (high : y < 2 ^ 15) :
    umaxMax u y < 2 ^ 16 ∧ asInt 16 (umaxMax u y) = max (asInt 16 u) y := by
  rw [umaxMax]
  split
  · exact ⟨toBits_lt 16 y, by rw [asInt_toBits (by decide) low high]; omega⟩
  · exact ⟨hu, by omega⟩

section
variable {c u n x : Nat} {v : Int} {t : Tag}

/-- A count that has taken one more addend. -/
theorem count_up_lt (n : Nat) : min 65535 (n + 1) < 2 ^ 16 := by omega

theorem CellFields.add_nan (h : CellFields c u n v) (hx : f32.isNaN x = true) : cellAdd c x t = mkCell 0x7FFF (min 65535 (n + 1)) v := by
  rw [cellAdd, if_pos hx, h.count, h.value]

theorem CellFields.add_to_nan (h : CellFields c u n v) (hx : f32.isNaN x = false) (hu : u = 0x7FFF) :
    cellAdd c x t = mkCell u (min 65535 (n + 1)) v := by
  rw [cellAdd, hx, if_neg Bool.false_ne_true, if_pos (h.umax.trans hu), h.umax, h.count, h.value]

theorem CellFields.add_inf (h : CellFields c u n v) (hx : f32.isInf x = true) (hn : f32.isNaN x = false) (hu : u ≠ 0x7FFF) :
    cellAdd c x t = if umaxFinite u || u == (if f32.sign x then 0x7FFD else 0x7FFE) then
      mkCell (if f32.sign x then 0x7FFD else 0x7FFE) (min 65535 (n + 1)) v else mkCell 0x7FFF n v := by
  rw [cellAdd, hn, if_neg Bool.false_ne_true, if_neg (h.umax.trans_ne hu), if_pos hx, h.umax, h.count, h.value]

theorem CellFields.add_to_inf (h : CellFields c u n v) (hx : f32.isInf x = false) (hn : f32.isNaN x = false) (hu : u ≠ 0x7FFF)
    (hf : umaxFinite u = false) : cellAdd c x t = mkCell u (min 65535 (n + 1)) v := by
  rw [cellAdd, hn, if_neg Bool.false_ne_true, if_neg (h.umax.trans_ne hu), hx, if_neg Bool.false_ne_true, h.umax, hf, if_pos Bool.not_false, h.count,
    h.value]

theorem CellFields.add_finite (h : CellFields c u n v) (hx : f32.isInf x = false) (hn : f32.isNaN x = false) (hu : umaxFinite u = true) :
    cellAdd c x t =
      if v + cellUnits x < -(2 ^ 479) then mkCell 0x7FFD (min 65535 (n + 1)) v
      else if 2 ^ 479 ≤ v + cellUnits x then mkCell 0x7FFE (min 65535 (n + 1)) v
      else match f32.unc x (readTag 24 t) with
        | some y => mkCell (umaxMax u y) (min 65535 (n + 1)) (v + cellUnits x)
        | none => mkCell u (min 65535 (n + 1)) (v + cellUnits x) := by
  have notNaN : u ≠ 0x7FFF := by
    rintro rfl
    exact absurd hu (by decide)
  rw [cellAdd, hn, if_neg Bool.false_ne_true, if_neg (h.umax.trans_ne notNaN), hx, if_neg Bool.false_ne_true, h.umax, hu, h.count, h.value]
  rfl

end

theorem umaxFinite_iff (u : Nat) : umaxFinite u = true ↔ u ≠ 0x7FFF ∧ ¬ (u = 0x7FFD ∨ u = 0x7FFE) := by
  simp only [umaxFinite, Bool.not_eq_true', Bool.or_eq_false_iff, beq_eq_false_iff_ne]
  tauto

/-- XCADD on a cell, row by row (R85, R98). -/
theorem cellAdds : CellAdds := by
  intro c u n x v g is hx mag neg up s w inf
  have cell := cellFields_of_cellIs is
  have made {u' : Nat} (hu : u' < 2 ^ 16) : cellIs (mkCell u' up v) u' up v := cellIs_mkCell hu (count_up_lt n) cell.low cell.high
  have sign : (if f32.sign x then 0x7FFD else 0x7FFE) = s := if_congr (f32_sign_iff hx) rfl rfl
  have s_lt : s < 2 ^ 16 := by
    rw [← sign]
    split <;> decide
  have notNaN (h : mag ≤ 0x7F800000) : f32.isNaN x = false := Bool.eq_false_iff.mpr fun t => Nat.not_lt.mpr h ((f32_isNaN_iff x).mp t)
  have notInf (h : mag < 0x7F800000) : f32.isInf x = false := Bool.eq_false_iff.mpr fun t => Nat.ne_of_lt h ((f32_isInf_iff x).mp t)
  have units : w = v + cellUnits x := by rw [cellUnits_eq]
  refine ⟨fun h => ?_, fun h hu => ?_, fun h hu hs => ?_, fun h hi hs => ?_, fun h hi => ?_, fun h hu hi hw => ?_, fun h hu hi hw => ?_,
    fun h hu hi hl hh => ?_⟩
  · rw [cell.add_nan ((f32_isNaN_iff x).mpr h)]
    exact made (by decide)
  · rw [cell.add_to_nan (notNaN h) hu]
    exact made cell.umax_lt
  · have taken : (umaxFinite u || u == s) = true := by
      rw [Bool.or_eq_true, umaxFinite_iff, beq_iff_eq]
      exact hs.imp_left fun hi => ⟨hu, hi⟩
    rw [cell.add_inf ((f32_isInf_iff x).mpr h) (notNaN h.le) hu, sign, if_pos taken]
    exact made s_lt
  · have other : (umaxFinite u || u == s) = false := by
      rw [Bool.or_eq_false_iff, beq_eq_false_iff_ne, Bool.eq_false_iff, ne_eq, umaxFinite_iff]
      exact ⟨fun hf => hf.2 hi, hs⟩
    rw [cell.add_inf ((f32_isInf_iff x).mpr h) (notNaN h.le) (by omega), sign, other, if_neg Bool.false_ne_true]
    exact cellIs_mkCell (by decide) cell.count_lt cell.low cell.high
  · have infinite : umaxFinite u = false := by
      rw [Bool.eq_false_iff, ne_eq, umaxFinite_iff]
      exact fun hf => hf.2 hi
    rw [cell.add_to_inf (notInf h) (notNaN h.le) (by omega) infinite]
    exact made cell.umax_lt
  · rw [cell.add_finite (notInf h) (notNaN h.le) ((umaxFinite_iff u).mpr ⟨hu, hi⟩), ← units, if_pos hw]
    exact made (by decide)
  · rw [cell.add_finite (notInf h) (notNaN h.le) ((umaxFinite_iff u).mpr ⟨hu, hi⟩), ← units, if_neg (by omega), if_pos hw]
    exact made (by decide)
  · rw [cell.add_finite (notInf h) (notNaN h.le) ((umaxFinite_iff u).mpr ⟨hu, hi⟩), ← units, if_neg (by omega), if_neg (by omega)]
    cases unc : f32.unc x (readTag 24 g) with
    | none => exact ⟨u, cellIs_mkCell cell.umax_lt (count_up_lt n) hl hh, fun _ => rfl, nofun⟩
    | some y =>
      obtain ⟨low, high⟩ := unc_bounds h unc
      obtain ⟨fits, max_⟩ := umaxMax_spec cell.umax_lt low high
      exact ⟨_, cellIs_mkCell fits (count_up_lt n) hl hh, nofun, fun z hz => Option.some.inj hz ▸ max_⟩

/-! ### XCREAD, row by row (R86, R98) -/

theorem isFinite_iff_exponent (x : Nat) : f32.isFinite x = true ↔ f32.expField x < 255 := by
  have : f32.expField x < 256 := Nat.mod_lt _ (by decide)
  rw [Fmt.isFinite, bne_iff_ne]
  change f32.expField x ≠ 255 ↔ _
  omega

/-- A finite FP32 number has at most 24 available bits (R89). -/
theorem f32_avail_le {x : Nat} (h : f32.isFinite x = true) : f32.avail x ≤ 24 := by
  have exponent := (isFinite_iff_exponent x).mp h
  rw [Fmt.avail]
  split
  · next zero =>
    have fraction : f32.frac x < 2 ^ 23 := Nat.mod_lt _ (by decide)
    rw [Fmt.lead, f32_value_of_exponent exponent, if_pos zero, leadFV]
    by_cases none_ : f32.frac x = 0
    · rw [if_pos none_]
      decide
    · have digits := (Nat.log2_lt none_).mpr fraction
      rw [if_neg none_]
      change ((-149 : Int) + (Nat.log2 (f32.frac x) : Int) + 127 + 23).toNat ≤ 24
      omega
  · decide

/-- ⌈log₂ n⌉ by its two bounds. -/
theorem clog2_eq {n k : Nat} (hn : n ≠ 0) (high : n ≤ 2 ^ k) (low : k = 0 ∨ 2 ^ (k - 1) < n) : clog2 n = k := by
  have below := Nat.log2_self_le hn
  have above : n < 2 ^ (Nat.log2 n + 1) := Nat.lt_log2_self
  have upper {a : Nat} (h : 2 ^ a < 2 ^ k) : a < k := (Nat.pow_lt_pow_iff_right (by decide)).mp h
  have lower {b : Nat} (h : n < 2 ^ b) : k ≤ b := by
    rcases low with rfl | low
    · exact Nat.zero_le _
    · have := (Nat.pow_lt_pow_iff_right (a := 2) (by decide)).mp (low.trans h)
      omega
  rw [clog2]
  split
  · next power =>
    have first : Nat.log2 n ≤ k := (Nat.pow_le_pow_iff_right (a := 2) (by decide)).mp (power.trans_le high)
    rcases low with rfl | low
    · omega
    · have := (Nat.pow_lt_pow_iff_right (a := 2) (by decide)).mp (low.trans_eq power.symm)
      omega
  · next inexact =>
    have first := upper (lt_of_lt_of_le (lt_of_le_of_ne below inexact) high)
    have last := lower above
    omega

theorem exact_iff : ∀ f : Flags, ((f &&& Flags.nx) == 0) = !f.getLsbD 0 := by decide

theorem cellRound_of_open {c u n : Nat} {v : Int} {rm : Rm} (h : CellFields c u n v) (hu : umaxFinite u = true) :
    cellRound rm c = if v = 0 then (0, 0) else roundFin f32 rm (decide (v < 0)) v.natAbs (-149) false := by
  obtain ⟨nan, inf⟩ := (umaxFinite_iff u).mp hu
  rw [cellRound, h.umax, if_neg nan, if_neg (fun t => inf (.inr t)), if_neg (fun t => inf (.inl t)), h.value]

/-- The tag of the read of a cell with an open umax and a finite result (R98). -/
theorem cellTag_of_open {c u n : Nat} {v : Int} {r : Nat × Flags} (h : CellFields c u n v) (hu : umaxFinite u = true)
    (hr : f32.isFinite r.1 = true) :
    cellTag c r = if (n == 0 || u == 0x8000) && !r.2.getLsbD 0 then Tag.exact else if u = 0x8000 then 24 else if v = 0 then 0
      else if n = 0 then openTag c else f32.clampTag r.1 (f32.lead r.1 - asInt 16 u - clog2 n) := by
  rw [cellTag, h.umax, hu, hr, exact_iff, h.count, h.value]
  rfl

theorem toNat_clampTag {r : Nat} {x : Int} (hr : f32.isFinite r = true) : (f32.clampTag r x).toNat = min (f32.avail r) (max 0 x).toNat := by
  have := f32_avail_le hr
  rw [Fmt.clampTag, BitVec.toNat_ofNat, max_comm, min_comm]
  exact Nat.mod_eq_of_lt (by omega)

/-- What XCREAD makes of a cell, row by row (R86, R98). -/
theorem cellReads : CellReads := by
  intro c u n v rm is e r open_ exact_
  have cell := cellFields_of_cellIs is
  have finite (h : open_) : umaxFinite u = true := (umaxFinite_iff u).mpr ⟨h.2.2, fun t => t.elim h.1 h.2.1⟩
  have round (h : open_) : cellRound rm c = if v = 0 then (0, 0) else r := cellRound_of_open cell (finite h)
  have special {r : Nat} (hu : umaxFinite u = false) (hr : cellRound rm c = (r, 0)) : e.val = r ∧ e.fl = 0 ∧ e.tag = 0 := by
    refine ⟨congrArg Prod.fst hr, congrArg Prod.snd hr, ?_⟩
    change cellTag c (cellRound rm c) = 0
    rw [cellTag, cell.umax, hu]
    rfl
  refine ⟨fun hu => ?_, fun hu => ?_, fun hu => ?_, fun h hv => ?_, fun h hv => ?_, fun h hr => ?_, fun h hr => ?_⟩
  · have nan : cellRound rm c = (f32.nan, 0) := if_pos (cell.umax.trans hu)
    exact special (by rw [hu]; decide) nan
  · have infinite : cellRound rm c = (f32.inf false, 0) := by
      rw [cellRound, cell.umax, if_neg (by omega), if_pos hu]
    exact special (by rw [hu]; decide) infinite
  · have infinite : cellRound rm c = (f32.inf true, 0) := by
      rw [cellRound, cell.umax, if_neg (by omega), if_neg (by omega), if_pos hu]
    exact special (by rw [hu]; decide) infinite
  · have zero : cellRound rm c = (0, 0) := (round h).trans (if_pos hv)
    exact ⟨congrArg Prod.fst zero, congrArg Prod.snd zero⟩
  · have rounded : cellRound rm c = r := (round h).trans (if_neg hv)
    exact ⟨congrArg Prod.fst rounded, congrArg Prod.snd rounded⟩
  · change cellTag c (cellRound rm c) = 0
    rw [cellTag, cell.umax, finite h, show f32.isFinite (cellRound rm c).1 = false from hr]
    rfl
  · have tag := cellTag_of_open cell (finite h) hr
    have other (hu : u ≠ 0x8000) (hn : n ≠ 0) : ¬ ((n == 0 || u == 0x8000) && !e.fl.getLsbD 0) = true := by
      simp [hu, hn]
    refine ⟨fun hn he => ?_, fun hu he => ?_, fun hu hn hv => ?_, fun hu hn hv k high low => ?_⟩
    · have taken : ((n == 0 || u == 0x8000) && !e.fl.getLsbD 0) = true := by
        rw [Bool.and_eq_true, Bool.or_eq_true, beq_iff_eq, beq_iff_eq]
        exact ⟨hn, by rw [show e.fl.getLsbD 0 = false from he]; rfl⟩
      exact tag.trans (if_pos taken)
    · have inexact : ¬ ((n == 0 || u == 0x8000) && !e.fl.getLsbD 0) = true := by
        rw [Bool.and_eq_true]
        exact fun t => he (Eq.mp (Bool.not_eq_true' _) t.2)
      exact tag.trans ((if_neg inexact).trans (if_pos hu))
    · exact tag.trans ((if_neg (other hu hn)).trans ((if_neg hu).trans (if_pos hv)))
    · have row := tag.trans ((if_neg (other hu hn)).trans ((if_neg hu).trans ((if_neg hv).trans (if_neg hn))))
      rw [clog2_eq hn high low] at row
      exact (congrArg BitVec.toNat row).trans (toNat_clampTag hr)

end Sys2Proof.Machine
end

section
/-! PROOFS.  O8: exact cells (R84-R86, R98, R217-R219). -/

namespace Sys2Proof.Machine

/-! ### XCCLR (R219) -/

theorem leBytes_cellReset : leBytes 64 cellReset = List.replicate 62 0 ++ [0x00, 0x80] := by decide +kernel

theorem leBytes_ne_nil (n x : Nat) : leBytes (n + 1) x ≠ [] := List.cons_ne_nil _ _

theorem State.bankPerform_xcclr {s : State} {a : Access} (ho : a.op = .xcclr) (hw : winOf a.ea ≤ 1) :
    s.bankPerform a = (s.store (spadKey (homeOf a.ea) (offOf a.ea)) (leBytes 64 cellReset), .data [] 0) := by
  rcases Nat.le_one_iff_eq_zero_or_eq_one.mp hw with h | h <;> simp [State.bankPerform, State.rawPerform, h, ho]

theorem winTwo_le {w : Nat} (h : winTwo w = true) : w ≤ 1 := of_decide_eq_true h

theorem State.finishAccess_xcclr {s : State} {a : Access} (ho : a.op = .xcclr) (hd : a.dest = .none) :
    s.finishAccess a (.data [] 0) = s.setMe s.me.next := by
  simp [State.finishAccess, ho, hd, Slot.deliver, AccOp.loads]

theorem State.serveBank_xcclr {s : State} {w : Who} {a : Access} (ho : a.op = .xcclr) (hn : a.size = 64) (hw : winOf a.ea ≤ 1)
    (hu : s.Unlocked (homeOf a.ea) (offOf a.ea) 64) (hp : s.anyPoison (spadKey (homeOf a.ea) (offOf a.ea)) 64 = false) :
    s.serveBank w a = (s.store (spadKey (homeOf a.ea) (offOf a.ea)) (leBytes 64 cellReset), .data [] 0) := by
  have key := spadKey_lt a.ea
  have stops : s.poisonStops (spadKey (homeOf a.ea) (offOf a.ea)) a.size a.op = false := by
    rw [ho, hn]
    exact (if_pos (by omega)).trans hp
  rw [State.serveBank_of_unlocked (by rw [ho]; rfl) (by rw [ho]; rfl) hw (hn ▸ hu) stops, State.bankPerform_xcclr ho hw]

theorem State.mkAccess_ea (s : State) (op : AccOp) (ea : Word) (n : Nat) (dest : Dest) (rlx ff : Bool) (st : Stage) :
    (s.mkAccess op ea n dest rlx ff st).ea = ea.toNat := rfl

/-- XCCLR in the thread's own super-group stores the reset image. -/
theorem State.stores_xcclr {s : State} {a : BitVec 5} (hb : s.InBank (s.g a) 64 winTwo)
    (hu : s.Unlocked (homeOf (s.g a).toNat) (offOf (s.g a).toNat) 64)
    (hp : s.anyPoison (spadKey (homeOf (s.g a).toNat) (offOf (s.g a).toNat)) 64 = false) :
    s.Stores (.xcclr a) (spadKey (homeOf (s.g a).toNat) (offOf (s.g a).toNat)) (List.replicate 62 0 ++ [0x00, 0x80]) (fun _ => 62)
      Slot.SameRegs := by
  have key := spadKey_lt (s.g a).toNat
  have run : exec (.xcclr a) s = .next (s.access .xcclr (s.g a) 64 .none false false winTwo) := rfl
  rw [← leBytes_cellReset]
  refine State.stores_of_store (by rw [leBytes_length]; omega) (leBytes_ne_nil 63 _) ?_
  have served := State.serveBank_xcclr (w := s.cur) (a := s.mkAccess .xcclr (s.g a) 64 .none false false .bank) rfl rfl
    (winTwo_le hb.allowed) hu hp
  rw [run, State.access_of_inBank hb, served, State.mkAccess_ea, State.finishAccess_xcclr rfl rfl, State.me_store (by omega)]

/-! ### XCREAD (R218) -/

theorem leBytes_bytes (s : State) (k n : Nat) : leBytes n (s.nat k n) = s.bytes k n := by
  induction n generalizing k with
  | zero => rfl
  | succ n ih =>
    have tail := ih (k + 1)
    have := (s.byte k).isLt
    have low : BitVec.ofNat 8 ((s.byte k).toNat + 256 * s.nat (k + 1) n) = s.byte k := BitVec.eq_of_toNat_eq (by simp; omega)
    have high : ((s.byte k).toNat + 256 * s.nat (k + 1) n) / 256 = s.nat (k + 1) n := by omega
    change BitVec.ofNat 8 ((s.byte k).toNat + 256 * s.nat (k + 1) n) :: leBytes n (((s.byte k).toNat + 256 * s.nat (k + 1) n) / 256) = _
    rw [low, high, tail]
    rfl

/-- Bytes taken four at a time. -/
theorem State.bytes_words (s : State) (k n : Nat) : (List.range n).flatMap (fun j => s.bytes (k + 4 * j) 4) = s.bytes k (4 * n) := by
  induction n generalizing k with
  | zero => rfl
  | succ n ih =>
    have tail := ih (k + 4)
    rw [List.range_succ_eq_map, List.flatMap_cons, List.flatMap_map]
    have shift : ∀ j, k + 4 * (j + 1) = k + 4 + 4 * j := fun j => by omega
    simp only [Nat.succ_eq_add_one, shift, tail]
    rfl

/-- The cell that the sixteen words of a line hold (R84). -/
theorem State.cellOf_words (s : State) (k : Nat) : cellOf ((s.words k 64).map (fun v => (v, 0))) = s.nat k 64 := by
  have word (x : Nat) (hx : x < 256 ^ 4) : (BitVec.ofNat 32 x).toNat = x := Nat.mod_eq_of_lt hx
  rw [cellOf, State.words, if_neg (by decide), List.flatMap_map, List.flatMap_map]
  simp only [word _ (nat_lt s _ 4), leBytes_bytes, s.bytes_words]
  rfl

theorem State.bankPerform_xcread {s : State} {a : Access} (ho : a.op = .xcread) (hw : winOf a.ea ≤ 1) :
    s.bankPerform a = (s, .data ((s.words (spadKey (homeOf a.ea) (offOf a.ea)) 64).map (fun v => (v, 0))) 0) := by
  rcases Nat.le_one_iff_eq_zero_or_eq_one.mp hw with h | h <;> simp [State.bankPerform, State.rawPerform, h, ho]

/-- XCREAD in the thread's own super-group ends as one floating-point element does (R218, R259). -/
theorem State.exec_xcread {s : State} {d a : BitVec 5} {e : Elem} (hb : s.InBank (s.g a) 64 winTwo)
    (hr : s.Readable (homeOf (s.g a).toNat) (offOf (s.g a).toNat) 64)
    (he : e = cellElem s.me.rm (s.nat (spadKey (homeOf (s.g a).toNat) (offOf (s.g a).toNat)) 64)) :
    exec (.xcread d a) s = .next (s.finishFp 2 1 [e] [e] (fun x => x.setLane (vnum d) 0 (BitVec.ofNat 32 e.val) e.tag)) := by
  change Host.Outcome.next (s.access .xcread (s.g a) 64 (.vector (vnum d)) false false winTwo) = _
  rw [State.access_of_inBank hb, State.serveBank_of_readable rfl rfl fun p hp => ?_, State.bankPerform_xcread rfl (winTwo_le hb.allowed)]
  · rw [he, ← State.cellOf_words]
    rfl
  · rw [State.spans_of_raw (winTwo_le hb.allowed), List.mem_singleton] at hp
    exact hp ▸ hr

/-! ### The end of one floating-point element (R71, R101, R102, R259) -/

theorem accrue_eq (c : BitVec 13) (f : Flags) : accrue c f = c ||| (f.zeroExtend 13 <<< 2) := by
  refine congrArg (c ||| ·) (BitVec.eq_of_toNat_eq ?_)
  have := f.isLt
  simp [BitVec.toNat_shiftLeft, Nat.shiftLeft_eq]

theorem trapsOn_iff (c : BitVec 13) (f : Flags) : trapsOn c f = true ↔ (f &&& ((c >>> 7).setWidth 5)) ≠ 0 := by
  have enables : fpEnables c = (c >>> 7).setWidth 5 := BitVec.eq_of_toNat_eq (by simp [fpEnables, Nat.shiftRight_eq_div_pow])
  rw [trapsOn, enables, bne_iff_ne]

theorem unionFlags_singleton (e : Elem) : unionFlags [e] = e.fl := by simp [unionFlags]

theorem firstBelow_singleton (c : BitVec 7) (e : Elem) :
    firstBelow c 1 0 [e] = if e.finite && belowFloor c e.tag then some (0, e) else none := rfl

/-- The fields of csr.sigtrap for an FP32 lane 0 (R102). -/
theorem sigtrapWord_fields (e : Elem) : (sigtrapWord e 2 0).toNat % 4 = 0 ∧ (sigtrapWord e 2 0).toNat / 4 % 8 = 2 ∧
    (sigtrapWord e 2 0).toNat / 32 % 64 = e.tag.toNat := by
  have := e.tag.isLt
  rw [sigtrapWord, BitVec.toNat_ofNat]
  omega

/-- A list of 64 lanes with one of them written, at lane j of v. -/
theorem getD_set_lane {α : Type} (xs : List α) (r v : BitVec 4) (l j : Nat) (w d : α) (hn : xs.length = 64) :
    (xs.set (4 * r.toNat + l % 4) w).getD (4 * v.toNat + j % 4) d =
      if v = r ∧ j % 4 = l % 4 then w else xs.getD (4 * v.toNat + j % 4) d := by
  have := r.isLt
  have same : 4 * r.toNat + l % 4 = 4 * v.toNat + j % 4 ↔ v = r ∧ j % 4 = l % 4 := by
    rw [BitVec.toNat_eq]
    omega
  rw [List.getD_eq_getElem?_getD, List.getElem?_set, if_congr same rfl rfl, if_pos (by omega : 4 * r.toNat + l % 4 < xs.length)]
  split
  · rfl
  · rw [List.getD_eq_getElem?_getD]

theorem Slot.lane_setLane (x : Slot) (r v : BitVec 4) (l j : Nat) (w : W32) (t : Tag) :
    (x.setLane r l w t).lane v j = if v = r ∧ j % 4 = l % 4 then w else x.lane v j := by
  rw [Slot.lane, Slot.setLane, Vector.toList_setIfInBounds, getD_set_lane _ _ _ _ _ _ _ (by simp), Slot.lane]

theorem Slot.tag_setLane (x : Slot) (r v : BitVec 4) (l j : Nat) (w : W32) (t : Tag) :
    (x.setLane r l w t).tag v j = if v = r ∧ j % 4 = l % 4 then t else x.tag v j := by
  rw [Slot.tag, Slot.setLane, Vector.toList_setIfInBounds, getD_set_lane _ _ _ _ _ _ _ (by simp), Slot.tag]

/-- Whether an element is finite and below an enabled floor (R100, R101). -/
def Elem.low (e : Elem) (floor : BitVec 7) : Bool := e.finite && floor.getLsbD 6 && decide (e.tag.toNat < floor.toNat % 64)

theorem Elem.low_eq (e : Elem) (floor : BitVec 7) : (e.finite && belowFloor floor e.tag) = e.low floor := by
  rw [belowFloor, Elem.low, Bool.and_assoc]

section
variable {s : State} {e : Elem} {write : Slot → Slot}

/-- One element with an enabled flag takes FPEXC (R71). -/
theorem State.finishFp_of_traps (h : (e.fl &&& ((s.me.csr.fpctl >>> 7).setWidth 5)) ≠ 0) :
    s.finishFp 2 1 [e] [e] write = (s.setMe (s.me.accrue e.fl)).trapAt s.cur .fpexc (e.fl.zeroExtend 64) := by
  have value : dbl e.fl.toNat = e.fl.zeroExtend 64 := BitVec.eq_of_toNat_eq (by simp [dbl])
  rw [State.finishFp, unionFlags_singleton, if_pos ((trapsOn_iff _ _).mpr h), State.raise, value]
  rfl

/-- One element below the floor takes SIGFLOOR, and csr.sigtrap names it (R101, R102). -/
theorem State.finishFp_of_low (h : ¬ (e.fl &&& ((s.me.csr.fpctl >>> 7).setWidth 5)) ≠ 0) (hl : e.low s.me.csr.sigfloor = true) :
    s.finishFp 2 1 [e] [e] write =
      (s.setMe (s.me.accrue e.fl)).trapWith s.cur { cause := .sigfloor, value := 0, sigtrap := some (sigtrapWord e 2 0) } := by
  rw [State.finishFp, unionFlags_singleton, if_neg (fun t => h ((trapsOn_iff _ _).mp t))]
  change (match firstBelow s.me.csr.sigfloor 1 0 [e] with | some (lane, e') => _ | none => _) = _
  rw [firstBelow_singleton, Elem.low_eq, hl]
  rfl

/-- One element otherwise: its flags accrue and it is written (R259). -/
theorem State.finishFp_of_result (h : ¬ (e.fl &&& ((s.me.csr.fpctl >>> 7).setWidth 5)) ≠ 0) (hl : e.low s.me.csr.sigfloor = false) :
    s.finishFp 2 1 [e] [e] write = s.setMe (write (s.me.accrue e.fl)).next := by
  rw [State.finishFp, unionFlags_singleton, if_neg (fun t => h ((trapsOn_iff _ _).mp t))]
  change (match firstBelow s.me.csr.sigfloor 1 0 [e] with | some (lane, e') => _ | none => _) = _
  rw [firstBelow_singleton, Elem.low_eq, hl]
  rfl

end

/-- What an XCREAD that completes writes: lane 0 of v[d] with its tag, and its flags (R218). -/
theorem State.computes_of_lane {s : State} {i : Instr} {e : Elem} {d : BitVec 4}
    (run : exec i s = .next (s.setMe ((s.me.accrue e.fl).setLane d 0 (BitVec.ofNat 32 e.val) e.tag).next)) :
    s.Computes i (fun x y =>
      (∀ v l, y.lane v l = if v = d ∧ l % 4 = 0 then BitVec.ofNat 32 e.val else x.lane v l) ∧
      (∀ v l, y.tag v l = if v = d ∧ l % 4 = 0 then e.tag else x.tag v l) ∧ x.SameG y ∧ y.pw = x.pw ∧
      y.csr = { x.csr with fpctl := x.csr.fpctl ||| (e.fl.zeroExtend 13 <<< 2) }) := by
  refine ⟨_, run, s.onlySlot_setMe _, ?_, ?_, ?_, ?_, ?_⟩
  · rw [State.setMe_me]
    constructor <;> rfl
  · rw [State.setMe_me]; rfl
  · rw [State.setMe_me]; rfl
  · rw [State.setMe_me]; rfl
  · rw [State.setMe_me]
    refine ⟨fun v l => Slot.lane_setLane _ d v 0 l _ e.tag, fun v l => Slot.tag_setLane _ d v 0 l (BitVec.ofNat 32 e.val) _, fun r => rfl, rfl, ?_⟩
    rw [← accrue_eq]
    rfl

/-! ### XCADD at its serving point (R51, R85, R217) -/

/-- What an XCADD leaves in a cell's line: the addend taken in, its words tagged 62, and every other byte as before. -/
structure State.AddsCell (s t : State) (key : Nat) (bs : List Byte) : Prop where
  byte : ∀ k, t.byte k = if key ≤ k ∧ k < key + 64 then bs.getD (k - key) 0 else s.byte k
  sideTag : ∀ k, t.sideTag k = if key / 4 ≤ k / 4 ∧ k / 4 ≤ (key + 63) / 4 then 62 else s.sideTag k
  poisoned : ∀ k, t.poisoned k = s.poisoned k
  cores : s.SameCores t
  tiles : s.SameTiles t

theorem State.addsCell_put {s : State} {key : Nat} {bs : List Byte} (hk : key < 2 ^ 60) (hn : bs.length = 64) :
    s.AddsCell (s.put key bs) key bs := by
  obtain ⟨-, -, cores, tiles, -⟩ := (State.onlyMemory_put (s := s) (bs := bs) hk).frame
  have byte := State.byte_put (s := s) (bs := bs) hk
  have sideTag := State.sideTag_put (s := s) (bs := bs) hk (List.ne_nil_of_length_pos (by omega))
  rw [hn] at byte sideTag
  exact ⟨byte, sideTag, State.poisoned_put hk, State.core_of_cores cores, State.tile_of_tiles tiles⟩

/-- An XCADD past the checks of step 4, through RAW or TAGGED. -/
theorem State.serveBank_xcadd {s : State} {w : Who} {a : Access} {x : W32} {g : Tag} (ho : a.op = .xcadd x g) (hn : a.size = 64)
    (hw : winOf a.ea ≤ 1) (hu : s.Unlocked (homeOf a.ea) (offOf a.ea) 64)
    (hp : s.anyPoison (spadKey (homeOf a.ea) (offOf a.ea)) 64 = false) : s.serveBank w a =
      (s.put (spadKey (homeOf a.ea) (offOf a.ea)) (leBytes 64 (cellAdd (s.nat (spadKey (homeOf a.ea) (offOf a.ea)) 64) x.toNat g)),
        .data [] 0) := by
  have stops : s.poisonStops (spadKey (homeOf a.ea) (offOf a.ea)) a.size a.op = false := by
    rw [ho, hn]
    exact hp
  rw [State.serveBank_of_unlocked (by rw [ho]; rfl) (by rw [ho]; rfl) hw (hn ▸ hu) stops]
  rcases Nat.le_one_iff_eq_zero_or_eq_one.mp hw with h | h <;> simp [State.bankPerform, State.rawPerform, h, ho]

/-- A message as the write of n bytes at a key leaves it: an APPEND parked on a ring whose head they hold is marked (R232). -/
def Msg.marked (k n : Nat) (m : Msg) : Msg :=
  match m.body with
  | .append ring p t true d l =>
    if overlaps k (k + n) (rawKey ring) (rawKey ring + 4) then { m with body := .append ring p t true true l }
    else { m with body := .append ring p t true d l }
  | _ => m

theorem State.noteHeads_net (s : State) (k n : Nat) : (s.noteHeads k n).net = s.net.map (Msg.marked k n) := rfl

theorem Msg.marked_id (k n : Nat) (m : Msg) : (m.marked k n).id = m.id := by
  unfold Msg.marked
  split
  · split <;> rfl
  · rfl

theorem Msg.marked_access {k n : Nat} {m : Msg} {a : Access} (h : m.body = .access a) : m.marked k n = m := by
  unfold Msg.marked
  rw [h]

/-- Marking the APPENDs parked on a ring leaves an access in its place. -/
theorem State.msg?_noteHeads {s : State} {k n id : Nat} {m : Msg} {a : Access} (hm : s.msg? id = some m) (hb : m.body = .access a) :
    (s.noteHeads k n).msg? id = some m := by
  have same : ((fun q : Msg => q.id == id) ∘ Msg.marked k n) = fun q => q.id == id := funext fun q => by
    rw [Function.comp, Msg.marked_id]
  rw [State.msg?, State.noteHeads_net, List.find?_map, same, ← State.msg?, hm, Option.map_some, Msg.marked_access hb]

theorem State.msg?_put {s : State} {k id : Nat} {bs : List Byte} {m : Msg} {a : Access} (hk : k < 2 ^ 60) (hm : s.msg? id = some m)
    (hb : m.body = .access a) : (s.put k bs).msg? id = some m := by
  obtain ⟨-, -, -, -, net, -⟩ := (State.onlyMemory_put (s := s) (bs := bs) hk).frame
  exact (State.msg?_of_net net id).trans (State.msg?_noteHeads hm hb)

theorem exec_activeMessage_of_serves {s : State} {id : Nat} {m : Msg} {a : Access} (hm : s.msg? id = some m) (hb : m.body = .access a)
    (hs : a.stage = .owner) (hn : s.servesNext (homeOf a.ea) id = true) (ho : s.inOrder m = true) :
    exec (.activeMessage id) s = .next (s.ownerPerform m a) := by
  change execActiveMessage id s = _
  simp [execActiveMessage, hm, hb, hs, hn, ho]

theorem exec_fireAndForgetAck_of_bank {s : State} {id : Nat} {m : Msg} {a : Access} (hm : s.msg? id = some m) (hb : m.body = .access a)
    (hs : a.stage = .bank) (hf : a.ff = true) (ho : s.inOrder m = true) (hr : s.coreRuns (homeOf a.ea) = true)
    (ha : s.mayAct m.src.core id = true) {t : State} (ht : s.serveBank m.src a = (t, .data [] 0)) :
    exec (.fireAndForgetAck id) s = .next ((t.drop id).acked m.src id none) := by
  have answer : s.answerOf m a = some (t, .data [] 0) := by simp [State.answerOf, hs, ho, hr, ht]
  change execFireAndForgetAck id s = _
  simp [execFireAndForgetAck, hm, hb, hf, ha, answer]

section
variable {s : State} {id key : Nat} {m : Msg} {a : Access} {bs : List Byte}

/-- The owner core's service slot performs an XCADD, and its answer is on its way back (R53). -/
theorem State.xcadd_at_owner (hm : s.msg? id = some m) (hb : m.body = .access a) (hs : a.stage = .owner)
    (hn : s.servesNext (homeOf a.ea) id = true) (ho : s.inOrder m = true) (hk : key < 2 ^ 60) (hl : bs.length = 64)
    (served : s.serveBank m.src a = (s.put key bs, .data [] 0)) :
    ∃ t, exec (.activeMessage id) s = .next t ∧ s.AddsCell t key bs ∧ s.SameSlots t ∧
      t.msg? id = some { m with body := .access { a with stage := .answered (.data [] 0) } } := by
  have added : s.AddsCell (s.put key bs) key bs := State.addsCell_put hk hl
  obtain ⟨-, slots, -⟩ := (State.onlyMemory_put (s := s) (bs := bs) hk).frame
  have performed : s.ownerPerform m a = (s.put key bs).rebody id (.access { a with stage := .answered (.data [] 0) }) := by
    rw [State.ownerPerform, served, ← State.msg?_id hm]
    rfl
  refine ⟨_, (exec_activeMessage_of_serves hm hb hs hn ho).trans (congrArg _ performed), ?_, fun w => State.slot_of_slots slots w,
    State.msg?_rebody _ (State.msg?_put hk hm hb)⟩
  exact ⟨added.byte, added.sideTag, added.poisoned, added.cores, added.tiles⟩

/-- An XCADD in the thread's own super-group is performed ahead of its acknowledgement, which its thread takes (R217). -/
theorem State.xcadd_at_bank (hm : s.msg? id = some m) (hb : m.body = .access a) (hs : a.stage = .bank) (hf : a.ff = true)
    (ho : s.inOrder m = true) (hr : s.coreRuns (homeOf a.ea) = true) (ha : s.mayAct m.src.core id = true) (hk : key < 2 ^ 60)
    (hl : bs.length = 64) (served : s.serveBank m.src a = (s.put key bs, .data [] 0)) :
    ∃ t, exec (.fireAndForgetAck id) s = .next t ∧ s.AddsCell t key bs ∧ s.OtherSlots t m.src ∧ (s.slot m.src).SameRegs (t.slot m.src) ∧
      (t.slot m.src).unacked = (s.slot m.src).unacked.filter (fun u => u.id != id) := by
  have added : s.AddsCell (s.put key bs) key bs := State.addsCell_put hk hl
  obtain ⟨-, slots, -⟩ := (State.onlyMemory_put (s := s) (bs := bs) hk).frame
  have slot (w : Who) : ((s.put key bs).drop id).slot w = s.slot w := State.slot_of_slots slots w
  have acked : ((s.put key bs).drop id).acked m.src id none = ((s.put key bs).drop id).setSlot m.src
      { s.slot m.src with unacked := (s.slot m.src).unacked.filter (fun u => u.id != id) } := by
    rw [State.acked, slot]
  refine ⟨_, (exec_fireAndForgetAck_of_bank hm hb hs hf ho hr ha served).trans (congrArg _ acked), ?_, fun w hw => ?_, ?_, ?_⟩
  · exact ⟨added.byte, added.sideTag, added.poisoned, added.cores, added.tiles⟩
  · rw [State.slot_setSlot, if_neg hw, slot]
  · rw [State.slot_setSlot, if_pos rfl]
    exact ⟨fun _ => rfl, fun _ _ => ⟨rfl, rfl⟩, rfl, rfl⟩
  · rw [State.slot_setSlot, if_pos rfl]

end

/-- Settles O8: XCCLR is a store, XCREAD the end of one floating-point element, XCADD a put at its serving point, and the
arithmetic is `cellReads` and `cellAdds`. -/
theorem exactCells : Obligations.ExactCells := by
  unfold Obligations.ExactCells
  refine ⟨fun s a => State.stores_xcclr, ?_, ?_⟩
  · intro s d a ea key e traps low bank readable
    have run := State.exec_xcread (d := d) (e := e) bank readable rfl
    refine ⟨fun ht hl => ?_, fun ht => run.trans (congrArg _ (State.finishFp_of_traps ht)), fun ht hl => ?_, cellReads⟩
    · exact State.computes_of_lane (run.trans (congrArg _ (State.finishFp_of_result ht (Bool.eq_false_iff.mpr hl))))
    · exact ⟨_, run.trans (congrArg _ (State.finishFp_of_low ht hl)), sigtrapWord_fields e⟩
  · intro s id m a x g found body op size window order unlocked clean key bs adds
    have low : key < 2 ^ 60 := (spadKey_lt a.ea).trans (by decide)
    have length : bs.length = 64 := leBytes_length _ _
    have served : s.serveBank m.src a = (s.put key bs, .data [] 0) := State.serveBank_xcadd op size window unlocked clean
    refine ⟨fun stage serves => ?_, fun stage ff runs acts => ?_, cellAdds⟩
    · obtain ⟨t, run, ⟨byte, tag, poison, cores, tiles⟩, slots, answer⟩ :=
        State.xcadd_at_owner found body stage serves order low length served
      exact ⟨t, run, ⟨byte, tag, poison, cores, tiles⟩, slots, answer⟩
    · obtain ⟨t, run, ⟨byte, tag, poison, cores, tiles⟩, rest⟩ :=
        State.xcadd_at_bank found body stage ff order runs acts low length served
      exact ⟨t, run, ⟨byte, tag, poison, cores, tiles⟩, rest⟩

end Sys2Proof.Machine
end

section
/-! PROOFS.  APPENDs at their ring: one step there, and what their threads hear of it (R57-R59, R231, R232). -/

namespace Sys2Proof.Machine

/-! ### One step at a ring (R58, R59) -/

theorem State.OnlyMemory.fst_ite {α : Type} {c : Prop} [Decidable c] {s : State} {p q : State × α} (hp : s.OnlyMemory p.1)
    (hq : s.OnlyMemory q.1) : s.OnlyMemory (if c then p else q).1 := by
  split
  · exact hp
  · exact hq

/-- A ring's control block is one that R57 allows, and its counts agree with its size. -/
def State.ringValid (s : State) (ring : Nat) : Prop :=
  s.nat (rawKey ring + 12) 4 % 2 = 1 ∧ 256 ≤ s.nat (rawKey ring + 8) 4 ∧ s.nat (rawKey ring + 8) 4 ≤ 65536 ∧
    2 ^ Nat.log2 (s.nat (rawKey ring + 8) 4) = s.nat (rawKey ring + 8) 4 ∧
    (s.nat (rawKey ring + 4) 4 + 2 ^ 32 - s.nat (rawKey ring) 4) % 2 ^ 32 ≤ s.nat (rawKey ring + 8) 4

/-- The bytes of a ring that its records use (R57). -/
def State.ringUsed (s : State) (ring : Nat) : Nat := (s.nat (rawKey ring + 4) 4 + 2 ^ 32 - s.nat (rawKey ring) 4) % 2 ^ 32

/-- Where the next record of a ring starts in its data area (R58). -/
def State.ringPos (s : State) (ring : Nat) : Nat := s.nat (rawKey ring + 4) 4 % s.nat (rawKey ring + 8) 4

theorem State.ringValid_iff (s : State) (ring : Nat) : s.ringValid ring ↔
    (!nbit (s.nat (rawKey ring + 12) 4) 0 || !ringSizeOk (s.nat (rawKey ring + 8) 4) ||
      decide (s.nat (rawKey ring + 8) 4 < s.ringUsed ring)) = false := by
  simp only [State.ringValid, State.ringUsed, nbit, ringSizeOk, pow_zero, Nat.div_one, Bool.or_eq_false_iff, Bool.not_eq_false',
    beq_iff_eq, Bool.and_eq_true, decide_eq_true_eq, and_assoc]
  exact ⟨fun ⟨enabled, low, high, power, used⟩ => ⟨enabled, low, high, power, decide_eq_false (Nat.not_lt.mpr used)⟩,
    fun ⟨enabled, low, high, power, used⟩ => ⟨enabled, low, high, power, Nat.not_lt.mp (of_decide_eq_false used)⟩⟩

/-- The bytes of a record: its header, then its payload (R58). -/
def ringRecord (w : Who) (payload : List Word) : List Byte :=
  ringHeader w 0 (8 + 8 * payload.length) ++ payload.flatMap (fun v => leBytes 8 v.toNat)

/-- A record written behind a ring's tail, which then moves past it (R58, R59). -/
def State.appended (s : State) (w : Who) (ring : Nat) (payload : List Word) : State :=
  ((s.storeSpad (rawKey ring + 64 + s.ringPos ring) (ringRecord w payload)).clearPoison (rawKey ring + 64 + s.ringPos ring)
    (8 + 8 * payload.length)).storeSpad (rawKey ring + 4) (leBytes 4 ((s.nat (rawKey ring + 4) 4 + (8 + 8 * payload.length)) % 2 ^ 32))

section
variable {s : State} {w : Who} {ring : Nat} {payload : List Word} {held : Bool}

theorem State.ringStep_of_invalid (hp : s.anyPoison (rawKey ring) 16 = false) (h : ¬ s.ringValid ring) :
    s.ringStep w ring payload held = (s, .status 2) := by
  rw [s.ringValid_iff, Bool.not_eq_false] at h
  exact (if_neg (Bool.eq_false_iff.mp hp)).trans (if_pos h)

theorem State.ringStep_of_full (hp : s.anyPoison (rawKey ring) 16 = false) (h : s.ringValid ring)
    (fits : s.ringPos ring + (8 + 8 * payload.length) ≤ s.nat (rawKey ring + 8) 4)
    (full : s.nat (rawKey ring + 8) 4 - s.ringUsed ring < 8 + 8 * payload.length) :
    s.ringStep w ring payload held = (s, .status 1) := by
  have valid := Bool.eq_false_iff.mp ((s.ringValid_iff ring).mp h)
  refine (if_neg (Bool.eq_false_iff.mp hp)).trans ((if_neg valid).trans ?_)
  cases held with
  | true => rfl
  | false =>
    have inside : ¬ s.nat (rawKey ring + 8) 4 < s.ringPos ring + (8 + 8 * payload.length) := Nat.not_lt.mpr fits
    unfold State.ringPos at inside
    unfold State.ringUsed at full
    simp only [inside, if_false, full, if_true, Bool.false_eq_true]

theorem State.ringStep_of_room (hp : s.anyPoison (rawKey ring) 16 = false) (h : s.ringValid ring)
    (fits : s.ringPos ring + (8 + 8 * payload.length) ≤ s.nat (rawKey ring + 8) 4)
    (room : 8 + 8 * payload.length ≤ s.nat (rawKey ring + 8) 4 - s.ringUsed ring)
    (record : s.ringCause (homeOf ring) (offOf ring + 64 + s.ringPos ring) (8 + 8 * payload.length) = none)
    (tail : s.ringCause (homeOf ring) (offOf ring + 4) 4 = none) :
    s.ringStep w ring payload false = (s.appended w ring payload, .status 0) := by
  have valid := Bool.eq_false_iff.mp ((s.ringValid_iff ring).mp h)
  refine (if_neg (Bool.eq_false_iff.mp hp)).trans ((if_neg valid).trans ?_)
  have inside : ¬ s.nat (rawKey ring + 8) 4 < s.ringPos ring + (8 + 8 * payload.length) := Nat.not_lt.mpr fits
  have room' : ¬ s.nat (rawKey ring + 8) 4 - s.ringUsed ring < 8 + 8 * payload.length := Nat.not_lt.mpr room
  unfold State.ringPos at inside record
  unfold State.ringUsed at room'
  simp only [inside, if_false, room', Bool.false_eq_true, List.nil_append, List.findSome?_cons, record, tail, Option.map_none,
    List.findSome?_nil]
  rfl

/-- A step at a ring changes memory alone. -/
theorem State.onlyMemory_ringStep : s.OnlyMemory (s.ringStep w ring payload held).1 := by
  unfold State.ringStep
  extract_lets c o k head tail size used r pos wraps need at_ spans pad rec done_
  have padded : s.OnlyMemory pad := .ite (s.onlyMemory_storeSpad _ _) (.refl s)
  have recorded : s.OnlyMemory (done_.storeSpad (k + 4) (leBytes 4 ((tail + need) % 2 ^ 32))) :=
    ((padded.trans (State.onlyMemory_storeSpad _ _ _)).trans (State.onlyMemory_clearPoison _ _ _)).trans (State.onlyMemory_storeSpad _ _ _)
  refine .fst_ite (.refl s) (.fst_ite (.refl s) (.fst_ite (.refl s) (.fst_ite (.refl s) ?_)))
  split
  · exact .refl s
  · exact recorded

end

/-! ### What the thread of an APPEND hears (R231, R344) -/

/-- The thread of an APPEND wakes with a status, its message gone; memory is that of u. -/
structure State.WokenBy (s u t : State) (m : Msg) (v : Nat) : Prop where
  memory : u.SameMemory t
  wrote : (s.slot m.src).WroteG (t.slot m.src) m.rd (dbl v)
  pc : (t.slot m.src).pc = (s.slot m.src).pc + 4
  park : (t.slot m.src).park = .ready
  others : s.OtherSlots t m.src
  cur : t.cur = s.cur
  net : t.net = s.net.filter (fun q => q.id != m.id)

section
variable {s u : State} {m : Msg} {ring launch v : Nat}

theorem State.hears_countReceived (s : State) (c launch d : Nat) : (s.countReceived c launch).hears d = s.hears d := by
  have core : ((s.countReceived c launch).core d).pos = (s.core d).pos ∧ ((s.countReceived c launch).core d).buffer = (s.core d).buffer := by
    rw [State.countReceived, State.core_setCore]
    split
    · next h => exact h ▸ ⟨rfl, rfl⟩
    · exact ⟨rfl, rfl⟩
  exact State.hears_of_eq rfl rfl rfl core.1 core.2

theorem State.SameUnits.hears_drop (h : s.SameUnits u) (id d : Nat) : (u.drop id).hears d = (s.drop id).hears d :=
  State.hears_of_eq h.parts h.sys (congrArg (List.filter _) h.net) (congrArg Core.pos (State.core_of_cores h.cores d))
    (congrArg Core.buffer (State.core_of_cores h.cores d))

/-- A status that an APPEND's thread hears at once. -/
theorem State.ringReply_of_hears (hu : s.OnlyMemory u) (hh : (s.drop m.id).hears m.src.core = true)
    (hp : (s.slot m.src).park = .reply m.id) : u.ringReply m ring launch (.status v) =
      ((u.drop m.id).countReceived (homeOf ring) launch).setSlot m.src ((s.slot m.src).setG m.rd (dbl v)).next := by
  have slot : (((u.drop m.id).countReceived (homeOf ring) launch).slot m.src) = s.slot m.src := State.slot_of_slots hu.units.slots m.src
  have hears : ((u.drop m.id).countReceived (homeOf ring) launch).hears m.src.core = true := by
    rw [State.hears_countReceived, hu.units.hears_drop, hh]
  have woken := State.status_of_hears (rd := m.rd) (v := dbl v) hears ((congrArg Slot.park slot).trans hp)
  rw [slot] at woken
  exact woken

theorem State.wokenBy_of_ringReply (hu : s.OnlyMemory u) (hh : (s.drop m.id).hears m.src.core = true)
    (hp : (s.slot m.src).park = .reply m.id) : s.WokenBy u (u.ringReply m ring launch (.status v)) m v := by
  rw [State.ringReply_of_hears hu hh hp]
  refine ⟨.of_eq rfl rfl rfl, ?_, ?_, ?_, fun w hw => ?_, hu.frame.1, congrArg (List.filter _) hu.units.net⟩
  · rw [State.slot_setSlot, if_pos rfl]
    exact (s.slot m.src).wroteG_setG m.rd (dbl v)
  · simp [Slot.next]
  · simp [Slot.next]
  · rw [State.slot_setSlot, if_neg hw]
    exact State.slot_of_slots hu.units.slots w

/-! ### An APPEND reaches its ring (R231, R232) -/

variable {payload : List Word} {try_ : Bool}

theorem State.ringArrival_of_status (h : (s.ringStep m.src ring payload (s.ringParked ring)).2 = .status v) (hv : v ≠ 1 ∨ try_ = true) :
    s.ringArrival m ring payload try_ launch =
      (s.ringStep m.src ring payload (s.ringParked ring)).1.ringReply m ring launch (.status v) := by
  rw [State.ringArrival, h]
  intro full isAppend
  rcases hv with hne | isTry
  · exact hne (RingAnswer.status.inj (h.symm.trans full))
  · exact Bool.false_ne_true (isAppend.symm.trans isTry)

/-- An APPEND that meets a full ring, where it stays. -/
theorem State.ringArrival_of_full (h : (s.ringStep m.src ring payload (s.ringParked ring)).2 = .status 1) :
    s.ringArrival m ring payload false launch =
      { (s.ringStep m.src ring payload (s.ringParked ring)).1.drop m.id with
        net := ((s.ringStep m.src ring payload (s.ringParked ring)).1.drop m.id).net ++
          [{ m with body := .append ring payload false true false launch }] } := by
  rw [State.ringArrival]
  exact h

/-- An APPEND whose ring answers it at once. -/
theorem State.wokenBy_of_arrival (hh : (s.drop m.id).hears m.src.core = true) (hp : (s.slot m.src).park = .reply m.id)
    (h : (s.ringStep m.src ring payload (s.ringParked ring)).2 = .status v) (hv : v ≠ 1 ∨ try_ = true) :
    s.WokenBy (s.ringStep m.src ring payload (s.ringParked ring)).1 (s.ringArrival m ring payload try_ launch) m v := by
  rw [State.ringArrival_of_status h hv]
  exact State.wokenBy_of_ringReply State.onlyMemory_ringStep hh hp

end

theorem exec_appendAtRing_of_waiting {s : State} {id ring launch : Nat} {m : Msg} {p : List Word} {try_ : Bool}
    (hm : s.msg? id = some m) (ha : s.mayAct (homeOf ring) id = true) (ho : s.inOrder m = true)
    (hb : m.body = .append ring p try_ false false launch) :
    exec (.appendAtRing id) s = .next (s.ringArrival m ring p try_ launch) := by
  change execAppendAtRing id s = _
  simp [execAppendAtRing, hm, hb, ha, ho]

/-- A retry of a ring's parked APPENDs leaves what the APPENDs do, and unmarks those that still wait (R232). -/
theorem exec_appendRetry {s : State} {ring : Nat} (hr : s.coreRuns (homeOf ring) = true) :
    ∃ t, exec (.appendRetry ring) s = .next t ∧ t.mem = (s.retryRing ring s.net).mem ∧ t.slots = (s.retryRing ring s.net).slots ∧
      ((s.retryRing ring s.net).net = [] → t.net = []) :=
  ⟨_, congrArg Host.Outcome.next (if_pos hr), rfl, rfl, fun h => congrArg (List.map _) h⟩

/-- The one parked APPEND of a ring that no longer meets FULL has its answer. -/
theorem State.retryRing_of_status {s : State} {ring launch v : Nat} {m : Msg} {p : List Word} {try_ : Bool}
    (hb : m.body = .append ring p try_ true true launch) (h : (s.ringStep m.src ring p false).2 = .status v) (hv : v ≠ 1) :
    s.retryRing ring [m] = (s.ringStep m.src ring p false).1.ringReply m ring launch (.status v) := by
  rw [State.retryRing, hb]
  dsimp only
  rw [if_neg (not_not_intro rfl), h]
  split
  · next full => exact absurd (RingAnswer.status.inj full) hv
  · rfl

end Sys2Proof.Machine
end

section
/-! PROOFS.  APPEND and APPENDT at issue (R57-R59, R231). -/

namespace Sys2Proof.Machine

/-! ### The checks at issue (R231) -/

/-- A ring that an APPEND of the running thread may name: aligned, in RAW space, in the user area of its partition. -/
structure State.NamesRing (s : State) (ring : Nat) : Prop where
  aligned : ring % 64 = 0
  raw : ring < 2 ^ 36
  user : offOf ring < reservedBase
  part : s.inPart s.me.part (homeOf ring) = true
  relaxed : s.me.relaxed = []
  small : isLarge s.cur.core = false

/-- The payload of an APPEND of n doubles (R231). -/
def State.payload (s : State) (n : Nat) : List Word := (List.range n).map (fun j => s.g (BitVec.ofNat 5 (4 + j)))

theorem State.length_payload (s : State) (n : Nat) : (s.payload n).length = n := by simp [State.payload]

/-- The thread as its message leaves: counted, sent and parked (R31, R202). -/
def State.issued (s : State) (d : BitVec 5) (b : Body) : State :=
  ((s.countSent s.cur.core s.me.launch).send s.cur d b).setPark s.cur (.reply s.nextId)

/-- The message that an APPEND sends. -/
def State.appendMsg (s : State) (d : BitVec 5) (ring n : Nat) (try_ : Bool) : Msg :=
  ⟨s.nextId, s.cur, d, .append ring (s.payload n) try_ false false s.me.launch⟩

section
variable {s : State} {d a b : BitVec 5} {try_ : Bool}

/-- An APPEND past the checks of its ring. -/
theorem State.appendRing_of_names (h : s.NamesRing (s.g a).toNat) :
    s.appendRing d a b try_ =
      if field (s.g b) 0 4 = 0 ∨ 8 < field (s.g b) 0 4 ∨ field (s.g b) 4 28 ≠ 0 ∨ field (s.g b) 48 16 ≠ 0 then s.result d 4
      else if field (s.g b) 32 16 ≠ 0 ∧ s.peerGone (field (s.g b) 32 16) (homeOf (s.g a).toNat) then
        ((s.countSent s.cur.core s.me.launch).countReceived s.cur.core s.me.launch).result d 3
      else if field (s.g b) 32 16 ≠ 0 then s.issued d (.peer true try_ s.me.launch)
      else if nearBank s.cur.core (s.g a).toNat && (s.issued d (.append (s.g a).toNat (s.payload (field (s.g b) 0 4)) try_ false false s.me.launch)).coreRuns
          (homeOf (s.g a).toNat) then
        (s.issued d (.append (s.g a).toNat (s.payload (field (s.g b) 0 4)) try_ false false s.me.launch)).ringArrival
          (s.appendMsg d (s.g a).toNat (field (s.g b) 0 4) try_) (s.g a).toNat (s.payload (field (s.g b) 0 4)) try_ s.me.launch
      else s.issued d (.append (s.g a).toNat (s.payload (field (s.g b) 0 4)) try_ false false s.me.launch) := by
  obtain ⟨aligned, raw, user, part, relaxed, small⟩ := h
  rw [State.appendRing]
  dsimp only
  rw [if_neg (not_not_intro aligned), if_neg, State.waitRelaxed_of_nil relaxed]
  · rfl
  · rintro (h | h | ⟨_, h⟩)
    · omega
    · omega
    · rw [part] at h
      exact absurd h (by decide)

/-- A payload length that R231 does not allow. -/
theorem State.appendRing_of_bad (h : s.NamesRing (s.g a).toNat) (hn : (s.g b).toNat = 0 ∨ 8 < (s.g b).toNat ∧ (s.g b).toNat < 16) :
    s.appendRing d a b try_ = s.result d 4 := by
  have low : field (s.g b) 0 4 = (s.g b).toNat := by
    rw [field]
    omega
  rw [State.appendRing_of_names h, if_pos (by rw [low]; omega)]

theorem State.coreRuns_issued (s : State) (d : BitVec 5) (bd : Body) (c : Nat) : (s.issued d bd).coreRuns c = s.coreRuns c := by
  refine State.coreRuns_of_eq rfl rfl ?_
  change ((s.countSent s.cur.core s.me.launch).core c).pos = _
  rw [State.countSent, State.core_setCore]
  split
  · next h => rw [h]
  · rfl

/-- An APPEND in the super-group, of a core that runs, reaches its ring at once (R231). -/
theorem State.appendRing_near (h : s.NamesRing (s.g a).toNat) (h1 : 1 ≤ (s.g b).toNat) (h8 : (s.g b).toNat ≤ 8)
    (hg : sgOf (homeOf (s.g a).toNat) = sgOf s.cur.core) (hr : s.coreRuns (homeOf (s.g a).toNat) = true) :
    s.appendRing d a b try_ =
      (s.issued d (s.appendMsg d (s.g a).toNat (s.g b).toNat try_).body).ringArrival (s.appendMsg d (s.g a).toNat (s.g b).toNat try_)
        (s.g a).toNat (s.payload (s.g b).toNat) try_ s.me.launch := by
  have low : field (s.g b) 0 4 = (s.g b).toNat := by
    rw [field]
    omega
  have rest : field (s.g b) 4 28 = 0 ∧ field (s.g b) 48 16 = 0 ∧ field (s.g b) 32 16 = 0 := by
    simp only [field]
    omega
  obtain ⟨mid, top, peer⟩ := rest
  have near : nearBank s.cur.core (s.g a).toNat = true := by
    rw [nearBank, h.small, hg, decide_eq_true rfl]
    rfl
  rw [State.appendRing_of_names h, low, mid, top, peer, if_neg (by omega), if_neg (by omega), if_neg (by omega), near, State.coreRuns_issued, hr,
    if_pos (by decide)]
  rfl

end

/-! ### What a step at a ring sees of an issued APPEND -/

section
variable (s : State) (d : BitVec 5) (bd : Body)

theorem State.issued_queues (c : Nat) : ((s.issued d bd).core c).objects = (s.core c).objects ∧
    ((s.issued d bd).core c).runList = (s.core c).runList ∧ ((s.issued d bd).core c).pos = (s.core c).pos ∧
    ((s.issued d bd).core c).buffer = (s.core c).buffer := by
  change ((s.countSent s.cur.core s.me.launch).core c).objects = _ ∧ ((s.countSent s.cur.core s.me.launch).core c).runList = _ ∧
    ((s.countSent s.cur.core s.me.launch).core c).pos = _ ∧ ((s.countSent s.cur.core s.me.launch).core c).buffer = _
  rw [State.countSent, State.core_setCore]
  split
  · next h => exact h ▸ ⟨rfl, rfl, rfl, rfl⟩
  · exact ⟨rfl, rfl, rfl, rfl⟩

theorem State.ringCause_issued (c lo n : Nat) : (s.issued d bd).ringCause c lo n = s.ringCause c lo n := by
  obtain ⟨objects, runList, -, -⟩ := s.issued_queues d bd c
  have live : (s.issued d bd).liveTouch c lo n = s.liveTouch c lo n := by
    rw [State.liveTouch, State.liveTouch, objects]
    exact congrArg (List.any _) (funext fun p => by rw [State.desc, State.desc, State.nat_of_mem (t := s.issued d bd) (s := s) rfl])
  have queued : (s.issued d bd).queuedTouch c lo n = s.queuedTouch c lo n := by rw [State.queuedTouch, State.queuedTouch, runList]
  rw [State.ringCause, State.ringCause, live, queued]
  rfl

theorem State.issued_me : (s.issued d bd).slot s.cur = { s.me with park := .reply s.nextId } := by
  rw [State.issued, State.setPark, State.slot_setSlot, if_pos rfl]
  rfl

theorem State.issued_others : s.OtherSlots (s.issued d bd) s.cur := fun w hw => by
  rw [State.issued, State.setPark, State.slot_setSlot, if_neg hw]
  rfl

theorem State.issued_net : (s.issued d bd).net = s.net ++ [⟨s.nextId, s.cur, d, bd⟩] := rfl

theorem State.hears_issued : ((s.issued d bd).drop s.nextId).hears s.cur.core = (s.drop s.nextId).hears s.cur.core := by
  obtain ⟨-, -, pos, buffer⟩ := s.issued_queues d bd s.cur.core
  refine State.hears_of_eq rfl rfl ?_ pos buffer
  simp [State.drop, State.issued_net]

end

theorem State.ringParked_issued (s : State) (d : BitVec 5) (ring n : Nat) (try_ : Bool) (r : Nat) :
    (s.issued d (s.appendMsg d ring n try_).body).ringParked r = s.ringParked r := by
  rw [State.ringParked, State.issued_net, List.any_append]
  simp [State.ringParked, State.appendMsg]

/-! ### The bytes of an appended record (R58) -/

theorem length_flatMap_words (p : List Word) : (p.flatMap (fun v => leBytes 8 v.toNat)).length = 8 * p.length := by
  induction p with
  | nil => rfl
  | cons v p ih =>
    rw [List.flatMap_cons, List.length_append, ih, leBytes_length, List.length_cons]
    omega

theorem length_ringRecord (w : Who) (p : List Word) : (ringRecord w p).length = 8 + 8 * p.length := by
  rw [ringRecord, List.length_append, length_flatMap_words, ringHeader, leBytes_length]

/-- Word j of a payload, among its bytes. -/
theorem take_flatMap_words (p : List Word) {j : Nat} (h : j < p.length) :
    ((p.flatMap (fun v => leBytes 8 v.toNat)).drop (8 * j)).take 8 = leBytes 8 (p[j]).toNat := by
  induction p generalizing j with
  | nil => exact absurd h (Nat.not_lt_zero _)
  | cons v p ih =>
    rw [List.flatMap_cons]
    cases j with
    | zero => exact List.take_left' (leBytes_length 8 _)
    | succ j =>
      have skip : 8 * (j + 1) = (leBytes 8 v.toNat).length + 8 * j := by
        rw [leBytes_length]
        omega
      rw [skip, List.drop_length_add_append]
      exact ih (Nat.lt_of_succ_lt_succ h)

section
variable (s : State) (w : Who) (ring : Nat) (p : List Word)

/-- The state between the record's write and the tail's. -/
def State.recorded (s : State) (w : Who) (ring : Nat) (p : List Word) : State :=
  (s.storeSpad (rawKey ring + 64 + s.ringPos ring) (ringRecord w p)).clearPoison (rawKey ring + 64 + s.ringPos ring) (8 + 8 * p.length)

theorem State.byte_recorded (j : Nat) : (s.recorded w ring p).byte j = (s.setBytes (rawKey ring + 64 + s.ringPos ring) (ringRecord w p)).byte j := by
  obtain ⟨mem, -⟩ := State.clearPoison_frame (s.storeSpad (rawKey ring + 64 + s.ringPos ring) (ringRecord w p)) (rawKey ring + 64 + s.ringPos ring)
    (8 + 8 * p.length)
  exact (State.byte_of_mem mem j).trans (State.byte_storeSpad ..)

/-- The tail has moved past the record (R59). -/
theorem State.tail_appended : (s.appended w ring p).nat (rawKey ring + 4) 4 = (s.nat (rawKey ring + 4) 4 + (8 + 8 * p.length)) % 2 ^ 32 := by
  have mem : (s.appended w ring p).mem =
      ((s.recorded w ring p).setNat (rawKey ring + 4) 4 ((s.nat (rawKey ring + 4) 4 + (8 + 8 * p.length)) % 2 ^ 32)).mem := by
    simp only [State.appended, State.storeSpad_frame]
    rfl
  rw [State.nat_of_mem mem, State.nat_setNat]
  exact Nat.mod_eq_of_lt (Nat.mod_lt _ (by decide))

theorem State.byte_appended {j : Nat} (h : j < rawKey ring + 4 ∨ rawKey ring + 8 ≤ j) :
    (s.appended w ring p).byte j = (s.setBytes (rawKey ring + 64 + s.ringPos ring) (ringRecord w p)).byte j := by
  have outside := State.byte_setBytes_outside (s.recorded w ring p) (rawKey ring + 4) j
    (leBytes 4 ((s.nat (rawKey ring + 4) 4 + (8 + 8 * p.length)) % 2 ^ 32)) (by rw [leBytes_length]; omega)
  exact (State.byte_storeSpad ..).trans (outside.trans (s.byte_recorded w ring p j))

/-- A field of the record, as it was written. -/
theorem State.nat_appended {o : Nat} (h : o + 8 ≤ 8 + 8 * p.length) :
    (s.appended w ring p).nat (rawKey ring + 64 + s.ringPos ring + o) 8 = leNat (((ringRecord w p).drop o).take 8) := by
  rw [State.nat_of_bytes (s := s.setBytes (rawKey ring + 64 + s.ringPos ring) (ringRecord w p)) fun j hj => s.byte_appended w ring p (by omega)]
  exact State.nat_setBytes _ _ _ _ _ (by rw [length_ringRecord]; exact h)

/-- The record's header (R58). -/
theorem State.header_appended (hc : w.core < 65536) (hp : p.length ≤ 8) :
    (s.appended w ring p).nat (rawKey ring + 64 + s.ringPos ring) 8 = 8 + 8 * p.length + w.core * 2 ^ 32 + w.slot % 2 ^ 16 * 2 ^ 48 := by
  have header : ((ringRecord w p).drop 0).take 8 = ringHeader w 0 (8 + 8 * p.length) := List.take_left' (leBytes_length 8 _)
  have read := s.nat_appended w ring p (o := 0) (by omega)
  rw [Nat.add_zero, header, ringHeader, leNat_leBytes] at read
  rw [read]
  omega

/-- The record's payload (R58). -/
theorem State.word_appended {j : Nat} (h : j < p.length) :
    (s.appended w ring p).nat (rawKey ring + 64 + s.ringPos ring + 8 + 8 * j) 8 = (p[j]).toNat := by
  have word : ((ringRecord w p).drop (8 + 8 * j)).take 8 = leBytes 8 (p[j]).toNat := by
    have skip : 8 + 8 * j = (ringHeader w 0 (8 + 8 * p.length)).length + 8 * j := by rw [ringHeader, leBytes_length]
    rw [ringRecord, skip, List.drop_length_add_append, take_flatMap_words p h]
  have read := s.nat_appended w ring p (o := 8 + 8 * j) (by omega)
  rwa [word, leNat_leBytes_word, ← Nat.add_assoc] at read

/-- Bytes outside the tail and the record are as before. -/
theorem State.byte_appended_outside {j : Nat} (h : j < rawKey ring + 4 ∨ rawKey ring + 8 ≤ j)
    (h' : j < rawKey ring + 64 + s.ringPos ring ∨ rawKey ring + 64 + s.ringPos ring + (8 + 8 * p.length) ≤ j) :
    (s.appended w ring p).byte j = s.byte j := by
  rw [s.byte_appended w ring p h]
  exact State.byte_setBytes_outside _ _ _ _ (by rw [length_ringRecord]; exact h')

end

/-! ### The answers to an APPEND in the super-group (R231) -/

/-- What a thread hears of its APPEND: the status in its register, at the next PC (R231). -/
structure State.HeardStatus (s t : State) (d : BitVec 5) (v : Word) : Prop where
  pc : t.me.pc = s.me.pc + 4
  wrote : s.me.WroteG t.me d v
  others : s.OtherSlots t s.cur

/-- An APPEND in the super-group, past its checks, to a ring of a core that runs and without poison. -/
structure State.AppendsNear (s : State) (a b : BitVec 5) : Prop where
  names : s.NamesRing (s.g a).toNat
  some_ : 1 ≤ (s.g b).toNat
  few : (s.g b).toNat ≤ 8
  near : sgOf (homeOf (s.g a).toNat) = sgOf s.cur.core
  runs : s.coreRuns (homeOf (s.g a).toNat) = true
  clean : s.anyPoison (rawKey (s.g a).toNat) 16 = false

section
variable {s : State} {d a b : BitVec 5} {try_ : Bool} {v : Nat}

/-- The step that an APPEND makes at its ring, in the state in which it is issued. -/
def State.stepOf (s : State) (d a b : BitVec 5) (try_ : Bool) : State × RingAnswer :=
  (s.issued d (s.appendMsg d (s.g a).toNat (s.g b).toNat try_).body).ringStep s.cur (s.g a).toNat (s.payload (s.g b).toNat)
    (s.ringParked (s.g a).toNat)

theorem State.AppendsNear.heard (h : s.AppendsNear a b) (hh : (s.drop s.nextId).hears s.cur.core = true)
    (step_ : (s.stepOf d a b try_).2 = .status v) (hv : v ≠ 1 ∨ try_ = true) :
    s.HeardStatus (s.appendRing d a b try_) d (dbl v) ∧ (s.stepOf d a b try_).1.SameMemory (s.appendRing d a b try_) := by
  have me := s.issued_me d (s.appendMsg d (s.g a).toNat (s.g b).toNat try_).body
  have woken := State.wokenBy_of_arrival (s := s.issued d (s.appendMsg d (s.g a).toNat (s.g b).toNat try_).body)
    (m := s.appendMsg d (s.g a).toNat (s.g b).toNat try_) (ring := (s.g a).toNat) (payload := s.payload (s.g b).toNat) (try_ := try_)
    (launch := s.me.launch) (v := v) ((s.hears_issued d _).trans hh) (congrArg Slot.park me)
    (by rw [s.ringParked_issued]; exact step_) hv
  rw [← State.appendRing_near h.names h.some_ h.few h.near h.runs, s.ringParked_issued] at woken
  obtain ⟨memory, wrote, pc, -, others, cur, -⟩ := woken
  have running : (s.appendRing d a b try_).me = (s.appendRing d a b try_).slot s.cur := by rw [State.me, cur]; rfl
  change Slot.WroteG ((s.issued d _).slot s.cur) ((s.appendRing d a b try_).slot s.cur) d (dbl v) at wrote
  change ((s.appendRing d a b try_).slot s.cur).pc = ((s.issued d _).slot s.cur).pc + 4 at pc
  rw [me, ← running] at wrote pc
  exact ⟨⟨pc, wrote, fun w hw => (others w hw).trans (s.issued_others d _ w hw)⟩, memory⟩

theorem State.AppendsNear.invalid (h : s.AppendsNear a b) (hv : ¬ s.ringValid (s.g a).toNat) :
    s.stepOf d a b try_ = (s.issued d (s.appendMsg d (s.g a).toNat (s.g b).toNat try_).body, .status 2) :=
  State.ringStep_of_invalid h.clean hv

theorem State.AppendsNear.full (h : s.AppendsNear a b) (hv : s.ringValid (s.g a).toNat)
    (fits : s.ringPos (s.g a).toNat + (8 + 8 * (s.g b).toNat) ≤ s.nat (rawKey (s.g a).toNat + 8) 4)
    (full : s.nat (rawKey (s.g a).toNat + 8) 4 - s.ringUsed (s.g a).toNat < 8 + 8 * (s.g b).toNat) :
    s.stepOf d a b try_ = (s.issued d (s.appendMsg d (s.g a).toNat (s.g b).toNat try_).body, .status 1) :=
  State.ringStep_of_full h.clean hv (by rw [s.length_payload]; exact fits) (by rw [s.length_payload]; exact full)

theorem State.AppendsNear.room (h : s.AppendsNear a b) (hv : s.ringValid (s.g a).toNat) (hp : s.ringParked (s.g a).toNat = false)
    (fits : s.ringPos (s.g a).toNat + (8 + 8 * (s.g b).toNat) ≤ s.nat (rawKey (s.g a).toNat + 8) 4)
    (room : 8 + 8 * (s.g b).toNat ≤ s.nat (rawKey (s.g a).toNat + 8) 4 - s.ringUsed (s.g a).toNat)
    (record : s.ringCause (homeOf (s.g a).toNat) (offOf (s.g a).toNat + 64 + s.ringPos (s.g a).toNat) (8 + 8 * (s.g b).toNat) = none)
    (tail : s.ringCause (homeOf (s.g a).toNat) (offOf (s.g a).toNat + 4) 4 = none) :
    s.stepOf d a b try_ = ((s.issued d (s.appendMsg d (s.g a).toNat (s.g b).toNat try_).body).appended s.cur (s.g a).toNat
      (s.payload (s.g b).toNat), .status 0) := by
  rw [State.stepOf, hp]
  refine State.ringStep_of_room h.clean hv (by rw [s.length_payload]; exact fits) (by rw [s.length_payload]; exact room) ?_ ?_
  · rw [State.ringCause_issued, s.length_payload]
    exact record
  · rw [State.ringCause_issued]
    exact tail

/-- An APPEND that meets a full ring parks there (R231). -/
theorem State.AppendsNear.parks (h : s.AppendsNear a b)
    (full : s.stepOf d a b false = (s.issued d (s.appendMsg d (s.g a).toNat (s.g b).toNat false).body, .status 1)) :
    ∃ t m, exec (.append d a b) s = .next t ∧ t.me.pc = s.me.pc ∧ t.me.park = .reply m.id ∧
      t.net = s.net.filter (fun q => q.id != s.nextId) ++ [m] ∧
      m.body = .append (s.g a).toNat (s.payload (s.g b).toNat) false true false s.me.launch ∧ s.SameMemory t ∧ s.OtherSlots t s.cur := by
  have arrival := State.appendRing_near (d := d) (try_ := false) h.names h.some_ h.few h.near h.runs
  have stepped := s.ringParked_issued d (s.g a).toNat (s.g b).toNat false (s.g a).toNat
  have held := State.ringArrival_of_full (s := s.issued d (s.appendMsg d (s.g a).toNat (s.g b).toNat false).body)
    (m := s.appendMsg d (s.g a).toNat (s.g b).toNat false) (ring := (s.g a).toNat) (payload := s.payload (s.g b).toNat)
    (launch := s.me.launch) (by rw [stepped]; exact congrArg Prod.snd full)
  rw [stepped, show State.ringStep _ (s.appendMsg d (s.g a).toNat (s.g b).toNat false).src _ _ _ = _ from full] at held
  have me := s.issued_me d (s.appendMsg d (s.g a).toNat (s.g b).toNat false).body
  have pc := congrArg Slot.pc me
  have park := congrArg Slot.park me
  refine ⟨_, { s.appendMsg d (s.g a).toNat (s.g b).toNat false with
    body := .append (s.g a).toNat (s.payload (s.g b).toNat) false true false s.me.launch },
    congrArg Host.Outcome.next (arrival.trans held), ?_, ?_, ?_, rfl, .of_eq rfl rfl rfl, s.issued_others d _⟩
  · exact pc
  · exact park
  · change (s.net ++ [s.appendMsg d (s.g a).toNat (s.g b).toNat false]).filter (fun q => q.id != s.nextId) ++ _ = _
    simp [State.appendMsg]

end

end Sys2Proof.Machine
end

section
/-! PROOFS.  CONTEXT_GONE: notices, the RECVs it wakes and the parked messages it discards (R229, R344, R382). -/

namespace Sys2Proof.Machine

/-! ### A taken message (R229) -/

/-- The payload of a message, in g4 and the registers above it. -/
def Slot.takePayload (x : Slot) (m : Mail) (n : Nat) : Slot :=
  (List.range n).foldl (fun x i => x.setG (BitVec.ofNat 5 (4 + i)) (m.payload.getD i 0)) x

theorem Slot.takePayload_succ (x : Slot) (m : Mail) (n : Nat) :
    x.takePayload m (n + 1) = (x.takePayload m n).setG (BitVec.ofNat 5 (4 + n)) (m.payload.getD n 0) := by
  rw [takePayload, List.range_succ, List.foldl_append]
  rfl

theorem Slot.g_takePayload (x : Slot) (m : Mail) {n : Nat} (hn : n ≤ 8) (r : BitVec 5) :
    (x.takePayload m n).g r = if 4 ≤ r.toNat ∧ r.toNat < 4 + n then m.payload.getD (r.toNat - 4) 0 else x.g r := by
  induction n with
  | zero => exact (if_neg (by omega)).symm
  | succ n ih =>
    rw [Slot.takePayload_succ, Slot.g_setG, ih (by omega)]
    have number : (BitVec.ofNat 5 (4 + n)).toNat = 4 + n := by
      rw [BitVec.toNat_ofNat]
      omega
    have notZero : BitVec.ofNat 5 (4 + n) ≠ 0 := fun e => by
      have zero : 4 + n = 0 := number.symm.trans (congrArg BitVec.toNat e)
      omega
    by_cases h : r = BitVec.ofNat 5 (4 + n)
    · have place : r.toNat = 4 + n := h ▸ number
      rw [if_pos ⟨h, notZero⟩, if_pos (by omega), place, Nat.add_sub_cancel_left]
    · have place : r.toNat ≠ 4 + n := fun e => h (BitVec.eq_of_toNat_eq (e.trans number.symm))
      rw [if_neg fun e => h e.1]
      simp only [show r.toNat < 4 + (n + 1) ↔ r.toNat < 4 + n by omega]

theorem Slot.tookMail_takeMail (x : Slot) (rd : BitVec 5) (m : Mail) : x.TookMail (x.takeMail rd m) rd m := by
  intro r
  change ((((x.takePayload m 8).setG 12 m.sender).setG 13 (dbl (8 * m.payload.length))).setG rd (if m.gone then 3 else 0)).g r = _
  by_cases zero : r = 0
  · rw [if_pos zero, zero]
    rfl
  rw [if_neg zero, Slot.g_setG]
  by_cases status : r = rd
  · rw [if_pos status, if_pos ⟨status, status ▸ zero⟩]
  rw [if_neg status, if_neg fun h => status h.1, Slot.g_setG, Slot.g_setG, x.g_takePayload m (le_refl 8)]
  by_cases payload : 4 ≤ r.toNat ∧ r.toNat < 12
  · rw [if_pos payload, if_pos payload, if_neg, if_neg]
    · rintro ⟨rfl, -⟩
      exact absurd payload.2 (by decide)
    · rintro ⟨rfl, -⟩
      exact absurd payload.2 (by decide)
  rw [if_neg payload, if_neg payload]
  by_cases sender : r = 12
  · rw [if_pos sender, if_neg, if_pos ⟨sender, by decide⟩]
    rintro ⟨h, -⟩
    exact absurd (sender.symm.trans h) (by decide)
  rw [if_neg sender]
  by_cases length : r = 13
  · rw [if_pos length, if_pos ⟨length, by decide⟩]
  · rw [if_neg length, if_neg fun h => length h.1, if_neg fun h => sender h.1]

theorem Slot.takeMail_park (x : Slot) (rd : BitVec 5) (m : Mail) : (x.takeMail rd m).park = .ready := rfl

/-! ### The notice (R229, R382) -/

theorem sameContext_noticeIn (sender : Word) {b : Nat} (hb : b < 16) : sameContext (noticeIn sender b).sender sender = true := by
  refine decide_eq_true ?_
  change (dbl (sender.toNat - field sender 20 4 * 2 ^ 20 + b * 2 ^ 20)).toNat - field (dbl (sender.toNat - field sender 20 4 * 2 ^ 20 + b * 2 ^ 20)) 20 4 * 2 ^ 20 = _
  have size := sender.isLt
  simp only [field, dbl, BitVec.toNat_ofNat]
  omega

/-- A message from a context, not a notice about it (R382). -/
def Mail.isFrom (x : Mail) (sender : Word) : Bool := !x.gone && sameContext x.sender sender

theorem holdsMailOf_eq (sender : Word) (l : List Mail) : holdsMailOf sender l = l.any (fun x => x.isFrom sender) := rfl

theorem withNotice_eq (sender : Word) (b : Nat) (l : List Mail) :
    withNotice sender b l = l.rdropWhile (fun x => !x.isFrom sender) ++ [noticeIn sender b] ++ l.rtakeWhile (fun x => !x.isFrom sender) := by
  have other : (fun x : Mail => x.gone || !sameContext x.sender sender) = fun x => !x.isFrom sender := by
    funext x
    simp [Mail.isFrom]
  have whole := List.rdropWhile_append_rtakeWhile (l := l) (p := fun x => !x.isFrom sender)
  have length := congrArg List.length whole
  rw [List.length_append] at length
  have before : l.take (l.length - (l.rtakeWhile (fun x => !x.isFrom sender)).length) = l.rdropWhile (fun x => !x.isFrom sender) := by
    have size : l.length - (l.rtakeWhile (fun x => !x.isFrom sender)).length = (l.rdropWhile (fun x => !x.isFrom sender)).length := by omega
    rw [size]
    exact (congrArg _ whole.symm).trans List.take_left
  rw [withNotice, other]
  change l.take (l.length - (l.rtakeWhile (fun x => !x.isFrom sender)).length) ++ _ ++ l.rtakeWhile _ = _
  rw [before]

theorem holdsMailOf_withNotice (sender : Word) (b : Nat) (l : List Mail) : holdsMailOf sender (withNotice sender b l) = holdsMailOf sender l := by
  have whole := List.rdropWhile_append_rtakeWhile (l := l) (p := fun x => !x.isFrom sender)
  have notice : (noticeIn sender b).isFrom sender = false := rfl
  rw [withNotice_eq, holdsMailOf_eq, holdsMailOf_eq]
  nth_rewrite 3 [← whole]
  simp only [List.any_append, List.any_cons, List.any_nil, notice, Bool.or_false]

/-- The notice stands right behind the last message from the context (R382). -/
theorem withNotice_split (sender : Word) {b : Nat} (hb : b < 16) {l : List Mail} (h : holdsMailOf sender l = true) :
    ∃ before x after, l = before ++ after ∧ withNotice sender b l = before ++ [x] ++ after ∧
      before.getLast?.map (fun y => holdsMailOf sender [y]) = some true ∧ holdsMailOf sender after = false ∧
      x.gone = true ∧ x.payload = [] ∧ sameContext x.sender sender = true := by
  refine ⟨_, _, _, List.rdropWhile_append_rtakeWhile.symm, withNotice_eq sender b l, ?_, ?_, rfl, rfl, sameContext_noticeIn sender hb⟩
  · have some_ : l.rdropWhile (fun x => !x.isFrom sender) ≠ [] := fun none_ => by
      obtain ⟨x, hx, from_⟩ := List.any_eq_true.mp h
      have other := (List.rdropWhile_eq_nil_iff.mp none_) x hx
      rw [show x.isFrom sender = true from from_] at other
      exact absurd other (by decide)
    have last := List.rdropWhile_last_not (fun x => !x.isFrom sender) l some_
    rw [Bool.not_eq_true, Bool.not_eq_false'] at last
    rw [List.getLast?_eq_getLast_of_ne_nil some_, Option.map_some, holdsMailOf_eq, List.any_cons, last]
    rfl
  · rw [holdsMailOf_eq, List.any_eq_false]
    intro x hx
    have other := List.mem_rtakeWhile_imp hx
    rw [Bool.not_eq_true]
    exact (Bool.not_eq_true' _).mp other

/-! ### What CONTEXT_GONE does at one mailbox (R382) -/

/-- Whether a slot is parked in a RECV that names a box (R229). -/
def Slot.awaits (x : Slot) (b : Nat) : Prop := ∃ mask rd k, x.park = .recv mask rd k ∧ mask.getLsbD b = true

/-- A slot as a notice in a box leaves it: woken from a RECV that names the box (R382). -/
def Slot.noticed (x : Slot) (sender : Word) (b : Nat) : Slot :=
  match x.park with
  | .recv mask rd _ => if mask.getLsbD b then x.takeMail rd (noticeIn sender b) else x
  | _ => x

theorem Slot.noticed_of_not_awaits {x : Slot} {b : Nat} (h : ¬ x.awaits b) (sender : Word) : x.noticed sender b = x := by
  rw [Slot.noticed]
  split
  · next mask rd k parked => exact if_neg fun names => h ⟨mask, rd, k, parked, names⟩
  · rfl

theorem Slot.noticed_of_awaits {x : Slot} {b k : Nat} {mask : BitVec 16} {rd : BitVec 5} (hp : x.park = .recv mask rd k)
    (hb : mask.getLsbD b = true) (sender : Word) : x.noticed sender b = x.takeMail rd (noticeIn sender b) := by
  rw [Slot.noticed, hp]
  exact if_pos hb

theorem Slot.not_awaits_of_ready {x : Slot} (h : x.park = .ready) (b : Nat) : ¬ x.awaits b := by
  rintro ⟨_, _, _, parked, -⟩
  exact Park.noConfusion (h.symm.trans parked)

section
variable (s : State) (sender : Word) (c b : Nat)

/-- The notice at one slot of a core. -/
def State.noticeSlot (sender : Word) (c b : Nat) (s : State) (k : Nat) : State :=
  match (s.slot ⟨c, k⟩).park with
  | .recv mask rd _ => if mask.getLsbD b then s.setSlot ⟨c, k⟩ ((s.slot ⟨c, k⟩).takeMail rd (noticeIn sender b)) else s
  | _ => s

theorem State.wakeGone_eq : s.wakeGone sender c b = (s.threads c).foldl (State.noticeSlot sender c b) s := rfl

theorem State.slot_noticeSlot (k n : Nat) : (State.noticeSlot sender c b s k).slot ⟨0, n⟩ =
    if n = slotKey ⟨c, k⟩ then (s.slot ⟨0, n⟩).noticed sender b else s.slot ⟨0, n⟩ := by
  by_cases place : n = slotKey ⟨c, k⟩
  · have here : s.slot ⟨0, n⟩ = s.slot ⟨c, k⟩ := by simp [State.slot, slotKey, place]
    rw [if_pos place, here, Slot.noticed, State.noticeSlot]
    split
    · split
      · rw [State.slot_setSlot, if_pos (by simpa [slotKey] using place)]
      · exact here
    · exact here
  · rw [if_neg place, State.noticeSlot]
    split
    · split
      · rw [State.slot_setSlot, if_neg (by simpa [slotKey] using place)]
      · rfl
    · rfl

theorem State.slot_eq_key (w : Who) : s.slot w = s.slot ⟨0, slotKey w⟩ := by simp [State.slot, slotKey]

/-- The slots of a core's threads, each with the notice. -/
theorem State.slot_wakeGone :
    (∀ k ∈ s.threads c, (s.wakeGone sender c b).slot ⟨c, k⟩ = (s.slot ⟨c, k⟩).noticed sender b) ∧
      ∀ w, (∀ k ∈ s.threads c, slotKey w ≠ slotKey ⟨c, k⟩) → (s.wakeGone sender c b).slot w = s.slot w := by
  have once : ((s.threads c).map (fun k => slotKey ⟨c, k⟩)).Nodup :=
    (List.nodup_range.filter _).map fun a b e => by simpa [slotKey] using e
  obtain ⟨told, rest⟩ := foldl_obs (obs := fun (t : State) n => t.slot ⟨0, n⟩) (key := fun k => slotKey ⟨c, k⟩)
    (upd := fun _ x => x.noticed sender b) (fun t k n => t.slot_noticeSlot sender c b k n) (s.threads c) s once
  rw [State.wakeGone_eq]
  refine ⟨fun k hk => ?_, fun w hw => ?_⟩
  · rw [State.slot_eq_key _ ⟨c, k⟩, State.slot_eq_key s ⟨c, k⟩]
    exact told k hk
  · rw [State.slot_eq_key _ w, State.slot_eq_key s w]
    refine rest _ fun h => ?_
    obtain ⟨k, hk, key⟩ := List.mem_map.mp h
    exact hw k hk key.symm

/-- A slot that no RECV on the box holds is as before. -/
theorem State.slot_wakeGone_of_not_awaits {w : Who} (h : ¬ (s.slot w).awaits b) : (s.wakeGone sender c b).slot w = s.slot w := by
  obtain ⟨told, rest⟩ := s.slot_wakeGone sender c b
  by_cases thread : ∃ k ∈ s.threads c, slotKey w = slotKey ⟨c, k⟩
  · obtain ⟨k, hk, key⟩ := thread
    have here (t : State) : t.slot w = t.slot ⟨c, k⟩ := by rw [State.slot, State.slot, key]
    rw [here s] at h ⊢
    rw [here, told k hk, Slot.noticed_of_not_awaits h]
  · exact rest w fun k hk key => thread ⟨k, hk, key⟩

theorem State.wakeGone_frame : (s.wakeGone sender c b).cores = s.cores ∧ (s.wakeGone sender c b).net = s.net ∧
    (s.wakeGone sender c b).mem = s.mem ∧ (s.wakeGone sender c b).stags = s.stags ∧ (s.wakeGone sender c b).poison = s.poison ∧
    (s.wakeGone sender c b).parts = s.parts ∧ (s.wakeGone sender c b).sys = s.sys := by
  have kept := foldl_keeps (f := State.noticeSlot sender c b)
    (φ := fun t : State => (t.cores, t.net, t.mem, t.stags, t.poison, t.parts, t.sys)) (fun t k => ?_) (s.threads c) s
  · simpa only [Prod.mk.injEq, ← State.wakeGone_eq] using kept
  · rw [State.noticeSlot]
    split
    · split
      · rfl
      · rfl
    · rfl

/-- A core after the notice in one of its boxes. -/
theorem State.core_noticed (l : List Mail) (d : Nat) : ((s.setBox c b l).wakeGone sender c b).core d =
    if d = c then { s.core c with boxes := mapPut (s.core c).boxes b l } else s.core d := by
  obtain ⟨cores, -⟩ := (s.setBox c b l).wakeGone_frame sender c b
  exact (State.core_of_cores cores d).trans (State.core_setCore ..)

/-- The box with its notice, where it holds a message from the context. -/
def noted (sender : Word) (b : Nat) (l : List Mail) : List Mail := if holdsMailOf sender l then withNotice sender b l else l

theorem holdsMailOf_noted (l : List Mail) : holdsMailOf sender (noted sender b l) = holdsMailOf sender l := by
  rw [noted]
  split
  · exact holdsMailOf_withNotice sender b l
  · rfl

/-- What CONTEXT_GONE leaves as it was wherever it is learned: memory, the partitions, the host link's registers, what a
core's clock and holding buffer say, and every slot that is not parked in a RECV. -/
structure State.Learned (s t : State) : Prop where
  memory : t.mem = s.mem ∧ t.stags = s.stags ∧ t.poison = s.poison
  parts : t.parts = s.parts
  sys : t.sys = s.sys
  cores : ∀ d, (t.core d).pos = (s.core d).pos ∧ (t.core d).buffer = (s.core d).buffer
  slots : ∀ w, (∀ j, ¬ (s.slot w).awaits j) → t.slot w = s.slot w

theorem State.Learned.refl : s.Learned s := ⟨⟨rfl, rfl, rfl⟩, rfl, rfl, fun _ => ⟨rfl, rfl⟩, fun _ _ => rfl⟩

variable {s} in
theorem State.Learned.trans {t u : State} (h : s.Learned t) (g : t.Learned u) : s.Learned u := by
  obtain ⟨⟨hm, hs, hp⟩, parts, sys, cores, slots⟩ := h
  obtain ⟨⟨hm', hs', hp'⟩, parts', sys', cores', slots'⟩ := g
  refine ⟨⟨hm'.trans hm, hs'.trans hs, hp'.trans hp⟩, parts'.trans parts, sys'.trans sys,
    fun d => ⟨(cores' d).1.trans (cores d).1, (cores' d).2.trans (cores d).2⟩, fun w hw => ?_⟩
  have same := slots w hw
  exact (slots' w fun j => by rw [same]; exact hw j).trans same

theorem State.goneAt_of_holds (h : holdsMailOf sender (s.box c b) = true) :
    s.goneAt sender c b = (s.setBox c b (withNotice sender b (s.box c b))).wakeGone sender c b := if_pos h

theorem State.goneAt_units : (s.goneAt sender c b).net = s.net ∧ (∀ d, d ≠ c → (s.goneAt sender c b).core d = s.core d) ∧
    s.Learned (s.goneAt sender c b) := by
  rw [State.goneAt]
  split
  · obtain ⟨-, net, mem, stags, poison, parts, sys⟩ := (s.setBox c b (withNotice sender b (s.box c b))).wakeGone_frame sender c b
    have core := s.core_noticed sender c b (withNotice sender b (s.box c b))
    refine ⟨net, fun d hd => (core d).trans (if_neg hd),
      ⟨mem, stags, poison⟩, parts,
      sys, fun d => ?_, fun w hw => State.slot_wakeGone_of_not_awaits _ sender c b (hw b)⟩
    rw [core d]
    split
    · next h => exact h ▸ ⟨rfl, rfl⟩
    · exact ⟨rfl, rfl⟩
  · exact ⟨rfl, fun _ _ => rfl, .refl s⟩

theorem State.box_goneAt (k : Nat) : (s.goneAt sender c b).box c k = if k = b then noted sender b (s.box c k) else s.box c k := by
  rw [State.goneAt]
  split
  · next holds =>
    rw [State.box, State.core_noticed, if_pos rfl, mapGet_mapPut]
    split
    · next h => rw [h, noted, if_pos holds]
    · rfl
  · next holds =>
    split
    · next h => rw [h, noted, if_neg holds]
    · rfl

/-- A slot parked in no RECV on a box that takes a notice is as before. -/
theorem State.slot_goneAt_of_not_awaits {w : Who} (h : holdsMailOf sender (s.box c b) = true → ¬ (s.slot w).awaits b) :
    (s.goneAt sender c b).slot w = s.slot w := by
  rw [State.goneAt]
  split
  · next holds => exact State.slot_wakeGone_of_not_awaits _ sender c b (h holds)
  · rfl

end

end Sys2Proof.Machine
end

section
/-! PROOFS.  CONTEXT_GONE at one core, and at every core (R344, R382, R385). -/

namespace Sys2Proof.Machine

/-! ### One core (R382) -/

section
variable (s : State) (sender : Word) (c : Nat)

/-- The messages in flight after a core has discarded the gone context's that stand there. -/
def State.discarded (s : State) (sender : Word) (c : Nat) : State :=
  { s with net := s.net.filter (fun m => !(m.parkedOf sender && decide (m.parkedCore = c))) }

/-- The notices in the boxes of a core, one after another. -/
def State.noticeBoxes (s : State) (sender : Word) (c : Nat) (l : SMap (List Mail)) : State :=
  l.foldl (fun s q => s.goneAt sender c q.1) s

theorem State.noticeBoxes_cons (q : Nat × List Mail) (l : SMap (List Mail)) :
    s.noticeBoxes sender c (q :: l) = (s.goneAt sender c q.1).noticeBoxes sender c l := rfl

theorem State.noticeBoxes_units (l : SMap (List Mail)) : (s.noticeBoxes sender c l).net = s.net ∧
    (∀ d, d ≠ c → (s.noticeBoxes sender c l).core d = s.core d) ∧ s.Learned (s.noticeBoxes sender c l) := by
  induction l generalizing s with
  | nil => exact ⟨rfl, fun _ _ => rfl, .refl s⟩
  | cons q l ih =>
    obtain ⟨net, core, learned⟩ := s.goneAt_units sender c q.1
    obtain ⟨net', core', learned'⟩ := ih (s.goneAt sender c q.1)
    exact ⟨net'.trans net, fun d hd => (core' d hd).trans (core d hd), learned.trans learned'⟩

theorem State.goneCore_units : (s.goneCore sender c).net = s.net.filter (fun m => !(m.parkedOf sender && decide (m.parkedCore = c))) ∧
    (∀ d, d ≠ c → (s.goneCore sender c).core d = s.core d) ∧ s.Learned (s.goneCore sender c) := by
  obtain ⟨net, core, ⟨memory, parts, sys, cores, slots⟩⟩ := (s.discarded sender c).noticeBoxes_units sender c (s.core c).boxes
  exact ⟨net, core, memory, parts, sys, cores, slots⟩

theorem mapGet_of_unlisted {α : Type} {m : SMap α} {d : α} {k : Nat} (h : k ∉ m.map (fun p => p.1)) : mapGet m d k = d := by
  induction m with
  | nil => rfl
  | cons p m ih =>
    rw [List.map_cons, List.mem_cons, not_or] at h
    rw [mapGet, if_neg fun e => h.1 e.symm]
    exact ih h.2

theorem State.box_of_unlisted {b : Nat} (h : b ∉ (s.core c).boxes.map (fun q => q.1)) : s.box c b = [] := by
  rw [State.box]
  exact mapGet_of_unlisted h

/-- Each box of the core with its notice (R382). -/
theorem State.box_goneCore (hn : ((s.core c).boxes.map (fun q => q.1)).Nodup) (b : Nat) :
    (s.goneCore sender c).box c b = noted sender b (s.box c b) := by
  obtain ⟨listed, rest⟩ := foldl_obs (f := fun (t : State) (q : Nat × List Mail) => t.goneAt sender c q.1)
    (obs := fun t k => t.box c k) (key := fun q => q.1) (upd := fun q l => noted sender q.1 l) (fun t q k => t.box_goneAt sender c q.1 k) (s.core c).boxes (s.discarded sender c) hn
  by_cases key : b ∈ (s.core c).boxes.map (fun q => q.1)
  · obtain ⟨q, hq, rfl⟩ := List.mem_map.mp key
    exact listed q hq
  · rw [s.box_of_unlisted c key]
    exact (rest b key).trans (s.box_of_unlisted c key)

theorem State.holdsMailOf_goneAt (b k : Nat) : holdsMailOf sender ((s.goneAt sender c b).box c k) = holdsMailOf sender (s.box c k) := by
  rw [State.box_goneAt]
  split
  · exact holdsMailOf_noted ..
  · rfl

variable {s} in
theorem State.slot_noticeBoxes_of_not_awaits {w : Who} {l : SMap (List Mail)}
    (h : ∀ q ∈ l, holdsMailOf sender (s.box c q.1) = true → ¬ (s.slot w).awaits q.1) : (s.noticeBoxes sender c l).slot w = s.slot w := by
  induction l generalizing s with
  | nil => rfl
  | cons q l ih =>
    have same := s.slot_goneAt_of_not_awaits sender c q.1 (h q List.mem_cons_self)
    refine (ih (s := s.goneAt sender c q.1) fun p hp holds => ?_).trans same
    rw [State.holdsMailOf_goneAt] at holds
    rw [same]
    exact h p (List.mem_cons_of_mem _ hp) holds

/-- A thread of the core, parked in a RECV on a box that takes a notice and on no other such box. -/
structure State.Noticed (s : State) (sender : Word) (c b k : Nat) (mask : BitVec 16) (rd : BitVec 5) (ticket : Nat) : Prop where
  place : k < slotCount c
  occ : (s.slot ⟨c, k⟩).occ = true
  park : (s.slot ⟨c, k⟩).park = .recv mask rd ticket
  names : mask.getLsbD b = true
  holds : holdsMailOf sender (s.box c b) = true
  alone : ∀ j, j ≠ b → mask.getLsbD j = true → holdsMailOf sender (s.box c j) = false

section
variable {s} {b k ticket : Nat} {mask : BitVec 16} {rd : BitVec 5}

theorem State.slot_goneAt_of_noticed (h : s.Noticed sender c b k mask rd ticket) :
    (s.goneAt sender c b).slot ⟨c, k⟩ = (s.slot ⟨c, k⟩).takeMail rd (noticeIn sender b) := by
  rw [State.goneAt_of_holds _ _ _ _ h.holds]
  refine ((State.slot_wakeGone _ sender c b).1 k ?_).trans (Slot.noticed_of_awaits h.park h.names sender)
  exact List.mem_filter.mpr ⟨List.mem_range.mpr h.place, h.occ⟩

/-- The notice in another box leaves the thread parked. -/
theorem State.Noticed.goneAt {j : Nat} (h : s.Noticed sender c b k mask rd ticket) (hj : j ≠ b) :
    (s.goneAt sender c j).slot ⟨c, k⟩ = s.slot ⟨c, k⟩ ∧ (s.goneAt sender c j).Noticed sender c b k mask rd ticket := by
  have same : (s.goneAt sender c j).slot ⟨c, k⟩ = s.slot ⟨c, k⟩ := s.slot_goneAt_of_not_awaits sender c j fun holds awaits => by
    obtain ⟨mask', rd', ticket', park, names⟩ := awaits
    rw [h.park, Park.recv.injEq] at park
    obtain ⟨rfl, -, -⟩ := park
    rw [h.alone j hj names] at holds
    exact Bool.noConfusion holds
  refine ⟨same, h.place, same ▸ h.occ, same ▸ h.park, h.names, ?_, fun i hi names => ?_⟩
  · rw [State.holdsMailOf_goneAt]
    exact h.holds
  · rw [State.holdsMailOf_goneAt]
    exact h.alone i hi names

theorem State.slot_noticeBoxes_of_noticed {l : SMap (List Mail)} (h : s.Noticed sender c b k mask rd ticket)
    (hb : b ∈ l.map (fun q => q.1)) :
    (s.noticeBoxes sender c l).slot ⟨c, k⟩ = (s.slot ⟨c, k⟩).takeMail rd (noticeIn sender b) := by
  induction l generalizing s with
  | nil => exact absurd hb List.not_mem_nil
  | cons q l ih =>
    by_cases here : q.1 = b
    · have woken : (s.goneAt sender c q.1).slot ⟨c, k⟩ = _ := here ▸ State.slot_goneAt_of_noticed sender c h
      have ready : ((s.goneAt sender c q.1).slot ⟨c, k⟩).park = .ready := by
        rw [woken]
        exact Slot.takeMail_park ..
      rw [State.noticeBoxes_cons, State.slot_noticeBoxes_of_not_awaits sender c fun p _ _ => Slot.not_awaits_of_ready ready p.1, woken, here]
    · obtain ⟨same, noticed⟩ := State.Noticed.goneAt sender c h here
      have later : b ∈ l.map (fun q => q.1) := (List.mem_cons.mp hb).resolve_left fun e => here e.symm
      exact (ih noticed later).trans (by rw [same])

theorem State.slot_goneCore_of_noticed (h : s.Noticed sender c b k mask rd ticket) :
    (s.goneCore sender c).slot ⟨c, k⟩ = (s.slot ⟨c, k⟩).takeMail rd (noticeIn sender b) := by
  refine State.slot_noticeBoxes_of_noticed (s := s.discarded sender c) sender c ⟨h.place, h.occ, h.park, h.names, h.holds, h.alone⟩ ?_
  by_contra unlisted
  have empty := s.box_of_unlisted c unlisted
  exact Bool.noConfusion ((congrArg (holdsMailOf sender) empty).symm.trans h.holds)

end

theorem slotCount_le (c : Nat) : slotCount c ≤ 8 := by
  rw [slotCount]
  split
  · decide
  · exact le_refl 8

/-- The slots of another core. -/
theorem State.slot_goneAt_other (b : Nat) {d k : Nat} (hd : d ≠ c) (hk : k < slotCount d) :
    (s.goneAt sender c b).slot ⟨d, k⟩ = s.slot ⟨d, k⟩ := by
  rw [State.goneAt]
  split
  · refine (State.slot_wakeGone _ sender c b).2 ⟨d, k⟩ fun j hj key => hd ?_
    have hj' := List.mem_range.mp (List.mem_filter.mp hj).1
    have hc := slotCount_le c
    have hd' := slotCount_le d
    simp only [slotKey] at key
    omega
  · rfl

theorem State.slot_goneCore_other {d k : Nat} (hd : d ≠ c) (hk : k < slotCount d) :
    (s.goneCore sender c).slot ⟨d, k⟩ = s.slot ⟨d, k⟩ :=
  foldl_keeps (f := fun (t : State) (q : Nat × List Mail) => t.goneAt sender c q.1) (φ := fun t : State => t.slot ⟨d, k⟩)
    (fun t q => t.slot_goneAt_other sender c q.1 hd hk) (s.core c).boxes (s.discarded sender c)

end

/-! ### Every core (R344, R382) -/

section
variable {s : State} {sender : Word}

theorem State.msg?_eq_some (hn : (s.net.map (fun q => q.id)).Nodup) {m : Msg} (h : m ∈ s.net) : s.msg? m.id = some m := by
  obtain ⟨q, found⟩ := Option.isSome_iff_exists.mp (List.find?_isSome.mpr ⟨m, h, beq_self_eq_true m.id⟩ : (s.msg? m.id).isSome)
  have same := List.inj_on_of_nodup_map hn (List.mem_of_find?_eq_some found) h (State.msg?_id found)
  exact same ▸ found

/-- A core that hears goes on to do so when messages leave the net. -/
theorem State.hears_of_fewer {t : State} {d : Nat} {keep : Msg → Bool} (h : s.hears d = true) (hn : (s.net.map (fun q => q.id)).Nodup)
    (learned : s.Learned t) (net : t.net = s.net.filter keep) : t.hears d = true := by
  obtain ⟨-, parts, sys, cores, -⟩ := learned
  rw [State.hears, Bool.and_eq_true, Bool.not_eq_true', List.any_eq_false] at h ⊢
  obtain ⟨runs, free⟩ := h
  refine ⟨(State.coreRuns_of_eq parts sys (cores d).1).trans runs, fun id hid holds => ?_⟩
  rw [(cores d).2] at hid
  rw [State.holdsFor] at holds
  split at holds
  · next m found =>
    have there : m ∈ s.net := List.mem_of_mem_filter (net ▸ List.mem_of_find?_eq_some found)
    have before := State.msg?_eq_some hn there
    rw [State.msg?_id found] at before
    refine free id hid ?_
    rw [State.holdsFor, before]
    exact holds
  · exact Bool.noConfusion holds

/-- What CONTEXT_GONE does at the cores of a list, where all of them hear it. -/
def State.goneCores (s : State) (sender : Word) (cs : List Nat) : State := cs.foldl (fun s c => s.goneCore sender c) s

theorem State.tell_gone_of_hears (hn : (s.net.map (fun q => q.id)).Nodup) (hh : ∀ c, s.hears c = true) (cs : List Nat) :
    cs.foldl (fun s c => s.tell ⟨c, 0⟩ (.gone sender)) s = s.goneCores sender cs := by
  induction cs generalizing s with
  | nil => rfl
  | cons c cs ih =>
    obtain ⟨net, -, learned⟩ := s.goneCore_units sender c
    have told : s.tell ⟨c, 0⟩ (.gone sender) = s.goneCore sender c := if_pos (hh c)
    rw [List.foldl_cons, told]
    refine ih ?_ fun d => State.hears_of_fewer (hh d) hn learned net
    rw [net]
    exact hn.sublist (List.filter_sublist.map _)

theorem State.goneCores_units (cs : List Nat) :
    (s.goneCores sender cs).net = s.net.filter (fun m => !(m.parkedOf sender && decide (m.parkedCore ∈ cs))) ∧
      (∀ d, d ∉ cs → (s.goneCores sender cs).core d = s.core d) ∧ s.Learned (s.goneCores sender cs) := by
  induction cs generalizing s with
  | nil => exact ⟨by simp [State.goneCores], fun _ _ => rfl, .refl s⟩
  | cons c cs ih =>
    obtain ⟨net, core, learned⟩ := s.goneCore_units sender c
    obtain ⟨net', core', learned'⟩ := ih (s := s.goneCore sender c)
    refine ⟨net'.trans ?_, fun d hd => ?_, learned.trans learned'⟩
    · rw [net, List.filter_filter]
      refine congrArg (fun keep => s.net.filter keep) (funext fun m => ?_)
      simp only [List.mem_cons, Bool.decide_or]
      cases m.parkedOf sender
      · rfl
      · simp [Bool.and_comm]
    · rw [List.mem_cons, not_or] at hd
      exact (core' d hd.2).trans (core d hd.1)

theorem State.box_of_core {t : State} {c : Nat} (h : t.core c = s.core c) (b : Nat) : t.box c b = s.box c b := by
  rw [State.box, State.box, h]

theorem State.slot_goneCores_other {cs : List Nat} {c k : Nat} (hc : c ∉ cs) (hk : k < slotCount c) :
    (s.goneCores sender cs).slot ⟨c, k⟩ = s.slot ⟨c, k⟩ := by
  induction cs generalizing s with
  | nil => rfl
  | cons d cs ih =>
    rw [List.mem_cons, not_or] at hc
    exact (ih (s := s.goneCore sender d) hc.2).trans (s.slot_goneCore_other sender d hc.1 hk)

/-- Among cores without repetition, one core is reached once, in the state of its own before. -/
theorem State.goneCores_split {cs : List Nat} {c : Nat} (hc : c ∈ cs) (hn : cs.Nodup) : ∃ before after,
    c ∉ before ∧ c ∉ after ∧ s.goneCores sender cs = ((s.goneCores sender before).goneCore sender c).goneCores sender after := by
  obtain ⟨before, after, rfl⟩ := List.append_of_mem hc
  rw [List.nodup_append] at hn
  obtain ⟨-, hn, apart⟩ := hn
  exact ⟨before, after, fun h => apart c h c List.mem_cons_self rfl, (List.nodup_cons.mp hn).1, List.foldl_append⟩

/-- Each box of each core with its notice (R382). -/
theorem State.box_goneCores {cs : List Nat} {c : Nat} (hc : c ∈ cs) (hn : cs.Nodup)
    (keys : ((s.core c).boxes.map (fun q => q.1)).Nodup) (b : Nat) :
    (s.goneCores sender cs).box c b = noted sender b (s.box c b) := by
  obtain ⟨before, after, first, last, split⟩ := State.goneCores_split (s := s) (sender := sender) hc hn
  have same := (State.goneCores_units (s := s) (sender := sender) before).2.1 c first
  have kept := (State.goneCores_units (s := (s.goneCores sender before).goneCore sender c) (sender := sender) after).2.1 c last
  rw [split, State.box_of_core kept, State.box_goneCore _ _ _ (by rw [same]; exact keys), State.box_of_core same]

/-- Each RECV on one box that takes a notice wakes (R382). -/
theorem State.slot_goneCores_of_noticed {cs : List Nat} {c b k ticket : Nat} {mask : BitVec 16} {rd : BitVec 5} (hc : c ∈ cs)
    (hn : cs.Nodup) (h : s.Noticed sender c b k mask rd ticket) :
    (s.goneCores sender cs).slot ⟨c, k⟩ = (s.slot ⟨c, k⟩).takeMail rd (noticeIn sender b) := by
  obtain ⟨before, after, first, last, split⟩ := State.goneCores_split (s := s) (sender := sender) hc hn
  have same := (State.goneCores_units (s := s) (sender := sender) before).2.1 c first
  have parked := State.slot_goneCores_other (s := s) (sender := sender) first h.place
  have box := State.box_of_core same
  have noticed : (s.goneCores sender before).Noticed sender c b k mask rd ticket :=
    ⟨h.place, parked ▸ h.occ, parked ▸ h.park, h.names, by rw [box]; exact h.holds, fun j hj names => by rw [box]; exact h.alone j hj names⟩
  rw [split, State.slot_goneCores_other last h.place, State.slot_goneCore_of_noticed sender c noticed, parked]

/-! ### A stopped core (R344, R385) -/

/-- What a core that is told leaves of a stopped one, and of the messages that are not parked for the context. -/
theorem State.tell_gone_stopped {c : Nat} (d : Nat) (hr : s.coreRuns c = false) :
    (s.tell ⟨d, 0⟩ (.gone sender)).coreRuns c = false ∧ (s.tell ⟨d, 0⟩ (.gone sender)).core c = s.core c ∧
      ∀ q ∈ s.net, q.parkedOf sender = false → q ∈ (s.tell ⟨d, 0⟩ (.gone sender)).net := by
  rw [State.tell]
  split
  · next hears =>
    have other : c ≠ d := fun same => by
      rw [State.hears, ← same, hr] at hears
      exact Bool.noConfusion hears
    obtain ⟨net, core, ⟨-, parts, sys, cores, -⟩⟩ := s.goneCore_units sender d
    refine ⟨(State.coreRuns_of_eq parts sys (cores c).1).trans hr, core c other, fun q hq free => ?_⟩
    change q ∈ (s.goneCore sender d).net
    rw [net]
    exact List.mem_filter.mpr ⟨hq, by rw [free]; rfl⟩
  · exact ⟨hr, rfl, fun q hq _ => List.mem_append_left _ hq⟩

theorem State.tell_gone_stopped_all {c : Nat} (hr : s.coreRuns c = false) (cs : List Nat) :
    (cs.foldl (fun s c => s.tell ⟨c, 0⟩ (.gone sender)) s).core c = s.core c ∧
      ∀ q ∈ s.net, q.parkedOf sender = false → q ∈ (cs.foldl (fun s c => s.tell ⟨c, 0⟩ (.gone sender)) s).net := by
  induction cs generalizing s with
  | nil => exact ⟨rfl, fun _ hq _ => hq⟩
  | cons d cs ih =>
    obtain ⟨runs, core, net⟩ := State.tell_gone_stopped (sender := sender) d hr
    obtain ⟨core', net'⟩ := ih (s := s.tell ⟨d, 0⟩ (.gone sender)) runs
    exact ⟨core'.trans core, fun q hq free => net' q (net q hq free) free⟩

/-- A stopped core has its answer under way (R344, R385). -/
theorem State.answer_of_stopped {c : Nat} (hr : s.coreRuns c = false) {cs : List Nat} (hc : c ∈ cs) :
    ∃ q ∈ (cs.foldl (fun s c => s.tell ⟨c, 0⟩ (.gone sender)) s).net, q.body = .answer ⟨c, 0⟩ (.gone sender) := by
  induction cs generalizing s with
  | nil => exact absurd hc List.not_mem_nil
  | cons d cs ih =>
    obtain ⟨runs, -, -⟩ := State.tell_gone_stopped (sender := sender) d hr
    rcases List.mem_cons.mp hc with rfl | later
    · have deaf : s.hears c = false := by
        rw [State.hears, hr]
        rfl
      have sent : s.tell ⟨c, 0⟩ (.gone sender) = s.send ⟨c, 0⟩ 0 (.answer ⟨c, 0⟩ (.gone sender)) := if_neg (Bool.eq_false_iff.mp deaf)
      obtain ⟨-, net⟩ := State.tell_gone_stopped_all (sender := sender) runs cs
      exact ⟨_, net _ (by rw [sent]; exact List.mem_append_right _ List.mem_cons_self) rfl, rfl⟩
    · exact ih runs later

end

end Sys2Proof.Machine
end

section
/-! PROOFS.  O19: APPEND and APPENDT, and contexts that are gone (R57-R59, R231, R232, R344, R382). -/

namespace Sys2Proof.Machine

theorem mem_appends {i : Instr} {d a b : BitVec 5} (h : i ∈ [Instr.append d a b, .appendt d a b]) {s : State} :
    ∃ try_, exec i s = .next (s.appendRing d a b try_) := by
  simp only [List.mem_cons, List.not_mem_nil, or_false] at h
  rcases h with rfl | rfl
  · exact ⟨false, rfl⟩
  · exact ⟨true, rfl⟩

/-- The bytes that the record of an issued APPEND leaves (R58, R59). -/
theorem State.appended_issued (s : State) (d : BitVec 5) (ring n : Nat) (try_ : Bool) (hc : ¬ 65536 ≤ s.cur.core) (hn : n ≤ 8) :
    let t := (s.issued d (s.appendMsg d ring n try_).body).appended s.cur ring (s.payload n)
    let at_ := rawKey ring + 64 + s.ringPos ring
    (∀ j, (j < rawKey ring + 4 ∨ rawKey ring + 8 ≤ j) → (j < at_ ∨ at_ + (8 + 8 * n) ≤ j) → t.byte j = s.byte j) ∧
      t.nat (rawKey ring + 4) 4 = (s.nat (rawKey ring + 4) 4 + (8 + 8 * n)) % 2 ^ 32 ∧
      t.nat at_ 8 = 8 + 8 * n + s.cur.core * 2 ^ 32 + s.cur.slot % 2 ^ 16 * 2 ^ 48 ∧
      ∀ j, j < n → t.nat (at_ + 8 + 8 * j) 8 = (s.g (BitVec.ofNat 5 (4 + j))).toNat := by
  intro t at_
  have length := s.length_payload n
  have tail := (s.issued d (s.appendMsg d ring n try_).body).tail_appended s.cur ring (s.payload n)
  have header := (s.issued d (s.appendMsg d ring n try_).body).header_appended s.cur ring (s.payload n) (Nat.lt_of_not_le hc)
    (by rw [length]; exact hn)
  rw [length] at tail header
  refine ⟨fun j h h' => ?_, tail, header, fun j hj => ?_⟩
  · exact (s.issued d (s.appendMsg d ring n try_).body).byte_appended_outside s.cur ring (s.payload n) h (by rw [length]; exact h')
  · have word := (s.issued d (s.appendMsg d ring n try_).body).word_appended s.cur ring (s.payload n) (j := j) (by rw [length]; exact hj)
    exact word.trans (by simp [State.payload])

/-- APPEND and APPENDT in the super-group (R231). -/
theorem State.appends (s : State) (d a b : BitVec 5) :
    let ring := (s.g a).toNat
    let o := ring % 2 ^ 20
    let c := ring / 2 ^ 20
    let key := spadKey c o
    let n := (s.g b).toNat
    let rec_ := 8 + 8 * n
    let head := s.nat key 4
    let tail := s.nat (key + 4) 4
    let size := s.nat (key + 8) 4
    let pos := tail % size
    let used := (tail + 2 ^ 32 - head) % 2 ^ 32
    let hears := (s.drop s.nextId).hears s.cur.core = true
    ring % 64 = 0 → ring < 2 ^ 36 → o < 0x1C000 → s.inPart s.me.part c = true → s.me.relaxed = [] → isLarge s.cur.core = false →
    (n = 0 ∨ 8 < n ∧ n < 16 → ∀ i ∈ [Instr.append d a b, .appendt d a b], s.ComputesG i d 4) ∧
    (1 ≤ n → n ≤ 8 → sgOf c = sgOf s.cur.core → s.coreRuns c = true → s.anyPoison key 16 = false →
      let valid := s.nat (key + 12) 4 % 2 = 1 ∧ 256 ≤ size ∧ size ≤ 65536 ∧ 2 ^ Nat.log2 size = size ∧ used ≤ size
      (valid → s.ringParked ring = false → pos + rec_ ≤ size → rec_ ≤ size - used → s.ringCause c (o + 64 + pos) rec_ = none →
        s.ringCause c (o + 4) 4 = none → hears →
        ∀ i ∈ [Instr.append d a b, .appendt d a b], ∃ t, exec i s = .next t ∧ t.me.pc = s.me.pc + 4 ∧ s.me.WroteG t.me d 0 ∧
          t.nat (key + 4) 4 = (tail + rec_) % 2 ^ 32 ∧
          t.nat (key + 64 + pos) 8 = rec_ + s.cur.core * 2 ^ 32 + s.cur.slot % 2 ^ 16 * 2 ^ 48 ∧
          (∀ j, j < n → t.nat (key + 64 + pos + 8 + 8 * j) 8 = (s.g (BitVec.ofNat 5 (4 + j))).toNat) ∧
          (∀ j, (j < key + 4 ∨ key + 8 ≤ j) → (j < key + 64 + pos ∨ key + 64 + pos + rec_ ≤ j) → t.byte j = s.byte j) ∧
          s.OtherSlots t s.cur) ∧
      (¬ valid → hears → ∀ i ∈ [Instr.append d a b, .appendt d a b], ∃ t, exec i s = .next t ∧ t.me.pc = s.me.pc + 4 ∧ s.me.WroteG t.me d 2 ∧
        s.SameMemory t ∧ s.OtherSlots t s.cur) ∧
      (valid → pos + rec_ ≤ size → size - used < rec_ →
        (hears → ∃ t, exec (.appendt d a b) s = .next t ∧ t.me.pc = s.me.pc + 4 ∧ s.me.WroteG t.me d 1 ∧ s.SameMemory t ∧ s.OtherSlots t s.cur) ∧
        (∃ t m, exec (.append d a b) s = .next t ∧ t.me.pc = s.me.pc ∧ t.me.park = .reply m.id ∧
          t.net = s.net.filter (fun q => q.id != s.nextId) ++ [m] ∧ m.body = .append ring ((List.range n).map (fun j => s.g (BitVec.ofNat 5 (4 + j)))) false true false s.me.launch ∧
          s.SameMemory t ∧ s.OtherSlots t s.cur))) := by
  intro ring o c key n rec_ head tail size pos used hears aligned raw user part relaxed small
  have home : c = homeOf ring := (homeOf_of_lt raw).symm
  clear_value c
  subst home
  have names : s.NamesRing (s.g a).toNat := ⟨aligned, raw, user, part, relaxed, small⟩
  refine ⟨fun hn i hi => ?_, fun h1 h8 near runs clean => ?_⟩
  · obtain ⟨try_, run⟩ := mem_appends hi (s := s)
    exact State.computesG_of_result (run.trans (congrArg _ (State.appendRing_of_bad names hn)))
  have appends : s.AppendsNear a b := ⟨names, h1, h8, near, runs, clean⟩
  intro valid
  refine ⟨fun hv parked fits room record tailFree hh i hi => ?_, fun hv hh i hi => ?_, fun hv fits full => ⟨fun hh => ?_, ?_⟩⟩
  · obtain ⟨try_, run⟩ := mem_appends hi (s := s)
    have step_ := appends.room (try_ := try_) (d := d) hv parked fits room record tailFree
    obtain ⟨⟨pc, wrote, others⟩, memory⟩ := appends.heard hh (congrArg Prod.snd step_) (.inl (by decide))
    rw [step_] at memory
    obtain ⟨byte, tailMoved, header, word⟩ := s.appended_issued d (s.g a).toNat n try_ (of_decide_eq_false small) h8
    have read (k m : Nat) : (s.appendRing d a b try_).nat k m = _ := State.nat_of_bytes fun j _ => memory.1 (k + j)
    refine ⟨_, run, pc, wrote, (read _ _).trans tailMoved, (read _ _).trans header, fun j hj => (read _ _).trans (word j hj),
      fun j h h' => (memory.1 j).trans (byte j h h'), others⟩
  · obtain ⟨try_, run⟩ := mem_appends hi (s := s)
    have step_ := appends.invalid (try_ := try_) (d := d) hv
    obtain ⟨⟨pc, wrote, others⟩, memory⟩ := appends.heard hh (congrArg Prod.snd step_) (.inl (by decide))
    rw [step_] at memory
    exact ⟨_, run, pc, wrote, State.SameMemory.trans (.of_eq rfl rfl rfl) memory, others⟩
  · have step_ := appends.full (try_ := true) (d := d) hv fits full
    obtain ⟨⟨pc, wrote, others⟩, memory⟩ := appends.heard hh (congrArg Prod.snd step_) (.inr rfl)
    rw [step_] at memory
    exact ⟨_, rfl, pc, wrote, State.SameMemory.trans (.of_eq rfl rfl rfl) memory, others⟩
  · exact appends.parks (appends.full hv fits full)

/-- What a step at a ring that answers an APPEND with a status leaves (R231). -/
def State.Answered (s t : State) (m : Msg) (r : State × RingAnswer) (v : Nat) : Prop := r.2 = .status v →
  (∀ k, t.byte k = r.1.byte k) ∧ (s.slot m.src).WroteG (t.slot m.src) m.rd (dbl v) ∧ (t.slot m.src).pc = (s.slot m.src).pc + 4 ∧
    (t.slot m.src).park = .ready ∧ s.OtherSlots t m.src

theorem State.WokenBy.answered {s t : State} {m : Msg} {r : State × RingAnswer} {v : Nat} (h : s.WokenBy r.1 t m v) : s.Answered t m r v :=
  fun _ => ⟨h.memory.1, h.wrote, h.pc, h.park, h.others⟩

/-- An APPEND at its ring's core (R231, R232). -/
theorem State.arrives {s : State} {id ring launch : Nat} {m : Msg} {p : List Word} {try_ : Bool} (hm : s.msg? id = some m)
    (ha : s.mayAct (homeOf ring) id = true) (ho : s.inOrder m = true) (hp : (s.slot m.src).park = .reply id)
    (hh : (s.drop id).hears m.src.core = true) (hb : m.body = .append ring p try_ false false launch) :
    ∃ t, exec (.appendAtRing id) s = .next t ∧
      (∀ v, (v ≠ 1 ∨ try_ = true) → s.Answered t m (s.ringStep m.src ring p (s.ringParked ring)) v) ∧
      ((s.ringStep m.src ring p (s.ringParked ring)).2 = .status 1 → try_ = false →
        s.SameSlots t ∧ t.net = s.net.filter (fun q => q.id != id) ++ [{ m with body := .append ring p false true false launch }]) := by
  obtain rfl := State.msg?_id hm
  refine ⟨_, exec_appendAtRing_of_waiting hm ha ho hb, fun v hv status => ?_, fun full isAppend => ?_⟩
  · exact (State.wokenBy_of_arrival hh hp status hv).answered status
  · have units := (s.onlyMemory_ringStep (w := m.src) (ring := ring) (payload := p) (held := s.ringParked ring)).units
    rw [isAppend, State.ringArrival_of_full full]
    exact ⟨fun w => State.slot_of_slots units.slots w, congrArg (fun l => l.filter (fun q => q.id != m.id) ++ _) units.net⟩

/-- A parked APPEND that its ring's head word, written, lets through (R232). -/
theorem State.retried {s : State} {ring launch : Nat} {m : Msg} {p : List Word} {try_ : Bool} (alone : s.net = [m])
    (hr : s.coreRuns (homeOf ring) = true) (hh : (s.drop m.id).hears m.src.core = true) (hp : (s.slot m.src).park = .reply m.id)
    (hb : m.body = .append ring p try_ true true launch) :
    ∃ t, exec (.appendRetry ring) s = .next t ∧ ∀ v, v ≠ 1 → s.Answered t m (s.ringStep m.src ring p false) v ∧
      ((s.ringStep m.src ring p false).2 = .status v → t.net = []) := by
  obtain ⟨t, run, mem, slots, net⟩ := exec_appendRetry hr
  have woken {v : Nat} (hv : v ≠ 1) (status : (s.ringStep m.src ring p false).2 = .status v) :
      s.WokenBy (s.ringStep m.src ring p false).1 (s.retryRing ring s.net) m v := by
    rw [alone, State.retryRing_of_status hb status hv]
    exact State.wokenBy_of_ringReply State.onlyMemory_ringStep hh hp
  refine ⟨t, run, fun v hv => ⟨fun status => ?_, fun status => net ?_⟩⟩
  · obtain ⟨memory, wrote, pc, park, others, -, -⟩ := woken hv status
    have slot (w : Who) : t.slot w = (s.retryRing ring s.net).slot w := State.slot_of_slots slots w
    refine ⟨fun k => (State.byte_of_mem mem k).trans (memory.1 k), ?_, ?_, ?_, fun w hw => (slot w).trans (others w hw)⟩
    · rw [slot]
      exact wrote
    · rw [slot]
      exact pc
    · rw [slot]
      exact park
  · rw [(woken hv status).net, alone]
    simp

theorem nodup_eraseDups (l : List Nat) : l.eraseDups.Nodup := by
  induction n : l.length using Nat.strong_induction_on generalizing l with
  | h n ih =>
    cases l with
    | nil => exact List.nodup_nil
    | cons a l =>
      have shorter := List.length_filter_le (fun b => !b == a) l
      rw [List.length_cons] at n
      rw [List.eraseDups_cons, List.nodup_cons, List.mem_eraseDups]
      exact ⟨fun again => by simp at again, ih _ (by omega) _ rfl⟩

/-- The cores that a gone context is announced to: those of the part, and those where messages of it are parked. -/
def State.tellCores (s : State) (sender : Word) : List Nat :=
  (s.cores.map (fun p => p.1) ++ (s.net.filter (fun m => m.parkedOf sender)).map Msg.parkedCore).eraseDups

theorem exec_contextGone {s : State} {sender : Word} (h : destPeer sender ≠ 0) : exec (.contextGone sender) s =
    .next (let t := (s.tellCores sender).foldl (fun s c => s.tell ⟨c, 0⟩ (.gone sender)) s
      t.setSys { t.sys with gone := t.sys.gone ++ [sender] }) :=
  congrArg Host.Outcome.next (if_neg h)

theorem State.mem_tellCores {s : State} {sender : Word} {c : Nat} : c ∈ s.tellCores sender ↔
    c ∈ s.cores.map (fun p => p.1) ∨ c ∈ (s.net.filter (fun m => m.parkedOf sender)).map Msg.parkedCore := by
  rw [State.tellCores, List.mem_eraseDups, List.mem_append]

/-- A stopped core hears of a gone context later (R344, R385). -/
theorem State.gone_of_stopped {s : State} {sender : Word} (h : destPeer sender ≠ 0) {c : Nat} (hr : s.coreRuns c = false)
    (hc : c ∈ s.cores.map (fun q => q.1)) :
    ∃ t q, exec (.contextGone sender) s = .next t ∧ q ∈ t.net ∧ q.body = .answer ⟨c, 0⟩ (.gone sender) ∧ t.core c = s.core c := by
  obtain ⟨q, under, body⟩ := State.answer_of_stopped (sender := sender) hr (State.mem_tellCores.mpr (.inl hc))
  exact ⟨_, q, exec_contextGone h, under, body, (State.tell_gone_stopped_all hr _).1⟩

section
variable {s : State}

/-- A core that holds a mailbox with something in it is among those of the part. -/
theorem State.core_listed {c b : Nat} (h : s.box c b ≠ []) : c ∈ s.cores.map (fun q => q.1) := by
  by_contra unlisted
  have reset : s.core c = Core.reset := mapGet_of_unlisted unlisted
  exact h (by rw [State.box, reset]; rfl)

/-- Boxes listed once in the whole part are listed once in each core. -/
theorem State.nodup_boxes (h : (s.cores.flatMap (fun p => p.2.boxes.map (fun q => (p.1, q.1)))).Nodup) (c : Nat) :
    ((s.core c).boxes.map (fun q => q.1)).Nodup := by
  have reset : (mapKeys Core.reset.boxes).Nodup := List.nodup_nil
  refine mapGet_of_mem (P := fun k : Core => (mapKeys k.boxes).Nodup) reset (fun p hp => ?_) c
  have own := (List.nodup_flatMap.mp h).1 p hp
  have pairs : p.2.boxes.map (fun q => (p.1, q.1)) = (p.2.boxes.map (fun q => q.1)).map (Prod.mk p.1) := by
    rw [List.map_map]
    rfl
  rw [pairs] at own
  exact own.of_map

end

/-- Where every core hears of a gone context (R382). -/
theorem State.gone_of_hearing (s : State) (sender : Word) (h : destPeer sender ≠ 0)
    (boxes : (s.cores.flatMap (fun p => p.2.boxes.map (fun q => (p.1, q.1)))).Nodup) (ids : (s.net.map (fun q => q.id)).Nodup)
    (hh : ∀ c, s.hears c = true) :
    ∃ t, exec (.contextGone sender) s = .next t ∧ t.sys.gone = s.sys.gone ++ [sender] ∧ s.SameMemory t ∧
      t.net = s.net.filter (fun q => !q.parkedOf sender) ∧
      (∀ w, (∀ mask rd k, (s.slot w).park ≠ .recv mask rd k) → t.slot w = s.slot w) ∧
      (∀ c b, t.box c b = noted sender b (s.box c b)) ∧
      ∀ c b k mask rd tk, s.Noticed sender c b k mask rd tk → t.slot ⟨c, k⟩ = (s.slot ⟨c, k⟩).takeMail rd (noticeIn sender b) := by
  obtain ⟨net, -, ⟨⟨mem, stags, poison⟩, -, sys, -, slots⟩⟩ := State.goneCores_units (s := s) (sender := sender) (s.tellCores sender)
  have once : (s.tellCores sender).Nodup := nodup_eraseDups _
  have reached {c b : Nat} (some_ : s.box c b ≠ []) : c ∈ s.tellCores sender := State.mem_tellCores.mpr (.inl (State.core_listed some_))
  have run := exec_contextGone (s := s) h
  rw [State.tell_gone_of_hears ids hh] at run
  refine ⟨_, run, congrArg (fun x : Sys => x.gone ++ [sender]) sys, .of_eq mem stags poison, net.trans ?_, fun w hw => slots w ?_,
    fun c b => ?_, fun c b k mask rd tk noticed => State.slot_goneCores_of_noticed (reached (b := b) ?_) once noticed⟩
  · refine List.filter_congr fun m hm => ?_
    cases parked : m.parkedOf sender with
    | false => rfl
    | true =>
      have here : m.parkedCore ∈ s.tellCores sender :=
        State.mem_tellCores.mpr (.inr (List.mem_map_of_mem (List.mem_filter.mpr ⟨hm, parked⟩)))
      rw [decide_eq_true here]
      rfl
  · rintro j ⟨mask, rd, k, parked, -⟩
    exact hw mask rd k parked
  · change (s.goneCores sender (s.tellCores sender)).box c b = _
    by_cases hc : c ∈ s.tellCores sender
    · exact State.box_goneCores hc once (State.nodup_boxes boxes c) b
    · have empty : s.box c b = [] := by_contra fun some_ => hc (reached some_)
      rw [State.box_of_core ((State.goneCores_units (s.tellCores sender)).2.1 c hc), empty]
      rfl
  · intro empty
    exact Bool.noConfusion ((congrArg (holdsMailOf sender) empty).symm.trans noticed.holds)

/-- Settles O19: an APPEND makes one step at its ring, whose answer its thread hears, and CONTEXT_GONE reaches each core once. -/
theorem appending : Obligations.Appending := by
  unfold Obligations.Appending
  refine ⟨State.appends, ?_⟩
  intro s id ring launch m p try_ sender from_ step_
  refine ⟨fun hm ha ho hp hh hb => State.arrives hm ha ho hp hh hb, fun alone hr hh hp hb => State.retried alone hr hh hp hb,
    fun h c hr hc => State.gone_of_stopped h hr hc, fun h boxes ids hh => ?_⟩
  obtain ⟨t, run, gone, memory, net, slots, noticed, woken⟩ := s.gone_of_hearing sender h boxes ids hh
  refine ⟨t, run, gone, memory, net, slots, fun c b hb => ⟨fun holds => ?_, fun none_ => ?_⟩, ?_⟩
  · obtain ⟨before, x, after, whole, split, last, rest, isGone, payload, same⟩ := withNotice_split sender hb holds
    exact ⟨before, x, after, whole, (noticed c b).trans ((if_pos holds).trans split), last, rest, isGone, payload, same⟩
  · exact (noticed c b).trans (if_neg (Bool.eq_false_iff.mp none_))
  · intro c b k mask rd tk hb place occ park names holds alone
    rw [woken c b k mask rd tk ⟨place, occ, park, names, holds, alone⟩]
    exact ⟨Slot.tookMail_takeMail _ rd _, Slot.takeMail_park ..⟩

end Sys2Proof.Machine
end

section
/-! PROOFS.  O2: word forms, bit counts, products and quotients (R67, R189, R193). -/

namespace Sys2Proof.Machine

/-- An instruction that writes a register result, whatever form its value takes. -/
theorem State.computesG_of_eq {s : State} {i : Instr} {d : BitVec 5} {v w : Word} (run : exec i s = .next (s.result d v)) (value : v = w) :
    s.ComputesG i d w :=
  value ▸ State.computesG_of_result run

/-! ### Bit counts (R189) -/

/-- The bits of a double as a number. -/
theorem getLsbD_iff_div (a : Word) (k : Nat) : a.getLsbD k = true ↔ a.toNat / 2 ^ k % 2 = 1 := by
  rw [BitVec.getLsbD, Nat.testBit_eq_decide_div_mod_eq, decide_eq_true_iff]

theorem getLsbD_of_lt {a : Word} {k : Nat} (h : a.toNat < 2 ^ k) : a.getLsbD k = false :=
  Nat.testBit_lt_two_pow h

/-- CLZ by the bits of its source: the leading one stands below the zeros that are counted. -/
theorem clz64_spec (a : Word) :
    ∃ n, n ≤ 64 ∧ (∀ k, 64 - n ≤ k → a.getLsbD k = false) ∧ (n < 64 → a.getLsbD (63 - n) = true) ∧ clz64 a = BitVec.ofNat 64 n := by
  by_cases zero : a = 0
  · exact ⟨64, le_rfl, fun k _ => by simp [zero], fun h => absurd h (lt_irrefl _), if_pos zero⟩
  · have nonzero : a.toNat ≠ 0 := fun h => zero (BitVec.eq_of_toNat_eq h)
    have top : Nat.log2 a.toNat < 64 := (Nat.log2_lt nonzero).mpr a.isLt
    refine ⟨63 - Nat.log2 a.toNat, by omega, fun k hk => getLsbD_of_lt ?_, fun _ => ?_, if_neg zero⟩
    · exact Nat.lt_log2_self.trans_le (Nat.pow_le_pow_right (by decide) (by omega))
    · have place : 63 - (63 - Nat.log2 a.toNat) = Nat.log2 a.toNat := by omega
      rw [place]
      exact Nat.testBit_log2 nonzero

/-- The search of CTZ stops at the first one bit, or after its n bits. -/
theorem ctzGo_spec (a n k : Nat) : k ≤ ctzGo a n k ∧ ctzGo a n k ≤ k + n ∧ (∀ j, k ≤ j → j < ctzGo a n k → a / 2 ^ j % 2 ≠ 1) ∧
    (ctzGo a n k < k + n → a / 2 ^ ctzGo a n k % 2 = 1) := by
  induction n generalizing k with
  | zero => exact ⟨le_rfl, le_rfl, fun j h1 h2 => absurd h2 (Nat.not_lt.mpr h1), fun h => absurd h (lt_irrefl _)⟩
  | succ n ih =>
    rw [ctzGo]
    split
    · next one => exact ⟨le_rfl, Nat.le_add_right _ _, fun j h1 h2 => absurd h2 (Nat.not_lt.mpr h1), fun _ => one⟩
    · next zero =>
      obtain ⟨low, high, none_, first⟩ := ih (k + 1)
      refine ⟨by omega, by omega, fun j h1 h2 => ?_, fun h => first (by omega)⟩
      rcases Nat.eq_or_lt_of_le h1 with rfl | h
      · exact zero
      · exact none_ j h h2

/-- POPC counts the one bits among the low n. -/
theorem popcGo_eq (a : Word) (n : Nat) : popcGo a.toNat n = ((List.range n).filter (fun k => a.getLsbD k)).length := by
  induction n with
  | zero => rfl
  | succ n ih =>
    rw [popcGo, ih, List.range_succ, List.filter_append, List.length_append, Nat.add_comm]
    congr 1
    have bit := getLsbD_iff_div a n
    have two := Nat.mod_two_eq_zero_or_one (a.toNat / 2 ^ n)
    cases h : a.getLsbD n with
    | false => simp [h] at bit ⊢; omega
    | true => simp [h] at bit ⊢; omega

/-! ### Products and quotients (R67, R193) -/

/-- The high half of a signed product is that of the sign-extended sources. -/
theorem mulhResult_eq (a b : Word) : mulhResult a b = (((a.signExtend 128 * b.signExtend 128) >>> 64).setWidth 64) := by
  have product : a.signExtend 128 * b.signExtend 128 = BitVec.ofInt 128 (a.toInt * b.toInt) := by
    rw [BitVec.ofInt_mul, BitVec.signExtend, BitVec.signExtend]
  rw [product, mulhResult]
  refine BitVec.eq_of_toNat_eq ?_
  rw [BitVec.toNat_setWidth, BitVec.toNat_ushiftRight, BitVec.toNat_ofInt, BitVec.toNat_ofInt, Nat.shiftRight_eq_div_pow]
  generalize a.toInt * b.toInt = z
  push_cast
  omega

theorem mulhuResult_eq (a b : Word) : mulhuResult a b = (((a.zeroExtend 128 * b.zeroExtend 128) >>> 64).setWidth 64) := by
  have ha := a.isLt
  have hb := b.isLt
  have bound : a.toNat * b.toNat < 2 ^ 128 := by nlinarith
  refine BitVec.eq_of_toNat_eq ?_
  have wide (x : Word) : (x.zeroExtend 128).toNat = x.toNat := by
    rw [BitVec.toNat_setWidth]
    exact Nat.mod_eq_of_lt (x.isLt.trans (by decide))
  rw [mulhuResult, dbl, BitVec.toNat_ofNat, BitVec.toNat_setWidth, BitVec.toNat_ushiftRight, BitVec.toNat_mul, wide, wide,
    Nat.mod_eq_of_lt bound, Nat.shiftRight_eq_div_pow]

/-- The signed quotient rounds toward zero; the most negative value divided by -1 is itself (R67). -/
theorem sdiv64_eq (a b : Word) : sdiv64 a b = if b = 0 then BitVec.allOnes 64 else a.sdiv b := by
  refine if_congr Iff.rfl rfl (BitVec.eq_of_toInt_eq ?_)
  rw [BitVec.toInt_ofInt, BitVec.toInt_sdiv]

theorem srem64_eq (a b : Word) : srem64 a b = if b = 0 then a else a.srem b := by
  refine if_congr Iff.rfl rfl ?_
  rw [← BitVec.toInt_srem, BitVec.ofInt_toInt]

/-- Settles O2: the word forms, products and quotients are the functions of `BitVec`, and the counts are read from the bits. -/
theorem integerSingleForms : Obligations.IntegerSingleForms := by
  unfold Obligations.IntegerSingleForms
  refine ⟨fun s d a b => ?_, fun s d a => ?_, fun s d a b => ?_⟩
  · refine ⟨?_, ?_, ?_, ?_, ?_, ?_, ?_, ?_, ?_⟩ <;> exact State.computesG_of_result rfl
  · refine ⟨?_, ?_, State.computesG_of_eq rfl ?_⟩
    · obtain ⟨n, fits, zeros, one, count⟩ := clz64_spec (s.g a)
      exact ⟨n, fits, zeros, one, State.computesG_of_eq rfl count⟩
    · obtain ⟨-, fits, zeros, one⟩ := ctzGo_spec (s.g a).toNat 64 0
      rw [Nat.zero_add] at fits one
      refine ⟨ctzGo (s.g a).toNat 64 0, fits, fun k hk => ?_, fun h => ?_, State.computesG_of_result rfl⟩
      · exact Bool.eq_false_iff.mpr fun t => zeros k (Nat.zero_le k) hk ((getLsbD_iff_div _ k).mp t)
      · exact (getLsbD_iff_div _ _).mpr (one h)
    · exact congrArg dbl (popcGo_eq (s.g a) 64)
  · exact ⟨State.computesG_of_result rfl, State.computesG_of_eq rfl (mulhResult_eq _ _), State.computesG_of_eq rfl (mulhuResult_eq _ _),
      State.computesG_of_result rfl, State.computesG_of_eq rfl (sdiv64_eq _ _), State.computesG_of_result rfl,
      State.computesG_of_eq rfl (srem64_eq _ _), State.computesG_of_result rfl⟩

end Sys2Proof.Machine
end

section
/-! PROOFS.  O42: the statement bounds the exponent of every OL4 weight from below (R78, R81), which an outlier's does not meet. -/

namespace Sys2Proof.Machine

/-- A core whose byte 0 is 0x08, the pair of an even outlier of 2^-6 and a +0 (R78), under a scale byte of 0. -/
def outlierState : State := { State.reset with mem := [(0, 0x08)] }

/-- A record of one OL4 element, with its scale byte at 64. -/
def outlierRecord : OpRec :=
  { base := 0, bitmap := 0, scale := 64, key1 := 0, key0 := 0, stride := 32, cols := 1, rows := 1, asig := Tag.exact, window := 5 }

/-- An operation of the array, for the statement's clauses that need none. -/
def idleOp : GangOp :=
  { num := 0, seq := 0, fn := .mldw, ra := 0, rb := 0, imm := 0, members := [], launch := 0, started := true, probed := false }

/-- The model decodes an outlier as the FP32 value of its byte: 24 bits of fraction below its exponent. -/
theorem opElem_outlier : outlierState.opElem outlierRecord 0 0 = some (.fin false (2 ^ 23) (-29)) := by decide +kernel

theorem outlier_scale : (outlierState.byte (rawKey (outlierRecord.scale + (0 * outlierRecord.stride + 0) / 32))).toInt = 0 := by decide +kernel

/-- Refutes O42: of an OL4 weight under scale s the statement says that its exponent is s - 6 or more, where the weight 2^-6 of
an outlier enters, exactly, as 2^23 * 2^(s - 29). -/
theorem not_arrayLoadsAndStreams : ¬ Obligations.ArrayLoadsAndStreams := by
  unfold Obligations.ArrayLoadsAndStreams
  intro h
  obtain ⟨-, -, weights, -⟩ := h outlierState 0 idleOp []
  obtain ⟨-, scaled⟩ := weights outlierRecord 0 0 rfl
  rw [outlier_scale] at scaled
  obtain ⟨n, m, e, elem, low, -⟩ := scaled (by decide)
  have exponent : e = -29 := by
    rw [opElem_outlier] at elem
    injection elem with value
    injection value with _ _ exponent
    exact exponent.symm
  omega

end Sys2Proof.Machine
end

section
/-! PROOFS.  Vector registers as 128 bits, and their elements (R258): a read after a write. -/

namespace Sys2Proof.Machine

/-- Nothing of a slot but lanes and their tags differs. -/
def Slot.OnlyLanes (x y : Slot) : Prop := ∃ lanes tags, y = { x with lanes := lanes, tags := tags }

theorem Slot.onlyLanes_refl (x : Slot) : x.OnlyLanes x := ⟨_, _, rfl⟩

theorem Slot.OnlyLanes.setLane {x y : Slot} (h : x.OnlyLanes y) (r : BitVec 4) (l : Nat) (v : W32) (t : Tag) : x.OnlyLanes (y.setLane r l v t) := by
  obtain ⟨lanes, tags, rfl⟩ := h
  exact ⟨_, _, rfl⟩

section
variable {x y : Slot} (h : x.OnlyLanes y)
include h

theorem Slot.OnlyLanes.kept : x.Kept y.next := by
  obtain ⟨lanes, tags, rfl⟩ := h
  constructor <;> rfl

theorem Slot.OnlyLanes.sameG : x.SameG y.next := by
  obtain ⟨lanes, tags, rfl⟩ := h
  exact fun _ => rfl

theorem Slot.OnlyLanes.pc : y.next.pc = x.pc + 4 := by
  obtain ⟨lanes, tags, rfl⟩ := h
  rfl

theorem Slot.OnlyLanes.pw : y.next.pw = x.pw := by
  obtain ⟨lanes, tags, rfl⟩ := h
  rfl

theorem Slot.OnlyLanes.csr : y.next.csr = x.csr := by
  obtain ⟨lanes, tags, rfl⟩ := h
  rfl

end

/-- 128 bits written to a register are four lanes of 32. -/
theorem Slot.setVnat_eq (x : Slot) (r : BitVec 4) (n : Nat) (t : Nat → Tag) :
    x.setVnat r n t = (((x.setLane r 0 (BitVec.ofNat 32 (n / 2 ^ (32 * 0))) (t 0)).setLane r 1 (BitVec.ofNat 32 (n / 2 ^ (32 * 1))) (t 1)).setLane r 2
      (BitVec.ofNat 32 (n / 2 ^ (32 * 2))) (t 2)).setLane r 3 (BitVec.ofNat 32 (n / 2 ^ (32 * 3))) (t 3) := rfl

/-- The last of four writes that names a lane of the register is the lane's own. -/
theorem ite_lanes {α : Type} (l : Nat) (c : Nat → α) (a : α) (p : Prop) [Decidable p] :
    (if p ∧ l % 4 = 3 % 4 then c 3 else if p ∧ l % 4 = 2 % 4 then c 2 else if p ∧ l % 4 = 1 % 4 then c 1 else if p ∧ l % 4 = 0 % 4 then c 0 else a) =
      if p then c (l % 4) else a := by
  by_cases hp : p
  · have := Nat.mod_lt l (show 0 < 4 by decide)
    interval_cases l % 4 <;> simp [hp]
  · simp [hp]

theorem Slot.lane_setVnat (x : Slot) (r v : BitVec 4) (n l : Nat) (t : Nat → Tag) :
    (x.setVnat r n t).lane v l = if v = r then BitVec.ofNat 32 (n / 2 ^ (32 * (l % 4))) else x.lane v l := by
  rw [Slot.setVnat_eq]
  simp only [Slot.lane_setLane]
  exact ite_lanes l (fun l => BitVec.ofNat 32 (n / 2 ^ (32 * l))) _ _

theorem Slot.tag_setVnat (x : Slot) (r v : BitVec 4) (n l : Nat) (t : Nat → Tag) :
    (x.setVnat r n t).tag v l = if v = r then t (l % 4) else x.tag v l := by
  rw [Slot.setVnat_eq]
  simp only [Slot.tag_setLane]
  exact ite_lanes l t _ _

theorem Slot.vnat_setVnat (x : Slot) (r : BitVec 4) (n : Nat) (t : Nat → Tag) : (x.setVnat r n t).vnat r = n % 2 ^ 128 := by
  simp only [Slot.vnat, Slot.lane_setVnat, if_true, BitVec.toNat_ofNat, Nat.reduceMod, Nat.reduceMul, Nat.reducePow]
  omega

@[simp] theorem Slot.lane_next (x : Slot) (r : BitVec 4) (l : Nat) : x.next.lane r l = x.lane r l := rfl
@[simp] theorem Slot.tag_next (x : Slot) (r : BitVec 4) (l : Nat) : x.next.tag r l = x.tag r l := rfl
@[simp] theorem Slot.vnat_next (x : Slot) (r : BitVec 4) : x.next.vnat r = x.vnat r := rfl

theorem Slot.onlyLanes_setVnat (x : Slot) (r : BitVec 4) (n : Nat) (t : Nat → Tag) : x.OnlyLanes (x.setVnat r n t) := by
  rw [Slot.setVnat_eq]
  exact ((((x.onlyLanes_refl.setLane ..).setLane ..).setLane ..).setLane ..)

/-! ### Elements of w bits -/

theorem elemOf_lt (n w k : Nat) : elemOf n w k < 2 ^ w := Nat.mod_lt _ (Nat.two_pow_pos w)

/-- An element that lies within the register's 128 bits. -/
theorem elemOf_mod {n w k : Nat} (h : w * k + w ≤ 128) : elemOf (n % 2 ^ 128) w k = elemOf n w k := by
  have split_ : 2 ^ 128 = 2 ^ (w * k) * 2 ^ (128 - w * k) := by rw [← Nat.pow_add]; congr 1; omega
  rw [elemOf, split_, Nat.mod_mul_right_div_self, Nat.mod_mod_of_dvd _ (Nat.pow_dvd_pow 2 (by omega)), elemOf]

/-- An element of a packed list. -/
theorem elemOf_packElems {w : Nat} {es : List Nat} (fits : ∀ e ∈ es, e < 2 ^ w) (k : Nat) : elemOf (packElems w es) w k = es.getD k 0 := by
  induction es generalizing k with
  | nil => simp [packElems, elemOf]
  | cons e es ih =>
    have first := fits e List.mem_cons_self
    cases k with
    | zero =>
      rw [elemOf, packElems, Nat.mul_zero, pow_zero, Nat.div_one, Nat.add_mul_mod_self_left, Nat.mod_eq_of_lt first]
      rfl
    | succ k =>
      have rest : (e + 2 ^ w * packElems w es) / 2 ^ w = packElems w es := by
        rw [Nat.add_mul_div_left _ _ (Nat.two_pow_pos w), Nat.div_eq_of_lt first, Nat.zero_add]
      rw [elemOf, packElems, Nat.mul_succ, Nat.add_comm (w * k) w, Nat.pow_add, ← Nat.div_div_eq_div_mul, rest]
      exact ih (fun e he => fits e (List.mem_cons_of_mem _ he)) k

theorem intWidth_cases (f : BitVec 3) : intWidth f = 8 ∨ intWidth f = 16 ∨ intWidth f = 32 ∨ intWidth f = 64 := by
  have := Nat.mod_lt f.toNat (show 0 < 4 by decide)
  rw [intWidth]
  interval_cases f.toNat % 4 <;> decide

theorem intWidth_pos (f : BitVec 3) : 0 < intWidth f := by
  rcases intWidth_cases f with h | h | h | h <;> omega

/-- The elements of a register, each whole within it. -/
theorem elem_within {f : BitVec 3} {k : Nat} (h : k * intWidth f < 128) : k < 128 / intWidth f ∧ intWidth f * k + intWidth f ≤ 128 := by
  rcases intWidth_cases f with e | e | e | e <;> rw [e] at h ⊢ <;> omega

/-- A packed list read back from the register it was written to. -/
theorem Slot.elem_setVnat {x : Slot} {r : BitVec 4} {f : BitVec 3} {es : List Nat} {t : Nat → Tag} {k : Nat}
    (fits : ∀ e ∈ es, e < 2 ^ intWidth f) (hk : k * intWidth f < 128) :
    elemOf ((x.setVnat r (packElems (intWidth f) es) t).vnat r) (intWidth f) k = es.getD k 0 := by
  rw [Slot.vnat_setVnat, elemOf_mod (elem_within hk).2, elemOf_packElems fits]

/-- A lane of a register written from a packed list of 32-bit numbers. -/
theorem Slot.lane_packElems {x : Slot} {r : BitVec 4} {es : List Nat} {t : Nat → Tag} {l : Nat} (fits : ∀ e ∈ es, e < 2 ^ 32) (hl : l < 4) :
    (x.setVnat r (packElems 32 es) t).lane r l = BitVec.ofNat 32 (es.getD l 0) := by
  rw [Slot.lane_setVnat, if_pos rfl, Nat.mod_eq_of_lt hl, ← elemOf_packElems fits]
  refine BitVec.eq_of_toNat_eq ?_
  rw [BitVec.toNat_ofNat, BitVec.toNat_ofNat, elemOf, Nat.mod_mod]

end Sys2Proof.Machine
end

section
/-! PROOFS.  O31: integer vector operations, wrapped or clamped (R66, R262, R267, R268). -/

namespace Sys2Proof.Machine

/-- An instruction completes with v[d] alone written: its lanes as a predicate of the slot says, with the tags given (R262). -/
def State.ComputesLanes (s : State) (i : Instr) (d : BitVec 5) (R : Slot → Prop) (tag : Nat → Tag) : Prop :=
  s.Computes i (fun x y => R y ∧ (∀ l, l < 4 → y.tag (vnum d) l = tag l) ∧
    (∀ r l, r ≠ vnum d → y.lane r l = x.lane r l ∧ y.tag r l = x.tag r l) ∧ x.SameG y ∧ y.pw = x.pw ∧ y.csr = x.csr)

/-- An instruction that writes 128 bits to v[d]. -/
theorem State.computesLanes_of_setVnat {s : State} {i : Instr} {d : BitVec 5} {n : Nat} {tag : Nat → Tag} {R : Slot → Prop}
    (run : exec i s = .next (s.setMe (s.me.setVnat (vnum d) n tag).next)) (value : R (s.me.setVnat (vnum d) n tag).next) :
    s.ComputesLanes i d R tag := by
  refine ⟨_, run, s.onlySlot_setMe _, ?_⟩
  have only := s.me.onlyLanes_setVnat (vnum d) n tag
  rw [State.setMe_me]
  refine ⟨only.kept, rfl, rfl, only.pc, value, fun l hl => ?_, fun r l hr => ⟨?_, ?_⟩, only.sameG, only.pw, only.csr⟩
  · rw [Slot.tag_next, Slot.tag_setVnat, if_pos rfl, Nat.mod_eq_of_lt hl]
  · rw [Slot.lane_next, Slot.lane_setVnat, if_neg hr]
  · rw [Slot.tag_next, Slot.tag_setVnat, if_neg hr]

/-- Elements written to v[d] from a list, each by its number. -/
theorem State.computesLanes_of_packElems {s : State} {i : Instr} {d : BitVec 5} {f : BitVec 3} {es : List Nat} {tag : Nat → Tag} {R : Slot → Prop}
    (run : exec i s = .next (s.setMe (s.me.setVnat (vnum d) (packElems (intWidth f) es) tag).next)) (fits : ∀ e ∈ es, e < 2 ^ intWidth f)
    (value : ∀ y : Slot, (∀ k, k * intWidth f < 128 → elemOf (y.vnat (vnum d)) (intWidth f) k = es.getD k 0) → R y) :
    s.ComputesLanes i d R tag :=
  State.computesLanes_of_setVnat run (value _ fun k hk => by rw [Slot.vnat_next, Slot.elem_setVnat fits hk])

theorem getD_map_range {g : Nat → Nat} {n k : Nat} (h : k < n) : ((List.range n).map g).getD k 0 = g k := by
  simp [List.getD_eq_getElem?_getD, h]

/-- An elementwise operation, by the value of each element. -/
theorem State.computesLanes_of_intOp2 {s : State} {i : Instr} {d a b : BitVec 5} {f : BitVec 3} {op : Nat → Nat → Nat} {r : Nat → Nat}
    (run : exec i s = .next (s.intOp2 f d a b op))
    (value : ∀ k, op (elemOf (s.me.vnat (vnum a)) (intWidth f) k) (elemOf (s.me.vnat (vnum b)) (intWidth f) k) = r k)
    (fits : ∀ k, r k < 2 ^ intWidth f) :
    s.ComputesLanes i d (fun y => ∀ k, k * intWidth f < 128 → elemOf (y.vnat (vnum d)) (intWidth f) k = r k) (fun _ => Tag.exact) := by
  refine State.computesLanes_of_packElems (f := f) run (fun e he => ?_) fun y elems k hk => ?_
  · obtain ⟨k, -, rfl⟩ := List.mem_map.mp he
    rw [value k]
    exact fits k
  · rw [elems k hk, getD_map_range (elem_within hk).1, value k]

/-! ### Values of elements (R66) -/

theorem asInt_eq (w n : Nat) : asInt w n = if n < 2 ^ (w - 1) then (n : Int) else n - 2 ^ w := by
  rw [asInt]
  by_cases h : n < 2 ^ (w - 1)
  · rw [if_pos h, if_neg (Nat.not_le.mpr h)]
  · rw [if_neg h, if_pos (Nat.not_lt.mp h)]

/-- Two's complement keeps numbers of w bits apart. -/
theorem asInt_inj {w m n : Nat} (hm : m < 2 ^ w) (hn : n < 2 ^ w) (h : asInt w m = asInt w n) : m = n := by
  have cast : ((2 ^ w : Nat) : Int) = 2 ^ w := by push_cast; rfl
  rw [asInt_eq, asInt_eq] at h
  split at h <;> split at h <;> omega

theorem intVal_eq (f : BitVec 3) (n : Nat) :
    intVal f n = if 4 ≤ f.toNat then (n : Int) else if n < 2 ^ (intWidth f - 1) then (n : Int) else n - 2 ^ intWidth f := by
  rw [intVal, asInt_eq, intUnsigned]
  exact if_congr decide_eq_true_iff rfl rfl

theorem clampInt_eq {lo hi : Int} (h : lo ≤ hi) (x : Int) : clampInt lo hi x = max lo (min hi x) := by
  rw [clampInt]
  split
  · omega
  · split <;> omega

theorem intRange_eq (f : BitVec 3) : intRange f = (if 4 ≤ f.toNat then (0 : Int) else -(2 ^ (intWidth f - 1)),
    if 4 ≤ f.toNat then (2 : Int) ^ intWidth f - 1 else 2 ^ (intWidth f - 1) - 1) := by
  by_cases h : 4 ≤ f.toNat <;> simp [intRange, intUnsigned, h]

theorem intRange_le (f : BitVec 3) : (intRange f).1 ≤ (intRange f).2 := by
  have whole : (0 : Int) < 2 ^ intWidth f := by positivity
  have half : (0 : Int) < 2 ^ (intWidth f - 1) := by positivity
  rw [intRange_eq]
  dsimp only
  split <;> omega

theorem intNarrow_lt (f : BitVec 3) (sat : Bool) (x : Int) : intNarrow f sat x < 2 ^ intWidth f := toBits_lt _ _

/-- A result in the range of its format: clamped under .sat, wrapped otherwise. -/
theorem intNarrow_eq (f : BitVec 3) (sat : BitVec 1) (x : Int) :
    intNarrow f (sat == 1) x = ((if sat = 1 then max (intRange f).1 (min (intRange f).2 x) else x) % 2 ^ intWidth f).toNat := by
  rw [intNarrow, toBits, ← clampInt_eq (intRange_le f)]
  by_cases h : sat = 1 <;> simp [h]

/-- An element differs from its value by a multiple of 2^w. -/
theorem intVal_modEq (f : BitVec 3) (n : Nat) : intVal f n ≡ n [ZMOD 2 ^ intWidth f] := by
  rw [intVal_eq]
  split
  · rfl
  · split
    · rfl
    · exact (Int.modEq_sub_modulus_iff.mpr rfl).symm

/-- A wrapped result depends on the residues alone. -/
theorem intNarrow_of_modEq {f : BitVec 3} {x : Int} {n : Nat} (h : x ≡ n [ZMOD 2 ^ intWidth f]) :
    intNarrow f false x = n % 2 ^ intWidth f := by
  have cast : ((n % 2 ^ intWidth f : Nat) : Int) = (n : Int) % 2 ^ intWidth f := by push_cast; rfl
  change (x % 2 ^ intWidth f).toNat = _
  rw [h.eq, ← cast, Int.toNat_natCast]

/-! ### Running sums (R267) -/

theorem prefixSums_none (f : BitVec 3) (sat : Bool) (e : Nat) (es : List Nat) :
    prefixSums f sat none (e :: es) = e :: prefixSums f sat (some e) es := by rw [prefixSums]

theorem prefixSums_some (f : BitVec 3) (sat : Bool) (p e : Nat) (es : List Nat) :
    prefixSums f sat (some p) (e :: es) =
      intNarrow f sat (intVal f p + intVal f e) :: prefixSums f sat (some (intNarrow f sat (intVal f p + intVal f e))) es := by
  rw [prefixSums]

theorem prefixSums_getD_succ (f : BitVec 3) (sat : Bool) (e : Nat) (es : List Nat) (k : Nat) (h : k < es.length) :
    (e :: prefixSums f sat (some e) es).getD (k + 1) 0 =
      intNarrow f sat (intVal f ((e :: prefixSums f sat (some e) es).getD k 0) + intVal f (es.getD k 0)) := by
  induction es generalizing e k with
  | nil => exact absurd h (Nat.not_lt_zero k)
  | cons e' es ih =>
    cases k with
    | zero => rw [prefixSums_some, List.getD_cons_succ, List.getD_cons_zero, List.getD_cons_zero, List.getD_cons_zero]
    | succ k =>
      rw [prefixSums_some, List.getD_cons_succ, ih _ k (Nat.lt_of_succ_lt_succ h), List.getD_cons_succ, List.getD_cons_succ]

theorem prefixSums_lt {f : BitVec 3} {sat : Bool} {p : Nat} {es : List Nat} : ∀ e ∈ prefixSums f sat (some p) es, e < 2 ^ intWidth f := by
  induction es generalizing p with
  | nil => exact fun e he => absurd he List.not_mem_nil
  | cons e' es ih =>
    intro e he
    rw [prefixSums_some] at he
    rcases List.mem_cons.mp he with rfl | he
    · exact intNarrow_lt _ _ _
    · exact ih e he

/-- The elements of a register have a first one, which begins the running sums. -/
theorem elems_cons (f : BitVec 3) (g : Nat → Nat) :
    (List.range (128 / intWidth f)).map g = g 0 :: (List.range (128 / intWidth f - 1)).map (fun k => g (k + 1)) := by
  have some_ : 128 / intWidth f = 128 / intWidth f - 1 + 1 := by
    rcases intWidth_cases f with h | h | h | h <;> rw [h]
  rw [some_, List.range_succ_eq_map, List.map_cons, List.map_map]
  rfl

/-- VPSUM: the first element as it is, and each later one the narrowed sum of the one before it and its own. -/
theorem State.computesLanes_vpsum {s : State} {d a : BitVec 5} {f : BitVec 3} {sat : BitVec 1} {R : Slot → Prop}
    (value : ∀ e : Nat → Nat, e 0 = elemOf (s.me.vnat (vnum a)) (intWidth f) 0 →
      (∀ k, (k + 1) * intWidth f < 128 → e (k + 1) = intNarrow f (sat == 1) (intVal f (e k) + intVal f (elemOf (s.me.vnat (vnum a)) (intWidth f) (k + 1)))) →
      ∀ y : Slot, (∀ k, k * intWidth f < 128 → elemOf (y.vnat (vnum d)) (intWidth f) k = e k) → R y) :
    s.ComputesLanes (.vpsum d a f sat) d R (fun _ => Tag.exact) := by
  have run : exec (.vpsum d a f sat) s = .next (s.setMe (s.me.setVnat (vnum d) (packElems (intWidth f) (prefixSums f (sat == 1) none
    ((List.range (128 / intWidth f)).map (fun k => elemOf (s.me.vnat (vnum a)) (intWidth f) k)))) (fun _ => Tag.exact)).next) := rfl
  rw [elems_cons, prefixSums_none] at run
  refine State.computesLanes_of_packElems (f := f) run (fun e he => ?_)
    (value (fun k => (elemOf (s.me.vnat (vnum a)) (intWidth f) 0 :: prefixSums f (sat == 1) (some (elemOf (s.me.vnat (vnum a)) (intWidth f) 0))
      ((List.range (128 / intWidth f - 1)).map (fun k => elemOf (s.me.vnat (vnum a)) (intWidth f) (k + 1)))).getD k 0) List.getD_cons_zero
      fun k hk => ?_)
  · rcases List.mem_cons.mp he with rfl | he
    · exact elemOf_lt _ _ _
    · exact prefixSums_lt e he
  · have inside : k < 128 / intWidth f - 1 := by
      have := (elem_within hk).1
      omega
    have step := prefixSums_getD_succ f (sat == 1) (elemOf (s.me.vnat (vnum a)) (intWidth f) 0)
      ((List.range (128 / intWidth f - 1)).map (fun k => elemOf (s.me.vnat (vnum a)) (intWidth f) (k + 1))) k (by simpa using inside)
    rw [getD_map_range inside] at step
    exact step

/-- The wrapped running sums are the sums of the elements so far. -/
theorem wrapped_sums {f : BitVec 3} {u e : Nat → Nat} (first : e 0 = u 0) (small : u 0 < 2 ^ intWidth f)
    (step : ∀ k, (k + 1) * intWidth f < 128 → e (k + 1) = intNarrow f false (intVal f (e k) + intVal f (u (k + 1)))) (k : Nat)
    (hk : k * intWidth f < 128) : e k = ((List.range (k + 1)).map u).sum % 2 ^ intWidth f := by
  induction k with
  | zero => simp [first, Nat.mod_eq_of_lt small]
  | succ k ih =>
    have before := ih (lt_of_le_of_lt (Nat.mul_le_mul_right _ (Nat.le_succ k)) hk)
    have sum : intVal f (e k) + intVal f (u (k + 1)) ≡ ((e k + u (k + 1) : Nat) : Int) [ZMOD 2 ^ intWidth f] := by
      push_cast
      exact (intVal_modEq f _).add (intVal_modEq f _)
    rw [step k hk, intNarrow_of_modEq sum, before, List.range_succ (n := k + 1), List.map_append, List.sum_append, Nat.mod_add_mod]
    simp

/-! ### Sums of 32 bits (R268) -/

theorem asInt_toNat (v : W32) : asInt 32 v.toNat = v.toInt := by
  rw [asInt_eq, BitVec.toInt]
  by_cases h : v.toNat < 2 ^ 31
  · rw [if_pos h, if_pos (by omega)]
  · rw [if_neg h, if_neg (by omega)]
    rfl

theorem sum32_lt (sat : Bool) (x : Int) : sum32 sat x < 2 ^ 32 := toBits_lt _ _

theorem sum32_eq (sat : BitVec 1) (x : Int) :
    BitVec.ofNat 32 (sum32 (sat == 1) x) = BitVec.ofInt 32 (if sat = 1 then max (-2147483648) (min 2147483647 x) else x) := by
  refine BitVec.eq_of_toNat_eq ?_
  have clamp : clampInt (-(2 ^ 31)) (2 ^ 31 - 1) x = max (-2147483648) (min 2147483647 x) := clampInt_eq (by decide) x
  rw [BitVec.toNat_ofNat, Nat.mod_eq_of_lt (sum32_lt _ _), BitVec.toNat_ofInt, sum32, toBits, clamp]
  by_cases h : sat = 1 <;> simp [h]

theorem foldl_four (p : Nat → Int) (x : Int) : (List.range 4).foldl (fun t j => t + p j) x = x + p 0 + p 1 + p 2 + p 3 := rfl

/-- Four sums of 32 bits written to the lanes of v[d]. -/
theorem State.computesLanes_of_sums {s : State} {i : Instr} {d : BitVec 5} {sat : BitVec 1} {x z : Nat → Int}
    (run : exec i s = .next (s.setMe (s.me.setVnat (vnum d) (packElems 32 ((List.range 4).map (fun i => sum32 (sat == 1) (x i)))) (fun _ => Tag.exact)).next))
    (value : ∀ i, x i = z i) :
    s.ComputesLanes i d (fun y => ∀ i, i < 4 → y.lane (vnum d) i =
      BitVec.ofInt 32 (if sat = 1 then max (-2147483648) (min 2147483647 (z i)) else z i)) (fun _ => Tag.exact) := by
  refine State.computesLanes_of_setVnat run fun i hi => ?_
  have fits : ∀ e ∈ (List.range 4).map (fun i => sum32 (sat == 1) (x i)), e < 2 ^ 32 := fun e he => by
    obtain ⟨k, -, rfl⟩ := List.mem_map.mp he
    exact sum32_lt _ _
  rw [Slot.lane_next, Slot.lane_packElems fits hi, getD_map_range hi, sum32_eq, value]

/-! ### VSEL (R93, R262, R267) -/

theorem State.computesLanes_vsel (s : State) (d a b : BitVec 5) (f : BitVec 3) :
    let w := intWidth f
    let picks := fun k => decide (2 ^ (w - 1) ≤ elemOf (s.me.vnat (vnum d)) w k)
    s.ComputesLanes (.vsel d a b f) d (fun y => ∀ k, k * w < 128 → elemOf (y.vnat (vnum d)) w k =
        if picks k then elemOf (s.me.vnat (vnum a)) w k else elemOf (s.me.vnat (vnum b)) w k)
      (fun l => if w < 32 then Tag.exact else if picks (32 * l / w) then s.me.tag (vnum a) l else s.me.tag (vnum b) l) := by
  intro w picks
  have run : exec (.vsel d a b f) s = .next (s.setMe (s.me.setVnat (vnum d) (packElems w ((List.range (128 / w)).map (fun k =>
      if picks k then elemOf (s.me.vnat (vnum a)) w k else elemOf (s.me.vnat (vnum b)) w k)))
      (fun l => if w < 32 then Tag.exact else if picks (32 * l / w) then s.me.tag (vnum a) l else s.me.tag (vnum b) l)).next) := by
    simp only [picks, decide_eq_true_eq]
    rfl
  refine State.computesLanes_of_packElems (f := f) run (fun e he => ?_) fun y elems k hk => ?_
  · obtain ⟨k, -, rfl⟩ := List.mem_map.mp he
    split <;> exact elemOf_lt _ _ _
  · rw [elems k hk, getD_map_range (elem_within hk).1]

/-! ### The operations of R267 -/

/-- A wrapped difference, as a sum that stays among the numbers. -/
theorem sub_modEq {w u v : Nat} (hv : v < 2 ^ w) : (u : Int) - v ≡ ((u + 2 ^ w - v : Nat) : Int) [ZMOD 2 ^ w] := by
  have cast : ((u + 2 ^ w - v : Nat) : Int) = (u - v : Int) + 2 ^ w := by
    rw [Nat.cast_sub (by omega)]
    push_cast
    ring
  rw [cast]
  exact (Int.add_modEq_right).symm

/-- The greater of two signed elements, from either comparison. -/
theorem ite_asInt_comm {w m n : Nat} (hm : m < 2 ^ w) (hn : n < 2 ^ w) :
    (if asInt w m ≤ asInt w n then n else m) = if asInt w n ≤ asInt w m then m else n := by
  by_cases h : asInt w m ≤ asInt w n
  · rw [if_pos h]
    split
    · next h' => exact (asInt_inj hm hn (le_antisymm h h')).symm
    · rfl
  · rw [if_neg h, if_pos (le_of_not_ge h)]

/-- A comparison's element is all ones or zero. -/
theorem mask01_lt (f : BitVec 3) (b : Bool) : mask01 f b < 2 ^ intWidth f := by
  have := Nat.two_pow_pos (intWidth f)
  cases b
  · exact this
  · exact Nat.sub_lt this Nat.one_pos

/-- Settles O31: each elementwise operation by the value of an element, VPSUM by its recurrence, and the sums of 32 bits lane by lane. -/
theorem vectorIntegers : Obligations.VectorIntegers := by
  unfold Obligations.VectorIntegers
  intro s d a b f sat w elem u v sgn own lo hi narrow ones lanes gives picks clamp32
  have signed (n : Nat) : sVal f n = sgn n w := asInt_eq w n
  have value (n : Nat) : intVal f n = own n := intVal_eq f n
  have narrowed (x : Int) : intNarrow f (sat == 1) x = narrow x := by
    rw [intNarrow_eq, intRange_eq]
    rfl
  have wrapped {x : Int} {n : Nat} (h : sat = 0) (hx : x ≡ n [ZMOD 2 ^ w]) : intNarrow f (sat == 1) x = n % 2 ^ w := by
    rw [h]
    exact intNarrow_of_modEq hx
  have small_u (k : Nat) : u k < 2 ^ w := elemOf_lt _ _ _
  have small_v (k : Nat) : v k < 2 ^ w := elemOf_lt _ _ _
  have small_narrow (x : Int) : narrow x < 2 ^ w := narrowed x ▸ intNarrow_lt _ _ _
  have small_mod (n : Nat) : n % 2 ^ w < 2 ^ w := Nat.mod_lt _ (Nat.two_pow_pos w)
  have small_ite {p : Prop} [Decidable p] (k : Nat) : (if p then u k else v k) < 2 ^ w := by
    split
    · exact small_u k
    · exact small_v k
  have gives_of {i : Instr} {op : Nat → Nat → Nat} {r : Nat → Nat} (run : exec i s = .next (s.intOp2 f d a b op))
      (h : ∀ k, op (u k) (v k) = r k) (fits : ∀ k, r k < 2 ^ w) : gives i r := State.computesLanes_of_intOp2 run h fits
  refine ⟨gives_of rfl (fun k => (narrowed _).trans (congrArg narrow (congrArg₂ (· + ·) (value _) (value _)))) (fun k => small_narrow _),
    gives_of rfl (fun k => (narrowed _).trans (congrArg narrow (congrArg₂ (· - ·) (value _) (value _)))) (fun k => small_narrow _),
    gives_of rfl (fun k => (narrowed _).trans (congrArg narrow (congrArg₂ (· * ·) (value _) (value _)))) (fun k => small_narrow _),
    fun h => ⟨?_, ?_, ?_⟩, ?_, ?_, ?_, ?_, ?_, ?_, ?_, ?_, ?_, ?_, ?_, ?_, ?_, State.computesLanes_vsel s d a b f, fun h => ?_, ?_, fun hf => ?_, fun hf => ?_⟩
  · exact gives_of rfl (fun k => wrapped h ((intVal_modEq f _).add (intVal_modEq f _))) (fun k => small_mod _)
  · exact gives_of rfl (fun k => wrapped h ((intVal_modEq f _).mul (intVal_modEq f _))) (fun k => small_mod _)
  · exact gives_of rfl (fun k => wrapped h (((intVal_modEq f _).sub (intVal_modEq f _)).trans (sub_modEq (small_v k)))) (fun k => small_mod _)
  · exact gives_of rfl (fun k => if_congr (iff_of_eq (congrArg₂ (· ≤ ·) (signed _) (signed _))) rfl rfl) (fun k => small_ite k)
  · exact gives_of rfl (fun k => (ite_asInt_comm (small_u k) (small_v k)).trans
      (if_congr (iff_of_eq (congrArg₂ (· ≤ ·) (signed _) (signed _))) rfl rfl)) (fun k => small_ite k)
  · exact gives_of rfl (fun k => rfl) (fun k => (Nat.min_le_left _ _).trans_lt (small_u k))
  · exact gives_of rfl (fun k => rfl) (fun k => max_lt (small_u k) (small_v k))
  · exact gives_of rfl (fun k => rfl) (fun k => Nat.and_lt_two_pow _ (small_v k))
  · exact gives_of rfl (fun k => rfl) (fun k => Nat.or_lt_two_pow (small_u k) (small_v k))
  · exact gives_of rfl (fun k => rfl) (fun k => Nat.xor_lt_two_pow (small_u k) (small_v k))
  · exact gives_of rfl (fun k => rfl) (fun k => small_mod _)
  · exact gives_of rfl (fun k => rfl) (fun k => (Nat.div_le_self _ _).trans_lt (small_u k))
  · exact gives_of rfl (fun k => congrArg (fun x : Int => toBits w (x / 2 ^ (v k % w))) (signed _)) (fun k => toBits_lt _ _)
  · exact gives_of rfl (fun k => congrArg (mask01 f) (Bool.beq_eq_decide_eq _ _)) (fun k => mask01_lt f _)
  · exact gives_of rfl (fun k => congrArg (mask01 f) (decide_eq_decide.mpr (iff_of_eq (congrArg₂ (· < ·) (signed _) (signed _)))))
      (fun k => mask01_lt f _)
  · exact gives_of rfl (fun k => rfl) (fun k => mask01_lt f _)
  · refine State.computesLanes_vpsum fun e first step y elems k hk => (elems k hk).trans ?_
    rw [h] at step
    exact wrapped_sums (u := u) first (small_u 0) step k hk
  · refine State.computesLanes_vpsum fun e first step y elems => ⟨(elems 0 (by simp)).trans first, fun k hk => ?_⟩
    have before := elems k (lt_of_le_of_lt (Nat.mul_le_mul_right _ (Nat.le_succ k)) hk)
    refine (elems (k + 1) hk).trans ((step k hk).trans ((narrowed _).trans (congrArg narrow (congrArg₂ (· + ·) ?_ (value _)))))
    exact (value _).trans (congrArg own before.symm)
  · exact State.computesLanes_of_sums rfl fun i => congrArg₂ (· + ·) (asInt_toNat _) (value _)
  · have eight : intWidth f = 8 := by rcases hf with rfl | rfl <;> rfl
    have term (i j : Nat) : intVal f (elemOf (s.me.vnat (vnum a)) 8 (4 * i + j)) * intVal f (elemOf (s.me.vnat (vnum b)) 8 (4 * i + j)) =
        own (u (4 * i + j)) * own (v (4 * i + j)) := by
      rw [value, value, ← eight]
      rfl
    refine State.computesLanes_of_sums rfl fun i => (foldl_four _ _).trans ?_
    rw [asInt_toNat, term, term, term, term, Nat.add_zero]

end Sys2Proof.Machine
end

section
/-! PROOFS.  Finite values as rationals: comparison, sums, products and distances (R68, R70). -/

namespace Sys2Proof.Machine

/-- The value of a finite number. -/
def FV.rat : FV → ℚ
  | .fin n m e => (if n then -1 else 1) * (m * 2 ^ e)
  | _ => 0

/-- A value that is neither an infinity nor a NaN. -/
def FV.IsFin (v : FV) : Prop := ∃ n m e, v = .fin n m e

theorem FV.isFin_fin (n : Bool) (m : Nat) (e : Int) : (FV.fin n m e).IsFin := ⟨n, m, e, rfl⟩

/-- A power of two split at an exponent below it. -/
theorem two_zpow_split {e q : Int} (h : q ≤ e) : (2 : ℚ) ^ (e - q).toNat * 2 ^ q = 2 ^ e := by
  rw [← zpow_natCast, Int.toNat_of_nonneg (by omega), ← zpow_add₀ two_ne_zero, sub_add_cancel]

theorem FV.units_mul {n : Bool} {m : Nat} {e q : Int} (h : q ≤ e) : ((FV.fin n m e).units q : ℚ) * 2 ^ q = (FV.fin n m e).rat := by
  rw [FV.units, FV.rat, ← two_zpow_split h]
  push_cast
  ring

/-- An integer in units of 2^q. -/
theorem FV.rat_ofInt (x q : Int) : (FV.fin (decide (x < 0)) x.natAbs q).rat = x * 2 ^ q := by
  have signed : ((if decide (x < 0) = true then (-1 : ℚ) else 1) * (x.natAbs : ℚ)) = x := by
    rw [Nat.cast_natAbs, Int.cast_abs]
    by_cases h : x < 0
    · rw [if_pos (decide_eq_true h), abs_of_neg (by exact_mod_cast h)]
      ring
    · rw [if_neg (by simpa using h), abs_of_nonneg (by exact_mod_cast not_lt.mp h)]
      ring
  rw [FV.rat, ← mul_assoc, signed]

/-- The comparison of two finite values is that of their rationals. -/
theorem cmpFV_spec {a b : FV} (ha : a.IsFin) (hb : b.IsFin) :
    (cmpFV a b < 0 ↔ a.rat < b.rat) ∧ (cmpFV a b = 0 ↔ a.rat = b.rat) ∧ (cmpFV a b ≤ 0 ↔ a.rat ≤ b.rat) := by
  obtain ⟨n, m, e, rfl⟩ := ha
  obtain ⟨k, p, d, rfl⟩ := hb
  have positive : (0 : ℚ) < 2 ^ min e d := by positivity
  have compare : cmpFV (.fin n m e) (.fin k p d) = if (FV.fin n m e).units (min e d) < (FV.fin k p d).units (min e d) then -1
    else if (FV.fin n m e).units (min e d) = (FV.fin k p d).units (min e d) then 0 else 1 := rfl
  rw [compare, ← FV.units_mul (min_le_left e d), ← FV.units_mul (n := k) (m := p) (min_le_right e d), mul_lt_mul_iff_left₀ positive,
    mul_le_mul_iff_left₀ positive, mul_left_inj' positive.ne', Int.cast_lt, Int.cast_le, Int.cast_inj]
  generalize (FV.fin n m e).units (min e d) = x
  generalize (FV.fin k p d).units (min e d) = y
  split
  · omega
  · split <;> omega

theorem cmpFV_lt_iff {a b : FV} (ha : a.IsFin) (hb : b.IsFin) : cmpFV a b < 0 ↔ a.rat < b.rat := (cmpFV_spec ha hb).1
theorem cmpFV_eq_iff {a b : FV} (ha : a.IsFin) (hb : b.IsFin) : cmpFV a b = 0 ↔ a.rat = b.rat := (cmpFV_spec ha hb).2.1
theorem cmpFV_le_iff {a b : FV} (ha : a.IsFin) (hb : b.IsFin) : cmpFV a b ≤ 0 ↔ a.rat ≤ b.rat := (cmpFV_spec ha hb).2.2

/-- The exact sum, by its units at the smaller exponent (R70). -/
theorem addFV_fin (rm : Rm) (n k : Bool) (m p : Nat) (e d : Int) :
    addFV rm (.fin n m e) (.fin k p d) =
      if (FV.fin n m e).units (min e d) + (FV.fin k p d).units (min e d) = 0 then .fin (if n = k then n else decide (rm = .rdn)) 0 (min e d)
      else .fin (decide ((FV.fin n m e).units (min e d) + (FV.fin k p d).units (min e d) < 0))
        ((FV.fin n m e).units (min e d) + (FV.fin k p d).units (min e d)).natAbs (min e d) := rfl

theorem FV.IsFin.add {a b : FV} (ha : a.IsFin) (hb : b.IsFin) (rm : Rm) : (addFV rm a b).IsFin ∧ (addFV rm a b).rat = a.rat + b.rat := by
  obtain ⟨n, m, e, rfl⟩ := ha
  obtain ⟨k, p, d, rfl⟩ := hb
  rw [addFV_fin, ← FV.units_mul (min_le_left e d), ← FV.units_mul (n := k) (m := p) (min_le_right e d), ← add_mul, ← Int.cast_add]
  split
  · next zero => exact ⟨FV.isFin_fin _ _ _, by rw [zero, FV.rat]; simp⟩
  · exact ⟨FV.isFin_fin _ _ _, FV.rat_ofInt _ _⟩

theorem FV.IsFin.neg {a : FV} (ha : a.IsFin) : (negFV a).IsFin ∧ (negFV a).rat = -a.rat := by
  obtain ⟨n, m, e, rfl⟩ := ha
  refine ⟨FV.isFin_fin _ _ _, ?_⟩
  cases n <;> simp [negFV, FV.rat]

theorem FV.IsFin.abs {a : FV} (ha : a.IsFin) : (absFV a).IsFin ∧ (absFV a).rat = |a.rat| := by
  obtain ⟨n, m, e, rfl⟩ := ha
  have positive : (0 : ℚ) ≤ m * 2 ^ e := by positivity
  refine ⟨FV.isFin_fin _ _ _, ?_⟩
  cases n <;> simp [absFV, FV.rat, abs_of_nonneg positive]

theorem FV.IsFin.dist {a b : FV} (ha : a.IsFin) (hb : b.IsFin) : (distFV a b).IsFin ∧ (distFV a b).rat = |a.rat - b.rat| := by
  obtain ⟨sum, value⟩ := ha.add hb.neg.1 .rne
  rw [distFV, sum.abs.2, value, hb.neg.2, sub_eq_add_neg]
  exact ⟨sum.abs.1, rfl⟩

theorem FV.IsFin.mul {a b : FV} (ha : a.IsFin) (hb : b.IsFin) : (mulFV a b).IsFin ∧ (mulFV a b).rat = a.rat * b.rat := by
  obtain ⟨n, m, e, rfl⟩ := ha
  obtain ⟨k, p, d, rfl⟩ := hb
  refine ⟨FV.isFin_fin _ _ _, ?_⟩
  have power : (2 : ℚ) ^ (e + d) = 2 ^ e * 2 ^ d := zpow_add₀ two_ne_zero e d
  cases n <;> cases k <;> simp only [mulFV, FV.rat, power] <;> push_cast <;> simp <;> ring

/-! ### The encodings of a format (R68) -/

section
variable {f : Fmt} {x : Nat}

/-- The smallest exponent of a format's encodings. -/
def Fmt.low (f : Fmt) : Int := 1 - f.bias - f.mb

/-- The value of a finite encoding. -/
theorem Fmt.value_of_finite (h : f.isFinite x = true) : f.value x =
    if f.expField x = 0 then .fin (f.sign x) (f.frac x) f.low else .fin (f.sign x) (2 ^ f.mb + f.frac x) ((f.expField x : Int) - f.bias - f.mb) := by
  have exponent : ¬ f.expField x = f.top := by simpa [Fmt.isFinite] using h
  rw [Fmt.value, if_neg (by simp [Fmt.isNaN, exponent]), if_neg (by simp [Fmt.isInf, exponent]), Fmt.low]

theorem Fmt.isFin_of_finite (h : f.isFinite x = true) : (f.value x).IsFin := by
  rw [Fmt.value_of_finite h]
  split <;> exact FV.isFin_fin _ _ _

/-- A finite encoding holds a number of mb + 1 bits, at an exponent that the format has. -/
theorem Fmt.magnitude_of_finite (h : f.isFinite x = true) :
    ∃ (j : Nat) (d : Int), |(f.value x).rat| = j * 2 ^ d ∧ j < 2 ^ (f.mb + 1) ∧ f.low ≤ d := by
  have fraction : f.frac x < 2 ^ f.mb := Nat.mod_lt _ (Nat.two_pow_pos _)
  have double : 2 ^ (f.mb + 1) = 2 * 2 ^ f.mb := Nat.pow_succ'
  have size (n : Bool) (j : Nat) (d : Int) : |(FV.fin n j d).rat| = j * 2 ^ d := by
    rw [← (FV.isFin_fin n j d).abs.2, absFV, FV.rat]
    simp
  rw [Fmt.value_of_finite h]
  split
  · exact ⟨_, _, size _ _ _, by omega, le_rfl⟩
  · refine ⟨_, _, size _ _ _, by omega, ?_⟩
    rw [Fmt.low]
    omega

/-- A sign above a magnitude whose exponent field is not the top one. -/
theorem Fmt.encode_fields {neg : Bool} {bits : Nat} (h : bits < f.top * 2 ^ f.mb) :
    f.signBit neg + bits < 2 ^ f.width ∧ f.sign (f.signBit neg + bits) = neg ∧ f.expField (f.signBit neg + bits) = bits / 2 ^ f.mb ∧
      f.frac (f.signBit neg + bits) = bits % 2 ^ f.mb ∧ f.isFinite (f.signBit neg + bits) = true := by
  have top : bits < 2 ^ (f.eb + f.mb) := by
    rw [Nat.pow_add]
    exact h.trans_le (Nat.mul_le_mul_right _ (Nat.sub_le _ _))
  have exponent : bits / 2 ^ f.mb < f.top := Nat.div_lt_of_lt_mul (by rwa [Nat.mul_comm])
  have field : bits / 2 ^ f.mb < 2 ^ f.eb := exponent.trans_le (Nat.sub_le _ _)
  have width : 2 ^ f.width = 2 * 2 ^ (f.eb + f.mb) := Nat.pow_succ'
  have shift : f.signBit neg = 2 ^ f.mb * (if neg then 2 ^ f.eb else 0) := by
    cases neg
    · exact (Nat.mul_zero _).symm
    · exact (Nat.pow_add 2 f.eb f.mb).trans (Nat.mul_comm _ _)
  have expField : f.expField (f.signBit neg + bits) = bits / 2 ^ f.mb := by
    rw [Fmt.expField, nfield, shift, Nat.mul_add_div (Nat.two_pow_pos _)]
    cases neg
    · simp [Nat.mod_eq_of_lt field]
    · simp [Nat.mod_eq_of_lt field]
  refine ⟨?_, ?_, expField, ?_, ?_⟩
  · rw [width, Fmt.signBit]
    split <;> omega
  · rw [Fmt.sign, nbit, Fmt.signBit]
    cases neg
    · simp [Nat.div_eq_of_lt top]
    · have whole : (2 ^ (f.eb + f.mb) + bits) / 2 ^ (f.eb + f.mb) = 1 := by
        rw [Nat.add_div_left _ (Nat.two_pow_pos _), Nat.div_eq_of_lt top]
      simp [whole]
  · rw [Fmt.frac, nfield, pow_zero, Nat.div_one, shift, Nat.mul_add_mod]
  · rw [Fmt.isFinite, expField, bne_iff_ne]
    exact exponent.ne

end

end Sys2Proof.Machine
end

section
/-! PROOFS.  O32: a finite value rounds to the nearest value of the format in the direction of the mode (R70). -/

namespace Sys2Proof.Machine

/-! ### A magnitude cut to a multiple of 2^q -/

/-- Whether a magnitude that lies above its multiple k of 2^q by a part of 2^q is rounded away from zero. -/
def roundsAway (rm : Rm) (neg : Bool) (k : Nat) (part : ℚ) : Prop :=
  match rm with
  | .rne => 1 / 2 < part ∨ part = 1 / 2 ∧ k % 2 = 1
  | .rtz => False
  | .rdn => neg = true ∧ part ≠ 0
  | .rup => neg = false ∧ part ≠ 0

/-- A magnitude t in units of 2^q, cut to a whole number and rounded; the flag says that it was not whole. -/
structure Cuts (rm : Rm) (neg : Bool) (t : ℚ) (k : Nat) (c : Nat × Bool) : Prop where
  low : (k : ℚ) ≤ t
  high : t < k + 1
  away : roundsAway rm neg k (t - k) → c.1 = k + 1
  stays : ¬ roundsAway rm neg k (t - k) → c.1 = k
  inexact : c.2 = true ↔ t ≠ k

/-- The part that a shift drops, against one half. -/
theorem roundUp_iff (rm : Rm) (neg : Bool) (k rest sh : Nat) (hs : sh ≠ 0) :
    roundUp rm neg (k % 2 == 1) rest (2 ^ (sh - 1)) false = true ↔ roundsAway rm neg k (rest / 2 ^ sh) := by
  have positive : (0 : ℚ) < 2 ^ sh := by positivity
  have double : (2 : ℚ) ^ sh = 2 * 2 ^ (sh - 1) := by rw [← pow_succ', Nat.sub_add_cancel (Nat.one_le_iff_ne_zero.mpr hs)]
  have above : (1 / 2 : ℚ) < rest / 2 ^ sh ↔ 2 ^ (sh - 1) < rest := by
    rw [lt_div_iff₀ positive, double, one_div, inv_mul_cancel_left₀ two_ne_zero]
    exact_mod_cast Iff.rfl
  have half : (rest / 2 ^ sh : ℚ) = 1 / 2 ↔ rest = 2 ^ (sh - 1) := by
    rw [div_eq_iff positive.ne', double, one_div, inv_mul_cancel_left₀ two_ne_zero]
    exact_mod_cast Iff.rfl
  have zero : (rest / 2 ^ sh : ℚ) ≠ 0 ↔ rest ≠ 0 := by
    rw [Ne, div_eq_zero_iff, or_iff_left positive.ne', Nat.cast_eq_zero]
  cases rm with
  | rne =>
    simp only [roundsAway, above, half]
    simp [roundUp]
  | rtz => simp [roundUp, roundsAway]
  | rdn => simp [roundUp, roundsAway, zero]
  | rup => simp [roundUp, roundsAway, zero]

/-- A whole number is not rounded away from zero. -/
theorem not_roundsAway_zero (rm : Rm) (neg : Bool) (k : Nat) : ¬ roundsAway rm neg k 0 := by
  cases rm <;> norm_num [roundsAway]

theorem cutTo_cuts (rm : Rm) (neg : Bool) (m : Nat) (e q : Int) : ∃ k, Cuts rm neg (m * 2 ^ e / 2 ^ q) k (cutTo rm neg m e q false) := by
  have unit : (0 : ℚ) < 2 ^ q := by positivity
  by_cases h : q ≤ e
  · have whole : (m * 2 ^ e / 2 ^ q : ℚ) = (m * 2 ^ (e - q).toNat : Nat) := by
      rw [div_eq_iff unit.ne', ← two_zpow_split h]
      push_cast
      ring
    have cut : cutTo rm neg m e q false = (m * 2 ^ (e - q).toNat, false) := by simp [cutTo, h]
    refine ⟨m * 2 ^ (e - q).toNat, ?_⟩
    rw [whole, cut]
    exact ⟨le_rfl, lt_add_one _, fun a => absurd (sub_self (_ : ℚ) ▸ a) (not_roundsAway_zero rm neg _), fun _ => rfl, by simp⟩
  · obtain ⟨sh, shift⟩ : ∃ sh, sh = (q - e).toNat := ⟨_, rfl⟩
    have positive : (0 : ℚ) < 2 ^ sh := by positivity
    have scaled : (m * 2 ^ e / 2 ^ q : ℚ) = m / 2 ^ sh := by
      rw [div_eq_div_iff unit.ne' positive.ne', shift, ← two_zpow_split (e := q) (q := e) (by omega)]
      ring
    have parts : (m : ℚ) / 2 ^ sh = (m / 2 ^ sh : Nat) + (m % 2 ^ sh : Nat) / 2 ^ sh := by
      rw [div_eq_iff positive.ne', add_mul, div_mul_cancel₀ _ positive.ne']
      exact_mod_cast (Nat.div_add_mod' m (2 ^ sh)).symm
    have small : ((m % 2 ^ sh : Nat) : ℚ) / 2 ^ sh < 1 := by
      rw [div_lt_one positive]
      exact_mod_cast Nat.mod_lt m (Nat.two_pow_pos sh)
    have cut : cutTo rm neg m e q false = (if roundUp rm neg (m / 2 ^ sh % 2 == 1) (m % 2 ^ sh) (2 ^ (sh - 1)) false then m / 2 ^ sh + 1
        else m / 2 ^ sh, decide (m % 2 ^ sh ≠ 0)) := by simp [cutTo, h, shift]
    have away := roundUp_iff rm neg (m / 2 ^ sh) (m % 2 ^ sh) sh (by omega)
    refine ⟨m / 2 ^ sh, ?_⟩
    rw [scaled, cut, parts]
    refine ⟨le_add_of_nonneg_right (by positivity), (add_lt_add_iff_left _).mpr small, fun a => ?_, fun a => ?_, ?_⟩
    · rw [add_sub_cancel_left] at a
      exact if_pos (away.mpr a)
    · rw [add_sub_cancel_left] at a
      exact if_neg (fun t => a (away.mp t))
    · rw [decide_eq_true_iff, Ne, Ne, add_eq_left, div_eq_zero_iff, or_iff_left positive.ne', Nat.cast_eq_zero]

/-- Where a value y of the format can lie about a magnitude t that was cut above k: at a whole number, or below k. -/
def OnGrid (k : Nat) (y : ℚ) : Prop := (∃ j : Nat, y = j) ∨ y < k

section
variable {rm : Rm} {neg : Bool} {t y : ℚ} {k : Nat} {c : Nat × Bool}

theorem Cuts.le_of_le (h : Cuts rm neg t k c) (hy : OnGrid k y) (hle : y ≤ t) : y ≤ k := by
  rcases hy with ⟨j, rfl⟩ | hy
  · have : (j : ℚ) < (k + 1 : Nat) := by push_cast; exact hle.trans_lt h.high
    exact_mod_cast Nat.lt_succ_iff.mp (by exact_mod_cast this)
  · exact hy.le

theorem Cuts.ge_of_ge (h : Cuts rm neg t k c) (hy : OnGrid k y) (hge : t ≤ y) : k + 1 ≤ y ∨ y = k ∧ t = k := by
  rcases hy with ⟨j, rfl⟩ | hy
  · have : (k : ℚ) ≤ j := h.low.trans hge
    rcases Nat.eq_or_lt_of_le (show k ≤ j by exact_mod_cast this) with rfl | hj
    · exact .inr ⟨rfl, le_antisymm hge h.low⟩
    · exact .inl (by exact_mod_cast hj)
  · exact absurd (h.low.trans hge) (not_le.mpr hy)

/-- The rounded number is k or the next. -/
theorem Cuts.cases (h : Cuts rm neg t k c) : (roundsAway rm neg k (t - k) ∧ (c.1 : ℚ) = k + 1) ∨ (¬ roundsAway rm neg k (t - k) ∧ (c.1 : ℚ) = k) := by
  by_cases a : roundsAway rm neg k (t - k)
  · exact .inl ⟨a, by rw [h.away a]; push_cast; rfl⟩
  · exact .inr ⟨a, by rw [h.stays a]⟩

/-- A magnitude that is not rounded away from zero rounds to the greatest value not above it. -/
theorem Cuts.toward (h : Cuts rm neg t k c) (a : ¬ roundsAway rm neg k (t - k)) : (c.1 : ℚ) ≤ t ∧ (OnGrid k y → y ≤ t → y ≤ c.1) := by
  rw [h.stays a]
  exact ⟨h.low, h.le_of_le⟩

/-- A magnitude rounded away from zero unless it is whole rounds to the least value not below it. -/
theorem Cuts.outward (h : Cuts rm neg t k c) (a : t ≠ k → roundsAway rm neg k (t - k)) (hz : t = k → ¬ roundsAway rm neg k (t - k)) :
    t ≤ c.1 ∧ (OnGrid k y → t ≤ y → c.1 ≤ y) := by
  by_cases whole : t = k
  · rw [h.stays (hz whole)]
    exact ⟨whole.le, fun _ hge => whole.ge.trans hge⟩
  · rw [h.away (a whole)]
    push_cast
    exact ⟨h.high.le, fun hy hge => (h.ge_of_ge hy hge).elim id fun e => absurd e.2 whole⟩

/-- Under RNE no value lies nearer, and of two that lie as near the even one is taken. -/
theorem Cuts.nearest (h : Cuts .rne neg t k c) (hy : OnGrid k y) : |(c.1 : ℚ) - t| ≤ |y - t| ∧ (|(c.1 : ℚ) - t| = |y - t| → y ≠ c.1 → c.1 % 2 = 0) := by
  have low := h.low
  have high := h.high
  have parity (hk : k % 2 = 1) : (k + 1) % 2 = 0 := by omega
  rcases h.cases with ⟨a, up⟩ | ⟨a, down⟩
  · have half : 1 / 2 ≤ t - k ∧ (t - k = 1 / 2 → k % 2 = 1) := by
      rcases a with a | ⟨a, odd⟩
      · exact ⟨a.le, fun e => absurd e a.ne'⟩
      · exact ⟨a.ge, fun _ => odd⟩
    have near : |(c.1 : ℚ) - t| = k + 1 - t := by rw [up, abs_of_nonneg (by linarith)]
    rw [near]
    rcases le_total y t with hle | hge
    · have below := h.le_of_le hy hle
      rw [abs_of_nonpos (by linarith)]
      refine ⟨by linarith, fun e _ => ?_⟩
      rw [h.away a]
      exact parity (half.2 (by linarith))
    · rw [abs_of_nonneg (by linarith)]
      rcases h.ge_of_ge hy hge with above | ⟨rfl, e⟩
      · refine ⟨by linarith, fun e hne => absurd ?_ hne⟩
        rw [up]
        linarith
      · linarith
  · have half : t - k ≤ 1 / 2 ∧ (t - k = 1 / 2 → k % 2 = 0) := by
      refine ⟨not_lt.mp fun t => a (.inl t), fun e => ?_⟩
      rcases Nat.mod_two_eq_zero_or_one k with even | odd
      · exact even
      · exact absurd (.inr ⟨e, odd⟩) a
    have near : |(c.1 : ℚ) - t| = t - k := by rw [down, abs_of_nonpos (by linarith)]; ring
    rw [near]
    rcases le_total y t with hle | hge
    · have below := h.le_of_le hy hle
      rw [abs_of_nonpos (by linarith)]
      refine ⟨by linarith, fun e hne => absurd ?_ hne⟩
      rw [down]
      linarith
    · rw [abs_of_nonneg (by linarith)]
      rcases h.ge_of_ge hy hge with above | ⟨rfl, e⟩
      · refine ⟨by linarith, fun e _ => ?_⟩
        rw [h.stays a]
        exact half.2 (by linarith)
      · exact ⟨by linarith, fun _ hne => absurd down.symm hne⟩

end

/-! ### A cut magnitude as an encoding -/

/-- The number alpha in units of 2^q, with a sign. -/
def signedIn (neg : Bool) (q : Int) (α : ℚ) : ℚ := (if neg then -1 else 1) * (α * 2 ^ q)

theorem signedIn_le (neg : Bool) (q : Int) (α β : ℚ) : signedIn neg q α ≤ signedIn neg q β ↔ if neg then β ≤ α else α ≤ β := by
  have positive : (0 : ℚ) < 2 ^ q := by positivity
  cases neg <;> simp [signedIn, mul_le_mul_iff_left₀ positive]

theorem abs_signedIn (neg : Bool) (q : Int) (α : ℚ) : |signedIn neg q α| = |α| * 2 ^ q := by
  have positive : (0 : ℚ) < 2 ^ q := by positivity
  cases neg <;> simp [signedIn, abs_mul, abs_of_pos positive]

theorem signedIn_sub (neg : Bool) (q : Int) (α β : ℚ) : signedIn neg q α - signedIn neg q β = signedIn neg q (α - β) := by
  rw [signedIn, signedIn, signedIn]
  ring

theorem signedIn_inj {neg : Bool} {q : Int} {α β : ℚ} : signedIn neg q α = signedIn neg q β ↔ α = β := by
  have positive : (0 : ℚ) < 2 ^ q := by positivity
  cases neg <;> simp [signedIn, positive.ne']

/-- Every rational is a number of units of 2^q with a given sign. -/
theorem signedIn_div (neg : Bool) (q : Int) (z : ℚ) : signedIn neg q ((if neg then -1 else 1) * (z / 2 ^ q)) = z := by
  have positive : (0 : ℚ) < 2 ^ q := by positivity
  cases neg <;> simp [signedIn, positive.ne']

section
variable {f : Fmt} {neg : Bool}

/-- A magnitude K * 2^q laid out with its exponent: its value, and the parity of its fraction. -/
theorem Fmt.rat_encode {K B : Nat} {q : Int} (place : q = f.low + B) (normal : B ≠ 0 → 2 ^ f.mb ≤ K) (high : K ≤ 2 ^ (f.mb + 1))
    (fits : B * 2 ^ f.mb + K < f.top * 2 ^ f.mb) : (f.value (f.signBit neg + (B * 2 ^ f.mb + K))).rat = signedIn neg q K := by
  obtain ⟨-, sign, exponent, fraction, finite⟩ := Fmt.encode_fields (neg := neg) fits
  have positive := Nat.two_pow_pos f.mb
  have double : 2 ^ (f.mb + 1) = 2 * 2 ^ f.mb := Nat.pow_succ'
  have above : (B * 2 ^ f.mb + K) / 2 ^ f.mb = B + K / 2 ^ f.mb := by rw [Nat.mul_comm, Nat.mul_add_div positive]
  have below : (B * 2 ^ f.mb + K) % 2 ^ f.mb = K % 2 ^ f.mb := by rw [Nat.mul_comm, Nat.mul_add_mod]
  rw [Fmt.value_of_finite finite, sign, exponent, fraction, above, below, signedIn]
  by_cases subnormal : K < 2 ^ f.mb
  · have bottom : B = 0 := by_contra fun h => absurd (normal h) (Nat.not_le.mpr subnormal)
    rw [Nat.div_eq_of_lt subnormal, Nat.mod_eq_of_lt subnormal, bottom, if_pos rfl, FV.rat, place, bottom]
    simp
  · rcases Nat.eq_or_lt_of_le high with full | partial_
    · have quotient : K / 2 ^ f.mb = 2 := by rw [full, double, Nat.mul_div_cancel _ positive]
      have remainder : K % 2 ^ f.mb = 0 := by rw [full, double, Nat.mul_mod_left]
      have exponent : ((B + 2 : Nat) : Int) - f.bias - f.mb = q + 1 := by rw [place, Fmt.low]; push_cast; ring
      rw [quotient, remainder, if_neg (by omega), FV.rat, exponent, full, double, zpow_add₀ two_ne_zero]
      push_cast
      ring
    · have quotient : K / 2 ^ f.mb = 1 := Nat.div_eq_of_lt_le (by omega) (by omega)
      have remainder : 2 ^ f.mb + K % 2 ^ f.mb = K := by
        have := Nat.div_add_mod K (2 ^ f.mb)
        rw [quotient, Nat.mul_one] at this
        exact this
      have exponent : ((B + 1 : Nat) : Int) - f.bias - f.mb = q := by rw [place, Fmt.low]; push_cast; ring
      rw [quotient, if_neg (by omega), remainder, FV.rat, exponent]

/-- The last bit of the fraction is that of the magnitude. -/
theorem Fmt.frac_encode_mod_two {K B : Nat} (hmb : f.mb ≠ 0) (fits : B * 2 ^ f.mb + K < f.top * 2 ^ f.mb) :
    f.frac (f.signBit neg + (B * 2 ^ f.mb + K)) % 2 = K % 2 := by
  obtain ⟨-, -, -, fraction, -⟩ := Fmt.encode_fields (neg := neg) fits
  have even : 2 ∣ 2 ^ f.mb := dvd_pow_self 2 hmb
  rw [fraction, Nat.mod_mod_of_dvd _ even, Nat.add_mod, Nat.mod_eq_zero_of_dvd (even.mul_left B), Nat.zero_add, Nat.mod_mod]

end

/-! ### The one rounding -/

/-- The exponent at which a magnitude is cut (R70). -/
def Fmt.cutExp (f : Fmt) (m : Nat) (e : Int) : Int := max (e + (Nat.log2 m : Int) - f.mb) (1 - f.bias - f.mb)

/-- A rounding with its steps: m * 2^e, cut at 2^q between k and k + 1, and laid out. -/
structure Fmt.RoundsTo (f : Fmt) (rm : Rm) (neg : Bool) (m : Nat) (e : Int) (r : Nat × Flags) (q : Int) (k : Nat) (c : Nat × Bool) : Prop where
  cuts : Cuts rm neg (m * 2 ^ e / 2 ^ q) k c
  width : r.1 < 2 ^ f.width
  finite : f.isFinite r.1 = true
  sign : f.sign r.1 = neg
  value : (f.value r.1).rat = signedIn neg q c.1
  parity : f.frac r.1 % 2 = c.1 % 2
  inexact : r.2.getLsbD 0 = c.2
  grid : ∀ x, f.isFinite x = true → OnGrid k (|(f.value x).rat| / 2 ^ q)

/-- The bounds of a magnitude by its leading bit. -/
theorem magnitude_bounds {m : Nat} (h : m ≠ 0) (e : Int) :
    (2 : ℚ) ^ (e + (Nat.log2 m : Int)) ≤ m * 2 ^ e ∧ (m * 2 ^ e : ℚ) < 2 ^ (e + (Nat.log2 m : Int) + 1) := by
  have positive : (0 : ℚ) < 2 ^ e := by positivity
  have low : ((2 ^ Nat.log2 m : Nat) : ℚ) ≤ m := by exact_mod_cast Nat.log2_self_le h
  have high : (m : ℚ) < (2 ^ (Nat.log2 m + 1) : Nat) := by exact_mod_cast Nat.lt_log2_self
  push_cast at low high
  rw [add_assoc, zpow_add₀ two_ne_zero, zpow_add₀ two_ne_zero, mul_comm ((2 : ℚ) ^ e), mul_comm ((2 : ℚ) ^ e), zpow_natCast]
  exact ⟨mul_le_mul_of_nonneg_right low positive.le, mul_lt_mul_of_pos_right (by exact_mod_cast high) positive⟩

section
variable {f : Fmt} {rm : Rm} {neg : Bool} {m k : Nat} {e : Int} {c : Nat × Bool}

/-- A magnitude is cut to mb + 1 bits, and to no fewer but where the format's exponents end. -/
theorem Cuts.bits (h0 : m ≠ 0) (h : Cuts rm neg (m * 2 ^ e / 2 ^ f.cutExp m e) k c) :
    k < 2 ^ (f.mb + 1) ∧ (f.cutExp m e ≠ f.low → 2 ^ f.mb ≤ k) := by
  obtain ⟨below, above⟩ := magnitude_bounds h0 e
  have positive : (0 : ℚ) < 2 ^ f.cutExp m e := by positivity
  constructor
  · have high : (m * 2 ^ e / 2 ^ f.cutExp m e : ℚ) < 2 ^ (f.mb + 1) := by
      rw [div_lt_iff₀ positive, ← zpow_natCast, ← zpow_add₀ two_ne_zero]
      refine above.trans_le (zpow_le_zpow_right₀ one_le_two ?_)
      rw [Fmt.cutExp]
      push_cast
      omega
    exact_mod_cast h.low.trans_lt high
  · intro off
    have low : (2 : ℚ) ^ f.mb ≤ m * 2 ^ e / 2 ^ f.cutExp m e := by
      rw [le_div_iff₀ positive, ← zpow_natCast, ← zpow_add₀ two_ne_zero]
      refine (zpow_le_zpow_right₀ one_le_two ?_).trans below
      rw [Fmt.cutExp, Fmt.low] at off
      rw [Fmt.cutExp]
      omega
    have : (2 ^ f.mb : ℚ) < k + 1 := low.trans_lt h.high
    exact Nat.lt_succ_iff.mp (by exact_mod_cast this)

/-- Where the values of a format lie about a magnitude that is cut at an exponent of the format. -/
theorem Fmt.onGrid {x : Nat} {q : Int} (hx : f.isFinite x = true) (normal : q ≠ f.low → 2 ^ f.mb ≤ k) :
    OnGrid k (|(f.value x).rat| / 2 ^ q) := by
  obtain ⟨j, d, size, bits, low⟩ := Fmt.magnitude_of_finite hx
  have positive : (0 : ℚ) < 2 ^ q := by positivity
  rw [size]
  by_cases h : q ≤ d
  · refine .inl ⟨j * 2 ^ (d - q).toNat, ?_⟩
    rw [div_eq_iff positive.ne', ← two_zpow_split h]
    push_cast
    ring
  · right
    have whole : (2 ^ f.mb : ℚ) ≤ k := by exact_mod_cast normal (by omega)
    have top : (j : ℚ) < 2 * 2 ^ f.mb := by
      rw [← pow_succ']
      exact_mod_cast bits
    have step : (2 : ℚ) * 2 ^ d ≤ 2 ^ q := by
      rw [← zpow_one_add₀ two_ne_zero]
      exact zpow_le_zpow_right₀ one_le_two (by omega)
    rw [div_lt_iff₀ positive]
    calc (j : ℚ) * 2 ^ d < 2 * 2 ^ f.mb * 2 ^ d := mul_lt_mul_of_pos_right top (by positivity)
      _ = 2 ^ f.mb * (2 * 2 ^ d) := by ring
      _ ≤ 2 ^ f.mb * 2 ^ q := mul_le_mul_of_nonneg_left step (by positivity)
      _ ≤ k * 2 ^ q := mul_le_mul_of_nonneg_right whole positive.le

end

/-- Whether a magnitude is tiny after rounding (R70). -/
def Fmt.isTiny (f : Fmt) (rm : Rm) (neg : Bool) (m : Nat) (e : Int) (sticky : Bool) : Bool :=
  decide (e + (Nat.log2 m : Int) < 1 - f.bias) && !(decide (e + (Nat.log2 m : Int) = 1 - f.bias - 1) &&
    decide (2 ^ (f.mb + 1) ≤ (cutTo rm neg m e (e + (Nat.log2 m : Int) - f.mb) sticky).1))

/-- Whether an overflow gives the infinity of its sign, and not the largest finite value (R70). -/
def Rm.toInfinity (rm : Rm) (neg : Bool) : Bool := if rm = .rne then true else if rm = .rdn then neg else if rm = .rup then !neg else false

/-- A magnitude cut at 2^q as a rounding leaves it: behind its exponent, or past the format's top (R70). -/
def Fmt.laidOut (f : Fmt) (rm : Rm) (neg : Bool) (q : Int) (c : Nat × Bool) (tiny : Bool) : Nat × Flags :=
  if f.top * 2 ^ f.mb ≤ (q - f.low).toNat * 2 ^ f.mb + c.1 then
    (if rm.toInfinity neg then f.inf neg else f.maxFin neg, Flags.of ||| Flags.nx)
  else (f.signBit neg + ((q - f.low).toNat * 2 ^ f.mb + c.1), (if c.2 then Flags.nx else 0) ||| (if c.2 && tiny then Flags.uf else 0))

theorem roundFin_eq {f : Fmt} {rm : Rm} {neg : Bool} {m : Nat} {e : Int} {sticky : Bool} (h : ¬ (m = 0 ∧ sticky = false)) :
    roundFin f rm neg m e sticky =
      f.laidOut rm neg (f.cutExp m e) (cutTo rm neg m e (f.cutExp m e) sticky) (f.isTiny rm neg m e sticky) := by
  have place : f.cutExp m e - f.low = f.cutExp m e + f.mb + f.bias - 1 := by rw [Fmt.low]; ring
  rw [roundFin.eq_def, if_neg h, Fmt.laidOut.eq_def, place, Fmt.cutExp, Fmt.isTiny]
  dsimp only
  cases cutTo rm neg m e (max (e + (Nat.log2 m : Int) - f.mb) (1 - f.bias - f.mb)) sticky
  cases rm <;> rfl

theorem overflow_flag : (Flags.of ||| Flags.nx).getLsbD 2 = true := by decide

theorem inexact_flag : ∀ inexact tiny : Bool,
    ((if inexact then Flags.nx else 0) ||| (if inexact && tiny then Flags.uf else 0)).getLsbD 0 = inexact := by decide

theorem Fmt.laidOut_of_fits {f : Fmt} {rm : Rm} {neg : Bool} {q : Int} {c : Nat × Bool} {tiny : Bool}
    (fits : (f.laidOut rm neg q c tiny).2.getLsbD 2 = false) :
    (q - f.low).toNat * 2 ^ f.mb + c.1 < f.top * 2 ^ f.mb ∧
      (f.laidOut rm neg q c tiny).1 = f.signBit neg + ((q - f.low).toNat * 2 ^ f.mb + c.1) ∧ (f.laidOut rm neg q c tiny).2.getLsbD 0 = c.2 := by
  by_cases high : f.top * 2 ^ f.mb ≤ (q - f.low).toNat * 2 ^ f.mb + c.1
  · rw [Fmt.laidOut.eq_def, if_pos high] at fits
    exact absurd (overflow_flag.symm.trans fits) (by decide)
  · rw [Fmt.laidOut.eq_def, if_neg high]
    exact ⟨not_le.mp high, rfl, inexact_flag c.2 tiny⟩

/-- Every rounding without overflow is a cut at an exponent of the format (R70). -/
theorem roundFin_roundsTo {f : Fmt} {rm : Rm} {neg : Bool} {m : Nat} {e : Int} (hmb : f.mb ≠ 0) (htop : 0 < f.top)
    (fits : (roundFin f rm neg m e false).2.getLsbD 2 = false) :
    ∃ q k c, f.RoundsTo rm neg m e (roundFin f rm neg m e false) q k c := by
  by_cases h0 : m = 0
  · have zero : roundFin f rm neg m e false = (f.signBit neg + (0 * 2 ^ f.mb + 0), 0) := by
      rw [roundFin.eq_def, if_pos ⟨h0, rfl⟩, Nat.zero_mul]
      rfl
    have inside : 0 * 2 ^ f.mb + 0 < f.top * 2 ^ f.mb := by
      rw [Nat.zero_mul]
      exact Nat.mul_pos htop (Nat.two_pow_pos _)
    obtain ⟨width, sign, -, -, finite⟩ := Fmt.encode_fields (neg := neg) inside
    refine ⟨f.low, 0, (0, false), ?_⟩
    rw [zero]
    refine ⟨?_, width, finite, sign, Fmt.rat_encode (by simp) (fun h => absurd rfl h) (Nat.zero_le _) inside, Fmt.frac_encode_mod_two hmb inside, by simp,
      fun x hx => Fmt.onGrid hx (fun h => absurd rfl h)⟩
    rw [h0]
    simp only [Nat.cast_zero, zero_mul, zero_div]
    exact ⟨by simp, by simp, fun a => absurd (by simpa using a) (not_roundsAway_zero rm neg 0), fun _ => rfl, by simp⟩
  · have rounded := roundFin_eq (f := f) (rm := rm) (neg := neg) (e := e) (sticky := false) fun h => h0 h.1
    rw [rounded] at fits
    obtain ⟨inside, laid, inexact⟩ := Fmt.laidOut_of_fits fits
    obtain ⟨k, cuts⟩ := cutTo_cuts rm neg m e (f.cutExp m e)
    obtain ⟨high, normal⟩ := cuts.bits h0
    have exponent : f.low ≤ f.cutExp m e := le_max_right _ _
    have carried : k ≤ (cutTo rm neg m e (f.cutExp m e) false).1 ∧ (cutTo rm neg m e (f.cutExp m e) false).1 ≤ k + 1 := by
      by_cases a : roundsAway rm neg k (m * 2 ^ e / 2 ^ f.cutExp m e - k)
      · rw [cuts.away a]
        omega
      · rw [cuts.stays a]
        omega
    obtain ⟨width, sign, -, -, finite⟩ := Fmt.encode_fields (neg := neg) inside
    have value := Fmt.rat_encode (neg := neg) (q := f.cutExp m e) (by omega) (fun h => (normal (by omega)).trans carried.1) (by omega) inside
    have parity := Fmt.frac_encode_mod_two (neg := neg) hmb inside
    rw [← laid, ← rounded] at width sign finite value parity
    rw [← rounded] at inexact
    exact ⟨_, _, _, cuts, width, finite, sign, value, parity, inexact, fun x hx => Fmt.onGrid hx normal⟩

/-! ### The value that a rounding leaves -/

section
variable {f : Fmt} {rm : Rm} {neg : Bool} {m k : Nat} {e q : Int} {r : Nat × Flags} {c : Nat × Bool}

/-- A value in units of 2^q lies on the grid with either sign. -/
theorem OnGrid.signed {z : ℚ} (h : OnGrid k (|z| / 2 ^ q)) : OnGrid k ((if neg then -1 else 1) * (z / 2 ^ q)) := by
  have positive : (0 : ℚ) < 2 ^ q := by positivity
  obtain ⟨y, scaled⟩ : ∃ y, y = (if neg then -1 else 1) * (z / 2 ^ q) := ⟨_, rfl⟩
  have size : |z| / 2 ^ q = |y| := by
    rw [scaled, abs_mul, abs_div, abs_of_pos positive]
    cases neg <;> simp
  rw [size] at h
  rw [← scaled]
  rcases abs_choice y with e | e
  · rwa [e] at h
  · rcases eq_or_ne y 0 with rfl | hy
    · exact .inl ⟨0, by simp⟩
    · have : y < 0 := lt_of_le_of_ne (neg_nonneg.mp (e ▸ abs_nonneg y)) hy
      exact .inr (this.trans_le (Nat.cast_nonneg k))

theorem rat_eq_signedIn (neg : Bool) (m : Nat) (e q : Int) : (FV.fin neg m e).rat = signedIn neg q (m * 2 ^ e / 2 ^ q) := by
  rw [signedIn, div_mul_cancel₀ _ (by positivity), FV.rat]

theorem Fmt.RoundsTo.exact_iff (h : f.RoundsTo rm neg m e r q k c) : r.2.getLsbD 0 = false ↔ cmpFV (f.value r.1) (.fin neg m e) = 0 := by
  rw [cmpFV_eq_iff (Fmt.isFin_of_finite h.finite) (FV.isFin_fin _ _ _), h.value, rat_eq_signedIn neg m e q, signedIn_inj, h.inexact, Bool.eq_false_iff,
    Ne, h.cuts.inexact, not_not]
  constructor
  · intro whole
    have stays := h.cuts.stays
    rw [whole, sub_self] at stays
    rw [stays (not_roundsAway_zero rm neg k), whole]
  · intro same
    rcases h.cuts.cases with ⟨-, up⟩ | ⟨-, down⟩
    · exact absurd (up.symm.trans same) h.cuts.high.ne'
    · exact same.symm.trans down

/-- A directed rounding, by whether the mode takes a magnitude of this sign away from zero: the nearest value of the format on
its side (R70). -/
theorem Fmt.RoundsTo.directed (h : f.RoundsTo rm neg m e r q k c) {x : Nat} (hx : f.isFinite x = true) :
    ((∀ t, ¬ roundsAway rm neg k t) → (if neg then (FV.fin neg m e).rat ≤ (f.value r.1).rat else (f.value r.1).rat ≤ (FV.fin neg m e).rat) ∧
      (if neg then (FV.fin neg m e).rat ≤ (f.value x).rat → (f.value r.1).rat ≤ (f.value x).rat
        else (f.value x).rat ≤ (FV.fin neg m e).rat → (f.value x).rat ≤ (f.value r.1).rat)) ∧
    ((∀ t, t ≠ 0 → roundsAway rm neg k t) → (if neg then (f.value r.1).rat ≤ (FV.fin neg m e).rat else (FV.fin neg m e).rat ≤ (f.value r.1).rat) ∧
      (if neg then (f.value x).rat ≤ (FV.fin neg m e).rat → (f.value x).rat ≤ (f.value r.1).rat
        else (FV.fin neg m e).rat ≤ (f.value x).rat → (f.value r.1).rat ≤ (f.value x).rat)) := by
  have grid := (h.grid x hx).signed (neg := neg)
  rw [← signedIn_div neg q (f.value x).rat, h.value, rat_eq_signedIn neg m e q]
  simp only [signedIn_le]
  refine ⟨fun a => ?_, fun a => ?_⟩
  · obtain ⟨below, greatest⟩ := h.cuts.toward (y := (if neg then -1 else 1) * ((f.value x).rat / 2 ^ q)) (a _)
    cases neg <;> exact ⟨below, greatest grid⟩
  · obtain ⟨above, least⟩ := h.cuts.outward (y := (if neg then -1 else 1) * ((f.value x).rat / 2 ^ q)) (fun t => a _ (sub_ne_zero.mpr t))
      (fun t => by rw [t, sub_self]; exact not_roundsAway_zero rm neg k)
    cases neg <;> exact ⟨above, least grid⟩

end

section
variable {f : Fmt} {rm : Rm} {neg : Bool} {m k : Nat} {e q : Int} {r : Nat × Flags} {c : Nat × Bool}

/-- Under RTZ a rounding is the greatest magnitude of the format that is not above the value (R70). -/
theorem Fmt.RoundsTo.truncated (h : f.RoundsTo .rtz neg m e r q k c) {x : Nat} (hx : f.isFinite x = true) :
    |(f.value r.1).rat| ≤ |(FV.fin neg m e).rat| ∧ (|(f.value x).rat| ≤ |(FV.fin neg m e).rat| → |(f.value x).rat| ≤ |(f.value r.1).rat|) := by
  have positive : (0 : ℚ) < 2 ^ q := by positivity
  have magnitude : (0 : ℚ) ≤ m * 2 ^ e / 2 ^ q := by positivity
  obtain ⟨below, greatest⟩ := h.cuts.toward (y := |(f.value x).rat| / 2 ^ q) (fun a => a.elim)
  rw [h.value, rat_eq_signedIn neg m e q, abs_signedIn, abs_signedIn, mul_le_mul_iff_left₀ positive, abs_of_nonneg magnitude, Nat.abs_cast,
    ← div_le_iff₀ positive, ← div_le_iff₀ positive]
  exact ⟨below, greatest (h.grid x hx)⟩

/-- Under RNE no value of the format lies nearer, and of two that lie as near the one of even fraction is taken (R70). -/
theorem Fmt.RoundsTo.nearest (h : f.RoundsTo .rne neg m e r q k c) {x : Nat} (hx : f.isFinite x = true) :
    |(f.value r.1).rat - (FV.fin neg m e).rat| ≤ |(f.value x).rat - (FV.fin neg m e).rat| ∧
      (|(f.value r.1).rat - (FV.fin neg m e).rat| = |(f.value x).rat - (FV.fin neg m e).rat| → (f.value x).rat ≠ (f.value r.1).rat →
        f.frac r.1 % 2 = 0) := by
  have positive : (0 : ℚ) < 2 ^ q := by positivity
  rw [← signedIn_div neg q (f.value x).rat, h.value, rat_eq_signedIn neg m e q, signedIn_sub, signedIn_sub, abs_signedIn, abs_signedIn,
    mul_le_mul_iff_left₀ positive, mul_left_inj' positive.ne', Ne, signedIn_inj, h.parity]
  exact h.cuts.nearest ((h.grid x hx).signed (neg := neg))

end

/-! ### A number that is said to lie above another -/

section
variable {rm : Rm} {neg : Bool} {m k : Nat} {e d q : Int}

/-- A dropped part with something below it, against one half. -/
theorem roundUp_sticky {odd : Bool} {rest half unit low : Nat} (hl : 0 < low) (hu : low < unit) :
    roundUp rm neg odd rest half true = roundUp rm neg odd (low + unit * rest) (unit * half) false := by
  have apart : low + unit * rest ≠ unit * half := by
    intro same
    have := congrArg (· % unit) same
    simp only [Nat.add_mul_mod_self_left, Nat.mul_mod_right, Nat.mod_eq_of_lt hu] at this
    omega
  have above : unit * half < low + unit * rest ↔ half ≤ rest := by
    constructor
    · intro h
      by_contra beyond
      have : unit * (rest + 1) ≤ unit * half := Nat.mul_le_mul_left _ (by omega)
      rw [Nat.mul_succ] at this
      omega
    · intro h
      have : unit * half ≤ unit * rest := Nat.mul_le_mul_left _ h
      omega
  cases rm with
  | rne =>
    simp only [roundUp, above, apart]
    rcases lt_trichotomy half rest with h | h | h
    · simp [h, h.le]
    · simp [h]
    · simp [h.not_gt, h.not_ge, h.ne]
  | rtz => rfl
  | rdn => simp [roundUp, hl.ne']
  | rup => simp [roundUp, hl.ne']

/-- Above m * 2^e and below the next, by the smaller exponent: the quotient and what is left of it. -/
theorem between_parts {N : Nat} (low : m * 2 ^ N < k) (high : k < (m + 1) * 2 ^ N) : k / 2 ^ N = m ∧ 0 < k % 2 ^ N := by
  have whole : k / 2 ^ N = m := Nat.div_eq_of_lt_le low.le high
  have parts := Nat.div_add_mod' k (2 ^ N)
  rw [whole] at parts
  exact ⟨whole, by omega⟩

/-- A cut above the exponent of a number sees of what lies above it only that it is there. -/
theorem cutTo_sticky (hde : d ≤ e) (hq : e < q) (low : m * 2 ^ (e - d).toNat < k) (high : k < (m + 1) * 2 ^ (e - d).toNat) :
    cutTo rm neg m e q true = cutTo rm neg k d q false := by
  obtain ⟨N, shift⟩ : ∃ N, N = (e - d).toNat := ⟨_, rfl⟩
  obtain ⟨sh, drop⟩ : ∃ sh, sh = (q - e).toNat := ⟨_, rfl⟩
  rw [← shift] at low high
  obtain ⟨whole, rest⟩ := between_parts low high
  have total : (q - d).toNat = N + sh := by omega
  have half : N + sh - 1 = N + (sh - 1) := by omega
  have quotient : k / 2 ^ (N + sh) = m / 2 ^ sh := by rw [Nat.pow_add, ← Nat.div_div_eq_div_mul, whole]
  have remainder : k % 2 ^ (N + sh) = k % 2 ^ N + 2 ^ N * (m % 2 ^ sh) := by rw [Nat.pow_add, Nat.mod_mul, whole]
  have nonzero : k % 2 ^ N + 2 ^ N * (m % 2 ^ sh) ≠ 0 := by omega
  rw [cutTo.eq_def, cutTo.eq_def, if_neg (by omega), if_neg (by omega), total, ← drop]
  dsimp only
  rw [quotient, remainder, half, Nat.pow_add, Bool.or_true, Bool.or_false, decide_eq_true nonzero,
    roundUp_sticky rest (Nat.mod_lt _ (Nat.two_pow_pos N))]

/-- Both have their leading bit at one place. -/
theorem log2_between (h0 : m ≠ 0) (hde : d ≤ e) (low : m * 2 ^ (e - d).toNat < k) (high : k < (m + 1) * 2 ^ (e - d).toNat) :
    d + (Nat.log2 k : Int) = e + (Nat.log2 m : Int) := by
  have above : 2 ^ (Nat.log2 m + (e - d).toNat) ≤ k := by
    rw [Nat.pow_add]
    exact (Nat.mul_le_mul_right _ (Nat.log2_self_le h0)).trans low.le
  have below : k < 2 ^ (Nat.log2 m + (e - d).toNat + 1) := by
    rw [Nat.add_right_comm, Nat.pow_add]
    exact high.trans_le (Nat.mul_le_mul_right _ Nat.lt_log2_self)
  have place : Nat.log2 k = Nat.log2 m + (e - d).toNat := (Nat.log2_eq_iff (by omega)).mpr ⟨above, below⟩
  rw [place]
  push_cast
  omega

/-- A number of two bits more than the format, said to lie below the exact value, rounds as any number between it and the next. -/
theorem roundFin_sticky {f : Fmt} (wide : 2 ^ (f.mb + 2) ≤ m) (hde : d ≤ e) (low : m * 2 ^ (e - d).toNat < k) (high : k < (m + 1) * 2 ^ (e - d).toNat) :
    roundFin f rm neg m e true = roundFin f rm neg k d false := by
  have h0 : m ≠ 0 := by
    have := Nat.two_pow_pos (f.mb + 2)
    omega
  have bits : f.mb + 2 ≤ Nat.log2 m := (Nat.le_log2 h0).mpr wide
  have place := log2_between h0 hde low high
  have exponent : f.cutExp k d = f.cutExp m e := by rw [Fmt.cutExp, Fmt.cutExp, place]
  have above : e < f.cutExp m e := lt_of_lt_of_le (by omega) (le_max_left _ _)
  rw [roundFin_eq (by simp), roundFin_eq (by omega), exponent, Fmt.isTiny, Fmt.isTiny, place, cutTo_sticky hde above low high,
    cutTo_sticky hde (by omega) low high]

end

/-- The formats of R68 hold a fraction, and an exponent that is not the top one. -/
theorem Fmt.has_values {f : Fmt} (h : f ∈ [f64, f32, bf16, e5m2, ⟨5, 3, 7⟩]) : f.mb ≠ 0 ∧ 0 < f.top := by
  simp only [List.mem_cons, List.not_mem_nil, or_false] at h
  rcases h with rfl | rfl | rfl | rfl | rfl <;> decide

/-- Settles O32: a rounding without overflow is a magnitude cut between two neighbours of the format. -/
theorem roundedOnce : Obligations.RoundedOnce := by
  unfold Obligations.RoundedOnce
  intro f rm neg m e hf v r fl le
  obtain ⟨hmb, htop⟩ := Fmt.has_values hf
  refine ⟨fun k d wide hde low high => roundFin_sticky wide hde low high, fun fits => ?_⟩
  obtain ⟨q, k, c, h⟩ := roundFin_roundsTo hmb htop fits
  have finite : (f.value r).IsFin := Fmt.isFin_of_finite h.finite
  have exact_ : v.IsFin := FV.isFin_fin neg m e
  refine ⟨h.width, h.finite, fun _ => h.sign, h.exact_iff, fun x _ hx => ?_⟩
  have other := Fmt.isFin_of_finite hx
  obtain ⟨toward, outward⟩ := h.directed hx
  simp only [le]
  refine ⟨?_, ?_, ?_, ?_⟩
  · rintro rfl
    rw [cmpFV_le_iff finite exact_, cmpFV_le_iff other exact_, cmpFV_le_iff other finite]
    cases neg
    · exact toward fun t a => absurd a.1 (by decide)
    · exact outward fun t ht => ⟨rfl, ht⟩
  · rintro rfl
    rw [cmpFV_le_iff exact_ finite, cmpFV_le_iff exact_ other, cmpFV_le_iff finite other]
    cases neg
    · exact outward fun t ht => ⟨rfl, ht⟩
    · exact toward fun t a => absurd a.1 (by decide)
  · rintro rfl
    rw [cmpFV_le_iff finite.abs.1 exact_.abs.1, cmpFV_le_iff other.abs.1 exact_.abs.1, cmpFV_le_iff other.abs.1 finite.abs.1, finite.abs.2, exact_.abs.2,
      other.abs.2]
    exact h.truncated hx
  · rintro rfl
    obtain ⟨nearR, distR⟩ := finite.dist exact_
    obtain ⟨nearX, distX⟩ := other.dist exact_
    rw [cmpFV_le_iff nearR nearX, cmpFV_eq_iff nearR nearX, Ne, cmpFV_eq_iff other finite, distR, distX]
    exact h.nearest hx

end Sys2Proof.Machine
end

section
/-! PROOFS.  Results of a floating-point format written to a register, and the last steps of R259. -/

namespace Sys2Proof.Machine

theorem fmtStep_eq (f : BitVec 3) : fmtStep f = 1 ∨ fmtStep f = 2 := by
  unfold fmtStep
  split <;> simp

/-- The elements of a format lie within the four lanes of a register. -/
theorem fmtLanes_mul_fmtStep (f : BitVec 3) : fmtLanes f * fmtStep f ≤ 4 := by
  revert f
  decide

/-- Lane l of an element that holds the number v. -/
theorem fmtLane_const (f : BitVec 3) (v l : Nat) :
    fmtLane f (fun _ => v) l = if fmtDouble f then BitVec.ofNat 32 (v / 2 ^ (32 * (l % 2))) else BitVec.ofNat 32 v := by
  unfold fmtLane
  split <;> rfl

/-- A lane holds a part of its own element. -/
theorem fmtLane_step (f : BitVec 3) (v : Nat → Nat) (l : Nat) : fmtLane f v l = fmtLane f (fun _ => v (l / fmtStep f)) l := by
  rw [fmtLane, fmtLane, fmtStep]
  by_cases h : fmtDouble f = true
  · rw [if_pos h, if_pos h, if_pos h]
  · rw [if_neg h, if_neg h, if_neg h, Nat.div_one]

/-- An element of a register is its lanes l with l / step = k. -/
theorem Slot.lane_setElem (x : Slot) (f : BitVec 3) (r q : BitVec 4) (k v l : Nat) (t : Tag) (hk : (k + 1) * fmtStep f ≤ 4) :
    (x.setElem f r k v t).lane q l = if q = r ∧ l % 4 / fmtStep f = k then fmtLane f (fun _ => v) (l % 4) else x.lane q l := by
  rw [fmtLane_const, Slot.setElem]
  have := Nat.mod_lt l (show 0 < 4 by decide)
  by_cases h : fmtDouble f = true
  · have step : fmtStep f = 2 := if_pos h
    rw [step] at hk
    have low : lowW (BitVec.ofNat 64 v) = BitVec.ofNat 32 v := BitVec.eq_of_toNat_eq (by simp [lowW])
    have high : highW (BitVec.ofNat 64 v) = BitVec.ofNat 32 (v / 2 ^ 32) := BitVec.eq_of_toNat_eq (by
      simp only [highW, BitVec.truncate_eq_setWidth, BitVec.toNat_setWidth, BitVec.toNat_ushiftRight, BitVec.toNat_ofNat, Nat.shiftRight_eq_div_pow]
      omega)
    rw [if_pos h, if_pos h, step, Slot.setDouble, Slot.lane_setLane, Slot.lane_setLane, low, high]
    by_cases odd : l % 4 % 2 = 1
    · rw [odd, if_congr (and_congr_right' (show l % 4 = (2 * k + 1) % 4 ↔ l % 4 / 2 = k by omega)) rfl rfl,
        if_neg (c := q = r ∧ l % 4 = 2 * k % 4) (fun e => by omega), Nat.mul_one]
    · rw [show l % 4 % 2 = 0 by omega, if_neg (c := q = r ∧ l % 4 = (2 * k + 1) % 4) (fun e => by omega),
        if_congr (and_congr_right' (show l % 4 = 2 * k % 4 ↔ l % 4 / 2 = k by omega)) rfl rfl, Nat.mul_zero, pow_zero, Nat.div_one]
  · have step : fmtStep f = 1 := if_neg h
    rw [step] at hk
    rw [if_neg h, if_neg h, step, Slot.lane_setLane, Nat.div_one, Nat.mod_eq_of_lt (show k < 4 by omega)]

theorem Slot.tag_setElem (x : Slot) (f : BitVec 3) (r q : BitVec 4) (k v l : Nat) (t : Tag) (hk : (k + 1) * fmtStep f ≤ 4) :
    (x.setElem f r k v t).tag q l = if q = r ∧ l % 4 / fmtStep f = k then t else x.tag q l := by
  rw [Slot.setElem]
  have := Nat.mod_lt l (show 0 < 4 by decide)
  by_cases h : fmtDouble f = true
  · have step : fmtStep f = 2 := if_pos h
    rw [step] at hk
    rw [if_pos h, step, Slot.setDouble, Slot.tag_setLane, Slot.tag_setLane]
    by_cases odd : l % 4 % 2 = 1
    · rw [if_congr (and_congr_right' (show l % 4 = (2 * k + 1) % 4 ↔ l % 4 / 2 = k by omega)) rfl rfl,
        if_neg (c := q = r ∧ l % 4 = 2 * k % 4) (fun e => by omega)]
    · rw [if_neg (c := q = r ∧ l % 4 = (2 * k + 1) % 4) (fun e => by omega),
        if_congr (and_congr_right' (show l % 4 = 2 * k % 4 ↔ l % 4 / 2 = k by omega)) rfl rfl]
  · have step : fmtStep f = 1 := if_neg h
    rw [step] at hk
    rw [if_neg h, step, Slot.tag_setLane, Nat.div_one, Nat.mod_eq_of_lt (show k < 4 by omega)]

theorem Slot.OnlyLanes.setElem {x y : Slot} (h : x.OnlyLanes y) (f : BitVec 3) (r : BitVec 4) (k v : Nat) (t : Tag) :
    x.OnlyLanes (y.setElem f r k v t) := by
  unfold Slot.setElem
  split
  · exact (h.setLane ..).setLane ..
  · exact h.setLane ..

/-- The first n elements of a register written, one after another. -/
def Slot.writeElems (x : Slot) (f : BitVec 3) (r : BitVec 4) (v : Nat → Nat) (t : Nat → Tag) (n : Nat) : Slot :=
  (List.range n).foldl (fun y k => y.setElem f r k (v k) (t k)) x

section
variable (x : Slot) (f : BitVec 3) (r : BitVec 4) (v : Nat → Nat) (t : Nat → Tag) (n : Nat)

theorem Slot.writeElems_succ : x.writeElems f r v t (n + 1) = (x.writeElems f r v t n).setElem f r n (v n) (t n) := by
  rw [Slot.writeElems, List.range_succ, List.foldl_append]
  rfl

theorem Slot.setElems_append (k : Nat) (es : List Elem) (e : Elem) :
    x.setElems f r k (es ++ [e]) = (x.setElems f r k es).setElem f r (k + es.length) e.val e.tag := by
  induction es generalizing x k with
  | nil => rfl
  | cons e' es ih =>
    change (x.setElem f r k e'.val e'.tag).setElems f r (k + 1) (es ++ [e]) = _
    rw [ih, List.length_cons, Nat.add_right_comm, Nat.add_assoc]
    rfl

theorem Slot.setElems_eq_writeElems (g : Nat → Elem) :
    x.setElems f r 0 ((List.range n).map g) = x.writeElems f r (fun k => (g k).val) (fun k => (g k).tag) n := by
  induction n with
  | zero => rfl
  | succ n ih => rw [List.range_succ, List.map_append, List.map_singleton, Slot.setElems_append, ih, List.length_map, List.length_range, Nat.zero_add,
      Slot.writeElems_succ]

theorem Slot.onlyLanes_writeElems : x.OnlyLanes (x.writeElems f r v t n) := by
  induction n with
  | zero => exact x.onlyLanes_refl
  | succ n ih =>
    rw [Slot.writeElems_succ]
    exact ih.setElem ..

variable {n} (hn : n * fmtStep f ≤ 4)
include hn

theorem Slot.lane_writeElems (q : BitVec 4) (l : Nat) :
    (x.writeElems f r v t n).lane q l = if q = r ∧ l % 4 / fmtStep f < n then fmtLane f v (l % 4) else x.lane q l := by
  induction n with
  | zero => exact (if_neg (fun h => absurd h.2 (Nat.not_lt_zero _))).symm
  | succ n ih =>
    have before := ih (le_trans (Nat.mul_le_mul_right _ (Nat.le_succ n)) hn)
    rw [Slot.writeElems_succ, Slot.lane_setElem _ _ _ _ _ _ _ _ hn, before, fmtLane_step f v]
    rcases Nat.lt_trichotomy (l % 4 / fmtStep f) n with h | h | h
    · simp [h, h.ne, Nat.lt_succ_of_lt h]
    · simp [h]
    · simp [h.ne', h.not_gt, show ¬ l % 4 / fmtStep f < n + 1 by omega]

theorem Slot.tag_writeElems (q : BitVec 4) (l : Nat) :
    (x.writeElems f r v t n).tag q l = if q = r ∧ l % 4 / fmtStep f < n then t (l % 4 / fmtStep f) else x.tag q l := by
  induction n with
  | zero => exact (if_neg (fun h => absurd h.2 (Nat.not_lt_zero _))).symm
  | succ n ih =>
    have before := ih (le_trans (Nat.mul_le_mul_right _ (Nat.le_succ n)) hn)
    rw [Slot.writeElems_succ, Slot.tag_setElem _ _ _ _ _ _ _ _ hn, before]
    rcases Nat.lt_trichotomy (l % 4 / fmtStep f) n with h | h | h
    · simp [h, h.ne, Nat.lt_succ_of_lt h]
    · simp [h]
    · simp [h.ne', h.not_gt, show ¬ l % 4 / fmtStep f < n + 1 by omega]

/-- The writes leave a register's elements as WroteV says. -/
theorem Slot.wroteV_writeElems : x.WroteV (x.writeElems f r v t n).next r (fun l => if l / fmtStep f < n then fmtLane f v l else x.lane r l)
    (fun l => if l / fmtStep f < n then t (l / fmtStep f) else x.tag r l) := by
  have only := x.onlyLanes_writeElems f r v t n
  refine ⟨fun q l => ?_, fun q l => ?_, only.sameG, only.pw, only.csr⟩
  · rw [Slot.lane_next, Slot.lane_writeElems x f r v t hn]
    by_cases h : q = r
    · subst h
      have lane : x.lane q (l % 4) = x.lane q l := by rw [Slot.lane, Slot.lane, Nat.mod_mod]
      simp [lane]
    · simp [h]
  · rw [Slot.tag_next, Slot.tag_writeElems x f r v t hn]
    by_cases h : q = r
    · subst h
      have tag : x.tag q (l % 4) = x.tag q l := by rw [Slot.tag, Slot.tag, Nat.mod_mod]
      simp [tag]
    · simp [h]

end

/-! ### The last steps of R259 -/

/-- An element that holds a result of a format, with its flags and a tag. -/
structure Elem.Holds (e : Elem) (F : Fmt) (r : Nat × Flags) (t : Tag) : Prop where
  val : e.val = r.1
  fl : e.fl = r.2
  tag : e.tag = t
  finite : e.finite = F.isFinite r.1

theorem firstBelow_eq_none {c : BitVec 7} {st i : Nat} {es : List Elem} (h : ∀ e ∈ es, (e.finite && belowFloor c e.tag) = false) :
    firstBelow c st i es = none := by
  induction es generalizing i with
  | nil => rfl
  | cons e es ih =>
    rw [firstBelow, h e List.mem_cons_self, if_neg Bool.false_ne_true]
    exact ih fun e' he => h e' (List.mem_cons_of_mem _ he)

theorem firstBelow_eq_some {c : BitVec 7} {st i k n : Nat} {g : Nat → Elem} (hk : k < n) (low : ((g k).finite && belowFloor c (g k).tag) = true)
    (before : ∀ j, j < k → ((g j).finite && belowFloor c (g j).tag) = false) :
    firstBelow c st i ((List.range n).map g) = some (i + st * k, g k) := by
  induction n generalizing i k g with
  | zero => exact absurd hk (Nat.not_lt_zero k)
  | succ n ih =>
    rw [List.range_succ_eq_map, List.map_cons, List.map_map, firstBelow]
    cases k with
    | zero => rw [if_pos low, Nat.mul_zero, Nat.add_zero]
    | succ k =>
      rw [before 0 (Nat.succ_pos k), if_neg Bool.false_ne_true, ih (g := g ∘ Nat.succ) (Nat.lt_of_succ_lt_succ hk) low
        fun j hj => before (j + 1) (Nat.succ_lt_succ hj), Nat.mul_succ, Nat.add_assoc, Nat.add_comm st]
      rfl

theorem unionFlags_map {g : Nat → Elem} {r : Nat → Flags} {n : Nat} (h : ∀ k, k < n → (g k).fl = r k) :
    unionFlags ((List.range n).map g) = (List.range n).foldl (fun f k => f ||| r k) 0 := by
  rw [unionFlags, List.foldl_map]
  exact List.foldl_ext _ _ _ fun f k hk => congrArg (f ||| ·) (h k (List.mem_range.mp hk))

theorem dbl_flags (f : Flags) : dbl f.toNat = f.zeroExtend 64 := BitVec.eq_of_toNat_eq (by simp [dbl])

theorem Slot.accrue_eq_flagged (x : Slot) (f : Flags) : x.accrue f = x.flagged f := by
  rw [Slot.accrue, accrue_eq, Slot.flagged]

theorem Slot.kept_flagged (x : Slot) (f : Flags) : x.Kept (x.flagged f) := by
  constructor <;> rfl

section
variable {s : State} {fmt step : Nat} {es checked : List Elem} {write : Slot → Slot}

theorem State.finishFp_traps (h : trapsOn s.me.csr.fpctl (unionFlags es) = true) :
    s.finishFp fmt step es checked write = (s.setMe (s.me.flagged (unionFlags es))).trapAt s.cur .fpexc ((unionFlags es).zeroExtend 64) := by
  rw [State.finishFp, if_pos h, State.raise, dbl_flags, Slot.accrue_eq_flagged]
  rfl

theorem State.finishFp_below {lane : Nat} {e : Elem} (h : trapsOn s.me.csr.fpctl (unionFlags es) = false)
    (hl : firstBelow s.me.csr.sigfloor step 0 checked = some (lane, e)) :
    s.finishFp fmt step es checked write = (s.setMe (s.me.flagged (unionFlags es))).trapWith s.cur
      { cause := .sigfloor, value := 0, sigtrap := some (sigtrapWord e fmt lane) } := by
  rw [State.finishFp, if_neg (by rw [h]; exact Bool.false_ne_true), Slot.accrue_eq_flagged]
  change (match firstBelow s.me.csr.sigfloor step 0 checked with | some (lane, e') => _ | none => _) = _
  rw [hl]

theorem State.finishFp_writes (h : trapsOn s.me.csr.fpctl (unionFlags es) = false) (hl : firstBelow s.me.csr.sigfloor step 0 checked = none) :
    s.finishFp fmt step es checked write = s.setMe (write (s.me.flagged (unionFlags es))).next := by
  rw [State.finishFp, if_neg (by rw [h]; exact Bool.false_ne_true), Slot.accrue_eq_flagged]
  change (match firstBelow s.me.csr.sigfloor step 0 checked with | some (lane, e') => _ | none => _) = _
  rw [hl]

end

/-- The fields of csr.sigtrap for a lane of a format (R102). -/
theorem sigtrapWord_of_lane (e : Elem) {fmt lane : Nat} (hf : fmt < 8) (hl : lane < 4) : (sigtrapWord e fmt lane).toNat % 4 = lane ∧
    (sigtrapWord e fmt lane).toNat / 4 % 8 = fmt ∧ (sigtrapWord e fmt lane).toNat / 32 % 64 = e.tag.toNat := by
  have := e.tag.isLt
  rw [sigtrapWord, BitVec.toNat_ofNat]
  omega

/-- The results of a format end as R259 says: FPEXC, SIGFLOOR, or the elements in v[d]. -/
theorem State.finishes_fpFinish {s : State} {f : BitVec 3} {d : BitVec 4} {r : Nat → Nat × Flags} {tg : Nat → Tag} {g : Nat → Elem}
    (holds : ∀ k, k < fmtLanes f → (g k).Holds (fmtOf f) (r k) (tg k)) :
    s.Finishes (.next (s.fpFinish f d ((List.range (fmtLanes f)).map g))) f d (fmtLanes f) r tg := by
  have union : unionFlags ((List.range (fmtLanes f)).map g) = (List.range (fmtLanes f)).foldl (fun g k => g ||| (r k).2) (0 : Flags) :=
    unionFlags_map fun k hk => (holds k hk).fl
  have low (k : Nat) (hk : k < fmtLanes f) : ((g k).finite && belowFloor s.me.csr.sigfloor (g k).tag) =
      ((fmtOf f).isFinite (r k).1 && belowFloor s.me.csr.sigfloor (tg k)) := by
    rw [(holds k hk).finite, (holds k hk).tag]
  have lanes := fmtLanes_mul_fmtStep f
  rw [State.Finishes, ← union]
  refine ⟨fun h => congrArg _ (State.finishFp_traps h), fun h above => ?_, fun h k hk below before => ?_⟩
  · have none_ : firstBelow s.me.csr.sigfloor (fmtStep f) 0 ((List.range (fmtLanes f)).map g) = none := firstBelow_eq_none fun e he => by
      obtain ⟨k, hk, rfl⟩ := List.mem_map.mp he
      rw [low k (List.mem_range.mp hk)]
      exact above k (List.mem_range.mp hk)
    refine ⟨_, congrArg _ (State.finishFp_writes h none_), s.onlySlot_setMe _, ?_⟩
    obtain ⟨x, flagged⟩ : ∃ x, x = s.me.flagged (unionFlags ((List.range (fmtLanes f)).map g)) := ⟨_, rfl⟩
    rw [State.setMe_me, ← flagged, Slot.setElems_eq_writeElems]
    have only := x.onlyLanes_writeElems f d (fun k => (g k).val) (fun k => (g k).tag) (fmtLanes f)
    obtain ⟨lane, tag, regs, pw, csr⟩ := x.wroteV_writeElems f d (fun k => (g k).val) (fun k => (g k).tag) lanes
    have value (l : Nat) (hl : l / fmtStep f < fmtLanes f) : fmtLane f (fun k => (g k).val) l = fmtLane f (fun k => (r k).1) l := by
      rw [fmtLane_step, (holds _ hl).val, ← fmtLane_step f fun k => (r k).1]
    have kept := only.kept
    have pc := only.pc
    rw [flagged] at kept lane tag regs pw csr pc ⊢
    refine ⟨(s.me.kept_flagged _).trans kept, rfl, rfl, pc, ⟨fun q l => (lane q l).trans ?_, fun q l => (tag q l).trans ?_, regs, pw, rfl⟩, csr⟩
    · exact if_congr Iff.rfl (ite_congr rfl (fun hl => value _ hl) fun _ => rfl) rfl
    · exact if_congr Iff.rfl (ite_congr rfl (fun hl => (holds _ hl).tag) fun _ => rfl) rfl
  · have some_ := firstBelow_eq_some (c := s.me.csr.sigfloor) (st := fmtStep f) (i := 0) hk ((low k hk).trans below)
      fun j hj => (low j (by omega)).trans (before j hj)
    rw [Nat.zero_add] at some_
    have inside : fmtStep f * k < 4 := by
      rcases fmtStep_eq f with e | e <;> rw [e] at lanes ⊢ <;> omega
    obtain ⟨lane, fmt, tag⟩ := sigtrapWord_of_lane (g k) f.isLt inside
    exact ⟨_, congrArg _ (State.finishFp_below h some_), lane, fmt, tag.trans (congrArg _ (holds k hk).tag)⟩

/-! ### Elements of one and of two operands (R91, R92) -/

theorem Fmt.tagOf_congr {F : Fmt} {exact_ : Bool} {res : Nat} {fl : Flags} {t t' : Tag} (h : exact_ = false → t = t') :
    F.tagOf exact_ res fl t = F.tagOf exact_ res fl t' := by
  cases exact_
  · rw [h rfl]
  · rfl

section
variable (z s : State) (f : BitVec 3) (d a b c : BitVec 4)

theorem State.finishes_fpElems2 (op : Fmt → Rm → Nat → Nat → Nat × Flags) (row : Fmt → Nat → Nat → Tag → Tag → Nat → Tag) :
    z.Finishes (.next (z.fpFinish f d (s.fpElems2 f a b op row))) f d (fmtLanes f) (fun k => op (fmtOf f) s.me.rm (s.me.elem f a k) (s.me.elem f b k))
      (fun k => (fmtOf f).tagOf (s.me.elemSig f a k == 63 && s.me.elemSig f b k == 63) (op (fmtOf f) s.me.rm (s.me.elem f a k) (s.me.elem f b k)).1
        (op (fmtOf f) s.me.rm (s.me.elem f a k) (s.me.elem f b k)).2 (row (fmtOf f) (s.me.elem f a k) (s.me.elem f b k) (s.me.elemSig f a k)
          (s.me.elemSig f b k) (op (fmtOf f) s.me.rm (s.me.elem f a k) (s.me.elem f b k)).1)) :=
  State.finishes_fpFinish fun _ _ => ⟨rfl, rfl, rfl, rfl⟩

/-- A one-operand form, whose row is read only where the operand is not EXACT. -/
theorem State.finishes_fpElems1 {op : Fmt → Rm → Nat → Nat × Flags} {row : Fmt → Nat → Tag → Nat → Tag} {r : Nat → Nat × Flags} {tag : Nat → Tag}
    (result : ∀ k, op (fmtOf f) s.me.rm (s.me.elem f a k) = r k)
    (rows : ∀ k, s.me.elemSig f a k ≠ 63 → row (fmtOf f) (s.me.elem f a k) (s.me.elemSig f a k) (r k).1 = tag k) :
    z.Finishes (.next (z.fpFinish f d (s.fpElems1 f a op row))) f d (fmtLanes f) r
      (fun k => (fmtOf f).tagOf (s.me.elemSig f a k == 63) (r k).1 (r k).2 (tag k)) := by
  refine State.finishes_fpFinish fun k _ => ?_
  rw [← result k]
  refine ⟨rfl, rfl, Fmt.tagOf_congr fun h => ?_, rfl⟩
  rw [result k]
  exact rows k (bne_iff_ne.mp (by rw [bne, h]; rfl))

end

/-- The add row of R91 under the first rows of R91 and R92. -/
theorem Fmt.tagOf_eq_sumTag (F : Fmt) (exact_ : Bool) (r : Nat × Flags) (ua ub : Option Int) :
    F.tagOf exact_ r.1 r.2 (F.clampTag r.1 (addTag (F.lead r.1) ua ub)) = F.sumTag exact_ r ua ub := by
  have clamp (x : Int) : F.clampTag r.1 x = BitVec.ofNat 6 (min (F.avail r.1) (max 0 x).toNat) := by rw [Fmt.clampTag, max_comm, min_comm]
  have flags : (r.2 &&& (Flags.nx ||| Flags.of ||| Flags.nv) == 0) = decide (r.2 &&& 0x15 = 0) := rfl
  rw [Fmt.tagOf, flags, clamp, Fmt.sumTag]
  cases exact_
  · cases F.isFinite r.1
    · rfl
    · rcases ua with _ | u <;> rcases ub with _ | v <;> rfl
  · rw [if_pos rfl]
    by_cases hf : r.2 &&& 0x15 = 0
    · rw [if_pos (decide_eq_true hf), if_pos ⟨rfl, hf⟩]
      rfl
    · rw [decide_eq_false hf, if_neg (c := true = true ∧ r.2 &&& 0x15 = 0) fun h => hf h.2]
      cases F.isFinite r.1 <;> rfl

/-- The product of a fused form has the uncertainty that the multiply row gives it (R91). -/
theorem Fmt.prodUnc_eq (F : Fmt) (x y : Nat) (s t : Tag) :
    (if s = 63 ∧ t = 63 then none else some ((match leadFV (mulFV (F.value x) (F.value y)) with | some e => e | none => -(F.bias : Int) - F.mb) -
      min (max (mulTag s t) 0) F.full + 1)) = F.prodUnc x y s t := by
  rw [Fmt.prodUnc]
  by_cases exact_ : s = 63 ∧ t = 63
  · rw [if_pos exact_, if_pos exact_]
  · have row : mulTag s t = min (s.toNat : Int) t.toNat - if s = t then 1 else 0 := by
      rw [mulTag]
      by_cases same : s = t
      · rw [if_pos same, if_pos ⟨same, fun h => exact_ ⟨h, same ▸ h⟩⟩]
      · rw [if_neg same, if_neg fun h => same h.1, sub_zero]
    have clamp (z : Int) : min (max z 0) F.full = max 0 (min ((F.mb : Int) + 1) z) := by
      rw [Fmt.full]
      omega
    rw [if_neg exact_, if_neg exact_, row, clamp]
    rfl

theorem uncert_lead (F : Fmt) (x : Nat) (t : Tag) : uncert (F.lead x) t = F.unc x t := rfl

section
variable (s : State) (f : BitVec 3) (d a b c : BitVec 4)

theorem State.finishes_fmaElems (nP nC : Bool) :
    s.Finishes (.next (s.fpFinish f d (s.fmaElems nP nC a b c f))) f d (fmtLanes f)
      (fun k => fpFma (fmtOf f) s.me.rm nP nC (s.me.elem f a k) (s.me.elem f b k) (s.me.elem f c k))
      (fun k => (fmtOf f).sumTag (s.me.elemSig f a k == 63 && s.me.elemSig f b k == 63 && s.me.elemSig f c k == 63)
        (fpFma (fmtOf f) s.me.rm nP nC (s.me.elem f a k) (s.me.elem f b k) (s.me.elem f c k))
        ((fmtOf f).prodUnc (s.me.elem f a k) (s.me.elem f b k) (s.me.elemSig f a k) (s.me.elemSig f b k))
        ((fmtOf f).unc (s.me.elem f c k) (s.me.elemSig f c k))) := by
  refine State.finishes_fpFinish fun k _ => ⟨rfl, rfl, ?_, rfl⟩
  rw [← Fmt.tagOf_eq_sumTag, ← Fmt.prodUnc_eq]
  rfl

/-- One step of VPSUM.F32 as a result of the format (R87). -/
theorem addStep_holds (rm : Rm) (u : Nat) (su : Tag) (v : Nat) (sv : Tag) :
    (addStep rm u su v sv).Holds f32 (fpAdd f32 rm u v) (stepTag rm u su v sv) :=
  ⟨rfl, rfl, Fmt.tagOf_eq_sumTag _ _ _ _ _, rfl⟩

end

/-! ### Signs (R270) -/

theorem Slot.elem_lt (x : Slot) (f : BitVec 3) (r : BitVec 4) (k : Nat) : x.elem f r k < 2 ^ (fmtOf f).width := by
  unfold Slot.elem fmtOf
  split <;> exact BitVec.isLt _

section
variable {F : Fmt} {u : Nat} (hu : u < 2 ^ F.width)
include hu

theorem Fmt.sign_eq : F.sign u = decide (2 ^ (F.width - 1) ≤ u) := by
  have positive := Nat.two_pow_pos (F.eb + F.mb)
  have double : 2 ^ F.width = 2 * 2 ^ (F.eb + F.mb) := Nat.pow_succ'
  change nbit u (F.eb + F.mb) = decide (2 ^ (F.eb + F.mb) ≤ u)
  rw [nbit]
  by_cases h : 2 ^ (F.eb + F.mb) ≤ u
  · rw [Nat.div_eq_of_lt_le (k := 1) (by omega) (by omega)]
    simpa using h
  · rw [Nat.div_eq_of_lt (by omega)]
    simpa using h

/-- The encoding without its sign. -/
theorem Fmt.abs_eq : (if F.sign u then F.flip u else u) = u % 2 ^ (F.width - 1) := by
  have double : 2 ^ F.width = 2 * 2 ^ (F.width - 1) := Nat.pow_succ'
  have bit : 2 ^ (F.eb + F.mb) = 2 ^ (F.width - 1) := rfl
  rw [Fmt.flip, Fmt.sign_eq hu, bit]
  by_cases h : 2 ^ (F.width - 1) ≤ u
  · simp only [decide_eq_true h, if_true]
    rw [Nat.mod_eq_sub_mod h, Nat.mod_eq_of_lt (by omega)]
  · simp only [decide_eq_false h, Bool.false_eq_true, if_false]
    rw [Nat.mod_eq_of_lt (by omega)]

theorem Fmt.flip_eq : F.flip u = (u + 2 ^ (F.width - 1)) % 2 ^ F.width := by
  have double : 2 ^ F.width = 2 * 2 ^ (F.width - 1) := Nat.pow_succ'
  have bit : 2 ^ (F.eb + F.mb) = 2 ^ (F.width - 1) := rfl
  rw [Fmt.flip, Fmt.sign_eq hu, bit]
  by_cases h : 2 ^ (F.width - 1) ≤ u
  · simp only [decide_eq_true h, if_true]
    rw [Nat.mod_eq_sub_mod (by omega), Nat.mod_eq_of_lt (by omega)]
    omega
  · simp only [decide_eq_false h, Bool.false_eq_true, if_false]
    rw [Nat.mod_eq_of_lt (by omega)]

end

/-! ### A special function that parks and ends (R260) -/

/-- A special function leaves its results in its slot. -/
theorem State.parks_special {s : State} {i : Instr} (run : exec i s = .next (s.special i)) :
    ∃ t, exec i s = .next t ∧ s.OnlySlot t ∧ t.me = { s.me with park := .special i s.me.pc (s.specialElems i) } :=
  ⟨_, run, s.onlySlot_setMe _, s.setMe_me _⟩

theorem State.exec_specialFunctionResult {q : State} {w : Who} {i : Instr} {pc : Word} {es : List Elem} (runs : q.coreRuns w.core = true)
    (parked : (q.slot w).park = .special i pc es) :
    exec (.specialFunctionResult w.core w.slot) q = .next ((({ q with cur := w } : State).setMe { q.slot w with pc := pc }).specialDone es i) := by
  change (match (q.slot w).park with | .special i pc es => _ | _ => _) = _
  rw [parked]
  exact congrArg _ (if_pos runs)

/-! ### Compares and classes (R271, R272) -/

/-- Nothing of a slot but its predicates differs. -/
def Slot.OnlyPredicates (x y : Slot) : Prop := ∃ pw, y = { x with pw := pw }

theorem Slot.onlyPredicates_setPs (x : Slot) (k : Nat) (bs : List Bool) : x.OnlyPredicates (x.setPs k bs) := by
  induction bs generalizing x k with
  | nil => exact ⟨_, rfl⟩
  | cons b bs ih =>
    obtain ⟨pw, rest⟩ := ih (x.setP (BitVec.ofNat 4 k) b) (k + 1)
    rw [Slot.setPs, rest]
    by_cases h : BitVec.ofNat 4 k = 0
    · rw [h]
      exact ⟨pw, rfl⟩
    · rw [Slot.setP_of_ne _ _ _ h]
      exact ⟨pw, rfl⟩

theorem Slot.p_setPs (x : Slot) (k n : Nat) (g : Nat → Bool) (j : BitVec 4) (h : k + n ≤ 16) :
    (x.setPs k ((List.range n).map g)).p j = if j = 0 then true else if k ≤ j.toNat ∧ j.toNat < k + n then g (j.toNat - k) else x.p j := by
  induction n generalizing x k g with
  | zero =>
    rw [if_neg (c := k ≤ j.toNat ∧ j.toNat < k + 0) (by omega)]
    by_cases h0 : j = 0
    · rw [if_pos h0, h0]
      rfl
    · rw [if_neg h0]
      rfl
  | succ n ih =>
    rw [List.range_succ_eq_map, List.map_cons, List.map_map, Slot.setPs, ih (g := g ∘ Nat.succ) _ _ (by omega)]
    by_cases h0 : j = 0
    · rw [if_pos h0, if_pos h0]
    · have zero : j.toNat ≠ 0 := fun e => h0 (BitVec.eq_of_toNat_eq e)
      have here : j = BitVec.ofNat 4 k ↔ j.toNat = k := by
        rw [BitVec.toNat_eq, BitVec.toNat_ofNat, Nat.mod_eq_of_lt (by omega)]
      rw [if_neg h0, if_neg h0, Slot.p_setP]
      rcases Nat.lt_trichotomy j.toNat k with h | h | h
      · rw [if_neg (by omega), if_neg (by rw [here]; omega), if_neg (by omega)]
      · rw [if_neg (by omega), if_pos ⟨here.mpr h, fun e => h0 (here.mpr h ▸ e)⟩, if_pos (by omega), h, Nat.sub_self]
      · by_cases last : j.toNat < k + (n + 1)
        · rw [if_pos (by omega), if_pos (by omega)]
          exact congrArg g (by omega)
        · rw [if_neg (by omega), if_neg (by rw [here]; omega), if_neg (by omega)]

section
variable {x y : Slot} (h : x.OnlyPredicates y)
include h

theorem Slot.OnlyPredicates.kept : x.Kept y.next := by
  obtain ⟨pw, rfl⟩ := h
  constructor <;> rfl

theorem Slot.OnlyPredicates.sameG : x.SameG y.next := by
  obtain ⟨pw, rfl⟩ := h
  exact fun _ => rfl

theorem Slot.OnlyPredicates.sameV : x.SameV y.next := by
  obtain ⟨pw, rfl⟩ := h
  exact fun _ _ => ⟨rfl, rfl⟩

theorem Slot.OnlyPredicates.csr : y.next.csr = x.csr := by
  obtain ⟨pw, rfl⟩ := h
  rfl

theorem Slot.OnlyPredicates.pc : y.next.pc = x.pc + 4 := by
  obtain ⟨pw, rfl⟩ := h
  rfl

end

/-- A compare of the elements of a format: FPEXC, or the relation of each pair in its predicate (R271). -/
theorem State.compares_fpCmp {s : State} {i : Instr} {op : Nat} {p : BitVec 4} {a b : BitVec 5} {f : BitVec 3}
    (run : exec i s = .next (s.fpCmp op p a b f)) (hp : p.toNat + fmtLanes f ≤ 16) :
    let r := fun k => fpCompare (fmtOf f) op (s.me.elem f (vnum a) k) (s.me.elem f (vnum b) k)
    let fl := (List.range (fmtLanes f)).foldl (fun g k => g ||| (r k).2) (0 : Flags)
    (trapsOn s.me.csr.fpctl fl = true → exec i s = .next ((s.setMe (s.me.flagged fl)).trapAt s.cur .fpexc (fl.zeroExtend 64))) ∧
    (trapsOn s.me.csr.fpctl fl = false → s.Computes i (fun x y => x.SameG y ∧ x.SameV y ∧ y.csr = (x.flagged fl).csr ∧
      ∀ j, y.p j = if j = 0 then true else if p.toNat ≤ j.toNat ∧ j.toNat < p.toNat + fmtLanes f then (r (j.toNat - p.toNat)).1 else x.p j)) := by
  intro r fl
  have ends : s.fpCmp op p a b f = if trapsOn s.me.csr.fpctl fl then (s.setMe (s.me.flagged fl)).trapAt s.cur .fpexc (fl.zeroExtend 64)
      else s.setMe ((s.me.flagged fl).setPs p.toNat ((List.range (fmtLanes f)).map fun k => (r k).1)).next := by
    rw [State.fpCmp, List.foldl_map, List.map_map, Slot.accrue_eq_flagged, State.raise, dbl_flags]
    rfl
  rw [ends] at run
  refine ⟨fun h => run.trans (congrArg _ (if_pos h)), fun h => ?_⟩
  rw [h] at run
  have only := (s.me.flagged fl).onlyPredicates_setPs p.toNat ((List.range (fmtLanes f)).map fun k => (r k).1)
  have predicates := (s.me.flagged fl).p_setPs p.toNat (fmtLanes f) (fun k => (r k).1)
  refine ⟨_, run, s.onlySlot_setMe _, ?_⟩
  rw [if_neg Bool.false_ne_true, State.setMe_me]
  exact ⟨(s.me.kept_flagged fl).trans only.kept, rfl, rfl, only.pc, only.sameG, only.sameV, only.csr, fun j => predicates j hp⟩

/-- The class of each element, EXACT (R272). -/
theorem State.computes_vfclass (s : State) (d : BitVec 4) (a : BitVec 5) (f : BitVec 3) :
    s.Computes (.vfclass d a f) (fun x y => x.WroteV y d
      (fun l => if l / fmtStep f < fmtLanes f then fmtLane f (fun k => fpClass (fmtOf f) (s.me.elem f (vnum a) k)) l else x.lane d l)
      (fun l => if l / fmtStep f < fmtLanes f then Tag.exact else x.tag d l)) := by
  have only := s.me.onlyLanes_writeElems f d (fun k => fpClass (fmtOf f) (s.me.elem f (vnum a) k)) (fun _ => Tag.exact) (fmtLanes f)
  have wrote := s.me.wroteV_writeElems f d (fun k => fpClass (fmtOf f) (s.me.elem f (vnum a) k)) (fun _ => Tag.exact) (fmtLanes_mul_fmtStep f)
  refine ⟨_, rfl, s.onlySlot_setMe _, ?_⟩
  rw [State.setMe_me]
  exact ⟨only.kept, rfl, rfl, only.pc, wrote⟩

theorem fpClass_mem (F : Fmt) (x : Nat) : fpClass F x ∈ [1, 2, 4, 8, 16, 32, 64, 128, 256, 512] := by
  unfold fpClass
  split_ifs <;> decide

/-- The elements of VPSUM.F32, each from the one before it (R87). -/
def Slot.prefixElem (x : Slot) (a : BitVec 4) : Nat → Elem
  | 0 => { val := (x.lane a 0).toNat, fl := 0, tag := x.tag a 0, finite := f32.isFinite (x.lane a 0).toNat, ta := readTag 24 (x.tag a 0), tb := 62, tc := 62 }
  | k + 1 => addStep x.rm (x.prefixElem a k).val (x.prefixElem a k).tag (x.lane a (k + 1)).toNat (x.tag a (k + 1))

theorem Slot.prefixElem_succ_holds {x : Slot} {a : BitVec 4} {k : Nat} {r : Nat × Flags} {t : Tag} (h : (x.prefixElem a k).Holds f32 r t) :
    (x.prefixElem a (k + 1)).Holds f32 (fpAdd f32 x.rm r.1 (x.lane a (k + 1)).toNat) (stepTag x.rm r.1 t (x.lane a (k + 1)).toNat (x.tag a (k + 1))) := by
  have step := addStep_holds x.rm (x.prefixElem a k).val (x.prefixElem a k).tag (x.lane a (k + 1)).toNat (x.tag a (k + 1))
  rw [h.val, h.tag] at step
  rw [Slot.prefixElem, h.val, h.tag]
  exact step

/-- VPSUM.F32: lane 0 with its own tag, and each later lane the rounded sum with its step's tag (R87, R269). -/
theorem State.finishes_vpsumF32 (s : State) (d a : BitVec 5) :
    let u := fun k => s.me.elem 0 (vnum a) k
    let t := s.me.tag (vnum a)
    let r1 := fpAdd f32 s.me.rm (u 0) (u 1)
    let r2 := fpAdd f32 s.me.rm r1.1 (u 2)
    let t1 := stepTag s.me.rm (u 0) (t 0) (u 1) (t 1)
    let t2 := stepTag s.me.rm r1.1 t1 (u 2) (t 2)
    s.Finishes (exec (.vpsumF32 d a) s) 0 (vnum d) 4 (fun k => [(u 0, 0), r1, r2, fpAdd f32 s.me.rm r2.1 (u 3)].getD k (0, 0))
      (fun k => [t 0, t1, t2, stepTag s.me.rm r2.1 t2 (u 3) (t 3)].getD k 0) := by
  intro u t r1 r2 t1 t2
  have first : (s.me.prefixElem (vnum a) 0).Holds f32 (u 0, 0) (t 0) := ⟨rfl, rfl, rfl, rfl⟩
  have second : (s.me.prefixElem (vnum a) 1).Holds f32 r1 t1 := Slot.prefixElem_succ_holds first
  have third : (s.me.prefixElem (vnum a) 2).Holds f32 r2 t2 := Slot.prefixElem_succ_holds second
  have fourth := Slot.prefixElem_succ_holds third
  have format : fmtOf 0 = f32 := rfl
  clear_value r1 r2 t1 t2
  have run : exec (.vpsumF32 d a) s = .next (s.fpFinish 0 (vnum d) ((List.range (fmtLanes 0)).map (s.me.prefixElem (vnum a)))) := by
    change Host.Outcome.next (s.fpFinish 0 (vnum d) [s.me.prefixElem (vnum a) 0, s.me.prefixElem (vnum a) 1, s.me.prefixElem (vnum a) 2,
      s.me.prefixElem (vnum a) 3]) = _
    rfl
  rw [run]
  refine State.finishes_fpFinish (f := 0) (g := s.me.prefixElem (vnum a)) fun k hk => ?_
  rw [format]
  change k < 4 at hk
  interval_cases k
  · exact first
  · exact second
  · exact third
  · exact fourth

end Sys2Proof.Machine
end

section
/-! PROOFS.  O33: the floating-point vector operations (R70 to R72, R91, R259, R260, R269 to R274). -/

namespace Sys2Proof.Machine

/-! ### Finite operands (R70, R72) -/

section
variable {F : Fmt} {u : Nat} {n : Bool} {m : Nat} {e : Int} (h : F.value u = .fin n m e)
include h

theorem Fmt.isNaN_of_value : F.isNaN u = false := by
  by_contra nan
  rw [Fmt.value, if_pos (eq_true_of_ne_false nan)] at h
  exact FV.noConfusion h

theorem Fmt.isSNaN_of_value : F.isSNaN u = false := by
  rw [Fmt.isSNaN, Fmt.isNaN_of_value h, Bool.false_and]

theorem Fmt.sign_of_value : F.sign u = n := by
  have inf : F.isInf u = false := by
    by_contra inf
    rw [Fmt.value, Fmt.isNaN_of_value h, if_neg Bool.false_ne_true, if_pos (eq_true_of_ne_false inf)] at h
    exact FV.noConfusion h
  have value := h
  rw [Fmt.value, Fmt.isNaN_of_value h, inf, if_neg Bool.false_ne_true, if_neg Bool.false_ne_true] at value
  split at value <;> exact (FV.fin.inj value).1

end

theorem pickNaN_eq_none {F : Fmt} {xs : List Nat} (h : ∀ x ∈ xs, F.isNaN x = false) : pickNaN F xs = none := by
  have none_ : xs.find? (fun x => F.isNaN x) = none := List.find?_eq_none.mpr fun x hx => by simp [h x hx]
  rw [pickNaN.eq_def, none_]

theorem roundFin_zero (F : Fmt) (rm : Rm) (n : Bool) (e : Int) : roundFin F rm n 0 e false = (F.signBit n, 0) := by
  rw [roundFin.eq_def, if_pos ⟨rfl, rfl⟩]

/-- The exact sum of two finite values rounded once, an exact zero with the sign of R70. -/
theorem finishFV_addFV (F : Fmt) (rm : Rm) (n k : Bool) (m p : Nat) (e d : Int) :
    let z := (FV.fin n m e).units (min e d) + (FV.fin k p d).units (min e d)
    finishFV F rm (addFV rm (.fin n m e) (.fin k p d)) =
      if z = 0 then (F.signBit (if n = k then n else rm == .rdn), (0 : Flags)) else roundFin F rm (decide (z < 0)) z.natAbs (min e d) false := by
  intro z
  rw [addFV_fin]
  by_cases zero : z = 0
  · rw [if_pos zero, if_pos zero]
    exact roundFin_zero F rm _ (min e d)
  · rw [if_neg zero, if_neg zero]
    rfl

section
variable {F : Fmt} {rm : Rm} {u v w : Nat} {n1 n2 n3 : Bool} {m1 m2 m3 : Nat} {e1 e2 e3 : Int}
  (h1 : F.value u = .fin n1 m1 e1) (h2 : F.value v = .fin n2 m2 e2)
include h1 h2

theorem pickNaN_pair : pickNaN F [u, v] = none := pickNaN_eq_none fun x hx => by
  rcases List.mem_pair.mp hx with rfl | rfl
  · exact Fmt.isNaN_of_value h1
  · exact Fmt.isNaN_of_value h2

theorem fpAdd_of_finite : fpAdd F rm u v = finishFV F rm (addFV rm (.fin n1 m1 e1) (.fin n2 m2 e2)) := by
  rw [fpAdd.eq_def, pickNaN_pair h1 h2, h1, h2]

theorem fpSub_of_finite : fpSub F rm u v = finishFV F rm (addFV rm (.fin n1 m1 e1) (.fin (!n2) m2 e2)) := by
  rw [fpSub.eq_def, pickNaN_pair h1 h2, h1, h2]
  rfl

theorem fpMul_of_finite : fpMul F rm u v = roundFin F rm (n1 != n2) (m1 * m2) (e1 + e2) false := by
  rw [fpMul.eq_def, pickNaN_pair h1 h2, h1, h2]
  rfl

theorem fpDiv_of_finite : fpDiv F rm u v =
    if m2 = 0 then (if m1 = 0 then invalid F else (F.inf (n1 != n2), Flags.dz)) else if m1 = 0 then (F.signBit (n1 != n2), 0)
      else divFin F rm (n1 != n2) m1 e1 m2 e2 := by
  rw [fpDiv.eq_def, pickNaN_pair h1 h2, h1, h2]

theorem fpMinMax_of_finite (g : Bool) : fpMinMax F g u v =
    (if (decide (cmpFV (F.value u) (F.value v) < 0) || (decide (cmpFV (F.value u) (F.value v) = 0) && n1 && !n2)) != g then u else v, 0) := by
  rw [fpMinMax.eq_def, Fmt.isSNaN_of_value h1, Fmt.isSNaN_of_value h2, Fmt.isNaN_of_value h1, Fmt.isNaN_of_value h2, Fmt.sign_of_value h1,
    Fmt.sign_of_value h2]
  rfl

theorem fpCompare_of_finite (op : Nat) : fpCompare F op u v =
    (match op with
      | 0 => decide (cmpFV (F.value u) (F.value v) = 0) | 1 => decide (cmpFV (F.value u) (F.value v) < 0) | _ => decide (cmpFV (F.value u) (F.value v) ≤ 0), 0) := by
  rw [fpCompare.eq_def, Fmt.isNaN_of_value h1, Fmt.isNaN_of_value h2]
  rfl

theorem fpFma_of_finite (h3 : F.value w = .fin n3 m3 e3) (nP nC : Bool) : fpFma F rm nP nC u v w =
    finishFV F rm (addFV rm (.fin ((n1 != n2) != nP) (m1 * m2) (e1 + e2)) (.fin (n3 != nC) m3 e3)) := by
  have numbers : pickNaN F [w, u, v] = none := pickNaN_eq_none fun x hx => by
    rcases List.mem_cons.mp hx with rfl | hx
    · exact Fmt.isNaN_of_value h3
    · rcases List.mem_pair.mp hx with rfl | rfl
      · exact Fmt.isNaN_of_value h1
      · exact Fmt.isNaN_of_value h2
  rw [fpFma.eq_def, numbers, h1, h2, h3]
  cases nP <;> cases nC <;> simp [mulFV, negFV]

end

theorem fpSqrt_of_finite {F : Fmt} {rm : Rm} {u m : Nat} {n : Bool} {e : Int} (h : F.value u = .fin n m e) : fpSqrt F rm u =
    if m = 0 then (F.signBit n, 0) else if n then invalid F else sqrtFin F rm m e := by
  have numbers : pickNaN F [u] = none := pickNaN_eq_none fun x hx => by
    rw [List.mem_singleton.mp hx]
    exact Fmt.isNaN_of_value h
  rw [fpSqrt.eq_def, numbers, h]

/-! ### Quotients and roots between two numbers (R270) -/

/-- A product against a number, by the powers of two between them. -/
theorem cmpFV_product {a p m K : Nat} {i d e : Int} (place : e = i + d + K) :
    (cmpFV (mulFV (.fin false a i) (.fin false p d)) (.fin false m e) < 0 ↔ a * p < m * 2 ^ K) ∧
      (cmpFV (mulFV (.fin false a i) (.fin false p d)) (.fin false m e) = 0 ↔ a * p = m * 2 ^ K) := by
  obtain ⟨finite, value⟩ := (FV.isFin_fin false a i).mul (FV.isFin_fin false p d)
  have positive : (0 : ℚ) < 2 ^ (i + d) := by positivity
  have left : (FV.fin false a i).rat * (FV.fin false p d).rat = (a * p : Nat) * 2 ^ (i + d) := by
    rw [FV.rat, FV.rat, zpow_add₀ two_ne_zero]
    push_cast
    simp
    ring
  have right : (FV.fin false m e).rat = (m * 2 ^ K : Nat) * 2 ^ (i + d) := by
    rw [FV.rat, place, zpow_add₀ two_ne_zero, zpow_natCast]
    push_cast
    simp
    ring
  rw [cmpFV_lt_iff finite (FV.isFin_fin _ _ _), cmpFV_eq_iff finite (FV.isFin_fin _ _ _), value, left, right, mul_lt_mul_iff_left₀ positive,
    mul_left_inj' positive.ne', Nat.cast_lt, Nat.cast_inj]
  exact ⟨Iff.rfl, Iff.rfl⟩

/-- The truncated quotient lies below the quotient, and the next number does not. -/
theorem divFin_brackets (F : Fmt) {m p : Nat} (hm : m ≠ 0) (hp : p ≠ 0) (e d : Int) :
    F.Brackets (m * 2 ^ (F.mb + 4 + Nat.log2 p) / p) (e - d - (F.mb + 4 + Nat.log2 p : Nat)) (decide (m * 2 ^ (F.mb + 4 + Nat.log2 p) % p ≠ 0))
      (fun x => cmpFV (mulFV x (.fin false p d)) (.fin false m e) < 0) (fun x => cmpFV (mulFV x (.fin false p d)) (.fin false m e) = 0) := by
  obtain ⟨K, width⟩ : ∃ K, K = F.mb + 4 + Nat.log2 p := ⟨_, rfl⟩
  rw [← width]
  have place : e = (e - d - K) + d + K := by ring
  have parts := Nat.div_add_mod' (m * 2 ^ K) p
  have rest := Nat.mod_lt (m * 2 ^ K) (Nat.pos_of_ne_zero hp)
  refine ⟨?_, fun h => ?_, fun h => ?_⟩
  · rw [Nat.le_div_iff_mul_le (Nat.pos_of_ne_zero hp)]
    calc 2 ^ (F.mb + 2) * p ≤ 2 ^ (F.mb + 2) * 2 ^ (Nat.log2 p + 1) := Nat.mul_le_mul_left _ Nat.lt_log2_self.le
      _ = 2 ^ (F.mb + 2 + (Nat.log2 p + 1)) := (Nat.pow_add _ _ _).symm
      _ ≤ 2 ^ K := Nat.pow_le_pow_right (by decide) (by omega)
      _ ≤ m * 2 ^ K := Nat.le_mul_of_pos_left _ (Nat.pos_of_ne_zero hm)
  · have whole : m * 2 ^ K % p = 0 := by simpa using h
    exact (cmpFV_product place).2.mpr (by omega)
  · have above : m * 2 ^ K % p ≠ 0 := of_decide_eq_true h
    have next : (m * 2 ^ K / p + 1) * p = m * 2 ^ K / p * p + p := Nat.succ_mul _ _
    rw [(cmpFV_product place).1, (cmpFV_product place).1, (cmpFV_product place).2]
    omega

/-- The bit-by-bit root: what is not yet decided lies below the bit at hand. -/
theorem isqrtGo_spec {n k r : Nat} (low : r * r ≤ n) (high : n < (r + 2 ^ k) * (r + 2 ^ k)) :
    isqrtGo n k r * isqrtGo n k r ≤ n ∧ n < (isqrtGo n k r + 1) * (isqrtGo n k r + 1) := by
  induction k generalizing r with
  | zero => exact ⟨low, high⟩
  | succ k ih =>
    have double : 2 ^ (k + 1) = 2 ^ k + 2 ^ k := by rw [Nat.pow_succ]; omega
    rw [isqrtGo]
    split
    · next h => exact ih h (by rwa [Nat.add_assoc, ← double])
    · next h => exact ih low (not_le.mp h)

theorem isqrt_spec (n : Nat) : isqrt n * isqrt n ≤ n ∧ n < (isqrt n + 1) * (isqrt n + 1) := by
  refine isqrtGo_spec (Nat.zero_le n) ?_
  rw [Nat.zero_add, ← Nat.pow_add]
  exact Nat.lt_log2_self.trans_le (Nat.pow_le_pow_right (by decide) (by omega))

/-- The integer root lies below the root, and the next number does not. -/
theorem sqrt_brackets (F : Fmt) {m M K : Nat} {i e : Int} (place : e = i + i + K) (scaled : m * 2 ^ K = M) (wide : 4 ^ (F.mb + 4) ≤ M) :
    F.Brackets (isqrt M) i (decide (isqrt M * isqrt M ≠ M)) (fun x => cmpFV (mulFV x x) (.fin false m e) < 0)
      (fun x => cmpFV (mulFV x x) (.fin false m e) = 0) := by
  obtain ⟨low, high⟩ := isqrt_spec M
  refine ⟨?_, fun h => ?_, fun h => ?_⟩
  · by_contra small
    have below : isqrt M + 1 ≤ 2 ^ (F.mb + 2) := by omega
    have squares : (isqrt M + 1) * (isqrt M + 1) ≤ 2 ^ (F.mb + 2) * 2 ^ (F.mb + 2) := Nat.mul_le_mul below below
    have four : 2 ^ (F.mb + 2) * 2 ^ (F.mb + 2) ≤ 4 ^ (F.mb + 4) := by
      rw [← Nat.mul_pow]
      exact Nat.pow_le_pow_right (by decide) (by omega)
    omega
  · have whole : isqrt M * isqrt M = M := by simpa using h
    exact (cmpFV_product place).2.mpr (whole.trans scaled.symm)
  · have above : isqrt M * isqrt M ≠ M := of_decide_eq_true h
    rw [(cmpFV_product place).1, (cmpFV_product place).1, (cmpFV_product place).2, scaled]
    omega

/-- A root is rounded once from two numbers that it lies between. -/
theorem sqrtFin_brackets (F : Fmt) (rm : Rm) {m : Nat} (hm : m ≠ 0) (e : Int) :
    ∃ r i more, sqrtFin F rm m e = roundFin F rm false r i more ∧ F.Brackets r i more (fun x => cmpFV (mulFV x x) (.fin false m e) < 0)
      (fun x => cmpFV (mulFV x x) (.fin false m e) = 0) := by
  refine ⟨_, _, _, rfl, ?_⟩
  have four : 4 ^ (F.mb + 4) = 2 ^ (2 * (F.mb + 4)) := (Nat.pow_mul 2 2 _).symm
  by_cases even : e % 2 = 0
  · rw [if_pos even, if_pos even]
    exact sqrt_brackets F (K := 2 * (F.mb + 4)) (by push_cast; omega) (by rw [four]) (Nat.le_mul_of_pos_left _ (Nat.pos_of_ne_zero hm))
  · rw [if_neg even, if_neg even]
    refine sqrt_brackets F (K := 2 * (F.mb + 4) + 1) (by push_cast; omega) ?_ (Nat.le_mul_of_pos_left _ (by omega))
    rw [four]
    ring

/-! ### VFMIN and VFMAX (R72) -/

theorem FV.cmp_refl (v : FV) (h : v.IsFin) : cmpFV v v ≤ 0 := (cmpFV_le_iff h h).mpr le_rfl

section
variable {F : Fmt} {u v : Nat} {n1 n2 : Bool} {m1 m2 : Nat} {e1 e2 : Int} (h1 : F.value u = .fin n1 m1 e1) (h2 : F.value v = .fin n2 m2 e2)
include h1 h2

/-- The operand that VFMIN delivers is not above either, and VFMAX's is not below either. -/
theorem fpMinMax_bounds : cmpFV (F.value (fpMinMax F false u v).1) (F.value u) ≤ 0 ∧ cmpFV (F.value (fpMinMax F false u v).1) (F.value v) ≤ 0 ∧
    cmpFV (F.value u) (F.value (fpMinMax F true u v).1) ≤ 0 ∧ cmpFV (F.value v) (F.value (fpMinMax F true u v).1) ≤ 0 := by
  have hu : (F.value u).IsFin := ⟨_, _, _, h1⟩
  have hv : (F.value v).IsFin := ⟨_, _, _, h2⟩
  rw [fpMinMax_of_finite h1 h2, fpMinMax_of_finite h1 h2]
  obtain ⟨less, is⟩ : ∃ less, less = (decide (cmpFV (F.value u) (F.value v) < 0) || (decide (cmpFV (F.value u) (F.value v) = 0) && n1 && !n2)) := ⟨_, rfl⟩
  rw [← is]
  cases less
  · have above : (F.value v).rat ≤ (F.value u).rat := by
      have : ¬ cmpFV (F.value u) (F.value v) < 0 := by
        intro h
        rw [decide_eq_true h] at is
        exact absurd is (by simp)
      rw [cmpFV_lt_iff hu hv] at this
      exact not_lt.mp this
    exact ⟨(cmpFV_le_iff hv hu).mpr above, FV.cmp_refl _ hv, FV.cmp_refl _ hu, (cmpFV_le_iff hv hu).mpr above⟩
  · have below : cmpFV (F.value u) (F.value v) ≤ 0 := by
      rcases Bool.or_eq_true_iff.mp is.symm with h | h
      · exact (of_decide_eq_true h).le
      · exact (of_decide_eq_true (Bool.and_eq_true_iff.mp (Bool.and_eq_true_iff.mp h).1).1).le
    exact ⟨FV.cmp_refl _ hu, below, below, FV.cmp_refl _ hv⟩

/-- Of two zeros VFMIN delivers a negative one, and VFMAX a positive one, where there is one. -/
theorem fpMinMax_zeros (z1 : m1 = 0) (z2 : m2 = 0) : F.sign (fpMinMax F false u v).1 = (n1 || n2) ∧ F.sign (fpMinMax F true u v).1 = (n1 && n2) := by
  have same : cmpFV (F.value u) (F.value v) = 0 := by
    rw [cmpFV_eq_iff ⟨_, _, _, h1⟩ ⟨_, _, _, h2⟩, h1, h2, z1, z2]
    simp [FV.rat]
  have su := Fmt.sign_of_value h1
  have sv := Fmt.sign_of_value h2
  rw [fpMinMax_of_finite h1 h2, fpMinMax_of_finite h1 h2, same]
  cases n1 <;> cases n2 <;> simp [su, sv]

end

/-- Of finite operands each operation is the exact result rounded once (R70, R270 to R273). -/
theorem Fmt.arithmetic (F : Fmt) (rm : Rm) (u v w : Nat) : F.Arithmetic rm u v w := by
  intro n1 n2 n3 m1 m2 m3 e1 e2 e3 h1 h2 h3 total fused le
  have divides := fpDiv_of_finite (rm := rm) h1 h2
  have roots := fpSqrt_of_finite (rm := rm) h1
  obtain ⟨minU, minV, maxU, maxV⟩ := fpMinMax_bounds h1 h2
  refine ⟨(fpAdd_of_finite h1 h2).trans (finishFV_addFV _ _ _ _ _ _ _ _), (fpSub_of_finite h1 h2).trans (finishFV_addFV _ _ _ _ _ _ _ _),
    fpMul_of_finite h1 h2, fun nP nC => (fpFma_of_finite h1 h2 h3 nP nC).trans (finishFV_addFV _ _ _ _ _ _ _ _), fun z2 => ?_, fun z2 z1 => ?_,
    fun z2 z1 => ?_, fun z1 => ?_, fun z1 neg => ?_, fun z1 neg => ?_, fun g => ?_, minU, minV, maxU, maxV, fpMinMax_zeros h1 h2,
    fpCompare_of_finite h1 h2 0, fpCompare_of_finite h1 h2 1, fpCompare_of_finite h1 h2 2⟩
  · rw [divides, if_pos z2]
    rfl
  · rw [divides, if_neg z2, if_pos z1]
  · rw [divides, if_neg z2, if_neg z1]
    exact ⟨_, _, _, rfl, divFin_brackets F z1 z2 e1 e2⟩
  · rw [roots, if_pos z1]
  · rw [roots, if_neg z1, if_pos neg]
    rfl
  · rw [roots, if_neg z1, if_neg (by rw [neg]; exact Bool.false_ne_true)]
    exact sqrtFin_brackets F rm z1 e1
  · rw [fpMinMax_of_finite h1 h2]
    refine ⟨rfl, ?_⟩
    dsimp only
    split
    · exact .inl rfl
    · exact .inr rfl

/-- The row of VEXP2, from the uncertainty of an operand that is not EXACT (R91). -/
theorem expRow_eq (F : Fmt) (u r : Nat) {t : Tag} (h : t ≠ 63) :
    (match uncert (F.lead u) t with | some w => F.clampTag r (-w - 1) | none => F.clampTag r 24) = F.clampTag r (t.toNat - F.lead u - 2) := by
  rw [uncert, if_neg h]
  exact congrArg (F.clampTag r) (by ring)

/-- Settles O33: every operation by the last steps of R259 on its elements, and the values of those by the exact result. -/
theorem vectorFloats : Obligations.VectorFloats := by
  unfold Obligations.VectorFloats
  intro s q pc d4 p d a b c f x F n u v w su sv sw two one fused parks z parked ends compares hf
  refine ⟨s.finishes_fpElems2 s f d4 _ _ fpAdd addRow, s.finishes_fpElems2 s f d4 _ _ fpSub addRow, s.finishes_fpElems2 s f d4 _ _ fpMul mulRow,
    s.finishes_fpElems2 s f d4 _ _ (fun F _ u v => fpMinMax F false u v) minMaxRow, s.finishes_fpElems2 s f d4 _ _ (fun F _ u v => fpMinMax F true u v) minMaxRow,
    s.finishes_fpElems1 s f d4 _ (fun k => ?_) (fun k _ => rfl), s.finishes_fpElems1 s f d4 _ (fun k => ?_) (fun k _ => rfl),
    s.finishes_fmaElems f _ _ _ _ false false, s.finishes_fmaElems f _ _ _ _ false true, s.finishes_fmaElems f _ _ _ _ true false,
    s.finishes_fmaElems f _ _ _ _ true true, State.parks_special rfl, State.parks_special rfl, State.parks_special rfl, State.parks_special rfl,
    State.parks_special rfl, State.parks_special rfl, fun runs => ?_, fun hp => ?_, s.computes_vfclass d4 a f, fpClass_mem F, F.arithmetic, fun hf => ?_⟩
  · exact congrArg (·, 0) (Fmt.abs_eq (x.elem_lt f _ k))
  · exact congrArg (·, 0) (Fmt.flip_eq (x.elem_lt f _ k))
  · have done {i : Instr} (h : parked i) : ends = .next (z.specialDone (s.specialElems i) i) := State.exec_specialFunctionResult runs h
    clear_value z
    refine ⟨fun h => ?_, fun h => ?_, fun single => ⟨fun h => ?_, fun h => ?_, fun h => ?_, fun h => ?_⟩⟩ <;> rw [done h, State.specialDone, State.specialElems]
    · exact z.finishes_fpElems2 s f d4 _ _ fpDiv mulRow
    · exact z.finishes_fpElems1 s f d4 _ (fun k => rfl) (fun k _ => rfl)
    · exact z.finishes_fpElems1 s f (vnum d) _ (fun k => rfl) (fun k tagged => expRow_eq F _ _ tagged)
    · exact z.finishes_fpElems1 s f (vnum d) _ (fun k => rfl) (fun k _ => rfl)
    · exact z.finishes_fpElems1 s f (vnum d) _ (fun k => rfl) (fun k _ => rfl)
    · exact z.finishes_fpElems1 s f (vnum d) _ (fun k => rfl) (fun k _ => rfl)
  · exact ⟨State.compares_fpCmp rfl hp, State.compares_fpCmp rfl hp, State.compares_fpCmp rfl hp⟩
  · subst hf
    exact s.finishes_vpsumF32 d a

end Sys2Proof.Machine
end

section
/-! PROOFS.  O43: an accumulator drained in each format (R82, R83, R97, R153). -/

namespace Sys2Proof.Machine

/-- The sign of a value; a NaN has none. -/
def FV.negative : FV → Bool
  | .fin n _ _ => n
  | .inf n => n
  | .nan => false

section
variable {a : Accum} {m : AccMode} {sat : Bool}

/-- An accumulator that was never added to drains as +0 (R97, R152). -/
theorem Accum.drain_unset {f : Nat} (h : m = .unset ∨ a.k = 0) : a.drain m f sat = (0, if f = 0 then Tag.exact else Tag.none, 0) := if_pos h

section
variable (hm : m ≠ .unset) (hk : a.k ≠ 0)
include hm hk

theorem Accum.drain_fp32 : a.drain m 0 sat =
    ((roundFV f32 .rne a.val).1, drainTag a (roundFV f32 .rne a.val).1 (roundFV f32 .rne a.val).2, (roundFV f32 .rne a.val).2) :=
  if_neg fun h => h.elim hm hk

theorem Accum.drain_bf16 : a.drain m 1 sat = ((toBf16 .rne a.val a.val.negative false).1, Tag.none, (toBf16 .rne a.val a.val.negative false).2) := by
  refine (if_neg fun h => h.elim hm hk).trans ?_
  cases a.val <;> rfl

theorem Accum.drain_e4m3 : a.drain m 2 sat = ((toE4m3 .rne a.val a.val.negative false).1, Tag.none, (toE4m3 .rne a.val a.val.negative false).2) := by
  refine (if_neg fun h => h.elim hm hk).trans ?_
  cases a.val <;> rfl

theorem Accum.drain_e5m2 : a.drain m 3 sat =
    ((toE5m2 .rne sat a.val a.val.negative false).1, Tag.none, (toE5m2 .rne sat a.val a.val.negative false).2) := by
  refine (if_neg fun h => h.elim hm hk).trans ?_
  cases a.val <;> rfl

theorem Accum.drain_int32 (f : Nat) : a.drain m (f + 4) sat = (toBits 32 (clampInt (-(2 ^ 31)) (2 ^ 31 - 1) (fvInt a.val)), Tag.none, 0) :=
  if_neg fun h => h.elim hm hk

/-- Only FP32 drains with a tag (R97). -/
theorem Accum.drain_tag {f : Nat} (hf : f ≠ 0) : (a.drain m f sat).2.1 = Tag.none := by
  match f, hf with
  | 0, h => exact absurd rfl h
  | 1, _ => rw [Accum.drain_bf16 hm hk]
  | 2, _ => rw [Accum.drain_e4m3 hm hk]
  | 3, _ => rw [Accum.drain_e5m2 hm hk]
  | f + 4, _ => rw [Accum.drain_int32 hm hk]

end

/-- A drained INT32 fits its four bytes. -/
theorem Accum.drain_int32_lt : (a.drain m 4 sat).1 < 2 ^ 32 := by
  by_cases h : m = .unset ∨ a.k = 0
  · rw [Accum.drain_unset h]
    exact Nat.two_pow_pos 32
  · rw [not_or] at h
    rw [Accum.drain_int32 h.1 h.2 0]
    exact toBits_lt _ _

/-! ### Tags (R97) -/

end

/-- The inexact flag alone decides the flags' meet with NX. -/
theorem flags_and_nx (fl : Flags) : ((fl &&& Flags.nx) != 0) = fl.getLsbD 0 := by
  revert fl
  decide

theorem flags_and_of (fl : Flags) : ((fl &&& Flags.of) != 0) = fl.getLsbD 2 := by
  revert fl
  decide

section
variable {a : Accum} {out : Nat} {fl : Flags} {n : Bool} {k : Nat} {e : Int} (hv : a.val = .fin n k e) (hf : f32.isFinite out = true)
include hv hf

theorem drainTag_of_exact (hs : a.sig = Tag.exact) :
    drainTag a out fl = if a.rounded = false ∧ fl.getLsbD 0 = false then Tag.exact else 24 := by
  rw [drainTag.eq_def, hv, hf]
  refine (if_pos hs).trans ?_
  rw [flags_and_nx]
  cases a.rounded <;> cases fl.getLsbD 0 <;> rfl

theorem drainTag_of_zero (hs : a.sig ≠ Tag.exact) (hz : f32.isZero out = true) : drainTag a out fl = 0 := by
  rw [drainTag.eq_def, hv, hf]
  exact (if_neg hs).trans (if_pos hz)

theorem drainTag_of_lead {M E : Int} (hs : a.sig ≠ Tag.exact) (hz : f32.isZero out = false) (hM : a.m = some M)
    (hE : leadFV (f32.value out) = some E) :
    ((drainTag a out fl).toNat : Int) = min (max 0 (E - (M + 2 - a.sig.toNat) - clog2 a.k + 1)) (f32.avail out) := by
  have lead : f32.lead out = E := by rw [Fmt.lead, hE]
  have tag : drainTag a out fl = f32.clampTag out (f32.lead out - (M + 2 - a.sig.toNat) - clog2 a.k + 1) := by
    rw [drainTag.eq_def, hv, hf]
    refine (if_neg hs).trans ((if_neg (by rw [hz]; exact Bool.false_ne_true)).trans ?_)
    rw [hM]
  have small := f32_avail_le hf
  rw [tag, lead, Fmt.clampTag, BitVec.toNat_ofNat]
  omega

end

/-- An accumulator that was added to, in each format. -/
theorem Accum.drain_values (a : Accum) (sat : Bool) (f : Nat) :
    (∀ m : AccMode, m = .unset ∨ a.k = 0 → a.drain m f sat = (0, if f = 0 then Tag.exact else Tag.none, 0)) ∧
    (a.k ≠ 0 → (a.drain .fp 0 sat).1 = (roundFV f32 .rne a.val).1 ∧ (a.drain .fp 0 sat).2.2 = (roundFV f32 .rne a.val).2 ∧
      ((a.drain .int 4 sat).1 : Int) = max (-(2 ^ 31)) (min (2 ^ 31 - 1) (fvInt a.val)) % 2 ^ 32 ∧
      (f ≠ 0 → (a.drain .fp f sat).2.1 = Tag.none ∧ (a.drain .int f sat).2.1 = Tag.none) ∧
      (∀ n m e, a.val = .fin n m e → let out := (a.drain .fp 0 sat).1
        f32.isFinite out = true →
        (a.sig = Tag.exact → (a.drain .fp 0 sat).2.1 = if a.rounded = false ∧ (roundFV f32 .rne a.val).2.getLsbD 0 = false then Tag.exact else 24) ∧
        (a.sig ≠ Tag.exact → f32.isZero out = true → (a.drain .fp 0 sat).2.1 = 0) ∧
        (∀ M E, a.sig ≠ Tag.exact → f32.isZero out = false → a.m = some M → leadFV (f32.value out) = some E →
          ((a.drain .fp 0 sat).2.1.toNat : Int) = min (max 0 (E - (M + 2 - a.sig.toNat) - clog2 a.k + 1)) (f32.avail out))) ∧
      ((∀ n m e, a.val ≠ .fin n m e) → (a.drain .fp 0 sat).2.1 = 0) ∧
      (a.val = .nan → (a.drain .fp 1 sat).1 = 0x7FC0 ∧ (a.drain .fp 2 sat).1 = 0x7F ∧ (a.drain .fp 3 sat).1 = 0x7E) ∧
      (∀ n, a.val = .inf n → let sg := if n then 128 else 0
        (a.drain .fp 1 sat).1 = 256 * sg + 0x7F80 ∧ (a.drain .fp 2 sat).1 = sg + 0x7E ∧ (a.drain .fp 3 sat).1 = sg + 0x7C) ∧
      (∀ n m e, a.val = .fin n m e → let sg := if n then 128 else 0
        let r := fun (F : Fmt) => roundFin F .rne n m e false
        let high := cmpFV (.fin false 448 0) (.fin false m e) < 0
        ((a.drain .fp 1 sat).1, (a.drain .fp 1 sat).2.2) = r ⟨8, 7, 127⟩ ∧
        (high → (a.drain .fp 2 sat).1 = sg + 0x7E ∧ (a.drain .fp 2 sat).2.2 = 5) ∧
        (¬ high → (a.drain .fp 2 sat).1 = sg + (r ⟨5, 3, 7⟩).1 % 128 ∧ (a.drain .fp 2 sat).2.2 = (r ⟨5, 3, 7⟩).2) ∧
        ((a.drain .fp 3 sat).1, (a.drain .fp 3 sat).2.2) =
          if sat = true ∧ (r ⟨5, 2, 15⟩).2.getLsbD 2 = true then (sg + 0x7B, 5) else r ⟨5, 2, 15⟩)) := by
  refine ⟨fun m h => Accum.drain_unset h, fun hk => ?_⟩
  have fp : AccMode.fp ≠ .unset := by decide
  have int : AccMode.int ≠ .unset := by decide
  have word := Accum.drain_fp32 (sat := sat) fp hk
  have half := Accum.drain_bf16 (sat := sat) fp hk
  have quarter := Accum.drain_e4m3 (sat := sat) fp hk
  have wide := Accum.drain_e5m2 (sat := sat) fp hk
  refine ⟨by rw [word], by rw [word], ?_, fun hf => ⟨Accum.drain_tag fp hk hf, Accum.drain_tag int hk hf⟩, fun n m e hv => ?_, fun hv => ?_,
    fun hv => ?_, fun n hv => ?_, fun n m e hv => ?_⟩
  · rw [Accum.drain_int32 int hk 0, toBits, clampInt_eq (by decide)]
    exact Int.toNat_of_nonneg (Int.emod_nonneg _ (by decide))
  · rw [word]
    intro out hf
    exact ⟨drainTag_of_exact hv hf, drainTag_of_zero hv hf, fun M E => drainTag_of_lead hv hf⟩
  · rw [word]
    cases h : a.val with
    | fin n m e => exact absurd h (hv n m e)
    | inf n => rw [drainTag.eq_def, h]
    | nan => rw [drainTag.eq_def, h]
  · rw [half, quarter, wide, hv]
    exact ⟨rfl, rfl, rfl⟩
  · rw [half, quarter, wide, hv]
    cases n <;> exact ⟨rfl, rfl, rfl⟩
  · rw [half, quarter, wide, hv]
    refine ⟨rfl, fun high => ?_, fun high => ?_, ?_⟩
    · rw [toE4m3, if_pos high]
      exact ⟨rfl, rfl⟩
    · rw [toE4m3, if_neg high]
      exact ⟨rfl, rfl⟩
    · have small : e5m2.maxFin n = (if n then 128 else 0) + 0x7B := by cases n <;> rfl
      have overflows : (sat && ((roundFin e5m2 .rne n m e false).2 &&& Flags.of) != 0) = true ↔
          sat = true ∧ (roundFin ⟨5, 2, 15⟩ .rne n m e false).2.getLsbD 2 = true := by
        rw [flags_and_of, Bool.and_eq_true]
        rfl
      exact if_congr overflows (congrArg (·, Flags.of ||| Flags.nx) small) rfl

end Sys2Proof.Machine
end

section
/-! PROOFS.  What the array writes in scratchpad (R40, R97, R106, R153): a drained row, where no live object and no poison
mark is met. -/

namespace Sys2Proof.Machine

/-! ### Bytes and side tags of a write -/

/-- Nothing but memory, and the marks of parked APPENDs, differs. -/
structure State.OnlyWritten (s t : State) : Prop where
  poison : t.poison = s.poison
  slots : t.slots = s.slots
  cores : t.cores = s.cores
  tiles : t.tiles = s.tiles
  parts : t.parts = s.parts
  sys : t.sys = s.sys
  ranges : t.ranges = s.ranges
  net : t.net.length = s.net.length

theorem State.OnlyWritten.refl (s : State) : s.OnlyWritten s := ⟨rfl, rfl, rfl, rfl, rfl, rfl, rfl, rfl⟩

theorem State.OnlyWritten.trans {s t u : State} (h : s.OnlyWritten t) (g : t.OnlyWritten u) : s.OnlyWritten u :=
  ⟨g.poison.trans h.poison, g.slots.trans h.slots, g.cores.trans h.cores, g.tiles.trans h.tiles, g.parts.trans h.parts, g.sys.trans h.sys,
    g.ranges.trans h.ranges, g.net.trans h.net⟩

section
variable {s : State} {k : Nat} {bs : List Byte} (hk : k < 2 ^ 60)
include hk

theorem State.onlyWritten_put : s.OnlyWritten (s.put k bs) := by
  obtain ⟨-, -, poison, slots, cores, tiles, -, parts, -, sys, ranges, -, -⟩ := s.storeSpad_frame k bs
  rw [State.put, if_pos hk]
  refine ⟨poison, slots, cores, tiles, parts, sys, ranges, ?_⟩
  rw [State.noteHeads_net, List.length_map, (s.storeSpad_frame k bs).2.2.2.2.2.2.1]

/-- A number read inside the bytes of a write. -/
theorem State.nat_put {o n : Nat} (h : o + n ≤ bs.length) : (s.put k bs).nat (k + o) n = leNat ((bs.drop o).take n) := by
  rw [← State.nat_setBytes s k o n bs h]
  refine State.nat_of_mem ?_ _ _
  rw [State.put, if_pos hk]
  exact (s.storeSpad_frame k bs).2.1

end

/-- Side tags written to the words from a key on. -/
def State.setSideTags (s : State) (k : Nat) (ts : List Tag) : State := (ts.zipIdx).foldl (fun s p => s.setSideTag (k + 4 * p.2) p.1) s

theorem State.onlyWritten_setSideTag (s : State) (k : Nat) (t : Tag) : s.OnlyWritten (s.setSideTag k t) := ⟨rfl, rfl, rfl, rfl, rfl, rfl, rfl, rfl⟩

section
variable (s : State) (k : Nat)

theorem State.setSideTags_append (ts : List Tag) (t : Tag) : s.setSideTags k (ts ++ [t]) = (s.setSideTags k ts).setSideTag (k + 4 * ts.length) t := by
  rw [State.setSideTags, List.zipIdx_append, List.foldl_append]
  simp [State.setSideTags]

theorem State.onlyWritten_setSideTags (ts : List Tag) : s.OnlyWritten (s.setSideTags k ts) := by
  induction ts using List.reverseRecOn with
  | nil => exact .refl s
  | append_singleton ts t ih =>
    rw [State.setSideTags_append]
    exact ih.trans (State.onlyWritten_setSideTag _ _ _)

theorem State.mem_setSideTags (ts : List Tag) : (s.setSideTags k ts).mem = s.mem := by
  induction ts using List.reverseRecOn with
  | nil => rfl
  | append_singleton ts t ih =>
    rw [State.setSideTags_append]
    exact ih

theorem State.sideTag_setSideTags (ts : List Tag) (a : Nat) :
    (s.setSideTags k ts).sideTag a = if k / 4 ≤ a / 4 ∧ a / 4 < k / 4 + ts.length then ts.getD (a / 4 - k / 4) 0 else s.sideTag a := by
  induction ts using List.reverseRecOn with
  | nil => exact (if_neg (by simp only [List.length_nil]; omega)).symm
  | append_singleton ts t ih =>
    have word : (k + 4 * ts.length) / 4 = k / 4 + ts.length := by omega
    rw [State.setSideTags_append, State.sideTag_setSideTag, ih, List.length_append, List.length_singleton, word]
    rcases Nat.lt_trichotomy (a / 4) (k / 4 + ts.length) with h | h | h
    · rw [if_neg (by omega)]
      by_cases low : k / 4 ≤ a / 4
      · rw [if_pos ⟨low, h⟩, if_pos ⟨low, by omega⟩, List.getD_append _ _ _ _ (by omega)]
      · rw [if_neg (by omega), if_neg (by omega)]
    · rw [if_pos h, if_pos (by omega), h, Nat.add_sub_cancel_left, List.getD_append_right _ _ _ _ le_rfl, Nat.sub_self]
      rfl
    · rw [if_neg (by omega), if_neg (by omega), if_neg (by omega)]

end

/-! ### Where no live object is met (R106) -/

/-- No live object meets the raw bytes [lo, hi) of core c, and nothing is poisoned. -/
structure State.Bare (s : State) (c lo hi : Nat) : Prop where
  objects : ∀ p ∈ (s.core c).objects, p.1 + 64 ≤ lo ∨ hi ≤ p.1
  poison : s.poison = []

theorem State.Bare.of_written {s t : State} {c lo hi : Nat} (h : s.Bare c lo hi) (w : s.OnlyWritten t) : t.Bare c lo hi := by
  have core : t.core c = s.core c := by rw [State.core, State.core, w.cores]
  exact ⟨fun p hp => h.objects p (core ▸ hp), w.poison.trans h.poison⟩

theorem overlaps_of_apart {lo hi o : Nat} (h : o + 64 ≤ lo ∨ hi ≤ o) : overlaps lo hi o (o + 64) = false := by
  rw [overlaps, decide_eq_false_iff_not]
  omega

/-- Clean bytes move no poison where there is none. -/
theorem State.movePoison_of_clean {s : State} (h : s.poison = []) {k : Nat} (bs : List Byte) : s.movePoison k (bs.map (fun _ => false)) = s :=
  if_pos ⟨h, by simp⟩

section
variable {s : State} {c lo hi addr : Nat} (bare : s.Bare c lo hi) (hc : homeOf addr = c) (hl : lo ≤ offOf addr)
include bare hc hl

/-- Bytes that the array writes are stored as they are. -/
theorem State.arrayPut_of_bare {part launch : Nat} {pid : BitVec 16} {bs : List Byte} (hh : offOf addr + bs.length ≤ hi) :
    s.arrayPut part launch pid addr bs = s.put (rawKey addr) bs := by
  have key : rawKey addr < 2 ^ 60 := (spadKey_lt addr).trans (by decide)
  have none_ : (s.core (homeOf addr)).objects.filter (fun p => overlaps (offOf addr) (offOf addr + bs.length) p.1 (p.1 + 64) &&
      decide (dKind.get (s.desc (homeOf addr * 2 ^ 20 + p.1)) ≠ 0)) = [] := List.filter_eq_nil_iff.mpr fun p hp => by
    have apart := bare.objects p (hc ▸ hp)
    rw [overlaps_of_apart (by omega), Bool.false_and]
    exact Bool.false_ne_true
  have poison : (s.put (rawKey addr) bs).poison = [] := (State.onlyWritten_put key).poison.trans bare.poison
  rw [State.arrayPut, State.unitPut, none_]
  exact (if_pos rfl).trans (State.movePoison_of_clean poison _)

/-- The tags of drained words are set as they are. -/
theorem State.drainTags_of_bare {ts : List Tag} (hh : offOf addr + 4 * ts.length ≤ hi) : s.drainTags addr ts = s.setSideTags (rawKey addr) ts := by
  induction ts using List.reverseRecOn with
  | nil => rfl
  | append_singleton ts t ih =>
    rw [List.length_append, List.length_singleton] at hh
    have before := ih (by omega)
    have bare' := bare.of_written (s.onlyWritten_setSideTags (rawKey addr) ts)
    have clear : (s.setSideTags (rawKey addr) ts).liveTouch (homeOf addr) (offOf addr + 4 * ts.length) 4 = false := by
      rw [State.liveTouch, List.any_eq_false]
      intro p hp
      have apart := bare'.objects p (hc ▸ hp)
      rw [overlaps_of_apart (by omega), Bool.false_and]
      exact Bool.false_ne_true
    rw [State.setSideTags_append, ← before]
    rw [← before] at clear
    rw [State.drainTags, List.zipIdx_append, List.foldl_append]
    simp only [List.zipIdx_singleton, List.foldl_cons, List.foldl_nil, Nat.zero_add]
    exact if_neg (by rw [Bool.not_eq_true]; exact clear)

end

/-! ### The place of a drain word's rows (R152, R153) -/

theorem dwSize_cases (v : Word) : dwSize v = 1 ∨ dwSize v = 2 ∨ dwSize v = 4 := by
  rw [dwSize]
  split <;> simp

theorem dwSize_of_fp32 {v : Word} (h : dwFmt v = 0) : dwSize v = 4 := by simp [dwSize, h]

theorem dwExtent_eq {v : Word} {r j : Nat} (hj : j < r) : dwExtent v r = 32 * r * dwSize v + (if dwMask v then 4 * r else 0) := if_neg (by omega)

section
variable {s : State} {v : Word} {r : Nat} (h : s.DrainOpen v r)
include h

theorem State.DrainOpen.bare : s.Bare (field v 0 16) (field v 16 17) (field v 16 17 + dwExtent v r) := ⟨h.objects, h.poison⟩

/-- An address within a drain's output. -/
theorem State.DrainOpen.place {x : Nat} (hx : x ≤ dwExtent v r) :
    homeOf (dwDest v + x) = field v 0 16 ∧ offOf (dwDest v + x) = field v 16 17 + x ∧ rawKey (dwDest v + x) = rawKey (dwDest v) + x := by
  have area := h.area
  have core : field v 0 16 < 2 ^ 16 := Nat.mod_lt _ (by decide)
  rw [reservedBase] at area
  have home (y : Nat) (hy : y ≤ dwExtent v r) : homeOf (dwDest v + y) = field v 0 16 := by
    rw [homeOf, dwDest]
    omega
  have off (y : Nat) (hy : y ≤ dwExtent v r) : offOf (dwDest v + y) = field v 16 17 + y := by
    rw [offOf, dwDest]
    omega
  refine ⟨home x hx, off x hx, ?_⟩
  have home0 := home 0 (Nat.zero_le _)
  have off0 := off 0 (Nat.zero_le _)
  rw [Nat.add_zero] at home0 off0
  rw [rawKey, rawKey, spadKey, spadKey, home x hx, off x hx, home0, off0, Nat.add_zero, Nat.add_assoc]

theorem State.DrainOpen.aligned_key : rawKey (dwDest v) % 4 = 0 := by
  obtain ⟨home, off, -⟩ := h.place (x := 0) (Nat.zero_le _)
  rw [Nat.add_zero] at home off
  have := h.aligned
  rw [rawKey, spadKey, home, off]
  omega

end

/-! ### A row of a drain in memory -/

/-- The bytes of elements, each of a size. -/
def drainBytes (size : Nat) (es : List (Nat × Tag × Flags)) : List Byte := es.flatMap (fun e => leBytes size e.1)

theorem length_drainBytes (size : Nat) (es : List (Nat × Tag × Flags)) : (drainBytes size es).length = size * es.length := by
  induction es with
  | nil => rfl
  | cons e es ih =>
    rw [drainBytes, List.flatMap_cons, List.length_append, leBytes_length]
    rw [drainBytes] at ih
    rw [ih, List.length_cons, Nat.mul_succ, Nat.add_comm]

/-- The bytes of element n. -/
theorem take_drainBytes (size : Nat) (es : List (Nat × Tag × Flags)) (n : Nat) (h : n < es.length) :
    ((drainBytes size es).drop (size * n)).take size = leBytes size (es.getD n (0, 0, 0)).1 := by
  induction es generalizing n with
  | nil => exact absurd h (Nat.not_lt_zero n)
  | cons e es ih =>
    have len := leBytes_length size e.1
    rw [drainBytes, List.flatMap_cons]
    cases n with
    | zero =>
      rw [Nat.mul_zero, List.drop_zero, List.take_append_of_le_length len.ge, List.take_of_length_le len.le]
      rfl
    | succ n =>
      rw [Nat.mul_succ, Nat.add_comm, ← List.drop_drop, List.drop_left' len, List.getD_cons_succ]
      exact ih n (Nat.lt_of_succ_lt_succ h)

/-- Row j of a drain of r rows, as it is stored (R153). -/
def State.writeRow (s : State) (v : Word) (r j : Nat) (es : List (Nat × Tag × Flags)) : State :=
  let d := rawKey (dwDest v)
  let a := s.put (d + 32 * j * dwSize v) (drainBytes (dwSize v) es)
  let b := if dwFmt v = 0 then a.setSideTags (d + 32 * j * dwSize v) (es.map (fun e => e.2.1)) else a
  if dwMask v then b.put (d + 32 * r * dwSize v + 4 * j) (leBytes 4 (zeroMask (dwFmt v) (dwSize v) es)) else b

section
variable {s : State} {v : Word} {r j : Nat} {es : List (Nat × Tag × Flags)} (h : s.DrainOpen v r) (hj : j < r)
include h hj

/-- The elements and the mask of row j lie within the drain's output. -/
theorem State.DrainOpen.row_within : 32 * j * dwSize v + 32 * dwSize v ≤ 32 * r * dwSize v ∧ 32 * r * dwSize v ≤ dwExtent v r ∧
    (dwMask v = true → 32 * r * dwSize v + 4 * j + 4 ≤ dwExtent v r) ∧ rawKey (dwDest v) + dwExtent v r < 2 ^ 60 := by
  obtain ⟨-, -, key⟩ := h.place (x := dwExtent v r) le_rfl
  have bound := spadKey_lt (dwDest v + dwExtent v r)
  rw [← rawKey, key] at bound
  have rows : (j + 1) * (32 * dwSize v) ≤ r * (32 * dwSize v) := Nat.mul_le_mul_right _ hj
  refine ⟨by linarith, ?_, fun mask => ?_, by omega⟩
  · rw [dwExtent_eq hj]
    exact Nat.le_add_right _ _
  · rw [dwExtent_eq hj, if_pos mask]
    omega

theorem State.onlyWritten_writeRow : s.OnlyWritten (s.writeRow v r j es) := by
  obtain ⟨row, rows, mask, key⟩ := h.row_within hj
  have elements : s.OnlyWritten (s.put (rawKey (dwDest v) + 32 * j * dwSize v) (drainBytes (dwSize v) es)) := State.onlyWritten_put (by omega)
  have tagged : s.OnlyWritten (if dwFmt v = 0 then (s.put (rawKey (dwDest v) + 32 * j * dwSize v) (drainBytes (dwSize v) es)).setSideTags
      (rawKey (dwDest v) + 32 * j * dwSize v) (es.map (fun e => e.2.1)) else s.put (rawKey (dwDest v) + 32 * j * dwSize v) (drainBytes (dwSize v) es)) := by
    split
    · exact elements.trans (State.onlyWritten_setSideTags _ _ _)
    · exact elements
  rw [State.writeRow]
  by_cases hm : dwMask v = true
  · have := mask hm
    rw [if_pos hm]
    exact tagged.trans (State.onlyWritten_put (by omega))
  · rw [if_neg hm]
    exact tagged

/-- Where nothing is met the array stores a row as it is. -/
theorem State.putRow_eq_writeRow (hes : es.length = 32) (tile : Nat) (o : GangOp) : s.putRow tile o v r j es = s.writeRow v r j es := by
  obtain ⟨row, rows, mask, key⟩ := h.row_within hj
  obtain ⟨home, off, place⟩ := h.place (x := 32 * j * dwSize v) (by omega)
  have len : (drainBytes (dwSize v) es).length = 32 * dwSize v := by rw [length_drainBytes, hes, Nat.mul_comm]
  have elements (part : Nat) (pid : BitVec 16) : s.arrayPut part o.launch pid (dwDest v + 32 * j * dwSize v) (drainBytes (dwSize v) es) =
      s.put (rawKey (dwDest v) + 32 * j * dwSize v) (drainBytes (dwSize v) es) := by
    rw [State.arrayPut_of_bare h.bare home (by omega) (by omega), place]
  have written : s.OnlyWritten (s.put (rawKey (dwDest v) + 32 * j * dwSize v) (drainBytes (dwSize v) es)) := State.onlyWritten_put (by omega)
  obtain ⟨a, stored⟩ : ∃ a, a = s.put (rawKey (dwDest v) + 32 * j * dwSize v) (drainBytes (dwSize v) es) := ⟨_, rfl⟩
  rw [← stored] at written elements
  have tags : dwFmt v = 0 → a.drainTags (dwDest v + 32 * j * dwSize v) (es.map (fun e => e.2.1)) =
      a.setSideTags (rawKey (dwDest v) + 32 * j * dwSize v) (es.map (fun e => e.2.1)) := fun fp32 => by
    have four := dwSize_of_fp32 fp32
    rw [State.drainTags_of_bare (h.bare.of_written written) home (by omega) (by rw [List.length_map, hes]; omega), place]
  obtain ⟨b, tagged⟩ : ∃ b, b = if dwFmt v = 0 then a.setSideTags (rawKey (dwDest v) + 32 * j * dwSize v) (es.map (fun e => e.2.1)) else a := ⟨_, rfl⟩
  have same : (if dwFmt v = 0 then a.drainTags (dwDest v + 32 * j * dwSize v) (es.map (fun e => e.2.1)) else a) = b := by
    rw [tagged]
    exact ite_congr rfl tags fun _ => rfl
  have open_ : b.Bare (field v 0 16) (field v 16 17) (field v 16 17 + dwExtent v r) := by
    refine h.bare.of_written (written.trans ?_)
    rw [tagged]
    split
    · exact State.onlyWritten_setSideTags _ _ _
    · exact .refl a
  have masks : dwMask v = true → ∀ (part : Nat) (pid : BitVec 16),
      b.arrayPut part o.launch pid (dwDest v + 32 * r * dwSize v + 4 * j) (leBytes 4 (zeroMask (dwFmt v) (dwSize v) es)) =
        b.put (rawKey (dwDest v) + 32 * r * dwSize v + 4 * j) (leBytes 4 (zeroMask (dwFmt v) (dwSize v) es)) := fun hm part pid => by
    have inside := mask hm
    obtain ⟨home, off, place⟩ := h.place (x := 32 * r * dwSize v + 4 * j) (by omega)
    rw [← Nat.add_assoc] at home off place
    rw [State.arrayPut_of_bare open_ home (by omega) (by rw [leBytes_length]; omega), place, Nat.add_assoc]
  obtain ⟨pid, ofLaunch⟩ : ∃ pid, pid = ((s.launch? o.launch).map (fun l => l.pid)).getD 0 := ⟨_, rfl⟩
  obtain ⟨part, ofTile⟩ : ∃ part, part = (s.partOf (16 * tile)).getD 0 := ⟨_, rfl⟩
  have first := elements part pid
  rw [State.putRow, State.writeRow, ← ofLaunch, ← ofTile, ← stored, ← tagged, ← same, ← first]
  refine ite_congr rfl (fun hm => ?_) fun _ => rfl
  rw [first, same]
  change State.arrayPut (if dwFmt v = 0 then State.drainTags (s.arrayPut part o.launch pid (dwDest v + 32 * j * dwSize v) (drainBytes (dwSize v) es)) _ _
    else s.arrayPut part o.launch pid (dwDest v + 32 * j * dwSize v) (drainBytes (dwSize v) es)) _ _ _ _ _ = _
  rw [first, same]
  exact masks hm part pid

end

/-! ### The zero mask (R153) -/

/-- Bit n of a zero mask is set when element n, as it is stored, is other than ±0. -/
def zeroBits (v : Word) (e : Nat → Nat × Tag × Flags) (n : Nat) : Nat :=
  ((List.range n).map (fun n => if (e n).1 % (if dwFmt v = 4 then 2 ^ 32 else 2 ^ (8 * dwSize v - 1)) ≠ 0 then 2 ^ n else 0)).sum

theorem zeroBits_succ (v : Word) (e : Nat → Nat × Tag × Flags) (n : Nat) : zeroBits v e (n + 1) =
    zeroBits v e n + if (e n).1 % (if dwFmt v = 4 then 2 ^ 32 else 2 ^ (8 * dwSize v - 1)) ≠ 0 then 2 ^ n else 0 := by
  rw [zeroBits, List.range_succ, List.map_append, List.sum_append, zeroBits, List.map_singleton, List.sum_singleton]

theorem zeroBits_lt (v : Word) (e : Nat → Nat × Tag × Flags) (n : Nat) : zeroBits v e n < 2 ^ n := by
  induction n with
  | zero => exact Nat.zero_lt_one
  | succ n ih =>
    have bit (p : Prop) [Decidable p] : (if p then 2 ^ n else 0) ≤ 2 ^ n := by split <;> omega
    rw [zeroBits_succ]
    exact (Nat.add_lt_add_of_lt_of_le ih (bit _)).trans_eq (by rw [Nat.pow_succ, Nat.mul_two])

theorem zeroMask_eq {v : Word} {e : Nat → Nat × Tag × Flags} (fits : dwFmt v = 4 → ∀ n, (e n).1 < 2 ^ 32) (n : Nat) :
    zeroMask (dwFmt v) (dwSize v) ((List.range n).map e) = zeroBits v e n := by
  induction n with
  | zero => rfl
  | succ n ih =>
    have nonzero : (!drainedZero (dwFmt v) (dwSize v) (e n).1) = decide ((e n).1 % (if dwFmt v = 4 then 2 ^ 32 else 2 ^ (8 * dwSize v - 1)) ≠ 0) := by
      rw [drainedZero]
      by_cases four : dwFmt v = 4
      · rw [if_pos four, if_pos four, Nat.mod_eq_of_lt (fits four n), decide_not]
      · rw [if_neg four, if_neg four, decide_not]
    rw [zeroMask] at ih
    rw [zeroMask, List.range_succ, List.map_append, List.zipIdx_append, List.filter_append, List.foldl_append, ih, zeroBits_succ]
    simp only [List.map_singleton, List.zipIdx_singleton, List.length_map, List.length_range, Nat.zero_add, List.filter_cons, List.filter_nil, nonzero,
      decide_eq_true_eq]
    by_cases set_ : (e n).1 % (if dwFmt v = 4 then 2 ^ 32 else 2 ^ (8 * dwSize v - 1)) ≠ 0
    · rw [if_pos set_, if_pos set_]
      rfl
    · rw [if_neg set_, if_neg set_]
      rfl

/-! ### What a row leaves (R40, R97, R153) -/

/-- Row j of a drain of r rows in memory: its elements, its mask, their tags, and everything else as before. -/
structure State.RowWritten (s t : State) (v : Word) (r j : Nat) (e : Nat → Nat × Tag × Flags) : Prop where
  elements : ∀ n, n < 32 → t.nat (rawKey (dwDest v) + (32 * j + n) * dwSize v) (dwSize v) = (e n).1 % 2 ^ (8 * dwSize v)
  mask : dwMask v = true → t.nat (rawKey (dwDest v) + 32 * r * dwSize v + 4 * j) 4 = zeroBits v e 32
  outside : ∀ a, (a < rawKey (dwDest v) + 32 * j * dwSize v ∨ rawKey (dwDest v) + 32 * j * dwSize v + 32 * dwSize v ≤ a) →
    (dwMask v = true → a < rawKey (dwDest v) + 32 * r * dwSize v + 4 * j ∨ rawKey (dwDest v) + 32 * r * dwSize v + 4 * j + 4 ≤ a) →
    t.byte a = s.byte a ∧ t.sideTag a = s.sideTag a
  tags : ∀ i, i < 32 * dwSize v → t.sideTag (rawKey (dwDest v) + 32 * j * dwSize v + i) = if dwFmt v = 0 then (e (i / 4)).2.1 else Tag.none
  maskTags : dwMask v = true → ∀ i, i < 4 → t.sideTag (rawKey (dwDest v) + 32 * r * dwSize v + 4 * j + i) = Tag.none

section
variable {s : State} {k : Nat} {bs : List Byte} (hk : k < 2 ^ 60) (aligned : k % 4 = 0) (whole : bs.length % 4 = 0) (some_ : bs ≠ [])
include hk aligned whole some_

/-- The side tags of whole words that are written. -/
theorem State.sideTag_put_words (a : Nat) : (s.put k bs).sideTag a = if k ≤ a ∧ a < k + bs.length then Tag.none else s.sideTag a := by
  have pos := List.length_pos_iff.mpr some_
  rw [State.sideTag_put hk some_]
  exact if_congr (by omega) rfl rfl

end

/-- The elements of a row written, with their tags. -/
theorem State.elements_written {s b : State} {v : Word} {r j : Nat} {e : Nat → Nat × Tag × Flags} (h : s.DrainOpen v r) (hj : j < r)
    (hb : b = if dwFmt v = 0 then (s.put (rawKey (dwDest v) + 32 * j * dwSize v) (drainBytes (dwSize v) ((List.range 32).map e))).setSideTags
      (rawKey (dwDest v) + 32 * j * dwSize v) (((List.range 32).map e).map (fun e => e.2.1))
      else s.put (rawKey (dwDest v) + 32 * j * dwSize v) (drainBytes (dwSize v) ((List.range 32).map e))) :
    (∀ n, n < 32 → b.nat (rawKey (dwDest v) + (32 * j + n) * dwSize v) (dwSize v) = (e n).1 % 2 ^ (8 * dwSize v)) ∧
    (∀ a, (a < rawKey (dwDest v) + 32 * j * dwSize v ∨ rawKey (dwDest v) + 32 * j * dwSize v + 32 * dwSize v ≤ a) →
      b.byte a = s.byte a ∧ b.sideTag a = s.sideTag a) ∧
    (∀ i, i < 32 * dwSize v → b.sideTag (rawKey (dwDest v) + 32 * j * dwSize v + i) = if dwFmt v = 0 then (e (i / 4)).2.1 else Tag.none) := by
  obtain ⟨row, rows, -, bound⟩ := h.row_within hj
  have aligned := h.aligned_key
  obtain ⟨D, base⟩ : ∃ D, D = rawKey (dwDest v) := ⟨_, rfl⟩
  obtain ⟨es, row_⟩ : ∃ es, es = (List.range 32).map e := ⟨_, rfl⟩
  rw [← base] at aligned bound hb ⊢
  rw [← row_] at hb
  have count : es.length = 32 := by rw [row_, List.length_map, List.length_range]
  have value (n : Nat) (hn : n < 32) : es.getD n (0, 0, 0) = e n := by
    rw [row_]
    simp [hn]
  have len : (drainBytes (dwSize v) es).length = 32 * dwSize v := by rw [length_drainBytes, count, Nat.mul_comm]
  have size := dwSize_cases v
  have nonempty : drainBytes (dwSize v) es ≠ [] := List.ne_nil_of_length_pos (by omega)
  have key : D + 32 * j * dwSize v < 2 ^ 60 := by omega
  have even : (D + 32 * j * dwSize v) % 4 = 0 := by rcases size with h | h | h <;> rw [h] <;> omega
  have mem : b.mem = (s.put (D + 32 * j * dwSize v) (drainBytes (dwSize v) es)).mem := by
    rw [hb]
    split
    · exact State.mem_setSideTags _ _ _
    · rfl
  have put (a : Nat) := State.sideTag_put_words (s := s) key even (by omega) nonempty a
  refine ⟨fun n hn => ?_, fun a ha => ⟨?_, ?_⟩, fun i hi => ?_⟩
  · have inside : dwSize v * n + dwSize v ≤ (drainBytes (dwSize v) es).length := by
      rw [len]
      rcases size with h | h | h <;> rw [h] <;> omega
    have address : D + (32 * j + n) * dwSize v = D + 32 * j * dwSize v + dwSize v * n := by ring
    rw [State.nat_of_mem mem, address, State.nat_put key inside, take_drainBytes _ _ _ (by omega), value n hn, leNat_leBytes,
      show (256 : Nat) = 2 ^ 8 from rfl, ← Nat.pow_mul]
  · rw [State.byte_of_mem mem, State.byte_put key, if_neg (by omega)]
  · rw [hb]
    split
    · next fp32 =>
      have four := dwSize_of_fp32 fp32
      rw [State.sideTag_setSideTags, List.length_map, count, if_neg (by omega), put, if_neg (by omega)]
    · rw [put, if_neg (by omega)]
  · rw [hb]
    split
    · next fp32 =>
      have four := dwSize_of_fp32 fp32
      rw [four] at hi even ⊢
      rw [State.sideTag_setSideTags, List.length_map, count, if_pos (by omega)]
      have index : (D + 32 * j * 4 + i) / 4 - (D + 32 * j * 4) / 4 = i / 4 := by omega
      rw [index, row_]
      simp [show i / 4 < 32 by omega]
    · rw [put, if_pos (by omega)]

/-- A row that is written (R153). -/
theorem State.rowWritten_writeRow {s : State} {v : Word} {r j : Nat} {e : Nat → Nat × Tag × Flags} (h : s.DrainOpen v r) (hj : j < r)
    (fits : dwFmt v = 4 → ∀ n, (e n).1 < 2 ^ 32) : s.RowWritten (s.writeRow v r j ((List.range 32).map e)) v r j e := by
  obtain ⟨row, rows, mask, bound⟩ := h.row_within hj
  obtain ⟨b, tagged⟩ : ∃ b, b = if dwFmt v = 0 then (s.put (rawKey (dwDest v) + 32 * j * dwSize v) (drainBytes (dwSize v) ((List.range 32).map e))).setSideTags
      (rawKey (dwDest v) + 32 * j * dwSize v) (((List.range 32).map e).map (fun e => e.2.1))
      else s.put (rawKey (dwDest v) + 32 * j * dwSize v) (drainBytes (dwSize v) ((List.range 32).map e)) := ⟨_, rfl⟩
  obtain ⟨elements, outside, tags⟩ := State.elements_written h hj tagged
  rw [State.writeRow, ← tagged]
  by_cases hm : dwMask v = true
  · have inside := mask hm
    have aligned := h.aligned_key
    have size := dwSize_cases v
    have key : rawKey (dwDest v) + 32 * r * dwSize v + 4 * j < 2 ^ 60 := by omega
    have even : (rawKey (dwDest v) + 32 * r * dwSize v + 4 * j) % 4 = 0 := by rcases size with h | h | h <;> rw [h] <;> omega
    have len := leBytes_length 4 (zeroMask (dwFmt v) (dwSize v) ((List.range 32).map e))
    have byte (a : Nat) := State.byte_put (s := b) (bs := leBytes 4 (zeroMask (dwFmt v) (dwSize v) ((List.range 32).map e))) key a
    have tag (a : Nat) := State.sideTag_put_words (s := b) key even (by rw [len]) (leBytes_ne_nil 3 (zeroMask (dwFmt v) (dwSize v) ((List.range 32).map e))) a
    rw [len] at byte tag
    rw [if_pos hm]
    refine ⟨fun n hn => ?_, fun _ => ?_, fun a ha hb => ?_, fun i hi => ?_, fun _ i hi => ?_⟩
    · rw [← elements n hn]
      refine State.nat_of_bytes fun i hi => ?_
      have below : (32 * j + n) * dwSize v + dwSize v ≤ 32 * j * dwSize v + 32 * dwSize v := by
        rcases size with h | h | h <;> rw [h] <;> omega
      rw [byte, if_neg (by omega)]
    · have whole := State.nat_put (s := b) (o := 0) (n := 4) (bs := leBytes 4 (zeroMask (dwFmt v) (dwSize v) ((List.range 32).map e))) key (by rw [len])
      have bits := zeroBits_lt v e 32
      rw [Nat.add_zero] at whole
      rw [whole, List.drop_zero, List.take_of_length_le len.le, leNat_leBytes, zeroMask_eq fits]
      exact Nat.mod_eq_of_lt bits
    · rw [byte, tag, if_neg (by have := hb hm; omega), if_neg (by have := hb hm; omega)]
      exact outside a ha
    · rw [tag, if_neg (by omega)]
      exact tags i hi
    · rw [tag, if_pos (by omega)]
  · rw [if_neg hm]
    exact ⟨elements, fun h => absurd h hm, fun a ha _ => outside a ha, tags, fun h => absurd h hm⟩

/-! ### The rows of a drain, one after another -/

/-- Rows 0 to n - 1 of a drain of r rows written. -/
def State.writeRows (s : State) (v : Word) (r n : Nat) (es : Nat → List (Nat × Tag × Flags)) : State :=
  (List.range n).foldl (fun s j => s.writeRow v r j (es j)) s

theorem State.writeRows_succ (s : State) (v : Word) (r n : Nat) (es : Nat → List (Nat × Tag × Flags)) :
    s.writeRows v r (n + 1) es = (s.writeRows v r n es).writeRow v r n (es n) := by
  rw [State.writeRows, List.range_succ, List.foldl_append]
  rfl

section
variable {s : State} {v : Word} {r : Nat} (h : s.DrainOpen v r)
include h

theorem State.DrainOpen.of_written {t : State} (w : s.OnlyWritten t) : t.DrainOpen v r := by
  have bare := h.bare.of_written w
  exact ⟨h.aligned, h.area, bare.objects, bare.poison⟩

theorem State.onlyWritten_writeRows {n : Nat} (hn : n ≤ r) (es : Nat → List (Nat × Tag × Flags)) : s.OnlyWritten (s.writeRows v r n es) := by
  induction n with
  | zero => exact .refl s
  | succ n ih =>
    have before := ih (by omega)
    rw [State.writeRows_succ]
    exact before.trans (State.onlyWritten_writeRow (h.of_written before) hn)

end

/-- The first n of r rows in memory: their elements, masks and tags, and everything else as before. -/
structure State.RowsWritten (s t : State) (v : Word) (r n : Nat) (out : Nat → Nat → Nat × Tag × Flags) : Prop where
  elements : ∀ j m, j < n → m < 32 → t.nat (rawKey (dwDest v) + (32 * j + m) * dwSize v) (dwSize v) = (out j m).1 % 2 ^ (8 * dwSize v)
  masks : dwMask v = true → ∀ j, j < n → t.nat (rawKey (dwDest v) + 32 * r * dwSize v + 4 * j) 4 = zeroBits v (out j) 32
  outside : ∀ a, (a < rawKey (dwDest v) ∨ rawKey (dwDest v) + 32 * n * dwSize v ≤ a) →
    (dwMask v = true → a < rawKey (dwDest v) + 32 * r * dwSize v ∨ rawKey (dwDest v) + 32 * r * dwSize v + 4 * n ≤ a) →
    t.byte a = s.byte a ∧ t.sideTag a = s.sideTag a
  tags : ∀ i, i < 32 * n * dwSize v → t.sideTag (rawKey (dwDest v) + i) = if dwFmt v = 0 then (out (i / 128) (i / 4 % 32)).2.1 else Tag.none
  maskTags : dwMask v = true → ∀ i, i < 4 * n → t.sideTag (rawKey (dwDest v) + 32 * r * dwSize v + i) = Tag.none

/-- One more row. -/
theorem State.RowsWritten.succ {s t u : State} {v : Word} {r n : Nat} {out : Nat → Nat → Nat × Tag × Flags} (h : s.RowsWritten t v r n out)
    (row : t.RowWritten u v r n (out n)) (hn : n < r) : s.RowsWritten u v r (n + 1) out := by
  have size := dwSize_cases v
  have fp32 := @dwSize_of_fp32 v
  obtain ⟨elements, masks, outside, tags, maskTags⟩ := h
  obtain ⟨element, mask, apart, tag, maskTag⟩ := row
  refine ⟨fun j m hj hm => ?_, fun hmask j hj => ?_, fun a ha hb => ?_, fun i hi => ?_, fun hmask i hi => ?_⟩
  · rcases Nat.lt_succ_iff_lt_or_eq.mp hj with before | rfl
    · rw [← elements j m before hm]
      refine State.nat_of_bytes fun i hi => (apart _ (.inl ?_) fun _ => .inl ?_).1
      · rcases size with e | e | e <;> rw [e] at hi ⊢ <;> omega
      · rcases size with e | e | e <;> rw [e] at hi ⊢ <;> omega
    · exact element m hm
  · rcases Nat.lt_succ_iff_lt_or_eq.mp hj with before | rfl
    · rw [← masks hmask j before]
      refine State.nat_of_bytes fun i hi => (apart _ (.inr ?_) fun _ => .inl ?_).1
      · rcases size with e | e | e <;> rw [e] <;> omega
      · omega
    · exact mask hmask
  · have old := outside a (by rcases size with e | e | e <;> rw [e] at ha ⊢ <;> omega) fun hm => by have := hb hm; omega
    have new := apart a (by rcases size with e | e | e <;> rw [e] at ha ⊢ <;> omega) fun hm => by have := hb hm; omega
    exact ⟨new.1.trans old.1, new.2.trans old.2⟩
  · by_cases before : i < 32 * n * dwSize v
    · rw [← tags i before]
      refine (apart _ (.inl ?_) fun _ => .inl ?_).2
      · omega
      · rcases size with e | e | e <;> rw [e] at before ⊢ <;> omega
    · have here := tag (i - 32 * n * dwSize v) (by rcases size with e | e | e <;> rw [e] at hi before ⊢ <;> omega)
      rw [Nat.add_assoc, Nat.add_sub_cancel' (not_lt.mp before)] at here
      rw [here]
      refine ite_congr rfl (fun zero => ?_) fun _ => rfl
      rw [fp32 zero] at hi before ⊢
      rw [show i / 128 = n by omega, show i / 4 % 32 = (i - 32 * n * 4) / 4 by omega]
  · by_cases before : i < 4 * n
    · rw [← maskTags hmask i before]
      refine (apart _ (.inr ?_) fun _ => .inl ?_).2
      · rcases size with e | e | e <;> rw [e] <;> omega
      · omega
    · have here := maskTag hmask (i - 4 * n) (by omega)
      rw [Nat.add_assoc, Nat.add_sub_cancel' (not_lt.mp before)] at here
      exact here

/-- The first n rows of a drain written. -/
theorem State.rowsWritten_writeRows {s : State} {v : Word} {r n : Nat} {out : Nat → Nat → Nat × Tag × Flags} (h : s.DrainOpen v r)
    (fits : dwFmt v = 4 → ∀ j m, (out j m).1 < 2 ^ 32) (hn : n ≤ r) :
    s.RowsWritten (s.writeRows v r n (fun j => (List.range 32).map (out j))) v r n out := by
  induction n with
  | zero =>
    exact ⟨fun j _ hj => absurd hj (Nat.not_lt_zero j), fun _ j hj => absurd hj (Nat.not_lt_zero j), fun a _ _ => ⟨rfl, rfl⟩,
      fun i hi => absurd hi (by omega), fun _ i hi => absurd hi (by omega)⟩
  | succ n ih =>
    have before := h.of_written (State.onlyWritten_writeRows h (Nat.le_of_succ_le hn) (fun j => (List.range 32).map (out j)))
    rw [State.writeRows_succ]
    exact (ih (Nat.le_of_succ_le hn)).succ (State.rowWritten_writeRow before hn fun four => fits four n) hn

/-- All rows of a drain written are what a drain leaves (R153). -/
theorem State.drainedTo_of_rowsWritten {s t : State} {v : Word} {r : Nat} {out : Nat → Nat → Nat × Tag × Flags} (h : s.RowsWritten t v r r out) :
    s.DrainedTo t v r out := by
  obtain ⟨elements, masks, outside, tags, maskTags⟩ := h
  have fp32 := @dwSize_of_fp32 v
  have extent : dwExtent v r = 32 * r * dwSize v + (if dwMask v then 4 * r else 0) := by
    rcases Nat.eq_zero_or_pos r with rfl | pos
    · rw [dwExtent, if_pos rfl]
      simp
    · exact dwExtent_eq pos
  refine ⟨elements, masks, fun a ha => outside a ?_ fun hm => ?_, fun i hi => ?_⟩
  · rw [extent] at ha
    omega
  · rw [extent, if_pos hm] at ha
    omega
  · rw [extent] at hi
    by_cases low : i < 32 * r * dwSize v
    · rw [tags i low]
      refine if_congr ⟨fun zero => ⟨zero, ?_⟩, fun h => h.1⟩ rfl rfl
      rw [fp32 zero] at low
      omega
    · have hm : dwMask v = true := by
        by_contra hm
        rw [if_neg hm] at hi
        omega
      rw [if_pos hm] at hi
      have here := maskTags hm (i - 32 * r * dwSize v) (by omega)
      rw [Nat.add_assoc, Nat.add_sub_cancel' (not_lt.mp low)] at here
      rw [here, if_neg]
      rintro ⟨zero, high⟩
      rw [fp32 zero] at low
      omega

end Sys2Proof.Machine
end

section
/-! PROOFS.  Flags by the core of a column, and the slots in which they accrue (R71, R153, R289). -/

namespace Sys2Proof.Machine

/-! ### Notes of flags -/

/-- The flags of columns 0 to n - 1 noted for their cores. -/
def noteRow (m : SMap Flags) (f : Nat → Flags) (n : Nat) : SMap Flags := (List.range n).foldl (fun m c => noteFlags m c (f c)) m

theorem flags_or_zero (f : Flags) : f ||| 0 = f := BitVec.or_zero

theorem noteRow_succ (m : SMap Flags) (f : Nat → Flags) (n : Nat) : noteRow m f (n + 1) = noteFlags (noteRow m f n) n (f n) := by
  rw [noteRow, List.range_succ, List.foldl_append]
  rfl

theorem mapGet_noteFlags (m : SMap Flags) (col : Nat) (f : Flags) (c : Nat) :
    mapGet (noteFlags m col f) 0 c = if c = col / 2 then mapGet m 0 c ||| f else mapGet m 0 c := by
  rw [noteFlags]
  by_cases zero : f = 0
  · rw [if_pos zero, zero, flags_or_zero, ite_self]
  · rw [if_neg zero, mapGet_mapPut]
    exact ite_congr rfl (fun h => by rw [h]) fun _ => rfl

theorem mapGet_noteRow (m : SMap Flags) (f : Nat → Flags) (n c : Nat) :
    mapGet (noteRow m f (2 * n)) 0 c = if c < n then mapGet m 0 c ||| f (2 * c) ||| f (2 * c + 1) else mapGet m 0 c := by
  induction n with
  | zero => exact (if_neg (Nat.not_lt_zero c)).symm
  | succ n ih =>
    rw [show 2 * (n + 1) = 2 * n + 1 + 1 by ring, noteRow_succ, noteRow_succ, mapGet_noteFlags, mapGet_noteFlags, ih, show (2 * n + 1) / 2 = n by omega,
      show 2 * n / 2 = n by omega]
    rcases Nat.lt_trichotomy c n with h | rfl | h
    · rw [if_neg (by omega), if_neg (by omega), if_pos h, if_pos (by omega)]
    · rw [if_pos rfl, if_pos rfl, if_neg (lt_irrefl c), if_pos (Nat.lt_succ_self c)]
    · rw [if_neg (by omega), if_neg (by omega), if_neg (by omega), if_neg (by omega)]

/-- A map that lists each key once, and none from 16 on. -/
def Listed (m : SMap Flags) : Prop := (m.map (fun p => p.1)).Nodup ∧ ∀ p ∈ m, p.1 < 16

theorem listed_nil : Listed [] := ⟨List.nodup_nil, fun _ h => absurd h List.not_mem_nil⟩

theorem perm_mapInsert {α : Type} (m : SMap α) (k : Nat) (v : α) : (mapInsert m k v).Perm ((k, v) :: m) := by
  induction m with
  | nil => exact .refl _
  | cons p r ih =>
    obtain ⟨j, w⟩ := p
    rw [mapInsert]
    split
    · exact .refl _
    · exact (ih.cons _).trans (.swap _ _ _)

theorem sublist_mapErase {α : Type} (m : SMap α) (k : Nat) : (mapErase m k).Sublist m := by
  induction m with
  | nil => exact .refl _
  | cons p r ih =>
    obtain ⟨j, w⟩ := p
    rw [mapErase]
    split
    · exact ih.cons _
    · exact ih.cons_cons _

theorem Listed.noteFlags {m : SMap Flags} (h : Listed m) {col : Nat} (hc : col < 32) (f : Flags) : Listed (noteFlags m col f) := by
  unfold Sys2Proof.Machine.noteFlags
  split
  · exact h
  · have perm := perm_mapInsert (mapErase m (col / 2)) (col / 2) (mapGet m 0 (col / 2) ||| f)
    have sub := sublist_mapErase m (col / 2)
    refine ⟨((perm.map (fun p => p.1)).nodup_iff).mpr (List.nodup_cons.mpr ⟨fun here => ?_, (sub.map (fun p => p.1)).nodup h.1⟩), fun p hp => ?_⟩
    · obtain ⟨p, hp, e⟩ := List.mem_map.mp here
      exact mapErase_absent m _ p hp e
    · rcases List.mem_cons.mp (perm.mem_iff.mp hp) with rfl | hp
      · exact Nat.div_lt_of_lt_mul hc
      · exact h.2 p (sub.subset hp)

theorem Listed.noteRow {m : SMap Flags} (h : Listed m) (f : Nat → Flags) {n : Nat} (hn : n ≤ 32) : Listed (noteRow m f n) := by
  induction n with
  | zero => exact h
  | succ n ih =>
    rw [noteRow_succ]
    exact (ih (by omega)).noteFlags hn _

/-- The flags of n rows noted one after another. -/
def noteRows (m : SMap Flags) (f : Nat → Nat → Flags) (n : Nat) : SMap Flags := (List.range n).foldl (fun m j => noteRow m (f j) 32) m

theorem noteRows_succ (m : SMap Flags) (f : Nat → Nat → Flags) (n : Nat) : noteRows m f (n + 1) = noteRow (noteRows m f n) (f n) 32 := by
  rw [noteRows, List.range_succ, List.foldl_append]
  rfl

theorem Listed.noteRows {m : SMap Flags} (h : Listed m) (f : Nat → Nat → Flags) (n : Nat) : Listed (noteRows m f n) := by
  induction n with
  | zero => exact h
  | succ n ih =>
    rw [noteRows_succ]
    exact ih.noteRow _ le_rfl

/-- The union of the flags of the columns of core c over n rows. -/
def colFlags (f : Nat → Nat → Flags) (n c : Nat) (g : Flags) : Flags := (List.range n).foldl (fun g j => g ||| f j (2 * c) ||| f j (2 * c + 1)) g

theorem colFlags_succ (f : Nat → Nat → Flags) (n c : Nat) (g : Flags) :
    colFlags f (n + 1) c g = colFlags f n c g ||| f n (2 * c) ||| f n (2 * c + 1) := by
  rw [colFlags, List.range_succ, List.foldl_append]
  rfl

theorem mapGet_noteRows (m : SMap Flags) (f : Nat → Nat → Flags) (n : Nat) {c : Nat} (hc : c < 16) :
    mapGet (noteRows m f n) 0 c = colFlags f n c (mapGet m 0 c) := by
  induction n with
  | zero => rfl
  | succ n ih => rw [noteRows_succ, mapGet_noteRow _ _ 16, if_pos hc, ih, colFlags_succ]

theorem colFlags_start (f : Nat → Nat → Flags) (n c : Nat) (g : Flags) : colFlags f n c g = g ||| colFlags f n c 0 := by
  induction n with
  | zero => exact (flags_or_zero g).symm
  | succ n ih => rw [colFlags_succ, colFlags_succ, ih, BitVec.or_assoc, BitVec.or_assoc, BitVec.or_assoc]

/-- Flags of two kinds, one kind after the other or row by row. -/
theorem colFlags_or (f g : Nat → Nat → Flags) (n c : Nat) :
    colFlags g n c (colFlags f n c 0) = colFlags (fun j m => f j m ||| g j m) n c 0 := by
  rw [colFlags_start]
  induction n with
  | zero => exact flags_or_zero 0
  | succ n ih =>
    rw [colFlags_succ, colFlags_succ, colFlags_succ, ← ih]
    ac_rfl

/-! ### The slots that issued an operation -/

/-- Members of an operation by core: each on its own core of the tile, in a slot that a core has. -/
structure GangOp.OnTile (o : GangOp) (k : Nat) : Prop where
  cores : o.members.map (fun m => m.who.core) = (List.range 16).map (fun c => 16 * k + c)
  slots : ∀ m ∈ o.members, m.who.slot < 8

section
variable {s : State} {k : Nat} {o : GangOp}

theorem State.flagSlot_some {c : Nat} {w : Who} (on : o.OnTile k) (h : s.flagSlot k o c = some w) : w.core = 16 * k + c ∧ w.slot < 8 := by
  rw [State.flagSlot.eq_def] at h
  cases found : o.members.find? (fun m => decide (m.who.core % 16 = c)) with
  | none =>
    rw [found] at h
    exact absurd h (by simp)
  | some m =>
    have mem := List.mem_of_find?_eq_some found
    have column : m.who.core % 16 = c := by simpa using List.find?_some found
    have core : m.who.core ∈ o.members.map (fun m => m.who.core) := List.mem_map_of_mem mem
    rw [on.cores] at core
    obtain ⟨d, hd, place⟩ := List.mem_map.mp core
    rw [List.mem_range] at hd
    rw [found] at h
    dsimp only at h
    split at h
    · obtain rfl := Option.some.inj h
      exact ⟨by omega, on.slots m mem⟩
    · exact absurd h (by simp)

theorem State.flagSlot_congr {t : State} (hs : ∀ w, (t.slot w).occ = (s.slot w).occ ∧ (t.slot w).thread = (s.slot w).thread)
    (ht : (t.tile k).mslots = (s.tile k).mslots) (c : Nat) : t.flagSlot k o c = s.flagSlot k o c := by
  have slot (d : Nat) : (t.tile k).mslot d = (s.tile k).mslot d := by rw [Tile.mslot, Tile.mslot, ht]
  rw [State.flagSlot.eq_def, State.flagSlot.eq_def]
  simp only [(hs _).1, (hs _).2, slot]

/-- One core's flags accrued. -/
def State.accrueCol (s : State) (k : Nat) (o : GangOp) (c : Nat) (f : Flags) : State :=
  match s.flagSlot k o c with
  | some w => s.setSlot w ((s.slot w).accrue f)
  | none => s

theorem State.accrueCols_cons (c : Nat) (f : Flags) (fl : SMap Flags) : s.accrueCols k o ((c, f) :: fl) = (s.accrueCol k o c f).accrueCols k o fl := by
  rw [State.accrueCol]
  cases h : s.flagSlot k o c <;> simp only [State.accrueCols, List.foldl_cons, h]

/-- An operation's flags change nothing but slots. -/
theorem State.accrueCols_frame (fl : SMap Flags) : ∃ slots, s.accrueCols k o fl = { s with slots := slots } := by
  induction fl generalizing s with
  | nil => exact ⟨_, rfl⟩
  | cons p fl ih =>
    obtain ⟨slots, rest⟩ := ih (s := s.accrueCol k o p.1 p.2)
    rw [State.accrueCols_cons, rest, State.accrueCol]
    cases s.flagSlot k o p.1 <;> exact ⟨_, rfl⟩

theorem Slot.accrue_zero (x : Slot) : x.accrue 0 = x := by
  rw [Slot.accrue_eq_flagged, Slot.flagged]
  have same : x.csr.fpctl ||| ((0 : Flags).zeroExtend 13 <<< 2) = x.csr.fpctl := BitVec.or_zero
  rw [same]

theorem State.accrueCol_flagSlot (c d : Nat) (f : Flags) : (s.accrueCol k o c f).flagSlot k o d = s.flagSlot k o d := by
  refine State.flagSlot_congr (fun w => ?_) ?_ d
  · rw [State.accrueCol]
    cases s.flagSlot k o c with
    | none => exact ⟨rfl, rfl⟩
    | some v =>
      have slot : (s.setSlot v ((s.slot v).accrue f)).slot w = if slotKey w = slotKey v then (s.slot v).accrue f else s.slot w := State.slot_setSlot _ _ _ _
      by_cases same : slotKey w = slotKey v
      · have here : s.slot w = s.slot v := by rw [State.slot, State.slot, same]
        rw [if_pos same] at slot
        rw [here]
        exact ⟨(congrArg Slot.occ slot :), (congrArg Slot.thread slot :)⟩
      · rw [if_neg same] at slot
        exact ⟨(congrArg Slot.occ slot :), (congrArg Slot.thread slot :)⟩
  · rw [State.accrueCol]
    cases s.flagSlot k o c <;> rfl

/-- Each core's slot takes the flags noted for it, and no other slot changes (R71, R153). -/
theorem State.accrueCols_slots (on : o.OnTile k) {fl : SMap Flags} (h : Listed fl) :
    (∀ c w, c < 16 → s.flagSlot k o c = some w → (s.accrueCols k o fl).slot w = (s.slot w).accrue (mapGet fl 0 c)) ∧
    ∀ w, (∀ c, c < 16 → s.flagSlot k o c ≠ some w) → w.slot < 8 → (s.accrueCols k o fl).slot w = s.slot w := by
  induction fl generalizing s with
  | nil => exact ⟨fun c w _ _ => (Slot.accrue_zero _).symm, fun w _ _ => rfl⟩
  | cons p fl ih =>
    obtain ⟨d, f⟩ := p
    have once := List.nodup_cons.mp h.1
    obtain ⟨marked, others⟩ := ih (s := s.accrueCol k o d f) ⟨once.2, fun p hp => h.2 p (List.mem_cons_of_mem _ hp)⟩
    have column : d < 16 := h.2 (d, f) List.mem_cons_self
    simp only [State.accrueCol_flagSlot] at marked others
    rw [State.accrueCols_cons]
    refine ⟨fun c w hc hw => ?_, fun w hw hslot => ?_⟩
    · rw [marked c w hc hw, State.accrueCol]
      by_cases same : d = c
      · subst same
        have unlisted : mapGet fl 0 d = 0 := mapGet_of_unlisted once.1
        rw [unlisted, Slot.accrue_zero, hw]
        exact (State.slot_setSlot_same s w _).trans (congrArg (s.slot w).accrue (if_pos rfl).symm)
      · have rest : mapGet ((d, f) :: fl) 0 c = mapGet fl 0 c := if_neg same
        rw [rest]
        cases hv : s.flagSlot k o d with
        | none => rfl
        | some v =>
          obtain ⟨place, -⟩ := State.flagSlot_some on hw
          obtain ⟨other, -⟩ := State.flagSlot_some on hv
          have apart : slotKey w ≠ slotKey v := by
            intro e
            have := (State.flagSlot_some on hw).2
            have := (State.flagSlot_some on hv).2
            rw [slotKey, slotKey] at e
            omega
          simp [apart]
    · rw [others w hw hslot, State.accrueCol]
      cases hv : s.flagSlot k o d with
      | none => rfl
      | some v =>
        have apart : slotKey w ≠ slotKey v := fun e => hw d column (by
          rw [(slotKey_inj w v hslot (State.flagSlot_some on hv).2).mp e]
          exact hv)
        simp [apart]

end

end Sys2Proof.Machine
end

section
/-! PROOFS.  The accumulators of a streamed row, and the rows of a grouped product (R81, R149, R154). -/

namespace Sys2Proof.Machine

/-! ### One row (R149) -/

/-- An accumulator after its K-block of a row, and the flags of that (R81, R97). -/
def accNext (live : Plane) (mode : AccMode) (r : OpRec) (row : Option (List (Option FV))) (n : Nat) (a : Accum) : Accum × Flags :=
  match row with
  | none => ({ a with k := a.k + r.cols }, 0)
  | some xs =>
    let b := live.kblock xs n
    let v := accSum mode a.val b.1
    ({ val := v.1, m := maxE a.m b.2, k := a.k + r.cols
       sig := pairSig a.sig (pairSig (readTag (winFull r.window) r.asig) (readTag (winFull live.win) (mapGet live.sigs Tag.exact n)))
       rounded := a.rounded || (v.2 &&& Flags.nx) != 0 },
      if mode = .int then 0 else live.kblockFlags xs n ||| v.2)

theorem Tile.accStep_eq (t : Tile) (mode : AccMode) (r : OpRec) (row : Option (List (Option FV))) (m n : Nat) :
    t.accStep mode r row m n = (t.setAcc m n (accNext t.live mode r row n (t.acc m n)).1, (accNext t.live mode r row n (t.acc m n)).2) := by
  cases row
  · rfl
  · cases mode <;> rfl

/-- Accumulators (m, 0) to (m, n - 1) replaced. -/
def putAccs (accs : SMap Accum) (m : Nat) (g : Nat → Accum) (n : Nat) : SMap Accum := (List.range n).foldl (fun l c => mapPut l (32 * m + c) (g c)) accs

theorem putAccs_succ (accs : SMap Accum) (m : Nat) (g : Nat → Accum) (n : Nat) :
    putAccs accs m g (n + 1) = mapPut (putAccs accs m g n) (32 * m + n) (g n) := by
  rw [putAccs, List.range_succ, List.foldl_append]
  rfl

theorem mapGet_putAccs (accs : SMap Accum) (m : Nat) (g : Nat → Accum) (n key : Nat) :
    mapGet (putAccs accs m g n) .reset key = if 32 * m ≤ key ∧ key < 32 * m + n then g (key - 32 * m) else mapGet accs .reset key := by
  induction n with
  | zero => exact (if_neg (by omega)).symm
  | succ n ih =>
    rw [putAccs_succ, mapGet_mapPut, ih]
    rcases Nat.lt_trichotomy key (32 * m + n) with h | rfl | h
    · rw [if_neg (by omega)]
      exact if_congr (by omega) rfl rfl
    · rw [if_pos rfl, if_pos (by omega), Nat.add_sub_cancel_left]
    · rw [if_neg (by omega), if_neg (by omega), if_neg (by omega)]

/-- What a streamed row makes of accumulator (m, n), with its flags. -/
def State.streamed (s : State) (t : Tile) (mode : AccMode) (q : Nat × OpRec × Nat) (n : Nat) : Accum × Flags :=
  accNext t.live mode q.2.1 (s.opRow q.2.1 q.2.2) n (t.acc (rowOf q) n)

theorem State.streamRow_eq (s : State) (t : Tile) (mode : AccMode) (q : Nat × OpRec × Nat) (fl : SMap Flags) :
    s.streamRow t mode q fl =
      ({ t with accs := putAccs t.accs (rowOf q) (fun n => (s.streamed t mode q n).1) 32 }, noteRow fl (fun n => (s.streamed t mode q n).2) 32) := by
  have fold (n : Nat) : (List.range n).foldl (fun (z : Tile × SMap Flags) n =>
      let a := z.1.accStep mode q.2.1 (s.opRow q.2.1 q.2.2) (rowOf q) n
      (a.1, noteFlags z.2 n a.2)) (t, fl) =
      ({ t with accs := putAccs t.accs (rowOf q) (fun n => (s.streamed t mode q n).1) n }, noteRow fl (fun n => (s.streamed t mode q n).2) n) := by
    induction n with
    | zero => rfl
    | succ n ih =>
      have untouched : ({ t with accs := putAccs t.accs (rowOf q) (fun n => (s.streamed t mode q n).1) n } : Tile).acc (rowOf q) n = t.acc (rowOf q) n := by
        rw [Tile.acc, mapGet_putAccs, if_neg (by omega), Tile.acc]
      rw [List.range_succ, List.foldl_append, ih, putAccs_succ, noteRow_succ]
      simp only [List.foldl_cons, List.foldl_nil, Tile.accStep_eq, untouched]
      rfl
  exact fold 32

/-- A tile with other accumulators: what a streamed row reads of them. -/
theorem Tile.acc_putAccs (t : Tile) (m : Nat) (g : Nat → Accum) (m' n : Nat) (hn : n < 32) :
    ({ t with accs := putAccs t.accs m g 32 } : Tile).acc m' n = if m' = m then g n else t.acc m' n := by
  rw [Tile.acc, mapGet_putAccs, Tile.acc]
  by_cases same : m' = m
  · rw [if_pos (by omega), if_pos same, same, Nat.add_sub_cancel_left]
  · rw [if_neg (by omega), if_neg same]

/-! ### The rows of accumulators of an operation's records (R147) -/

theorem GangOp.rows_distinct {o : GangOp} {k : Nat} (on : o.OnTile k) (two : ∀ m ∈ o.members, ∀ r, m.record = some r → r.rows ≤ 2) :
    (o.opRows.map rowOf).Pairwise (· < ·) := by
  have columns : o.members.Pairwise (fun m m' => m.who.core % 16 < m'.who.core % 16) := by
    have cores : (o.members.map (fun m => m.who.core)).Pairwise (fun c d => c % 16 < d % 16) := by
      rw [on.cores, List.pairwise_map]
      refine (List.pairwise_lt_range (n := 16)).imp_of_mem fun {a b} ha hb h => ?_
      rw [List.mem_range] at ha hb
      omega
    exact (List.pairwise_map (R := fun c d => c % 16 < d % 16)).mp cores
  rw [List.pairwise_map, GangOp.opRows, List.pairwise_flatMap]
  refine ⟨fun m hm => ?_, columns.imp_of_mem fun {m m'} hm hm' h q hq q' hq' => ?_⟩
  · cases m.record with
    | none => exact List.Pairwise.nil
    | some r =>
      refine List.pairwise_map.mpr ((List.pairwise_lt_range).imp fun {i j} h => ?_)
      rw [rowOf, rowOf]
      dsimp only
      omega
  · cases hr : m.record with
    | none =>
      rw [hr] at hq
      exact absurd hq List.not_mem_nil
    | some r =>
      cases hr' : m'.record with
      | none =>
        rw [hr'] at hq'
        exact absurd hq' List.not_mem_nil
      | some r' =>
        rw [hr] at hq
        rw [hr'] at hq'
        obtain ⟨i, hi, rfl⟩ := List.mem_map.mp hq
        obtain ⟨i', hi', rfl⟩ := List.mem_map.mp hq'
        have := two m hm r hr
        rw [List.mem_range] at hi
        rw [rowOf, rowOf]
        dsimp only
        omega

/-! ### Rows one after another (R149) -/

theorem noteRow_congr {m : SMap Flags} {f g : Nat → Flags} {n : Nat} (h : ∀ c, c < n → f c = g c) : noteRow m f n = noteRow m g n :=
  List.foldl_ext _ _ _ fun m c hc => congrArg (noteFlags m c) (h c (List.mem_range.mp hc))

/-- The flags of rows noted, each by what it raises. -/
def noteEach {α : Type} (m : SMap Flags) (f : α → Nat → Flags) (qs : List α) : SMap Flags := qs.foldl (fun m q => noteRow m (f q) 32) m

theorem noteEach_eq_noteRows {α : Type} (m : SMap Flags) (f : α → Nat → Flags) (qs : List α) (g : Nat → Nat → Flags)
    (h : ∀ j (hj : j < qs.length), ∀ c, c < 32 → f qs[j] c = g j c) : noteEach m f qs = noteRows m g qs.length := by
  induction qs using List.reverseRecOn with
  | nil => rfl
  | append_singleton qs q ih =>
    have before := ih fun j hj c hc => by
      rw [← h j (by rw [List.length_append]; omega) c hc, List.getElem_append_left hj]
    have last := h qs.length (by simp)
    rw [List.getElem_concat_length rfl] at last
    rw [noteEach] at before
    rw [noteEach, List.foldl_append, before, List.length_append, List.length_singleton, noteRows_succ]
    exact noteRow_congr last

/-- Rows streamed past the live plane, each under the tile's mode. -/
def State.streamRows (s : State) (t : Tile) (qs : List (Nat × OpRec × Nat)) (fl : SMap Flags) : Tile × SMap Flags :=
  qs.foldl (fun z q => s.streamRow z.1 z.1.amode q z.2) (t, fl)

theorem State.streamed_congr (s : State) {t u : Tile} {q : Nat × OpRec × Nat} {n : Nat} (hl : u.live = t.live) (ha : u.acc (rowOf q) n = t.acc (rowOf q) n)
    (mode : AccMode) : s.streamed u mode q n = s.streamed t mode q n := by
  rw [State.streamed, State.streamed, hl, ha]

/-- Rows of distinct accumulators: each accumulator of a row takes its own K-block, and every other stays (R149). -/
theorem State.streamRows_spec (s : State) (t : Tile) (qs : List (Nat × OpRec × Nat)) (fl : SMap Flags) (distinct : (qs.map rowOf).Pairwise (· < ·)) :
    (s.streamRows t qs fl).1 = { t with accs := (s.streamRows t qs fl).1.accs } ∧
    (∀ m n, n < 32 → (∀ q ∈ qs, rowOf q ≠ m) → (s.streamRows t qs fl).1.acc m n = t.acc m n) ∧
    (∀ q ∈ qs, ∀ n, n < 32 → (s.streamRows t qs fl).1.acc (rowOf q) n = (s.streamed t t.amode q n).1) ∧
    (s.streamRows t qs fl).2 = noteEach fl (fun q n => (s.streamed t t.amode q n).2) qs := by
  induction qs using List.reverseRecOn with
  | nil => exact ⟨rfl, fun _ _ _ _ => rfl, fun q hq => absurd hq List.not_mem_nil, rfl⟩
  | append_singleton qs q ih =>
    rw [List.map_append, List.pairwise_append] at distinct
    obtain ⟨before, -, apart⟩ := distinct
    obtain ⟨frame, others, rows, flags⟩ := ih before
    have own (q' : Nat × OpRec × Nat) (hq : q' ∈ qs) : rowOf q' ≠ rowOf q :=
      (apart _ (List.mem_map_of_mem hq) _ (by simp)).ne
    have step : s.streamRows t (qs ++ [q]) fl = s.streamRow (s.streamRows t qs fl).1 (s.streamRows t qs fl).1.amode q (s.streamRows t qs fl).2 := by
      rw [State.streamRows, List.foldl_append]
      rfl
    obtain ⟨u, tile⟩ : ∃ u, u = (s.streamRows t qs fl).1 := ⟨_, rfl⟩
    rw [← tile] at frame others rows step
    have live : u.live = t.live := by rw [frame]
    have mode : u.amode = t.amode := by rw [frame]
    have same (n : Nat) (hn : n < 32) : s.streamed u t.amode q n = s.streamed t t.amode q n :=
      s.streamed_congr live (others _ n hn own) _
    rw [step, s.streamRow_eq, mode, flags]
    refine ⟨?_, fun m n hn h => ?_, fun q' hq' n hn => ?_, ?_⟩
    · rw [frame]
    · refine (u.acc_putAccs (rowOf q) _ m n hn).trans ((if_neg (h q (by simp)).symm).trans ?_)
      exact others m n hn fun q' hq' => h q' (List.mem_append_left _ hq')
    · refine (u.acc_putAccs (rowOf q) _ (rowOf q') n hn).trans ?_
      rcases List.mem_append.mp hq' with old | new
      · rw [if_neg (own q' old)]
        exact rows q' old n hn
      · rw [List.mem_singleton.mp new, if_pos rfl, same n hn]
    · rw [noteEach, noteEach, List.foldl_append]
      exact noteRow_congr fun n hn => congrArg Prod.snd (same n hn)

/-! ### The start of a group (R154) -/

/-- A tile as the first row of a group finds it: the group's rows of accumulators cleared, and the mode of its windows. -/
def Tile.groupStart (t : Tile) (o : GangOp) (g : List (Nat × OpRec × Nat)) : Tile :=
  { g.foldl (fun t q => t.clearRow (rowOf q)) t with amode := pairMode t.live.win o.window }

/-- Accumulators with the rows of records cleared. -/
def clearAccs (accs : SMap Accum) (g : List (Nat × OpRec × Nat)) : SMap Accum := g.foldl (fun l q => l.filter (fun p => decide (p.1 / 32 ≠ rowOf q))) accs

theorem Tile.foldl_clearRow (t : Tile) (g : List (Nat × OpRec × Nat)) : g.foldl (fun t q => t.clearRow (rowOf q)) t = { t with accs := clearAccs t.accs g } := by
  induction g generalizing t with
  | nil => rfl
  | cons q g ih => exact ih (t.clearRow (rowOf q))

theorem Tile.groupStart_eq (t : Tile) (o : GangOp) (g : List (Nat × OpRec × Nat)) :
    t.groupStart o g = { t with accs := clearAccs t.accs g, amode := pairMode t.live.win o.window } := by
  rw [Tile.groupStart, Tile.foldl_clearRow]

theorem mem_clearAccs {accs : SMap Accum} {g : List (Nat × OpRec × Nat)} {p : Nat × Accum} (h : p ∈ clearAccs accs g) :
    p ∈ accs ∧ ∀ q ∈ g, p.1 / 32 ≠ rowOf q := by
  induction g generalizing accs with
  | nil => exact ⟨h, fun q hq => absurd hq List.not_mem_nil⟩
  | cons q g ih =>
    obtain ⟨kept, rows⟩ := ih h
    obtain ⟨listed, apart⟩ := List.mem_filter.mp kept
    refine ⟨listed, fun q' hq' => ?_⟩
    rcases List.mem_cons.mp hq' with rfl | hq'
    · exact of_decide_eq_true apart
    · exact rows q' hq'

/-- A group starts with its rows at reset. -/
theorem Tile.groupStart_acc (t : Tile) (o : GangOp) {g : List (Nat × OpRec × Nat)} {q : Nat × OpRec × Nat} (hq : q ∈ g) {n : Nat} (hn : n < 32) :
    (t.groupStart o g).acc (rowOf q) n = Accum.reset := by
  rw [Tile.groupStart_eq]
  refine mapGet_of_unlisted fun here => ?_
  obtain ⟨p, hp, e⟩ := List.mem_map.mp here
  exact (mem_clearAccs hp).2 q hq (by omega)

/-! ### A row of accumulators drained (R153) -/

theorem noteFlags_zipIdx (fl : SMap Flags) (e : Nat → Nat × Tag × Flags) (n : Nat) :
    (((List.range n).map e).zipIdx).foldl (fun f p => noteFlags f p.2 p.1.2.2) fl = noteRow fl (fun c => (e c).2.2) n := by
  induction n with
  | zero => rfl
  | succ n ih =>
    rw [List.range_succ, List.map_append, List.zipIdx_append, List.foldl_append, ih, noteRow_succ]
    simp

section
variable {s : State} {v : Word} {r : Nat} {k : Nat} {o : GangOp}

theorem State.drainRow_eq {j m : Nat} (h : s.DrainOpen v r) (hj : j < r) (fl : SMap Flags) : s.drainRow k o v r j m fl =
    (s.writeRow v r j ((s.tile k).drainedRow o (dwFmt v) m),
      noteRow fl (fun n => (((s.tile k).acc m n).drain (s.tile k).amode (dwFmt v) (o.colSat (n / 2))).2.2) 32) := by
  have count : ((s.tile k).drainedRow o (dwFmt v) m).length = 32 := by rw [Tile.drainedRow, List.length_map, List.length_range]
  rw [State.drainRow, State.putRow_eq_writeRow h hj count, Tile.drainedRow, noteFlags_zipIdx]

/-- Rows of accumulators drained one after another. -/
def State.drainEach (s : State) (k : Nat) (o : GangOp) (v : Word) (r : Nat) (ms : List Nat) (fl : SMap Flags) : State × SMap Flags :=
  (ms.zipIdx).foldl (fun z p => z.1.drainRow k o v r p.2 p.1 z.2) (s, fl)

theorem State.drainEach_concat (s : State) (k : Nat) (o : GangOp) (v : Word) (r : Nat) (ms : List Nat) (m : Nat) (fl : SMap Flags) :
    s.drainEach k o v r (ms ++ [m]) fl = (s.drainEach k o v r ms fl).1.drainRow k o v r ms.length m (s.drainEach k o v r ms fl).2 := by
  rw [State.drainEach, List.zipIdx_append, List.foldl_append]
  simp [State.drainEach]

theorem State.drainEach_eq (h : s.DrainOpen v r) {ms : List Nat} (hr : ms.length ≤ r) {out : Nat → Nat → Nat × Tag × Flags} (fl : SMap Flags)
    (drains : ∀ j (hj : j < ms.length), ∀ n, n < 32 → ((s.tile k).acc ms[j] n).drain (s.tile k).amode (dwFmt v) (o.colSat (n / 2)) = out j n) :
    s.drainEach k o v r ms fl = (s.writeRows v r ms.length (fun j => (List.range 32).map (out j)), noteRows fl (fun j n => (out j n).2.2) ms.length) := by
  induction ms using List.reverseRecOn with
  | nil => rfl
  | append_singleton ms m ih =>
    rw [List.length_append, List.length_singleton] at hr
    have before := ih (by omega) fun j hj n hn => by
      rw [← drains j (by rw [List.length_append]; omega) n hn, List.getElem_append_left hj]
    have last := drains ms.length (by simp)
    rw [List.getElem_concat_length rfl] at last
    have written := State.onlyWritten_writeRows h (Nat.le_of_succ_le hr) (fun j => (List.range 32).map (out j))
    have tile : (s.writeRows v r ms.length (fun j => (List.range 32).map (out j))).tile k = s.tile k := State.tile_of_tiles written.tiles k
    have row : (s.tile k).drainedRow o (dwFmt v) m = (List.range 32).map (out ms.length) :=
      List.map_congr_left fun n hn => last n (List.mem_range.mp hn)
    rw [State.drainEach_concat, before, List.length_append, List.length_singleton, State.writeRows_succ, noteRows_succ,
      State.drainRow_eq (h.of_written written) hr, tile, row]
    exact congrArg (Prod.mk _) (noteRow_congr fun n hn => congrArg (fun e => e.2.2) (last n hn))

end

end Sys2Proof.Machine
end

section
/-! PROOFS.  The queue of a tile beside the rows that its array passes (R145, R164): a row that was passed before the rest
leaves what the rest would have left. -/

namespace Sys2Proof.Machine

/-! ### A tile replaced twice -/

theorem mapErase_mapErase {α : Type} (m : SMap α) (k : Nat) : mapErase (mapErase m k) k = mapErase m k := by
  induction m with
  | nil => rfl
  | cons p r ih =>
    obtain ⟨j, w⟩ := p
    by_cases h : j = k
    · simp only [mapErase, if_pos h, ih]
    · simp only [mapErase, if_neg h, ih]

theorem mapErase_mapInsert {α : Type} (m : SMap α) (k : Nat) (v : α) : mapErase (mapInsert m k v) k = mapErase m k := by
  induction m with
  | nil => simp [mapInsert, mapErase]
  | cons p r ih =>
    obtain ⟨j, w⟩ := p
    by_cases first : k < j
    · simp [mapInsert, first, mapErase]
    · by_cases h : j = k
      · simp [mapInsert, mapErase, h, ih]
      · simp [mapInsert, first, mapErase, h, ih]

theorem mapPut_mapPut {α : Type} (m : SMap α) (k : Nat) (v w : α) : mapPut (mapPut m k v) k w = mapPut m k w := by
  rw [mapPut, mapPut, mapErase_mapInsert, mapErase_mapErase, mapPut]

section
variable (s : State) (k : Nat)

theorem State.setTile_setTile (t u : Tile) : (s.setTile k t).setTile k u = s.setTile k u := by
  rw [State.setTile, State.setTile, mapPut_mapPut, State.setTile]

theorem State.tile_setTile_same (t : Tile) : (s.setTile k t).tile k = t := by rw [State.tile_setTile, if_pos rfl]

/-- The queue of a tile replaced. -/
def State.requeue (qs : List GangOp) : State := s.setTile k { s.tile k with queue := qs }

theorem State.tile_requeue (qs : List GangOp) : (s.requeue k qs).tile k = { s.tile k with queue := qs } := s.tile_setTile_same k _

theorem State.setTile_requeue (t : Tile) (qs : List GangOp) : (s.requeue k qs).setTile k { t with queue := qs } = (s.setTile k t).requeue k qs := by
  rw [State.requeue, State.setTile_setTile, State.requeue, State.tile_setTile_same, State.setTile_setTile]

end

/-! ### Writes in memory beside a tile -/

section
variable (s : State) (k : Nat) (t : Tile)

theorem State.setBytes_setTile (key : Nat) (bs : List Byte) : (s.setTile k t).setBytes key bs = (s.setBytes key bs).setTile k t := by
  induction bs generalizing s key with
  | nil => rfl
  | cons b r ih => exact ih (s.setByte key b) (key + 1)

theorem State.foldl_setSideTag_setTile {α : Type} (f : α → Nat) (g : α → Tag) (l : List α) :
    l.foldl (fun s x => s.setSideTag (f x) (g x)) (s.setTile k t) = (l.foldl (fun s x => s.setSideTag (f x) (g x)) s).setTile k t := by
  induction l generalizing s with
  | nil => rfl
  | cons x l ih => exact ih (s.setSideTag (f x) (g x))

theorem State.put_setTile (key : Nat) (bs : List Byte) : (s.setTile k t).put key bs = (s.put key bs).setTile k t := by
  have clear (u : State) (n : Nat) : (u.setTile k t).clearTags key n = (u.clearTags key n).setTile k t :=
    u.foldl_setSideTag_setTile k t (fun i => key + 4 * i) (fun _ => Tag.none) _
  rw [State.put, State.put]
  split
  · rw [State.storeSpad, State.setBytes_setTile, clear]
    rfl
  · exact s.setBytes_setTile k t key bs

theorem State.writeRow_setTile (v : Word) (r j : Nat) (es : List (Nat × Tag × Flags)) :
    (s.setTile k t).writeRow v r j es = (s.writeRow v r j es).setTile k t := by
  have tags (u : State) (key : Nat) (ts : List Tag) : (u.setTile k t).setSideTags key ts = (u.setSideTags key ts).setTile k t :=
    u.foldl_setSideTag_setTile k t (fun p : Tag × Nat => key + 4 * p.2) (fun p => p.1) ts.zipIdx
  rw [State.writeRow, State.writeRow]
  rw [State.put_setTile, tags]
  by_cases fp32 : dwFmt v = 0
  · rw [if_pos fp32, if_pos fp32]
    by_cases mask : dwMask v = true
    · rw [if_pos mask, if_pos mask, State.put_setTile]
    · rw [if_neg mask, if_neg mask]
  · rw [if_neg fp32, if_neg fp32]
    by_cases mask : dwMask v = true
    · rw [if_pos mask, if_pos mask, State.put_setTile]
    · rw [if_neg mask, if_neg mask]

end

/-! ### Rows beside the queue -/

section
variable {s : State} {v : Word} {r k : Nat} {o : GangOp}

theorem State.DrainOpen.congr {t : State} (h : s.DrainOpen v r) (hc : t.cores = s.cores) (hp : t.poison = s.poison) : t.DrainOpen v r := by
  exact ⟨h.aligned, h.area, fun p hp => h.objects p (State.core_of_cores hc _ ▸ hp), hp.trans h.poison⟩

theorem State.DrainOpen.requeue (h : s.DrainOpen v r) (qs : List GangOp) : (s.requeue k qs).DrainOpen v r := h.congr rfl rfl

theorem State.drainRow_requeue {j m : Nat} (h : s.DrainOpen v r) (hj : j < r) (fl : SMap Flags) (qs : List GangOp) :
    (s.requeue k qs).drainRow k o v r j m fl = ((s.drainRow k o v r j m fl).1.requeue k qs, (s.drainRow k o v r j m fl).2) := by
  have tile : (s.writeRow v r j ((s.tile k).drainedRow o (dwFmt v) m)).tile k = s.tile k :=
    State.tile_of_tiles (State.onlyWritten_writeRow h hj).tiles k
  rw [State.drainRow_eq (h.requeue qs) hj, State.drainRow_eq h hj, State.requeue, State.tile_setTile_same, State.writeRow_setTile, State.requeue, tile]
  rfl

theorem State.onlyWritten_drainEach (h : s.DrainOpen v r) {ms : List Nat} (hr : ms.length ≤ r) (fl : SMap Flags) :
    s.OnlyWritten (s.drainEach k o v r ms fl).1 := by
  rw [State.drainEach_eq (k := k) (o := o) h hr (out := fun j n =>
      ((s.tile k).acc (ms.getD j 0) n).drain (s.tile k).amode (dwFmt v) (o.colSat (n / 2))) fl fun j hj n _ => by
        rw [List.getD_eq_getElem _ _ hj]]
  exact State.onlyWritten_writeRows h hr _

theorem State.drainEach_requeue (h : s.DrainOpen v r) {ms : List Nat} (hr : ms.length ≤ r) (fl : SMap Flags) (qs : List GangOp) :
    (s.requeue k qs).drainEach k o v r ms fl = ((s.drainEach k o v r ms fl).1.requeue k qs, (s.drainEach k o v r ms fl).2) := by
  induction ms using List.reverseRecOn with
  | nil => rfl
  | append_singleton ms m ih =>
    rw [List.length_append, List.length_singleton] at hr
    have before := ih (Nat.le_of_succ_le hr)
    have written := State.onlyWritten_drainEach (k := k) (o := o) h (Nat.le_of_succ_le hr) fl
    rw [State.drainEach_concat, State.drainEach_concat, before]
    exact State.drainRow_requeue (h.of_written written) hr _ qs

end

/-! ### One row -/

/-- Row i of a grouped product whose one drain word is v. -/
def State.groupPass (s : State) (k : Nat) (o : GangOp) (v : Word) (i : Nat) (q : Nat × OpRec × Nat) (fl : SMap Flags) : State × SMap Flags :=
  let t := if i = 0 then (s.tile k).groupStart o (o.opRows.take (dwRows v)) else s.tile k
  let z := s.streamRow t t.amode q fl
  if i + 1 < dwRows v then (s.setTile k z.1, z.2)
  else (s.setTile k z.1).drainEach k o v (dwRows v) ((o.opRows.take (dwRows v)).map rowOf) z.2

section
variable (s : State) (k : Nat) {o : GangOp} {v : Word} {i : Nat}

theorem State.groupRow_eq {q : Nat × OpRec × Nat} (one : o.groups = [v]) (hi : i < dwRows v) (hq : o.opRows[i]? = some q) (fl : SMap Flags) :
    s.groupRow k o i fl = s.groupPass k o v i q fl := by
  have at0 : groupAt o.groups 0 i = some (v, 0) := by
    rw [one, groupAt, Nat.zero_add, if_pos hi]
  rw [State.groupRow, at0, hq, State.groupPass]
  simp only [Nat.zero_add, List.drop_zero, State.drainEach, List.zipIdx_map, List.foldl_map]
  rfl

theorem State.streamRow_setTile (u t : Tile) (mode : AccMode) (q : Nat × OpRec × Nat) (fl : SMap Flags) :
    (s.setTile k u).streamRow t mode q fl = s.streamRow t mode q fl := by
  have row : (s.setTile k u).opRow q.2.1 q.2.2 = s.opRow q.2.1 q.2.2 := rfl
  rw [State.streamRow, State.streamRow, row]

theorem State.streamRow_requeue (t : Tile) (mode : AccMode) (q : Nat × OpRec × Nat) (fl : SMap Flags) (qs : List GangOp) :
    (s.requeue k qs).streamRow { t with queue := qs } mode q fl =
      ({ (s.streamRow t mode q fl).1 with queue := qs }, (s.streamRow t mode q fl).2) := by
  have same : s.streamed { t with queue := qs } mode q = s.streamed t mode q := funext fun n => s.streamed_congr (by rfl) (by rfl) mode
  rw [State.requeue, State.streamRow_setTile, State.streamRow_eq, State.streamRow_eq, same]

theorem Tile.groupStart_queue (t : Tile) (o : GangOp) (g : List (Nat × OpRec × Nat)) (qs : List GangOp) :
    ({ t with queue := qs } : Tile).groupStart o g = { t.groupStart o g with queue := qs } := by
  rw [Tile.groupStart_eq, Tile.groupStart_eq]

theorem State.groupPass_requeue (h : s.DrainOpen v (dwRows v)) (q : Nat × OpRec × Nat) (fl : SMap Flags) (qs : List GangOp) :
    (s.requeue k qs).groupPass k o v i q fl = ((s.groupPass k o v i q fl).1.requeue k qs, (s.groupPass k o v i q fl).2) := by
  obtain ⟨t, tile⟩ : ∃ t, t = if i = 0 then (s.tile k).groupStart o (o.opRows.take (dwRows v)) else s.tile k := ⟨_, rfl⟩
  have start : (if i = 0 then ((s.requeue k qs).tile k).groupStart o (o.opRows.take (dwRows v)) else (s.requeue k qs).tile k) = { t with queue := qs } := by
    rw [State.tile_requeue, tile]
    split
    · exact Tile.groupStart_queue _ _ _ _
    · rfl
  have rows : ((o.opRows.take (dwRows v)).map rowOf).length ≤ dwRows v := by
    rw [List.length_map, List.length_take]
    exact Nat.min_le_left _ _
  rw [State.groupPass, State.groupPass, start, ← tile]
  dsimp only
  rw [State.streamRow_requeue, State.setTile_requeue]
  split
  · rfl
  · exact State.drainEach_requeue (h.congr (t := s.setTile k _) rfl rfl) rows _ qs

end

/-! ### What the rows of an operation leave as it was -/

/-- Nothing but memory, the marks of parked APPENDs, and the accumulators of a tile with their mode, differs. -/
structure State.ArrayRan (s t : State) (k : Nat) : Prop where
  poison : t.poison = s.poison
  slots : t.slots = s.slots
  cores : t.cores = s.cores
  parts : t.parts = s.parts
  sys : t.sys = s.sys
  ranges : t.ranges = s.ranges
  net : t.net.length = s.net.length
  tiles : s.OtherTiles t k
  tile : ∃ accs mode, t.tile k = { s.tile k with accs := accs, amode := mode }

section
variable {s t u : State} {k : Nat}

theorem State.ArrayRan.refl (s : State) (k : Nat) : s.ArrayRan s k := ⟨rfl, rfl, rfl, rfl, rfl, rfl, rfl, fun _ _ => rfl, _, _, rfl⟩

theorem State.ArrayRan.trans (h : s.ArrayRan t k) (g : t.ArrayRan u k) : s.ArrayRan u k := by
  obtain ⟨accs, mode, first⟩ := h.tile
  obtain ⟨accs', mode', second⟩ := g.tile
  exact ⟨g.poison.trans h.poison, g.slots.trans h.slots, g.cores.trans h.cores, g.parts.trans h.parts, g.sys.trans h.sys, g.ranges.trans h.ranges,
    g.net.trans h.net, fun j hj => (g.tiles j hj).trans (h.tiles j hj), accs', mode', by rw [second, first]⟩

theorem State.OnlyWritten.ran (h : s.OnlyWritten t) (k : Nat) : s.ArrayRan t k :=
  ⟨h.poison, h.slots, h.cores, h.parts, h.sys, h.ranges, h.net, fun j _ => State.tile_of_tiles h.tiles j, _, _, State.tile_of_tiles h.tiles k⟩

theorem State.arrayRan_setTile (s : State) (k : Nat) (accs : SMap Accum) (mode : AccMode) :
    s.ArrayRan (s.setTile k { s.tile k with accs := accs, amode := mode }) k :=
  ⟨rfl, rfl, rfl, rfl, rfl, rfl, rfl, fun j hj => by rw [State.tile_setTile, if_neg hj], accs, mode, s.tile_setTile_same k _⟩

theorem State.arrayRan_groupPass {o : GangOp} {v : Word} (i : Nat) (h : s.DrainOpen v (dwRows v)) (q : Nat × OpRec × Nat) (fl : SMap Flags) :
    s.ArrayRan (s.groupPass k o v i q fl).1 k := by
  have rows : ((o.opRows.take (dwRows v)).map rowOf).length ≤ dwRows v := by
    rw [List.length_map, List.length_take]
    exact Nat.min_le_left _ _
  obtain ⟨t, tile⟩ : ∃ t, t = if i = 0 then (s.tile k).groupStart o (o.opRows.take (dwRows v)) else s.tile k := ⟨_, rfl⟩
  have start : ∃ accs mode, t = { s.tile k with accs := accs, amode := mode } := by
    rw [tile]
    split
    · exact ⟨_, _, Tile.groupStart_eq _ _ _⟩
    · exact ⟨_, _, rfl⟩
  obtain ⟨accs, mode, start⟩ := start
  have streamed : s.ArrayRan (s.setTile k (s.streamRow t t.amode q fl).1) k := by
    rw [State.streamRow_eq, start]
    exact s.arrayRan_setTile k _ mode
  rw [State.groupPass, ← tile]
  split
  · exact streamed
  · exact streamed.trans ((State.onlyWritten_drainEach (h.congr streamed.cores streamed.poison) rows _).ran k)

end

end Sys2Proof.Machine
end

section
/-! PROOFS.  A row that the array passes before the rest of an operation (R164). -/

namespace Sys2Proof.Machine

/-! ### Rows beside the queue -/

/-- Rows 0 to r - 1 of an operation, which write where drain word v may, change nothing but memory and accumulators, and what
they change does not depend on the queue. -/
def GangOp.RowsBeside (o : GangOp) (k : Nat) (v : Word) (r : Nat) : Prop := ∀ (s : State) (i : Nat) (fl : SMap Flags), s.DrainOpen v r → i < r →
  (∀ qs, (s.requeue k qs).passRow k o i fl = ((s.passRow k o i fl).1.requeue k qs, (s.passRow k o i fl).2)) ∧ s.ArrayRan (s.passRow k o i fl).1 k

theorem GangOp.rowsBeside_drain {o : GangOp} {v : Word} (fn : o.fn = .mdrain) (word : o.rb = v) (k : Nat) : o.RowsBeside k v 32 := by
  intro s i fl h hi
  have row (u : State) : u.passRow k o i fl = u.drainRow k o v 32 i i fl := by
    rw [State.passRow, fn, word]
  refine ⟨fun qs => ?_, ?_⟩
  · rw [row, row, State.drainRow_requeue h hi]
  · rw [row, State.drainRow_eq h hi]
    exact (State.onlyWritten_writeRow h hi).ran k

theorem State.passRow_group {o : GangOp} {v : Word} (fn : o.fn = .mgrp) (one : o.groups = [v]) (s : State) (k : Nat) {i : Nat} (hi : i < dwRows v)
    {q : Nat × OpRec × Nat} (hq : o.opRows[i]? = some q) (fl : SMap Flags) : s.passRow k o i fl = s.groupPass k o v i q fl := by
  rw [State.passRow, fn]
  exact s.groupRow_eq k one hi hq fl

theorem GangOp.rowsBeside_group {o : GangOp} {v : Word} (fn : o.fn = .mgrp) (one : o.groups = [v]) (rows : dwRows v ≤ o.opRows.length) (k : Nat) :
    o.RowsBeside k v (dwRows v) := by
  intro s i fl h hi
  obtain ⟨q, hq⟩ : ∃ q, o.opRows[i]? = some q := ⟨_, List.getElem?_eq_getElem (hi.trans_le rows)⟩
  have row (u : State) := State.passRow_group fn one u k hi hq fl
  refine ⟨fun qs => ?_, ?_⟩
  · rw [row, row, State.groupPass_requeue s k h]
  · rw [row]
    exact State.arrayRan_groupPass i h q fl

section
variable {s : State} {k : Nat} {o : GangOp} {v : Word} {r : Nat}

theorem State.DrainOpen.of_ran {t : State} (h : s.DrainOpen v r) (ran : s.ArrayRan t k) : t.DrainOpen v r := h.congr ran.cores ran.poison

theorem State.passRows_requeue (beside : o.RowsBeside k v r) (h : s.DrainOpen v r) {n i : Nat} (hn : i + n ≤ r) (fl : SMap Flags) (qs : List GangOp) :
    (s.requeue k qs).passRows k o n i fl = ((s.passRows k o n i fl).1.requeue k qs, (s.passRows k o n i fl).2) := by
  induction n generalizing s i fl with
  | zero => rfl
  | succ n ih =>
    obtain ⟨row, ran⟩ := beside s i fl h (by omega)
    rw [State.passRows, State.passRows, row qs]
    exact ih (h.of_ran ran) (by omega) _

theorem State.arrayRan_passRows (beside : o.RowsBeside k v r) (h : s.DrainOpen v r) {n i : Nat} (hn : i + n ≤ r) (fl : SMap Flags) :
    s.ArrayRan (s.passRows k o n i fl).1 k := by
  induction n generalizing s i fl with
  | zero => exact .refl s k
  | succ n ih =>
    obtain ⟨-, ran⟩ := beside s i fl h (by omega)
    rw [State.passRows]
    exact ran.trans (ih (h.of_ran ran) (by omega) _)

theorem State.accrueCol_setTile {t : Tile} (ht : t.mslots = (s.tile k).mslots) (c : Nat) (f : Flags) :
    (s.setTile k t).accrueCol k o c f = (s.accrueCol k o c f).setTile k t := by
  have slot : (s.setTile k t).flagSlot k o c = s.flagSlot k o c :=
    State.flagSlot_congr (s := s) (t := s.setTile k t) (k := k) (fun w => ⟨rfl, rfl⟩) (by rw [s.tile_setTile_same k t, ht]) c
  rw [State.accrueCol, State.accrueCol, slot]
  cases s.flagSlot k o c <;> rfl

theorem State.accrueCols_requeue (fl : SMap Flags) (qs : List GangOp) : (s.requeue k qs).accrueCols k o fl = (s.accrueCols k o fl).requeue k qs := by
  induction fl generalizing s with
  | nil => rfl
  | cons p fl ih =>
    have tile : (s.accrueCol k o p.1 p.2).tile k = s.tile k := by
      rw [State.accrueCol]
      cases s.flagSlot k o p.1 <;> rfl
    have step : (s.requeue k qs).accrueCol k o p.1 p.2 = (s.accrueCol k o p.1 p.2).requeue k qs := by
      rw [State.requeue, State.accrueCol_setTile (by rfl), State.requeue, tile]
    rw [State.accrueCols_cons, State.accrueCols_cons, step, ih]

/-! ### An operation that runs -/

theorem State.RunsNext.running {rest : List GangOp} (h : s.RunsNext k o rest) {f : GangFn → Bool} (hf : f o.fn = true) :
    (s.tile k).running f = some o := by
  rw [Tile.running, h.head, List.find?_cons, h.started, h.fresh, hf]
  rfl

/-- The running operation ends (R145). -/
theorem State.RunsNext.onOp {rest : List GangOp} (h : s.RunsNext k o rest) {f : GangFn → Bool} (hf : f o.fn = true) (g : GangOp → State) :
    s.onOp k f g = .next (g o) := by
  rw [State.onOp.eq_def, if_pos h.runs, h.running hf]
  simp only [h.clean]
  rfl

theorem State.RunsNext.of_ran {t : State} {rest : List GangOp} (h : s.RunsNext k o rest) (ran : s.ArrayRan t k) (clean : s.poison = []) :
    t.RunsNext k o rest where
  runs := by
    have runs := h.runs
    rw [State.tileRuns] at runs ⊢
    rw [← runs]
    exact congrArg (List.all _) (funext fun c => State.coreRuns_of_eq ran.parts ran.sys (by rw [State.core_of_cores ran.cores]))
  head := by
    obtain ⟨accs, mode, tile⟩ := ran.tile
    rw [tile]
    exact h.head
  started := h.started
  fresh := h.fresh
  clean := by rw [State.opPoison, ran.poison, clean]; rfl
  number := h.number
  members := h.members

/-- The operation with its next row passed, and the flags of that. -/
def GangOp.past (o : GangOp) (fl : SMap Flags) : GangOp := { o with row := o.row + 1, fl := fl }

theorem State.RunsNext.past {rest : List GangOp} (h : s.RunsNext k o rest) (clean : s.poison = []) (fl : SMap Flags) :
    (s.requeue k (o.past fl :: rest)).RunsNext k (o.past fl) rest where
  runs := h.runs
  head := by rw [State.tile_requeue]
  started := h.started
  fresh := h.fresh
  clean := by
    have poison : (s.requeue k (o.past fl :: rest)).poison = [] := clean
    rw [State.opPoison, poison]
    rfl
  number := h.number
  members := h.members

theorem State.updOp_past {rest : List GangOp} (h : s.RunsNext k o rest) (fl : SMap Flags) :
    s.updOp k o (fun p => { p with row := p.row + 1, fl := fl }) = s.requeue k (o.past fl :: rest) := by
  have others : rest.map (fun p => if p.num = o.num then { p with row := p.row + 1, fl := fl } else p) = rest :=
    (List.map_congr_left fun p hp => if_neg (h.number p hp)).trans (List.map_id rest)
  rw [State.updOp, h.head, List.map_cons, others, if_pos rfl]
  rfl

theorem State.passRows_past (fl : SMap Flags) (n i : Nat) (g : SMap Flags) : s.passRows k (o.past fl) n i g = s.passRows k o n i g := by
  induction n generalizing s i g with
  | zero => rfl
  | succ n ih =>
    have row : s.passRow k (o.past fl) i g = s.passRow k o i g := rfl
    rw [State.passRows, State.passRows, row]
    exact ih _ _

theorem State.endOp_requeue {rest : List GangOp} (head : (s.tile k).queue = o :: rest) (fl : SMap Flags) :
    (s.requeue k (o.past fl :: rest)).endOp k (o.past fl) = s.endOp k o := by
  have same : (o.past fl :: rest).filter (fun p => p.num != o.num) = (s.tile k).queue.filter (fun p => p.num != o.num) := by
    rw [head]
    simp [GangOp.past]
  rw [State.endOp, State.endOp, State.tile_requeue, ← same, State.requeue, State.setTile_setTile]
  rfl

end

section
variable {s : State} {k : Nat} {o : GangOp} {v : Word} {r : Nat} {rest : List GangOp}

/-- A drain and a grouped product begin with their tile as it is. -/
theorem State.arrayRan_opBegin (begins : (s.tile k).opBegin o = s.tile k) : s.ArrayRan (s.opBegin k o) k := by
  rw [State.opBegin]
  split
  · rw [begins]
    exact s.arrayRan_setTile k (s.tile k).accs (s.tile k).amode
  · exact .refl s k

/-- The array passes the next row of an operation that is no span's. -/
theorem State.opRowPast_eq (h : s.RunsNext k o rest) (load : o.fn.isLoad = false) (single : o.isSpan = false) (clean : s.poison = [])
    (beside : o.RowsBeside k v r) (begins : (s.tile k).opBegin o = s.tile k) (open_ : s.DrainOpen v r) (count : o.rowCount = r) (left : o.row < r) :
    s.opRowPast k false = ((s.opBegin k o).passRow k o o.row o.fl).1.requeue k (o.past ((s.opBegin k o).passRow k o o.row o.fl).2 :: rest) := by
  have ready : s.spanReady k o = true := by rw [State.spanReady, single]; rfl
  have sound : s.nextPoison o = false := by
    rw [State.nextPoison]
    cases o.rowsLeft.head? with
    | none => rfl
    | some q => simp [State.rowPoison, State.anyPoison, clean]
  have ran := State.arrayRan_opBegin begins
  obtain ⟨-, row⟩ := beside (s.opBegin k o) o.row o.fl (open_.of_ran ran) left
  have next : ¬ o.rowCount ≤ o.row := by omega
  rw [State.opRowPast, h.running (f := fun f => f.isLoad == false) (by rw [load]; rfl)]
  simp only [h.runs, ready, sound, next, Bool.not_true, decide_false, Bool.or_self, Bool.false_eq_true, if_false]
  exact State.updOp_past (h.of_ran (ran.trans row) clean) _

theorem State.passAll_past (beside : o.RowsBeside k v r) (begins : (s.tile k).opBegin o = s.tile k) (open_ : s.DrainOpen v r) (count : o.rowCount = r)
    (left : o.row < r) :
    (((s.opBegin k o).passRow k o o.row o.fl).1.requeue k (o.past ((s.opBegin k o).passRow k o o.row o.fl).2 :: rest)).passAll k
        (o.past ((s.opBegin k o).passRow k o o.row o.fl).2) =
      (s.passAll k o).requeue k (o.past ((s.opBegin k o).passRow k o o.row o.fl).2 :: rest) := by
  have ran := State.arrayRan_opBegin begins
  obtain ⟨-, row⟩ := beside (s.opBegin k o) o.row o.fl (open_.of_ran ran) left
  obtain ⟨n, hn⟩ : ∃ n, r - o.row = n + 1 := ⟨r - o.row - 1, by omega⟩
  obtain ⟨z, hz⟩ : ∃ z, z = (s.opBegin k o).passRow k o o.row o.fl := ⟨_, rfl⟩
  have all : s.passAll k o = (z.1.passRows k o n (o.row + 1) z.2).1.accrueCols k o (z.1.passRows k o n (o.row + 1) z.2).2 := by
    rw [State.passAll, count, hn, State.passRows, ← hz]
  have fewer : (o.past z.2).rowCount - (o.past z.2).row = n := by
    have same : (o.past z.2).rowCount = o.rowCount := rfl
    have row : (o.past z.2).row = o.row + 1 := rfl
    omega
  have begun : (z.1.requeue k (o.past z.2 :: rest)).opBegin k (o.past z.2) = z.1.requeue k (o.past z.2 :: rest) := if_neg (Nat.succ_ne_zero o.row)
  rw [← hz] at row ⊢
  rw [all, State.passAll, fewer, begun, State.passRows_past]
  have rows := State.passRows_requeue beside ((open_.of_ran ran).of_ran row) (n := n) (i := o.row + 1) (by omega) z.2 (o.past z.2 :: rest)
  have flags : (o.past z.2).fl = z.2 := rfl
  have place : (o.past z.2).row = o.row + 1 := rfl
  rw [flags, place, rows]
  exact State.accrueCols_requeue _ _

theorem State.tile_passAll (beside : o.RowsBeside k v r) (begins : (s.tile k).opBegin o = s.tile k) (open_ : s.DrainOpen v r) (count : o.rowCount = r)
    (left : o.row ≤ r) : ∃ accs mode, (s.passAll k o).tile k = { s.tile k with accs := accs, amode := mode } := by
  have ran := State.arrayRan_opBegin begins
  have rows := State.arrayRan_passRows beside (open_.of_ran ran) (n := o.rowCount - o.row) (i := o.row) (by omega) o.fl
  obtain ⟨slots, accrued⟩ := State.accrueCols_frame (s := ((s.opBegin k o).passRows k o (o.rowCount - o.row) o.row o.fl).1) (k := k) (o := o)
    ((s.opBegin k o).passRows k o (o.rowCount - o.row) o.row o.fl).2
  rw [State.passAll, accrued]
  exact (ran.trans rows).tile

/-- An operation's end that does not read what it has passed leaves the same with a row passed before the rest (R164). -/
theorem State.onOp_opRowPast (h : s.RunsNext k o rest) (load : o.fn.isLoad = false) (single : o.isSpan = false) (beside : o.RowsBeside k v r)
    (begins : (s.tile k).opBegin o = s.tile k) (open_ : s.DrainOpen v r) (count : o.rowCount = r) {f : GangFn → Bool} (hf : f o.fn = true)
    {g : State → GangOp → State}
    (ends : ∀ u fl, (u.tile k).queue = o :: rest → g (u.requeue k (o.past fl :: rest)) (o.past fl) = g u o) :
    (s.opRowPast k false).onOp k f (fun p => g ((s.opRowPast k false).passAll k p) p) = s.onOp k f (fun p => g (s.passAll k p) p) := by
  rcases Nat.lt_or_ge o.row r with left | done
  · have ran := State.arrayRan_opBegin begins
    obtain ⟨-, row⟩ := beside (s.opBegin k o) o.row o.fl (open_.of_ran ran) left
    obtain ⟨accs, mode, tile⟩ := State.tile_passAll beside begins open_ count left.le
    have next := (h.of_ran (ran.trans row) open_.poison).past ((ran.trans row).poison.trans open_.poison)
      ((s.opBegin k o).passRow k o o.row o.fl).2
    rw [State.opRowPast_eq h load single open_.poison beside begins open_ count left, next.onOp hf, h.onOp hf,
      State.passAll_past beside begins open_ count left, ends _ _ (by rw [tile, h.head])]
  · have passed : s.opRowPast k false = s := by
      rw [State.opRowPast, h.running (f := fun f => f.isLoad == false) (by rw [load]; rfl)]
      simp [count, done]
    rw [passed]

/-- DRAIN leaves the same with a row passed before the rest (R153, R164). -/
theorem State.drain_opRowPast (h : s.RunsNext k o rest) (fn : o.fn = .mdrain) (word : o.rb = v) (open_ : s.DrainOpen v 32) :
    exec (.drain k) (s.opRowPast k false) = exec (.drain k) s :=
  State.onOp_opRowPast h (by rw [fn]; rfl) (by rw [GangOp.isSpan, fn]; rfl) (GangOp.rowsBeside_drain fn word k) (by rw [Tile.opBegin, fn]) open_
    (by rw [GangOp.rowCount, fn]) (f := fun f => decide (f = .mdrain)) (by rw [fn]; rfl)
    (g := fun u o => (u.endOp k o).drainWake k o.launch o.rb 1) fun u fl head => by
      rw [State.endOp_requeue head]
      rfl

/-- GROUPED_PRODUCT of one group leaves the same with a row passed before the rest (R154, R164). -/
theorem State.groupedProduct_opRowPast (h : s.RunsNext k o rest) (fn : o.fn = .mgrp) (one : o.groups = [v]) (rows : dwRows v ≤ o.opRows.length)
    (open_ : s.DrainOpen v (dwRows v)) : exec (.groupedProduct k) (s.opRowPast k false) = exec (.groupedProduct k) s :=
  State.onOp_opRowPast h (by rw [fn]; rfl) (by rw [GangOp.isSpan, fn]; rfl) (GangOp.rowsBeside_group fn one rows k) (by rw [Tile.opBegin, fn]) open_
    (by rw [GangOp.rowCount, fn, one]; rfl) (f := fun f => decide (f = .mgrp)) (by rw [fn]; rfl)
    (g := fun u o => o.groups.foldl (fun s v => s.drainWake k o.launch v (if dwRows v = 0 then 0 else 1))
      ((u.setTile k { u.tile k with accs := [], amode := .unset }).endOp k o)) fun u fl head => by
        have cleared : (u.requeue k (o.past fl :: rest)).setTile k { (u.requeue k (o.past fl :: rest)).tile k with accs := [], amode := .unset } =
            (u.setTile k { u.tile k with accs := [], amode := .unset }).requeue k (o.past fl :: rest) := by
          rw [State.tile_requeue, ← State.setTile_requeue]
        rw [cleared, State.endOp_requeue (by rw [State.tile_setTile_same]; exact head)]
        rfl

end

end Sys2Proof.Machine
end

section
/-! PROOFS.  The end of a drain (R153, R323): memory, the slots' flags, the ranges and the wake-up. -/

namespace Sys2Proof.Machine

theorem Slot.onlyFlags_accrue (x : Slot) (f : Flags) : x.OnlyFlags (x.accrue f) f := by
  rw [Slot.accrue_eq_flagged]
  exact ⟨fun _ => rfl, fun _ _ => ⟨rfl, rfl⟩, rfl, rfl⟩

theorem State.DrainedTo.congr {s s' t u : State} {v : Word} {r : Nat} {out : Nat → Nat → Nat × Tag × Flags} (h : s.DrainedTo t v r out)
    (sm : s'.mem = s.mem) (ss : s'.stags = s.stags) (um : u.mem = t.mem) (us : u.stags = t.stags) : s'.DrainedTo u v r out := by
  obtain ⟨elements, masks, outside, tags⟩ := h
  have tag (a : Nat) : u.sideTag a = t.sideTag a := by rw [State.sideTag, State.sideTag, us]
  have old (a : Nat) : s'.sideTag a = s.sideTag a := by rw [State.sideTag, State.sideTag, ss]
  refine ⟨fun j n hj hn => ?_, fun hm j hj => ?_, fun a ha => ?_, fun i hi => ?_⟩
  · rw [State.nat_of_mem um]
    exact elements j n hj hn
  · rw [State.nat_of_mem um]
    exact masks hm j hj
  · rw [State.byte_of_mem um, State.byte_of_mem sm, tag, old]
    exact outside a ha
  · rw [tag]
    exact tags i hi

/-- What the end of a drain under drain word v leaves (R153, R323). -/
structure State.DrainEnds (s t : State) (k : Nat) (o : GangOp) (v : Word) (r d : Nat) (out : Nat → Nat → Nat × Tag × Flags) (col : Nat → Flags)
    (T : Tile) : Prop where
  drained : s.DrainedTo t v r out
  tile : t.tile k = T
  ranges : t.ranges = s.ranges.filter (fun r => decide (r.owner ≠ .op k o.num))
  wakes : if dwWake v then ∃ m, t.net.getLast? = some m ∧ m.body = .decrement (dwRecord v) d o.launch false ∧ t.net.length = s.net.length + 1
    else t.net.length = s.net.length
  flags : ∀ c w, c < 16 → s.flagSlot k o c = some w → (s.slot w).OnlyFlags (t.slot w) (col c)
  slots : ∀ w, (∀ c, c < 16 → s.flagSlot k o c ≠ some w) → w.slot < 8 → t.slot w = s.slot w
  cores : s.SameCores t
  tiles : s.OtherTiles t k

section
variable {s z : State} {k : Nat} {o : GangOp} {v : Word} {r : Nat} {rest : List GangOp} {out : Nat → Nat → Nat × Tag × Flags}

theorem State.drainWake_frame (s : State) (k launch : Nat) (v : Word) (d : Nat) :
    ∃ net id, s.drainWake k launch v d = { s with net := net, nextId := id } ∧
      if dwWake v then ∃ m, net.getLast? = some m ∧ m.body = .decrement (dwRecord v) d launch false ∧ net.length = s.net.length + 1
      else net.length = s.net.length := by
  rw [State.drainWake]
  by_cases wake : dwWake v = true
  · rw [if_pos wake]
    exact ⟨_, _, rfl, by rw [if_pos wake]; exact ⟨_, List.getLast?_concat, rfl, List.length_append⟩⟩
  · rw [if_neg wake]
    exact ⟨s.net, s.nextId, rfl, by rw [if_neg wake]⟩

/-- An operation with its rows in memory ends. -/
theorem State.drainEnds (h : s.RunsNext k o rest) (on : o.OnTile k) (ran : s.ArrayRan z k) {fl : SMap Flags} (listed : Listed fl)
    {col : Nat → Flags} (noted : ∀ c, c < 16 → mapGet fl 0 c = col c) (written : s.DrainedTo z v r out) {T : Tile} (head : T.queue = o :: rest) (d : Nat) :
    s.DrainEnds ((((z.accrueCols k o fl).setTile k T).endOp k o).drainWake k o.launch v d) k o v r d out col { T with queue := rest } := by
  obtain ⟨slots, accrued⟩ := State.accrueCols_frame (s := z) (k := k) (o := o) fl
  obtain ⟨marked, unmarked⟩ := State.accrueCols_slots (s := z) on listed
  obtain ⟨u, hu⟩ : ∃ u, u = ((z.accrueCols k o fl).setTile k T).endOp k o := ⟨_, rfl⟩
  obtain ⟨net, id, frame, wake⟩ := u.drainWake_frame k o.launch v d
  have slot := State.slot_of_slots ran.slots
  have slotOf (c : Nat) : z.flagSlot k o c = s.flagSlot k o c := by
    obtain ⟨accs, mode, tile⟩ := ran.tile
    exact State.flagSlot_congr (fun w => by rw [slot]; exact ⟨rfl, rfl⟩) (by rw [tile]) c
  have accs (w : Who) : ({ u with net := net, nextId := id } : State).slot w = (z.accrueCols k o fl).slot w := by
    rw [hu]
    rfl
  have left : (o :: rest).filter (fun p => p.num != o.num) = rest := by
    rw [List.filter_cons_of_neg (by simp), List.filter_eq_self]
    exact fun p hp => by simpa using h.number p hp
  have tile (j : Nat) : u.tile j = if j = k then { T with queue := rest } else z.tile j := by
    have ended : u.tile j = ((z.accrueCols k o fl).setTile k { T with queue := rest }).tile j := by
      rw [hu, State.endOp, State.tile_setTile_same, head, left, State.setTile_setTile]
      rfl
    rw [ended, State.tile_setTile, accrued]
    rfl
  have sent : u.net = z.net := by rw [hu, accrued]; rfl
  rw [← hu, frame]
  refine ⟨written.congr rfl rfl ?_ ?_, ?_, ?_, ?_, fun c w hc hw => ?_, fun w hw hs => ?_, fun c => ?_, fun j hj => ?_⟩
  · rw [hu, accrued]; rfl
  · rw [hu, accrued]; rfl
  · exact (tile k).trans (if_pos rfl)
  · rw [hu, accrued, ← ran.ranges]
    refine List.filter_congr fun r _ => ?_
    simp
  · rw [sent, ran.net] at wake
    exact wake
  · rw [accs, marked c w hc ((slotOf c).trans hw), slot, noted c hc]
    exact Slot.onlyFlags_accrue _ _
  · rw [accs, unmarked w (fun c hc => by rw [slotOf]; exact hw c hc) hs, slot]
  · rw [← State.core_of_cores ran.cores, hu, accrued]
    rfl
  · exact ((tile j).trans (if_neg hj)).trans (ran.tiles j hj)

theorem State.endOp_setTile_self (s : State) (k : Nat) (o : GangOp) : (s.setTile k (s.tile k)).endOp k o = s.endOp k o := by
  rw [State.endOp, State.endOp, State.tile_setTile_same, State.setTile_setTile]

end

section
variable {s : State} {k : Nat} {o : GangOp} {v : Word} {rest : List GangOp} {ms : List Nat} {r : Nat} {out : Nat → Nat → Nat × Tag × Flags}

theorem State.passRows_succ_last (s : State) (k : Nat) (o : GangOp) (n i : Nat) (fl : SMap Flags) :
    s.passRows k o (n + 1) i fl = (s.passRows k o n i fl).1.passRow k o (i + n) (s.passRows k o n i fl).2 := by
  induction n generalizing s i fl with
  | zero => rfl
  | succ n ih =>
    rw [State.passRows, ih, State.passRows, show i + 1 + n = i + (n + 1) by omega]

/-! ### A drain of all rows (R153) -/

/-- Accumulator (m, n) of a tile as drain word v drains it. -/
def State.drained (s : State) (k : Nat) (o : GangOp) (v : Word) (m n : Nat) : Nat × Tag × Flags :=
  ((s.tile k).acc m n).drain (s.tile k).amode (dwFmt v) (o.colSat (n / 2))

theorem State.passRows_drain (fn : o.fn = .mdrain) (word : o.rb = v) (n : Nat) (fl : SMap Flags) :
    s.passRows k o n 0 fl = s.drainEach k o v 32 (List.range n) fl := by
  induction n with
  | zero => rfl
  | succ n ih => rw [State.passRows_succ_last, ih, List.range_succ, State.drainEach_concat, State.passRow, fn, word, List.length_range, Nat.zero_add]

/-- Rows drained, all of those that a drain word names: what they write, and their flags. -/
theorem State.drainEach_drainedTo (open_ : s.DrainOpen v r) (len : ms.length = r) (fl : SMap Flags)
    (drains : ∀ j (hj : j < ms.length), ∀ n, n < 32 → ((s.tile k).acc ms[j] n).drain (s.tile k).amode (dwFmt v) (o.colSat (n / 2)) = out j n)
    (fits : dwFmt v = 4 → ∀ j n, (out j n).1 < 2 ^ 32) :
    s.DrainedTo (s.drainEach k o v r ms fl).1 v r out ∧ (s.drainEach k o v r ms fl).2 = noteRows fl (fun j n => (out j n).2.2) r := by
  rw [State.drainEach_eq open_ len.le fl drains, len]
  exact ⟨State.drainedTo_of_rowsWritten (State.rowsWritten_writeRows open_ fits le_rfl), rfl⟩

/-- An operation that begins with its tile as it is, from its first row on. -/
theorem State.passAll_fresh (begins : (s.tile k).opBegin o = s.tile k) (first : o.row = 0) (unflagged : o.fl = []) :
    s.passAll k o = ((s.setTile k (s.tile k)).passRows k o o.rowCount 0 []).1.accrueCols k o
      ((s.setTile k (s.tile k)).passRows k o o.rowCount 0 []).2 := by
  rw [State.passAll, State.opBegin, begins, if_pos first, first, unflagged, Nat.sub_zero]

/-- DRAIN from its first row on (R153). -/
theorem State.drain_ends (h : s.RunsNext k o rest) (on : o.OnTile k) (fn : o.fn = .mdrain) (word : o.rb = v) (open_ : s.DrainOpen v 32)
    (first : o.row = 0) (unflagged : o.fl = []) :
    ∃ t, exec (.drain k) s = .next t ∧ s.DrainEnds t k o v 32 1 (s.drained k o v) (fun c => colFlags (fun j n => (s.drained k o v j n).2.2) 32 c 0)
      { s.tile k with queue := rest } := by
  obtain ⟨b, begun⟩ : ∃ b, b = s.setTile k (s.tile k) := ⟨_, rfl⟩
  have ran : s.ArrayRan b k := begun ▸ s.arrayRan_setTile k (s.tile k).accs (s.tile k).amode
  have tile : b.tile k = s.tile k := by rw [begun, State.tile_setTile_same]
  have open' := open_.of_ran ran
  obtain ⟨z, hz⟩ : ∃ z, z = b.drainEach k o v 32 (List.range 32) [] := ⟨_, rfl⟩
  have passed : s.passAll k o = z.1.accrueCols k o z.2 := by
    have count : o.rowCount = 32 := by rw [GangOp.rowCount, fn]
    rw [State.passAll_fresh (by rw [Tile.opBegin, fn]) first unflagged, ← begun, count, State.passRows_drain fn word, hz]
  have written : b.OnlyWritten z.1 := hz ▸ State.onlyWritten_drainEach open' (by simp) []
  have rows := State.drainEach_drainedTo (k := k) (o := o) (ms := List.range 32) (out := s.drained k o v) open' List.length_range []
    (fun j hj n _ => by rw [tile, List.getElem_range, State.drained]) fun four j n => by
      rw [State.drained, four]
      exact Accum.drain_int32_lt
  rw [← hz] at rows
  obtain ⟨drained, flags⟩ := rows
  have same : (z.1.accrueCols k o z.2).tile k = s.tile k := by
    obtain ⟨slots, frame⟩ := State.accrueCols_frame (s := z.1) (k := k) (o := o) z.2
    rw [frame, ← tile]
    exact State.tile_of_tiles written.tiles k
  refine ⟨_, h.onOp (f := fun f => decide (f = .mdrain)) (by rw [fn]; rfl) _, ?_⟩
  rw [passed, ← State.endOp_setTile_self, same, word]
  refine State.drainEnds h on (ran.trans (written.ran k)) ?_ (fun c hc => ?_) (drained.congr (begun ▸ rfl) (begun ▸ rfl) rfl rfl) h.head 1
  · rw [flags]
    exact listed_nil.noteRows _ _
  · rw [flags, mapGet_noteRows _ _ _ hc]
    rfl

end

/-! ### A grouped product of one group (R154, R295) -/

theorem maxE_none (b : Option Int) : maxE none b = b := by cases b <;> rfl

theorem pairSig_exact (b : Tag) : pairSig Tag.exact b = b := if_pos rfl

theorem accNext_reset_none (live : Plane) (mode : AccMode) (r : OpRec) (n : Nat) : accNext live mode r none n .reset = ({ Accum.reset with k := r.cols }, 0) := by
  rw [accNext]
  simp [Accum.reset]

/-- A K-block that an accumulator at reset takes (R97). -/
theorem accNext_reset_some (live : Plane) (mode : AccMode) (r : OpRec) (vs : List (Option FV)) (n : Nat) : accNext live mode r (some vs) n .reset =
    ({ val := (accSum mode zeroFV (live.kblock vs n).1).1, m := (live.kblock vs n).2, k := r.cols
       sig := pairSig (readTag (winFull r.window) r.asig) (readTag (winFull live.win) (mapGet live.sigs Tag.exact n))
       rounded := (accSum mode zeroFV (live.kblock vs n).1).2.getLsbD 0 },
      if mode = .int then 0 else live.kblockFlags vs n ||| (accSum mode zeroFV (live.kblock vs n).1).2) := by
  have zero : Accum.reset.val = zeroFV := rfl
  have most : Accum.reset.m = none := rfl
  have tag : Accum.reset.sig = Tag.exact := rfl
  have count : Accum.reset.k = 0 := rfl
  have exact_ : Accum.reset.rounded = false := rfl
  rw [accNext]
  simp only [zero, most, tag, count, exact_, maxE_none, pairSig_exact, Nat.zero_add, Bool.false_or, flags_and_nx]

section
variable {s : State} {k : Nat} {o : GangOp} {v : Word} {rest : List GangOp}

/-- The mode of a grouped product (R154). -/
def State.groupMode (s : State) (k : Nat) (o : GangOp) : AccMode := pairMode (s.tile k).live.win o.window

/-- An accumulator of a group after its row, and the flags of that. -/
def State.groupAcc (s : State) (k : Nat) (o : GangOp) (q : Nat × OpRec × Nat) (n : Nat) : Accum × Flags :=
  accNext (s.tile k).live (s.groupMode k o) q.2.1 (s.opRow q.2.1 q.2.2) n .reset

/-- Column n of row j of a group as its drain word drains it. -/
def State.grouped (s : State) (k : Nat) (o : GangOp) (v : Word) (j n : Nat) : Nat × Tag × Flags :=
  ((o.opRows[j]?).map (fun q => (s.groupAcc k o q n).1.drain (s.groupMode k o) (dwFmt v) (o.colSat (n / 2)))).getD (0, 0, 0)

/-- The flags of accumulating column n of row j of a group. -/
def State.groupFlags (s : State) (k : Nat) (o : GangOp) (j n : Nat) : Flags := ((o.opRows[j]?).map (fun q => (s.groupAcc k o q n).2)).getD 0

/-- The first n rows of a group streamed. -/
def State.groupRows (s : State) (k : Nat) (o : GangOp) (v : Word) (n : Nat) : Tile × SMap Flags :=
  s.streamRows ((s.tile k).groupStart o (o.opRows.take (dwRows v))) (o.opRows.take n) []

/-- A group's tile before row n: as it was before the first row, and then with the rows before n streamed. -/
def State.groupTile (s : State) (k : Nat) (o : GangOp) (v : Word) (n : Nat) : Tile := if n = 0 then s.tile k else (s.groupRows k o v n).1

theorem State.groupRows_succ {n : Nat} {q : Nat × OpRec × Nat} (hq : o.opRows[n]? = some q) :
    s.groupRows k o v (n + 1) = s.streamRow (s.groupRows k o v n).1 (s.groupRows k o v n).1.amode q (s.groupRows k o v n).2 := by
  rw [State.groupRows, List.take_add_one, hq, State.streamRows, List.foldl_append]
  rfl

theorem State.groupPass_groupTile {n : Nat} {q : Nat × OpRec × Nat} (hq : o.opRows[n]? = some q) :
    (s.setTile k (s.groupTile k o v n)).groupPass k o v n q (s.groupRows k o v n).2 =
      if n + 1 < dwRows v then (s.setTile k (s.groupRows k o v (n + 1)).1, (s.groupRows k o v (n + 1)).2)
      else (s.setTile k (s.groupRows k o v (n + 1)).1).drainEach k o v (dwRows v) ((o.opRows.take (dwRows v)).map rowOf) (s.groupRows k o v (n + 1)).2 := by
  have before : (if n = 0 then (s.groupTile k o v n).groupStart o (o.opRows.take (dwRows v)) else s.groupTile k o v n) = (s.groupRows k o v n).1 := by
    rw [State.groupTile]
    by_cases first : n = 0
    · rw [if_pos first, if_pos first, first]
      rfl
    · rw [if_neg first, if_neg first]
  rw [State.groupPass, State.tile_setTile_same, before, State.streamRow_setTile, State.setTile_setTile, State.groupRows_succ hq]

theorem State.passRows_group (fn : o.fn = .mgrp) (one : o.groups = [v]) (rows : dwRows v ≤ o.opRows.length) {n : Nat} (hn : n < dwRows v) :
    (s.setTile k (s.tile k)).passRows k o n 0 [] = (s.setTile k (s.groupTile k o v n), (s.groupRows k o v n).2) := by
  induction n with
  | zero => rfl
  | succ n ih =>
    obtain ⟨q, hq⟩ : ∃ q, o.opRows[n]? = some q := ⟨_, List.getElem?_eq_getElem (by omega)⟩
    rw [State.passRows_succ_last, ih (by omega), Nat.zero_add, State.passRow_group fn one _ k (by omega) hq, State.groupPass_groupTile hq, if_pos hn]
    rfl

/-- Rows 0 to n - 1 of a group streamed: each accumulator of their rows takes its own K-block from reset. -/
theorem State.groupRows_spec {n : Nat} (hn : n ≤ dwRows v) (rows : n ≤ o.opRows.length) (distinct : (o.opRows.map rowOf).Pairwise (· < ·)) :
    (s.groupRows k o v n).1 = { s.tile k with accs := (s.groupRows k o v n).1.accs, amode := s.groupMode k o } ∧
    (∀ q ∈ o.opRows.take n, ∀ c, c < 32 → (s.groupRows k o v n).1.acc (rowOf q) c = (s.groupAcc k o q c).1) ∧
    (s.groupRows k o v n).2 = noteRows [] (s.groupFlags k o) n := by
  obtain ⟨t, start⟩ : ∃ t, t = (s.tile k).groupStart o (o.opRows.take (dwRows v)) := ⟨_, rfl⟩
  have once (q : Nat × OpRec × Nat) (hq : q ∈ o.opRows.take n) (c : Nat) (hc : c < 32) : s.streamed t t.amode q c = s.groupAcc k o q c := by
    rw [State.streamed, start, Tile.groupStart_acc _ _ ((List.take_subset_take_left _ hn) hq) hc, Tile.groupStart_eq, State.groupAcc, State.groupMode]
  obtain ⟨frame, -, accs, flags⟩ := s.streamRows_spec t (o.opRows.take n) [] (distinct.sublist ((List.take_sublist _ _).map rowOf))
  have all : s.groupRows k o v n = s.streamRows t (o.opRows.take n) [] := by rw [State.groupRows, start]
  rw [all]
  refine ⟨?_, fun q hq c hc => ?_, ?_⟩
  · rw [frame, start, Tile.groupStart_eq, State.groupMode]
  · rw [accs q hq c hc, once q hq c hc]
  · have count : (o.opRows.take n).length = n := List.length_take_of_le rows
    rw [flags, noteEach_eq_noteRows _ _ _ (s.groupFlags k o) fun j hj c hc => ?_, count]
    rw [once _ (List.getElem_mem hj) c hc, List.getElem_take, State.groupFlags, List.getElem?_eq_getElem (by omega)]
    rfl

/-- The rows of a group: streamed, and then drained. -/
theorem State.passRows_group_all (fn : o.fn = .mgrp) (one : o.groups = [v]) (rows : dwRows v ≤ o.opRows.length)
    (distinct : (o.opRows.map rowOf).Pairwise (· < ·)) : ∃ T : Tile, (∃ accs mode, T = { s.tile k with accs := accs, amode := mode }) ∧
      (∀ j (hj : j < dwRows v), ∀ n, n < 32 →
        (T.acc (rowOf (o.opRows[j]'(hj.trans_le rows))) n).drain T.amode (dwFmt v) (o.colSat (n / 2)) = s.grouped k o v j n) ∧
      (s.setTile k (s.tile k)).passRows k o (dwRows v) 0 [] =
        (s.setTile k T).drainEach k o v (dwRows v) ((o.opRows.take (dwRows v)).map rowOf) (noteRows [] (s.groupFlags k o) (dwRows v)) := by
  rcases Nat.eq_zero_or_pos (dwRows v) with zero | pos
  · refine ⟨s.tile k, ⟨_, _, rfl⟩, fun j hj => absurd hj (by omega), ?_⟩
    rw [zero]
    rfl
  · obtain ⟨n, count⟩ : ∃ n, dwRows v = n + 1 := ⟨dwRows v - 1, by omega⟩
    obtain ⟨q, hq⟩ : ∃ q, o.opRows[n]? = some q := ⟨_, List.getElem?_eq_getElem (by omega)⟩
    obtain ⟨frame, accs, flags⟩ := State.groupRows_spec (s := s) (k := k) (n := dwRows v) le_rfl rows distinct
    refine ⟨(s.groupRows k o v (dwRows v)).1, ⟨_, _, frame⟩, fun j hj c hc => ?_, ?_⟩
    · have here : o.opRows[j] ∈ o.opRows.take (dwRows v) := List.mem_take_iff_getElem.mpr ⟨j, by omega, rfl⟩
      have mode : (s.groupRows k o v (dwRows v)).1.amode = s.groupMode k o := by rw [frame]
      rw [accs _ here c hc, mode, State.grouped, List.getElem?_eq_getElem (by omega)]
      rfl
    · have last := State.groupPass_groupTile (s := s) (k := k) (v := v) hq
      rw [if_neg (by omega), ← count, flags] at last
      have before := State.passRows_group (s := s) (k := k) fn one rows (n := n) (by omega)
      rw [← last]
      conv_lhs => rw [count]
      rw [State.passRows_succ_last, before, Nat.zero_add, State.passRow_group fn one _ k (by omega) hq]

/-- GROUPED_PRODUCT of one group from its first row on (R154, R295). -/
theorem State.groupedProduct_ends (h : s.RunsNext k o rest) (on : o.OnTile k) (fn : o.fn = .mgrp) (one : o.groups = [v])
    (rows : dwRows v ≤ o.opRows.length) (distinct : (o.opRows.map rowOf).Pairwise (· < ·)) (open_ : s.DrainOpen v (dwRows v))
    (first : o.row = 0) (unflagged : o.fl = []) :
    ∃ t, exec (.groupedProduct k) s = .next t ∧ s.DrainEnds t k o v (dwRows v) (if dwRows v = 0 then 0 else 1) (s.grouped k o v)
      (fun c => colFlags (fun j n => s.groupFlags k o j n ||| (s.grouped k o v j n).2.2) (dwRows v) c 0)
      { s.tile k with accs := [], amode := .unset, queue := rest } := by
  obtain ⟨T, ⟨accs, mode, frame⟩, drains, passes⟩ := State.passRows_group_all (s := s) (k := k) fn one rows distinct
  obtain ⟨b, streamed⟩ : ∃ b, b = s.setTile k T := ⟨_, rfl⟩
  have ran : s.ArrayRan b k := by
    rw [streamed, frame]
    exact s.arrayRan_setTile k accs mode
  have tile : b.tile k = T := by rw [streamed, State.tile_setTile_same]
  have open' := open_.of_ran ran
  have count : ((o.opRows.take (dwRows v)).map rowOf).length = dwRows v := by rw [List.length_map, List.length_take_of_le rows]
  have drained := State.drainEach_drainedTo (k := k) (o := o) (out := s.grouped k o v) open' count (noteRows [] (s.groupFlags k o) (dwRows v))
    (fun j hj n hn => by
      rw [tile, List.getElem_map, List.getElem_take]
      exact drains j (count ▸ hj) n hn) fun four j n => by
        rw [State.grouped, four]
        cases o.opRows[j]? with
        | none => exact Nat.two_pow_pos 32
        | some q => exact Accum.drain_int32_lt (sat := o.colSat (n / 2))
  have written := State.onlyWritten_drainEach (k := k) (o := o) open' count.le (noteRows [] (s.groupFlags k o) (dwRows v))
  rw [← streamed] at passes
  rw [← passes] at drained written
  obtain ⟨z, hz⟩ : ∃ z, z = (s.setTile k (s.tile k)).passRows k o (dwRows v) 0 [] := ⟨_, rfl⟩
  rw [← hz] at drained written
  obtain ⟨memory, flags⟩ := drained
  have passed : s.passAll k o = z.1.accrueCols k o z.2 := by
    have total : o.rowCount = dwRows v := by rw [GangOp.rowCount, fn, one]; rfl
    rw [State.passAll_fresh (by rw [Tile.opBegin, fn]) first unflagged, total, ← hz]
  have after : (z.1.accrueCols k o z.2).tile k = { s.tile k with accs := accs, amode := mode } := by
    obtain ⟨slots, accrued⟩ := State.accrueCols_frame (s := z.1) (k := k) (o := o) z.2
    rw [accrued, ← frame, ← tile]
    exact State.tile_of_tiles written.tiles k
  refine ⟨_, h.onOp (f := fun f => decide (f = .mgrp)) (by rw [fn]; rfl) _, ?_⟩
  dsimp only
  rw [passed, one, after, List.foldl_cons, List.foldl_nil]
  refine State.drainEnds (T := { s.tile k with accs := [], amode := .unset }) h on (ran.trans (written.ran k)) ?_ (fun c hc => ?_)
    (memory.congr (streamed ▸ rfl) (streamed ▸ rfl) rfl rfl) h.head _
  · rw [flags]
    exact (listed_nil.noteRows _ _).noteRows _ _
  · rw [flags, mapGet_noteRows _ _ _ hc, mapGet_noteRows _ _ _ hc]
    exact colFlags_or _ _ _ _

end

theorem GangOp.colSat_iff (o : GangOp) (c : Nat) : o.colSat c = true ↔ ∃ m ∈ o.members, m.who.core % 16 = c ∧ m.sat = true := by
  rw [GangOp.colSat, List.any_eq_true]
  simp only [Bool.and_eq_true, decide_eq_true_iff]

/-- Settles O43: the rows of a drain, or of a group first streamed and then drained, are followed one by one; what each leaves is a
row of memory and of flags, and none reads the queue. -/
theorem arrayDrains : Obligations.ArrayDrains := by
  intro s k o rest v x ors wakes drains mode tag once group added out
  have grouped : group = s.grouped k o v := funext fun j => funext fun n => by
    refine congrArg (fun f => ((o.opRows[j]?).map f).getD (0, 0, 0)) (funext fun q => congrArg (fun a => Accum.drain a mode (dwFmt v) (o.colSat (n / 2))) ?_)
    show once q.2.1 q.2.2 n = (s.groupAcc k o q n).1
    simp only [once, State.groupAcc]
    cases s.opRow q.2.1 q.2.2 with
    | none => exact (congrArg Prod.fst (accNext_reset_none _ _ _ _)).symm
    | some vs => exact (congrArg Prod.fst (accNext_reset_some _ _ _ _ _)).symm
  have flagged : added = s.groupFlags k o := funext fun j => funext fun n => by
    refine congrArg (fun f => ((o.opRows[j]?).map f).getD 0) (funext fun q => ?_)
    simp only [State.groupAcc]
    cases s.opRow q.2.1 q.2.2 with
    | none => exact (congrArg Prod.snd (accNext_reset_none _ _ _ _)).symm
    | some vs => exact (congrArg Prod.snd (accNext_reset_some _ _ _ _ _)).symm
  refine ⟨fun h two => ?_, o.colSat_iff, Accum.drain_values⟩
  have on : o.OnTile k := ⟨h.members, fun m hm => (two m hm).1⟩
  refine ⟨fun fn word open_ => ⟨fun first unflagged => ?_, State.drain_opRowPast h fn word open_⟩, fun fn words rows open_ => ?_⟩
  · obtain ⟨t, ran, ends⟩ := State.drain_ends h on fn word open_ first unflagged
    exact ⟨t, ran, ends.drained, ends.tile, ends.ranges, ends.wakes, ends.flags, ends.slots, ends.cores, ends.tiles⟩
  · have one : o.groups = [v] := by rw [GangOp.groups, words]; rfl
    refine ⟨fun first unflagged => ?_, State.groupedProduct_opRowPast h fn one rows open_⟩
    obtain ⟨t, ran, ends⟩ := State.groupedProduct_ends h on fn one rows (GangOp.rows_distinct on fun m hm => (two m hm).2) open_ first unflagged
    rw [grouped, flagged]
    exact ⟨t, ran, ends.drained, ends.tile, ends.ranges, ends.wakes, ends.flags, ends.slots, ends.cores, ends.tiles⟩

end Sys2Proof.Machine
end
